-- ==== Sys2Proof/Word.lean ====
section
/-! DEFINITION. The machine word of the TZ-192 (R67: every access is one 32-bit word) and its plainest arithmetic. -/

namespace Sys2Proof

/-- A bus word. -/
abbrev Word := BitVec 32

/-- An instant or a length of time in units of 2⁻¹⁶ ns, the fraction unit of network time (R295). -/
abbrev Time := Nat

/-- Bits `lo` upwards, `w` of them, of a number. -/
def bits (v lo w : Nat) : Nat := v / 2 ^ lo % 2 ^ w

/-- Bit `n` of a number. -/
def bit (v n : Nat) : Bool := v / 2 ^ n % 2 == 1

/-- A number with bit `n` set or cleared. -/
def putBit (v n : Nat) (b : Bool) : Nat :=
  if bit v n == b then v else if b then v + 2 ^ n else v - 2 ^ n

/-- 1 or 0. -/
def b2n (b : Bool) : Nat := if b then 1 else 0

/-- The bits set in a number below bit `n`, lowest first. -/
def bitList (n v : Nat) : List Nat := (List.range n).filter (bit v)

/-- How many of the bits below `n` are set. -/
def popCount (n v : Nat) : Nat := (bitList n v).length

/-- One nanosecond, microsecond, millisecond and second in the unit of `Time`. -/
def nsT : Time := 65536
def usT : Time := 1000 * nsT
def msT : Time := 1000 * usT
def secT : Time := 1000 * msT

/-- A two's complement reading of the low `w` bits. -/
def toSigned (w v : Nat) : Int :=
  if 2 ^ (w - 1) ≤ v % 2 ^ w then (v % 2 ^ w : Nat) - (2 ^ w : Nat) else (v % 2 ^ w : Nat)

/-- The low `w` bits of an integer, two's complement. -/
def ofSigned (w : Nat) (i : Int) : Nat := (i % (2 ^ w : Nat)).toNat

/-- Little-endian bytes to a number. -/
def leNat : List Nat → Nat
  | [] => 0
  | b :: bs => b % 256 + 256 * leNat bs

/-- A number as `n` little-endian bytes. -/
def leBytes : Nat → Nat → List Nat
  | 0, _ => []
  | n + 1, v => v % 256 :: leBytes n (v / 256)

end Sys2Proof
end

