-- ==== Sys2Proof/Syntax.lean ====
section
/-! DEFINITION. The commands of the TZ-192 block: the operand types, and `Instr`, one constructor per row of
spec/opcode_table.json. An operand `t` is the instant of the event on the model's elapsed clock (assumption 1);
an operand `m` is the master that makes an access (Table 3.1). -/

namespace Sys2Proof

/-- A master of Table 3.1, M0 to M8. -/
abbrev Master := Fin 9
/-- A lane (R14). -/
abbrev Lane := Fin 28
/-- A pair generator, a gate channel, a converter, a capture channel, a power domain, a fault group (Table 3.8). -/
abbrev Pair := Fin 12
abbrev Chan := Fin 24
abbrev Conv := Fin 16
abbrev CapCh := Fin 64
abbrev Dom := Fin 17
abbrev Grp := Fin 8

/-- The levels of the strap balls ROLE, SID1 and SID0 (R1, R2). -/
structure Straps where
  role : Bool
  sid1 : Bool
  sid0 : Bool
  deriving DecidableEq, Repr

/-- The reset sources of Table 2.10, in the order of their codes. -/
inductive RstSrc where
  | por | bor | pin | clkloss | wdog | lockstep | memerr | swsys | debug | strapchg
  deriving DecidableEq, Repr

/-- One entry of the KEYS record of a configuration image (R390). -/
inductive KeyOp where
  | enrol (slot : Fin 4) (fpr : Nat)
  | revoke (slot : Fin 4)
  deriving DecidableEq, Repr

/-- The topology record (Table 1.2). -/
structure Topology where
  nStacks : Nat := 1
  solo : Bool := true
  /-- CHAIN_LEN, CHAIN_ARM: one entry per chain 0 to 23. -/
  chainLen : List Nat := List.replicate 24 0
  chainArm : List Nat := List.replicate 24 0
  /-- ARM_PHASE, ARM_KIND, ARM_MINCELLS: one entry per arm 0 to 5. -/
  armPhase : List Nat := [0, 1, 2, 3, 3, 3]
  armKind : List Nat := [0, 0, 0, 0, 0, 0]
  armMin : List Nat := [0, 0, 0, 0, 0, 0]
  /-- ENUM_TIMEOUT in ms. -/
  enumTimeout : Nat := 500
  deriving DecidableEq, Repr

/-- The control record of the shipped stack bill (Table 6.2); binary32 words unless the unit is a count, ns, ms or s. -/
structure CtrlRec where
  /-- The shipped bills are selected (R155). -/
  shipped : Bool := false
  lead : Nat := 1
  fNom : Nat := 50
  pllKp : Nat := 0x4331b333
  pllKi : Nat := 0x4676bc00
  lArm : Nat := 0x3a83126f
  resArm : Nat := 0
  bwCc : Nat := 0x447a0000
  iMax : Nat := 0x447a0000
  prio : Nat := 0
  vFloor : Nat := 0x447a0000
  iFloor : Nat := 0x41200000
  mMax : Nat := 0x3f733333
  gBal : Nat := 0x48f42400
  wE : Nat := 0x3f000000
  eRef : Nat := 0x447a0000
  balKp : Nat := 0x49f42400
  balKi : Nat := 0x469c4000
  dpbMax : Nat := 0x48435000
  dpMax : Nat := 0x48927c00
  zMax : Nat := 0x453b8000
  pCar : Nat := 250000
  lossCyc : Nat := 4
  prechgTmo : Nat := 60
  brkTmo : Nat := 200
  stopRate : Nat := 0x4cbebc20
  stopTmo : Nat := 5000
  /-- The medium-voltage link reference that command word 21 carries: volts, as its point is U32 (R158, R159). -/
  vdcRef : Nat := 1100
  /-- START and DEADLINE of the shipped bill in ns, and its OVR_LIMIT (Table 5.2). -/
  start : Nat := 0
  deadline : Nat := 14000
  ovrLimit : Nat := 0
  deriving DecidableEq, Repr

/-- The cell control record (R176, R177), binary32: limits, string capacity in A s, and open-circuit voltage against
state of charge. -/
structure CellRec where
  capMargin : Nat := 0x3d4ccccd
  socLo : Nat := 0x3d4ccccd
  socHi : Nat := 0x3f733333
  iDisMax : Nat := 0x42c80000
  iChgMax : Nat := 0x42c80000
  pDabMax : Nat := 0x47c35000
  capacity : Nat := 0x48afc800
  ocv : List (Nat × Nat) := []
  /-- Gains of PI_E, the phase shift in rad against P_DAB/(VDC_MV·VDC_LV) (R175), and the floor of MODREF (R174). -/
  eKp : Nat := 0
  eKi : Nat := 0
  dabTab : List (Nat × Nat) := []
  mFloor : Nat := 0x3f800000
  dFloor : Nat := 0x3f800000
  deriving DecidableEq, Repr

/-- What the cell firmware measures in one cell cycle (Table 4.6), binary32. -/
structure CellMeas where
  vdcMv : Nat
  vdcLv : Nat
  vbat : Nat
  ibat : Nat
  edc : Nat
  deriving DecidableEq, Repr

/-- An entry of the board lane table (Table 11.6). -/
structure LaneEnt where
  lane : Nat
  flags : Nat := 0
  pre : Nat := 0
  main : Nat := 48
  post : Nat := 0
  ctle : Nat := 8
  res : Nat := 0
  deriving DecidableEq, Repr

/-- The board lane table (Table 11.6): its header, and the COUNT entries. -/
structure LaneTab where
  version : Nat := 1
  board : Nat := 0
  res : Nat := 0
  ents : List LaneEnt
  deriving DecidableEq, Repr

/-- What a configuration image carries (R59): the records that the rules of the chapters name. -/
structure CfgBody where
  topo : Topology := {}
  /-- The reference source that the image requires, if any: `some true` LREFCLK, `some false` crystal (R46). -/
  refSrc : Option Bool := none
  wdogMs : Nat := 100
  /-- c1, c2, c3 of the temperature feed-forward, binary32, and the kiln sensor named (R49). -/
  ff : List Nat := [0, 0, 0]
  /-- The temperature coefficients of the converters' reference gains, by converter, in the form of c1 to c3 (R49). -/
  adcTemp : List (List Nat) := []
  ffSensor : Nat := 0
  /-- Allowed mailbox source addresses and the port MTU (R86). -/
  sources : List Nat := [1]
  mtu : Nat := 1500
  /-- The addresses of ports 0 and 1, and the plant address (R83). -/
  portAddr : List Nat := [0, 0]
  plantAddr : Nat := 0
  /-- Access table entries: region and ACC_RIGHTS word (R91). -/
  rights : List (Nat × Nat) := []
  keys : List KeyOp := []
  /-- Domains and instances that the image uses (R384): bit masks over PD0 to PD16, pairs, converters, lanes,
  capture channels. -/
  usesDom : Nat := 0
  usesPair : Nat := 0
  usesAdc : Nat := 0
  usesLane : Nat := 0
  usesCap : Nat := 0
  /-- Auto-bypass and its confirmation time in ms (R25). -/
  autoBypass : Bool := true
  bypassMs : Nat := 60
  ctrl : CtrlRec := {}
  cell : CellRec := {}
  /-- Register words that the firmware writes as the image comes into force, and directory entries (index, entry). -/
  regs : List (Nat × Nat) := []
  dir : List (Nat × Nat) := []
  /-- Per directory entry of a cell owner, the SRC that it takes in the cell (R437). -/
  cellSrc : List (Nat × Nat) := []
  /-- The words of the bill loaded into bank 0. -/
  bank : List Nat := []
  /-- The board lane table (R290). -/
  laneTab : Option LaneTab := none
  deriving DecidableEq, Repr

/-! ## Frames of the Yarid link (R265 to R278) -/

/-- A frame header (Table 11.1). -/
structure Hdr where
  ty : Nat := 0
  sid : Nat := 0
  up : Bool := false
  fwd : Bool := false
  chain : Nat := 0
  pos : Nat := 0
  hop : Nat := 0
  len : Nat := 0
  cycle : Nat := 0
  epoch : Nat := 0
  seq : Nat := 0
  xflags : Nat := 0
  deriving DecidableEq, Repr

/-- One update of a TEL payload, whose point counts within the owner, or of a POINTS record, whose point is the whole
number (R271, Table 11.3). -/
structure Update where
  point : Nat
  subst : Bool := false
  bad : Bool := false
  lo : Nat
  hi : Nat
  tag : Nat
  deriving DecidableEq, Repr

/-- A RACK record (Table 11.3). -/
inductive RackRec where
  | points (l : List Update)
  | lease (holder : Nat) (claim handover : Bool) (target epoch expiry : Nat)
  | command (src mbx seq opcode length apply : Nat) (last : Bool) (offset : Nat) (bytes : List Nat)
  | ack (src mbx seq status : Nat)
  /-- A record of unknown KIND, and one that runs past LEN (R274). -/
  | unknown (kind rlen : Nat)
  | overrun
  deriving DecidableEq, Repr

/-- A frame's payload, by type (R270 to R278). -/
inductive Body where
  | idle (w0 w1 : Nat)
  | cmd (ws : List Nat)
  | tel (bootreq nupd state cause applied vote faults : Nat) (ups : List Update)
  /-- ORIGIN in units of 2⁻¹⁶ ns; CORR in the same unit, signed. -/
  | time (origin : Nat) (corr : Int) (cyc tstat : Nat)
  | trig (t0 cause origin tseq : Nat)
  | rack (recs : List RackRec)
  | xchk (ws : List Nat)
  /-- Words 0 to 2 as their fields, then the data bytes. -/
  | rra (op mbx : Nat) (last : Bool) (count status w1 w2 : Nat) (data : List Nat)
  | caps (stack bootreq bootoffer ack : Bool) (version sysId cfgSvn fwSvn lane : Nat)
  /-- A frame of a TYPE that Table 11.2 does not name. -/
  | other
  deriving DecidableEq, Repr

structure Frame where
  hdr : Hdr
  body : Body
  deriving DecidableEq, Repr

/-- How a received frame ended (R288). -/
inductive BadEnd where
  | cut | errorBlock | badCrc
  deriving DecidableEq, Repr

/-- The dataset of a PTP Announce message, as the default best-master comparison reads it (R299). -/
structure Announce where
  domain : Nat
  prio1 : Nat
  clockClass : Nat
  accuracy : Nat
  variance : Nat
  prio2 : Nat
  gm : Nat
  steps : Nat
  sender : Nat
  deriving DecidableEq, Repr

/-- A kiln sensor's measurement in one scan (R369, R370): raw code; in units of 1/16 °C the temperature measured (on-die),
or the deviation of the measurement from its formula; forward voltages at 10 µA and 160 µA in µV (diode), resistance in Ω
(NTC). -/
structure Scan where
  sensor : Nat
  raw : Nat
  temp : Int
  vf10 : Nat := 0
  vf160 : Nat := 1000000
  ohms : Nat := 10000
  deriving DecidableEq, Repr

/-- The Ethernet port that a peer-delay message came on, and its PTP domain (R299). -/
structure PdelayIn where
  port : Fin 2
  domain : Nat
  deriving DecidableEq, Repr

/-- The boundary register (R409), which covers every signal ball but the lane, reference clock, crystal and analogue balls; the
spec gives no order of its cells, so each group is a field (assumption 33). -/
structure Boundary where
  /-- The codes of the profile balls of channels 0 to 23, and the levels of PO0 to PO7. -/
  profile : List Nat := List.replicate 24 0
  po : Nat := 0
  /-- Open-drain balls pulled low: bit 0 TRIGX, bit 1 HOST_IRQ_N. -/
  od : Nat := 0
  /-- Levels of FQ_RST_N, FQ_CLK and FQ_CS_N, from bit 0. -/
  fq : Nat := 0
  /-- HQ_IO0 to HQ_IO3, FQ_IO0 to FQ_IO3: levels in bits 0 to 3, and which of them are driven in bits 4 to 7. -/
  hqIo : Nat := 0
  fqIo : Nat := 0
  /-- Levels at the input balls: GxFB, PI, FLT, ROLE, SID1, SID0, RST_N from bit 0, then TRIGA, TRIGB, HQ_CLK, HQ_CS_N, TCK, TMS,
  TDI, TRST_N. -/
  ins : Nat := 0
  deriving DecidableEq, Repr

/-- What a DBGCORE data-register update asks of the supervisor (R409). -/
inductive DbgOp where
  | halt | step | resume
  deriving DecidableEq, Repr

/-- A signed image, firmware or configuration: the header of Table 16.4, the body and the signature block (R386, R387). The
verdicts of the two published signature schemes over its bytes are data of the image (assumption 6). -/
structure Image where
  magic : Nat := 0x7a192001
  format : Nat := 1
  /-- KIND: 1 firmware, 2 configuration. -/
  kind : Nat := 1
  /-- FLAGS: bit 0 short signature block, bit 1 RAISE, bit 2 REVOKE_V0. -/
  flags : Nat := 0
  /-- ROLES: bit 0 cell role, bit 1 stack role. -/
  roles : Nat := 3
  svn : Nat := 0
  keySel : Nat := 0
  length : Nat := 0
  bodyLen : Nat := 0
  part : Nat := 0x6a1a0192
  version : Nat := 0
  entry : Nat := 0
  /-- The bytes of the body, and what those of a configuration spell. -/
  body : List Nat := []
  cfg : CfgBody := {}
  /-- The signature block: the public keys and the signatures. -/
  edPub : Nat := 0
  mlPub : Nat := 0
  edSig : Nat := 0
  mlSig : Nat := 0
  edOk : Bool := true
  mlOk : Bool := true
  deriving DecidableEq, Repr


/-- One command per row of spec/opcode_table.json; the docstring of each gives the row's mnemonic and rule. -/
inductive Instr where
  /-- SUPPLY_RELEASE (R36). -/
  | supplyRelease (t : Time)
  /-- BROWN_OUT (R36). -/
  | brownOut (t : Time) (also : List RstSrc)
  /-- PIN_RESET (R50). -/
  | pinReset (t : Time) (also : List RstSrc)
  /-- LREFCLK_WATCH_END (R45). -/
  | lrefclkWatchEnd (t : Time) (qualifies : Bool)
  /-- CRYSTAL_QUALIFIED (R45). -/
  | crystalQualified (t : Time)
  /-- REFERENCE_RETRY (R45). -/
  | referenceRetry (t : Time)
  /-- PLL_LOCK (R53). -/
  | pllLock (t : Time) (s0 s1 s2 : Straps)
  /-- STRAP_RESAMPLE (R53). -/
  | strapResample (t : Time) (s0 s1 s2 : Straps)
  /-- OTP_LOAD_DONE (R50). -/
  | otpLoadDone (t : Time)
  /-- PD0_SELFTEST_DONE (R383). -/
  | pd0SelftestDone (t : Time) (pass : Bool)
  /-- PD0_SELFTEST_RETRY (R383). -/
  | pd0SelftestRetry (t : Time)
  /-- REFERENCE_LOSS (R47). -/
  | referenceLoss (t : Time)
  /-- REFERENCE_HOLD_EXPIRY (R47). -/
  | referenceHoldExpiry (t : Time) (also : List RstSrc)
  /-- REFERENCE_RETURN (R47). -/
  | referenceReturn (t : Time)
  /-- WATCHDOG_EXPIRY (R50). -/
  | watchdogExpiry (t : Time) (also : List RstSrc) (straps : Straps)
  /-- LOCKSTEP_ERROR (R50). -/
  | lockstepError (t : Time) (also : List RstSrc) (straps : Straps)
  /-- DEBUG_RESET (R50). -/
  | debugReset (t : Time) (also : List RstSrc) (straps : Straps)
  /-- SYS_RESET_REQUEST (R54). -/
  | sysResetRequest (m : Master) (w : Word) (also : List RstSrc) (straps : Straps)
  /-- COLD_RESET_REQUEST (R54). -/
  | coldResetRequest (m : Master) (w : Word) (also : List RstSrc)
  /-- TEMP_FEEDFORWARD (R49). -/
  | tempFeedforward (t : Time)
  /-- REPLICA_CHECK (R44). -/
  | replicaCheck (t : Time) (d : Dom) (diff : Int)
  /-- PWR_DOMCTL_WRITE (R41). -/
  | pwrDomctlWrite (m : Master) (w : Word)
  /-- DOMAIN_ON_COMPLETE (R37). -/
  | domainOnComplete (t : Time) (d : Dom)
  /-- DOMAIN_OFF_COMPLETE (R38). -/
  | domainOffComplete (t : Time) (d : Dom)
  /-- DOMAIN_SELFTEST_DONE (R383). -/
  | domainSelftestDone (t : Time) (d : Dom) (pass : Bool) (failed : List Nat)
  /-- BOOT_SLOT_VERIFY (R57). -/
  | bootSlotVerify (t : Time)
  /-- CONFIG_SLOT_CHECK (R59). -/
  | configSlotCheck (t : Time)
  /-- OTP_STEP_DONE (R385). -/
  | otpStepDone (t : Time)
  /-- KEY_DERIVATION_DONE (R391). -/
  | keyDerivationDone (t : Time)
  /-- NETBOOT_TIMEOUT (R61). -/
  | netbootTimeout (t : Time)
  /-- NETBOOT_OFFER_RETRY (R62). -/
  | netbootOfferRetry (t : Time) (k : Fin 24) (q : Fin 8)
  /-- MBX_GO (R72). -/
  | mbxGo (m : Master) (n : Fin 8) (w : Word)
  /-- MBX_TAKE (R74). -/
  | mbxTake (t : Time)
  /-- GET_INFO (R78). -/
  | getInfo (t : Time) (m : Master) (n : Fin 8)
  /-- GET_STATUS (R78). -/
  | getStatus (t : Time) (m : Master) (n : Fin 8)
  /-- RESET (R78). -/
  | reset (t : Time) (m : Master) (n : Fin 8)
  /-- MAILBOX_RESET_FIRE (R78). -/
  | mailboxResetFire (t : Time) (straps : Straps)
  /-- IMAGE_LOAD (R60). -/
  | imageLoad (t : Time) (m : Master) (n : Fin 8) (img : Option Image)
  /-- IMAGE_WRITE (R78). -/
  | imageWrite (t : Time) (m : Master) (n : Fin 8) (img : Option Image)
  /-- IMAGE_WRITE_ABANDON (R78). -/
  | imageWriteAbandon (t : Time)
  /-- IMAGE_CONFIRM (R58). -/
  | imageConfirm (t : Time) (m : Master) (n : Fin 8)
  /-- START (R31). -/
  | start (t : Time) (m : Master) (n : Fin 8)
  /-- STOP (R181). -/
  | stop (t : Time) (m : Master) (n : Fin 8)
  /-- SET_REF (R78). -/
  | setRef (t : Time) (m : Master) (n : Fin 8)
  /-- CELL_BYPASS (R342). -/
  | cellBypass (t : Time) (m : Master) (n : Fin 8)
  /-- CONTACTOR (R26). -/
  | contactor (t : Time) (m : Master) (n : Fin 8)
  /-- PLANT_PULSE_END (R26). -/
  | plantPulseEnd (t : Time) (n : Fin 8)
  /-- CELL_IMAGE_PUSH (R344). -/
  | cellImagePush (t : Time) (m : Master) (n : Fin 8)
  /-- POINT_READ (R78). -/
  | pointRead (t : Time) (m : Master) (n : Fin 8)
  /-- POINT_WRITE (R111). -/
  | pointWrite (t : Time) (m : Master) (n : Fin 8)
  /-- REMOTE_REPLY_TIMEOUT (R111). -/
  | remoteReplyTimeout (t : Time)
  /-- CAP_ARM (R350). -/
  | capArm (t : Time) (m : Master) (n : Fin 8)
  /-- CAP_DISARM (R362). -/
  | capDisarm (t : Time) (m : Master) (n : Fin 8)
  /-- CAP_STATUS (R368). -/
  | capStatus (t : Time) (m : Master) (n : Fin 8)
  /-- CAP_READ (R366). -/
  | capRead (t : Time) (m : Master) (n : Fin 8)
  /-- TRACE_START (R152). -/
  | traceStart (t : Time) (m : Master) (n : Fin 8)
  /-- TRACE_READ (R152). -/
  | traceRead (t : Time) (m : Master) (n : Fin 8)
  /-- BILL_LOAD (R154). -/
  | billLoad (t : Time) (m : Master) (n : Fin 8)
  /-- BILL_SWAP (R146). -/
  | billSwap (t : Time) (m : Master) (n : Fin 8)
  /-- LEASE_STATUS (R78). -/
  | leaseStatus (t : Time) (m : Master) (n : Fin 8)
  /-- LEASE_HANDOVER (R329). -/
  | leaseHandover (t : Time) (m : Master) (n : Fin 8)
  /-- HANDOVER_TIMEOUT (R329). -/
  | handoverTimeout (t : Time)
  /-- STACK_WITHDRAW (R339). -/
  | stackWithdraw (t : Time) (m : Master) (n : Fin 8)
  /-- ATTEST (R392). -/
  | attest (t : Time) (m : Master) (n : Fin 8)
  /-- DEBUG_UNLOCK (R394). -/
  | debugUnlock (t : Time) (m : Master) (n : Fin 8) (sigOk : Bool)
  /-- DEBUG_UNLOCK_EXPIRY (R89). -/
  | debugUnlockExpiry (t : Time)
  /-- DEBUG_LOCKOUT_END (R394). -/
  | debugLockoutEnd (t : Time)
  /-- JOURNAL_READ (R94). -/
  | journalRead (t : Time) (m : Master) (n : Fin 8)
  /-- JOURNAL_FREE (R95). -/
  | journalFree (t : Time) (m : Master) (n : Fin 8)
  /-- FORWARD (R78). -/
  | forward (t : Time) (m : Master) (n : Fin 8)
  /-- LEASE_RACK_TIMEOUT (R76). -/
  | leaseRackTimeout (t : Time)
  /-- ACC_JNLFREE (R95). -/
  | accJnlfree (m : Master) (w : Word)
  /-- REGISTER_WRITE (R8). -/
  | registerWrite (m : Master) (a : Nat) (width : Nat) (w : Word)
  /-- QSPI_WRITE (R80). -/
  | qspiWrite (t : Time) (a : Word) (ws : List Word) (part : Fin 4)
  /-- QSPI_QWRITE (R80). -/
  | qspiQwrite (t : Time) (a : Word) (ws : List Word) (part : Fin 4)
  /-- QSPI_READ (R81). -/
  | qspiRead (t : Time) (a : Word) (n : Nat) (part : Fin 4)
  /-- QSPI_QREAD (R81). -/
  | qspiQread (t : Time) (a : Word) (n : Nat) (part : Fin 4)
  /-- QSPI_RDSR (R80). -/
  | qspiRdsr (t : Time)
  /-- QSPI_READ_TIMEOUT (R81). -/
  | qspiReadTimeout (t : Time) (a : Word) (n : Nat)
  /-- QSPI_CS_RISE (R82). -/
  | qspiCsRise (t : Time)
  /-- QSPI_UNKNOWN_INSTRUCTION (R80). -/
  | qspiUnknownInstruction (t : Time)
  /-- MAILBOX_DATAGRAM (R84). -/
  | mailboxDatagram (t : Time) (port : Fin 2) (src dst : Word) (sport : Fin 65536) (d : List Nat)
  /-- IPV4_FRAGMENT (R86). -/
  | ipv4Fragment (t : Time) (port : Fin 2) (src dst : Word) (id : Fin 65536) (hlen off : Nat) (last : Bool) (bytes : List Nat)
  /-- FRAGMENT_TIMEOUT (R86). -/
  | fragmentTimeout (t : Time)
  /-- ARP_REQUEST (R85). -/
  | arpRequest (t : Time) (port : Fin 2) (target : Word)
  /-- ICMP_ECHO (R83). -/
  | icmpEcho (t : Time) (port : Fin 2) (src dst : Word) (data : List Nat)
  /-- GRATUITOUS_ARP_SECOND (R85). -/
  | gratuitousArpSecond (t : Time)
  /-- SYNC_MESSAGE (R305). -/
  | syncMessage (t : Time) (port : Fin 2) (domain sender : Nat) (rx : Time) (origin : Nat) (corr : Int)
  /-- ANNOUNCE_MESSAGE (R299). -/
  | announceMessage (t : Time) (port : Fin 2) (a : Announce)
  /-- ANNOUNCE_TIMEOUT (R299). -/
  | announceTimeout (t : Time) (port : Fin 2)
  /-- PDELAY_REQUEST (R299). -/
  | pdelayRequest (t : Time) (port : PdelayIn)
  /-- PDELAY_RESPONSE (R299). -/
  | pdelayResponse (t : Time) (port : PdelayIn) (rx : Time) (t2 t3 : Nat) (corr : Int)
  /-- PTP_TRANSPARENT_RELAY (R299). -/
  | ptpTransparentRelay (t : Time) (port : Fin 2) (kind : Nat) (corr : Int) (residence : Nat)
  /-- JTAG_UPDATE_IR (R409). -/
  | jtagUpdateIr (t : Time) (code : Fin 256)
  /-- DBGACC_UPDATE (R409). -/
  | dbgaccUpdate (t : Time) (write : Bool) (a d : Word)
  /-- TAP_RESET (R409). -/
  | tapReset (t : Time)
  /-- DIR_READ (R103). -/
  | dirRead (m : Master) (w : Word)
  /-- DIR_WRITE (R103). -/
  | dirWrite (m : Master) (w : Word)
  /-- POINT_WORD0_READ (R106). -/
  | pointWord0Read (m : Master) (k : Nat)
  /-- POINT_WORD1_WRITE (R107). -/
  | pointWord1Write (m : Master) (k : Nat) (w : Word)
  /-- POINT_WORD0_WRITE (R107). -/
  | pointWord0Write (m : Master) (k : Nat) (w : Word)
  /-- CYCLE_BOUNDARY (R296). -/
  | cycleBoundary (t : Time)
  /-- TEL_FRAME (R114). -/
  | telFrame (t : Time) (l : Lane) (fr : Frame)
  /-- FILL_CUTOFF (R114). -/
  | fillCutoff (t : Time)
  /-- FILL_CLOSE (R115). -/
  | fillClose (t : Time)
  /-- MAIN_TASK_START (R129). -/
  | mainTaskStart (t : Time)
  /-- MAIN_TASK_END (R120). -/
  | mainTaskEnd (t : Time) (grid : List Nat)
  /-- MAIN_DEADLINE (R147). -/
  | mainDeadline (t : Time)
  /-- FAST_TASK_START (R129). -/
  | fastTaskStart (t : Time)
  /-- FAST_TASK_END (R120). -/
  | fastTaskEnd (t : Time)
  /-- BANK_SWAP_REQUEST (R144). -/
  | bankSwapRequest (m : Master) (w : Word)
  /-- BANK_CHECK_COMPLETE (R142). -/
  | bankCheckComplete (t : Time)
  /-- TUNE_COMMIT (R150). -/
  | tuneCommit (m : Master) (w : Word)
  /-- MASH_TUNEDATA_WRITE (R150). -/
  | mashTunedataWrite (m : Master) (w : Word)
  /-- BANK_DATA_WRITE (R154). -/
  | bankDataWrite (m : Master) (b : Fin 2) (w : Word)
  /-- NODE_DATA_READ (R154). -/
  | nodeDataRead (m : Master)
  /-- TRACE_ARM (R151). -/
  | traceArm (m : Master) (w : Word)
  /-- TRACE_START_EVENT (R152). -/
  | traceStartEvent (m : Master) (w : Word)
  /-- TRACE_STOP (R151). -/
  | traceStop (m : Master) (w : Word)
  /-- PRECHARGE_TIMEOUT (R179). -/
  | prechargeTimeout (t : Time)
  /-- PITCH_ENTRY (R31). -/
  | pitchEntry (t : Time)
  /-- ENUM_COMPLETE (R31). -/
  | enumComplete (t : Time)
  /-- ENUM_TIMEOUT (R31). -/
  | enumTimeout (t : Time)
  /-- BREAKER_CLOSE (R179). -/
  | breakerClose (t : Time)
  /-- BREAKER_CONFIRM (R179). -/
  | breakerConfirm (t : Time) (closed : Bool)
  /-- BREAKER_TIMEOUT (R179). -/
  | breakerTimeout (t : Time)
  /-- STOP_BREAKER_OPEN (R181). -/
  | stopBreakerOpen (t : Time)
  /-- CELL_CYCLE (R109). -/
  | cellCycle (t : Time) (x : CellMeas)
  /-- SOC_OCV_RESET (R177). -/
  | socOcvReset (t : Time)
  /-- CAP_UPDATE_ON_PLIM (R243). -/
  | capUpdateOnPlim (t : Time)
  /-- SLOT_ADOPT (R172). -/
  | slotAdopt (t : Time)
  /-- PRECHARGE_CONTACTOR_STEP (R179). -/
  | prechargeContactorStep (t : Time)
  /-- PRECHARGE_COMPLETE (R179). -/
  | prechargeComplete (t : Time)
  /-- BYPASS_CONFIRM (R25). -/
  | bypassConfirm (t : Time)
  /-- BYPASS_CONFIRM_TIMEOUT (R25). -/
  | bypassConfirmTimeout (t : Time)
  /-- REJOIN_OPEN_CONFIRM (R343). -/
  | rejoinOpenConfirm (t : Time)
  /-- CELL_BYPASS_COMMAND (R342). -/
  | cellBypassCommand (t : Time) (l : Fin 3) (epoch : Nat)
  /-- CELL_REJOIN_COMMAND (R343). -/
  | cellRejoinCommand (t : Time) (l : Fin 3) (epoch : Nat)
  /-- PWM_COMMIT (R192). -/
  | pwmCommit (m : Master) (w : Word)
  /-- PWM_CANCEL (R192). -/
  | pwmCancel (m : Master) (w : Word)
  /-- PWM_GCOMMIT (R192). -/
  | pwmGcommit (m : Master) (w : Word)
  /-- PWM_GCANCEL (R192). -/
  | pwmGcancel (m : Master) (w : Word)
  /-- PWM_CMPA_WRITE (R192). -/
  | pwmCmpaWrite (m : Master) (reg : Fin 4) (al : Option Pair) (w : Word)
  /-- PWM_ENABLE (R195). -/
  | pwmEnable (m : Master) (w : Word)
  /-- PWM_DISABLE (R195). -/
  | pwmDisable (m : Master) (w : Word)
  /-- PWM_COUNTER_START (R195). -/
  | pwmCounterStart (t : Time) (p : Pair)
  /-- PWM_VALLEY (R190). -/
  | pwmValley (t : Time) (p : Pair)
  /-- PWM_PEAK (R193). -/
  | pwmPeak (t : Time) (p : Pair)
  /-- PWM_HALF_COUNT (R226). -/
  | pwmHalfCount (t : Time) (p : Pair)
  /-- PWM_COMPARE_MATCH (R185). -/
  | pwmCompareMatch (t : Time) (p : Pair) (outB : Bool)
  /-- GD_TURN_ON_START (R213). -/
  | gdTurnOnStart (t : Time) (c : Chan)
  /-- GD_TPRE_EXPIRY (R210). -/
  | gdTpreExpiry (t : Time) (c : Chan)
  /-- GD_TWON_TIMEOUT (R210). -/
  | gdTwonTimeout (t : Time) (c : Chan)
  /-- GD_TPDIS_EXPIRY (R211). -/
  | gdTpdisExpiry (t : Time) (c : Chan)
  /-- GD_TWOFF_TIMEOUT (R211). -/
  | gdTwoffTimeout (t : Time) (c : Chan)
  /-- GD_FEEDBACK_CHANGE (R209). -/
  | gdFeedbackChange (t : Time) (c : Chan) (level : Bool)
  /-- GD_TFBOFF_EXPIRY (R215). -/
  | gdTfboffExpiry (t : Time) (c : Chan)
  /-- GD_FBMIS (R215). -/
  | gdFbmis (t : Time) (c : Chan)
  /-- GD_THRESHOLD_TRIP (R217). -/
  | gdThresholdTrip (t : Time) (c : Chan)
  /-- GD_HARD_TRIP (R218). -/
  | gdHardTrip (t : Time) (c : Chan)
  /-- GD_COMPARATOR_RELEASE (R216). -/
  | gdComparatorRelease (t : Time) (c : Chan) (hard : Bool)
  /-- GD_BLANKING_END (R217). -/
  | gdBlankingEnd (t : Time) (c : Chan)
  /-- GD_ENABLE (R222). -/
  | gdEnable (m : Master) (w : Word)
  /-- FAULT_GROUP_STEP2 (R200). -/
  | faultGroupStep2 (t : Time) (g : Grp)
  /-- FORCE_PREFIX_END (R219). -/
  | forcePrefixEnd (t : Time) (c : Chan)
  /-- FORCE_SEQUENCER_SYNC (R219). -/
  | forceSequencerSync (t : Time) (c : Chan)
  /-- FAULT_LATCH_CLEAR (R202). -/
  | faultLatchClear (m : Master) (g : Grp) (w : Word)
  /-- FAULT_GROUP_ENABLE (R199). -/
  | faultGroupEnable (m : Master) (g : Grp) (w : Word)
  /-- FLT_PIN_CHANGE (R198). -/
  | fltPinChange (t : Time) (n : Fin 4) (level : Bool)
  /-- FLT_DEGLITCH_EXPIRY (R198). -/
  | fltDeglitchExpiry (t : Time) (n : Fin 4)
  /-- FAULT_SWFORCE (R198). -/
  | faultSwforce (m : Master) (w : Word)
  /-- SPR_START (R225). -/
  | sprStart (m : Master) (w : Word)
  /-- SPR_STOP (R234). -/
  | sprStop (m : Master) (w : Word)
  /-- SPR_COMMIT (R231). -/
  | sprCommit (m : Master) (w : Word)
  /-- SPR_COEFF_COMPUTED (R231). -/
  | sprCoeffComputed (t : Time)
  /-- SPR_TICK (R226). -/
  | sprTick (t : Time) (pos : Fin 4)
  /-- SPR_COMPUTE (R228). -/
  | sprCompute (t : Time)
  /-- SPR_SSTMO (R233). -/
  | sprSstmo (t : Time)
  /-- SPR_TRIP_CLEAR (R235). -/
  | sprTripClear (m : Master) (w : Word)
  /-- SPR_PHFAIL_CLEAR (R242). -/
  | sprPhfailClear (m : Master) (w : Word)
  /-- ADC_ENABLE (R262). -/
  | adcEnable (m : Master) (w : Word)
  /-- ADC_TIMER_EXPIRY (R248). -/
  | adcTimerExpiry (t : Time) (c : Conv)
  /-- ADC_INJ_GO (R252). -/
  | adcInjGo (m : Master) (w : Word)
  /-- ADC_RESULT (R250). -/
  | adcResult (t : Time) (c : Conv) (levels : List Int) (vdda : Int)
  /-- ADC_STARTUP_DONE (R249). -/
  | adcStartupDone (t : Time) (c : Conv)
  /-- ADC_POWER_DOWN (R249). -/
  | adcPowerDown (t : Time) (c : Conv)
  /-- ADC_CAL (R253). -/
  | adcCal (m : Master) (w : Word)
  /-- ADC_CAL_DONE (R253). -/
  | adcCalDone (t : Time) (c : Conv) (ofs gain : Word) (skews : List Int)
  /-- ADC_RESLO_READ (R255). -/
  | adcResloRead (m : Master) (n : Fin 6)
  /-- ADC_ROUTE_ENABLE (R256). -/
  | adcRouteEnable (m : Master) (n : Fin 5) (w : Word)
  /-- WINDOW_CROSSING (R257). -/
  | windowCrossing (t : Time) (w : Fin 16) (x : Int)
  /-- WINDOW_FILTER_EXPIRY (R257). -/
  | windowFilterExpiry (t : Time) (w : Fin 16)
  /-- WINDOW_COMMIT (R258). -/
  | windowCommit (m : Master) (win : Fin 16) (w : Word)
  /-- WINDOW_LEVEL_SWITCH (R258). -/
  | windowLevelSwitch (t : Time) (w : Fin 16)
  /-- LANE_ENABLE (R294). -/
  | laneEnable (m : Master) (w : Word)
  /-- LANE_SIGNAL_DETECT (R283). -/
  | laneSignalDetect (t : Time) (l : Lane)
  /-- LANE_SIGNAL_LOSS (R283). -/
  | laneSignalLoss (t : Time) (l : Lane)
  /-- LANE_TRAIN_DONE (R283). -/
  | laneTrainDone (t : Time) (l : Lane)
  /-- LANE_LOCK_DONE (R283). -/
  | laneLockDone (t : Time) (l : Lane)
  /-- LANE_STATE_TIMEOUT (R283). -/
  | laneStateTimeout (t : Time) (l : Lane)
  /-- CAPS_SEND (R283). -/
  | capsSend (t : Time) (l : Lane)
  /-- CAPS_FRAME (R284). -/
  | capsFrame (t : Time) (l : Lane) (fr : Frame)
  /-- LANE_BLOCK_LOCK_LOSS (R285). -/
  | laneBlockLockLoss (t : Time) (l : Lane)
  /-- LANE_FRAME_SILENCE (R285). -/
  | laneFrameSilence (t : Time) (l : Lane)
  /-- LANE_RETRAIN (R285). -/
  | laneRetrain (m : Master) (w : Word)
  /-- LANE_TX_READY (R279). -/
  | laneTxReady (t : Time) (l : Lane)
  /-- IDLE_TIMER (R278). -/
  | idleTimer (t : Time) (l : Lane)
  /-- FRAME_RELAY (R281). -/
  | frameRelay (t : Time) (l : Lane) (fr : Frame) (res : Time)
  /-- FRAME_CUT_SHORT (R288). -/
  | frameCutShort (t : Time) (l : Lane) (kind : BadEnd) (relayed : Bool)
  /-- CMD_FRAME (R289). -/
  | cmdFrame (t : Time) (l : Lane) (fr : Frame)
  /-- TIME_FRAME (R304). -/
  | timeFrame (t : Time) (l : Lane) (rx : Time) (fr : Frame)
  /-- TRIG_FRAME (R273). -/
  | trigFrame (t : Time) (l : Lane) (fr : Frame)
  /-- RACK_FRAME (R274). -/
  | rackFrame (t : Time) (l : Lane) (fr : Frame)
  /-- XCHK_FRAME (R336). -/
  | xchkFrame (t : Time) (l : Lane) (fr : Frame)
  /-- RRA_FRAME (R276). -/
  | rraFrame (t : Time) (l : Lane) (fr : Frame) (cfg : Option CfgBody)
  /-- IDLE_FRAME (R278). -/
  | idleFrame (t : Time) (l : Lane) (rx : Time) (fr : Frame)
  /-- DELAY_REQUEST_TIMER (R302). -/
  | delayRequestTimer (t : Time)
  /-- ECHOLOST (R302). -/
  | echolost (t : Time) (port : Fin 3)
  /-- CELL_HOLDOVER_ENTRY (R308). -/
  | cellHoldoverEntry (t : Time)
  /-- CELLHOLD_EXPIRY (R308). -/
  | cellholdExpiry (t : Time)
  /-- TIME_TRIGGER_ENABLE (R312). -/
  | timeTriggerEnable (m : Master) (n : Fin 16) (w : Word)
  /-- TIME_TRIGGER_EFFECT (R312). -/
  | timeTriggerEffect (t : Time) (n : Fin 16)
  /-- TIME_TRIGGER_FIRE (R311). -/
  | timeTriggerFire (t : Time) (n : Fin 16)
  /-- TIM_NOW_READ (R314). -/
  | timNowRead (m : Master)
  /-- VOTE_INSTANT (R317). -/
  | voteInstant (t : Time)
  /-- LEASE_CLAIM (R326). -/
  | leaseClaim (t : Time)
  /-- LEASE_CLAIM_LAPSE (R327). -/
  | leaseClaimLapse (t : Time)
  /-- LEASE_EXPIRY (R325). -/
  | leaseExpiry (t : Time)
  /-- CELL_EPOCH_CLEAR (R330). -/
  | cellEpochClear (t : Time)
  /-- SELFCHECK_WINDOW_END (R338). -/
  | selfcheckWindowEnd (t : Time)
  /-- REJOIN_BILL_CHECK (R340). -/
  | rejoinBillCheck (t : Time) (crc : Word)
  /-- TRIG_PIN_EDGE (R352). -/
  | trigPinEdge (t : Time) (pin : Fin 3) (rising : Bool)
  /-- SOFT_TRIGGER (R352). -/
  | softTrigger (m : Master) (w : Word)
  /-- CAPTURE_REARM (R363). -/
  | captureRearm (t : Time)
  /-- TRIGX_PULSE_END (R356). -/
  | trigxPulseEnd (t : Time)
  /-- CAPTURE_FREE (R364). -/
  | captureFree (m : Master) (w : Word)
  /-- SKEW_CAL (R358). -/
  | skewCal (m : Master) (w : Word)
  /-- SKEW_CAL_DONE (R358). -/
  | skewCalDone (t : Time) (skews : List Int)
  /-- MASK_TABLE_LO_WRITE (R368). -/
  | maskTableLoWrite (m : Master) (w : Word)
  /-- KILN_SCAN_END (R369). -/
  | kilnScanEnd (t : Time) (scan : List Scan)
  /-- KILN_BROKEN_CLEAR (R370). -/
  | kilnBrokenClear (m : Master) (n : Fin 2) (w : Word)
  /-- KILN_GROUP_ENABLE (R373). -/
  | kilnGroupEnable (m : Master) (g : Grp) (w : Word)
  /-- SCRUB_WORD (R380). -/
  | scrubWord (t : Time) (mem : Fin 9) (word : Nat) (straps : Straps)
  /-- ERROR_INJECT_ARM (R382). -/
  | errorInjectArm (m : Master) (w : Word)
  /-- RESET_PIN_RELEASE (R401). -/
  | resetPinRelease (t : Time)
  /-- VDDIO_BANK_POWER (R399). -/
  | vddioBankPower (t : Time) (bank : Fin 4) (up : Bool)
  /-- IMAGE_LOAD_VERIFY_DONE (R60). -/
  | imageLoadVerifyDone (t : Time)
  /-- SCRUB_PASS_DEADLINE (R380). -/
  | scrubPassDeadline (t : Time) (mem : Fin 9)
  /-- CRYSTAL_QUALIFY_TIMEOUT (R45). -/
  | crystalQualifyTimeout (t : Time)
  /-- LANE_CODE_ERROR (R283). -/
  | laneCodeError (t : Time) (l : Lane)
  /-- PRBS_CHECKER_SYNC (R292). -/
  | prbsCheckerSync (t : Time) (l : Lane) (sync : Bool) (errs : Nat)
  /-- PDELAY_REQUEST_TIMER (R299). -/
  | pdelayRequestTimer (t : Time) (port : Fin 2)
  /-- EXTEST_UPDATE (R409). -/
  | extestUpdate (t : Time) (b : Boundary)
  /-- DBGCORE_HALT (R409). -/
  | dbgcoreHalt (t : Time) (op : DbgOp)
  deriving DecidableEq, Repr

end Sys2Proof
end

