-- ==== Sys2Proof/Decode.lean ====
section
/-! DEFINITION. Commands spelt by table words: no row of spec/opcode_table.json gives bits, so no word spells one. -/

namespace Sys2Proof

/-- The command that a word of the table spells: none. -/
def decodeTableWord (_nbits _w : Nat) : Option Instr := none

end Sys2Proof
end

