-- ==== Sys2Proof/Machine/Float.lean ====
section
/-! DEFINITION. The arithmetic of R121, exact: fractions, and binary32 and binary64 words read and rounded to nearest,
ties to even, with subnormals flushed to zero. An operation that yields a NaN or an infinity answers none. -/

namespace Sys2Proof.Machine

/-- A fraction; the denominator is positive. -/
structure Q where
  n : Int
  d : Nat
  deriving DecidableEq, Repr

def Q.ofInt (i : Int) : Q := ⟨i, 1⟩
def Q.ofNat (n : Nat) : Q := ⟨n, 1⟩
def Q.add (a b : Q) : Q := if a.d = b.d then ⟨a.n + b.n, a.d⟩ else ⟨a.n * b.d + b.n * a.d, a.d * b.d⟩
def Q.neg (a : Q) : Q := ⟨-a.n, a.d⟩
def Q.sub (a b : Q) : Q := a.add b.neg
def Q.mul (a b : Q) : Q := ⟨a.n * b.n, a.d * b.d⟩
/-- Division; by zero it answers none. -/
def Q.div (a b : Q) : Option Q :=
  if b.n = 0 then none else if 0 < b.n then some ⟨a.n * b.d, a.d * b.n.natAbs⟩ else some ⟨-(a.n * b.d), a.d * b.n.natAbs⟩
def Q.lt (a b : Q) : Bool := decide (a.n * b.d < b.n * a.d)
def Q.le (a b : Q) : Bool := decide (a.n * b.d ≤ b.n * a.d)
def Q.abs (a : Q) : Q := ⟨a.n.natAbs, a.d⟩
def Q.isZero (a : Q) : Bool := decide (a.n = 0)
/-- The largest integer not above a fraction. -/
def Q.floor (a : Q) : Int := a.n / a.d
/-- The nearest integer, ties to even. -/
def Q.round (a : Q) : Int :=
  let f := a.floor
  let r := 2 * (a.n - f * a.d)
  if r < a.d then f else if (a.d : Int) < r then f + 1 else if f % 2 = 0 then f else f + 1
def Q.clamp (x lo hi : Q) : Q := if x.lt lo then lo else if hi.lt x then hi else x
/-- x times 2^e. -/
def Q.scale (x : Q) (e : Int) : Q :=
  if 0 ≤ e then ⟨x.n * (2 ^ e.toNat : Nat), x.d⟩ else ⟨x.n, x.d * 2 ^ (-e).toNat⟩

/-- A binary format: bits of precision and bits of exponent. -/
structure Fmt where
  p : Nat
  ew : Nat
  deriving DecidableEq, Repr

def b16 : Fmt := ⟨11, 5⟩
def b32 : Fmt := ⟨24, 8⟩
def b64 : Fmt := ⟨53, 11⟩

/-- The format's exponent bias, and its largest biased exponent. -/
def Fmt.bias (f : Fmt) : Nat := 2 ^ (f.ew - 1) - 1
def Fmt.top (f : Fmt) : Nat := 2 ^ f.ew - 1

/-- Sign, biased exponent and fraction bits of a word. -/
def fSign (f : Fmt) (w : Nat) : Bool := bit w (f.p - 1 + f.ew)
def fExp (f : Fmt) (w : Nat) : Nat := bits w (f.p - 1) f.ew
def fFrac (f : Fmt) (w : Nat) : Nat := w % 2 ^ (f.p - 1)
def fFinite (f : Fmt) (w : Nat) : Bool := fExp f w != f.top

/-- The exact value of a finite word. `flush` reads a subnormal as zero (R121). -/
def fVal (f : Fmt) (flush : Bool) (w : Nat) : Q :=
  let e := fExp f w
  let m : Nat := if e = 0 then (if flush then 0 else fFrac f w) else 2 ^ (f.p - 1) + fFrac f w
  let q := (Q.ofNat m).scale ((max e 1 : Nat) - (f.bias + f.p - 1 : Nat) : Int)
  if fSign f w then q.neg else q

/-- A word from its fields. -/
def fPack (f : Fmt) (neg : Bool) (e m : Nat) : Nat := b2n neg * 2 ^ (f.p - 1 + f.ew) + e * 2 ^ (f.p - 1) + m

/-- ⌊log₂ x⌋ of a positive fraction. -/
def qLog2 (x : Q) : Int :=
  let e : Int := (x.n.natAbs.log2 : Int) - (x.d.log2 : Int)
  if x.lt ((Q.ofNat 1).scale e) then e - 1 else e

/-- Round a fraction to the format, ties to even; a result below the smallest normal number is a zero with the sign
`neg`; none beyond the largest. -/
def fRound (f : Fmt) (neg : Bool) (x : Q) : Option Nat :=
  if x.isZero then some (fPack f neg 0 0)
  else
    let a := x.abs
    let e := qLog2 a
    let m := (a.scale ((f.p : Int) - 1 - e)).round.toNat
    let (m, e) := if m = 2 ^ f.p then (2 ^ (f.p - 1), e + 1) else (m, e)
    let be := e + f.bias
    if be ≤ 0 then some (fPack f (decide (x.n < 0)) 0 0)
    else if (f.top : Int) ≤ be then none
    else some (fPack f (decide (x.n < 0)) be.toNat (m - 2 ^ (f.p - 1)))

/-! ## binary32 operations -/

/-- A finite binary32 word's value. -/
def f32v (w : Nat) : Q := fVal b32 true w
def f32fin (w : Nat) : Bool := fFinite b32 w
def f32neg (w : Nat) : Nat := fSign b32 w |> fun b => putBit w 31 (!b)
def f32r (x : Q) : Option Nat := fRound b32 false x
def f64v (w : Nat) : Q := fVal b64 true w
def f64r (x : Q) : Option Nat := fRound b64 false x
def f64fin (w : Nat) : Bool := fFinite b64 w

def f32op (a b : Nat) (neg : Bool) (r : Option Q) : Option Nat :=
  if f32fin a && f32fin b then r.bind (fRound b32 neg) else none

def f32add (a b : Nat) : Option Nat :=
  f32op a b (fSign b32 a && fSign b32 b) (some ((f32v a).add (f32v b)))
def f32sub (a b : Nat) : Option Nat := f32add a (f32neg b)
def f32mul (a b : Nat) : Option Nat :=
  f32op a b (fSign b32 a != fSign b32 b) (some ((f32v a).mul (f32v b)))
def f32div (a b : Nat) : Option Nat :=
  f32op a b (fSign b32 a != fSign b32 b) ((f32v a).div (f32v b))

/-- The largest binary32 value not above √x, or the nearest to it: x is a fraction ≥ 0. The root is taken to 30 bits
beyond the precision and rounded, with a sticky bit. -/
def qSqrt32 (x : Q) : Option Nat :=
  if x.isZero then some 0
  else
    let e := qLog2 x / 2
    -- x · 2^(2k) with k = 60 − e, so that the root has about 60 bits
    let y := x.scale (2 * (60 - e))
    let r := natSqrt 70 y.floor.toNat
    let sticky := if decide ((r * r : Int) < y.floor) || (Q.ofInt y.floor).lt y then 1 else 0
    f32r ((Q.ofNat (2 * r + sticky)).scale (e - 61))
where
  /-- Integer square root by bits, from bit `k` down. -/
  natSqrt : Nat → Nat → Nat
    | 0, n => if 1 ≤ n then 1 else 0
    | k + 1, n => go (k + 1) 0 n
  go : Nat → Nat → Nat → Nat
    | 0, r, n => if (r + 1) * (r + 1) ≤ n then r + 1 else r
    | k + 1, r, n => let c := r + 2 ^ (k + 1); go k (if c * c ≤ n then c else r) n

/-- Common constants. -/
def F_ONE : Nat := 0x3f800000
def F_ZERO : Nat := 0
def F_MONE : Nat := 0xbf800000
def F_TWO : Nat := 0x40000000
def F_THREE : Nat := 0x40400000
def F_HALF : Nat := 0x3f000000
def F_SQRT3 : Nat := 0x3fddb3d7
def F_SQRT3H : Nat := 0x3f5db3d7
def F_PI : Nat := 0x40490fdb
def F_NAN : Nat := 0x7fc00000

def f32ofInt (i : Int) : Nat := (f32r (Q.ofInt i)).getD 0
def f32nan (w : Nat) : Bool := !f32fin w && fFrac b32 w != 0
/-- Below, within or above the finite values: −1, 0, 1. -/
def f32end (w : Nat) : Int := if f32fin w then 0 else if fSign b32 w then -1 else 1
/-- The order of binary32 words; a NaN compares with nothing. -/
def f32lt (a b : Nat) : Bool :=
  !f32nan a && !f32nan b && (if f32end a == f32end b then f32end a == 0 && (f32v a).lt (f32v b) else decide (f32end a < f32end b))
def f32le (a b : Nat) : Bool := !f32nan a && !f32nan b && !f32lt b a
/-- A subnormal word flushed to zero, its sign kept (R121). -/
def f32flush (w : Nat) : Nat := if fExp b32 w == 0 then b2n (fSign b32 w) * 2 ^ 31 else w
/-- Order of binary32 words where infinities count as the ends of the line; a NaN is neither above nor below. -/
def f32above (x : Q) (w : Nat) : Bool :=
  if f32fin w then (fVal b32 false w).lt x else fFrac b32 w == 0 && fSign b32 w
def f32below (x : Q) (w : Nat) : Bool :=
  if f32fin w then x.lt (fVal b32 false w) else fFrac b32 w == 0 && !fSign b32 w
def f32clamp (x lo hi : Nat) : Nat := f32flush (if f32lt x lo then lo else if f32lt hi x then hi else x)
def f32abs (w : Nat) : Nat := putBit w 31 false
def f32max (a b : Nat) : Nat := f32flush (if f32lt a b then b else a)

def F_INF : Nat := 0x7f800000
/-- ±∞. -/
def f32infS (neg : Bool) : Nat := F_INF + b2n neg * 2 ^ 31
/-- Product and sum with the infinities and NaN of the format, which the intake and the outlet pass on (R127, R128). -/
def f32mulT (a b : Nat) : Nat :=
  match f32mul a b with
  | some r => r
  | none =>
    if f32nan a || f32nan b || (f32fin a && (f32v a).isZero) || (f32fin b && (f32v b).isZero) then F_NAN
    else f32infS (fSign b32 a != fSign b32 b)
def f32addT (a b : Nat) : Nat :=
  match f32add a b with
  | some r => r
  | none =>
    if f32nan a || f32nan b || (!f32fin a && !f32fin b && fSign b32 a != fSign b32 b) then F_NAN
    else f32infS (fSign b32 (if f32fin a then b else a))
/-- A number rounded to binary32: beyond the format it is the infinity of its sign. -/
def f32q (q : Q) : Nat := (f32r q).getD (f32infS (decide (q.n < 0)))
/-- A binary64 word rounded to binary32, infinities and NaN included. -/
def f32ofF64T (w : Nat) : Nat :=
  if f64fin w then (fRound b32 (fSign b64 w) (f64v w)).getD (f32infS (fSign b64 w))
  else if fFrac b64 w == 0 then f32infS (fSign b64 w) else F_NAN
/-- A binary32 word on the line of numbers, an infinity as a number beyond the format: none for a NaN. -/
def f32ext (w : Nat) : Option Q :=
  if f32fin w then some (fVal b32 false w)
  else if f32nan w then none else some (Q.ofInt (if fSign b32 w then -(2 ^ 200) else 2 ^ 200))
/-- The value of a word that is finite. -/
def qOf (w : Nat) : Option Q := if f32fin w then some (f32v w) else none

/-- A binary64 word to binary32, and a binary32 word to binary64. -/
def f32ofF64 (w : Nat) : Option Nat := if f64fin w then fRound b32 (fSign b64 w) (f64v w) else none
def f64ofF32 (w : Nat) : Option Nat := if f32fin w then fRound b64 (fSign b32 w) (f32v w) else none

end Sys2Proof.Machine
end

