-- ==== Sys2Proof/Config.lean ====
section
/-! DEFINITION. The free values: what the spec leaves open and the machine goes on with. They have no body, so no
statement can rest on a value of them (assumption 4). -/

namespace Sys2Proof

/-- The n-th free value drawn: a random challenge word, an undefined result. -/
opaque Config.freeWord : Nat → Nat

/-- The result of an arithmetic operation of the string port regulator that leaves the number format, by operation and
operands: the spec states none. -/
opaque Config.sprArith : Nat → Nat → Nat → Nat

/-- The result of an arithmetic operation of the firmware or of the shipped bills that leaves the number format, by
operation and operands: the spec states none. -/
opaque Config.fwArith : Nat → Nat → Nat → Nat

/-- How far the engine's sine and cosine of an angle lie from the true value, within the bound of R121. -/
opaque Config.sinDev : Nat → Nat
opaque Config.cosDev : Nat → Nat

/-- The MAC addresses of the two Ethernet ports: the spec gives each port its own (R83) and names no value. -/
opaque Config.mac0 : Nat
opaque Config.mac1 : Nat

/-- The words of a shipped bill's bank beside its header, by a seed drawn when it is loaded and word: the spec does not give
them (R155). -/
opaque Config.shipWord : Nat → Nat → Nat

/-- The published functions that R387 and R391 name and do not give, uninterpreted (assumption 6): SHA-512 of bytes, as a number
with byte 0 lowest; the public key of a seed; the signature of a seed's key over a message. -/
opaque Config.sha512 : List Nat → Nat
opaque Config.edPublic : Nat → Nat
opaque Config.mlPublic : Nat → Nat
opaque Config.edSign : Nat → List Nat → Nat
opaque Config.mlSign : Nat → List Nat → Nat

/-- The public keys of vendor set V0 and V1 in ROM, and what provisioning leaves in a device: its two identity seeds, its
serial number, and V1's signatures in IDCERT (R388, R391): the spec gives no value (assumption 6). -/
opaque Config.vendorEd : Nat → Nat
opaque Config.vendorMl : Nat → Nat
opaque Config.idSeed : Nat → Nat
opaque Config.serial : Nat
opaque Config.certEd : Nat
opaque Config.certMl : Nat

end Sys2Proof
end

