-- ==== Sys2Proof/Machine/Ident.lean ====
section
/-! DEFINITION. Signed objects as bytes: header, digest, message, signature block, fingerprint (R386, R387), and the identity
of the device: its public keys and its certificate (R391). SHA-512, Ed25519 and ML-DSA-65 are the uninterpreted functions of
Config that bear their names (assumption 6). -/

namespace Sys2Proof.Machine

/-- The block that FLAGS names is the short one; the object is a configuration image. -/
def imgShort (i : Image) : Bool := bit i.flags 0
def imgCfg (i : Image) : Bool := i.kind == 2
/-- FLAGS: RAISE of a configuration, REVOKE_V0 of a firmware image (R389). -/
def imgRaise (i : Image) : Bool := bit i.flags 1
def imgRevokeV0 (i : Image) : Bool := bit i.flags 2

/-- The 256 bytes of a header (Table 16.4): the listed fields, and 0 elsewhere. -/
def headerBytes (i : Image) : List Nat :=
  leBytes 4 i.magic ++ leBytes 2 i.format ++ leBytes 1 i.kind ++ leBytes 1 i.flags ++ leBytes 1 i.roles ++ leBytes 1 i.svn
    ++ leBytes 1 i.keySel ++ [0] ++ leBytes 4 i.length ++ leBytes 4 i.bodyLen ++ leBytes 4 i.part ++ leBytes 4 i.version
    ++ leBytes 4 i.entry ++ List.replicate 224 0

/-- The BODYLEN bytes of the body. -/
def bodyBytes (i : Image) : List Nat := (List.range i.bodyLen).map (fun j => i.body.getD j 0 % 256)

/-- Bytes of the block that FLAGS names. -/
def blockLen (i : Image) : Nat := if imgShort i then 3376 else 5360

/-- The two signatures of a block, and its last three bytes. -/
def sigBytes (ed ml : Nat) : List Nat := leBytes 64 ed ++ leBytes 3309 ml ++ [0, 0, 0]

/-- The signature block (R387): the full one begins with the public keys. -/
def blockBytes (i : Image) : List Nat :=
  (if imgShort i then [] else leBytes 32 i.edPub ++ leBytes 1952 i.mlPub) ++ sigBytes i.edSig i.mlSig

/-- The whole object. -/
def objectBytes (i : Image) : List Nat := headerBytes i ++ bodyBytes i ++ blockBytes i

/-- The digest D, 64 bytes as a number, over the bytes of header and body. -/
def digestOf (l : List Nat) : Nat := Config.sha512 l % 2 ^ 512
def imgDigest (i : Image) : Nat := digestOf (headerBytes i ++ bodyBytes i)

/-- The message M that both signatures are made over: TZ192SIG in ASCII, then D. -/
def signedMsg (l : List Nat) : List Nat := [0x54, 0x5a, 0x31, 0x39, 0x32, 0x53, 0x49, 0x47] ++ leBytes 64 (digestOf l)

/-- The fingerprint of a key pair: the first 32 bytes of SHA-512 over the two public keys. -/
def keyFpr (ed ml : Nat) : Nat := Config.sha512 (leBytes 32 ed ++ leBytes 1952 ml) % 2 ^ 256
def imgFpr (i : Image) : Nat := keyFpr i.edPub i.mlPub

/-- The fingerprint of vendor key set v, which the ROM holds. -/
def vendorFpr (v : Nat) : Nat := keyFpr (Config.vendorEd v) (Config.vendorMl v)

/-- The device's public keys, derived from its two seeds (R391). -/
def idPub (seeds : List Nat) : Nat × Nat := (Config.edPublic (seeds.getD 0 0), Config.mlPublic (seeds.getD 1 0))

/-- Bytes 0 to 1,999 of IDCERT (Table 16.6). -/
def certBody (serial : Nat) (pub : Nat × Nat) : List Nat :=
  leBytes 8 serial ++ leBytes 4 0x6a1a0192 ++ leBytes 4 0 ++ leBytes 32 pub.1 ++ leBytes 1952 pub.2

/-- IDCERT as a number, byte 0 lowest (Table 16.6). The private keys of V1 are outside the part, so that its two signatures are
constants of the part (assumption 6). -/
def certNum (serial : Nat) (pub : Nat × Nat) (ed ml : Nat) : Nat :=
  serial % 2 ^ 64 + 0x6a1a0192 * 2 ^ 64 + pub.1 % 2 ^ 256 * 2 ^ 128 + pub.2 % 2 ^ 15616 * 2 ^ 384
    + ed % 2 ^ 512 * 2 ^ 16000 + ml % 2 ^ 26472 * 2 ^ 16512

end Sys2Proof.Machine
end

