-- ==== Sys2Proof/Machine/State.lean ====
section
/-! DEFINITION. The state of the TZ-192 block, as plain data. Registers stand in `regs`, one entry per field of a
register table that differs from its reset value (the fields are the constants of Machine/RegMap.lean); the
effective values of staged fields stand in `eff` (R7); the grist, cask and trace windows are the byte memory `mem`.
What the spec gives the machine beside its registers stands in one structure per unit. -/

namespace Sys2Proof.Machine

/-- A sparse table: keys strictly rising; a key that is not listed holds the default its reader names. -/
abbrev SMap (β : Type) := List (Nat × β)

/-- Access codes of Table 0.3. -/
inductive Acc where
  | ro | rw | wo | w1c | rws | rol
  deriving DecidableEq, Repr

/-- A register field: the bus address of its register (instance 0, or the window offset from the block base), its
lowest bit and width, its access code and its value on reset (instances below `split` reset to `early`). -/
structure Fld where
  addr : Nat
  lo : Nat
  width : Nat
  acc : Acc
  reset : Nat
  split : Nat := 0
  early : Nat := 0
  deriving DecidableEq, Repr

/-- How the instances of a register are reached. -/
inductive RegKind where
  | plain
  /-- One copy per master at one address (R69). -/
  | perMaster
  /-- Mailbox header registers of the accessing master: eight, 0x10 apart (R71). -/
  | mbx
  /-- Through the block's window; the instance is the master's BLK_CHSEL (R69). -/
  | window
  | array (count stride : Nat)
  /-- An array inside the window. -/
  | winArray (count stride : Nat)
  deriving DecidableEq, Repr

/-- A register: its address, how its instances are reached, and its fields. -/
structure Reg where
  addr : Nat
  kind : RegKind
  flds : List Fld
  deriving DecidableEq, Repr

/-- Where the device stands between power-on and running firmware (Table 2.13, R36, R45, R53, R57 to R61, R383). -/
inductive Phase where
  /-- A monitored rail is below its release level. -/
  | supplyHold
  /-- Rails released, RST_N low. -/
  | pinHold
  | refWatch | crystal | retryWait | pllLocking | strapWait | otpLoad
  | selfTest | selfTestWait
  /-- The ROM verifies firmware slots. -/
  | romSelect
  /-- SID_BAD: the ROM serves only GET_INFO and RESET (R2). -/
  | romIdle
  | recovery | netboot
  | firmware
  deriving DecidableEq, Repr

/-- One slot's entry of the boot directory (Table 2.14). -/
structure SlotDir where
  offset : Nat := 0
  length : Nat := 0
  seq : Nat := 0
  trial : Bool := false
  deriving DecidableEq, Repr

/-- One copy of the boot directory (R55). -/
structure DirCopy where
  crcOk : Bool := false
  gen : Nat := 0
  quad : Bool := false
  /-- A, B, C0, C1. -/
  slots : List SlotDir := [{}, {}, {}, {}]
  deriving DecidableEq, Repr

/-- The boot flash: a device outside the part that its QSPI controller reads and writes. -/
structure Flash where
  present : Bool := false
  size : Nat := 0
  dir0 : DirCopy := {}
  dir1 : DirCopy := {}
  /-- The image that the bytes at each slot's offset spell. -/
  images : List (Option Image) := [none, none, none, none]
  deriving DecidableEq, Repr

/-- OTP contents (Table 16.3). -/
structure Otp where
  fwSvn : Nat := 0
  cfgSvn : Nat := 0
  slotValid : Nat := 0
  slotRev : Nat := 0
  /-- Fingerprint bits programmed in each owner slot. -/
  slotFpr : List Nat := [0, 0, 0, 0]
  vrev : Nat := 0
  enrLock : Bool := false
  /-- The identity seeds for Ed25519 and ML-DSA-65, which only the SEC engine reads (R391). -/
  idSeed : List Nat := [Config.idSeed 0, Config.idSeed 1]
  /-- IDCERT, byte 0 lowest (Table 16.6). -/
  idCert : Nat := certNum Config.serial (idPub [Config.idSeed 0, Config.idSeed 1]) Config.certEd Config.certMl
  deriving DecidableEq, Repr

/-- One programming step of the OTP still to be done (R385, R390). -/
inductive OtpStep where
  | fwSvn | cfgSvn
  | slotFpr (slot fpr : Nat)
  | slotValid (slot : Nat)
  | slotRev (slot : Nat)
  | vrev (v : Nat)
  | enrLock
  deriving DecidableEq, Repr

/-- An image being assembled from chunks (IMAGE_LOAD and IMAGE_WRITE). -/
structure Assembly where
  slot : Nat
  m : Nat
  n : Nat
  total : Nat
  /-- Byte ranges received: first offset and length. -/
  got : List (Nat × Nat)
  first : Time
  last : Time
  /-- A complete IMAGE_LOAD image under verification, and what its bytes spell. -/
  complete : Bool := false
  img : Option Image := none
  deriving DecidableEq, Repr

/-- A netboot offer to one position (R62): the slot offered (2 the running firmware), its start, the next byte, whether the
transfer goes on. -/
structure Offer where
  slot : Nat
  at_ : Time
  off : Nat := 0
  go : Bool := true
  deriving DecidableEq, Repr

/-- Power, clock, reset and boot. -/
structure SysSt where
  phase : Phase := .supplyHold
  /-- The start of the present try of the reference selection (R45), then the entry to strapWait, otpLoad or
  selfTestWait (R53, Table 2.13, R383). -/
  since : Time := 0
  /-- The domain in transition, and whether towards on (R39). -/
  domBusy : Option (Nat × Bool) := none
  /-- Domains in their first self-test (R383). -/
  testing : Nat := 0
  /-- The three supplies of the reference: lost at, while HOLD is 1 (R47). -/
  lostAt : Option Time := none
  /-- Firmware slots still to verify, configuration slots still to check (R57, R59). -/
  bootLeft : List Nat := []
  cfgLeft : List Nat := []
  /-- A cell's ports still to retrain with a board lane table (R61, R291). -/
  retrain : List Nat := []
  fw : Option Image := none
  cfg : Option Image := none
  load : Option Assembly := none
  write : Option Assembly := none
  /-- A mailbox RESET to come: `some true` cold, and when (R78). -/
  resetPend : Option Bool := none
  resetAt : Time := 0
  /-- The supervisor is halted by DBGCORE, which freezes the watchdog (R409). -/
  halted : Bool := false
  /-- Frequency correction by temperature in force, in units of 2⁻⁸ ppb (R49). -/
  ffwd : Int := 0
  /-- Replica re-alignments counted per domain, how far each domain's replica of network time stands ahead of TIM, in
  units of 2⁻¹⁶ ns, and the instant of its load or of its last comparison (R44). -/
  realign : SMap Nat := []
  repl : SMap Int := []
  replAt : SMap Time := []
  /-- Netboot offers by position (cell index), cells that a CELL_IMAGE_PUSH names with the slot plus 1 (R62), and the
  port on which a cell in netboot takes its image. -/
  offers : SMap (Option Offer) := []
  push : SMap Nat := []
  netPort : Option Nat := none
  deriving DecidableEq, Repr

/-- Balls that hold state (Table 17.3). -/
structure PinSt where
  straps : Straps := ⟨false, false, false⟩
  rstN : Bool := true
  /-- VDDIO banks past 0.9 V (R399). -/
  banks : Nat := 0
  /-- Levels that the part drives or would drive on PO0 to PO7, and levels on PI0 to PI7. -/
  po : Nat := 0
  pi : Nat := 0
  /-- Levels of GxFB behind the synchronisers: an open line reads high by its pull-up (R402). -/
  gfb : Nat := 0xffffff
  /-- TRIGX pulled low by this part until the given instant. -/
  trigxLow : Bool := false
  fqRstN : Bool := false
  deriving DecidableEq, Repr

/-- Where a mailbox's command came from: the Ethernet port or the lane, the source address and UDP port, the epoch of
its RRA frame, and whether that frame's lease was accepted (R84, R88, R330). -/
structure MbxRet where
  lane : Nat := 0
  addr : Nat := 0
  port : Nat := 0
  epoch : Nat := 0
  lease : Bool := false
  deriving DecidableEq, Repr

/-- A mailbox payload being assembled from RRA fragments: OPCODE, LENGTH, SEQ, ranges received (R276). -/
structure RraAsm where
  opcode : Nat
  len : Nat
  seq : Nat
  got : List (Nat × Nat)
  deriving DecidableEq, Repr

/-- A racked command (R76, R274): the SID that racked it, source master, mailbox, SEQ, OPCODE, total LENGTH, apply cycle,
the bytes received with their ranges, the cycle racked, and in the stack that racked it the mailbox that waits and
whether every live peer has acknowledged. -/
structure RackCmd where
  sid : Nat
  src : Nat
  mbx : Nat
  seq : Nat
  op : Nat
  len : Nat
  apply : Nat
  bytes : SMap Nat := []
  got : List (Nat × Nat) := []
  at_ : Nat
  key : Option Nat := none
  acked : Bool := false
  /-- A peer's stack: it has acknowledged with OK. -/
  okd : Bool := false
  deriving DecidableEq, Repr

/-- A mailbox command that waits for other devices (R78, R111, R344, R366): the mailbox, when it gives up, the answers
still to come (cell index, or 256 + SID; mailbox; SEQ), the worst status so far, the bytes of the answer; and for
CELL_IMAGE_PUSH the cell, the stack's slot and the next byte. -/
structure Remote where
  key : Nat
  op : Nat
  deadline : Time
  left : List (Nat × Nat × Nat)
  worst : Nat := 0
  out : SMap Nat := []
  got : List (Nat × Nat) := []
  cell : Nat := 0
  slot : Nat := 0
  off : Nat := 0
  deriving DecidableEq, Repr

/-- An acknowledgement of a racked command received: SID it came from, source master, mailbox, SEQ, STATUS (R76). -/
structure RackAck where
  sid : Nat
  src : Nat
  mbx : Nat
  seq : Nat
  status : Nat
  deriving DecidableEq, Repr

/-- The last other response of a mailbox of M2 (R87). -/
structure LastRsp where
  op : Nat
  seq : Nat
  status : Nat
  bytes : List Nat
  deriving DecidableEq, Repr

/-- IPv4 fragments held: port, source, identification, the first fragment's arrival, ranges, bytes, and the length once
the last fragment is there (R86). -/
structure Frag where
  port : Nat
  src : Nat
  id : Nat
  first : Time
  got : List (Nat × Nat)
  bytes : SMap Nat
  whole : Option Nat := none
  deriving DecidableEq, Repr

/-- Mailboxes, access tables, journal (Chapter 3). Mailbox n of master m is number m × 8 + n. -/
structure MbxSt where
  /-- Payload bytes: (m × 8 + n) × 4096 + offset. -/
  buf : SMap Nat := []
  /-- Posted commands in the order of their GO writes. -/
  queue : List Nat := []
  /-- Per mailbox posted, the PD0 clock of its GO write plus 1 (R74). -/
  postAt : SMap Nat := []
  accTab : SMap Nat := []
  /-- The access tables come from a configuration image (R91). -/
  accImg : Bool := false
  /-- RIGHTS and JTAG of the debug token in force (R393). -/
  m3 : Nat := 0
  m3jtag : Nat := 0
  /-- M3 fields of ACC_RIGHTS that M0 has written since the token's rights went into the tables or left them (R91). -/
  m3w : SMap Nat := []
  jnl : SMap (List Nat) := []
  jnlNum : Nat := 0
  /-- Mailboxes whose accepted command waits for its answer with the room of its journal entry kept (R94). -/
  jnlHeld : List Nat := []
  /-- The PD0 clock of the latest journaled write plus 1, and how many entries of writes it has (R93). -/
  jnlClk : Nat := 0
  jnlRun : Nat := 0
  ret : SMap MbxRet := []
  asm : SMap (Option RraAsm) := []
  /-- Racked commands, and the acknowledgements received. -/
  racks : List RackCmd := []
  acks : List RackAck := []
  remote : List Remote := []
  /-- Per M2 mailbox, the last racked command (OPCODE, SEQ, status) and the last other response (OPCODE, SEQ, status,
  bytes) (R87). -/
  dup : SMap (Nat × Nat × Nat) := []
  last : SMap LastRsp := []
  /-- The mailbox whose IMAGE_CONFIRM waits for the OTP, whose LEASE_HANDOVER waits for the claim, and since when. -/
  otpWait : Option Nat := none
  handWait : Option Nat := none
  handAt : Time := 0
  /-- Cells whose pushed image the holder confirms once they run (R344). -/
  confirm : List Nat := []
  frags : List Frag := []
  deriving DecidableEq, Repr

/-- A scrub pass of one memory (R380): when it began, the words it has read as spans [a, b) in rising order, and whether PASS
has gone by with the pass incomplete. -/
structure Scrub where
  at_ : Time := 0
  seen : List (Nat × Nat) := []
  late : Bool := false
  deriving DecidableEq, Repr

/-- Integrity (Chapter 16). -/
structure SecSt where
  otp : Otp := {}
  otpQ : List OtpStep := []
  /-- Symbol errors held by memory words: mem × 2²⁰ + word, symbols in error (R378). -/
  ecc : SMap (List (Nat × Nat)) := []
  /-- The instant of the error that SEC_ECCLOG holds (R381). -/
  eccAt : Time := 0
  /-- Refused debug tokens in a row, and the start of the 1 s lockout (R394). -/
  refused : Nat := 0
  lockout : Option Time := none
  /-- The scrub pass in progress in each memory (R380). -/
  scrub : SMap Scrub := []
  /-- The identity key pairs that the SEC engine has derived, as their public keys (R391). -/
  idKeys : Option (Nat × Nat) := none
  /-- The unlock in force ends at this instant of the PD0 clock (R394). -/
  unlockEnd : Option Time := none
  deriving DecidableEq, Repr

/-- A time trigger beside its registers (R311 to R313): EN writes that still have to take effect, and when; whether it is
enabled, and since when; on TIM's own time (0) and on each consuming domain's replica the last instant that has fired or was
passed over, plus 1; and when TIM last met an instant. -/
structure TrigSt where
  pend : List (Bool × Time) := []
  on : Bool := false
  from_ : Time := 0
  last : SMap Nat := []
  seen : Time := 0
  deriving DecidableEq, Repr

/-- PTP on one Ethernet port (R299): the announced dataset, the mean link delay, and the departure of the
Pdelay_Req that is not answered yet. -/
structure PtpPort where
  best : Option Announce := none
  delay : Int := 0
  t1 : Option Nat := none
  deriving DecidableEq, Repr

/-- Network time: `base` at elapsed instant `at_`, advancing by 1 + rate × 2⁻⁸ ppb (R305, R49). -/
structure TimSt where
  /-- The network time of the boundary of the cycle in progress. -/
  bound : Nat := 0
  base : Nat := 0
  at_ : Time := 0
  rate : Int := 0
  /-- The servo's integrator i and output y, in units of 2⁻³² ppb; the last update; consecutive offsets within LOCKTH and
  beyond 4 × LOCKTH (R305). -/
  i : Int := 0
  y : Int := 0
  lastUpd : Option Time := none
  good : Nat := 0
  bad : Nat := 0
  /-- A cell has used a TIME frame since its reset, the last one, the start of holdover, its reference (R307, R308). -/
  used : Bool := false
  lastUse : Time := 0
  holdAt : Time := 0
  ref : Option Nat := none
  trig : SMap TrigSt := []
  ptp : SMap PtpPort := []
  /-- The port in use under automatic selection (R299). -/
  port : Nat := 0
  /-- The latch of TIM_NOW1 and TIM_NOW2, per master (R314). -/
  now : SMap Nat := []
  /-- The last feed-forward and the last round of delay requests (R49, R302). -/
  ffAt : Option Time := none
  dreqAt : Option Time := none
  deriving DecidableEq, Repr

/-- Fault routing (R198 to R204): live source levels, the stamp of each flagged source in ns, the latch instant of
each group, the channels each group has moved to SAFE2, the channels forced, those held at code 00 until their
pair's next valley, and the FLT pins with their pending deglitch and its start. -/
structure FltSt where
  live : Nat := 0
  stamp : SMap Nat := []
  latchAt : SMap Time := []
  moved : SMap Nat := []
  forced : Nat := 0
  hold : Nat := 0
  pin : Nat := 15
  dgl : Nat := 0
  dglAt : SMap Time := []
  /-- A source that is only a pulse is live until this instant, one clock of its island on (R198). -/
  pulse : SMap Time := []
  deriving DecidableEq, Repr

/-- A gate channel beside its registers (R210 to R219). -/
structure GdChan where
  /-- The on/off command, and the instant of its last rising edge. -/
  cmd : Bool := false
  riseAt : Time := 0
  /-- The instant at which its partner's command fell and ended an interlock hold (R214). -/
  freeAt : Time := 0
  /-- The start of the latest turn-off. -/
  offAt : Time := 0
  /-- The blanking window is open, and when it opened. -/
  blank : Bool := false
  blankAt : Time := 0
  /-- The start of the latest on slope or off slope (R210, R211). -/
  slopeAt : Time := 0
  /-- Feedback has not read 0 since the latest turn-off began. -/
  tfb : Bool := false
  /-- A disable waits for off hold (R222). -/
  stopping : Bool := false
  /-- Since this instant the held state, the feedback and the force have not changed; a disagreement of the feedback with the
  held state has been counted (R215). -/
  steady : Time := 0
  mism : Bool := false
  /-- The pins carry 00 before the forced code 10 (R219). -/
  pre : Bool := false
  /-- The latest instant at which a force on the channel began (R219). -/
  forceAt : Time := 0
  /-- DIDTx, and the instant it last rose. -/
  didt : Bool := false
  didtAt : Time := 0
  deriving DecidableEq, Repr

/-- A released set of a pair (R192), the instant its release completed, and whether it has missed a reload. -/
structure RelSet where
  per : Nat
  cmpa : Nat
  cmpb : Nat
  ofs : Nat
  at_ : Time
  missed : Bool := false
  deriving DecidableEq, Repr

/-- A pair generator beside its registers. Its instants are on the elapsed clock. -/
structure PwmPair where
  /-- Enabled, the first valley still to come (R195). -/
  waiting : Bool := false
  stop : Bool := false
  rel : Option RelSet := none
  rel2 : Option RelSet := none
  /-- The start instant S of ALIGN = 0 (R189). -/
  start : Time := 0
  /-- The last valley, the correction applied at it, the next valley and peak (the first valley, while waiting), and the
  whole periods from the origin to the last valley (R188). -/
  valley : Time := 0
  corr : Int := 0
  nextValley : Time := 0
  nextPeak : Time := 0
  index : Nat := 0
  /-- The first valley on the pair's replica, while it waits with ALIGN (R195). -/
  target : Nat := 0
  /-- The opening edges of the intervals in progress, outputs A and B; the edges last judged (R186). -/
  openA : Time := 0
  openB : Time := 0
  judgedA : Time := 0
  judgedB : Time := 0
  /-- The edge judged last was dropped or filled, outputs A and B. -/
  dropA : Bool := false
  dropB : Bool := false
  deriving DecidableEq, Repr

/-- Cell firmware (Chapters 1, 6 and 13). -/
structure CellSt where
  /-- A bypass or rejoin pulse waits for its confirmation: 1 bypass, 2 rejoin (R25, R342, R343). -/
  confirm : Nat := 0
  /-- The stack cycle in which SAFE was entered (R34). -/
  safeCycle : Nat := 0
  /-- The firmware owes the STOP of an entry to SAFE (R435). -/
  stopDue : Bool := false
  /-- The answers to bypass and rejoin commands: the lane, and the status code (R88, R330, R343). -/
  answers : List (Nat × Nat) := []
  /-- The known holder's SID, 3 when none (R330). -/
  holder : Nat := 3
  /-- The lease holder's configuration has been accepted (R33). -/
  cfgOk : Bool := false
  /-- CMD frames held per stream: apply cycle, end stamp, words (R289); the cycle each stream was last late for, plus 1. -/
  held : SMap (List (Nat × Nat × List Nat)) := []
  late : SMap Nat := []
  /-- The last instant at which a stream was present (R330). -/
  seenAt : Time := 0
  /-- The latest vote: its cycle plus 1, its arrival in PD1, whether usable; consecutive cycles without a usable vote (R319). -/
  voteCyc : Nat := 0
  voteAt : Time := 0
  voteOk : Bool := false
  cc : Nat := 0
  /-- The cell holds its H-bridge at zero output; an accepted rejoin waits for its configuration, and for its PO1 pulse
  (R342, R343). -/
  zero : Bool := false
  rejoin : Bool := false
  openDue : Bool := false
  /-- The start of a bypass or rejoin pulse, and whether a command gave it. -/
  pulseAt : Time := 0
  byCmd : Bool := false
  /-- Pitch step 1 (R179): 1 PO4 closed, 2 PO3 closed, 3 PO4 opened, 4 steep start. -/
  step : Nat := 0
  /-- The slot in use and NSLOT, once one has been adopted; slot words wait to be adopted (R172, R173). -/
  slot : Option (Nat × Nat) := none
  slotDue : Bool := false
  /-- State of charge in units of 2⁻⁴⁸, the last cell cycle, the last measurement, and since when |IBAT| is low (R177). -/
  soc : Nat := 0
  cycAt : Option Time := none
  meas : CellMeas := ⟨0, 0, 0, 0, 0⟩
  lowSince : Option Time := none
  /-- The boundary, on network time, of the cycle whose references are applied (R174); MODREF saturated in this cycle. -/
  applyAt : Nat := 0
  msat : Bool := false
  deriving DecidableEq, Repr

/-- A lane beside its registers (Chapter 11). -/
structure LaneSt where
  /-- Frames waiting, each with its priority, in the order they arrived (R279). -/
  txq : List (Nat × Frame) := []
  /-- The last frame started, its start stamp on network time, and whether it ended with an error block. -/
  sent : Option Frame := none
  sentAt : Nat := 0
  sentBad : Bool := false
  /-- The last frame of this device's own that it abandoned, ended with an error block (R279). -/
  cutOff : Option Frame := none
  /-- Relayed frames in `txq`, each with the stamp of its start block at the input and whether it ended badly there (R281). -/
  relIn : List (Frame × Nat × Bool) := []
  /-- The latest frame relayed to this lane (R281). -/
  relLast : Option Frame := none
  /-- SEQ of the next frame, by type (R265). -/
  seq : SMap Nat := []
  /-- Words 0 and 1 of the last IDLE sent, and of the last one received (R278). -/
  idle0 : Nat := 0
  idle1 : Nat := 0
  far0 : Nat := 0
  far1 : Nat := 0
  /-- Entry to the present state; the last frame sent; the last good frame; the last valid CAPS frame; the start of
  the run of blocks without a code error (R283, R285). -/
  since : Time := 0
  lastTx : Time := 0
  lastGood : Time := 0
  lastCaps : Time := 0
  lockFrom : Time := 0
  /-- Errors in the present window of an Ethernet lane's high-BER monitor (R283). -/
  ber : Nat := 0
  /-- The 65,536 blocks are complete and the port waits for CAPS (R16, R61). -/
  lockDone : Bool := false
  /-- The checks of R16 to R18 passed at the last CAPS frame; a check has failed and was counted; ACK received and
  sent (R284). -/
  pass : Bool := false
  failing : Bool := false
  ackRx : Bool := false
  ackTx : Bool := false
  /-- BOOTREQ as last received here (R62, R271). -/
  bootReq : Bool := false
  /-- A delay request to answer, its arrival stamp; a delay request sent, its start stamp (R302). -/
  dreqIn : Option Nat := none
  t1 : Option Nat := none
  /-- The last 64 accepted delay values, in units of 2⁻¹⁶ ns, newest first (R302). -/
  delays : List Int := []
  deriving DecidableEq, Repr

/-- Link traffic beside the lanes: triggers seen, with their arrival (R273), and the TSEQ of the next own trigger. -/
structure LinkSt where
  trigSeen : List (Nat × Nat × Time) := []
  tseq : Nat := 0
  deriving DecidableEq, Repr

/-- A capture channel of an armed, running or closed record (R347 to R363), as armed. -/
structure CapChan where
  src : Nat := 0
  mcfg : Nat := 0
  /-- Samples seen (decimation), samples stored, and the tags of those held, newest first, in units of 2⁻¹⁶ ns. -/
  seen : Nat := 0
  total : Nat := 0
  tags : List Nat := []
  /-- Samples still to store, once the first sample at or after A is stored. -/
  left : Option Nat := none
  endc : Nat := 0
  mpos : Option Nat := none
  /-- Consecutive violating samples; samples in the queue to the cask (R361). -/
  viol : Nat := 0
  queue : Nat := 0
  deriving DecidableEq, Repr

/-- A record's state. -/
inductive RecState where
  | armed | running | closed
  deriving DecidableEq, Repr

/-- A capture record (R349 to R364). Instants are network times in units of 2⁻¹⁶ ns. -/
structure CapRec where
  rid : Nat
  chans : List Nat
  pre : Nat
  post : Nat
  tset : Nat
  flags : Nat
  blocks : List Nat
  st : RecState := .armed
  chan : SMap CapChan := []
  triggered : Bool := false
  cause : Nat := 0
  origin : Nat := 0
  tseq : Nat := 0
  link : Bool := false
  t0 : Nat := 0
  acc : Nat := 0
  tend : Nat := 0
  dead : Nat := 0xffffffff
  causes : Nat := 0
  ovf : Bool := false
  ovfch : Nat := 0
  ovfns : Nat := 0
  disarmed : Bool := false
  early : Bool := false
  ue : Bool := false
  rearmed : Bool := false
  /-- A trigger of this device has reached the record, and its outputs are still to come (R356). -/
  outDue : Bool := false
  prev : Nat := 0
  deriving DecidableEq, Repr

/-- A trigger of the capture engine: its class (a bit of the trigger set), CAUSE, origin, sequence, T0 and A, and for a
mask violation its record (R353, R360). -/
structure Trig where
  cls : Nat
  cause : Nat
  origin : Nat
  tseq : Nat
  link : Bool
  t0 : Nat
  acc : Nat
  rid : Nat := 0
  deriving DecidableEq, Repr

/-- A converter result on its way to PD3 (R347): converter × 16 + register, the value word, its tag, and when it arrives. -/
structure CapIn where
  sel : Nat
  word : Nat
  tag : Nat
  at_ : Time
  deriving DecidableEq, Repr

/-- A closed record that REARM will arm again, once it no longer depends on the record itself (R363). -/
structure Rearm where
  rid : Nat
  chans : List Nat
  pre : Nat
  post : Nat
  tset : Nat
  flags : Nat
  deriving DecidableEq, Repr

/-- The capture engine (Chapter 14). -/
structure CapSt where
  recs : List CapRec := []
  serial : Nat := 0
  /-- Of each channel, the number of the closing of its latest closed record, and that record's TEND plus 1 (R363); and the
  count of closings. -/
  ended : SMap (Nat × Nat) := []
  closings : Nat := 0
  /-- Triggers that have not reached the records (R353), converter results on their way, and records to arm again (R363). -/
  coming : List Trig := []
  arriving : List CapIn := []
  rearms : List Rearm := []
  /-- The flags of CAP_STATUS, per master (R368). -/
  flags : SMap Nat := []
  /-- UP and LO of table × 1,024 + point (R359). -/
  up : SMap Nat := []
  lo : SMap Nat := []
  /-- The cask's service of the queues: channel served next, and the instant up to which it has served (R361). -/
  next : Nat := 0
  servedAt : Time := 0
  trigxEnd : Time := 0
  /-- The start of the skew calibration that runs (R358). -/
  skewAt : Time := 0
  deriving DecidableEq, Repr

/-- What the intake of a shipped bill has read (R120, R156): value word and META per slot, the voted references, and what
the firmware then held: the step of pitch, an orderly stop, the device's state and the apply cycle's boundary. -/
structure ShipIn where
  recs : List (Nat × Nat × Nat)
  refs : List Nat
  step : Nat
  stop : Bool
  dev : Nat
  applyAt : Nat
  deriving DecidableEq, Repr

/-- A task of the mash engine in execution (R120, R129): where it stands in the list of its intake entries, blocks and
outlet entries, and when its next item begins. -/
structure TaskRun where
  /-- The cycle, the instant and the network time at which it began. -/
  cyc : Nat := 0
  began : Nat := 0
  pos : Nat := 0
  next : Time := 0
  /-- Intake entries marked QUAL so far; a memory error ends the task (R153). -/
  qual : Nat := 0
  ue : Bool := false
  /-- The cost of its own start, not yet paid while a fast execution holds it (R129). -/
  held : Time := 0
  ship : Option ShipIn := none
  deriving DecidableEq, Repr

/-- A requested swap whose bank is being checked (R144, R146): the apply cycle asked for, and who asked: a master's
register write, a mailbox, or a racked command of a peer. -/
structure SwapReq where
  cyc : Nat
  master : Nat := 0
  mbx : Option Nat := none
  rack : Option (Nat × Nat × Nat) := none
  deriving DecidableEq, Repr

/-- The mash engine beside its registers (Chapter 5). A node's entry holds its binary32 word, QUAL in bit 32 and SUB in
bit 33; `nodeAt` the network time at which the execution that wrote it last began. -/
structure MashSt where
  nodes : SMap Nat := []
  nodeAt : SMap Nat := []
  /-- State words, binary64. -/
  st : SMap Nat := []
  /-- The bill banks: bank × 107,520 + word (R119). -/
  bank : SMap Nat := []
  /-- Banks in which an uncorrectable error was met since their last check (R153). -/
  bankUe : Nat := 0
  chk : Option SwapReq := none
  /-- The apply cycle of the swap that is pending (R144). -/
  pend : Option Nat := none
  /-- Staged tuning words, oldest first, and how many of them a TCOMMIT has committed (R7, R150). -/
  tune : List (Nat × Nat) := []
  tuneGo : Nat := 0
  /-- Blocks that start from their initial values at their next execution (R145, R153). -/
  init : List Nat := []
  /-- The start instant of the task period in which each block last executed, in ns, plus 1 (R130). -/
  last : SMap Nat := []
  main : Option TaskRun := none
  fast : Option TaskRun := none
  /-- The network time of the last fast start, plus 1 (R129). -/
  fastAt : Nat := 0
  /-- Bit b: bank b was loaded with the shipped bill, most of whose words the spec does not give (R155); the bank has been
  written since; the seed of those words and T_EXPECT, per bank; words written since, by bank × 107,520 + word, plus 1. -/
  shipBank : Nat := 0
  shipMod : Nat := 0
  shipSeed : SMap (Nat × Nat) := []
  shipEdit : SMap Nat := []
  /-- Of a shipped cell bill that is active, the costs in ns of intake, blocks and outlet of its main and its fast task. -/
  shipPart : List Nat := []
  /-- The item in progress met an uncorrectable error in the active bank (R153). -/
  ueNow : Bool := false
  /-- Consecutive overruns of the main and the fast task (R147). -/
  ovrM : Nat := 0
  ovrF : Nat := 0
  /-- The stack's main task waits for the close of the fill, or has started in this cycle (R129). -/
  ranCycle : Nat := 0
  deriving DecidableEq, Repr

/-- A trace channel beside its registers (R151, R152). -/
structure TraceSt where
  /-- The next physical position; executions since the last sample; samples of the record still to come. -/
  wr : Nat := 0
  skip : Nat := 0
  left : Nat := 0
  /-- A start event by a capture trigger applies at the first execution that begins at or after this instant. -/
  startAt : Option Time := none
  deriving DecidableEq, Repr

/-- The kiln beside its registers (Chapter 15). Per sensor: raw code and how many scans in a row it has been equal, the
last measured reading plus 2¹⁶, open or short at the last scan, the last measured reading before a break plus 2¹⁶.
Per group: scans in a row at or above TRIP, trips by temperature and by broken members. -/
structure KilnSt where
  raw : SMap Nat := []
  same : SMap Nat := []
  meas : SMap Nat := []
  /-- The reading measured in the latest scan, and the bias that it took, in µA (R369, R370). -/
  latest : SMap Nat := []
  bias : SMap Nat := []
  cond : SMap Nat := []
  good : SMap Nat := []
  overs : SMap Nat := []
  tripT : Nat := 0
  tripB : Nat := 0
  level : SMap Nat := []
  /-- Bit g: group g has a value (R371). -/
  valued : Nat := 0
  /-- Arrival of the latest level in PD1, and the level before it (R374). -/
  arrive : Time := 0
  was : Nat := 0
  /-- The end of the last scan (R369). -/
  scanAt : Option Time := none
  deriving DecidableEq, Repr

/-- The tap lease, racking and cross-check in stack role, beside the registers (Chapter 13). Instants are network times
in units of 2⁻¹⁶ ns. -/
structure VoteSt where
  /-- The stack's view of the lease: epoch and expiry; its own expiry while it holds the lease (R324, R325). -/
  viewEpoch : Nat := 0
  viewExp : Nat := 0
  ownExp : Nat := 0
  /-- A claim sent: its epoch and its cycle; the epoch of the last claim acknowledged (R327). -/
  claim : Option (Nat × Nat) := none
  acked : Nat := 0
  /-- A handover's target and its boundary (R329); release, or handover to a target, at the next boundary. -/
  resv : Option (Nat × Nat) := none
  release : Bool := false
  handTo : Option Nat := none
  /-- The cycle of each stack's last periodic LEASE record, plus 1. -/
  seen : SMap Nat := []
  /-- Peers whose answer to this stack's claim is still to come (R327). -/
  owed : Nat := 0
  /-- Peers that were live candidates as the START in force took effect, and peers that have been found in RUN or DEGRADED
  since (R31, R339; assumption 23). -/
  given : Nat := 0
  runs : Nat := 0
  /-- The instant the lease was last gained; the second announcement of the plant address is still to come (R85). -/
  gained : Time := 0
  arp2 : Bool := false
  /-- Rejoining (R340, R341): a holder was there before this stack became a candidate; a mirror was applied; racked
  points refreshed; the bill check is done and failed. -/
  rejoin : Bool := false
  mirrored : Bool := false
  refreshed : SMap Nat := []
  billSeen : Bool := false
  billBad : Bool := false
  /-- The bill read under way (R340): 0 none, 1 MASH_STAT, 2 the bank's address register, 3 its data register is asked for;
  and the CRC read. -/
  billStep : Nat := 0
  billCrc : Option Nat := none
  /-- A main-task outlet has come since the stack was re-racked (R341). -/
  outlet : Bool := false
  /-- The cycle, plus 1, for which each word of the state mirror last arrived (R333). -/
  mirror : SMap Nat := []
  /-- Command frames sent: apply cycle, and words per cell; the same of the cycle before (R336). -/
  sentCyc : Nat := 0
  sent : SMap (List Nat) := []
  lastCyc : Nat := 0
  last : SMap (List Nat) := []
  /-- XCHK frames received, the last of even and of odd apply cycles: (SID × 256 + cell) × 2 + apply cycle mod 2 ↦ apply cycle
  and words. -/
  xchk : SMap (Nat × List Nat) := []
  /-- Verdicts, as apply cycle plus 1 and bits: the peers', SID × 2 + cycle mod 2; this stack's own on the frames it sent last
  and on those before (R336). -/
  verdict : SMap (Nat × Nat) := []
  own : Nat × Nat := (0, 0)
  ownOld : Nat × Nat := (0, 0)
  /-- The apply cycle, plus 1, counted last in STREAK (R337). -/
  streakAt : Nat := 0
  /-- Votes with three streams, and those in which this stack's dissented, in the self-check window (R338). -/
  sc3 : Nat := 0
  scd : Nat := 0
  /-- The cycle in which the last self-check window ended. -/
  scAt : Option Nat := none
  deriving DecidableEq, Repr

/-- An Ethernet message that the part sends (R83 to R86, R299). -/
inductive EthOut where
  | pdelayReq (port domain : Nat)
  | pdelayResp (port domain t2 : Nat)
  | pdelayFollowUp (port domain t3 : Nat)
  | ptpRelay (port : Nat) (kind : Nat) (corr : Int)
  /-- ARP: the address answered for or announced, and the MAC address of the port (R83, R85). -/
  | arpReply (port addr mac : Nat)
  | gratuitousArp (port addr mac : Nat)
  | echoReply (port dest : Nat) (data : List Nat)
  /-- A fragment of a mailbox response datagram: port, destination address and UDP port, offset within the UDP
  datagram, bytes of the mailbox datagram. -/
  | response (port dst dport off : Nat) (bytes : List Nat)
  deriving DecidableEq, Repr

/-- A master's latch of a point record: the slot, words 1 to 3, and whether the record was written since (R106). -/
structure PtLatch where
  slot : Nat
  hi : Nat
  tag : Nat
  ctl : Nat
  newer : Bool := false
  deriving DecidableEq, Repr

/-- The grist beside its records (Chapter 4). -/
structure GristSt where
  /-- Directory entries, and the directory as it stood at the cycle boundary (R103). -/
  dir : SMap Nat := []
  dirAt : SMap Nat := []
  latch : SMap (Option PtLatch) := []
  /-- The staged word 1 of each master: slot and word (R107). -/
  stage : SMap (Option (Nat × Nat)) := []
  /-- TEL frames held: as late, or until the boundary of their cycle (R114). -/
  late : List Frame := []
  early : List Frame := []
  /-- Cells with an on-time frame for the present cycle; the cut-off is past; the fill is closed. -/
  onTime : List Nat := []
  cut : Bool := false
  closed : Bool := true
  /-- The network time of the last close (R129). -/
  closedAt : Nat := 0
  /-- The network time of each point's last write, plus 1 (R115); the value last published, plus 1 (R112). -/
  wroteAt : SMap Nat := []
  /-- The cycle, plus 1, in which each racked point was written (R332). -/
  wroteCyc : SMap Nat := []
  pub : SMap Nat := []
  /-- The PD2 clock of each point's last write, plus 1, and the place of that write in the order of R108. -/
  wroteIn : SMap (Nat × Nat) := []
  /-- Directory entries lost to a memory error, which firmware has yet to restore (R117). -/
  lost : List Nat := []
  deriving DecidableEq, Repr

/-- A conversion in progress (R250, R252): injected or slot `slot`; the network time of its first sample. -/
structure AdcJob where
  inj : Bool
  slot : Nat := 0
  pos : Nat
  k : Nat
  pull : Nat
  /-- The instant of the set's first sample, on the elapsed clock. -/
  first : Time
  /-- Started from DOWN: bit cycling begins 400 ns later (R249). -/
  wake : Bool := false
  /-- A regular start that found the converter idle began it (R252). -/
  idle : Bool := false
  deriving DecidableEq, Repr

/-- A converter beside its registers (R246 to R253). -/
structure AdcSt where
  job : Option AdcJob := none
  /-- An injected request that waits: position, exponent, pull. -/
  inj : Option (Nat × Nat × Nat) := none
  /-- The slot at which an interrupted sequence goes on. -/
  nextSlot : Option Nat := none
  /-- Starting up from DOWN. -/
  waking : Bool := false
  /-- The last expiry of the timer, or its start; the start of the latest calibration (R248, R253). -/
  timerAt : Time := 0
  calAt : Time := 0
  /-- Sampling instants of regular starts still to come (Table 10.2), in order. -/
  starts : List Time := []
  /-- While idle, the input has been acquired from this instant on (R251). -/
  freeAt : Time := 0
  /-- The first sampling instant of the sequence in progress, and the power-down decided at the last result (R249). -/
  seqAt : Time := 0
  down : Bool := false
  /-- The temperature correction at the latest calibration, in 2⁻⁸ ppb (R49, R253). -/
  calGain : Int := 0
  deriving DecidableEq, Repr

/-- The ADC block beside its registers: converters; the time of each result (converter × 6 + n), plus 1; for each
(result × 16 + master), results written since the master's last read, whether one came before its read of the high
half (R255); the master's latch: result and word. Windows: the input last seen, in units of 1.6 V / 2²⁴, and the
start of an assertion condition under filter, plus 1; the commit whose levels settle (R258). Of each result the words that
its latest write replaced, and that write's instant (Table 2.8). -/
structure AdcBlk where
  conv : SMap AdcSt := []
  at_ : SMap Nat := []
  was : SMap (List Nat × Time) := []
  fresh : SMap (Nat × Bool) := []
  latch : SMap (Option (Nat × Nat)) := []
  winIn : SMap Int := []
  winSince : SMap Nat := []
  commitAt : SMap Time := []
  /-- The static pulls of an input over the last 20 µs, newest first: since when, and which (R260). -/
  pulls : SMap (List (Time × Nat)) := []
  deriving DecidableEq, Repr

/-- A tick of pair 8 on its way through the regulator (R226, R228): its instant on the replica of PD8, its place in the
carrier period (0 valley, 1 and 3 half counts, 2 peak), its number since START (0: none), when it left PD8, whether it
has arrived (1) and is computed (2), and the pulls of the sense tests for its conversion, each with its input (R239). -/
structure SprTick where
  at_ : Nat
  pos : Nat
  no : Nat
  sent : Time
  stage : Nat := 0
  pulls : List (Nat × Nat) := []
  deriving DecidableEq, Repr

/-- A converter result on its way to the regulator (R228, Table 2.8): the quantity, its code, its tag in nanoseconds, and its
arrival. -/
structure SprIn where
  q : Nat
  code : Nat
  tag : Nat
  arrive : Time
  deriving DecidableEq, Repr

/-- A sense test in progress (R239): the quantity, the tick of the pull-up, its reading once taken. -/
structure SprTest where
  q : Nat
  tick : Nat
  up : Option Nat := none
  deriving DecidableEq, Repr

/-- A committed parameter set that waits (R231): its values by key, its coefficients, when they were computed, and
whether it has missed a tick. -/
structure SprSet where
  vals : SMap Nat
  coef : List Nat
  ready : Option Time := none
  missed : Bool := false
  deriving DecidableEq, Repr

/-- The string port regulator beside its registers (Chapter 9). Binary32 words unless said; `x` and `ist` binary64. -/
structure SprSt where
  /-- The tick being computed: its instant on the replica of PD8, its place in the carrier period (0 valley, 2 peak), and its
  number since START. -/
  tickAt : Nat := 0
  pos : Nat := 0
  tick : Nat := 0
  /-- The latest ticks, oldest first, how many pair 8 has issued since START, and the results on their way. -/
  ticks : List SprTick := []
  issued : Nat := 0
  inbox : List SprIn := []
  startAt : Time := 0
  /-- The latest spans in which the regulator was not OFF, newest first: its six inputs, from and to (R239, R260). -/
  owned : List (List Nat × Time × Time) := []
  /-- The six quantities, their codes, and how many results of each are missing in a row. -/
  q : List Nat := [0, 0, 0, 0, 0, 0]
  codes : List Nat := [0, 0, 0, 0, 0, 0]
  miss : List Nat := [0, 0, 0, 0, 0, 0]
  /-- MEASURE: string and link readings so far. -/
  acc : List (Nat × Nat) := []
  vref : Nat := 0
  itot : Nat := 0
  iff : Nat := 0
  /-- The compensator's states and its last output. -/
  x : List Nat := [0, 0, 0]
  cv : Nat := 0
  coef : List Nat := [0, 0, 0, 0, 0, 0, 0]
  ist : SMap Nat := []
  /-- The duty in force over the present interval, and the tick of the last execution plus 1, of each phase. -/
  dIn : SMap Nat := []
  last : SMap Nat := []
  /-- Phases that restart with a preset integrator at their next execution. -/
  preset : Nat := 0
  /-- Added phases whose next execution is still to come (R237). -/
  joining : Nat := 0
  /-- The model current of each phase carried on from its last good reading (R242). -/
  good : SMap Nat := []
  /-- Shed windows: phase ↦ first tick plus 1, and whether forced. -/
  shed : SMap (Nat × Bool) := []
  abort : Nat := 0
  settle : Nat := 0
  skipCnt : Nat := 0
  shedCnt : Nat := 0
  hold : Nat := 0
  openAt : SMap Nat := []
  openTest : SMap Nat := []
  senseAt : SMap Nat := []
  /-- The sense tests in progress, and the inputs whose test is to begin. -/
  tests : List SprTest := []
  want : List Nat := []
  rot : Nat := 0
  rotCnt : Nat := 0
  /-- The last test of each input: 1 passed, 2 failed, 0 none since it was declared failed. -/
  tested : List Nat := [0, 0, 0, 0, 0, 0]
  stopAt : Nat := 0
  low : SMap Nat := []
  wait : Option SprSet := none
  pffQ : List (Nat × Time) := []
  pff : Nat := 0
  nOk : Nat := 4
  deriving DecidableEq, Repr

/-- What a stack keeps of a configured cell (R30, R163): state and cause of its last TEL frame (OFF when it is not
reached), the cycle of that frame plus 1. -/
structure CellSeen where
  state : Nat := 0
  cause : Nat := 0
  faults : Nat := 0
  applied : Nat := 0
  cyc : Nat := 0
  /-- BOOTREQ of that frame (R62, R271). -/
  bootreq : Nat := 0
  deriving DecidableEq, Repr

/-- Stack control by the firmware (Chapters 1 and 6). -/
structure CtlSt where
  /-- A START command is held (R31). -/
  startHeld : Bool := false
  /-- The start of the enumeration in progress, and the cells found by it. -/
  enumAt : Time := 0
  found : List Nat := []
  cells : SMap CellSeen := []
  /-- Pitch step (R179), entry to PITCH, and whether PRECHG_TMO has acted. -/
  step : Nat := 0
  pitchAt : Time := 0
  laggards : Bool := false
  /-- BRK as point 0x3_0004 shows it, and the start of the breaker action. -/
  brk : Nat := 0
  brkAt : Time := 0
  /-- An orderly stop (R181): the cause it will give, its start, since when the currents are low, and 0 while it ramps, 1
  while the breaker opens, 2 after a failed opening. -/
  stop : Option Nat := none
  stopAt : Time := 0
  lowSince : Option Time := none
  stopStep : Nat := 0
  /-- CTL.STOP is set (R181). -/
  ctlStop : Bool := false
  /-- Class of each cell (R163), cycles FROZEN in a row, cells whose rejoin was commanded. -/
  cls : SMap Nat := []
  /-- The classes of the cycle in progress: those decided at the close of the fill before. -/
  clsNow : SMap Nat := []
  frozen : SMap Nat := []
  rejoin : List Nat := []
  /-- Per arm the cells that hold slots, and per cell SLOT, NSLOT and SLOT_CYCLE (R171). -/
  slotSet : SMap (List Nat) := []
  slots : SMap (Nat × Nat × Nat) := []
  /-- Held levels of PO0 to PO7, and the end of each pulse (R26). -/
  level : Nat := 0
  pulse : SMap Time := []
  /-- Lease-only cell commands sent: cell, rejoin, epoch (R342, R343). -/
  sent : List (Nat × Bool × Nat) := []
  /-- Cells that the holder has sent their configuration (R437). -/
  cfgSent : List Nat := []
  deriving DecidableEq, Repr

/-- A transfer of the QSPI target from chip select falling to its rise (R80 to R82). -/
inductive QspiPhase where
  | idle | write | read | rdsr
  /-- An instruction that Table 3.17 does not list. -/
  | ignored
  deriving DecidableEq, Repr

/-- The QSPI target: the transfer, its address, bytes of the word in progress, the status that RDSR will return (0: no
word refused), the marker that the last read carried, and the words or status bytes that the last instruction
returned. -/
structure QspiSt where
  phase : QspiPhase := .idle
  addr : Nat := 0
  part : Nat := 0
  status : Nat := 0
  marker : Nat := 0
  out : List Nat := []
  deriving DecidableEq, Repr

/-- An instruction of the TAP (Table 17.4). -/
inductive JtagIr where
  | bypass | idcode | sample | extest | clamp | highz | dbgacc | dbgcore
  deriving DecidableEq, Repr

/-- The test access port (R409, R410): the current instruction, whether the last one was refused or unknown (the next
Capture-IR shows it), the boundary register as last updated, and the result that the next Capture-DR of DBGACC loads:
completed, status, word. -/
structure JtagSt where
  ir : JtagIr := .idcode
  refused : Bool := false
  bnd : Boundary := {}
  done : Bool := false
  status : Nat := 0
  word : Nat := 0
  deriving DecidableEq, Repr


/-- The state of the block. -/
structure State where
  /-- Elapsed time since power-on, in units of 2⁻¹⁶ ns (assumption 1). -/
  clk : Time := 0
  regs : SMap Nat := []
  eff : SMap Nat := []
  mem : List Host.Cell := []
  sys : SysSt := {}
  pins : PinSt := {}
  flash : Flash := {}
  mbx : MbxSt := {}
  sec : SecSt := {}
  tim : TimSt := {}
  flt : FltSt := {}
  gd : SMap GdChan := []
  pwm : SMap PwmPair := []
  cell : CellSt := {}
  lanes : SMap LaneSt := []
  link : LinkSt := {}
  cap : CapSt := {}
  mash : MashSt := {}
  trace : SMap TraceSt := []
  grist : GristSt := {}
  /-- The word that the last read access of each master returned. -/
  rdata : SMap Nat := []
  adc : AdcBlk := {}
  spr : SprSt := {}
  kiln : KilnSt := {}
  /-- The Ethernet messages sent since the last reset, oldest first. -/
  ethOut : List EthOut := []
  vote : VoteSt := {}
  ctl : CtlSt := {}
  qspi : QspiSt := {}
  jtag : JtagSt := {}
  /-- The model's own counter of free values drawn (assumption 4). -/
  free : Nat := 0
  /-- The commands that are waiting, first in, first out. -/
  pending : List Instr := []
  deriving DecidableEq, Repr

/-- Why a step can stop with a fault: no command of the TZ-192 does. -/
inductive Fault where
  /-- Raised by nothing: every access of this block is answered (R66, R67). Safe. -/
  | unreachable
  deriving DecidableEq, Repr

/-- Why a command is refused. -/
inductive Refusal where
  /-- A command of the table that has no meaning yet: raised by exec's arms. Safe. -/
  | notModelled (mnemonic : String)
  deriving DecidableEq, Repr

/-- Every register at its On reset value, every memory and queue empty. -/
def State.blank : State := {}

/-- The machine at power-on: held in cold reset by the supply monitors, cause POR (R36, R50, R54), with the reset's
journal entry (R93). Beside SYS_RSTCAUSE.POR (the first key), ACC_JNLHEAD.HEAD and ACC_JNLCNT.UNREAD every register is
at its On reset value, every memory reads zero. -/
def State.reset : State :=
  { regs := [(1048576, 1), (8592031744, 1), (8592293888, 1)]
    mbx := { jnl := [(0, [3 * 2 ^ 24, 0, 1, 0, 0, 0, 0, 0])], jnlNum := 1 } }

end Sys2Proof.Machine
end

