-- ==== Sys2Proof/Machine/RegMap.lean ====
section
/-! DEFINITION. The register map: every field of every register table of spec/, one named constant each
(block base plus offset, bits, access code of Table 0.3, value on reset), and for each block the list of its
registers. A field whose On reset cell is X, strap, OTP, source, random or derived is written here with the value
assumption 3 names; reset and strap sampling set the sampled ones. -/

namespace Sys2Proof.Machine

/- SYS_STRAP, R29. -/
def SYS_STRAP_ROLE : Fld := { addr := 0x000004, lo := 4, width := 1, acc := .ro, reset := 0 }
def SYS_STRAP_SID_BAD : Fld := { addr := 0x000004, lo := 3, width := 1, acc := .ro, reset := 0 }
def SYS_STRAP_SID : Fld := { addr := 0x000004, lo := 0, width := 2, acc := .ro, reset := 0 }
/- SYS_STATE, R30. -/
def SYS_STATE_TRANS_CNT : Fld := { addr := 0x000008, lo := 24, width := 8, acc := .ro, reset := 0 }
def SYS_STATE_CAUSE : Fld := { addr := 0x000008, lo := 16, width := 8, acc := .ro, reset := 0 }
def SYS_STATE_PREV : Fld := { addr := 0x000008, lo := 8, width := 4, acc := .ro, reset := 1 }
def SYS_STATE_STATE : Fld := { addr := 0x000008, lo := 0, width := 4, acc := .ro, reset := 1 }
/- PWR_DOMCTL, R42. -/
def PWR_DOMCTL_REQ : Fld := { addr := 0x030000, lo := 1, width := 16, acc := .rw, reset := 0 }
/- PWR_DOMSTAT, R42. -/
def PWR_DOMSTAT_ON : Fld := { addr := 0x030004, lo := 0, width := 17, acc := .ro, reset := 1 }
/- PWR_DOMBUSY, R42. -/
def PWR_DOMBUSY_BUSY : Fld := { addr := 0x030008, lo := 1, width := 16, acc := .ro, reset := 0 }
/- PWR_ERR, R42. -/
def PWR_ERR_VALID : Fld := { addr := 0x03000c, lo := 31, width := 1, acc := .w1c, reset := 0 }
def PWR_ERR_MULTI : Fld := { addr := 0x03000c, lo := 30, width := 1, acc := .w1c, reset := 0 }
def PWR_ERR_DOM : Fld := { addr := 0x03000c, lo := 16, width := 5, acc := .ro, reset := 0 }
def PWR_ERR_STATUS : Fld := { addr := 0x03000c, lo := 0, width := 16, acc := .ro, reset := 0 }
/- CLK_STAT, R48. -/
def CLK_STAT_LOSSCNT : Fld := { addr := 0x030010, lo := 24, width := 8, acc := .ro, reset := 0 }
def CLK_STAT_HOLD : Fld := { addr := 0x030010, lo := 8, width := 1, acc := .ro, reset := 0 }
def CLK_STAT_LOCK : Fld := { addr := 0x030010, lo := 4, width := 1, acc := .ro, reset := 0 }
def CLK_STAT_SRC : Fld := { addr := 0x030010, lo := 0, width := 1, acc := .ro, reset := 0 }
/- SYS_RSTCAUSE, R54. -/
def SYS_RSTCAUSE_LAST : Fld := { addr := 0x000010, lo := 28, width := 4, acc := .ro, reset := 0 }
def SYS_RSTCAUSE_SYSCNT : Fld := { addr := 0x000010, lo := 16, width := 8, acc := .ro, reset := 0 }
def SYS_RSTCAUSE_STRAPCHG : Fld := { addr := 0x000010, lo := 9, width := 1, acc := .w1c, reset := 0 }
def SYS_RSTCAUSE_DEBUG : Fld := { addr := 0x000010, lo := 8, width := 1, acc := .w1c, reset := 0 }
def SYS_RSTCAUSE_SWSYS : Fld := { addr := 0x000010, lo := 7, width := 1, acc := .w1c, reset := 0 }
def SYS_RSTCAUSE_MEMERR : Fld := { addr := 0x000010, lo := 6, width := 1, acc := .w1c, reset := 0 }
def SYS_RSTCAUSE_LOCKSTEP : Fld := { addr := 0x000010, lo := 5, width := 1, acc := .w1c, reset := 0 }
def SYS_RSTCAUSE_WDOG : Fld := { addr := 0x000010, lo := 4, width := 1, acc := .w1c, reset := 0 }
def SYS_RSTCAUSE_CLKLOSS : Fld := { addr := 0x000010, lo := 3, width := 1, acc := .w1c, reset := 0 }
def SYS_RSTCAUSE_PIN : Fld := { addr := 0x000010, lo := 2, width := 1, acc := .w1c, reset := 0 }
def SYS_RSTCAUSE_BOR : Fld := { addr := 0x000010, lo := 1, width := 1, acc := .w1c, reset := 0 }
def SYS_RSTCAUSE_POR : Fld := { addr := 0x000010, lo := 0, width := 1, acc := .w1c, reset := 0 }
/- SYS_RSTCTL, R54. -/
def SYS_RSTCTL_KEY : Fld := { addr := 0x000014, lo := 16, width := 16, acc := .wo, reset := 0 }
def SYS_RSTCTL_COLD : Fld := { addr := 0x000014, lo := 1, width := 1, acc := .wo, reset := 0 }
def SYS_RSTCTL_SYS : Fld := { addr := 0x000014, lo := 0, width := 1, acc := .wo, reset := 0 }
/- SYS_BOOT, R63. -/
def SYS_BOOT_FWSLOT : Fld := { addr := 0x000018, lo := 28, width := 4, acc := .ro, reset := 0xf }
def SYS_BOOT_CFGSLOT : Fld := { addr := 0x000018, lo := 24, width := 4, acc := .ro, reset := 0xf }
def SYS_BOOT_SRC : Fld := { addr := 0x000018, lo := 22, width := 2, acc := .ro, reset := 0 }
def SYS_BOOT_TRIAL : Fld := { addr := 0x000018, lo := 21, width := 1, acc := .ro, reset := 0 }
def SYS_BOOT_TRIES : Fld := { addr := 0x000018, lo := 16, width := 4, acc := .ro, reset := 0 }
def SYS_BOOT_STATUS : Fld := { addr := 0x000018, lo := 0, width := 16, acc := .ro, reset := 0 }
/- SYS_CFGSTAT, R439. -/
def SYS_CFGSTAT_TRIED1 : Fld := { addr := 0x00001c, lo := 31, width := 1, acc := .ro, reset := 0 }
def SYS_CFGSTAT_TRIED0 : Fld := { addr := 0x00001c, lo := 30, width := 1, acc := .ro, reset := 0 }
def SYS_CFGSTAT_ST1 : Fld := { addr := 0x00001c, lo := 8, width := 8, acc := .ro, reset := 0 }
def SYS_CFGSTAT_ST0 : Fld := { addr := 0x00001c, lo := 0, width := 8, acc := .ro, reset := 0 }
/- SYS_ID, R68. -/
def SYS_ID_ID : Fld := { addr := 0x000000, lo := 0, width := 32, acc := .ro, reset := 0x6a1a0192 }
/- SYS_PRESENT, R68. -/
def SYS_PRESENT_PRESENT : Fld := { addr := 0x000020, lo := 0, width := 17, acc := .ro, reset := 0x1ffff }
/- SYS_RETIRED, R68. -/
def SYS_RETIRED_RETIRED : Fld := { addr := 0x000024, lo := 0, width := 17, acc := .ro, reset := 0 }
/- SYS_ERRCNT, R68. -/
def SYS_ERRCNT_UNMAP : Fld := { addr := 0x000028, lo := 16, width := 16, acc := .ro, reset := 0 }
def SYS_ERRCNT_RSVD : Fld := { addr := 0x000028, lo := 0, width := 16, acc := .ro, reset := 0 }
/- PWM_CHSEL, R69. -/
def PWM_CHSEL_CH : Fld := { addr := 0x100000, lo := 0, width := 8, acc := .rw, reset := 0 }
/- GD_CHSEL, R69. -/
def GD_CHSEL_CH : Fld := { addr := 0x110000, lo := 0, width := 8, acc := .rw, reset := 0 }
/- ADC_CHSEL, R69. -/
def ADC_CHSEL_CH : Fld := { addr := 0x130000, lo := 0, width := 8, acc := .rw, reset := 0 }
/- LNK_CHSEL, R69. -/
def LNK_CHSEL_CH : Fld := { addr := 0x140000, lo := 0, width := 8, acc := .rw, reset := 0 }
/- VOTE_CHSEL, R69. -/
def VOTE_CHSEL_CH : Fld := { addr := 0x150000, lo := 0, width := 8, acc := .rw, reset := 0 }
/- CAP_CHSEL, R69. -/
def CAP_CHSEL_CH : Fld := { addr := 0x160000, lo := 0, width := 8, acc := .rw, reset := 0 }
/- MBX_IRQ, R71. -/
def MBX_IRQ_DONE : Fld := { addr := 0x010000, lo := 0, width := 8, acc := .w1c, reset := 0 }
/- MBX_IEN, R71. -/
def MBX_IEN_EN : Fld := { addr := 0x010004, lo := 0, width := 8, acc := .rw, reset := 0 }
/- MBX_NETCNT, R71. -/
def MBX_NETCNT_DROP_SRC : Fld := { addr := 0x010010, lo := 16, width := 16, acc := .ro, reset := 0 }
def MBX_NETCNT_DROP_NOLEASE : Fld := { addr := 0x010010, lo := 0, width := 16, acc := .ro, reset := 0 }
/- MBX_HDR0, R71. -/
def MBX_HDR0_OPCODE : Fld := { addr := 0x010100, lo := 16, width := 16, acc := .rw, reset := 0 }
def MBX_HDR0_LENGTH : Fld := { addr := 0x010100, lo := 0, width := 16, acc := .rw, reset := 0 }
/- MBX_HDR1, R71. -/
def MBX_HDR1_SEQ : Fld := { addr := 0x010104, lo := 16, width := 16, acc := .rw, reset := 0 }
def MBX_HDR1_STATUS : Fld := { addr := 0x010104, lo := 0, width := 16, acc := .ro, reset := 0 }
/- MBX_CTL, R71. -/
def MBX_CTL_GO : Fld := { addr := 0x010108, lo := 0, width := 1, acc := .wo, reset := 0 }
/- MBX_STAT, R71. -/
def MBX_STAT_STATE : Fld := { addr := 0x01010c, lo := 0, width := 2, acc := .ro, reset := 0 }
/- ACC_REGION, R91. -/
def ACC_REGION_REGION : Fld := { addr := 0x020000, lo := 0, width := 20, acc := .rw, reset := 0 }
/- ACC_RIGHTS, R91. -/
def ACC_RIGHTS_J : Fld := { addr := 0x020004, lo := 31, width := 1, acc := .rw, reset := 0 }
def ACC_RIGHTS_M8 : Fld := { addr := 0x020004, lo := 24, width := 3, acc := .rw, reset := 0 }
def ACC_RIGHTS_M7 : Fld := { addr := 0x020004, lo := 21, width := 3, acc := .rw, reset := 0 }
def ACC_RIGHTS_M6 : Fld := { addr := 0x020004, lo := 18, width := 3, acc := .rw, reset := 0 }
def ACC_RIGHTS_M5 : Fld := { addr := 0x020004, lo := 15, width := 3, acc := .rw, reset := 0 }
def ACC_RIGHTS_M4 : Fld := { addr := 0x020004, lo := 12, width := 3, acc := .rw, reset := 0 }
def ACC_RIGHTS_M3 : Fld := { addr := 0x020004, lo := 9, width := 3, acc := .rw, reset := 0 }
def ACC_RIGHTS_M2 : Fld := { addr := 0x020004, lo := 6, width := 3, acc := .rw, reset := 0 }
def ACC_RIGHTS_M1 : Fld := { addr := 0x020004, lo := 3, width := 3, acc := .rw, reset := 0 }
def ACC_RIGHTS_M0 : Fld := { addr := 0x020004, lo := 0, width := 3, acc := .ro, reset := 7 }
/- ACC_ERR, R91. -/
def ACC_ERR_VALID : Fld := { addr := 0x020010, lo := 31, width := 1, acc := .w1c, reset := 0 }
def ACC_ERR_MULTI : Fld := { addr := 0x020010, lo := 30, width := 1, acc := .w1c, reset := 0 }
def ACC_ERR_MASTER : Fld := { addr := 0x020010, lo := 24, width := 4, acc := .ro, reset := 0 }
def ACC_ERR_STATUS : Fld := { addr := 0x020010, lo := 0, width := 16, acc := .ro, reset := 0 }
/- ACC_ERRADDR, R91. -/
def ACC_ERRADDR_ADDR : Fld := { addr := 0x020014, lo := 0, width := 32, acc := .ro, reset := 0 }
/- ACC_JNLHEAD, R94. -/
def ACC_JNLHEAD_HEAD : Fld := { addr := 0x020020, lo := 0, width := 12, acc := .ro, reset := 0 }
/- ACC_JNLCNT, R94. -/
def ACC_JNLCNT_LOST : Fld := { addr := 0x020024, lo := 16, width := 16, acc := .ro, reset := 0 }
def ACC_JNLCNT_UNREAD : Fld := { addr := 0x020024, lo := 0, width := 13, acc := .ro, reset := 0 }
/- ACC_JNLCFG, R94. -/
def ACC_JNLCFG_STOP : Fld := { addr := 0x020028, lo := 0, width := 1, acc := .rw, reset := 0 }
/- ACC_JNLFREE, R94. -/
def ACC_JNLFREE_N : Fld := { addr := 0x02002c, lo := 0, width := 13, acc := .wo, reset := 0 }
/- ACC_JNLIDX, R94. -/
def ACC_JNLIDX_IDX : Fld := { addr := 0x020030, lo := 0, width := 12, acc := .rw, reset := 0 }
/- ACC_JNLDATA, R94. -/
def ACC_JNLDATA_WORD : Fld := { addr := 0x020040, lo := 0, width := 32, acc := .ro, reset := 0 }
/- PT_DIRIDX, R118. -/
def PT_DIRIDX_IDX : Fld := { addr := 0x180000, lo := 0, width := 14, acc := .rw, reset := 0 }
/- PT_DIRLO, R118. -/
def PT_DIRLO_WORD : Fld := { addr := 0x180004, lo := 0, width := 32, acc := .rw, reset := 0 }
/- PT_DIRHI, R118. -/
def PT_DIRHI_WORD : Fld := { addr := 0x180008, lo := 0, width := 32, acc := .rw, reset := 0 }
/- PT_DIRCTL, R118. -/
def PT_DIRCTL_WRITE : Fld := { addr := 0x18000c, lo := 1, width := 1, acc := .wo, reset := 0 }
def PT_DIRCTL_READ : Fld := { addr := 0x18000c, lo := 0, width := 1, acc := .wo, reset := 0 }
/- PT_FILLCFG, R118. -/
def PT_FILLCFG_OFS : Fld := { addr := 0x180010, lo := 0, width := 20, acc := .rws, reset := 0x1f40 }
/- PT_FILLCYC, R118. -/
def PT_FILLCYC_CYCLE : Fld := { addr := 0x180014, lo := 0, width := 32, acc := .ro, reset := 0 }
/- PT_FILLSTAT, R118. -/
def PT_FILLSTAT_MISSING : Fld := { addr := 0x180018, lo := 16, width := 8, acc := .ro, reset := 0 }
def PT_FILLSTAT_FILLED : Fld := { addr := 0x180018, lo := 0, width := 8, acc := .ro, reset := 0 }
/- PT_MISS, R118. -/
def PT_MISS_MISS : Fld := { addr := 0x180020, lo := 0, width := 32, acc := .ro, reset := 0 }
/- PT_ERR, R118. -/
def PT_ERR_VALID : Fld := { addr := 0x180040, lo := 31, width := 1, acc := .w1c, reset := 0 }
def PT_ERR_MULTI : Fld := { addr := 0x180040, lo := 30, width := 1, acc := .w1c, reset := 0 }
def PT_ERR_MASTER : Fld := { addr := 0x180040, lo := 24, width := 4, acc := .ro, reset := 0 }
def PT_ERR_STATUS : Fld := { addr := 0x180040, lo := 0, width := 16, acc := .ro, reset := 0 }
/- PT_ERRPT, R118. -/
def PT_ERRPT_POINT : Fld := { addr := 0x180044, lo := 0, width := 18, acc := .ro, reset := 0 }
/- PT_ECC, R118. -/
def PT_ECC_CORR : Fld := { addr := 0x180048, lo := 16, width := 16, acc := .ro, reset := 0 }
def PT_ECC_UNCORR : Fld := { addr := 0x180048, lo := 0, width := 16, acc := .ro, reset := 0 }
/- PT_TELCNT, R118. -/
def PT_TELCNT_LATE : Fld := { addr := 0x18004c, lo := 16, width := 16, acc := .ro, reset := 0 }
def PT_TELCNT_OLD : Fld := { addr := 0x18004c, lo := 0, width := 16, acc := .ro, reset := 0 }
/- PT_TELUNK, R118. -/
def PT_TELUNK_RACKDROP : Fld := { addr := 0x180050, lo := 16, width := 16, acc := .ro, reset := 0 }
def PT_TELUNK_UNKNOWN : Fld := { addr := 0x180050, lo := 0, width := 16, acc := .ro, reset := 0 }
/- MASH_STAT, R154. -/
def MASH_STAT_ACTIVE : Fld := { addr := 0x170000, lo := 31, width := 1, acc := .ro, reset := 0 }
def MASH_STAT_PEND : Fld := { addr := 0x170000, lo := 30, width := 1, acc := .ro, reset := 0 }
def MASH_STAT_IDLE : Fld := { addr := 0x170000, lo := 29, width := 1, acc := .ro, reset := 1 }
def MASH_STAT_OVR : Fld := { addr := 0x170000, lo := 28, width := 1, acc := .ro, reset := 0 }
def MASH_STAT_FOVR : Fld := { addr := 0x170000, lo := 27, width := 1, acc := .ro, reset := 0 }
def MASH_STAT_THR : Fld := { addr := 0x170000, lo := 16, width := 4, acc := .ro, reset := 0 }
def MASH_STAT_TUNED : Fld := { addr := 0x170000, lo := 0, width := 7, acc := .ro, reset := 0 }
/- MASH_CYCLE, R154. -/
def MASH_CYCLE_CYCLE : Fld := { addr := 0x170004, lo := 0, width := 32, acc := .ro, reset := 0 }
/- MASH_COSTM, R154. -/
def MASH_COSTM_T : Fld := { addr := 0x170008, lo := 0, width := 20, acc := .ro, reset := 0 }
/- MASH_COSTF, R154. -/
def MASH_COSTF_C : Fld := { addr := 0x17000c, lo := 0, width := 20, acc := .ro, reset := 0 }
/- MASH_END, R154. -/
def MASH_END_NS : Fld := { addr := 0x170010, lo := 0, width := 20, acc := .ro, reset := 0 }
/- MASH_ENDMAX, R154. -/
def MASH_ENDMAX_NS : Fld := { addr := 0x170014, lo := 0, width := 20, acc := .ro, reset := 0 }
/- MASH_OVRCNT, R154. -/
def MASH_OVRCNT_MAIN : Fld := { addr := 0x170018, lo := 16, width := 16, acc := .ro, reset := 0 }
def MASH_OVRCNT_FAST : Fld := { addr := 0x170018, lo := 0, width := 16, acc := .ro, reset := 0 }
/- MASH_NUMCNT, R154. -/
def MASH_NUMCNT_NONFIN : Fld := { addr := 0x17001c, lo := 16, width := 16, acc := .ro, reset := 0 }
def MASH_NUMCNT_CLAMP : Fld := { addr := 0x17001c, lo := 0, width := 16, acc := .ro, reset := 0 }
/- MASH_QUALCNT, R154. -/
def MASH_QUALCNT_N : Fld := { addr := 0x170020, lo := 0, width := 11, acc := .ro, reset := 0 }
/- MASH_PLCNT, R154. -/
def MASH_PLCNT_FLAGS : Fld := { addr := 0x170024, lo := 16, width := 16, acc := .ro, reset := 0 }
def MASH_PLCNT_FAULTS : Fld := { addr := 0x170024, lo := 0, width := 16, acc := .ro, reset := 0 }
/- MASH_ERR, R154. -/
def MASH_ERR_VALID : Fld := { addr := 0x170030, lo := 31, width := 1, acc := .w1c, reset := 0 }
def MASH_ERR_MULTI : Fld := { addr := 0x170030, lo := 30, width := 1, acc := .w1c, reset := 0 }
def MASH_ERR_MASTER : Fld := { addr := 0x170030, lo := 24, width := 4, acc := .ro, reset := 0 }
def MASH_ERR_STATUS : Fld := { addr := 0x170030, lo := 0, width := 16, acc := .ro, reset := 0 }
/- MASH_ERRPOS, R154. -/
def MASH_ERRPOS_POS : Fld := { addr := 0x170034, lo := 0, width := 16, acc := .ro, reset := 0 }
/- MASH_ECC, R154. -/
def MASH_ECC_CORR : Fld := { addr := 0x170038, lo := 16, width := 16, acc := .ro, reset := 0 }
def MASH_ECC_UNCORR : Fld := { addr := 0x170038, lo := 0, width := 16, acc := .ro, reset := 0 }
/- MASH_SWAPCYC, R154. -/
def MASH_SWAPCYC_CYCLE : Fld := { addr := 0x171000, lo := 0, width := 32, acc := .rw, reset := 0 }
/- MASH_SWAPCTL, R154. -/
def MASH_SWAPCTL_TCOMMIT : Fld := { addr := 0x171004, lo := 1, width := 1, acc := .wo, reset := 0 }
def MASH_SWAPCTL_REQ : Fld := { addr := 0x171004, lo := 0, width := 1, acc := .wo, reset := 0 }
/- MASH_TRARM, R154. -/
def MASH_TRARM_ARM : Fld := { addr := 0x171008, lo := 0, width := 32, acc := .wo, reset := 0 }
/- MASH_TRSTART, R154. -/
def MASH_TRSTART_START : Fld := { addr := 0x17100c, lo := 0, width := 32, acc := .wo, reset := 0 }
/- MASH_TRSTOP, R154. -/
def MASH_TRSTOP_STOP : Fld := { addr := 0x171010, lo := 0, width := 32, acc := .wo, reset := 0 }
/- MASH_B0ADDR, R154. -/
def MASH_B0ADDR_ADDR : Fld := { addr := 0x172000, lo := 0, width := 19, acc := .rw, reset := 0 }
/- MASH_B0DATA, R154. -/
def MASH_B0DATA_DATA : Fld := { addr := 0x172004, lo := 0, width := 32, acc := .rw, reset := 0 }
/- MASH_B1ADDR, R154. -/
def MASH_B1ADDR_ADDR : Fld := { addr := 0x173000, lo := 0, width := 19, acc := .rw, reset := 0 }
/- MASH_B1DATA, R154. -/
def MASH_B1DATA_DATA : Fld := { addr := 0x173004, lo := 0, width := 32, acc := .rw, reset := 0 }
/- MASH_TRCFG0, R154. -/
def MASH_TRCFG0_TASK : Fld := { addr := 0x174000, lo := 31, width := 1, acc := .rw, reset := 0 }
def MASH_TRCFG0_CAPEN : Fld := { addr := 0x174000, lo := 30, width := 1, acc := .rw, reset := 0 }
def MASH_TRCFG0_CAPCH : Fld := { addr := 0x174000, lo := 24, width := 6, acc := .rw, reset := 0 }
def MASH_TRCFG0_SRC : Fld := { addr := 0x174000, lo := 0, width := 14, acc := .rw, reset := 0 }
/- MASH_TRCFG1, R154. -/
def MASH_TRCFG1_PRE : Fld := { addr := 0x174004, lo := 16, width := 13, acc := .rw, reset := 0 }
def MASH_TRCFG1_LEN : Fld := { addr := 0x174004, lo := 0, width := 14, acc := .rw, reset := 0x2000 }
/- MASH_TRCFG2, R154. -/
def MASH_TRCFG2_DECIM : Fld := { addr := 0x174008, lo := 0, width := 16, acc := .rw, reset := 1 }
/- MASH_TRSTAT, R154. -/
def MASH_TRSTAT_STATE : Fld := { addr := 0x17400c, lo := 30, width := 2, acc := .ro, reset := 0 }
def MASH_TRSTAT_OLDEST : Fld := { addr := 0x17400c, lo := 16, width := 13, acc := .ro, reset := 0 }
def MASH_TRSTAT_TAKEN : Fld := { addr := 0x17400c, lo := 0, width := 14, acc := .ro, reset := 0 }
/- MASH_TRT0, R154. -/
def MASH_TRT0_NS : Fld := { addr := 0x174200, lo := 0, width := 32, acc := .ro, reset := 0 }
/- MASH_TRT1, R154. -/
def MASH_TRT1_SEC_LO : Fld := { addr := 0x174204, lo := 0, width := 32, acc := .ro, reset := 0 }
/- MASH_TRT2, R154. -/
def MASH_TRT2_FRAC : Fld := { addr := 0x174208, lo := 16, width := 16, acc := .ro, reset := 0 }
def MASH_TRT2_SEC_HI : Fld := { addr := 0x174208, lo := 0, width := 16, acc := .ro, reset := 0 }
/- MASH_NADDR, R154. -/
def MASH_NADDR_NODE : Fld := { addr := 0x175000, lo := 0, width := 14, acc := .rw, reset := 0 }
/- MASH_NDATA, R154. -/
def MASH_NDATA_VALUE : Fld := { addr := 0x175004, lo := 0, width := 32, acc := .ro, reset := 0 }
/- MASH_NFLAG, R154. -/
def MASH_NFLAG_SUB : Fld := { addr := 0x175008, lo := 1, width := 1, acc := .ro, reset := 0 }
def MASH_NFLAG_QUAL : Fld := { addr := 0x175008, lo := 0, width := 1, acc := .ro, reset := 0 }
/- MASH_TUNEIDX, R154. -/
def MASH_TUNEIDX_IDX : Fld := { addr := 0x176000, lo := 0, width := 16, acc := .rw, reset := 0 }
/- MASH_TUNEDATA, R154. -/
def MASH_TUNEDATA_VALUE : Fld := { addr := 0x176004, lo := 0, width := 32, acc := .rws, reset := 0 }
/- PWM_CFG, R206. -/
def PWM_CFG_EN : Fld := { addr := 0x100100, lo := 31, width := 1, acc := .rw, reset := 0 }
def PWM_CFG_ALIGN : Fld := { addr := 0x100100, lo := 30, width := 1, acc := .rw, reset := 0 }
def PWM_CFG_HR : Fld := { addr := 0x100100, lo := 29, width := 1, acc := .rw, reset := 0 }
def PWM_CFG_SRC : Fld := { addr := 0x100100, lo := 28, width := 1, acc := .rw, reset := 0 }
def PWM_CFG_UPD : Fld := { addr := 0x100100, lo := 27, width := 1, acc := .rw, reset := 0 }
def PWM_CFG_AUTO : Fld := { addr := 0x100100, lo := 26, width := 1, acc := .rw, reset := 0 }
def PWM_CFG_INVA : Fld := { addr := 0x100100, lo := 25, width := 1, acc := .rw, reset := 0 }
def PWM_CFG_INVB : Fld := { addr := 0x100100, lo := 24, width := 1, acc := .rw, reset := 0 }
def PWM_CFG_DITH : Fld := { addr := 0x100100, lo := 16, width := 5, acc := .rw, reset := 0 }
def PWM_CFG_MINPW : Fld := { addr := 0x100100, lo := 0, width := 12, acc := .rw, reset := 0 }
/- PWM_PER, R206. -/
def PWM_PER_PER : Fld := { addr := 0x100104, lo := 0, width := 20, acc := .rws, reset := 0 }
/- PWM_CMPA, R206. -/
def PWM_CMPA_CMP : Fld := { addr := 0x100108, lo := 0, width := 30, acc := .rws, reset := 0 }
/- PWM_CMPB, R206. -/
def PWM_CMPB_CMP : Fld := { addr := 0x10010c, lo := 0, width := 30, acc := .rws, reset := 0 }
/- PWM_OFS, R206. -/
def PWM_OFS_OFS : Fld := { addr := 0x100110, lo := 0, width := 31, acc := .rws, reset := 0 }
/- PWM_PHSTEP, R206. -/
def PWM_PHSTEP_STEP : Fld := { addr := 0x100114, lo := 0, width := 12, acc := .rw, reset := 0x40 }
/- PWM_CTL, R206. -/
def PWM_CTL_CANCEL : Fld := { addr := 0x100118, lo := 1, width := 1, acc := .wo, reset := 0 }
def PWM_CTL_COMMIT : Fld := { addr := 0x100118, lo := 0, width := 1, acc := .wo, reset := 0 }
/- PWM_STAT, R206. -/
def PWM_STAT_RUN : Fld := { addr := 0x10011c, lo := 31, width := 1, acc := .ro, reset := 0 }
def PWM_STAT_DOWN : Fld := { addr := 0x10011c, lo := 30, width := 1, acc := .ro, reset := 0 }
def PWM_STAT_PEND : Fld := { addr := 0x10011c, lo := 29, width := 1, acc := .ro, reset := 0 }
def PWM_STAT_LATE : Fld := { addr := 0x10011c, lo := 28, width := 1, acc := .ro, reset := 0 }
def PWM_STAT_SLEW : Fld := { addr := 0x10011c, lo := 27, width := 1, acc := .ro, reset := 0 }
def PWM_STAT_LOCK : Fld := { addr := 0x10011c, lo := 26, width := 1, acc := .ro, reset := 0 }
def PWM_STAT_FORCED : Fld := { addr := 0x10011c, lo := 25, width := 1, acc := .ro, reset := 0 }
def PWM_STAT_COUNT : Fld := { addr := 0x10011c, lo := 0, width := 20, acc := .ro, reset := 0 }
/- PWM_EPER, R206. -/
def PWM_EPER_PER : Fld := { addr := 0x100120, lo := 0, width := 20, acc := .ro, reset := 0 }
/- PWM_ECMPA, R206. -/
def PWM_ECMPA_CMP : Fld := { addr := 0x100124, lo := 0, width := 30, acc := .ro, reset := 0 }
/- PWM_ECMPB, R206. -/
def PWM_ECMPB_CMP : Fld := { addr := 0x100128, lo := 0, width := 30, acc := .ro, reset := 0 }
/- PWM_EOFS, R206. -/
def PWM_EOFS_OFS : Fld := { addr := 0x10012c, lo := 0, width := 31, acc := .ro, reset := 0 }
/- PWM_PERR, R206. -/
def PWM_PERR_E : Fld := { addr := 0x100130, lo := 0, width := 32, acc := .ro, reset := 0 }
/- PWM_CNT, R206. -/
def PWM_CNT_LATE : Fld := { addr := 0x100134, lo := 16, width := 16, acc := .ro, reset := 0 }
def PWM_CNT_DROP : Fld := { addr := 0x100134, lo := 0, width := 16, acc := .ro, reset := 0 }
/- PWM_GCOMMIT, R206. -/
def PWM_GCOMMIT_MASK : Fld := { addr := 0x101000, lo := 0, width := 12, acc := .wo, reset := 0 }
/- PWM_GCANCEL, R206. -/
def PWM_GCANCEL_MASK : Fld := { addr := 0x101004, lo := 0, width := 12, acc := .wo, reset := 0 }
/- PWM_ERR, R206. -/
def PWM_ERR_VALID : Fld := { addr := 0x101010, lo := 31, width := 1, acc := .w1c, reset := 0 }
def PWM_ERR_MULTI : Fld := { addr := 0x101010, lo := 30, width := 1, acc := .w1c, reset := 0 }
def PWM_ERR_MASTER : Fld := { addr := 0x101010, lo := 24, width := 4, acc := .ro, reset := 0 }
def PWM_ERR_PAIR : Fld := { addr := 0x101010, lo := 20, width := 4, acc := .ro, reset := 0 }
def PWM_ERR_STATUS : Fld := { addr := 0x101010, lo := 0, width := 16, acc := .ro, reset := 0 }
/- FLT_SRCSTAT0, R206. -/
def FLT_SRCSTAT0_FLAG : Fld := { addr := 0x102000, lo := 0, width := 32, acc := .w1c, reset := 0 }
/- FLT_SRCSTAT1, R206. -/
def FLT_SRCSTAT1_FLAG : Fld := { addr := 0x102004, lo := 0, width := 24, acc := .w1c, reset := 0 }
/- FLT_SRCLIVE0, R206. -/
def FLT_SRCLIVE0_LIVE : Fld := { addr := 0x102008, lo := 0, width := 32, acc := .ro, reset := 0 }
/- FLT_SRCLIVE1, R206. -/
def FLT_SRCLIVE1_LIVE : Fld := { addr := 0x10200c, lo := 0, width := 24, acc := .ro, reset := 0 }
/- FLT_TSIDX, R206. -/
def FLT_TSIDX_SRC : Fld := { addr := 0x102010, lo := 0, width := 6, acc := .rw, reset := 0 }
/- FLT_TSNS, R206. -/
def FLT_TSNS_NS : Fld := { addr := 0x102014, lo := 0, width := 32, acc := .ro, reset := 0 }
/- FLT_TSSEC, R206. -/
def FLT_TSSEC_SEC_LO : Fld := { addr := 0x102018, lo := 0, width := 32, acc := .ro, reset := 0 }
/- FLT_TSSECH, R206. -/
def FLT_TSSECH_SEC_HI : Fld := { addr := 0x10201c, lo := 0, width := 16, acc := .ro, reset := 0 }
/- FLT_PINCFG, R206. -/
def FLT_PINCFG_POL (k : Nat) : Fld := { addr := 0x102020, lo := 4 * k + 3, width := 1, acc := .rw, reset := 0 }
def FLT_PINCFG_DGL (k : Nat) : Fld := { addr := 0x102020, lo := 4 * k, width := 2, acc := .rw, reset := 0 }
/- FLT_SWFORCE, R206. -/
def FLT_SWFORCE_FORCE : Fld := { addr := 0x102024, lo := 0, width := 1, acc := .rw, reset := 0 }
/- FLT_GCFG, R206. -/
def FLT_GCFG_EN : Fld := { addr := 0x102100, lo := 31, width := 1, acc := .rw, reset := 0 }
def FLT_GCFG_SAFE : Fld := { addr := 0x102100, lo := 30, width := 1, acc := .rw, reset := 0 }
def FLT_GCFG_SAFE_T : Fld := { addr := 0x102100, lo := 0, width := 16, acc := .rw, reset := 0 }
/- FLT_GMASK0, R206. -/
def FLT_GMASK0_MASK : Fld := { addr := 0x102104, lo := 0, width := 32, acc := .rw, reset := 0 }
/- FLT_GMASK1, R206. -/
def FLT_GMASK1_MASK : Fld := { addr := 0x102108, lo := 0, width := 24, acc := .rw, reset := 0 }
/- FLT_GCOVER, R206. -/
def FLT_GCOVER_COVER : Fld := { addr := 0x10210c, lo := 0, width := 24, acc := .rw, reset := 0 }
/- FLT_GCODE1A, R206. -/
def FLT_GCODE1A_SAFE1 (k : Nat) : Fld := { addr := 0x102110, lo := 2 * k, width := 2, acc := .rw, reset := 0 }
/- FLT_GCODE1B, R206. -/
def FLT_GCODE1B_SAFE1 (k : Nat) : Fld := { addr := 0x102114, lo := 2 * k, width := 2, acc := .rw, reset := 0 }
/- FLT_GCODE2A, R206. -/
def FLT_GCODE2A_SAFE2 (k : Nat) : Fld := { addr := 0x102118, lo := 2 * k, width := 2, acc := .rw, reset := 0 }
/- FLT_GCODE2B, R206. -/
def FLT_GCODE2B_SAFE2 (k : Nat) : Fld := { addr := 0x10211c, lo := 2 * k, width := 2, acc := .rw, reset := 0 }
/- FLT_GSTAT, R206. -/
def FLT_GSTAT_LATCH : Fld := { addr := 0x102120, lo := 31, width := 1, acc := .w1c, reset := 0 }
def FLT_GSTAT_STEP2 : Fld := { addr := 0x102120, lo := 30, width := 1, acc := .ro, reset := 0 }
def FLT_GSTAT_TIE : Fld := { addr := 0x102120, lo := 29, width := 1, acc := .ro, reset := 0 }
def FLT_GSTAT_SECV : Fld := { addr := 0x102120, lo := 28, width := 1, acc := .ro, reset := 0 }
def FLT_GSTAT_FIRST : Fld := { addr := 0x102120, lo := 16, width := 6, acc := .ro, reset := 0 }
def FLT_GSTAT_SECOND : Fld := { addr := 0x102120, lo := 8, width := 6, acc := .ro, reset := 0 }
/- FLT_GCNT, R206. -/
def FLT_GCNT_LATCHES : Fld := { addr := 0x102124, lo := 0, width := 16, acc := .ro, reset := 0 }
/- GD_CFG, R223. -/
def GD_CFG_EN : Fld := { addr := 0x110100, lo := 31, width := 1, acc := .rw, reset := 0 }
def GD_CFG_DIEN : Fld := { addr := 0x110100, lo := 30, width := 1, acc := .rw, reset := 0 }
def GD_CFG_FBPOL : Fld := { addr := 0x110100, lo := 29, width := 1, acc := .rw, reset := 0 }
def GD_CFG_THR : Fld := { addr := 0x110100, lo := 24, width := 4, acc := .rw, reset := 0xf }
def GD_CFG_TBLANK : Fld := { addr := 0x110100, lo := 0, width := 12, acc := .rw, reset := 0x320 }
/- GD_TON, R223. -/
def GD_TON_TWON : Fld := { addr := 0x110104, lo := 16, width := 12, acc := .rw, reset := 0xa0 }
def GD_TON_TPRE : Fld := { addr := 0x110104, lo := 0, width := 10, acc := .rw, reset := 0x10 }
/- GD_TOFF, R223. -/
def GD_TOFF_TWOFF : Fld := { addr := 0x110108, lo := 16, width := 12, acc := .rw, reset := 0xa0 }
def GD_TOFF_TPDIS : Fld := { addr := 0x110108, lo := 0, width := 10, acc := .rw, reset := 0 }
/- GD_TFB, R223. -/
def GD_TFB_TFBOFF : Fld := { addr := 0x11010c, lo := 0, width := 12, acc := .rw, reset := 0x190 }
/- GD_STAT, R223. -/
def GD_STAT_DET : Fld := { addr := 0x110110, lo := 31, width := 1, acc := .ro, reset := 0 }
def GD_STAT_HARD : Fld := { addr := 0x110110, lo := 30, width := 1, acc := .ro, reset := 0 }
def GD_STAT_FB : Fld := { addr := 0x110110, lo := 29, width := 1, acc := .ro, reset := 0 }
def GD_STAT_FORCED : Fld := { addr := 0x110110, lo := 28, width := 1, acc := .ro, reset := 0 }
def GD_STAT_WAIT : Fld := { addr := 0x110110, lo := 27, width := 1, acc := .ro, reset := 0 }
def GD_STAT_PHASE : Fld := { addr := 0x110110, lo := 24, width := 3, acc := .ro, reset := 0 }
def GD_STAT_CODE : Fld := { addr := 0x110110, lo := 22, width := 2, acc := .ro, reset := 0 }
/- GD_EVT, R223. -/
def GD_EVT_WOFFTO : Fld := { addr := 0x110114, lo := 6, width := 1, acc := .w1c, reset := 0 }
def GD_EVT_WONTO : Fld := { addr := 0x110114, lo := 5, width := 1, acc := .w1c, reset := 0 }
def GD_EVT_FBMIS : Fld := { addr := 0x110114, lo := 4, width := 1, acc := .w1c, reset := 0 }
def GD_EVT_FBOFF : Fld := { addr := 0x110114, lo := 3, width := 1, acc := .w1c, reset := 0 }
def GD_EVT_HARDEV : Fld := { addr := 0x110114, lo := 2, width := 1, acc := .w1c, reset := 0 }
def GD_EVT_DIDT : Fld := { addr := 0x110114, lo := 1, width := 1, acc := .w1c, reset := 0 }
def GD_EVT_BLANKED : Fld := { addr := 0x110114, lo := 0, width := 1, acc := .w1c, reset := 0 }
/- GD_BLKNS, R223. -/
def GD_BLKNS_NS : Fld := { addr := 0x110118, lo := 0, width := 32, acc := .ro, reset := 0 }
/- GD_CNT0, R223. -/
def GD_CNT0_BLK : Fld := { addr := 0x11011c, lo := 16, width := 16, acc := .ro, reset := 0 }
def GD_CNT0_DET : Fld := { addr := 0x11011c, lo := 0, width := 16, acc := .ro, reset := 0 }
/- GD_CNT1, R223. -/
def GD_CNT1_FBERR : Fld := { addr := 0x110120, lo := 16, width := 16, acc := .ro, reset := 0 }
def GD_CNT1_SLOW : Fld := { addr := 0x110120, lo := 0, width := 16, acc := .ro, reset := 0 }
/- GD_ILSTAT, R223. -/
def GD_ILSTAT_EVT : Fld := { addr := 0x111000, lo := 0, width := 12, acc := .w1c, reset := 0 }
/- GD_FBSRC, R223. -/
def GD_FBSRC_EN : Fld := { addr := 0x111004, lo := 0, width := 24, acc := .rw, reset := 0 }
/- GD_ERR, R223. -/
def GD_ERR_VALID : Fld := { addr := 0x111010, lo := 31, width := 1, acc := .w1c, reset := 0 }
def GD_ERR_MULTI : Fld := { addr := 0x111010, lo := 30, width := 1, acc := .w1c, reset := 0 }
def GD_ERR_MASTER : Fld := { addr := 0x111010, lo := 24, width := 4, acc := .ro, reset := 0 }
def GD_ERR_CHAN : Fld := { addr := 0x111010, lo := 16, width := 5, acc := .ro, reset := 0 }
def GD_ERR_STATUS : Fld := { addr := 0x111010, lo := 0, width := 16, acc := .ro, reset := 0 }
/- GD_ILCNT, R223. -/
def GD_ILCNT_CNT : Fld := { addr := 0x111040, lo := 0, width := 16, acc := .ro, reset := 0 }
/- GD_DT, R223. -/
def GD_DT_DT : Fld := { addr := 0x111100, lo := 0, width := 11, acc := .rw, reset := 0x640 }
/- SPR_CFG, R244. -/
def SPR_CFG_ORDER : Fld := { addr := 0x120000, lo := 16, width := 8, acc := .rw, reset := 0x27 }
def SPR_CFG_PHMIN : Fld := { addr := 0x120000, lo := 12, width := 3, acc := .rw, reset := 1 }
def SPR_CFG_TPP : Fld := { addr := 0x120000, lo := 8, width := 3, acc := .rw, reset := 4 }
def SPR_CFG_PHEN : Fld := { addr := 0x120000, lo := 0, width := 4, acc := .rw, reset := 0xf }
/- SPR_SEL0, R244. -/
def SPR_SEL0_IPH1 : Fld := { addr := 0x120004, lo := 24, width := 6, acc := .rw, reset := 0 }
def SPR_SEL0_IPH0 : Fld := { addr := 0x120004, lo := 16, width := 6, acc := .rw, reset := 0 }
def SPR_SEL0_VBAT : Fld := { addr := 0x120004, lo := 8, width := 6, acc := .rw, reset := 0 }
def SPR_SEL0_VLINK : Fld := { addr := 0x120004, lo := 0, width := 6, acc := .rw, reset := 0 }
/- SPR_SEL1, R244. -/
def SPR_SEL1_IPH3 : Fld := { addr := 0x120008, lo := 8, width := 6, acc := .rw, reset := 0 }
def SPR_SEL1_IPH2 : Fld := { addr := 0x120008, lo := 0, width := 6, acc := .rw, reset := 0 }
/- SPR_TIME, R244. -/
def SPR_TIME_WAIT : Fld := { addr := 0x12000c, lo := 16, width := 11, acc := .rw, reset := 0x258 }
def SPR_TIME_SSTMO : Fld := { addr := 0x12000c, lo := 0, width := 16, acc := .rw, reset := 0x7d0 }
/- SPR_SHEDCFG, R244. -/
def SPR_SHEDCFG_HOLD : Fld := { addr := 0x120010, lo := 16, width := 16, acc := .rw, reset := 0x7d0 }
def SPR_SHEDCFG_SHEDT : Fld := { addr := 0x120010, lo := 8, width := 8, acc := .rw, reset := 0x40 }
def SPR_SHEDCFG_WIN : Fld := { addr := 0x120010, lo := 0, width := 6, acc := .rw, reset := 8 }
/- SPR_SENSE, R244. -/
def SPR_SENSE_DIV : Fld := { addr := 0x120014, lo := 0, width := 16, acc := .rw, reset := 0x40 }
/- SPR_SENSEDV, R244. -/
def SPR_SENSEDV_DV : Fld := { addr := 0x120018, lo := 0, width := 20, acc := .rw, reset := 0x10000 }
/- SPR_CTL, R244. -/
def SPR_CTL_COMMIT : Fld := { addr := 0x120020, lo := 2, width := 1, acc := .wo, reset := 0 }
def SPR_CTL_STOP : Fld := { addr := 0x120020, lo := 1, width := 1, acc := .wo, reset := 0 }
def SPR_CTL_START : Fld := { addr := 0x120020, lo := 0, width := 1, acc := .wo, reset := 0 }
/- SPR_STAT, R244. -/
def SPR_STAT_STATE : Fld := { addr := 0x120024, lo := 28, width := 4, acc := .ro, reset := 0 }
def SPR_STAT_TRIPC : Fld := { addr := 0x120024, lo := 24, width := 4, acc := .ro, reset := 0 }
def SPR_STAT_ACTIVE : Fld := { addr := 0x120024, lo := 20, width := 4, acc := .ro, reset := 0 }
def SPR_STAT_SHEDDING : Fld := { addr := 0x120024, lo := 16, width := 4, acc := .ro, reset := 0 }
def SPR_STAT_SUBST : Fld := { addr := 0x120024, lo := 12, width := 4, acc := .ro, reset := 0 }
def SPR_STAT_ILIM : Fld := { addr := 0x120024, lo := 11, width := 1, acc := .ro, reset := 0 }
def SPR_STAT_CLATE : Fld := { addr := 0x120024, lo := 10, width := 1, acc := .ro, reset := 0 }
def SPR_STAT_HOLDOFF : Fld := { addr := 0x120024, lo := 9, width := 1, acc := .ro, reset := 0 }
def SPR_STAT_CPEND : Fld := { addr := 0x120024, lo := 8, width := 1, acc := .ro, reset := 0 }
/- SPR_PHFAIL, R244. -/
def SPR_PHFAIL_SENSE : Fld := { addr := 0x120028, lo := 4, width := 4, acc := .w1c, reset := 0 }
def SPR_PHFAIL_OPEN : Fld := { addr := 0x120028, lo := 0, width := 4, acc := .w1c, reset := 0 }
/- SPR_EVT, R244. -/
def SPR_EVT_PLIM : Fld := { addr := 0x12002c, lo := 7, width := 1, acc := .w1c, reset := 0 }
def SPR_EVT_OPEN : Fld := { addr := 0x12002c, lo := 6, width := 1, acc := .w1c, reset := 0 }
def SPR_EVT_SENSEF : Fld := { addr := 0x12002c, lo := 5, width := 1, acc := .w1c, reset := 0 }
def SPR_EVT_SHED : Fld := { addr := 0x12002c, lo := 4, width := 1, acc := .w1c, reset := 0 }
def SPR_EVT_ABORT : Fld := { addr := 0x12002c, lo := 3, width := 1, acc := .w1c, reset := 0 }
def SPR_EVT_ADD : Fld := { addr := 0x12002c, lo := 2, width := 1, acc := .w1c, reset := 0 }
def SPR_EVT_TRIP : Fld := { addr := 0x12002c, lo := 1, width := 1, acc := .w1c, reset := 0 }
def SPR_EVT_SSDONE : Fld := { addr := 0x12002c, lo := 0, width := 1, acc := .w1c, reset := 0 }
/- SPR_PLIM, R244. -/
def SPR_PLIM_P : Fld := { addr := 0x120030, lo := 0, width := 32, acc := .ro, reset := 0 }
/- SPR_ITOT, R244. -/
def SPR_ITOT_I : Fld := { addr := 0x120034, lo := 0, width := 32, acc := .ro, reset := 0 }
/- SPR_PFF, R244. -/
def SPR_PFF_P : Fld := { addr := 0x120038, lo := 0, width := 32, acc := .rw, reset := 0 }
/- SPR_VREF, R245. -/
def SPR_VREF_VREF : Fld := { addr := 0x120040, lo := 0, width := 32, acc := .rws, reset := 0 }
/- SPR_IPHMAX, R245. -/
def SPR_IPHMAX_IPH_MAX : Fld := { addr := 0x120044, lo := 0, width := 32, acc := .rws, reset := 0 }
/- SPR_IPHTRIP, R245. -/
def SPR_IPHTRIP_IPH_TRIP : Fld := { addr := 0x120048, lo := 0, width := 32, acc := .rws, reset := 0 }
/- SPR_VLINKOV, R245. -/
def SPR_VLINKOV_VLINK_OV : Fld := { addr := 0x12004c, lo := 0, width := 32, acc := .rws, reset := 0 }
/- SPR_VBATMIN, R245. -/
def SPR_VBATMIN_VBAT_MIN : Fld := { addr := 0x120050, lo := 0, width := 32, acc := .rws, reset := 0 }
/- SPR_VBATMAX, R245. -/
def SPR_VBATMAX_VBAT_MAX : Fld := { addr := 0x120054, lo := 0, width := 32, acc := .rws, reset := 0 }
/- SPR_KV, R245. -/
def SPR_KV_KV : Fld := { addr := 0x120058, lo := 0, width := 32, acc := .rws, reset := 0 }
/- SPR_FZ, R245. -/
def SPR_FZ_FZ : Fld := { addr := 0x12005c, lo := 0, width := 32, acc := .rws, reset := 0 }
/- SPR_FP, R245. -/
def SPR_FP_FP : Fld := { addr := 0x120064, lo := 0, width := 32, acc := .rws, reset := 0 }
/- SPR_KP, R245. -/
def SPR_KP_KP : Fld := { addr := 0x12006c, lo := 0, width := 32, acc := .rws, reset := 0 }
/- SPR_KI, R245. -/
def SPR_KI_KI : Fld := { addr := 0x120070, lo := 0, width := 32, acc := .rws, reset := 0 }
/- SPR_DMIN, R245. -/
def SPR_DMIN_DMIN : Fld := { addr := 0x120074, lo := 0, width := 32, acc := .rws, reset := 0 }
/- SPR_DMAX, R245. -/
def SPR_DMAX_DMAX : Fld := { addr := 0x120078, lo := 0, width := 32, acc := .rws, reset := 0 }
/- SPR_LPH, R245. -/
def SPR_LPH_LPH : Fld := { addr := 0x12007c, lo := 0, width := 32, acc := .rws, reset := 0 }
/- SPR_RPH, R245. -/
def SPR_RPH_RPH : Fld := { addr := 0x120080, lo := 0, width := 32, acc := .rws, reset := 0 }
/- SPR_OPENDI, R245. -/
def SPR_OPENDI_OPEN_DI : Fld := { addr := 0x120084, lo := 0, width := 32, acc := .rws, reset := 0 }
/- SPR_OPENMIN, R245. -/
def SPR_OPENMIN_OPEN_MIN : Fld := { addr := 0x120088, lo := 0, width := 32, acc := .rws, reset := 0 }
/- SPR_SSRATE, R245. -/
def SPR_SSRATE_SS_RATE : Fld := { addr := 0x12008c, lo := 0, width := 32, acc := .rws, reset := 0 }
/- SPR_SSILIM, R245. -/
def SPR_SSILIM_SS_ILIM : Fld := { addr := 0x120090, lo := 0, width := 32, acc := .rws, reset := 0 }
/- SPR_SSBAND, R245. -/
def SPR_SSBAND_SS_BAND : Fld := { addr := 0x120094, lo := 0, width := 32, acc := .rws, reset := 0 }
/- SPR_SHEDLO, R245. -/
def SPR_SHEDLO_SHED_LO : Fld := { addr := 0x120098, lo := 0, width := 32, acc := .rws, reset := 0 }
/- SPR_SHEDHI, R245. -/
def SPR_SHEDHI_SHED_HI : Fld := { addr := 0x12009c, lo := 0, width := 32, acc := .rws, reset := 0 }
/- SPR_STEPI, R245. -/
def SPR_STEPI_STEP_I : Fld := { addr := 0x1200a0, lo := 0, width := 32, acc := .rws, reset := 0 }
/- SPR_SKIPIN, R245. -/
def SPR_SKIPIN_SKIP_IN : Fld := { addr := 0x1200a4, lo := 0, width := 32, acc := .rws, reset := 0 }
/- SPR_SKIPOUT, R245. -/
def SPR_SKIPOUT_SKIP_OUT : Fld := { addr := 0x1200a8, lo := 0, width := 32, acc := .rws, reset := 0 }
/- SPR_SKIPBAND, R245. -/
def SPR_SKIPBAND_SKIP_BAND : Fld := { addr := 0x1200ac, lo := 0, width := 32, acc := .rws, reset := 0 }
/- SPR_GAIN, R245. -/
def SPR_GAIN_GAIN : Fld := { addr := 0x1200c0, lo := 0, width := 32, acc := .rws, reset := 0 }
/- SPR_OFF, R245. -/
def SPR_OFF_OFFSET : Fld := { addr := 0x1200c4, lo := 0, width := 32, acc := .rws, reset := 0 }
/- SPR_PHI, R245. -/
def SPR_PHI_I : Fld := { addr := 0x120100, lo := 0, width := 32, acc := .ro, reset := 0 }
/- SPR_PHREF, R245. -/
def SPR_PHREF_IREF : Fld := { addr := 0x120104, lo := 0, width := 32, acc := .ro, reset := 0 }
/- SPR_PHD, R245. -/
def SPR_PHD_D : Fld := { addr := 0x120108, lo := 0, width := 32, acc := .ro, reset := 0 }
/- SPR_PHHAT, R245. -/
def SPR_PHHAT_IHAT : Fld := { addr := 0x12010c, lo := 0, width := 32, acc := .ro, reset := 0 }
/- SPR_CNT0, R245. -/
def SPR_CNT0_MISS : Fld := { addr := 0x120140, lo := 16, width := 16, acc := .ro, reset := 0 }
def SPR_CNT0_CLATE : Fld := { addr := 0x120140, lo := 0, width := 16, acc := .ro, reset := 0 }
/- SPR_CNT1, R245. -/
def SPR_CNT1_SKIP : Fld := { addr := 0x120144, lo := 16, width := 16, acc := .ro, reset := 0 }
def SPR_CNT1_ABORT : Fld := { addr := 0x120144, lo := 0, width := 16, acc := .ro, reset := 0 }
/- SPR_CNT2, R245. -/
def SPR_CNT2_TESTFAIL : Fld := { addr := 0x120148, lo := 0, width := 16, acc := .ro, reset := 0 }
/- SPR_ERR, R245. -/
def SPR_ERR_VALID : Fld := { addr := 0x120150, lo := 31, width := 1, acc := .w1c, reset := 0 }
def SPR_ERR_MULTI : Fld := { addr := 0x120150, lo := 30, width := 1, acc := .w1c, reset := 0 }
def SPR_ERR_MASTER : Fld := { addr := 0x120150, lo := 24, width := 4, acc := .ro, reset := 0 }
def SPR_ERR_STATUS : Fld := { addr := 0x120150, lo := 0, width := 16, acc := .ro, reset := 0 }
/- ADC_CFG, R262. -/
def ADC_CFG_EN : Fld := { addr := 0x130100, lo := 31, width := 1, acc := .rw, reset := 0 }
def ADC_CFG_AWAKE : Fld := { addr := 0x130100, lo := 30, width := 1, acc := .rw, reset := 0 }
def ADC_CFG_TRIG : Fld := { addr := 0x130100, lo := 24, width := 3, acc := .rw, reset := 0 }
def ADC_CFG_TSEL : Fld := { addr := 0x130100, lo := 16, width := 5, acc := .rw, reset := 0 }
def ADC_CFG_EVT : Fld := { addr := 0x130100, lo := 12, width := 2, acc := .rw, reset := 0 }
def ADC_CFG_SLOTS : Fld := { addr := 0x130100, lo := 0, width := 5, acc := .rw, reset := 0 }
/- ADC_TIMER, R262. -/
def ADC_TIMER_PER : Fld := { addr := 0x130104, lo := 0, width := 24, acc := .rw, reset := 0 }
/- ADC_INJ, R262. -/
def ADC_INJ_GO : Fld := { addr := 0x130120, lo := 31, width := 1, acc := .wo, reset := 0 }
def ADC_INJ_PULL : Fld := { addr := 0x130120, lo := 8, width := 2, acc := .wo, reset := 0 }
def ADC_INJ_K : Fld := { addr := 0x130120, lo := 4, width := 4, acc := .wo, reset := 0 }
def ADC_INJ_POS : Fld := { addr := 0x130120, lo := 0, width := 3, acc := .wo, reset := 0 }
/- ADC_CTL, R262. -/
def ADC_CTL_CAL : Fld := { addr := 0x130124, lo := 0, width := 1, acc := .wo, reset := 0 }
/- ADC_STAT, R262. -/
def ADC_STAT_STATE : Fld := { addr := 0x130128, lo := 29, width := 3, acc := .ro, reset := 0 }
def ADC_STAT_INJP : Fld := { addr := 0x130128, lo := 28, width := 1, acc := .ro, reset := 0 }
def ADC_STAT_CALP : Fld := { addr := 0x130128, lo := 27, width := 1, acc := .ro, reset := 0 }
def ADC_STAT_HELD : Fld := { addr := 0x130128, lo := 26, width := 1, acc := .ro, reset := 0 }
def ADC_STAT_SLOT : Fld := { addr := 0x130128, lo := 16, width := 4, acc := .ro, reset := 0 }
/- ADC_CNT0, R262. -/
def ADC_CNT0_MISS : Fld := { addr := 0x13012c, lo := 16, width := 16, acc := .ro, reset := 0 }
def ADC_CNT0_HELD : Fld := { addr := 0x13012c, lo := 0, width := 16, acc := .ro, reset := 0 }
/- ADC_CNT1, R262. -/
def ADC_CNT1_ABAND : Fld := { addr := 0x130130, lo := 16, width := 16, acc := .ro, reset := 0 }
def ADC_CNT1_WAKE : Fld := { addr := 0x130130, lo := 0, width := 16, acc := .ro, reset := 0 }
/- ADC_CALOFS, R262. -/
def ADC_CALOFS_OFS : Fld := { addr := 0x130134, lo := 0, width := 32, acc := .ro, reset := 0 }
/- ADC_CALGAIN, R262. -/
def ADC_CALGAIN_GAIN : Fld := { addr := 0x130138, lo := 0, width := 32, acc := .ro, reset := 0x3f800000 }
/- ADC_SLOT, R262. -/
def ADC_SLOT_PULL : Fld := { addr := 0x130140, lo := 8, width := 2, acc := .rw, reset := 0 }
def ADC_SLOT_K : Fld := { addr := 0x130140, lo := 4, width := 4, acc := .rw, reset := 0 }
def ADC_SLOT_POS : Fld := { addr := 0x130140, lo := 0, width := 3, acc := .rw, reset := 0 }
/- ADC_RESLO, R262. -/
def ADC_RESLO_WORD : Fld := { addr := 0x130180, lo := 0, width := 32, acc := .rol, reset := 0 }
/- ADC_RESHI, R262. -/
def ADC_RESHI_WORD : Fld := { addr := 0x130184, lo := 0, width := 32, acc := .ro, reset := 0 }
/- ADC_VAL, R262. -/
def ADC_VAL_VALUE : Fld := { addr := 0x1301b0, lo := 0, width := 20, acc := .ro, reset := 0 }
/- ADC_ROUTE, R262. -/
def ADC_ROUTE_EN : Fld := { addr := 0x1301d0, lo := 31, width := 1, acc := .rw, reset := 0 }
def ADC_ROUTE_POINT : Fld := { addr := 0x1301d0, lo := 0, width := 18, acc := .rw, reset := 0 }
/- ADC_PULL, R262. -/
def ADC_PULL_PULL (k : Nat) : Fld := { addr := 0x131000, lo := 2 * k, width := 2, acc := .rw, reset := 0 }
/- ADC_ERR, R262. -/
def ADC_ERR_VALID : Fld := { addr := 0x131010, lo := 31, width := 1, acc := .w1c, reset := 0 }
def ADC_ERR_MULTI : Fld := { addr := 0x131010, lo := 30, width := 1, acc := .w1c, reset := 0 }
def ADC_ERR_MASTER : Fld := { addr := 0x131010, lo := 24, width := 4, acc := .ro, reset := 0 }
def ADC_ERR_CONV : Fld := { addr := 0x131010, lo := 16, width := 6, acc := .ro, reset := 0 }
def ADC_ERR_STATUS : Fld := { addr := 0x131010, lo := 0, width := 16, acc := .ro, reset := 0 }
/- ADC_WCFG, R262. -/
def ADC_WCFG_EN : Fld := { addr := 0x131100, lo := 31, width := 1, acc := .rw, reset := 0 }
def ADC_WCFG_MODE : Fld := { addr := 0x131100, lo := 30, width := 1, acc := .rw, reset := 0 }
def ADC_WCFG_INPUT : Fld := { addr := 0x131100, lo := 16, width := 7, acc := .rw, reset := 0 }
def ADC_WCFG_FILT : Fld := { addr := 0x131100, lo := 0, width := 8, acc := .rw, reset := 0 }
/- ADC_WLO, R262. -/
def ADC_WLO_LO : Fld := { addr := 0x131104, lo := 0, width := 12, acc := .rws, reset := 0 }
/- ADC_WHI, R262. -/
def ADC_WHI_HI : Fld := { addr := 0x131108, lo := 0, width := 12, acc := .rws, reset := 0xfff }
/- ADC_WHYST, R262. -/
def ADC_WHYST_HYST : Fld := { addr := 0x13110c, lo := 0, width := 8, acc := .rws, reset := 0 }
/- ADC_WCTL, R262. -/
def ADC_WCTL_COMMIT : Fld := { addr := 0x131110, lo := 0, width := 1, acc := .wo, reset := 0 }
/- ADC_WSTAT, R262. -/
def ADC_WSTAT_LIVE : Fld := { addr := 0x131114, lo := 31, width := 1, acc := .ro, reset := 0 }
def ADC_WSTAT_EVT : Fld := { addr := 0x131114, lo := 30, width := 1, acc := .w1c, reset := 0 }
def ADC_WSTAT_CPEND : Fld := { addr := 0x131114, lo := 29, width := 1, acc := .ro, reset := 0 }
def ADC_WSTAT_CNT : Fld := { addr := 0x131114, lo := 0, width := 16, acc := .ro, reset := 0 }
/- ADC_WEFF, R262. -/
def ADC_WEFF_EHYST : Fld := { addr := 0x131118, lo := 24, width := 8, acc := .ro, reset := 0 }
def ADC_WEFF_EHI : Fld := { addr := 0x131118, lo := 12, width := 12, acc := .ro, reset := 0xfff }
def ADC_WEFF_ELO : Fld := { addr := 0x131118, lo := 0, width := 12, acc := .ro, reset := 0 }
/- LNK_CFG, R294. -/
def LNK_CFG_EN : Fld := { addr := 0x140100, lo := 31, width := 1, acc := .rw, reset := 0 }
def LNK_CFG_TXINV : Fld := { addr := 0x140100, lo := 30, width := 1, acc := .rw, reset := 0 }
def LNK_CFG_RXINV : Fld := { addr := 0x140100, lo := 29, width := 1, acc := .rw, reset := 0 }
def LNK_CFG_RATE : Fld := { addr := 0x140100, lo := 16, width := 3, acc := .rw, reset := 0 }
/- LNK_EQ, R294. -/
def LNK_EQ_CTLE : Fld := { addr := 0x140104, lo := 24, width := 4, acc := .rws, reset := 8 }
def LNK_EQ_POST : Fld := { addr := 0x140104, lo := 16, width := 5, acc := .rws, reset := 0 }
def LNK_EQ_MAIN : Fld := { addr := 0x140104, lo := 8, width := 6, acc := .rws, reset := 0x30 }
def LNK_EQ_PRE : Fld := { addr := 0x140104, lo := 0, width := 4, acc := .rws, reset := 0 }
/- LNK_EQEFF, R294. -/
def LNK_EQEFF_CTLE : Fld := { addr := 0x140108, lo := 24, width := 4, acc := .ro, reset := 8 }
def LNK_EQEFF_POST : Fld := { addr := 0x140108, lo := 16, width := 5, acc := .ro, reset := 0 }
def LNK_EQEFF_MAIN : Fld := { addr := 0x140108, lo := 8, width := 6, acc := .ro, reset := 0x30 }
def LNK_EQEFF_PRE : Fld := { addr := 0x140108, lo := 0, width := 4, acc := .ro, reset := 0 }
/- LNK_CTL, R294. -/
def LNK_CTL_RETRAIN : Fld := { addr := 0x14010c, lo := 0, width := 1, acc := .wo, reset := 0 }
/- LNK_STAT, R294. -/
def LNK_STAT_STATE : Fld := { addr := 0x140110, lo := 29, width := 3, acc := .ro, reset := 0 }
def LNK_STAT_SIGDET : Fld := { addr := 0x140110, lo := 28, width := 1, acc := .ro, reset := 0 }
def LNK_STAT_BLOCK : Fld := { addr := 0x140110, lo := 27, width := 1, acc := .ro, reset := 0 }
def LNK_STAT_FARROLE : Fld := { addr := 0x140110, lo := 26, width := 1, acc := .ro, reset := 0 }
def LNK_STAT_FARSID : Fld := { addr := 0x140110, lo := 24, width := 2, acc := .ro, reset := 0 }
def LNK_STAT_FARCHAIN : Fld := { addr := 0x140110, lo := 16, width := 5, acc := .ro, reset := 0 }
def LNK_STAT_FARHOP : Fld := { addr := 0x140110, lo := 12, width := 4, acc := .ro, reset := 0 }
def LNK_STAT_LOSTC : Fld := { addr := 0x140110, lo := 8, width := 4, acc := .ro, reset := 0 }
def LNK_STAT_EQBAD : Fld := { addr := 0x140110, lo := 0, width := 1, acc := .ro, reset := 0 }
/- LNK_RES, R294. -/
def LNK_RES_MAX : Fld := { addr := 0x140114, lo := 16, width := 16, acc := .ro, reset := 0 }
def LNK_RES_LAST : Fld := { addr := 0x140114, lo := 0, width := 16, acc := .ro, reset := 0 }
/- LNK_CNT0, R294. -/
def LNK_CNT0_CRC : Fld := { addr := 0x140118, lo := 16, width := 16, acc := .ro, reset := 0 }
def LNK_CNT0_PARTIAL : Fld := { addr := 0x140118, lo := 0, width := 16, acc := .ro, reset := 0 }
/- LNK_CNT1, R294. -/
def LNK_CNT1_RELAYBAD : Fld := { addr := 0x14011c, lo := 16, width := 16, acc := .ro, reset := 0 }
def LNK_CNT1_STALE : Fld := { addr := 0x14011c, lo := 0, width := 16, acc := .ro, reset := 0 }
/- LNK_CNT2, R294. -/
def LNK_CNT2_LOSS : Fld := { addr := 0x140120, lo := 16, width := 16, acc := .ro, reset := 0 }
def LNK_CNT2_TRAINFAIL : Fld := { addr := 0x140120, lo := 0, width := 16, acc := .ro, reset := 0 }
/- LNK_CNT3, R294. -/
def LNK_CNT3_DISCARD : Fld := { addr := 0x140124, lo := 16, width := 16, acc := .ro, reset := 0 }
def LNK_CNT3_FUTURE : Fld := { addr := 0x140124, lo := 0, width := 16, acc := .ro, reset := 0 }
/- LNK_TEST, R294. -/
def LNK_TEST_GEN : Fld := { addr := 0x140130, lo := 31, width := 1, acc := .rw, reset := 0 }
def LNK_TEST_CHK : Fld := { addr := 0x140130, lo := 30, width := 1, acc := .rw, reset := 0 }
def LNK_TEST_LOOP : Fld := { addr := 0x140130, lo := 24, width := 2, acc := .rw, reset := 0 }
/- LNK_PRBS, R294. -/
def LNK_PRBS_SYNC : Fld := { addr := 0x140134, lo := 31, width := 1, acc := .ro, reset := 0 }
def LNK_PRBS_ERR : Fld := { addr := 0x140134, lo := 0, width := 31, acc := .ro, reset := 0 }
/- LNK_CHSTAT, R294. -/
def LNK_CHSTAT_DEGRADED : Fld := { addr := 0x141000, lo := 0, width := 24, acc := .ro, reset := 0 }
/- LNK_PORTS, R294. -/
def LNK_PORTS_FIXED : Fld := { addr := 0x141004, lo := 31, width := 1, acc := .ro, reset := 0 }
def LNK_PORTS_CHAIN : Fld := { addr := 0x141004, lo := 24, width := 5, acc := .ro, reset := 0 }
def LNK_PORTS_POS : Fld := { addr := 0x141004, lo := 16, width := 3, acc := .ro, reset := 0 }
def LNK_PORTS_MISMATCH : Fld := { addr := 0x141004, lo := 0, width := 3, acc := .ro, reset := 0 }
/- LNK_FWDREQ, R294. -/
def LNK_FWDREQ_REQ : Fld := { addr := 0x141008, lo := 0, width := 24, acc := .ro, reset := 0 }
/- LNK_FWDSRV, R294. -/
def LNK_FWDSRV_SRV : Fld := { addr := 0x14100c, lo := 0, width := 24, acc := .ro, reset := 0 }
/- LNK_ERR, R294. -/
def LNK_ERR_VALID : Fld := { addr := 0x141010, lo := 31, width := 1, acc := .w1c, reset := 0 }
def LNK_ERR_MULTI : Fld := { addr := 0x141010, lo := 30, width := 1, acc := .w1c, reset := 0 }
def LNK_ERR_MASTER : Fld := { addr := 0x141010, lo := 24, width := 4, acc := .ro, reset := 0 }
def LNK_ERR_LANE : Fld := { addr := 0x141010, lo := 16, width := 5, acc := .ro, reset := 0 }
def LNK_ERR_STATUS : Fld := { addr := 0x141010, lo := 0, width := 16, acc := .ro, reset := 0 }
/- TIM_CFG, R314. -/
def TIM_CFG_TC : Fld := { addr := 0x040000, lo := 31, width := 1, acc := .rw, reset := 0 }
def TIM_CFG_DOMAIN : Fld := { addr := 0x040000, lo := 16, width := 8, acc := .rw, reset := 0 }
def TIM_CFG_PORT : Fld := { addr := 0x040000, lo := 8, width := 2, acc := .rw, reset := 2 }
def TIM_CFG_SRC : Fld := { addr := 0x040000, lo := 0, width := 2, acc := .rw, reset := 0 }
/- TIM_CYC, R314. -/
def TIM_CYC_T : Fld := { addr := 0x040004, lo := 0, width := 17, acc := .rw, reset := 0x4e20 }
/- TIM_SERVO, R314. -/
def TIM_SERVO_BW : Fld := { addr := 0x040008, lo := 16, width := 12, acc := .rw, reset := 0xa }
def TIM_SERVO_SLEW : Fld := { addr := 0x040008, lo := 0, width := 16, acc := .rw, reset := 0x2710 }
/- TIM_LOCKCFG, R314. -/
def TIM_LOCKCFG_STEPTH : Fld := { addr := 0x04000c, lo := 16, width := 16, acc := .rw, reset := 0x3e8 }
def TIM_LOCKCFG_LOCKTH : Fld := { addr := 0x04000c, lo := 0, width := 16, acc := .rw, reset := 0x190 }
/- TIM_HOLD, R314. -/
def TIM_HOLD_CELLHOLD : Fld := { addr := 0x040010, lo := 0, width := 14, acc := .rw, reset := 0x64 }
/- TIM_NOW0, R314. -/
def TIM_NOW0_NS : Fld := { addr := 0x040020, lo := 0, width := 32, acc := .rol, reset := 0 }
/- TIM_NOW1, R314. -/
def TIM_NOW1_SEC_LO : Fld := { addr := 0x040024, lo := 0, width := 32, acc := .ro, reset := 0 }
/- TIM_NOW2, R314. -/
def TIM_NOW2_FRAC : Fld := { addr := 0x040028, lo := 16, width := 16, acc := .ro, reset := 0 }
def TIM_NOW2_SEC_HI : Fld := { addr := 0x040028, lo := 0, width := 16, acc := .ro, reset := 0 }
/- TIM_CYCLE, R314. -/
def TIM_CYCLE_CYCLE : Fld := { addr := 0x04002c, lo := 0, width := 32, acc := .ro, reset := 0 }
/- TIM_STAT, R314. -/
def TIM_STAT_LOCK : Fld := { addr := 0x040030, lo := 31, width := 1, acc := .ro, reset := 0 }
def TIM_STAT_HOLD : Fld := { addr := 0x040030, lo := 30, width := 1, acc := .ro, reset := 0 }
def TIM_STAT_SLEW : Fld := { addr := 0x040030, lo := 29, width := 1, acc := .ro, reset := 0 }
def TIM_STAT_FREE : Fld := { addr := 0x040030, lo := 28, width := 1, acc := .ro, reset := 0 }
def TIM_STAT_REFSID : Fld := { addr := 0x040030, lo := 24, width := 2, acc := .ro, reset := 0 }
def TIM_STAT_STEPPED : Fld := { addr := 0x040030, lo := 8, width := 1, acc := .w1c, reset := 0 }
/- TIM_OFS, R314. -/
def TIM_OFS_OFS : Fld := { addr := 0x040034, lo := 0, width := 32, acc := .ro, reset := 0 }
/- TIM_FREQ, R314. -/
def TIM_FREQ_F : Fld := { addr := 0x040038, lo := 0, width := 32, acc := .ro, reset := 0 }
/- TIM_CNT0, R314. -/
def TIM_CNT0_STEPS : Fld := { addr := 0x04003c, lo := 16, width := 16, acc := .ro, reset := 0 }
def TIM_CNT0_SKIP : Fld := { addr := 0x04003c, lo := 0, width := 16, acc := .ro, reset := 0 }
/- TIM_CNT1, R314. -/
def TIM_CNT1_IGNORED : Fld := { addr := 0x040040, lo := 16, width := 16, acc := .ro, reset := 0 }
def TIM_CNT1_HOLDS : Fld := { addr := 0x040040, lo := 0, width := 16, acc := .ro, reset := 0 }
/- TIM_ERR, R314. -/
def TIM_ERR_VALID : Fld := { addr := 0x040044, lo := 31, width := 1, acc := .w1c, reset := 0 }
def TIM_ERR_MULTI : Fld := { addr := 0x040044, lo := 30, width := 1, acc := .w1c, reset := 0 }
def TIM_ERR_MASTER : Fld := { addr := 0x040044, lo := 24, width := 4, acc := .ro, reset := 0 }
def TIM_ERR_STATUS : Fld := { addr := 0x040044, lo := 0, width := 16, acc := .ro, reset := 0 }
/- TIM_CNT2, R314. -/
def TIM_CNT2_ECHOLOST : Fld := { addr := 0x040048, lo := 16, width := 16, acc := .ro, reset := 0 }
def TIM_CNT2_OUTLIER : Fld := { addr := 0x040048, lo := 0, width := 16, acc := .ro, reset := 0 }
/- TIM_PDLY, R314. -/
def TIM_PDLY_VALID : Fld := { addr := 0x040080, lo := 31, width := 1, acc := .ro, reset := 0 }
def TIM_PDLY_DLY : Fld := { addr := 0x040080, lo := 0, width := 24, acc := .ro, reset := 0 }
/- TIM_ASYM, R314. -/
def TIM_ASYM_ASYM : Fld := { addr := 0x0400a0, lo := 0, width := 16, acc := .rw, reset := 0 }
/- TIM_PEEROFS, R314. -/
def TIM_PEEROFS_OFS : Fld := { addr := 0x0400c0, lo := 0, width := 32, acc := .ro, reset := 0x80000000 }
/- TIM_TRGCFG, R314. -/
def TIM_TRGCFG_EN : Fld := { addr := 0x040100, lo := 31, width := 1, acc := .rw, reset := 0 }
def TIM_TRGCFG_FIRED : Fld := { addr := 0x040100, lo := 30, width := 1, acc := .ro, reset := 0 }
def TIM_TRGCFG_SEC_HI : Fld := { addr := 0x040100, lo := 0, width := 16, acc := .rw, reset := 0 }
/- TIM_TRGPER, R314. -/
def TIM_TRGPER_PER : Fld := { addr := 0x040104, lo := 0, width := 30, acc := .rw, reset := 0 }
/- TIM_TRGNS, R314. -/
def TIM_TRGNS_NS : Fld := { addr := 0x040108, lo := 0, width := 30, acc := .rw, reset := 0 }
/- TIM_TRGSEC, R314. -/
def TIM_TRGSEC_SEC_LO : Fld := { addr := 0x04010c, lo := 0, width := 32, acc := .rw, reset := 0 }
/- VOTE_DVOTE, R346. -/
def VOTE_DVOTE_VOTE : Fld := { addr := 0x150100, lo := 0, width := 32, acc := .ro, reset := 0 }
/- VOTE_DDIS, R346. -/
def VOTE_DDIS_ABSENT : Fld := { addr := 0x150104, lo := 16, width := 16, acc := .ro, reset := 0 }
def VOTE_DDIS_DISSENT : Fld := { addr := 0x150104, lo := 0, width := 16, acc := .ro, reset := 0 }
/- VOTE_DXCHK, R346. -/
def VOTE_DXCHK_MISSING : Fld := { addr := 0x150108, lo := 16, width := 16, acc := .ro, reset := 0 }
def VOTE_DXCHK_MISMATCH : Fld := { addr := 0x150108, lo := 0, width := 16, acc := .ro, reset := 0 }
/- VOTE_MODE, R346. -/
def VOTE_MODE_MODE : Fld := { addr := 0x151000, lo := 0, width := 2, acc := .ro, reset := 0 }
/- VOTE_LCFG, R346. -/
def VOTE_LCFG_LEASE_T : Fld := { addr := 0x151004, lo := 0, width := 14, acc := .rw, reset := 0x1f4 }
/- VOTE_LEASE, R346. -/
def VOTE_LEASE_HOLDER : Fld := { addr := 0x151008, lo := 30, width := 2, acc := .ro, reset := 3 }
def VOTE_LEASE_OWN : Fld := { addr := 0x151008, lo := 28, width := 2, acc := .ro, reset := 0 }
def VOTE_LEASE_HELD : Fld := { addr := 0x151008, lo := 27, width := 1, acc := .ro, reset := 0 }
def VOTE_LEASE_CAND : Fld := { addr := 0x151008, lo := 26, width := 1, acc := .ro, reset := 0 }
def VOTE_LEASE_RACKED : Fld := { addr := 0x151008, lo := 25, width := 1, acc := .ro, reset := 0 }
/- VOTE_EPOCH, R346. -/
def VOTE_EPOCH_EPOCH : Fld := { addr := 0x15100c, lo := 0, width := 32, acc := .ro, reset := 0 }
/- VOTE_LREM, R346. -/
def VOTE_LREM_US : Fld := { addr := 0x151010, lo := 0, width := 24, acc := .ro, reset := 0 }
/- VOTE_XCFG, R346. -/
def VOTE_XCFG_XC_N : Fld := { addr := 0x151014, lo := 24, width := 8, acc := .rw, reset := 8 }
def VOTE_XCFG_SC_PCT : Fld := { addr := 0x151014, lo := 16, width := 8, acc := .rw, reset := 0x19 }
def VOTE_XCFG_SC_WIN : Fld := { addr := 0x151014, lo := 0, width := 16, acc := .rw, reset := 0x40 }
/- VOTE_XSTAT, R346. -/
def VOTE_XSTAT_STREAK : Fld := { addr := 0x151018, lo := 24, width := 8, acc := .ro, reset := 0 }
def VOTE_XSTAT_DIS : Fld := { addr := 0x151018, lo := 0, width := 3, acc := .ro, reset := 0 }
/- VOTE_RCNT, R346. -/
def VOTE_RCNT_LATE : Fld := { addr := 0x15101c, lo := 16, width := 16, acc := .ro, reset := 0 }
def VOTE_RCNT_APPLIED : Fld := { addr := 0x15101c, lo := 0, width := 16, acc := .ro, reset := 0 }
/- VOTE_LCNT, R346. -/
def VOTE_LCNT_CLAIMS : Fld := { addr := 0x151020, lo := 24, width := 8, acc := .ro, reset := 0 }
def VOTE_LCNT_REFUSED : Fld := { addr := 0x151020, lo := 16, width := 8, acc := .ro, reset := 0 }
def VOTE_LCNT_RELEASES : Fld := { addr := 0x151020, lo := 8, width := 8, acc := .ro, reset := 0 }
def VOTE_LCNT_LAPSES : Fld := { addr := 0x151020, lo := 0, width := 8, acc := .ro, reset := 0 }
/- VOTE_XMASK, R346. -/
def VOTE_XMASK_MASK : Fld := { addr := 0x151024, lo := 0, width := 32, acc := .rw, reset := 0xffffffff }
/- VOTE_ERR, R346. -/
def VOTE_ERR_VALID : Fld := { addr := 0x151030, lo := 31, width := 1, acc := .w1c, reset := 0 }
def VOTE_ERR_MULTI : Fld := { addr := 0x151030, lo := 30, width := 1, acc := .w1c, reset := 0 }
def VOTE_ERR_MASTER : Fld := { addr := 0x151030, lo := 24, width := 4, acc := .ro, reset := 0 }
def VOTE_ERR_STATUS : Fld := { addr := 0x151030, lo := 0, width := 16, acc := .ro, reset := 0 }
/- VOTE_SLIST, R346. -/
def VOTE_SLIST_FIRST : Fld := { addr := 0x151040, lo := 16, width := 15, acc := .rw, reset := 0 }
def VOTE_SLIST_COUNT : Fld := { addr := 0x151040, lo := 0, width := 8, acc := .rw, reset := 0 }
/- VOTE_CCFG, R346. -/
def VOTE_CCFG_SOLO : Fld := { addr := 0x151800, lo := 31, width := 1, acc := .rw, reset := 0 }
def VOTE_CCFG_WIN : Fld := { addr := 0x151800, lo := 16, width := 12, acc := .rw, reset := 0x1f4 }
def VOTE_CCFG_COAST : Fld := { addr := 0x151800, lo := 0, width := 8, acc := .rw, reset := 4 }
/- VOTE_CMASK, R346. -/
def VOTE_CMASK_MASK : Fld := { addr := 0x151804, lo := 0, width := 32, acc := .rw, reset := 0xffffffff }
/- VOTE_CSTAT, R346. -/
def VOTE_CSTAT_VOTE : Fld := { addr := 0x15180c, lo := 0, width := 32, acc := .ro, reset := 0 }
/- VOTE_CEPOCH, R346. -/
def VOTE_CEPOCH_EPOCH : Fld := { addr := 0x151810, lo := 0, width := 32, acc := .ro, reset := 0 }
/- VOTE_CCNT0, R346. -/
def VOTE_CCNT0_DIS0 : Fld := { addr := 0x151814, lo := 16, width := 16, acc := .ro, reset := 0 }
def VOTE_CCNT0_DIS1 : Fld := { addr := 0x151814, lo := 0, width := 16, acc := .ro, reset := 0 }
/- VOTE_CCNT1, R346. -/
def VOTE_CCNT1_DIS2 : Fld := { addr := 0x151818, lo := 16, width := 16, acc := .ro, reset := 0 }
def VOTE_CCNT1_COASTS : Fld := { addr := 0x151818, lo := 0, width := 16, acc := .ro, reset := 0 }
/- VOTE_CCNT2, R346. -/
def VOTE_CCNT2_LATE : Fld := { addr := 0x15181c, lo := 0, width := 16, acc := .ro, reset := 0 }
/- VOTE_REF, R346. -/
def VOTE_REF_WORD : Fld := { addr := 0x151900, lo := 0, width := 32, acc := .ro, reset := 0 }
/- CAP_SRC, R368. -/
def CAP_SRC_KIND : Fld := { addr := 0x160100, lo := 30, width := 2, acc := .rw, reset := 0 }
def CAP_SRC_DIV : Fld := { addr := 0x160100, lo := 24, width := 4, acc := .rw, reset := 0 }
def CAP_SRC_SEL : Fld := { addr := 0x160100, lo := 0, width := 18, acc := .rw, reset := 0 }
/- CAP_MCFG, R368. -/
def CAP_MCFG_MEN : Fld := { addr := 0x160104, lo := 31, width := 1, acc := .rw, reset := 0 }
def CAP_MCFG_TAB : Fld := { addr := 0x160104, lo := 24, width := 4, acc := .rw, reset := 0 }
def CAP_MCFG_MVN : Fld := { addr := 0x160104, lo := 0, width := 8, acc := .rw, reset := 1 }
/- CAP_CSTAT, R368. -/
def CAP_CSTAT_STATE : Fld := { addr := 0x160108, lo := 29, width := 3, acc := .ro, reset := 0 }
def CAP_CSTAT_END : Fld := { addr := 0x160108, lo := 24, width := 3, acc := .ro, reset := 0 }
def CAP_CSTAT_COUNT : Fld := { addr := 0x160108, lo := 0, width := 23, acc := .ro, reset := 0 }
/- CAP_CREC, R368. -/
def CAP_CREC_RID : Fld := { addr := 0x16010c, lo := 0, width := 32, acc := .ro, reset := 0 }
/- CAP_CSKEW, R368. -/
def CAP_CSKEW_SKEW : Fld := { addr := 0x160110, lo := 0, width := 16, acc := .ro, reset := 0 }
/- CAP_TRIGCFG, R368. -/
def CAP_TRIGCFG_XW : Fld := { addr := 0x161000, lo := 8, width := 8, acc := .rw, reset := 0x64 }
def CAP_TRIGCFG_BPOL : Fld := { addr := 0x161000, lo := 1, width := 1, acc := .rw, reset := 0 }
def CAP_TRIGCFG_APOL : Fld := { addr := 0x161000, lo := 0, width := 1, acc := .rw, reset := 0 }
/- CAP_SWTRIG, R368. -/
def CAP_SWTRIG_GO : Fld := { addr := 0x161004, lo := 0, width := 1, acc := .wo, reset := 0 }
/- CAP_FREE, R368. -/
def CAP_FREE_RID : Fld := { addr := 0x161008, lo := 0, width := 32, acc := .wo, reset := 0 }
/- CAP_FREEBLK, R368. -/
def CAP_FREEBLK_N : Fld := { addr := 0x16100c, lo := 0, width := 9, acc := .ro, reset := 0x100 }
/- CAP_ERR, R368. -/
def CAP_ERR_VALID : Fld := { addr := 0x161010, lo := 31, width := 1, acc := .w1c, reset := 0 }
def CAP_ERR_MULTI : Fld := { addr := 0x161010, lo := 30, width := 1, acc := .w1c, reset := 0 }
def CAP_ERR_MASTER : Fld := { addr := 0x161010, lo := 24, width := 4, acc := .ro, reset := 0 }
def CAP_ERR_STATUS : Fld := { addr := 0x161010, lo := 0, width := 16, acc := .ro, reset := 0 }
/- CAP_LAST, R368. -/
def CAP_LAST_RID : Fld := { addr := 0x161014, lo := 0, width := 32, acc := .ro, reset := 0 }
/- CAP_DEAD, R368. -/
def CAP_DEAD_NS : Fld := { addr := 0x161018, lo := 0, width := 32, acc := .ro, reset := 0xffffffff }
/- CAP_CNT, R368. -/
def CAP_CNT_IGNPRE : Fld := { addr := 0x16101c, lo := 16, width := 16, acc := .ro, reset := 0 }
def CAP_CNT_OVF : Fld := { addr := 0x16101c, lo := 8, width := 8, acc := .ro, reset := 0 }
def CAP_CNT_MVIOL : Fld := { addr := 0x16101c, lo := 0, width := 8, acc := .ro, reset := 0 }
/- CAP_SKEWCTL, R368. -/
def CAP_SKEWCTL_BUSY : Fld := { addr := 0x161020, lo := 31, width := 1, acc := .ro, reset := 0 }
def CAP_SKEWCTL_CAL : Fld := { addr := 0x161020, lo := 0, width := 1, acc := .wo, reset := 0 }
/- CAP_MPHASE, R368. -/
def CAP_MPHASE_THETA : Fld := { addr := 0x161024, lo := 16, width := 14, acc := .rw, reset := 0 }
def CAP_MPHASE_OMEGA : Fld := { addr := 0x161024, lo := 0, width := 14, acc := .rw, reset := 0 }
/- CAP_ARMED, R368. -/
def CAP_ARMED_MASK : Fld := { addr := 0x161028, lo := 0, width := 32, acc := .ro, reset := 0 }
/- CAP_MTIDX, R368. -/
def CAP_MTIDX_TAB : Fld := { addr := 0x161100, lo := 0, width := 4, acc := .rw, reset := 0 }
/- CAP_MTCFG, R368. -/
def CAP_MTCFG_REF : Fld := { addr := 0x161104, lo := 31, width := 1, acc := .rw, reset := 0 }
def CAP_MTCFG_N : Fld := { addr := 0x161104, lo := 0, width := 11, acc := .rw, reset := 1 }
/- CAP_MTSTEP, R368. -/
def CAP_MTSTEP_STEP : Fld := { addr := 0x161108, lo := 0, width := 24, acc := .rw, reset := 0x28 }
/- CAP_MTPT, R368. -/
def CAP_MTPT_PT : Fld := { addr := 0x16110c, lo := 0, width := 10, acc := .rw, reset := 0 }
/- CAP_MTUP, R368. -/
def CAP_MTUP_UP : Fld := { addr := 0x161110, lo := 0, width := 32, acc := .rw, reset := 0x7f800000 }
/- CAP_MTLO, R368. -/
def CAP_MTLO_LO : Fld := { addr := 0x161114, lo := 0, width := 32, acc := .rw, reset := 0xff800000 }
/- KILN_CFG, R377. -/
def KILN_CFG_TFILT : Fld := { addr := 0x050000, lo := 24, width := 4, acc := .rw, reset := 3 }
def KILN_CFG_SLOPE : Fld := { addr := 0x050000, lo := 16, width := 8, acc := .rw, reset := 0x14 }
def KILN_CFG_STUCK_N : Fld := { addr := 0x050000, lo := 0, width := 16, acc := .rw, reset := 0 }
/- KILN_COMPSEL, R377. -/
def KILN_COMPSEL_REFSNS : Fld := { addr := 0x050008, lo := 8, width := 6, acc := .rw, reset := 0 }
def KILN_COMPSEL_OSCSNS : Fld := { addr := 0x050008, lo := 0, width := 6, acc := .rw, reset := 0 }
/- KILN_STAT, R377. -/
def KILN_STAT_LEVEL : Fld := { addr := 0x05000c, lo := 30, width := 2, acc := .ro, reset := 0 }
def KILN_STAT_TRIP : Fld := { addr := 0x05000c, lo := 29, width := 1, acc := .ro, reset := 0 }
def KILN_STAT_CFROZEN : Fld := { addr := 0x05000c, lo := 28, width := 1, acc := .ro, reset := 0 }
def KILN_STAT_RFROZEN : Fld := { addr := 0x05000c, lo := 27, width := 1, acc := .ro, reset := 0 }
def KILN_STAT_TRIPG : Fld := { addr := 0x05000c, lo := 16, width := 8, acc := .ro, reset := 0 }
def KILN_STAT_BROKENG : Fld := { addr := 0x05000c, lo := 0, width := 8, acc := .ro, reset := 0 }
/- KILN_EVT, R377. -/
def KILN_EVT_TRIP : Fld := { addr := 0x050010, lo := 31, width := 1, acc := .w1c, reset := 0 }
def KILN_EVT_BROKEN : Fld := { addr := 0x050010, lo := 30, width := 1, acc := .w1c, reset := 0 }
/- KILN_FACTOR, R377. -/
def KILN_FACTOR_F3 : Fld := { addr := 0x050014, lo := 16, width := 8, acc := .rw, reset := 0x40 }
def KILN_FACTOR_F2 : Fld := { addr := 0x050014, lo := 8, width := 8, acc := .rw, reset := 0x80 }
def KILN_FACTOR_F1 : Fld := { addr := 0x050014, lo := 0, width := 8, acc := .rw, reset := 0xc0 }
/- KILN_SBROKEN0, R377. -/
def KILN_SBROKEN0_B : Fld := { addr := 0x050018, lo := 0, width := 32, acc := .w1c, reset := 0 }
/- KILN_SBROKEN1, R377. -/
def KILN_SBROKEN1_B : Fld := { addr := 0x05001c, lo := 0, width := 12, acc := .w1c, reset := 0 }
/- KILN_ERR, R377. -/
def KILN_ERR_VALID : Fld := { addr := 0x050020, lo := 31, width := 1, acc := .w1c, reset := 0 }
def KILN_ERR_MULTI : Fld := { addr := 0x050020, lo := 30, width := 1, acc := .w1c, reset := 0 }
def KILN_ERR_MASTER : Fld := { addr := 0x050020, lo := 24, width := 4, acc := .ro, reset := 0 }
def KILN_ERR_STATUS : Fld := { addr := 0x050020, lo := 0, width := 16, acc := .ro, reset := 0 }
/- KILN_CNT, R377. -/
def KILN_CNT_BROKEN : Fld := { addr := 0x050024, lo := 16, width := 16, acc := .ro, reset := 0 }
def KILN_CNT_LEVELUP : Fld := { addr := 0x050024, lo := 0, width := 16, acc := .ro, reset := 0 }
/- KILN_SCFG, R377. -/
def KILN_SCFG_EN : Fld := { addr := 0x050100, lo := 31, width := 1, acc := .rw, reset := 0, split := 12, early := 1 }
def KILN_SCFG_KIND : Fld := { addr := 0x050100, lo := 28, width := 3, acc := .rw, reset := 1, split := 12, early := 0 }
def KILN_SCFG_GROUP : Fld := { addr := 0x050100, lo := 24, width := 3, acc := .rw, reset := 0 }
/- KILN_SPAR, R377. -/
def KILN_SPAR_HI : Fld := { addr := 0x050200, lo := 16, width := 16, acc := .rw, reset := 0 }
def KILN_SPAR_LO : Fld := { addr := 0x050200, lo := 0, width := 16, acc := .rw, reset := 0 }
/- KILN_T, R377. -/
def KILN_T_BROKEN : Fld := { addr := 0x050300, lo := 31, width := 1, acc := .ro, reset := 0 }
def KILN_T_WHY : Fld := { addr := 0x050300, lo := 28, width := 3, acc := .ro, reset := 0 }
def KILN_T_T : Fld := { addr := 0x050300, lo := 0, width := 16, acc := .ro, reset := 0 }
/- KILN_GTH0, R377. -/
def KILN_GTH0_TH1 : Fld := { addr := 0x050400, lo := 16, width := 16, acc := .rw, reset := 0x820 }
def KILN_GTH0_TH2 : Fld := { addr := 0x050400, lo := 0, width := 16, acc := .rw, reset := 0x8c0 }
/- KILN_GTH1, R377. -/
def KILN_GTH1_TH3 : Fld := { addr := 0x050404, lo := 16, width := 16, acc := .rw, reset := 0x910 }
def KILN_GTH1_TRIP : Fld := { addr := 0x050404, lo := 0, width := 16, acc := .rw, reset := 0xa00 }
/- KILN_GCFG, R377. -/
def KILN_GCFG_EN : Fld := { addr := 0x050408, lo := 31, width := 1, acc := .rw, reset := 0, split := 1, early := 1 }
def KILN_GCFG_BT : Fld := { addr := 0x050408, lo := 8, width := 16, acc := .rw, reset := 0x960 }
def KILN_GCFG_HYST : Fld := { addr := 0x050408, lo := 0, width := 8, acc := .rw, reset := 0x50 }
/- KILN_GVAL, R377. -/
def KILN_GVAL_T : Fld := { addr := 0x05040c, lo := 0, width := 16, acc := .ro, reset := 0 }
/- SEC_STAT, R395. -/
def SEC_STAT_KEYRDY : Fld := { addr := 0x060000, lo := 31, width := 1, acc := .ro, reset := 0 }
def SEC_STAT_UNLOCKED : Fld := { addr := 0x060000, lo := 30, width := 1, acc := .ro, reset := 0 }
def SEC_STAT_OTPBUSY : Fld := { addr := 0x060000, lo := 29, width := 1, acc := .ro, reset := 0 }
def SEC_STAT_SLOTVALID : Fld := { addr := 0x060000, lo := 24, width := 4, acc := .ro, reset := 0 }
def SEC_STAT_SLOTREV : Fld := { addr := 0x060000, lo := 20, width := 4, acc := .ro, reset := 0 }
def SEC_STAT_VREV : Fld := { addr := 0x060000, lo := 16, width := 2, acc := .ro, reset := 0 }
def SEC_STAT_ENRLOCK : Fld := { addr := 0x060000, lo := 15, width := 1, acc := .ro, reset := 0 }
/- SEC_SVN, R395. -/
def SEC_SVN_CFG_SVN : Fld := { addr := 0x060004, lo := 8, width := 6, acc := .ro, reset := 0 }
def SEC_SVN_FW_SVN : Fld := { addr := 0x060004, lo := 0, width := 6, acc := .ro, reset := 0 }
/- SEC_DBGREM, R395. -/
def SEC_DBGREM_S : Fld := { addr := 0x060008, lo := 0, width := 17, acc := .ro, reset := 0 }
/- SEC_ERR, R395. -/
def SEC_ERR_VALID : Fld := { addr := 0x060010, lo := 31, width := 1, acc := .w1c, reset := 0 }
def SEC_ERR_MULTI : Fld := { addr := 0x060010, lo := 30, width := 1, acc := .w1c, reset := 0 }
def SEC_ERR_MASTER : Fld := { addr := 0x060010, lo := 24, width := 4, acc := .ro, reset := 0 }
def SEC_ERR_STATUS : Fld := { addr := 0x060010, lo := 0, width := 16, acc := .ro, reset := 0 }
/- SEC_DBGCHAL, R395. -/
def SEC_DBGCHAL_CHAL : Fld := { addr := 0x060020, lo := 0, width := 32, acc := .ro, reset := 0 }
/- SEC_ECC, R395. -/
def SEC_ECC_CORR : Fld := { addr := 0x060040, lo := 16, width := 16, acc := .ro, reset := 0 }
def SEC_ECC_UNCORR : Fld := { addr := 0x060040, lo := 0, width := 16, acc := .ro, reset := 0 }
/- SEC_ECCLOG, R395. -/
def SEC_ECCLOG_VALID : Fld := { addr := 0x060044, lo := 31, width := 1, acc := .w1c, reset := 0 }
def SEC_ECCLOG_MULTI : Fld := { addr := 0x060044, lo := 30, width := 1, acc := .w1c, reset := 0 }
def SEC_ECCLOG_MEM : Fld := { addr := 0x060044, lo := 24, width := 4, acc := .ro, reset := 0 }
def SEC_ECCLOG_WORD : Fld := { addr := 0x060044, lo := 0, width := 20, acc := .ro, reset := 0 }
/- SEC_ECCLOGT, R395. -/
def SEC_ECCLOGT_NS : Fld := { addr := 0x060048, lo := 0, width := 32, acc := .ro, reset := 0 }
/- SEC_ECCLOGS, R395. -/
def SEC_ECCLOGS_SEC_LO : Fld := { addr := 0x06004c, lo := 0, width := 32, acc := .ro, reset := 0 }
/- SEC_SCRUBCFG, R395. -/
def SEC_SCRUBCFG_PASS : Fld := { addr := 0x060050, lo := 0, width := 16, acc := .rw, reset := 0x3e8 }
/- SEC_SCRUBSTAT, R395. -/
def SEC_SCRUBSTAT_BEHIND : Fld := { addr := 0x060054, lo := 0, width := 9, acc := .w1c, reset := 0 }
/- SEC_EINJ, R395. -/
def SEC_EINJ_ARM : Fld := { addr := 0x060058, lo := 31, width := 1, acc := .rw, reset := 0 }
def SEC_EINJ_MEM : Fld := { addr := 0x060058, lo := 24, width := 4, acc := .rw, reset := 0 }
def SEC_EINJ_SYM : Fld := { addr := 0x060058, lo := 16, width := 6, acc := .rw, reset := 0 }
def SEC_EINJ_SYM2 : Fld := { addr := 0x060058, lo := 10, width := 6, acc := .rw, reset := 0 }
def SEC_EINJ_TWO : Fld := { addr := 0x060058, lo := 9, width := 1, acc := .rw, reset := 0 }
def SEC_EINJ_PAT : Fld := { addr := 0x060058, lo := 0, width := 8, acc := .rw, reset := 0 }
/- SEC_BISTDONE, R395. -/
def SEC_BISTDONE_DONE : Fld := { addr := 0x060060, lo := 0, width := 17, acc := .ro, reset := 1 }
/- SEC_RETPAIR, R395. -/
def SEC_RETPAIR_RET : Fld := { addr := 0x060070, lo := 0, width := 12, acc := .ro, reset := 0 }
/- SEC_RETADC, R395. -/
def SEC_RETADC_RET : Fld := { addr := 0x060074, lo := 0, width := 16, acc := .ro, reset := 0 }
/- SEC_RETLANE, R395. -/
def SEC_RETLANE_RET : Fld := { addr := 0x060078, lo := 0, width := 28, acc := .ro, reset := 0 }
/- SEC_RETCAP, R395. -/
def SEC_RETCAP_RET : Fld := { addr := 0x06007c, lo := 0, width := 32, acc := .ro, reset := 0 }
/- SEC_FPR, R395. -/
def SEC_FPR_FPR : Fld := { addr := 0x060100, lo := 0, width := 32, acc := .ro, reset := 0 }
/- SEC_IDCERT, R395. -/
def SEC_IDCERT_WORD : Fld := { addr := 0x068000, lo := 0, width := 32, acc := .ro, reset := 0 }

/-- Registers of block SYS, part 0. -/
def sysRegs0 : List Reg := [
  { addr := 0x000004, kind := .plain, flds := [SYS_STRAP_ROLE, SYS_STRAP_SID_BAD, SYS_STRAP_SID] },
  { addr := 0x000008, kind := .plain, flds := [SYS_STATE_TRANS_CNT, SYS_STATE_CAUSE, SYS_STATE_PREV, SYS_STATE_STATE] },
  { addr := 0x000010, kind := .plain, flds := [SYS_RSTCAUSE_LAST, SYS_RSTCAUSE_SYSCNT, SYS_RSTCAUSE_STRAPCHG, SYS_RSTCAUSE_DEBUG, SYS_RSTCAUSE_SWSYS, SYS_RSTCAUSE_MEMERR, SYS_RSTCAUSE_LOCKSTEP, SYS_RSTCAUSE_WDOG, SYS_RSTCAUSE_CLKLOSS, SYS_RSTCAUSE_PIN, SYS_RSTCAUSE_BOR, SYS_RSTCAUSE_POR] },
  { addr := 0x000014, kind := .plain, flds := [SYS_RSTCTL_KEY, SYS_RSTCTL_COLD, SYS_RSTCTL_SYS] },
  { addr := 0x000018, kind := .plain, flds := [SYS_BOOT_FWSLOT, SYS_BOOT_CFGSLOT, SYS_BOOT_SRC, SYS_BOOT_TRIAL, SYS_BOOT_TRIES, SYS_BOOT_STATUS] },
  { addr := 0x00001c, kind := .plain, flds := [SYS_CFGSTAT_TRIED1, SYS_CFGSTAT_TRIED0, SYS_CFGSTAT_ST1, SYS_CFGSTAT_ST0] },
  { addr := 0x000000, kind := .plain, flds := [SYS_ID_ID] },
  { addr := 0x000020, kind := .plain, flds := [SYS_PRESENT_PRESENT] },
  { addr := 0x000024, kind := .plain, flds := [SYS_RETIRED_RETIRED] },
  { addr := 0x000028, kind := .plain, flds := [SYS_ERRCNT_UNMAP, SYS_ERRCNT_RSVD] }]

/-- Every register of block SYS. -/
def sysRegs : List Reg := sysRegs0

/-- Registers of block PWR, part 0. -/
def pwrRegs0 : List Reg := [
  { addr := 0x030000, kind := .plain, flds := [PWR_DOMCTL_REQ] },
  { addr := 0x030004, kind := .plain, flds := [PWR_DOMSTAT_ON] },
  { addr := 0x030008, kind := .plain, flds := [PWR_DOMBUSY_BUSY] },
  { addr := 0x03000c, kind := .plain, flds := [PWR_ERR_VALID, PWR_ERR_MULTI, PWR_ERR_DOM, PWR_ERR_STATUS] }]

/-- Every register of block PWR. -/
def pwrRegs : List Reg := pwrRegs0

/-- Registers of block CLK, part 0. -/
def clkRegs0 : List Reg := [
  { addr := 0x030010, kind := .plain, flds := [CLK_STAT_LOSSCNT, CLK_STAT_HOLD, CLK_STAT_LOCK, CLK_STAT_SRC] }]

/-- Every register of block CLK. -/
def clkRegs : List Reg := clkRegs0

/-- Registers of block PWM, part 0. -/
def pwmRegs0 : List Reg := [
  { addr := 0x100000, kind := .perMaster, flds := [PWM_CHSEL_CH] },
  { addr := 0x100100, kind := .window, flds := [PWM_CFG_EN, PWM_CFG_ALIGN, PWM_CFG_HR, PWM_CFG_SRC, PWM_CFG_UPD, PWM_CFG_AUTO, PWM_CFG_INVA, PWM_CFG_INVB, PWM_CFG_DITH, PWM_CFG_MINPW] },
  { addr := 0x100104, kind := .window, flds := [PWM_PER_PER] },
  { addr := 0x100108, kind := .window, flds := [PWM_CMPA_CMP] },
  { addr := 0x10010c, kind := .window, flds := [PWM_CMPB_CMP] },
  { addr := 0x100110, kind := .window, flds := [PWM_OFS_OFS] },
  { addr := 0x100114, kind := .window, flds := [PWM_PHSTEP_STEP] },
  { addr := 0x100118, kind := .window, flds := [PWM_CTL_CANCEL, PWM_CTL_COMMIT] },
  { addr := 0x10011c, kind := .window, flds := [PWM_STAT_RUN, PWM_STAT_DOWN, PWM_STAT_PEND, PWM_STAT_LATE, PWM_STAT_SLEW, PWM_STAT_LOCK, PWM_STAT_FORCED, PWM_STAT_COUNT] },
  { addr := 0x100120, kind := .window, flds := [PWM_EPER_PER] },
  { addr := 0x100124, kind := .window, flds := [PWM_ECMPA_CMP] },
  { addr := 0x100128, kind := .window, flds := [PWM_ECMPB_CMP] },
  { addr := 0x10012c, kind := .window, flds := [PWM_EOFS_OFS] },
  { addr := 0x100130, kind := .window, flds := [PWM_PERR_E] },
  { addr := 0x100134, kind := .window, flds := [PWM_CNT_LATE, PWM_CNT_DROP] },
  { addr := 0x101000, kind := .plain, flds := [PWM_GCOMMIT_MASK] },
  { addr := 0x101004, kind := .plain, flds := [PWM_GCANCEL_MASK] },
  { addr := 0x101010, kind := .plain, flds := [PWM_ERR_VALID, PWM_ERR_MULTI, PWM_ERR_MASTER, PWM_ERR_PAIR, PWM_ERR_STATUS] }]

/-- Every register of block PWM. -/
def pwmRegs : List Reg := pwmRegs0

/-- Registers of block GD, part 0. -/
def gdRegs0 : List Reg := [
  { addr := 0x110000, kind := .perMaster, flds := [GD_CHSEL_CH] },
  { addr := 0x110100, kind := .window, flds := [GD_CFG_EN, GD_CFG_DIEN, GD_CFG_FBPOL, GD_CFG_THR, GD_CFG_TBLANK] },
  { addr := 0x110104, kind := .window, flds := [GD_TON_TWON, GD_TON_TPRE] },
  { addr := 0x110108, kind := .window, flds := [GD_TOFF_TWOFF, GD_TOFF_TPDIS] },
  { addr := 0x11010c, kind := .window, flds := [GD_TFB_TFBOFF] },
  { addr := 0x110110, kind := .window, flds := [GD_STAT_DET, GD_STAT_HARD, GD_STAT_FB, GD_STAT_FORCED, GD_STAT_WAIT, GD_STAT_PHASE, GD_STAT_CODE] },
  { addr := 0x110114, kind := .window, flds := [GD_EVT_WOFFTO, GD_EVT_WONTO, GD_EVT_FBMIS, GD_EVT_FBOFF, GD_EVT_HARDEV, GD_EVT_DIDT, GD_EVT_BLANKED] },
  { addr := 0x110118, kind := .window, flds := [GD_BLKNS_NS] },
  { addr := 0x11011c, kind := .window, flds := [GD_CNT0_BLK, GD_CNT0_DET] },
  { addr := 0x110120, kind := .window, flds := [GD_CNT1_FBERR, GD_CNT1_SLOW] },
  { addr := 0x111000, kind := .plain, flds := [GD_ILSTAT_EVT] },
  { addr := 0x111004, kind := .plain, flds := [GD_FBSRC_EN] },
  { addr := 0x111010, kind := .plain, flds := [GD_ERR_VALID, GD_ERR_MULTI, GD_ERR_MASTER, GD_ERR_CHAN, GD_ERR_STATUS] },
  { addr := 0x111040, kind := .array 12 4, flds := [GD_ILCNT_CNT] },
  { addr := 0x111100, kind := .array 12 4, flds := [GD_DT_DT] }]

/-- Every register of block GD. -/
def gdRegs : List Reg := gdRegs0

/-- Registers of block ADC, part 0. -/
def adcRegs0 : List Reg := [
  { addr := 0x130000, kind := .perMaster, flds := [ADC_CHSEL_CH] },
  { addr := 0x130100, kind := .window, flds := [ADC_CFG_EN, ADC_CFG_AWAKE, ADC_CFG_TRIG, ADC_CFG_TSEL, ADC_CFG_EVT, ADC_CFG_SLOTS] },
  { addr := 0x130104, kind := .window, flds := [ADC_TIMER_PER] },
  { addr := 0x130120, kind := .window, flds := [ADC_INJ_GO, ADC_INJ_PULL, ADC_INJ_K, ADC_INJ_POS] },
  { addr := 0x130124, kind := .window, flds := [ADC_CTL_CAL] },
  { addr := 0x130128, kind := .window, flds := [ADC_STAT_STATE, ADC_STAT_INJP, ADC_STAT_CALP, ADC_STAT_HELD, ADC_STAT_SLOT] },
  { addr := 0x13012c, kind := .window, flds := [ADC_CNT0_MISS, ADC_CNT0_HELD] },
  { addr := 0x130130, kind := .window, flds := [ADC_CNT1_ABAND, ADC_CNT1_WAKE] },
  { addr := 0x130134, kind := .window, flds := [ADC_CALOFS_OFS] },
  { addr := 0x130138, kind := .window, flds := [ADC_CALGAIN_GAIN] },
  { addr := 0x130140, kind := .winArray 16 4, flds := [ADC_SLOT_PULL, ADC_SLOT_K, ADC_SLOT_POS] },
  { addr := 0x130180, kind := .winArray 6 8, flds := [ADC_RESLO_WORD] },
  { addr := 0x130184, kind := .winArray 6 8, flds := [ADC_RESHI_WORD] },
  { addr := 0x1301b0, kind := .winArray 6 4, flds := [ADC_VAL_VALUE] },
  { addr := 0x1301d0, kind := .winArray 5 4, flds := [ADC_ROUTE_EN, ADC_ROUTE_POINT] },
  { addr := 0x131000, kind := .array 4 4, flds := [] ++ (List.range 16).map ADC_PULL_PULL },
  { addr := 0x131010, kind := .plain, flds := [ADC_ERR_VALID, ADC_ERR_MULTI, ADC_ERR_MASTER, ADC_ERR_CONV, ADC_ERR_STATUS] },
  { addr := 0x131100, kind := .array 16 32, flds := [ADC_WCFG_EN, ADC_WCFG_MODE, ADC_WCFG_INPUT, ADC_WCFG_FILT] },
  { addr := 0x131104, kind := .array 16 32, flds := [ADC_WLO_LO] },
  { addr := 0x131108, kind := .array 16 32, flds := [ADC_WHI_HI] },
  { addr := 0x13110c, kind := .array 16 32, flds := [ADC_WHYST_HYST] },
  { addr := 0x131110, kind := .array 16 32, flds := [ADC_WCTL_COMMIT] },
  { addr := 0x131114, kind := .array 16 32, flds := [ADC_WSTAT_LIVE, ADC_WSTAT_EVT, ADC_WSTAT_CPEND, ADC_WSTAT_CNT] },
  { addr := 0x131118, kind := .array 16 32, flds := [ADC_WEFF_EHYST, ADC_WEFF_EHI, ADC_WEFF_ELO] }]

/-- Every register of block ADC. -/
def adcRegs : List Reg := adcRegs0

/-- Registers of block LNK, part 0. -/
def lnkRegs0 : List Reg := [
  { addr := 0x140000, kind := .perMaster, flds := [LNK_CHSEL_CH] },
  { addr := 0x140100, kind := .window, flds := [LNK_CFG_EN, LNK_CFG_TXINV, LNK_CFG_RXINV, LNK_CFG_RATE] },
  { addr := 0x140104, kind := .window, flds := [LNK_EQ_CTLE, LNK_EQ_POST, LNK_EQ_MAIN, LNK_EQ_PRE] },
  { addr := 0x140108, kind := .window, flds := [LNK_EQEFF_CTLE, LNK_EQEFF_POST, LNK_EQEFF_MAIN, LNK_EQEFF_PRE] },
  { addr := 0x14010c, kind := .window, flds := [LNK_CTL_RETRAIN] },
  { addr := 0x140110, kind := .window, flds := [LNK_STAT_STATE, LNK_STAT_SIGDET, LNK_STAT_BLOCK, LNK_STAT_FARROLE, LNK_STAT_FARSID, LNK_STAT_FARCHAIN, LNK_STAT_FARHOP, LNK_STAT_LOSTC, LNK_STAT_EQBAD] },
  { addr := 0x140114, kind := .window, flds := [LNK_RES_MAX, LNK_RES_LAST] },
  { addr := 0x140118, kind := .window, flds := [LNK_CNT0_CRC, LNK_CNT0_PARTIAL] },
  { addr := 0x14011c, kind := .window, flds := [LNK_CNT1_RELAYBAD, LNK_CNT1_STALE] },
  { addr := 0x140120, kind := .window, flds := [LNK_CNT2_LOSS, LNK_CNT2_TRAINFAIL] },
  { addr := 0x140124, kind := .window, flds := [LNK_CNT3_DISCARD, LNK_CNT3_FUTURE] },
  { addr := 0x140130, kind := .window, flds := [LNK_TEST_GEN, LNK_TEST_CHK, LNK_TEST_LOOP] },
  { addr := 0x140134, kind := .window, flds := [LNK_PRBS_SYNC, LNK_PRBS_ERR] },
  { addr := 0x141000, kind := .plain, flds := [LNK_CHSTAT_DEGRADED] },
  { addr := 0x141004, kind := .plain, flds := [LNK_PORTS_FIXED, LNK_PORTS_CHAIN, LNK_PORTS_POS, LNK_PORTS_MISMATCH] },
  { addr := 0x141008, kind := .plain, flds := [LNK_FWDREQ_REQ] },
  { addr := 0x14100c, kind := .plain, flds := [LNK_FWDSRV_SRV] },
  { addr := 0x141010, kind := .plain, flds := [LNK_ERR_VALID, LNK_ERR_MULTI, LNK_ERR_MASTER, LNK_ERR_LANE, LNK_ERR_STATUS] }]

/-- Every register of block LNK. -/
def lnkRegs : List Reg := lnkRegs0

/-- Registers of block VOTE, part 0. -/
def voteRegs0 : List Reg := [
  { addr := 0x150000, kind := .perMaster, flds := [VOTE_CHSEL_CH] },
  { addr := 0x150100, kind := .window, flds := [VOTE_DVOTE_VOTE] },
  { addr := 0x150104, kind := .window, flds := [VOTE_DDIS_ABSENT, VOTE_DDIS_DISSENT] },
  { addr := 0x150108, kind := .window, flds := [VOTE_DXCHK_MISSING, VOTE_DXCHK_MISMATCH] },
  { addr := 0x151000, kind := .plain, flds := [VOTE_MODE_MODE] },
  { addr := 0x151004, kind := .plain, flds := [VOTE_LCFG_LEASE_T] },
  { addr := 0x151008, kind := .plain, flds := [VOTE_LEASE_HOLDER, VOTE_LEASE_OWN, VOTE_LEASE_HELD, VOTE_LEASE_CAND, VOTE_LEASE_RACKED] },
  { addr := 0x15100c, kind := .plain, flds := [VOTE_EPOCH_EPOCH] },
  { addr := 0x151010, kind := .plain, flds := [VOTE_LREM_US] },
  { addr := 0x151014, kind := .plain, flds := [VOTE_XCFG_XC_N, VOTE_XCFG_SC_PCT, VOTE_XCFG_SC_WIN] },
  { addr := 0x151018, kind := .plain, flds := [VOTE_XSTAT_STREAK, VOTE_XSTAT_DIS] },
  { addr := 0x15101c, kind := .plain, flds := [VOTE_RCNT_LATE, VOTE_RCNT_APPLIED] },
  { addr := 0x151020, kind := .plain, flds := [VOTE_LCNT_CLAIMS, VOTE_LCNT_REFUSED, VOTE_LCNT_RELEASES, VOTE_LCNT_LAPSES] },
  { addr := 0x151024, kind := .array 2 4, flds := [VOTE_XMASK_MASK] },
  { addr := 0x151030, kind := .plain, flds := [VOTE_ERR_VALID, VOTE_ERR_MULTI, VOTE_ERR_MASTER, VOTE_ERR_STATUS] },
  { addr := 0x151040, kind := .array 64 4, flds := [VOTE_SLIST_FIRST, VOTE_SLIST_COUNT] },
  { addr := 0x151800, kind := .plain, flds := [VOTE_CCFG_SOLO, VOTE_CCFG_WIN, VOTE_CCFG_COAST] },
  { addr := 0x151804, kind := .array 2 4, flds := [VOTE_CMASK_MASK] },
  { addr := 0x15180c, kind := .plain, flds := [VOTE_CSTAT_VOTE] },
  { addr := 0x151810, kind := .plain, flds := [VOTE_CEPOCH_EPOCH] },
  { addr := 0x151814, kind := .plain, flds := [VOTE_CCNT0_DIS0, VOTE_CCNT0_DIS1] },
  { addr := 0x151818, kind := .plain, flds := [VOTE_CCNT1_DIS2, VOTE_CCNT1_COASTS] },
  { addr := 0x15181c, kind := .plain, flds := [VOTE_CCNT2_LATE] },
  { addr := 0x151900, kind := .array 64 4, flds := [VOTE_REF_WORD] }]

/-- Every register of block VOTE. -/
def voteRegs : List Reg := voteRegs0

/-- Registers of block CAP, part 0. -/
def capRegs0 : List Reg := [
  { addr := 0x160000, kind := .perMaster, flds := [CAP_CHSEL_CH] },
  { addr := 0x160100, kind := .window, flds := [CAP_SRC_KIND, CAP_SRC_DIV, CAP_SRC_SEL] },
  { addr := 0x160104, kind := .window, flds := [CAP_MCFG_MEN, CAP_MCFG_TAB, CAP_MCFG_MVN] },
  { addr := 0x160108, kind := .window, flds := [CAP_CSTAT_STATE, CAP_CSTAT_END, CAP_CSTAT_COUNT] },
  { addr := 0x16010c, kind := .window, flds := [CAP_CREC_RID] },
  { addr := 0x160110, kind := .window, flds := [CAP_CSKEW_SKEW] },
  { addr := 0x161000, kind := .plain, flds := [CAP_TRIGCFG_XW, CAP_TRIGCFG_BPOL, CAP_TRIGCFG_APOL] },
  { addr := 0x161004, kind := .plain, flds := [CAP_SWTRIG_GO] },
  { addr := 0x161008, kind := .plain, flds := [CAP_FREE_RID] },
  { addr := 0x16100c, kind := .plain, flds := [CAP_FREEBLK_N] },
  { addr := 0x161010, kind := .plain, flds := [CAP_ERR_VALID, CAP_ERR_MULTI, CAP_ERR_MASTER, CAP_ERR_STATUS] },
  { addr := 0x161014, kind := .plain, flds := [CAP_LAST_RID] },
  { addr := 0x161018, kind := .plain, flds := [CAP_DEAD_NS] },
  { addr := 0x16101c, kind := .plain, flds := [CAP_CNT_IGNPRE, CAP_CNT_OVF, CAP_CNT_MVIOL] },
  { addr := 0x161020, kind := .plain, flds := [CAP_SKEWCTL_BUSY, CAP_SKEWCTL_CAL] },
  { addr := 0x161024, kind := .plain, flds := [CAP_MPHASE_THETA, CAP_MPHASE_OMEGA] },
  { addr := 0x161028, kind := .array 2 4, flds := [CAP_ARMED_MASK] },
  { addr := 0x161100, kind := .perMaster, flds := [CAP_MTIDX_TAB] },
  { addr := 0x161104, kind := .plain, flds := [CAP_MTCFG_REF, CAP_MTCFG_N] },
  { addr := 0x161108, kind := .plain, flds := [CAP_MTSTEP_STEP] },
  { addr := 0x16110c, kind := .perMaster, flds := [CAP_MTPT_PT] },
  { addr := 0x161110, kind := .plain, flds := [CAP_MTUP_UP] },
  { addr := 0x161114, kind := .plain, flds := [CAP_MTLO_LO] }]

/-- Every register of block CAP. -/
def capRegs : List Reg := capRegs0

/-- Registers of block MBX, part 0. -/
def mbxRegs0 : List Reg := [
  { addr := 0x010000, kind := .perMaster, flds := [MBX_IRQ_DONE] },
  { addr := 0x010004, kind := .perMaster, flds := [MBX_IEN_EN] },
  { addr := 0x010010, kind := .plain, flds := [MBX_NETCNT_DROP_SRC, MBX_NETCNT_DROP_NOLEASE] },
  { addr := 0x010100, kind := .mbx, flds := [MBX_HDR0_OPCODE, MBX_HDR0_LENGTH] },
  { addr := 0x010104, kind := .mbx, flds := [MBX_HDR1_SEQ, MBX_HDR1_STATUS] },
  { addr := 0x010108, kind := .mbx, flds := [MBX_CTL_GO] },
  { addr := 0x01010c, kind := .mbx, flds := [MBX_STAT_STATE] }]

/-- Every register of block MBX. -/
def mbxRegs : List Reg := mbxRegs0

/-- Registers of block ACC, part 0. -/
def accRegs0 : List Reg := [
  { addr := 0x020000, kind := .plain, flds := [ACC_REGION_REGION] },
  { addr := 0x020004, kind := .plain, flds := [ACC_RIGHTS_J, ACC_RIGHTS_M8, ACC_RIGHTS_M7, ACC_RIGHTS_M6, ACC_RIGHTS_M5, ACC_RIGHTS_M4, ACC_RIGHTS_M3, ACC_RIGHTS_M2, ACC_RIGHTS_M1, ACC_RIGHTS_M0] },
  { addr := 0x020010, kind := .plain, flds := [ACC_ERR_VALID, ACC_ERR_MULTI, ACC_ERR_MASTER, ACC_ERR_STATUS] },
  { addr := 0x020014, kind := .plain, flds := [ACC_ERRADDR_ADDR] },
  { addr := 0x020020, kind := .plain, flds := [ACC_JNLHEAD_HEAD] },
  { addr := 0x020024, kind := .plain, flds := [ACC_JNLCNT_LOST, ACC_JNLCNT_UNREAD] },
  { addr := 0x020028, kind := .plain, flds := [ACC_JNLCFG_STOP] },
  { addr := 0x02002c, kind := .plain, flds := [ACC_JNLFREE_N] },
  { addr := 0x020030, kind := .plain, flds := [ACC_JNLIDX_IDX] },
  { addr := 0x020040, kind := .array 8 4, flds := [ACC_JNLDATA_WORD] }]

/-- Every register of block ACC. -/
def accRegs : List Reg := accRegs0

/-- Registers of block PT, part 0. -/
def ptRegs0 : List Reg := [
  { addr := 0x180000, kind := .perMaster, flds := [PT_DIRIDX_IDX] },
  { addr := 0x180004, kind := .perMaster, flds := [PT_DIRLO_WORD] },
  { addr := 0x180008, kind := .perMaster, flds := [PT_DIRHI_WORD] },
  { addr := 0x18000c, kind := .plain, flds := [PT_DIRCTL_WRITE, PT_DIRCTL_READ] },
  { addr := 0x180010, kind := .plain, flds := [PT_FILLCFG_OFS] },
  { addr := 0x180014, kind := .plain, flds := [PT_FILLCYC_CYCLE] },
  { addr := 0x180018, kind := .plain, flds := [PT_FILLSTAT_MISSING, PT_FILLSTAT_FILLED] },
  { addr := 0x180020, kind := .array 6 4, flds := [PT_MISS_MISS] },
  { addr := 0x180040, kind := .plain, flds := [PT_ERR_VALID, PT_ERR_MULTI, PT_ERR_MASTER, PT_ERR_STATUS] },
  { addr := 0x180044, kind := .plain, flds := [PT_ERRPT_POINT] },
  { addr := 0x180048, kind := .plain, flds := [PT_ECC_CORR, PT_ECC_UNCORR] },
  { addr := 0x18004c, kind := .plain, flds := [PT_TELCNT_LATE, PT_TELCNT_OLD] },
  { addr := 0x180050, kind := .plain, flds := [PT_TELUNK_RACKDROP, PT_TELUNK_UNKNOWN] }]

/-- Every register of block PT. -/
def ptRegs : List Reg := ptRegs0

/-- Registers of block MASH, part 0. -/
def mashRegs0 : List Reg := [
  { addr := 0x170000, kind := .plain, flds := [MASH_STAT_ACTIVE, MASH_STAT_PEND, MASH_STAT_IDLE, MASH_STAT_OVR, MASH_STAT_FOVR, MASH_STAT_THR, MASH_STAT_TUNED] },
  { addr := 0x170004, kind := .plain, flds := [MASH_CYCLE_CYCLE] },
  { addr := 0x170008, kind := .plain, flds := [MASH_COSTM_T] },
  { addr := 0x17000c, kind := .plain, flds := [MASH_COSTF_C] },
  { addr := 0x170010, kind := .plain, flds := [MASH_END_NS] },
  { addr := 0x170014, kind := .plain, flds := [MASH_ENDMAX_NS] },
  { addr := 0x170018, kind := .plain, flds := [MASH_OVRCNT_MAIN, MASH_OVRCNT_FAST] },
  { addr := 0x17001c, kind := .plain, flds := [MASH_NUMCNT_NONFIN, MASH_NUMCNT_CLAMP] },
  { addr := 0x170020, kind := .plain, flds := [MASH_QUALCNT_N] },
  { addr := 0x170024, kind := .plain, flds := [MASH_PLCNT_FLAGS, MASH_PLCNT_FAULTS] },
  { addr := 0x170030, kind := .plain, flds := [MASH_ERR_VALID, MASH_ERR_MULTI, MASH_ERR_MASTER, MASH_ERR_STATUS] },
  { addr := 0x170034, kind := .plain, flds := [MASH_ERRPOS_POS] },
  { addr := 0x170038, kind := .plain, flds := [MASH_ECC_CORR, MASH_ECC_UNCORR] },
  { addr := 0x171000, kind := .plain, flds := [MASH_SWAPCYC_CYCLE] },
  { addr := 0x171004, kind := .plain, flds := [MASH_SWAPCTL_TCOMMIT, MASH_SWAPCTL_REQ] },
  { addr := 0x171008, kind := .plain, flds := [MASH_TRARM_ARM] },
  { addr := 0x17100c, kind := .plain, flds := [MASH_TRSTART_START] },
  { addr := 0x171010, kind := .plain, flds := [MASH_TRSTOP_STOP] },
  { addr := 0x172000, kind := .perMaster, flds := [MASH_B0ADDR_ADDR] },
  { addr := 0x172004, kind := .plain, flds := [MASH_B0DATA_DATA] },
  { addr := 0x173000, kind := .perMaster, flds := [MASH_B1ADDR_ADDR] },
  { addr := 0x173004, kind := .plain, flds := [MASH_B1DATA_DATA] },
  { addr := 0x174000, kind := .array 32 16, flds := [MASH_TRCFG0_TASK, MASH_TRCFG0_CAPEN, MASH_TRCFG0_CAPCH, MASH_TRCFG0_SRC] },
  { addr := 0x174004, kind := .array 32 16, flds := [MASH_TRCFG1_PRE, MASH_TRCFG1_LEN] }]

/-- Registers of block MASH, part 1. -/
def mashRegs1 : List Reg := [
  { addr := 0x174008, kind := .array 32 16, flds := [MASH_TRCFG2_DECIM] },
  { addr := 0x17400c, kind := .array 32 16, flds := [MASH_TRSTAT_STATE, MASH_TRSTAT_OLDEST, MASH_TRSTAT_TAKEN] },
  { addr := 0x174200, kind := .array 32 16, flds := [MASH_TRT0_NS] },
  { addr := 0x174204, kind := .array 32 16, flds := [MASH_TRT1_SEC_LO] },
  { addr := 0x174208, kind := .array 32 16, flds := [MASH_TRT2_FRAC, MASH_TRT2_SEC_HI] },
  { addr := 0x175000, kind := .perMaster, flds := [MASH_NADDR_NODE] },
  { addr := 0x175004, kind := .plain, flds := [MASH_NDATA_VALUE] },
  { addr := 0x175008, kind := .plain, flds := [MASH_NFLAG_SUB, MASH_NFLAG_QUAL] },
  { addr := 0x176000, kind := .perMaster, flds := [MASH_TUNEIDX_IDX] },
  { addr := 0x176004, kind := .plain, flds := [MASH_TUNEDATA_VALUE] }]

/-- Every register of block MASH. -/
def mashRegs : List Reg := mashRegs0 ++ mashRegs1

/-- Registers of block FLT, part 0. -/
def fltRegs0 : List Reg := [
  { addr := 0x102000, kind := .plain, flds := [FLT_SRCSTAT0_FLAG] },
  { addr := 0x102004, kind := .plain, flds := [FLT_SRCSTAT1_FLAG] },
  { addr := 0x102008, kind := .plain, flds := [FLT_SRCLIVE0_LIVE] },
  { addr := 0x10200c, kind := .plain, flds := [FLT_SRCLIVE1_LIVE] },
  { addr := 0x102010, kind := .perMaster, flds := [FLT_TSIDX_SRC] },
  { addr := 0x102014, kind := .plain, flds := [FLT_TSNS_NS] },
  { addr := 0x102018, kind := .plain, flds := [FLT_TSSEC_SEC_LO] },
  { addr := 0x10201c, kind := .plain, flds := [FLT_TSSECH_SEC_HI] },
  { addr := 0x102020, kind := .plain, flds := [] ++ (List.range 4).map FLT_PINCFG_POL ++ (List.range 4).map FLT_PINCFG_DGL },
  { addr := 0x102024, kind := .plain, flds := [FLT_SWFORCE_FORCE] },
  { addr := 0x102100, kind := .array 8 64, flds := [FLT_GCFG_EN, FLT_GCFG_SAFE, FLT_GCFG_SAFE_T] },
  { addr := 0x102104, kind := .array 8 64, flds := [FLT_GMASK0_MASK] },
  { addr := 0x102108, kind := .array 8 64, flds := [FLT_GMASK1_MASK] },
  { addr := 0x10210c, kind := .array 8 64, flds := [FLT_GCOVER_COVER] },
  { addr := 0x102110, kind := .array 8 64, flds := [] ++ (List.range 16).map FLT_GCODE1A_SAFE1 },
  { addr := 0x102114, kind := .array 8 64, flds := [] ++ (List.range 8).map FLT_GCODE1B_SAFE1 },
  { addr := 0x102118, kind := .array 8 64, flds := [] ++ (List.range 16).map FLT_GCODE2A_SAFE2 },
  { addr := 0x10211c, kind := .array 8 64, flds := [] ++ (List.range 8).map FLT_GCODE2B_SAFE2 },
  { addr := 0x102120, kind := .array 8 64, flds := [FLT_GSTAT_LATCH, FLT_GSTAT_STEP2, FLT_GSTAT_TIE, FLT_GSTAT_SECV, FLT_GSTAT_FIRST, FLT_GSTAT_SECOND] },
  { addr := 0x102124, kind := .array 8 64, flds := [FLT_GCNT_LATCHES] }]

/-- Every register of block FLT. -/
def fltRegs : List Reg := fltRegs0

/-- Registers of block SPR, part 0. -/
def sprRegs0 : List Reg := [
  { addr := 0x120000, kind := .plain, flds := [SPR_CFG_ORDER, SPR_CFG_PHMIN, SPR_CFG_TPP, SPR_CFG_PHEN] },
  { addr := 0x120004, kind := .plain, flds := [SPR_SEL0_IPH1, SPR_SEL0_IPH0, SPR_SEL0_VBAT, SPR_SEL0_VLINK] },
  { addr := 0x120008, kind := .plain, flds := [SPR_SEL1_IPH3, SPR_SEL1_IPH2] },
  { addr := 0x12000c, kind := .plain, flds := [SPR_TIME_WAIT, SPR_TIME_SSTMO] },
  { addr := 0x120010, kind := .plain, flds := [SPR_SHEDCFG_HOLD, SPR_SHEDCFG_SHEDT, SPR_SHEDCFG_WIN] },
  { addr := 0x120014, kind := .plain, flds := [SPR_SENSE_DIV] },
  { addr := 0x120018, kind := .plain, flds := [SPR_SENSEDV_DV] },
  { addr := 0x120020, kind := .plain, flds := [SPR_CTL_COMMIT, SPR_CTL_STOP, SPR_CTL_START] },
  { addr := 0x120024, kind := .plain, flds := [SPR_STAT_STATE, SPR_STAT_TRIPC, SPR_STAT_ACTIVE, SPR_STAT_SHEDDING, SPR_STAT_SUBST, SPR_STAT_ILIM, SPR_STAT_CLATE, SPR_STAT_HOLDOFF, SPR_STAT_CPEND] },
  { addr := 0x120028, kind := .plain, flds := [SPR_PHFAIL_SENSE, SPR_PHFAIL_OPEN] },
  { addr := 0x12002c, kind := .plain, flds := [SPR_EVT_PLIM, SPR_EVT_OPEN, SPR_EVT_SENSEF, SPR_EVT_SHED, SPR_EVT_ABORT, SPR_EVT_ADD, SPR_EVT_TRIP, SPR_EVT_SSDONE] },
  { addr := 0x120030, kind := .plain, flds := [SPR_PLIM_P] },
  { addr := 0x120034, kind := .plain, flds := [SPR_ITOT_I] },
  { addr := 0x120038, kind := .plain, flds := [SPR_PFF_P] },
  { addr := 0x120040, kind := .plain, flds := [SPR_VREF_VREF] },
  { addr := 0x120044, kind := .plain, flds := [SPR_IPHMAX_IPH_MAX] },
  { addr := 0x120048, kind := .plain, flds := [SPR_IPHTRIP_IPH_TRIP] },
  { addr := 0x12004c, kind := .plain, flds := [SPR_VLINKOV_VLINK_OV] },
  { addr := 0x120050, kind := .plain, flds := [SPR_VBATMIN_VBAT_MIN] },
  { addr := 0x120054, kind := .plain, flds := [SPR_VBATMAX_VBAT_MAX] },
  { addr := 0x120058, kind := .plain, flds := [SPR_KV_KV] },
  { addr := 0x12005c, kind := .array 2 4, flds := [SPR_FZ_FZ] },
  { addr := 0x120064, kind := .array 2 4, flds := [SPR_FP_FP] },
  { addr := 0x12006c, kind := .plain, flds := [SPR_KP_KP] }]

/-- Registers of block SPR, part 1. -/
def sprRegs1 : List Reg := [
  { addr := 0x120070, kind := .plain, flds := [SPR_KI_KI] },
  { addr := 0x120074, kind := .plain, flds := [SPR_DMIN_DMIN] },
  { addr := 0x120078, kind := .plain, flds := [SPR_DMAX_DMAX] },
  { addr := 0x12007c, kind := .plain, flds := [SPR_LPH_LPH] },
  { addr := 0x120080, kind := .plain, flds := [SPR_RPH_RPH] },
  { addr := 0x120084, kind := .plain, flds := [SPR_OPENDI_OPEN_DI] },
  { addr := 0x120088, kind := .plain, flds := [SPR_OPENMIN_OPEN_MIN] },
  { addr := 0x12008c, kind := .plain, flds := [SPR_SSRATE_SS_RATE] },
  { addr := 0x120090, kind := .plain, flds := [SPR_SSILIM_SS_ILIM] },
  { addr := 0x120094, kind := .plain, flds := [SPR_SSBAND_SS_BAND] },
  { addr := 0x120098, kind := .plain, flds := [SPR_SHEDLO_SHED_LO] },
  { addr := 0x12009c, kind := .plain, flds := [SPR_SHEDHI_SHED_HI] },
  { addr := 0x1200a0, kind := .plain, flds := [SPR_STEPI_STEP_I] },
  { addr := 0x1200a4, kind := .plain, flds := [SPR_SKIPIN_SKIP_IN] },
  { addr := 0x1200a8, kind := .plain, flds := [SPR_SKIPOUT_SKIP_OUT] },
  { addr := 0x1200ac, kind := .plain, flds := [SPR_SKIPBAND_SKIP_BAND] },
  { addr := 0x1200c0, kind := .array 6 8, flds := [SPR_GAIN_GAIN] },
  { addr := 0x1200c4, kind := .array 6 8, flds := [SPR_OFF_OFFSET] },
  { addr := 0x120100, kind := .array 4 16, flds := [SPR_PHI_I] },
  { addr := 0x120104, kind := .array 4 16, flds := [SPR_PHREF_IREF] },
  { addr := 0x120108, kind := .array 4 16, flds := [SPR_PHD_D] },
  { addr := 0x12010c, kind := .array 4 16, flds := [SPR_PHHAT_IHAT] },
  { addr := 0x120140, kind := .plain, flds := [SPR_CNT0_MISS, SPR_CNT0_CLATE] },
  { addr := 0x120144, kind := .plain, flds := [SPR_CNT1_SKIP, SPR_CNT1_ABORT] }]

/-- Registers of block SPR, part 2. -/
def sprRegs2 : List Reg := [
  { addr := 0x120148, kind := .plain, flds := [SPR_CNT2_TESTFAIL] },
  { addr := 0x120150, kind := .plain, flds := [SPR_ERR_VALID, SPR_ERR_MULTI, SPR_ERR_MASTER, SPR_ERR_STATUS] }]

/-- Every register of block SPR. -/
def sprRegs : List Reg := sprRegs0 ++ sprRegs1 ++ sprRegs2

/-- Registers of block TIM, part 0. -/
def timRegs0 : List Reg := [
  { addr := 0x040000, kind := .plain, flds := [TIM_CFG_TC, TIM_CFG_DOMAIN, TIM_CFG_PORT, TIM_CFG_SRC] },
  { addr := 0x040004, kind := .plain, flds := [TIM_CYC_T] },
  { addr := 0x040008, kind := .plain, flds := [TIM_SERVO_BW, TIM_SERVO_SLEW] },
  { addr := 0x04000c, kind := .plain, flds := [TIM_LOCKCFG_STEPTH, TIM_LOCKCFG_LOCKTH] },
  { addr := 0x040010, kind := .plain, flds := [TIM_HOLD_CELLHOLD] },
  { addr := 0x040020, kind := .plain, flds := [TIM_NOW0_NS] },
  { addr := 0x040024, kind := .plain, flds := [TIM_NOW1_SEC_LO] },
  { addr := 0x040028, kind := .plain, flds := [TIM_NOW2_FRAC, TIM_NOW2_SEC_HI] },
  { addr := 0x04002c, kind := .plain, flds := [TIM_CYCLE_CYCLE] },
  { addr := 0x040030, kind := .plain, flds := [TIM_STAT_LOCK, TIM_STAT_HOLD, TIM_STAT_SLEW, TIM_STAT_FREE, TIM_STAT_REFSID, TIM_STAT_STEPPED] },
  { addr := 0x040034, kind := .plain, flds := [TIM_OFS_OFS] },
  { addr := 0x040038, kind := .plain, flds := [TIM_FREQ_F] },
  { addr := 0x04003c, kind := .plain, flds := [TIM_CNT0_STEPS, TIM_CNT0_SKIP] },
  { addr := 0x040040, kind := .plain, flds := [TIM_CNT1_IGNORED, TIM_CNT1_HOLDS] },
  { addr := 0x040044, kind := .plain, flds := [TIM_ERR_VALID, TIM_ERR_MULTI, TIM_ERR_MASTER, TIM_ERR_STATUS] },
  { addr := 0x040048, kind := .plain, flds := [TIM_CNT2_ECHOLOST, TIM_CNT2_OUTLIER] },
  { addr := 0x040080, kind := .array 3 4, flds := [TIM_PDLY_VALID, TIM_PDLY_DLY] },
  { addr := 0x0400a0, kind := .array 5 4, flds := [TIM_ASYM_ASYM] },
  { addr := 0x0400c0, kind := .array 3 4, flds := [TIM_PEEROFS_OFS] },
  { addr := 0x040100, kind := .array 16 16, flds := [TIM_TRGCFG_EN, TIM_TRGCFG_FIRED, TIM_TRGCFG_SEC_HI] },
  { addr := 0x040104, kind := .array 16 16, flds := [TIM_TRGPER_PER] },
  { addr := 0x040108, kind := .array 16 16, flds := [TIM_TRGNS_NS] },
  { addr := 0x04010c, kind := .array 16 16, flds := [TIM_TRGSEC_SEC_LO] }]

/-- Every register of block TIM. -/
def timRegs : List Reg := timRegs0

/-- Registers of block KILN, part 0. -/
def kilnRegs0 : List Reg := [
  { addr := 0x050000, kind := .plain, flds := [KILN_CFG_TFILT, KILN_CFG_SLOPE, KILN_CFG_STUCK_N] },
  { addr := 0x050008, kind := .plain, flds := [KILN_COMPSEL_REFSNS, KILN_COMPSEL_OSCSNS] },
  { addr := 0x05000c, kind := .plain, flds := [KILN_STAT_LEVEL, KILN_STAT_TRIP, KILN_STAT_CFROZEN, KILN_STAT_RFROZEN, KILN_STAT_TRIPG, KILN_STAT_BROKENG] },
  { addr := 0x050010, kind := .plain, flds := [KILN_EVT_TRIP, KILN_EVT_BROKEN] },
  { addr := 0x050014, kind := .plain, flds := [KILN_FACTOR_F3, KILN_FACTOR_F2, KILN_FACTOR_F1] },
  { addr := 0x050018, kind := .plain, flds := [KILN_SBROKEN0_B] },
  { addr := 0x05001c, kind := .plain, flds := [KILN_SBROKEN1_B] },
  { addr := 0x050020, kind := .plain, flds := [KILN_ERR_VALID, KILN_ERR_MULTI, KILN_ERR_MASTER, KILN_ERR_STATUS] },
  { addr := 0x050024, kind := .plain, flds := [KILN_CNT_BROKEN, KILN_CNT_LEVELUP] },
  { addr := 0x050100, kind := .array 44 4, flds := [KILN_SCFG_EN, KILN_SCFG_KIND, KILN_SCFG_GROUP] },
  { addr := 0x050200, kind := .array 44 4, flds := [KILN_SPAR_HI, KILN_SPAR_LO] },
  { addr := 0x050300, kind := .array 44 4, flds := [KILN_T_BROKEN, KILN_T_WHY, KILN_T_T] },
  { addr := 0x050400, kind := .array 8 16, flds := [KILN_GTH0_TH1, KILN_GTH0_TH2] },
  { addr := 0x050404, kind := .array 8 16, flds := [KILN_GTH1_TH3, KILN_GTH1_TRIP] },
  { addr := 0x050408, kind := .array 8 16, flds := [KILN_GCFG_EN, KILN_GCFG_BT, KILN_GCFG_HYST] },
  { addr := 0x05040c, kind := .array 8 16, flds := [KILN_GVAL_T] }]

/-- Every register of block KILN. -/
def kilnRegs : List Reg := kilnRegs0

/-- Registers of block SEC, part 0. -/
def secRegs0 : List Reg := [
  { addr := 0x060000, kind := .plain, flds := [SEC_STAT_KEYRDY, SEC_STAT_UNLOCKED, SEC_STAT_OTPBUSY, SEC_STAT_SLOTVALID, SEC_STAT_SLOTREV, SEC_STAT_VREV, SEC_STAT_ENRLOCK] },
  { addr := 0x060004, kind := .plain, flds := [SEC_SVN_CFG_SVN, SEC_SVN_FW_SVN] },
  { addr := 0x060008, kind := .plain, flds := [SEC_DBGREM_S] },
  { addr := 0x060010, kind := .plain, flds := [SEC_ERR_VALID, SEC_ERR_MULTI, SEC_ERR_MASTER, SEC_ERR_STATUS] },
  { addr := 0x060020, kind := .array 8 4, flds := [SEC_DBGCHAL_CHAL] },
  { addr := 0x060040, kind := .plain, flds := [SEC_ECC_CORR, SEC_ECC_UNCORR] },
  { addr := 0x060044, kind := .plain, flds := [SEC_ECCLOG_VALID, SEC_ECCLOG_MULTI, SEC_ECCLOG_MEM, SEC_ECCLOG_WORD] },
  { addr := 0x060048, kind := .plain, flds := [SEC_ECCLOGT_NS] },
  { addr := 0x06004c, kind := .plain, flds := [SEC_ECCLOGS_SEC_LO] },
  { addr := 0x060050, kind := .plain, flds := [SEC_SCRUBCFG_PASS] },
  { addr := 0x060054, kind := .plain, flds := [SEC_SCRUBSTAT_BEHIND] },
  { addr := 0x060058, kind := .plain, flds := [SEC_EINJ_ARM, SEC_EINJ_MEM, SEC_EINJ_SYM, SEC_EINJ_SYM2, SEC_EINJ_TWO, SEC_EINJ_PAT] },
  { addr := 0x060060, kind := .plain, flds := [SEC_BISTDONE_DONE] },
  { addr := 0x060070, kind := .plain, flds := [SEC_RETPAIR_RET] },
  { addr := 0x060074, kind := .plain, flds := [SEC_RETADC_RET] },
  { addr := 0x060078, kind := .plain, flds := [SEC_RETLANE_RET] },
  { addr := 0x06007c, kind := .array 2 4, flds := [SEC_RETCAP_RET] },
  { addr := 0x060100, kind := .array 8 4, flds := [SEC_FPR_FPR] },
  { addr := 0x068000, kind := .array 1344 4, flds := [SEC_IDCERT_WORD] }]

/-- Every register of block SEC. -/
def secRegs : List Reg := secRegs0

end Sys2Proof.Machine
end

