-- ==== Sys2Proof/Machine/Store.lean ====
section
/-! DEFINITION. Reading and writing the sparse tables, the register fields and the byte memory. -/

namespace Sys2Proof.Machine

/-- The value at a key, the default where the key is not listed. -/
def smGet {β : Type} (d : β) : SMap β → Nat → β
  | [], _ => d
  | (k', v) :: m, k => if k' = k then v else smGet d m k

/-- The table without a key. -/
def smErase {β : Type} : SMap β → Nat → SMap β
  | [], _ => []
  | (k', v) :: m, k => if k' = k then smErase m k else (k', v) :: smErase m k

/-- Insertion in key order. -/
def smInsert {β : Type} (k : Nat) (v : β) : SMap β → SMap β
  | [] => [(k, v)]
  | (k', v') :: m => if k < k' then (k, v) :: (k', v') :: m else (k', v') :: smInsert k v m

/-- The table with the value at a key; the default is not listed. -/
def smSet {β : Type} [DecidableEq β] (d : β) (m : SMap β) (k : Nat) (v : β) : SMap β :=
  if v = d then smErase m k else smInsert k v (smErase m k)

/-- The table with a key's value changed by a function. -/
def smMod {β : Type} [DecidableEq β] (d : β) (m : SMap β) (k : Nat) (f : β → β) : SMap β :=
  smSet d m k (f (smGet d m k))

/-- The keys are strictly rising. -/
def smRising {β : Type} : SMap β → Bool
  | [] => true
  | [_] => true
  | a :: b :: m => decide (a.1 < b.1) && smRising (b :: m)

/-- The canonical form: keys strictly rising, no default listed. -/
def smWf {β : Type} [DecidableEq β] (d : β) (m : SMap β) : Bool :=
  smRising m && m.all (fun e => decide (e.2 ≠ d))

/-- The key under which a field's instance stands. -/
def Fld.key (F : Fld) (i : Nat) : Nat := (F.addr * 32 + F.lo) * 2048 + i

/-- The bus address and the instance of a key. -/
def keyAddr (k : Nat) : Nat := k / 65536
def keyInst (k : Nat) : Nat := k % 2048

/-- A field instance's value on reset. -/
def Fld.resetAt (F : Fld) (i : Nat) : Nat := if i < F.split then F.early else F.reset

/-- Read a field (of a staged field: the value last written, R6). -/
def State.fget (s : State) (F : Fld) (i : Nat := 0) : Nat := smGet (F.resetAt i) s.regs (F.key i)

/-- Write a field, modulo its width. -/
def State.fset (s : State) (F : Fld) (i : Nat) (v : Nat) : State :=
  { s with regs := smSet (F.resetAt i) s.regs (F.key i) (v % 2 ^ F.width) }

/-- The effective value of a staged field (R7). -/
def State.eget (s : State) (F : Fld) (i : Nat := 0) : Nat := smGet (F.resetAt i) s.eff (F.key i)

/-- Make a value effective. -/
def State.eset (s : State) (F : Fld) (i : Nat) (v : Nat) : State :=
  { s with eff := smSet (F.resetAt i) s.eff (F.key i) (v % 2 ^ F.width) }

/-- A flag field as a Bool. -/
def State.flag (s : State) (F : Fld) (i : Nat := 0) : Bool := s.fget F i == 1

/-- Add to a counter field, held at its largest value. -/
def State.satAdd (s : State) (F : Fld) (i : Nat) (n : Nat := 1) : State :=
  s.fset F i (min (s.fget F i + n) (2 ^ F.width - 1))

/-- Write several fields, in order. -/
def State.fsets (s : State) : List (Fld × Nat × Nat) → State
  | [] => s
  | (F, i, v) :: l => (s.fset F i v).fsets l

/-- Put every register whose address and instance satisfy a test back to its reset value, effective values
included. -/
def State.resetRegs (s : State) (p : Nat → Nat → Bool) : State :=
  { s with
    regs := s.regs.filter (fun e => !p (keyAddr e.1) (keyInst e.1))
    eff := s.eff.filter (fun e => !p (keyAddr e.1) (keyInst e.1)) }

/-- One byte of the addressed memory (grist, cask and trace windows). An unlisted byte reads 0 (R37). -/
def State.byte (s : State) (a : Nat) : BitVec 8 := smGet 0#8 s.mem a

/-- Write one byte. -/
def State.setByte (s : State) (a : Nat) (b : BitVec 8) : State := { s with mem := smSet 0#8 s.mem a b }

/-- The canonical form of the memory. -/
def memWf (m : List Host.Cell) : Bool := smWf 0#8 m

/-- Memory bytes, little-endian, as a number. -/
def State.mread (s : State) (a : Nat) : Nat → Nat
  | 0 => 0
  | n + 1 => (s.byte a).toNat + 256 * s.mread (a + 1) n

/-- Write `n` bytes of a number, little-endian. -/
def State.mwrite (s : State) (a : Nat) : Nat → Nat → State
  | 0, _ => s
  | n + 1, v => (s.setByte a (BitVec.ofNat 8 v)).mwrite (a + 1) n (v / 256)

/-- Forget every byte of an address range: it reads 0 (R37, R38). -/
def State.clearMem (s : State) (lo hi : Nat) : State :=
  { s with mem := s.mem.filter (fun c => !(decide (lo ≤ c.1) && decide (c.1 < hi))) }

/-- Move the elapsed clock forward to an event's instant; it never goes back. -/
def State.at (s : State) (t : Time) : State := { s with clk := max s.clk t }

end Sys2Proof.Machine
end

