-- ==== Sys2Proof/Machine/Ops.lean ====
section
/-! DEFINITION. Operations that many commands share: status codes and their order (R11, R12), the device state
(R30), power domains (R27, R40), block error registers, network time, the access tables (R90 to R92), and the
change journal (R93 to R95). -/

namespace Sys2Proof.Machine

/-- Status codes (Table 0.4). -/
inductive Status where
  | ok | busy | denied | badLength | zeroNotAllowed | absentUnit | stale | sigFail | conflict | range
  | notInRole | leaseRequired
  deriving DecidableEq, Repr

/-- The code of a status (Table 0.4). -/
def Status.code : Status → Nat
  | .ok => 0 | .busy => 1 | .denied => 2 | .badLength => 3 | .zeroNotAllowed => 4 | .absentUnit => 5 | .stale => 6
  | .sigFail => 7 | .conflict => 8 | .range => 9 | .notInRole => 10 | .leaseRequired => 11

/-- The place of a status in the order of R12; OK comes last. -/
def Status.rank : Status → Nat
  | .notInRole => 1 | .absentUnit => 2 | .denied => 3 | .leaseRequired => 4 | .badLength => 5
  | .zeroNotAllowed => 6 | .range => 7 | .sigFail => 8 | .stale => 9 | .conflict => 10 | .busy => 11 | .ok => 12

/-- The first failure that applies, in the order of R12. -/
def firstStatus : List Status → Status
  | [] => .ok
  | a :: l => let b := firstStatus l; if a.rank ≤ b.rank then a else b

/-- A check: its status when it fails, OK otherwise. -/
def chk (bad : Bool) (st : Status) : Status := if bad then st else .ok

/-- Keep the entries of a table whose key satisfies a test. -/
def smKeep {β : Type} (m : SMap β) (p : Nat → Bool) : SMap β := m.filter (fun e => p e.1)

/-! ## Role, state, domains -/

/-- The device has stack role (R29). -/
def isStack (s : State) : Bool := s.flag SYS_STRAP_ROLE
/-- The stack identity sampled (R2). -/
def ownSid (s : State) : Nat := s.fget SYS_STRAP_SID
/-- The device's own state code (Table 1.8). -/
def devState (s : State) : Nat := s.fget SYS_STATE_STATE

/-- State codes (Table 1.8). -/
def ST_BOOT : Nat := 1
def ST_ENUMERATE : Nat := 2
def ST_TIME_LOCK : Nat := 3
def ST_PITCH : Nat := 4
def ST_RUN : Nat := 5
def ST_DEGRADED : Nat := 6
def ST_SAFE : Nat := 7
def ST_JOINED : Nat := 9
def ST_READY : Nat := 10
def ST_PRECHARGED : Nat := 11
def ST_CRUN : Nat := 12
def ST_COAST : Nat := 13
def ST_CSAFE : Nat := 14
def ST_BYPASSED : Nat := 15

/-- Cause codes (Table 1.9). -/
def CA_NONE : Nat := 0
def CA_COMMAND : Nat := 1
def CA_STREAMS : Nat := 2
def CA_FAULT : Nat := 3
def CA_SELFCHECK : Nat := 4
def CA_LANE : Nat := 5
def CA_PEER : Nat := 6
def CA_KILN : Nat := 7
def CA_TIME : Nat := 8
def CA_CONFIG : Nat := 9
def CA_TOPOLOGY : Nat := 10
def CA_BYPASS_FAIL : Nat := 11

/-- One change of the device's own state (R30). -/
def setDev (s : State) (st cause : Nat) : State :=
  s.fsets [(SYS_STATE_TRANS_CNT, 0, s.fget SYS_STATE_TRANS_CNT + 1), (SYS_STATE_PREV, 0, devState s),
    (SYS_STATE_CAUSE, 0, cause), (SYS_STATE_STATE, 0, st)]

/-- Record a cause without a change of state. -/
def setCause (s : State) (cause : Nat) : State := s.fset SYS_STATE_CAUSE 0 cause

/-- A stack in PITCH, RUN or DEGRADED, or a cell in PRECHARGED, RUN or COAST (R41, R382). -/
def inService (s : State) : Bool :=
  if isStack s then devState s == ST_PITCH || devState s == ST_RUN || devState s == ST_DEGRADED
  else devState s == ST_PRECHARGED || devState s == ST_CRUN || devState s == ST_COAST

/-- EXTEST, CLAMP or HIGHZ is the TAP's current instruction: PWM and GD enable writes are refused (R410). -/
def scanHolds (s : State) : Bool := s.jtag.ir == .extest || s.jtag.ir == .clamp || s.jtag.ir == .highz

/-- The configuration in force, if any. -/
def cfgOf (s : State) : CfgBody := match s.sys.cfg with | some i => i.cfg | none => {}
/-- A configuration image is in force. -/
def cfgInForce (s : State) : Bool := s.sys.cfg.isSome
/-- The shipped bills are in force, and with them every rule of Chapter 6 (R155). -/
def shippedCfg (s : State) : Bool := cfgInForce s && (cfgOf s).ctrl.shipped
/-- The image in force uses a retired domain or instance (R384). -/
def usesRetired (s : State) : Bool :=
  let b := cfgOf s
  (b.usesDom &&& s.fget SYS_RETIRED_RETIRED) != 0 || (b.usesPair &&& s.fget SEC_RETPAIR_RET) != 0
    || (b.usesAdc &&& s.fget SEC_RETADC_RET) != 0 || (b.usesLane &&& s.fget SEC_RETLANE_RET) != 0
    || (b.usesCap &&& (s.fget SEC_RETCAP_RET 0 + s.fget SEC_RETCAP_RET 1 * 2 ^ 32)) != 0

/-- The image in force uses a domain, or an instance in it. -/
def usesDomain (s : State) (d : Nat) : Bool :=
  let b := cfgOf s
  bit b.usesDom d || (d == 3 && b.usesCap != 0) || (d == 5 && b.usesAdc % 256 != 0) || (d == 6 && b.usesAdc / 256 != 0)
    || (d == 7 && b.usesPair % 64 != 0) || (d == 8 && b.usesPair / 64 != 0)
    || (10 ≤ d && bits b.usesLane (4 * (d - 10)) 4 != 0)
/-- A domain that the image in force uses, and that the firmware has requested, has not ended its first test (R384). -/
def usesUntested (s : State) : Bool :=
  (List.range' 1 16).any (fun d => usesDomain s d && bit (s.fget PWR_DOMCTL_REQ) (d - 1) && !bit (s.fget SEC_BISTDONE_DONE) d
    && !bit (s.fget SYS_RETIRED_RETIRED) d)
/-- CHAIN_LEN of a chain. -/
def chainLen (s : State) (k : Nat) : Nat := (cfgOf s).topo.chainLen.getD k 0

/-- Table 1.5 and R27: the role uses a power domain. A stack's quad whose four chains all have length 0 is not used;
before a configuration is in force every chain quad may be. -/
def roleUses (s : State) (d : Nat) : Bool :=
  if isStack s then
    if d == 6 || d == 7 || d == 8 || d == 9 then false
    else if 10 ≤ d && d ≤ 15 then
      !cfgInForce s || [0, 1, 2, 3].any (fun j => chainLen s (4 * (d - 10) + j) != 0)
    else true
  else if 12 ≤ d then false else true

/-- PWR_DOMSTAT.ON of a domain. -/
def domOn (s : State) (d : Nat) : Bool := bit (s.fget PWR_DOMSTAT_ON) d
/-- SYS_RETIRED of a domain. -/
def domRetired (s : State) (d : Nat) : Bool := bit (s.fget SYS_RETIRED_RETIRED) d
/-- PWR_DOMCTL.REQ of a domain, 1 to 16. -/
def domReq (s : State) (d : Nat) : Bool := bit (s.fget PWR_DOMCTL_REQ) (d - 1)
/-- The domain is in transition. -/
def domMoving (s : State) (d : Nat) : Bool := match s.sys.domBusy with | some (e, _) => e == d | none => false

/-- The status of an access to a domain (R40): OK while it is on and accepts accesses. A domain that was never requested,
or whose request still waits to be served, answers CONFLICT like one switched off by request (DESIGN CHOICE,
assumption 50: Table R40 has no row for it). A domain is in transition until its first self-test has ended and the firmware
releases it for use (R383; DEDUCED, assumption 50: PWR_DOMSTAT.ON stands before, by the on-times of Table 2.3). -/
def domStatus (s : State) (d : Nat) : Status :=
  if d == 0 then .ok
  else if !roleUses s d then .notInRole
  else if domRetired s d then .absentUnit
  else if domMoving s d || bit s.sys.testing d then .busy
  else if domOn s d then .ok else .conflict

/-- A block's error register: VALID and MULTI flags, and the fields of the first record (Tables 2.7, 3.20 and the
like). -/
def recErr (s : State) (V M : Fld) (sets : List (Fld × Nat × Nat)) : State :=
  if s.flag V then s.fset M 0 1 else (s.fset V 0 1).fsets sets

/-- Record a domain's refusal in PWR_ERR (R40, R41). -/
def pwrErr (s : State) (d : Nat) (st : Status) : State :=
  recErr s PWR_ERR_VALID PWR_ERR_MULTI [(PWR_ERR_DOM, 0, d), (PWR_ERR_STATUS, 0, st.code)]

/-- Record a refused access in ACC_ERR (R67). -/
def accErr (s : State) (m a : Nat) (st : Status) : State :=
  recErr s ACC_ERR_VALID ACC_ERR_MULTI
    [(ACC_ERR_MASTER, 0, m), (ACC_ERR_STATUS, 0, st.code), (ACC_ERRADDR_ADDR, 0, a)]

/-- A free value (assumption 4), and the state after it is drawn. -/
def drawFree (s : State) : Nat × State := (Config.freeWord s.free, { s with free := s.free + 1 })

/-- A crossing whose cost the spec leaves between two bounds (R43): a free value within them (assumption 4). -/
def drawBetween (s : State) (lo hi : Time) : Time × State :=
  let (v, s) := drawFree s
  (lo + v % (hi - lo + 1), s)

/-- The MAC address of an Ethernet port: each port has its own (R83, assumption 4). -/
def portMac (p : Nat) : Nat :=
  let a := Config.mac0 % 2 ^ 48
  let b := Config.mac1 % 2 ^ 48
  if p == 0 then a else if b == a then (a + 1) % 2 ^ 48 else b

/-! ## Network time -/

/-- Network time now, in units of 2⁻¹⁶ ns (R295). -/
def netTime (s : State) : Nat :=
  (s.tim.base + ((s.clk - s.tim.at_ : Nat) : Int) * (256000000000 + s.tim.rate) / 256000000000).toNat
/-- An event due at a network time takes place in the first clock of its unit from then on; `slack` is one such clock. An
event command at any other instant names no event of the machine (assumption 51). -/
def dueAt (s : State) (target slack : Nat) : Bool := decide (target ≤ netTime s) && decide (netTime s < target + slack)

/-- The domains that hold a replica of network time (R44). -/
def hasReplica (d : Nat) : Bool := [3, 5, 6, 7, 8].contains d || 10 ≤ d
/-- Network time at an elapsed instant. -/
def netAt (s : State) (c : Time) : Int :=
  s.tim.base + ((c : Int) - s.tim.at_) * (256000000000 + s.tim.rate) / 256000000000
/-- An elapsed instant as a domain's replica shows it (R44). -/
def repAt (s : State) (d : Nat) (c : Time) : Nat := (netAt s c + smGet 0 s.sys.repl d).toNat
/-- Network time as a domain's replica shows it; a domain without one uses TIM's own (R44). -/
def repTime (s : State) (d : Nat) : Nat := ((netTime s : Nat) + smGet 0 s.sys.repl d : Int).toNat
/-- Seconds, nanoseconds and the fraction of a network time. -/
def secOf (t : Nat) : Nat := t / 65536 / 1000000000
def nsOf (t : Nat) : Nat := t / 65536 % 1000000000
def fracOf (t : Nat) : Nat := t % 65536
/-- The stack cycle counter. -/
def cycleNow (s : State) : Nat := s.fget TIM_CYCLE_CYCLE

/-! ## Address map (Table 3.2) -/

/-- A block of the base map. -/
inductive Blk where
  | sys | mbx | acc | pwr | tim | kiln | sec | pwm | gd | spr | adc | lnk | vote | cap | mash | pt | grist | cask | trace
  deriving DecidableEq, Repr

/-- The block that decodes an address, if any (R65). -/
def blkOf (a : Nat) : Option Blk :=
  if 0x01000000 ≤ a && a < 0x01400000 then some .grist
  else if 0x02000000 ≤ a && a < 0x03000000 then some .cask
  else if 0x03000000 ≤ a && a < 0x03100000 then some .trace
  else match a / 65536 with
    | 0 => some .sys | 1 => some .mbx | 2 => some .acc | 3 => some .pwr | 4 => some .tim | 5 => some .kiln
    | 6 => some .sec | 16 => some .pwm | 17 => some .gd | 18 => some .spr | 19 => some .adc | 20 => some .lnk
    | 21 => some .vote | 22 => some .cap | 23 => some .mash | 24 => some .pt | _ => none

/-- The registers of a block. -/
def blkRegs : Blk → List Reg
  | .sys => sysRegs | .mbx => mbxRegs | .acc => accRegs | .pwr => pwrRegs ++ clkRegs | .tim => timRegs
  | .kiln => kilnRegs | .sec => secRegs | .pwm => pwmRegs ++ fltRegs | .gd => gdRegs | .spr => sprRegs
  | .adc => adcRegs | .lnk => lnkRegs | .vote => voteRegs | .cap => capRegs | .mash => mashRegs | .pt => ptRegs
  | .grist => [] | .cask => [] | .trace => []

/-- The window's instance limit (Table 3.8), and its BLK_CHSEL. -/
def blkWindow : Blk → Option (Nat × Fld)
  | .pwm => some (12, PWM_CHSEL_CH) | .gd => some (24, GD_CHSEL_CH) | .adc => some (16, ADC_CHSEL_CH)
  | .lnk => some (28, LNK_CHSEL_CH) | .cap => some (64, CAP_CHSEL_CH) | .vote => some (192, VOTE_CHSEL_CH)
  | _ => none

/-- The instance that the master's BLK_CHSEL selects. -/
def chsel (s : State) (b : Blk) (m : Nat) : Nat :=
  match blkWindow b with | some (_, F) => s.fget F m | none => 0

/-- The address lies in the block's window (R69). -/
def inWindow (b : Blk) (a : Nat) : Bool :=
  (blkWindow b).isSome && decide (0x100 ≤ a % 65536) && decide (a % 65536 < 0x1000)

/-- The domain of an instance (Table 3.8). -/
def instDom (b : Blk) (i : Nat) : Nat :=
  match b with
  | .pwm => if i < 6 then 7 else 8
  | .gd => if i < 12 then 7 else 8
  | .adc => if i < 8 then 5 else 6
  | .lnk => 10 + i / 4
  | .cap => 3
  | _ => 0

/-- The alias registers of PWM pairs reach pair (offset − 0x1400) / 0x10 (Table 7.6). -/
def pwmAlias (a : Nat) : Option Nat :=
  let o := a % 65536
  if a / 65536 == 16 && decide (0x1400 ≤ o) && decide (o < 0x14c0) && o % 16 < 12 then some ((o - 0x1400) / 16)
  else none

/-- The domain that answers LNK's BLK_CHSEL: the lowest quad that is powered, since each lane's registers stay reachable with
PD10 off (R294; DEDUCED, assumption 54). -/
def lnkSelDom (s : State) : Nat := ((List.range' 10 7).find? (domOn s)).getD 10

/-- The domain that answers an address (R65): the instance's in a window, the lowest of the block elsewhere. -/
def addrDom (s : State) (m a : Nat) : Nat :=
  match blkOf a with
  | none => 0
  | some b =>
    match pwmAlias a with
    | some p => instDom .pwm p
    | none =>
      if inWindow b a then instDom b (chsel s b m)
      else match b with
        | .pwm | .gd => 7 | .spr => 9 | .adc => 5 | .cap => 3 | .mash => 1 | .pt => 2
        | .lnk => if a % 65536 == 0 then lnkSelDom s else 10
        | .grist => 2 | .cask => 3 | .trace => 4
        | _ => 0

/-- An instance retired by self-test (Table 16.2). -/
def instRetired (s : State) (b : Blk) (i : Nat) : Bool :=
  match b with
  | .pwm => bit (s.fget SEC_RETPAIR_RET) i
  | .gd => bit (s.fget SEC_RETPAIR_RET) (i / 2)
  | .adc => bit (s.fget SEC_RETADC_RET) i
  | .lnk => bit (s.fget SEC_RETLANE_RET) i
  | .cap => bit (s.fget SEC_RETCAP_RET (i / 32)) (i % 32)
  | _ => false

/-- The status of an instance: its domain's (R40), its own retirement (R70), and the role for cell descriptors. -/
def instStatus (s : State) (b : Blk) (i : Nat) : Status :=
  if b == .vote && !isStack s then .notInRole
  else firstStatus [domStatus s (instDom b i), chk (instRetired s b i) .absentUnit]

/-! ## Access tables -/

/-- The rights C, W, R of a master that Table 3.21 gives for a block: bit 0 R, bit 1 W, bit 2 C. -/
def defaultRights (stack : Bool) (m : Nat) (b : Blk) : Nat :=
  if m == 0 then 7
  else if m == 1 then
    (if b == .sec then 0 else 1) + (if b == .mbx || b == .sys || b == .sec then 2 else 0)
      + (if b == .sec then 4 else 0)
  else if 4 ≤ m && m ≤ 6 then
    if stack then 0 else (if b == .sec then 0 else 1) + (if b == .mbx then 2 else 0)
  else if m == 7 then
    (if [Blk.adc, .tim, .vote, .pt, .grist, .trace].contains b then 1 else 0)
      + (if [Blk.pwm, .gd, .spr, .pt, .grist, .trace].contains b then 2 else 0)
      + (if b == .pwm || b == .spr then 4 else 0)
  else if m == 8 then
    (if [Blk.adc, .tim, .pt, .grist, .trace].contains b then 1 else 0)
      + (if b == .cap || b == .cask then 2 else 0)
  else 0

/-- The regions that Table 3.21 journals. -/
def defaultJ (b : Blk) : Bool := [Blk.sys, .acc, .pwr, .sec, .kiln, .vote, .pwm, .gd].contains b

/-- The rights that the debug token in force gives M3 on a block (Table 16.8). -/
def m3Rights (s : State) (b : Blk) : Nat :=
  if b == .acc then 0 else if b == .sec then s.mbx.m3 / 8 % 2 else s.mbx.m3 % 8

/-- The ACC_RIGHTS word of a region (Table 3.19): the table of the configuration image, or Table 3.21. M3's field holds
the rights that the debug token in force wrote (R89), or what M0 has written there since (R91). -/
def accWord (s : State) (region : Nat) : Nat :=
  match blkOf (region * 4096) with
  | none => 0
  | some b =>
    let dflt := if s.mbx.accImg then 7 else
      (List.range 9).foldl (fun w m => w + defaultRights (isStack s) m b * 8 ^ m) 0
        + (if defaultJ b then 2 ^ 31 else 0)
    let w := smGet dflt s.mbx.accTab region
    let w := w - bits w 9 3 * 512 + smGet (m3Rights s b) s.mbx.m3w region % 8 * 512
    if b == .acc || b == .sec then putBit w 31 true else w

/-- The rights that hold for an access: the table's, M0's, the fixed rights of M3, which alone hold until debug is
unlocked (R89), the debug challenge (R394). -/
def rightsOf (s : State) (m a : Nat) : Nat :=
  match blkOf a with
  | none => 0
  | some b =>
    if m == 0 then 7
    else
      let tab := if m == 3 && !s.flag SEC_STAT_UNLOCKED then 0 else bits (accWord s (a / 4096)) (3 * m) 3
      let fixed := if m == 3 then (if b == .sys then 1 else if b == .mbx then 3 else 0) else 0
      let chal := if b == .sec && decide (0x60020 ≤ a) && decide (a < 0x60040) then 1 else 0
      tab ||| fixed ||| chal

/-- R, W and C (bit 0, 1, 2) of a master on an address. -/
def hasRight (s : State) (m a n : Nat) : Bool := bit (rightsOf s m a) n

/-- The region is journaled (R93). -/
def journaled (s : State) (a : Nat) : Bool := bit (accWord s (a / 4096)) 31

/-! ## Memory code (R378, R381, R382) -/

/-- Where a memory word's symbol errors stand, and the errors: symbol and pattern. -/
def eccKey (mem word : Nat) : Nat := mem * 2 ^ 20 + word
def eccSyms (s : State) (mem word : Nat) : List (Nat × Nat) := smGet [] s.sec.ecc (eccKey mem word)

/-- A memory word is stored whole with fresh check bits; an armed injection for that memory corrupts it and disarms
(R382). -/
def eccStored (s : State) (mem word : Nat) : State :=
  let armed := s.flag SEC_EINJ_ARM && s.fget SEC_EINJ_MEM == mem
  let pat := s.fget SEC_EINJ_PAT
  let bad := if !armed then [] else
    (s.fget SEC_EINJ_SYM, pat) :: (if s.flag SEC_EINJ_TWO then [(s.fget SEC_EINJ_SYM2, pat)] else [])
  let s := { s with sec.ecc := smSet [] s.sec.ecc (eccKey mem word) bad }
  if armed then s.fset SEC_EINJ_ARM 0 0 else s

/-- A corrected error is counted in SEC_ECC and in the owning block (R381). -/
def eccCorr (s : State) (mem : Nat) : State :=
  let s := s.satAdd SEC_ECC_CORR 0
  if mem == 5 || mem == 6 then s.satAdd PT_ECC_CORR 0
  else if 2 ≤ mem && mem ≤ 4 then s.satAdd MASH_ECC_CORR 0 else s

/-- The PD0 clock, 600 MHz, in which an instant lies. -/
def pd2Clk (t : Time) : Nat := t / (2 * nsT)
def pd0Clk (t : Time) : Nat := t * 3 / (5 * nsT)

/-- An uncorrectable error is counted, and the first since SEC_ECCLOG.VALID was cleared is logged; among errors of one
PD0 clock the lowest memory (R381). -/
def eccUncorr (s : State) (mem word : Nat) : State :=
  let s := s.satAdd SEC_ECC_UNCORR 0
  let s := if mem == 5 || mem == 6 then s.satAdd PT_ECC_UNCORR 0
    else if 2 ≤ mem && mem ≤ 4 then s.satAdd MASH_ECC_UNCORR 0 else s
  let put (s : State) := { s.fsets [(SEC_ECCLOG_MEM, 0, mem), (SEC_ECCLOG_WORD, 0, word),
    (SEC_ECCLOGT_NS, 0, nsOf (netTime s)), (SEC_ECCLOGS_SEC_LO, 0, secOf (netTime s))] with sec.eccAt := s.clk }
  if !s.flag SEC_ECCLOG_VALID then put (s.fset SEC_ECCLOG_VALID 0 1)
  else
    let s := s.fset SEC_ECCLOG_MULTI 0 1
    if pd0Clk s.sec.eccAt == pd0Clk s.clk && mem < s.fget SEC_ECCLOG_MEM then put s else s

/-- A read, or the read of a partial write, of a word: an error in one symbol is corrected and written back, more are
uncorrectable (R378, R379). Answers whether the word is uncorrectable, logged and counted. -/
def eccFetch (s : State) (mem word : Nat) : Bool × State :=
  match eccSyms s mem word with
  | [] => (false, s)
  | [_] => (false, eccStored (eccCorr s mem) mem word)
  | _ => (true, eccUncorr s mem word)

/-! ## Change journal -/

/-- Entries unread. -/
def jnlUnread (s : State) : Nat := s.fget ACC_JNLCNT_UNREAD

/-- With STOP at 1 a full journal refuses what would need an entry (R94): the entries of accepted commands that wait for
their answers have their room. -/
def jnlFull (s : State) : Bool := s.flag ACC_JNLCFG_STOP && decide (4096 ≤ jnlUnread s + s.mbx.jnlHeld.length)

/-- An entry's word 0 takes the entry number of another's. -/
def jnlRenum (e o : List Nat) : List Nat := e.set 0 (e.getD 0 0 / 65536 * 65536 + o.getD 0 0 % 65536)

/-- The entry at index `h` goes before those of the `n` entries before it that higher masters made; each place keeps its
entry number. -/
def jnlSort (j : SMap (List Nat)) : Nat → Nat → SMap (List Nat)
  | 0, _ => j
  | n + 1, h =>
    let p := (h + 4095) % 4096
    let a := smGet [] j p
    let b := smGet [] j h
    if b.getD 0 0 / 2 ^ 28 < a.getD 0 0 / 2 ^ 28 then
      jnlSort (smSet [] (smSet [] j p (jnlRenum b a)) h (jnlRenum a b)) n p
    else j

/-- Make one journal entry (Table 3.22): words 4 to 7 are the network time and the cycle. Writes of one PD0 clock stand in
ascending master number (R93). -/
def jnlAdd (s : State) (m kind st addr old new : Nat) : State :=
  let h := s.fget ACC_JNLHEAD_HEAD
  let t := netTime s
  let e := [m * 2 ^ 28 + kind * 2 ^ 24 + st % 256 * 2 ^ 16 + s.mbx.jnlNum % 65536, addr, old, new,
    secOf t % 2 ^ 32, fracOf t * 65536 + secOf t / 2 ^ 32 % 65536, nsOf t, cycleNow s]
  let clk := pd0Clk s.clk + 1
  let run := if kind ≤ 1 && s.mbx.jnlClk == clk then s.mbx.jnlRun else 0
  let jnl := jnlSort (smSet [] s.mbx.jnl h e) run h
  let s := { s with mbx := { s.mbx with
    jnl, jnlNum := s.mbx.jnlNum + 1, jnlClk := clk, jnlRun := if kind ≤ 1 then run + 1 else 0 } }
  let s := eccStored s 1 h
  let s := s.fset ACC_JNLHEAD_HEAD 0 (h + 1)
  if jnlUnread s == 4096 then s.satAdd ACC_JNLCNT_LOST 0 else s.fset ACC_JNLCNT_UNREAD 0 (jnlUnread s + 1)

/-- Mark the `n` oldest unread entries as read; a count above UNREAD is refused with RANGE (R95). -/
def jnlFree (s : State) (n : Nat) : Status × State :=
  if jnlUnread s < n then (.range, s) else (.ok, s.fset ACC_JNLCNT_UNREAD 0 (jnlUnread s - n))

/-! ## Register lookup -/

/-- The instance at which an address reaches an array register. -/
def arrayInst (a base count stride : Nat) : Option Nat :=
  if base ≤ a && a < base + count * stride && (a - base) % stride == 0 then some ((a - base) / stride) else none

/-- The instance under which a master's access at an address reaches a register, if it does; a mask table's registers
stand for the table that the master's CAP_MTIDX selects (R368). -/
def regInst (s : State) (b : Blk) (m a : Nat) (r : Reg) : Option Nat :=
  match r.kind with
  | .plain => if a = r.addr then some (if a = 0x161104 || a = 0x161108 then s.fget CAP_MTIDX_TAB m else 0) else none
  | .perMaster => if a = r.addr then some m else none
  | .mbx => (arrayInst a r.addr 8 16).map (fun n => m * 8 + n)
  | .window =>
    match pwmAlias a with
    | some p =>
      if r.addr = 0x100108 + 4 * (a % 16 / 4) then some p else none
    | none => if a = r.addr then some (chsel s b m) else none
  | .array n st => arrayInst a r.addr n st
  | .winArray n st => (arrayInst a r.addr n st).map (fun j => chsel s b m * n + j)

/-- The register that an access reaches and its instance. -/
def findReg (s : State) (b : Blk) (m a : Nat) : List Reg → Option (Reg × Nat)
  | [] => none
  | r :: l => match regInst s b m a r with | some i => some (r, i) | none => findReg s b m a l

/-- The bits of a register's word that its field table lists. -/
def listedBits (r : Reg) : Nat := r.flds.foldl (fun w F => w ||| ((2 ^ F.width - 1) * 2 ^ F.lo)) 0

/-- A register's word as a read returns it: WO fields read 0 (R6). -/
def regWord (s : State) (r : Reg) (i : Nat) : Nat :=
  r.flds.foldl (fun w F => w + (if F.acc == .wo then 0 else s.fget F i) * 2 ^ F.lo) 0

end Sys2Proof.Machine
end

