-- ==== Sys2Proof/Machine/View.lean ====
section
/-! DEFINITION. What a read of each register and window returns to a master (R6, R66, R71, R93, R94, R106, R154, R206, R255,
R314): the values, without what the read changes. -/

namespace Sys2Proof.Machine

/-! ## The parts of state that reads show -/

/-- One counter clock of 1.25 ns, in units of 2⁻¹⁶ ns. -/
def clkT : Nat := 81920
/-- A pair generator beside its registers. -/
def pwmOf (s : State) (p : Nat) : PwmPair := smGet {} s.pwm p
/-- The counter value of a running pair at the current instant (R185, R190). -/
def pwmCount (s : State) (p : Nat) : Nat :=
  let x := pwmOf s p
  let per := s.fget PWM_EPER_PER p
  let pos := (((s.clk - x.valley : Nat) : Int) - x.corr).toNat / clkT
  if !s.flag PWM_STAT_RUN p then 0 else if pos ≤ per then pos else 2 * per - pos

/-- A time trigger beside its registers. -/
def trigOf (s : State) (n : Nat) : TrigSt := smGet {} s.tim.trig n
/-- The one-shot instant of trigger n. -/
def oneShot (s : State) (n : Nat) : Nat :=
  ((s.fget TIM_TRGCFG_SEC_HI n * 2 ^ 32 + s.fget TIM_TRGSEC_SEC_LO n) * 1000000000 + s.fget TIM_TRGNS_NS n) * 65536
/-- The sources that are live now: a pulse ends one clock of its island after it began (R198). -/
def liveNow (s : State) : Nat :=
  s.flt.pulse.foldl (fun w e => if e.2 ≤ s.clk then putBit w e.1 false else w) s.flt.live
/-- The stamp that FLT_TSNS, FLT_TSSEC and FLT_TSSECH show for the master (R206). -/
def fltStamp (s : State) (m : Nat) : Nat := smGet 0 s.flt.stamp (s.fget FLT_TSIDX_SRC m)
/-- A change of a time trigger beside its registers. -/
def trigMod (s : State) (n : Nat) (f : TrigSt → TrigSt) : State := { s with tim.trig := smMod {} s.tim.trig n f }

/-- The latest instant of trigger n's schedule that is not later than a network time, plus 1 (R311); 0 when none. -/
def lastInstant (s : State) (n t : Nat) : Nat :=
  let per := s.fget TIM_TRGPER_PER n * 65536
  if per == 0 then if oneShot s n ≤ t then oneShot s n + 1 else 0
  else
    let o := s.fget TIM_TRGNS_NS n * 65536
    if o ≤ t then o + (t - o) / per * per + 1 else 0

/-- Instants of trigger n from `a` (not included) to `b` (not included). -/
def skipCount (s : State) (n a b : Nat) : Nat :=
  let per := s.fget TIM_TRGPER_PER n * 65536
  if per == 0 then b2n (decide (a < oneShot s n) && decide (oneShot s n < b) && !s.flag TIM_TRGCFG_FIRED n)
  else
    let o := s.fget TIM_TRGNS_NS n * 65536
    if a < b then (b - 1 + per - o) / per - (a + per - o) / per else 0

/-- Time on a replica (0: TIM's own) jumps forward from `a` to `b`: the instants of trigger n that it passes over do not fire
(R313). -/
def passOver (d a b : Nat) (s : State) (n : Nat) : State :=
  if (trigOf s n).on && skipCount s n a b != 0 then
    trigMod s n (fun x => { x with last := smSet 0 x.last d (max (smGet 0 x.last d) (lastInstant s n (b - 1))) })
  else s

/-- Seconds of debug unlock left. -/
def dbgRem (s : State) : Nat :=
  match s.sec.unlockEnd with | some e => (e - s.clk + secT - 1) / secT | none => 0

/-- TIM_NOW1 and TIM_NOW2 of a master's latch. -/
def now1 (s : State) (m : Nat) : Nat := secOf (smGet 0 s.tim.now m) % 2 ^ 32
def now2 (s : State) (m : Nat) : Nat := let t := smGet 0 s.tim.now m; fracOf t * 65536 + secOf t / 2 ^ 32 % 65536

/-- The stack holds the lease (R322). -/
def holds (s : State) : Bool := isStack s && s.flag VOTE_LEASE_HELD
/-- A candidate (R323); one that has rejoined becomes it at its next outlet after it is re-racked (R341). -/
def isCand (s : State) : Bool :=
  isStack s && decide (ST_ENUMERATE ≤ devState s) && decide (devState s ≤ ST_DEGRADED) && s.flag TIM_STAT_LOCK
    && (!s.vote.rejoin || (s.flag VOTE_LEASE_RACKED && s.vote.outlet))
/-- The holder in the stack's view of the lease, 3 when none. -/
def viewHolder (s : State) : Nat := s.fget VOTE_LEASE_HOLDER
/-- VOTE_LREM: µs to expiry, own when holding, otherwise of the view. -/
def leaseRem (s : State) : Nat :=
  let exp := if holds s then s.vote.ownExp else s.vote.viewExp
  if !holds s && viewHolder s == 3 then 0 else min ((exp - netTime s) / usT) (2 ^ 24 - 1)

/-- The firmware runs. -/
def fwRuns (s : State) : Bool := s.sys.phase == .firmware && !s.sys.halted

/-- The masters whose mailboxes the MBX block shows (R71). -/
def mbxMaster (m : Nat) : Bool := m == 1 || m == 3

/-! ## Bills and nodes -/

/-- Bill words per bank. -/
def bankWords : Nat := 107520
/-- The active bank. -/
def actBank (s : State) : Nat := s.fget MASH_STAT_ACTIVE
/-- The address register of a bank's data register, per master. -/
def bankAddr (b : Nat) : Fld := if b == 0 then MASH_B0ADDR_ADDR else MASH_B1ADDR_ADDR
/-- Word i of a bank as it was loaded with the shipped bill: the header takes START, DEADLINE and OVR_LIMIT from the control
record, and its FAST_PER is 5,000 ns in a cell (Table 5.2, R174); T_EXPECT is the image's cycle. The spec gives no other word:
they are free values within the ranges of Table 5.2 (assumption 4). -/
def shipW (s : State) (b i : Nat) : Nat :=
  let x := smGet (0, 0) s.mash.shipSeed b
  let w := Config.shipWord x.1 i
  match i with
  | 0 => w / 4096 % 1025 * 65536 + 1 + w % 4096
  | 1 => w % 1025 * 65536
  | 2 => (cfgOf s).ctrl.start
  | 3 => (cfgOf s).ctrl.deadline
  | 4 => if isStack s then 0 else 5000
  | 5 => (cfgOf s).ctrl.ovrLimit
  | 6 => x.2
  | _ => w % 2 ^ 32
/-- Word i of a bank, and parameter word i. -/
def bankW (s : State) (b i : Nat) : Nat :=
  if bit s.mash.shipBank b then
    match smGet 0 s.mash.shipEdit (b * bankWords + i) with | 0 => shipW s b i | w + 1 => w
  else smGet 0 s.mash.bank (b * bankWords + i)
def parW (s : State) (b i : Nat) : Nat := bankW s b (0xa400 + i)
/-- What a bank's data register reads at the master's address. -/
def bankVal (s : State) (m b : Nat) : Nat :=
  let a := s.fget (bankAddr b) m
  if 0x69000 ≤ a then 0 else bankW s b (a / 4)
/-- What MASH_NDATA reads at the master's node; node 1 is the constant 1.0. -/
def nodeVal (s : State) (m : Nat) : Nat :=
  let i := s.fget MASH_NADDR_NODE m
  (if i == 1 then 0x3f800000 else smGet 0 s.mash.nodes i) % 2 ^ 32
/-- What MASH_TUNEDATA reads: the staged value of the master's index, newest first, else the parameter in force (R6). -/
def tuneVal (s : State) (m : Nat) : Nat :=
  let i := s.fget MASH_TUNEIDX_IDX m
  match s.mash.tune.reverse.find? (fun e => e.1 == i) with
  | some e => e.2
  | none => parW s (actBank s) i

/-! ## Conversion results -/

/-- What ADC_RESLOn reads: the word with OVR in bit 11 (R255). -/
def resloVal (s : State) (m i : Nat) : Nat :=
  let e := smGet (0, false) s.adc.fresh (i * 16 + m)
  s.fget ADC_RESLO_WORD i + (if 2 ≤ e.1 || e.2 then 2048 else 0)
/-- What ADC_RESHIn reads: the word latched with its low half, or the live word with TORN. -/
def reshiVal (s : State) (m i : Nat) : Nat :=
  let live := s.fget ADC_RESHI_WORD i + 2 ^ 31
  match smGet none s.adc.latch m with
  | some (j, w) => if j = i then w else live
  | none => live

/-! ## The grist -/

/-- The mask of existing points of a directory entry (Table 4.2). -/
def dValid (e : Nat) : Nat := bits e 32 16

/-- An entry from the fields that are not zero. -/
def mkEntry (rack : Bool) (rate type src valid phase tol dband : Nat) : Nat :=
  b2n rack * 2 ^ 63 + rate * 2 ^ 60 + type * 2 ^ 56 + src * 2 ^ 52 + valid * 2 ^ 32 + phase * 2 ^ 26 + tol * 2 ^ 22
    + dband

/-- The code of a firmware source (Table 4.4). -/
def SRC_SYS : Nat := 2
/-- The hard-wired entries 0 and 1 of a cell; in a stack with SRC TEL (R109). -/
def fixedEntry (src e : Nat) : Nat :=
  if e == 0 then mkEntry false 1 2 src 0x00ff 0 0 0 else mkEntry false 1 4 src 0x01ff 0 0 0

/-- A directory entry as it now reads; in a cell entries 0 and 1 are hard-wired (R109). -/
def dirEnt (s : State) (e : Nat) : Nat :=
  if !isStack s && e < 2 then fixedEntry SRC_SYS e else smGet 0 s.grist.dir e

/-- The number of record slots in the role (R98, R99). -/
def ptSlots (s : State) : Nat := if isStack s then 262144 else 1024
/-- The slot's point exists (R100). -/
def slotValid (s : State) (k : Nat) : Bool := k < ptSlots s && bit (dValid (dirEnt s (k / 16))) (k % 16)
/-- Words of a record (Table 4.1). -/
def recW (s : State) (k i : Nat) : Nat := s.mread (0x01000000 + 16 * k + 4 * i) 4
/-- The slot that a window address reaches, when it lies inside the role's window (R98, R99). -/
def winSlot (s : State) (a : Nat) : Option Nat :=
  let k := (a - 0x01000000) / 16
  if k < ptSlots s then some k else none
/-- The record that a master has latched (R106). -/
def latchOf (s : State) (m : Nat) : Option PtLatch := smGet none s.grist.latch m
/-- What a window word reads: word 0 live, the others as latched with word 0, or live with TORN (R100, R106). -/
def winVal (s : State) (m a : Nat) : Nat :=
  match winSlot s a with
  | none => 0
  | some k =>
    let i := a % 16 / 4
    let live := recW s k i + (if i == 3 then 2 ^ 21 else 0)
    if !slotValid s k then 0
    else if i == 0 then recW s k 0
    else match latchOf s m with
      | some l => if l.slot = k then [0, l.hi, l.tag, l.ctl + b2n l.newer * 2 ^ 20].getD i 0 else live
      | none => live

/-- The cell's fixed chain and position (R17). -/
def portsFixed (s : State) : Bool := s.flag LNK_PORTS_FIXED
def myChain (s : State) : Nat := s.fget LNK_PORTS_CHAIN
def myPos (s : State) : Nat := s.fget LNK_PORTS_POS
/-- This device's number as a trigger origin (R273). -/
def ownOrigin (s : State) : Nat := if isStack s then 192 + ownSid s else myChain s * 8 + myPos s

/-- Fields of a directory entry (Table 4.2). -/
def dRack (e : Nat) : Bool := bit e 63
def dType (e : Nat) : Nat := bits e 56 4
def dSrc (e : Nat) : Nat := bits e 52 4
/-- The source code of converter results (Table 4.4). -/
def SRC_ADC : Nat := 3
/-- The slot of a point number: in a cell only its own points once the index is fixed. -/
def slotOf (s : State) (p : Nat) : Option Nat :=
  if isStack s then (if p < 262144 then some p else none)
  else if p / 1024 == ownOrigin s && portsFixed s then some (p % 1024) else none
def slotEnt (s : State) (k : Nat) : Nat := dirEnt s (k / 16)

/-- A point that may take converter results (R256): valid, U32, SRC ADC. -/
def routeOk (s : State) (p : Nat) : Bool :=
  match slotOf s p with
  | some k => slotValid s k && dType (slotEnt s k) == 2 && dSrc (slotEnt s k) == SRC_ADC
  | none => false

/-- A directory change that breaks a route's condition clears its EN and records CONFLICT in ADC_ERR (R256). -/
def syncRoutes (s : State) (m : Nat) : State :=
  (List.range 80).foldl (fun s i =>
    if s.flag ADC_ROUTE_EN i && !routeOk s (s.fget ADC_ROUTE_POINT i) then
      recErr (s.fset ADC_ROUTE_EN i 0) ADC_ERR_VALID ADC_ERR_MULTI
        [(ADC_ERR_MASTER, 0, m), (ADC_ERR_CONV, 0, i / 5), (ADC_ERR_STATUS, 0, Status.conflict.code)]
    else s) s

/-! ## Registers by address -/

/-- The word of a register that a read returns, where it is not held in the register itself. -/
def regView (s : State) (m : Nat) (r : Reg) (i : Nat) : Nat :=
  match r.addr with
  | 0x10011c => regWord s r i / 2 ^ 20 * 2 ^ 20 + pwmCount s i % 2 ^ 20
  | 0x102008 => liveNow s % 2 ^ 32
  | 0x10200c => liveNow s / 2 ^ 32
  | 0x102014 => fltStamp s m % 1000000000
  | 0x102018 => fltStamp s m / 1000000000 % 2 ^ 32
  | 0x10201c => fltStamp s m / 1000000000 / 2 ^ 32 % 65536
  | 0x40020 => nsOf (netTime s)
  | 0x40024 => now1 s m
  | 0x40028 => now2 s m
  | 0x151008 => if isStack s then putBit (regWord s r i) 26 (isCand s) else 0
  | 0x151010 => if isStack s then leaseRem s else 0
  | 0x161110 => smGet 0x7f800000 s.cap.up (s.fget CAP_MTIDX_TAB m * 1024 + s.fget CAP_MTPT_PT m)
  | 0x161114 => smGet 0xff800000 s.cap.lo (s.fget CAP_MTIDX_TAB m * 1024 + s.fget CAP_MTPT_PT m)
  | 0x60008 => dbgRem s
  | 0x68000 => s.sec.otp.idCert / 2 ^ (32 * i) % 2 ^ 32
  | 0x20004 => accWord s (s.fget ACC_REGION_REGION)
  | 0x20040 => (smGet [] s.mbx.jnl (s.fget ACC_JNLIDX_IDX)).getD i 0
  | 0x130180 => resloVal s m i
  | 0x130184 => reshiVal s m i
  | 0x172004 => bankVal s m 0
  | 0x173004 => bankVal s m 1
  | 0x175004 => nodeVal s m
  | 0x176004 => tuneVal s m
  | 0x180010 | 0x180014 | 0x180018 | 0x180020 => if isStack s then regWord s r i else 0
  | _ =>
    if r.addr == 0x151000 && !isStack s then 3
    else if 0x151000 ≤ r.addr && r.addr < 0x151a00 && r.addr != 0x151030 && isStack s != decide (r.addr < 0x151800) then 0
    else regWord s r i

/-- The word that a read by the master returns. -/
def peekWord (s : State) (m a : Nat) : Nat :=
  match blkOf a with
  | none => 0
  | some .grist => winVal s m a
  | some .cask => s.mread a 4
  | some .trace => s.mread a 4
  | some b =>
    if b == .mbx && 0x8000 ≤ a % 65536 then
      if mbxMaster m then
        leNat ((List.range 4).map (fun j => smGet 0 s.mbx.buf (m * 8 * 4096 + (a % 65536 - 0x8000) + j)))
      else 0
    else if b == .mbx && 0x100 ≤ a % 65536 && !mbxMaster m then 0
    else match findReg s b m a (blkRegs b) with
      | some (r, i) => regView s m r i
      | none => 0

end Sys2Proof.Machine
end

