-- ==== Sys2Proof/Machine/Access.lean ====
section
/-! DEFINITION. One access to the register map: its checks in the order of R12 (R66, R67, R70, R90, R91), the record
of a refusal, the count of reserved bits (R4) and the journal entry (R93). -/

namespace Sys2Proof.Machine

/-- Fixed part of the domain status of an access outside the window of an instance, recorded in PWR_ERR (R40). -/
def accessDom (s : State) (m a : Nat) : Status := domStatus s (addrDom s m a)

/-- The status of the instance that an access reaches, recorded in ACC_ERR (R70). -/
def accessInst (s : State) (m a : Nat) : Status :=
  match blkOf a with
  | none => .ok
  | some b =>
    match pwmAlias a with
    | some p => instStatus s .pwm p
    | none => if inWindow b a then instStatus s b (chsel s b m) else .ok

/-- A mailbox buffer or header of the accessing master that is POSTED or RUNNING (R72). -/
def mbxBusy (s : State) (m a : Nat) : Bool :=
  let o := a % 65536
  if a / 65536 != 1 || !mbxMaster m then false
  else
    let n := if 0x8000 ≤ o then (o - 0x8000) / 4096 else (o - 0x100) / 16
    let inMbx := decide (0x8000 ≤ o) || (decide (0x100 ≤ o) && decide (o < 0x180))
    let st := s.fget MBX_STAT_STATE (m * 8 + n)
    inMbx && (st == 1 || st == 2)

/-- The refusals of a read access beside its domain's state. -/
def readRest (s : State) (m a width : Nat) : Status :=
  firstStatus [accessInst s m a, chk (!hasRight s m a 0) .denied,
    chk (width != 4) .badLength, chk (a % 4 != 0) .range]

/-- The status of a read access: the first refusal in the order of R12. -/
def readStatus (s : State) (m a width : Nat) : Status := firstStatus [accessDom s m a, readRest s m a width]

/-- A write at the address reaches a RW, WO, W1C or RWS field: these alone need the W right (R90). Window memory and
mailbox buffers are such fields. -/
def writesField (s : State) (m a : Nat) : Bool :=
  match blkOf a with
  | none => false
  | some b =>
    b == .grist || b == .cask || b == .trace || (b == .mbx && decide (0x8000 ≤ a % 65536))
      || (match findReg s b m (a / 4 * 4) (blkRegs b) with
          | some (r, _) => r.flds.any (fun F => F.acc != .ro && F.acc != .rol)
          | none => false)

/-- Another master than M0 writes only SEC_SCRUBCFG and SEC_EINJ of the SEC block, with the right W (R395). -/
def secOpen (s : State) (m a : Nat) : Bool := (a / 4 * 4 == 0x60050 || a / 4 * 4 == 0x60058) && hasRight s m a 1

/-- The refusals of a write access beside its domain's state, before the block looks at its value. `needC`: the write
commits (R90); `epochOk`: an access by M4 to M6 in cell role carries the current lease epoch (R88). -/
def writeRest (s : State) (m a width : Nat) (w : Nat) (needC epochOk : Bool) : Status :=
  let b := blkOf a
  let chselBad := match b.bind blkWindow with
    | some (n, _) => a % 65536 == 0 && decide (n ≤ w % 256)
    | none => false
  firstStatus [accessInst s m a,
    chk ((writesField s m a && !hasRight s m a 1) || (needC && !hasRight s m a 2)) .denied,
    chk (b == some .acc && m != 0) .denied, chk (b == some .sec && m != 0 && !secOpen s m a) .denied,
    chk (!isStack s && 4 ≤ m && m ≤ 6 && journaled s a && !epochOk) .leaseRequired,
    chk (width != 4) .badLength, chk (a % 4 != 0 || chselBad) .range,
    chk (mbxBusy s m a) .busy,
    chk (m ≤ 6 && journaled s a && jnlFull s) .busy]

/-- The status of a write access before the block looks at its value: the first refusal in the order of R12. -/
def writeStatus (s : State) (m a width : Nat) (w : Nat) (needC epochOk : Bool) : Status :=
  firstStatus [accessDom s m a, writeRest s m a width w needC epochOk]

/-- Record a refused access: the domain's status in PWR_ERR (R40); where any other refusal applies, `rest`, the one status
that comes first of all in ACC_ERR (R67, R70). -/
def recRefused (s : State) (m a : Nat) (rest : Status) : State :=
  let ds := accessDom s m a
  let s := if ds == .ok then s else pwrErr s (addrDom s m a) ds
  if rest == .ok then s else accErr s m a (firstStatus [ds, rest])

/-- Record a refusal in SEC_ERR (R395). -/
def secErr (s : State) (m : Nat) (st : Status) : State :=
  recErr s SEC_ERR_VALID SEC_ERR_MULTI [(SEC_ERR_MASTER, 0, m), (SEC_ERR_STATUS, 0, st.code)]

/-- Record a refused write: one of the SEC block in SEC_ERR also (R395). -/
def recWrite (s : State) (m a : Nat) (rest st : Status) : State :=
  let s := recRefused s m a rest
  if blkOf a == some .sec then secErr s m st else s

/-- Count a 1 in a reserved bit of a mapped register, whether or not the write is carried out (R4). -/
def countRsvd (s : State) (m a w : Nat) : State :=
  match blkOf a with
  | none => s
  | some b =>
    match findReg s b m a (blkRegs b) with
    | some (r, _) => if w &&& listedBits r == w then s else s.satAdd SYS_ERRCNT_RSVD 0
    | none => s

/-- An access to an address outside Table 3.2 (R66). -/
def unmapped (s : State) (m a : Nat) : State := (accErr s m a .range).satAdd SYS_ERRCNT_UNMAP 0

/-- OLD of a journal entry: the word as the master would read it, 0 where its read would be refused (R67, R93). -/
def jnlOld (s : State) (m a : Nat) : Nat := if readStatus s m a 4 == .ok then peekWord s m a else 0

/-- The KIND 1 entry of a write that is refused before it reaches its register, where the journal has room (R93, R94). -/
def jnlRefused (s : State) (m a w : Nat) (st : Status) : State :=
  if m ≤ 6 && journaled s a && !jnlFull s then jnlAdd s m 1 st.code a (jnlOld s m a) w else s

/-- One write access: the checks, then the register's own effect, which answers its status; the reserved bits are
counted and the journal entry is made in either case. -/
def regWrite (s : State) (m a : Nat) (w : Nat) (width : Nat) (needC epochOk : Bool)
    (eff : State → Status × State) : Status × State :=
  if (blkOf a).isNone then (.range, unmapped s m a)
  else
    let j := m ≤ 6 && journaled s a
    let old := jnlOld s m a
    let rest := writeRest s m a width w needC epochOk
    let st := writeStatus s m a width w needC epochOk
    let s := countRsvd s m a w
    if st != .ok then
      let s := recWrite s m a rest st
      (st, if j && !jnlFull s then jnlAdd s m 1 st.code a old w else s)
    else
      let (st, s) := eff s
      (st, if j then jnlAdd s m (if st == .ok then 0 else 1) st.code a old w else s)

/-- The firmware selects instance `i` of a window for its own accesses (R69): a write by M0 of its BLK_CHSEL, where that
selects another one. -/
def fwSelect (s : State) (a i : Nat) : State :=
  match blkOf a with
  | none => s
  | some b =>
    match blkWindow b with
    | none => s
    | some (_, F) =>
      if !inWindow b a || s.fget F 0 == i then s
      else (regWrite s 0 (a / 65536 * 65536) i 4 false true (fun s => (.ok, s.fset F 0 i))).2

/-- A register write by the firmware, M0, with the register's effect (R93): of instance `i` where the address is in a
window. -/
def fwReg (s : State) (a i w : Nat) (eff : State → Status × State) : State :=
  (regWrite (fwSelect s a i) 0 a w 4 false true eff).2

/-- The same for a register that has a row of its own: a full word by a direct access. -/
def rowWrite (s : State) (m : Master) (a : Nat) (w : Word) (needC : Bool) (eff : State → Status × State) : State :=
  (regWrite s m a w.toNat 4 needC true eff).2

end Sys2Proof.Machine
end

