-- ==== Sys2Proof/Machine/LinkOps.lean ====
section
/-! DEFINITION. The lanes of the Yarid link (Chapter 11): what each lane carries, the queue of frames to send, the
checks of a received frame (R269, R280), and the lane state changes (R283 to R287, R291). -/

namespace Sys2Proof.Machine

/-- A lane beside its registers. -/
def lnOf (s : State) (l : Nat) : LaneSt := smGet {} s.lanes l
def lnMod (s : State) (l : Nat) (f : LaneSt → LaneSt) : State := { s with lanes := smMod {} s.lanes l f }

/-- LNK_STAT.STATE of a lane, and its codes (Table 11.7). -/
def laneState (s : State) (l : Nat) : Nat := s.fget LNK_STAT_STATE l
def L_OFF : Nat := 0
def L_DETECT : Nat := 1
def L_TRAIN : Nat := 2
def L_LOCK : Nat := 3
def L_CAPS : Nat := 4
def L_ACTIVE : Nat := 5
def L_TEST : Nat := 6
def laneActive (s : State) (l : Nat) : Bool := laneState s l == L_ACTIVE

/-- Lane use by role (Table 1.1). -/
def isEthLane (s : State) (l : Nat) : Bool := isStack s && (l == 26 || l == 27)
def isPeerLane (s : State) (l : Nat) : Bool := isStack s && (l == 24 || l == 25)
def isChainLane (s : State) (l : Nat) : Bool := isStack s && decide (l < 24)
def isUpPort (s : State) (l : Nat) : Bool := !isStack s && decide (l < 3)
def isDownPort (s : State) (l : Nat) : Bool := !isStack s && decide (4 ≤ l) && decide (l < 7)
/-- The lane carries Yarid frames. -/
def isYarid (s : State) (l : Nat) : Bool := isPeerLane s l || isChainLane s l || isUpPort s l || isDownPort s l

/-- A chain with cells configured. -/
def usedChain (s : State) (k : Nat) : Bool := chainLen s k != 0
def usedChains (s : State) : List Nat := (List.range 24).filter (usedChain s)

/-- The lease epoch this device knows (R265). -/
def knownEpoch (s : State) : Nat := if isStack s then s.fget VOTE_EPOCH_EPOCH else s.fget VOTE_CEPOCH_EPOCH
/-- The cell is in netboot (R61). -/
def inNetboot (s : State) : Bool := s.sys.phase == .netboot

/-- Record a refusal in LNK_ERR; `m` is 15 for the lane itself (Table 11.8). -/
def lnkErr (s : State) (m l : Nat) (st : Status) : State :=
  recErr s LNK_ERR_VALID LNK_ERR_MULTI [(LNK_ERR_MASTER, 0, m), (LNK_ERR_LANE, 0, l), (LNK_ERR_STATUS, 0, st.code)]

/-! ## Peers and link status -/

/-- The SID that a peer lane's last CAPS frame showed. -/
def farSid (s : State) (l : Nat) : Nat := s.fget LNK_STAT_FARSID l
/-- The ACTIVE peer lane of lowest number to a stack: the peer is then live (assumption 20). -/
def peerLane (s : State) (sid : Nat) : Option Nat :=
  [24, 25].find? (fun l => isPeerLane s l && laneActive s l && farSid s l == sid)
def livePeers (s : State) : List Nat := [0, 1, 2].filter (fun sid => sid != ownSid s && (peerLane s sid).isSome)

/-- The ACTIVE mask of word 0 of an IDLE payload (R278). -/
def activeMask (s : State) : Nat :=
  if isStack s then (List.range 24).foldl (fun w k => w + b2n (laneActive s k) * 2 ^ k) 0
  else [0, 1, 2, 4, 5, 6].foldl (fun w p => w + b2n (laneActive s p) * 2 ^ p) 0

/-- The peer that serves the telemetry of chain k: the live peer of lowest SID whose IDLE shows it ACTIVE (R287). -/
def fwdServer (s : State) (k : Nat) : Option Nat :=
  (livePeers s).find? (fun sid => match peerLane s sid with | some l => bit (lnOf s l).far0 k | none => false)

/-- Words 0 and 1 of an IDLE payload on a lane (R278, R287). -/
def idleWord1 (s : State) (l : Nat) : Nat :=
  if isStack s then
    if isPeerLane s l && peerLane s (farSid s l) == some l then
      (List.range 24).foldl
        (fun w k => w + b2n (usedChain s k && !laneActive s k && fwdServer s k == some (farSid s l)) * 2 ^ k) 0
    else 0
  else b2n (inNetboot s)

/-- LNK_CHSTAT, LNK_FWDREQ and LNK_FWDSRV follow the lanes and the IDLE words received (R286, R287). -/
def syncChstat (s : State) : State :=
  if isStack s then
    let deg := (usedChains s).filter (fun k => !laneActive s k)
    s.fsets [(LNK_CHSTAT_DEGRADED, 0, deg.foldl (fun w k => w + 2 ^ k) 0),
      (LNK_FWDREQ_REQ, 0, (deg.filter (fun k => (fwdServer s k).isSome)).foldl (fun w k => w + 2 ^ k) 0),
      (LNK_FWDSRV_SRV, 0, [24, 25].foldl (fun w l => if laneActive s l then w ||| (lnOf s l).far1 else w) 0)]
  else s

/-! ## Sending -/

/-- The header fields of CAPS and IDLE frames on a lane (Table after R277). -/
def segHdr (s : State) (l ty len : Nat) : Hdr :=
  if isStack s then { ty, len, sid := ownSid s, chain := if l < 24 then l else 0 }
  else if l < 3 then { ty, len, sid := l, up := true, chain := myChain s, pos := myPos s }
  else { ty, len, sid := l - 4, chain := myChain s, pos := myPos s + 1, hop := myPos s + 1 }

/-- Put a frame of this device's own into a lane's queue; a lane that is not ACTIVE drops it and counts it (R280). -/
def sendOn (s : State) (l prio : Nat) (f : Frame) : State :=
  if laneActive s l then lnMod s l (fun x => { x with txq := x.txq ++ [(prio, f)] })
  else if domOn s (instDom .lnk l) then s.satAdd LNK_CNT3_DISCARD l else s

/-- The lanes among `ls` on which a frame of this device's own is due: the enabled ones (R280; DEDUCED, assumption 54). -/
def dueLanes (s : State) (ls : List Nat) : List Nat := ls.filter (fun l => s.flag LNK_CFG_EN l)

/-- The wire time of a frame of LEN bytes (R267). -/
def wireT (len : Nat) : Time := ((len + 13) / 8 + 2) * 419430

/-- The frame that a lane has started is still being sent. -/
def txBusy (s : State) (l : Nat) : Bool :=
  match (lnOf s l).sent with
  | some f => decide (s.clk < (lnOf s l).lastTx + wireT f.hdr.len)
  | none => false

def sendAll (s : State) (ls : List Nat) (prio : Nat) (f : Nat → Frame) : State :=
  ls.foldl (fun s l => sendOn s l prio (f l)) s

/-- An IDLE frame; its words are filled when it starts. -/
def idleFrame (s : State) (l xflags : Nat) : Frame :=
  ⟨{ segHdr s l 0 16 with xflags, epoch := knownEpoch s, cycle := cycleNow s }, .idle 0 0⟩

/-- A frame waiting on the lane satisfies a test. -/
def waiting (s : State) (l : Nat) (p : Nat × Frame → Bool) : Bool := (lnOf s l).txq.any p

/-- Every ACTIVE Yarid lane whose link status differs from its last IDLE sends one at priority 1 (R278). -/
def refreshIdle (s : State) : State :=
  (List.range 28).foldl (fun s l =>
    let x := lnOf s l
    if isYarid s l && laneActive s l && (x.idle0 != activeMask s || x.idle1 != idleWord1 s l)
        && !waiting s l (fun e => e.1 == 1 && e.2.hdr.ty == 0) then
      lnMod s l (fun x => { x with txq := x.txq ++ [(1, idleFrame s l 0)] })
    else s) s

/-- The link status of this device may have changed. -/
def linkStatus (s : State) : State := refreshIdle (syncChstat s)

/-- Bytes of a RACK record with its leading word (R274). -/
def recLen : RackRec → Nat
  | .points l => 4 + 16 * l.length
  | .lease .. => 20
  | .command _ _ _ _ _ _ _ _ b => 20 + b.length
  | .ack .. => 12
  | .unknown _ n => 4 + n
  | .overrun => 4

def recsLen (l : List RackRec) : Nat := (l.map recLen).sum

/-- A RACK frame waiting for the same cycle takes a further record while its payload stays within 2,048 bytes
(R274, R332). -/
def mergeRack (cycle : Nat) (r : RackRec) : List (Nat × Frame) → Option (List (Nat × Frame))
  | [] => none
  | (p, f) :: l =>
    match f.body with
    | .rack rs =>
      if f.hdr.cycle == cycle && decide (recsLen rs + recLen r ≤ 2048) then
        some ((p, ⟨{ f.hdr with len := recsLen rs + recLen r }, .rack (rs ++ [r])⟩) :: l)
      else (mergeRack cycle r l).map ((p, f) :: ·)
    | _ => (mergeRack cycle r l).map ((p, f) :: ·)

/-- Send one record on a peer lane, at priority 3, with the cycle that its header carries (R332). -/
def rackOn (s : State) (l : Nat) (r : RackRec) (cyc : Nat) : State :=
  match mergeRack cyc r (lnOf s l).txq with
  | some q => lnMod s l (fun x => { x with txq := q })
  | none => sendOn s l 3 ⟨{ ty := 5, sid := ownSid s, len := recLen r, cycle := cyc, epoch := knownEpoch s }, .rack [r]⟩

/-- A peer lane that is not ACTIVE drops a record for it (R280). -/
def rackLost (s : State) : State :=
  ((dueLanes s [24, 25]).filter (fun l => isPeerLane s l && !laneActive s l)).foldl (fun s l => s.satAdd LNK_CNT3_DISCARD l) s

/-- Send one record of cycle `cyc` to every live peer, once each. -/
def rackPeersOf (s : State) (cyc : Nat) (r : RackRec) : State :=
  rackLost ((livePeers s).foldl (fun s sid => match peerLane s sid with | some l => rackOn s l r cyc | none => s) s)
/-- Send one record of the present cycle to every live peer. -/
def rackPeers (s : State) (r : RackRec) : State := rackPeersOf s (cycleNow s) r
/-- Send one record on each ACTIVE peer lane, as the holder's renewal is (R324). -/
def rackLanes (s : State) (r : RackRec) : State :=
  rackLost (([24, 25].filter (fun l => isPeerLane s l && laneActive s l)).foldl (fun s l => rackOn s l r (cycleNow s)) s)

/-- The header of a frame that a stack originates to a cell. -/
def downHdr (s : State) (k pos ty len : Nat) : Hdr :=
  { ty, len, sid := ownSid s, chain := k, pos, cycle := cycleNow s, epoch := knownEpoch s }
/-- The header of a frame that a cell originates on upstream port p. -/
def upHdr (s : State) (p ty len : Nat) : Hdr :=
  { ty, len, sid := p, up := true, chain := myChain s, pos := myPos s, cycle := cycleNow s, epoch := knownEpoch s }

/-! ## Receiving -/

/-- The type of a payload. -/
def bodyTy : Body → Nat
  | .idle .. => 0 | .cmd .. => 1 | .tel .. => 2 | .time .. => 3 | .trig .. => 4 | .rack .. => 5 | .xchk .. => 6
  | .rra .. => 7 | .caps .. => 8 | .other => 9

/-- LEN obeys the type's rule (Table 11.2, R271). -/
def lenOk (f : Frame) : Bool :=
  let n := f.hdr.len
  match f.body with
  | .idle .. => n == 16
  | .cmd .. => n == 256
  | .tel _ nupd .. => n == 16 + 16 * nupd && decide (nupd ≤ 127)
  | .time .. => n == 32
  | .trig .. => n == 16
  | .rack .. => decide (8 ≤ n) && decide (n ≤ 2048)
  | .xchk .. => n == 256
  | .rra .. => decide (12 ≤ n) && decide (n ≤ 2048)
  | .caps .. => n == 32
  | .other => false

/-- The frame's type and direction are carried on the lane in this role (Table 11.2). -/
def carried (s : State) (l : Nat) (f : Frame) : Bool :=
  let h := f.hdr
  match h.ty with
  | 0 => true
  | 1 => isUpPort s l && !h.up
  | 2 => (isChainLane s l && h.up && !h.fwd) || (isPeerLane s l && h.up && h.fwd) || (isDownPort s l && h.up)
  | 3 => isUpPort s l && !h.up
  | 4 => isPeerLane s l || (if isUpPort s l then !h.up else h.up)
  | 5 => isPeerLane s l
  | 6 => isPeerLane s l
  | 7 => isPeerLane s l || (if isUpPort s l then !h.up else h.up)
  | 8 => true
  | _ => false

/-- The path rules of R280 for a frame of a type other than CAPS and IDLE. -/
def pathOk (s : State) (l : Nat) (h : Hdr) : Bool :=
  if isChainLane s l then h.chain == l && h.hop == h.pos
  else if isUpPort s l then
    h.chain == myChain s && h.sid == l && h.hop == myPos s && !((h.ty == 1 || h.ty == 7) && decide (h.pos < myPos s))
  else if isDownPort s l then h.up && h.hop + myPos s + 1 == h.pos
  else true

/-- A frame that a cell in netboot takes (R61, R269). -/
def netbootTakes (s : State) (l : Nat) (h : Hdr) : Bool :=
  h.ty == 8 || (h.ty == 7 && isUpPort s l && h.pos == myPos s)

/-- A frame that ended well arrives on a lane (R269, R280, R288): true when the device takes it. In OFF, DETECT,
TRAIN and TEST nothing is decoded. -/
def rxCheck (s : State) (l : Nat) (f : Frame) : Bool × State :=
  let st := laneState s l
  let h := f.hdr
  if !isYarid s l || st < L_LOCK || st == L_TEST then (false, s)
  else
    let bad := s.satAdd LNK_CNT3_DISCARD l
    if st == L_LOCK then (false, bad)
    else if st == L_CAPS then if h.ty == 8 && bodyTy f.body == 8 && lenOk f then (true, s) else (false, bad)
    else
      let s := lnMod s l (fun x => { x with lastGood := s.clk })
      let bad := s.satAdd LNK_CNT3_DISCARD l
      if h.ty != bodyTy f.body || h.sid == 3 || !carried s l f || !lenOk f
          || (h.ty != 0 && h.ty != 8 && !pathOk s l h) || (inNetboot s && !netbootTakes s l h)
      then (false, bad) else (true, s)

/-- A CMD or RRA frame at an upstream port is consumed by the cell whose position it names (R280). -/
def forMe (s : State) (l : Nat) (h : Hdr) : Bool := !isUpPort s l || h.pos == myPos s

/-! ## Lane states -/

/-- A lane enters a state. -/
def laneTo (s : State) (l st : Nat) : State :=
  let s := lnMod s l (fun x => { x with since := s.clk, lockFrom := s.clk, lastCaps := s.clk, lastGood := s.clk,
                                        lockDone := false, pass := false, failing := false, ackRx := false,
                                        ackTx := false, ber := 0 })
  let s := if isUpPort s l then s.fset LNK_PORTS_MISMATCH 0 (putBit (s.fget LNK_PORTS_MISMATCH) l false) else s
  syncChstat (s.fset LNK_STAT_STATE l st)

/-- LNK_EQ in the relations of R290. -/
def eqOk (s : State) (l : Nat) : Bool :=
  let pre := s.fget LNK_EQ_PRE l
  let main := s.fget LNK_EQ_MAIN l
  let post := s.fget LNK_EQ_POST l
  decide (pre + main + post ≤ 63) && decide (pre + post + 16 ≤ main)

/-- Entry to TRAIN commits LNK_EQ (R291). -/
def enterTrain (s : State) (l : Nat) : State :=
  let s := (laneTo s l L_TRAIN).fset LNK_STAT_BLOCK l 0
  if eqOk s l then
    s.fsets [(LNK_EQEFF_CTLE, l, s.fget LNK_EQ_CTLE l), (LNK_EQEFF_POST, l, s.fget LNK_EQ_POST l),
      (LNK_EQEFF_MAIN, l, s.fget LNK_EQ_MAIN l), (LNK_EQEFF_PRE, l, s.fget LNK_EQ_PRE l), (LNK_STAT_EQBAD, l, 0)]
  else lnkErr (s.fset LNK_STAT_EQBAD l 1) 15 l .conflict

def enterDetect (s : State) (l : Nat) : State := (laneTo s l L_DETECT).fset LNK_STAT_BLOCK l 0

/-- A downstream port waits in LOCK for the cell's chain and position, and in netboot for the firmware (R283). -/
def capsHeld (s : State) (l : Nat) : Bool := isDownPort s l && (!portsFixed s || inNetboot s)

/-- A lane whose 65,536 blocks are complete leaves LOCK (R283). -/
def leaveLock (s : State) (l : Nat) : State :=
  if isEthLane s l then laneTo s l L_ACTIVE
  else if capsHeld s l then lnMod s l (fun x => { x with lockDone := true })
  else laneTo s l L_CAPS

/-- Downstream ports that waited in LOCK go on; the LOCK timeout of the others starts to run. -/
def releaseDown (s : State) : State :=
  [4, 5, 6].foldl (fun s l =>
    if laneState s l == L_LOCK && !capsHeld s l then
      if (lnOf s l).lockDone then laneTo s l L_CAPS else lnMod s l (fun x => { x with since := s.clk })
    else s) s

/-- A lane stops carrying frames: a frame being sent ends with an error block, frames waiting are dropped and
counted, the device's own here and relayed ones at their input, and a cell's ingress delay is no longer VALID (R280, R285, R302). -/
def laneQuiet (s : State) (l : Nat) : State :=
  let x := lnOf s l
  let own := x.txq.filter (fun e => [2, 4, 5, 6, 7].contains e.2.hdr.ty && !x.relIn.any (fun r => r.1 == e.2))
  let s := if own.isEmpty then s else s.satAdd LNK_CNT3_DISCARD l own.length
  let s := if x.relIn.isEmpty then s else s.satAdd LNK_CNT3_DISCARD (l + 4) x.relIn.length
  let busy := txBusy s l
  let s := lnMod s l (fun x => { x with txq := [], relIn := [], sentBad := x.sentBad || busy, dreqIn := none, t1 := none,
                                        delays := [], bootReq := x.bootReq && isDownPort s l, far0 := 0, far1 := 0 })
  if isUpPort s l then (s.fset TIM_PDLY_VALID l 0).fset TIM_PEEROFS_OFS l 0x80000000 else s

/-- A lane leaves ACTIVE (R285): LOSTC 1 to 4. -/
def laneLoss (s : State) (l code : Nat) : State :=
  let s := (s.satAdd LNK_CNT2_LOSS l).fset LNK_STAT_LOSTC l code
  let sig := s.flag LNK_STAT_SIGDET l
  let s := laneQuiet s l
  linkStatus (if sig then enterTrain s l else enterDetect s l)

end Sys2Proof.Machine
end

