-- ==== Sys2Proof/Machine/Trigger.lean ====
section
/-! DEFINITION. Capture records (R347 to R363): their layout in the cask, the samples of a channel, masks, triggers,
and how a record ends. -/

namespace Sys2Proof.Machine

/-! ## The layout of a record -/

/-- Record length L, and the bytes of a record of `n` channels (R349). -/
def recLenL (r : CapRec) : Nat := r.pre + r.post
def recBytes (n l : Nat) : Nat := 512 + 64 * n + 8 * n * l
/-- The cask address of a logical offset of a record (R349). -/
def recAddr (r : CapRec) (off : Nat) : Nat := 0x02000000 + r.blocks.getD (off / 65536) 0 * 65536 + off % 65536
/-- Where the data of the record's j-th channel begins. -/
def recData (r : CapRec) (j : Nat) : Nat := 512 + 64 * r.chans.length + 8 * recLenL r * j
/-- Blocks that no record holds (R350, CAP_FREEBLK). -/
def freeBlocks (s : State) : List Nat :=
  let held := (s.cap.recs.map (fun r => r.blocks)).flatten
  (List.range 256).filter (fun b => !held.contains b)

/-- A network time in three words, as ORIGIN of a TIME payload (R272). -/
def timeWords (t : Nat) : List Nat := [nsOf t, secOf t % 2 ^ 32, fracOf t * 65536 + secOf t / 2 ^ 32 % 65536]
/-- A tag (R105). -/
def tagOf (t : Nat) : Nat := t / 65536 % 2 ^ 32

/-- Write words at a record's logical offset. -/
def recPut (r : CapRec) : List Nat → Nat → State → State
  | [], _, s => s
  | w :: ws, off, s => recPut r ws (off + 4) (s.mwrite (recAddr r off) 4 w)

/-- Channels 0 to 31 or 32 to 63 of a list as a mask. -/
def chanMask (l : List Nat) : Nat := l.foldl (fun w c => putBit w c true) 0

/-- STATUS of a record (Table 14.1). -/
def recStatus (r : CapRec) : Nat :=
  b2n r.triggered + 2 * b2n r.ovf + 4 * b2n r.disarmed + 8 * b2n r.early + 16 * b2n r.ue + 32 * b2n r.link
    + 64 * b2n r.rearmed

/-- The header (Table 14.1). -/
def recHeader (r : CapRec) : List Nat :=
  [r.rid, r.cause * 2 ^ 24 + r.origin * 2 ^ 16 + r.tseq % 65536,
    r.blocks.length % 256 * 2 ^ 24 + r.chans.length * 2 ^ 16 + recStatus r, r.pre, r.post, r.tset, r.flags]
  ++ timeWords r.t0 ++ timeWords r.acc ++ timeWords r.tend
  ++ [r.dead, r.causes, r.ovfch, r.ovfns, chanMask r.chans % 2 ^ 32, chanMask r.chans / 2 ^ 32, r.prev]

/-- The word address k of BLOCKLIST holds four block numbers. -/
def blockList (r : CapRec) : List Nat :=
  (List.range 64).map (fun k => leNat ((List.range 4).map (fun j => r.blocks.getD (4 * k + j) 0)))

/-- An uncorrectable cask word (R349, R379), already counted: its record's UE flag is set, and its four samples read
0x7FC0_0000 with tag 0. -/
def caskBad (s : State) (word : Nat) : State :=
  let blk := word / 2048
  let s := { s with cap.recs := s.cap.recs.map (fun r => if r.blocks.contains blk then { r with ue := true } else r) }
  let s := match s.cap.recs.find? (fun r => r.blocks.contains blk) with
    | some r =>
      let s := recPut r (recHeader r) 0 s
      let off := (r.blocks.findIdx? (· == blk)).getD 0 * 65536 + word % 2048 * 32
      [0, 1, 2, 3].foldl (fun s j =>
        let o := off + 8 * j
        if recData r 0 ≤ o then (s.mwrite (recAddr r o) 4 0x7fc00000).mwrite (recAddr r (o + 4)) 4 0 else s) s
    | none => s
  eccStored s 7 word

/-- A read of a cask word, and a write narrower than one (R379). -/
def caskRead (s : State) (word : Nat) : State :=
  let (bad, s) := eccFetch s 7 word
  if bad then caskBad s word else s
def caskPart (s : State) (word : Nat) : State :=
  match eccSyms s 7 word with
  | [] => eccStored s 7 word
  | [_] => eccStored (eccCorr s 7) 7 word
  | _ => eccStored (caskBad (eccUncorr s 7 word) word) 7 word

/-- The cask words that bytes `off` to `off + n - 1` of a record touch. -/
def recEcc (r : CapRec) (off n : Nat) : List Nat :=
  (List.range ((off + n + 31) / 32 - off / 32)).map (fun i => (recAddr r (32 * (off / 32 + i)) - 0x02000000) / 32)

/-- Write words at a record's logical offset. -/
def recWords (r : CapRec) (ws : List Nat) (off : Nat) (s : State) : State :=
  recPut r ws off ((recEcc r off (4 * ws.length)).foldl caskPart s)

def chanOf (r : CapRec) (c : Nat) : CapChan := smGet {} r.chan c

/-- Samples held, and the ring slot of the oldest (R349). -/
def held (r : CapRec) (x : CapChan) : Nat := min x.total (recLenL r)
def rstart (r : CapRec) (x : CapChan) : Nat := if x.total ≤ recLenL r then 0 else x.total % recLenL r

/-- K0 and FRAC: the place of T0 among the tags, oldest first (R354). -/
def k0Frac (t0 : Nat) (tags : List Nat) : Nat × Nat × Bool :=
  match tags.findIdx? (fun g => t0 ≤ g) with
  | none => (0xffffffff, 0, false)
  | some 0 => if t0 < tags.getD 0 0 then (0xffffffff, 0, true) else (0, 0, false)
  | some (k + 1) =>
    let a := tags.getD k 0
    let b := tags.getD (k + 1) 0
    (k + 1, (t0 - a) * 65536 / (b - a) % 65536, false)

/-- The descriptor of a channel (Table 14.2). -/
def chanDesc (s : State) (r : CapRec) (c : Nat) : List Nat :=
  let x := chanOf r c
  let tags := x.tags.reverse
  let (k0, frac, _) := if r.triggered then k0Frac r.t0 tags else (0xffffffff, 0, false)
  [x.src, c * 65536 + b2n (decide (c < 8)) * 256 + x.mcfg / 2 ^ 24, held r x, k0, frac, x.endc,
    x.mpos.getD 0xffffffff] ++ timeWords (tags.getD 0 0)
    ++ [if c < 8 then s.fget CAP_CSKEW_SKEW c else 0, rstart r x]

/-- Replace a record. -/
def setRec (s : State) (r : CapRec) : State :=
  { s with cap.recs := s.cap.recs.map (fun q => if q.rid = r.rid then r else q) }
def findRec (s : State) (rid : Nat) : Option CapRec := s.cap.recs.find? (fun r => r.rid = rid)

/-- Header and descriptors as they now read are put into the record's blocks. -/
def writeHead (s : State) (r : CapRec) : State :=
  let s := recWords r (blockList r) 256 (recWords r (recHeader r) 0 s)
  (List.range r.chans.length).foldl (fun s j => recWords r (chanDesc s r (r.chans.getD j 0)) (512 + 64 * j) s) s

/-- CAP_ARMED, and the registers of the record's channels. -/
def syncRec (s : State) (r : CapRec) : State :=
  let s := setRec s r
  let s := r.chans.foldl (fun s c =>
    let x := chanOf r c
    let st := if x.endc != 0 then 4 else match r.st with
      | .armed => if r.pre ≤ x.total then 2 else 1
      | .running => 3
      | .closed => 4
    let s := s.fsets [(CAP_CSTAT_STATE, c, st), (CAP_CSTAT_END, c, x.endc), (CAP_CSTAT_COUNT, c, held r x),
      (CAP_CREC_RID, c, r.rid)]
    s.fset CAP_ARMED_MASK (c / 32) (putBit (s.fget CAP_ARMED_MASK (c / 32)) (c % 32) (st != 4))) s
  s.fset CAP_FREEBLK_N 0 (freeBlocks s).length

/-- Set flags of CAP_STATUS for every master (R368). -/
def capFlag (s : State) (n : Nat) : State :=
  { s with cap.flags := (List.range 9).foldl (fun m i => smSet 0 m i (putBit (smGet 0 m i) n true)) s.cap.flags }

/-- The latest closed record still held, 0 for none (PREV). -/
def lastClosed (s : State) : Nat :=
  match (s.cap.recs.filter (fun r => r.st == .closed)).getLast? with | some r => r.rid | none => 0

/-- The record closes: unfinished channels read END `e` (R361, R362). Closed records stand in the order of their
closing. -/
def closeRec (s : State) (r : CapRec) (e : Nat) : State :=
  let chan := r.chans.foldl (fun m c =>
    let x := smGet {} m c
    smSet {} m c (if x.endc == 0 then { x with endc := e } else x)) r.chan
  let early := r.triggered && r.chans.any (fun c => (k0Frac r.t0 (smGet {} chan c).tags.reverse).2.2)
  let r := { r with st := .closed, chan, early, prev := lastClosed s }
  let again : Rearm := { rid := r.rid, chans := r.chans, pre := r.pre, post := r.post, tset := r.tset, flags := r.flags }
  let n := s.cap.closings + 1
  let s := { s with cap := { s.cap with
    closings := n
    ended := r.chans.foldl (fun m c => smSet (0, 0) m c (n, r.tend + 1)) s.cap.ended
    rearms := if bit r.flags 0 && !r.disarmed then s.cap.rearms ++ [again] else s.cap.rearms } }
  let s := (syncRec s r).fset CAP_LAST_RID 0 r.rid
  writeHead { s with cap.recs := s.cap.recs.filter (fun q => q.rid != r.rid) ++ [r] } r

/-- A record all of whose channels have ended closes. -/
def closeIfDone (s : State) (r : CapRec) : State :=
  if r.chans.all (fun c => (chanOf r c).endc != 0) then closeRec s r 1 else syncRec s r

/-! ## Triggers -/

/-- Every channel of the record holds its pre-trigger part (R354). -/
def recFilled (r : CapRec) : Bool := r.chans.all (fun c => r.pre ≤ (chanOf r c).total)

/-- The record selects the trigger (R352). -/
def Trig.wants (g : Trig) (r : CapRec) : Bool :=
  r.st != .closed && (match g.cls with
    | 5 => r.rid == g.rid
    | 7 => bit r.tset 7 && bits r.tset 8 4 == g.cause - 0x10
    | n => bit r.tset n)

/-- Each trace channel that follows a capture channel of the record takes a start event at A (R357, R152). -/
def traceOnCapture (s : State) (r : CapRec) : State :=
  (List.range 32).foldl (fun s c =>
    if s.flag MASH_TRCFG0_CAPEN c && r.chans.contains (s.fget MASH_TRCFG0_CAPCH c)
        && s.fget MASH_TRSTAT_STATE c == 1 then
      let (d, s) := drawBetween s (2 * nsT) (3 * nsT)
      { s with trace := smMod {} s.trace c (fun x => { x with startAt := some (s.clk + r.acc + d - repTime s 3) }) }
    else s) s

/-- The clock of PD3 of a network time: 800 MHz (R355). -/
def pd3Clk (t : Nat) : Nat := t / 81920

/-- Put a trigger into a record that accepts it. -/
def takeTrig (r : CapRec) (g : Trig) : CapRec :=
  { r with triggered := true, cause := g.cause, origin := g.origin, tseq := g.tseq, link := g.link, t0 := g.t0,
           acc := g.acc, outDue := !g.link }

/-- A trigger reaches one record (R354, R355). -/
def trigRec (g : Trig) (s : State) (r : CapRec) : State :=
  match r.st with
  | .closed => s
  | .running =>
    if r.triggered && pd3Clk r.acc == pd3Clk g.acc then
      let r' := { r with causes := putBit r.causes g.cls true }
      syncRec s (if g.t0 < r.t0 || (g.t0 == r.t0 && g.cause < r.cause) then takeTrig r' g else r')
    else s
  | .armed =>
    if recFilled r then
      let r := { takeTrig r g with st := .running, causes := 2 ^ g.cls }
      traceOnCapture (syncRec s r) r
    else capFlag (s.satAdd CAP_CNT_IGNPRE 0) 2

/-- CAPTURE_TRIGGER (R352 to R355): a trigger reaches the records that select it. -/
def capTrig (s : State) (g : Trig) : State := (s.cap.recs.filter g.wants).foldl (trigRec g) s

/-- The lanes on which a device's own trigger is due (R273, R280); for a stack, every chain and peer lane
(assumption 21). -/
def trigLanes (s : State) : List Nat := dueLanes s (if isStack s then List.range 26 else [0, 1, 2])

/-- Send a TRIG frame on lanes. -/
def sendTrig (s : State) (lanes : List Nat) (t0 cause origin tseq : Nat) : State :=
  sendAll s lanes 0 (fun l =>
    ⟨if isStack s then downHdr s (if l < 24 then l else 0) 0 4 16 else upHdr s l 4 16, .trig t0 cause origin tseq⟩)

/-- The triggers of this device that records have taken in PD3 clocks that are over, each once. -/
def outsDue (s : State) : List (Nat × Nat × Nat) :=
  ((s.cap.recs.filter (fun r => r.outDue && decide (pd3Clk r.acc < pd3Clk (repTime s 3)))).map
    (fun r => (r.acc, r.t0, r.cause))).eraseDups

/-- The outputs of such a trigger (R356): its records take the next TSEQ; one TRIG frame, and one TRIGX pulse from A. A
trigger from TRIGX drives neither. -/
def trigOut (s : State) (e : Nat × Nat × Nat) : State :=
  let (acc, t0, cause) := e
  let its (r : CapRec) : Bool := r.outDue && (r.acc, r.t0, r.cause) == e
  let took := s.cap.recs.filter its
  let n := s.link.tseq
  let s := { s with
    link.tseq := (n + 1) % 65536
    cap.recs := s.cap.recs.map (fun r => if its r then { r with outDue := false, tseq := n } else r) }
  let s := took.foldl (fun s r => if r.st == .closed then recWords r (recHeader { r with tseq := n }) 0 s else s) s
  if cause == 3 then s
  else
    let s := if took.any (fun r => bit r.flags 1) then sendTrig s (trigLanes s) t0 cause (ownOrigin s) n else s
    if took.any (fun r => bit r.flags 2) then
      { s with pins.trigxLow := true, cap.trigxEnd := s.clk + acc + s.fget CAP_TRIGCFG_XW * 10 * nsT - repTime s 3 }
    else s

/-- Insertion by A, then T0. -/
def insTrig (g : Trig) : List Trig → List Trig
  | [] => [g]
  | h :: t => if g.acc < h.acc || (g.acc == h.acc && g.t0 < h.t0) then g :: h :: t else h :: insTrig g t

/-- Triggers reach the records at their A, up to a network time of PD3 (R353). A trigger whose PD3 clock is not over waits
for the samples of that clock, as long as a record that it would trigger lacks its pre-trigger part (R354). -/
def deliver (s : State) (now : Nat) : State :=
  let ready (g : Trig) : Bool := pd3Clk g.acc < pd3Clk now
    || (decide (g.acc ≤ now) && s.cap.recs.all (fun r => !g.wants r || r.st != .armed || recFilled r))
  let due := (s.cap.coming.filter ready).foldl (fun l g => insTrig g l) []
  due.foldl capTrig { s with cap.coming := s.cap.coming.filter (fun g => !ready g) }

/-- A trigger is on its way to the records. -/
def trigComes (s : State) (g : Trig) : State := { s with cap.coming := s.cap.coming ++ [g] }

/-- A trigger of this device sets out: class, CAUSE, T0, and the largest distance of A from T0 (Table 14.4). It reaches the
records at A, and no earlier than the event itself. -/
def ownTrig (s : State) (cls cause t0 : Nat) (span : Time) (rid : Nat := 0) : State :=
  if !domOn s 3 then s
  else
    let (d, s) := if span == 0 then (0, s) else drawBetween s (min span (repTime s 3 - t0)) span
    trigComes s { cls, cause, origin := ownOrigin s, tseq := s.link.tseq, link := false, t0, acc := t0 + d, rid }

/-! ## Samples -/

/-- The cask serves the queues in turn, one sample each 1.25 ns (R361). -/
def serveQueues (recs : List CapRec) : Nat → Nat → List CapRec × Nat
  | 0, next => (recs, next)
  | n + 1, next =>
    let busy := recs.flatMap (fun r => if r.st == .closed then [] else r.chans.filter (fun c => (chanOf r c).queue != 0))
    match (busy.filter (next ≤ ·)).min?, busy.min? with
    | some c, _ => serveQueues (recs.map (take c)) n (c + 1)
    | none, some c => serveQueues (recs.map (take c)) n (c + 1)
    | none, none => (recs, next)
where
  take (c : Nat) (r : CapRec) : CapRec :=
    if r.st != .closed && r.chans.contains c then
      { r with chan := smMod {} r.chan c (fun x => { x with queue := x.queue - 1 }) }
    else r

/-- Bring the queues to the present. -/
def drainCask (s : State) : State :=
  let waiting := (s.cap.recs.map (fun r => (r.chan.map (fun e => e.2.queue)).sum)).sum
  let n := min waiting ((s.clk - s.cap.servedAt) / 81920)
  let (recs, next) := serveQueues s.cap.recs n s.cap.next
  { s with cap.recs := recs, cap.next := next,
           cap.servedAt := if n < waiting then s.cap.servedAt + n * 81920 else s.clk }

/-- π to 60 bits, as a fraction. -/
def qPi : Q := ⟨3622009729038561421, 2 ^ 60⟩

/-- The index into a mask table at a tag, when the test runs (R359); with a θ or ω that is no number, a free one (assumption
4). -/
def maskIndex (s : State) (r : CapRec) (tab tag : Nat) : Option Nat :=
  let n := s.fget CAP_MTCFG_N tab
  if s.fget CAP_MTCFG_REF tab == 0 then
    if r.triggered && r.t0 ≤ tag then
      let i := (tag - r.t0) / 65536 / s.fget CAP_MTSTEP_STEP tab
      if i < n then some i else none
    else none
  else if r.st == .armed && !recFilled r then none
  else
    let th := s.fget CAP_MPHASE_THETA
    let theta := smGet 0 s.mash.nodes th % 2 ^ 32
    let omega := smGet 0 s.mash.nodes (s.fget CAP_MPHASE_OMEGA) % 2 ^ 32
    let dt : Q := ⟨(tag : Int) - smGet 0 s.mash.nodeAt th, 65536 * 1000000000⟩
    let turns := (((f32v theta).add ((f32v omega).mul dt)).mul ⟨1, 2⟩).div qPi
    if !(f32fin theta && f32fin omega) then some (Config.fwArith 2 theta omega % max 1 n)
    else turns.map (fun x => ((x.sub (Q.ofInt x.floor)).mul (Q.ofNat n)).floor.toNat % n)

/-- The compared value violates the mask at index i of a table. -/
def maskViol (s : State) (v : Q) (tab i : Nat) : Bool :=
  f32above v (smGet 0x7f800000 s.cap.up (tab * 1024 + i)) || f32below v (smGet 0xff800000 s.cap.lo (tab * 1024 + i))

/-- A violation of the mask in an ARMED record (R360). -/
def maskHit (s : State) (r : CapRec) (tag : Nat) : State :=
  if r.st != .armed then s
  else if bit r.tset 5 then ownTrig s 5 5 tag (120 * nsT) r.rid
  else s.satAdd CAP_CNT_MVIOL 0

/-- A sample is lost at a full queue: the record closes at once, and every channel reads END 3 (R361). -/
def overflow (s : State) (r : CapRec) (c tag : Nat) : State :=
  let chan := r.chans.foldl (fun m q => smSet {} m q { smGet {} m q with endc := 3 }) r.chan
  closeRec (capFlag (s.satAdd CAP_CNT_OVF 0) 0) { r with chan, ovf := true, ovfch := c, ovfns := tagOf tag } 3

/-- The words of a sample: the value, and the tag as R348 forms it. -/
def tagWord (c tag : Nat) : Nat :=
  if c < 8 then tagOf tag % 2 ^ 25 * 128 + fracOf tag / 512 else tagOf tag

/-- CAPTURE_SAMPLE: one stored sample of a channel. `v` is the value compared with a mask, if it is a number. A
violation in RUNNING ends the channel at this sample (R360). -/
def storeSample (s : State) (r : CapRec) (c word tag : Nat) (v : Option Q) : State :=
  let x := chanOf r c
  if 64 ≤ x.queue then overflow s r c tag
  else
    let j := (r.chans.findIdx? (· == c)).getD 0
    let off := recData r j + 8 * (x.total % recLenL r)
    let s := (recEcc r off 8).foldl caskPart s
    let r := { r with ue := match findRec s r.rid with | some q => q.ue | none => r.ue }
    let s := (s.mwrite (recAddr r off) 4 word).mwrite (recAddr r (off + 4)) 4 (tagWord c tag)
    let left := match x.left with
      | some n => some (n - 1)
      | none => if r.st == .running && r.acc ≤ tag then some (r.post - 1) else none
    let tab := x.mcfg / 2 ^ 24 % 16
    let bad := bit x.mcfg 31 && match v, maskIndex s r tab tag with
      | some q, some i => maskViol s q tab i
      | _, _ => false
    let viol := if bad then x.viol + 1 else 0
    let hit := bad && x.mcfg % 256 ≤ viol
    let x := { x with total := x.total + 1, tags := (tag :: x.tags).take (recLenL r), left, queue := x.queue + 1,
                      viol := if hit then 0 else viol,
                      endc := if hit && r.st == .running then 2 else if left == some 0 then 1 else 0,
                      mpos := if hit && r.st == .running then some (min (x.total + 1) (recLenL r) - 1) else x.mpos }
    let r := { r with chan := smSet {} r.chan c x, tend := max r.tend tag }
    let s := closeIfDone s r
    if hit then match findRec s r.rid with
      | some r => maskHit s r tag
      | none => s
    else s

/-- Where the capture DMA fetches a point or a node (R347). -/
def fetchAddr (s : State) (kind sel : Nat) : Nat :=
  if kind == 2 then 0x175004 else 0x01000000 + 16 * (if isStack s then sel % 262144 else sel % 1024)

/-- A fetch by M8: without the right it reads 0 and is recorded (R67, R347). -/
def dmaFetch (s : State) (kind sel word : Nat) (v : Option Q) : Nat × Option Q × State :=
  let a := fetchAddr s kind sel
  if kind == 0 || hasRight s 8 a 0 then (word, v, s) else (0, some (Q.ofNat 0), accErr s 8 a .denied)

/-- The source of a channel: SEL holds bits [7:4] and [2:0] of a KIND 0 source, a node in [13:0] of a KIND 2 one. -/
def srcSel (src : Nat) : Nat :=
  match src / 2 ^ 30 with
  | 0 => bits src 4 4 * 16 + src % 8
  | 2 => src % 2 ^ 14
  | _ => src % 2 ^ 18

/-- A sample of a source reaches the capture channels that take it (R347). Tags are whole nanoseconds but for the
correction of a reference channel (R250, R358). -/
def chanFeed (s : State) (kind sel : Nat) (word tag : Nat) (v : Option Q) : State :=
  (s.cap.recs.filter (fun r => r.st != .closed)).foldl (fun s r0 =>
    r0.chans.foldl (fun s c =>
      match (drainCask s).cap.recs.find? (fun r => r.rid = r0.rid) with
      | none => s
      | some r =>
        let x := chanOf r c
        if r.st == .closed || x.endc != 0 || x.src / 2 ^ 30 != kind || srcSel x.src != sel then s
        else
          let tag := tag / 65536 * 65536
          let tag := if kind == 0 && c < 8 then
              ((tag : Int) + toSigned 16 (s.fget CAP_CSKEW_SKEW c) * 512).toNat else tag
          let x := { x with seen := x.seen + 1 }
          let r := { r with chan := smSet {} r.chan c x }
          let s := setRec (drainCask s) r
          if x.seen % 2 ^ bits x.src 24 4 != 0 then s
          else
            let (word, v, s) := dmaFetch s kind sel word v
            storeSample s r c word tag v) s) s

/-- A converter result reaches PD3. -/
def inFeed (s : State) (x : CapIn) : State := chanFeed s 0 x.sel x.word x.tag (some (Q.ofNat (x.word / 4096)))

/-- Insertion by arrival. -/
def insIn (x : CapIn) : List CapIn → List CapIn
  | [] => [x]
  | h :: t => if x.at_ < h.at_ then x :: h :: t else h :: insIn x t

/-- The capture engine is brought to the present: results arrive and triggers reach the records, each at its instant, and
the outputs of triggers whose PD3 clock is over follow (R347, R353, R356). Whatever reads, arms or feeds the engine does so
first. -/
def capSettle (s : State) : State :=
  if !domOn s 3 then s
  else
    let due := (s.cap.arriving.filter (fun x => decide (x.at_ ≤ s.clk))).foldl (fun l x => insIn x l) []
    let s := { s with cap.arriving := s.cap.arriving.filter (fun x => decide (s.clk < x.at_)) }
    let s := due.foldl (fun s x => inFeed (deliver s (repTime s 3 - (s.clk - x.at_))) x) s
    let s := deliver s (repTime s 3)
    (outsDue s).foldl trigOut s

/-! ## Trigger events -/

/-- A trigger event of this device. -/
def localTrig (s : State) (cls cause t0 : Nat) (span : Time) : State := capSettle (ownTrig s cls cause t0 span)

/-- A fault group's latch (R203): CAUSE 0x20 + g. -/
def captureFault (s : State) (g : Nat) : State := localTrig s (16 + g) (0x20 + g) (repTime s 3) (15 * nsT)

/-- The device enters SAFE: CAUSE 0x06, T0 the PD0 clock of the change. -/
def captureSafe (s : State) : State := localTrig s 6 6 (netTime s * 3 / 327680 * 327680 / 3) usT

/-- Time trigger n fires: CAUSE 0x10 + n; T0 and A are its instant. -/
def captureTime (s : State) (n t0 : Nat) : State := localTrig s 7 (0x10 + n) t0 0

/-- A TRIG frame acted on (R273); A at most 50 ns after the frame's end (R365, assumption 22). -/
def captureLink (s : State) (t0 cause origin tseq : Nat) : State :=
  if !domOn s 3 then s
  else
    let (d, s) := drawBetween s 0 (50 * nsT)
    capSettle <| trigComes s { cls := 3, cause, origin, tseq, link := true, t0, acc := repTime s 3 + d }

/-! ## What feeds the engine -/

/-- A sample of a point or a node, fetched by the capture DMA. -/
def capFeed (s : State) (kind sel : Nat) (word tag : Nat) (v : Option Q) : State :=
  if !domOn s 3 || s.cap.recs.all (fun r => r.st == .closed) then s
  else capSettle (chanFeed (capSettle s) kind sel word tag v)

/-- A converter result: it reaches PD3 in 2.5 to 3.75 ns (R347, Table 2.8). -/
def capResult (s : State) (sel word tag : Nat) : State :=
  if !domOn s 3 || s.cap.recs.all (fun r => r.st == .closed) then s
  else
    let (d, s) := drawBetween s (5 * nsT / 2) (15 * nsT / 4)
    let s := capSettle s
    { s with cap.arriving := s.cap.arriving ++ [{ sel, word, tag, at_ := s.clk + d }] }

end Sys2Proof.Machine
end

