-- ==== Sys2Proof/Machine/Fault.lean ====
section
/-! DEFINITION. Fault sources, fault groups and safe codes (R198 to R204), the entry of a cell into SAFE (R25, R33,
R34, R204), and the pin codes (R200, R201, R219). -/

namespace Sys2Proof.Machine

open Host (Outcome)

/-- Fault sources (Table 7.4). -/
def SRC_CLKLOSS : Nat := 44
def SRC_MASH_OVR : Nat := 45
def SRC_MASH_PLAUS : Nat := 46
def SRC_MASH_UE : Nat := 47
def SRC_GRIST_UE : Nat := 48
def SRC_KILN_TRIP : Nat := 49
def SRC_IL : Nat := 50
def SRC_GD_FB : Nat := 51
def SRC_SPR_FAULT : Nat := 52
def SRC_STATE_SAFE : Nat := 53
def SRC_SWFORCE : Nat := 54
def SRC_TIMELOSS : Nat := 55

def uT : Nat := 80
def tapT : Nat := 1280

/-- A gate channel and a pair generator beside their registers. -/
def gdOf (s : State) (c : Nat) : GdChan := smGet {} s.gd c
def gdMod (s : State) (c : Nat) (f : GdChan → GdChan) : State := { s with gd := smMod {} s.gd c f }
/-- The check of a channel's feedback starts afresh (R215). -/
def gdSteady (s : State) (c : Nat) : State := gdMod s c (fun x => { x with steady := s.clk, mism := false })

/-- The held state of a phase that the feedback must agree with (R215): off hold and interlock, on hold, or none. -/
def heldState (ph : Nat) : Nat := if ph == 0 || ph == 6 then 0 else if ph == 3 then 1 else 2

/-- The sequencer enters a phase with its code (Table 8.1). -/
def gdPhase (s : State) (c ph code : Nat) : State :=
  let was := heldState (s.fget GD_STAT_PHASE c)
  let s := s.fsets [(GD_STAT_PHASE, c, ph), (GD_STAT_CODE, c, code)]
  if was == heldState ph then s else gdSteady s c

def pwmMod (s : State) (p : Nat) (f : PwmPair → PwmPair) : State := { s with pwm := smMod {} s.pwm p f }

/-- The other channel of a half-bridge. -/
def partner (c : Nat) : Nat := if c % 2 == 0 then c + 1 else c - 1

/-- A group's source mask, covered channels and codes. -/
def grpMask (s : State) (g : Nat) : Nat := s.fget FLT_GMASK0_MASK g + s.fget FLT_GMASK1_MASK g * 2 ^ 32
def grpCover (s : State) (g : Nat) : Nat := s.fget FLT_GCOVER_COVER g
def grpSafe1 (s : State) (g c : Nat) : Nat :=
  if c < 16 then s.fget (FLT_GCODE1A_SAFE1 c) g else s.fget (FLT_GCODE1B_SAFE1 (c - 16)) g
def grpSafe2 (s : State) (g c : Nat) : Nat :=
  if c < 16 then s.fget (FLT_GCODE2A_SAFE2 c) g else s.fget (FLT_GCODE2B_SAFE2 (c - 16)) g
/-- The group is enabled and latched. -/
def grpLatched (s : State) (g : Nat) : Bool := s.flag FLT_GCFG_EN g && s.flag FLT_GSTAT_LATCH g
/-- Codes 01 and 11 are on codes. -/
def onCode (code : Nat) : Bool := code == 1 || code == 3

/-- The lowest-numbered latched group that covers a channel sets its code (R201). -/
def forcingGrp (s : State) (c : Nat) : Option Nat :=
  (List.range 8).find? (fun g => grpLatched s g && bit (grpCover s g) c)

/-- The forced code of a channel, at the group's own step (R200). -/
def forcedCode (s : State) (c : Nat) : Option Nat :=
  (forcingGrp s c).map (fun g =>
    if bit (smGet 0 s.flt.moved g) c then grpSafe2 s g c else grpSafe1 s g c)

/-- The profile code at a channel's pins: 00 while its domain is off or in transition (R38), the forced code with
its prefix (R219), 00 while held for the next valley (R202), or the sequencer's code. -/
def pinCode (s : State) (c : Nat) : Nat :=
  if !(domOn s (instDom .gd c)) || domMoving s (instDom .gd c) then 0
  else match forcedCode s c with
    | some code => if (gdOf s c).pre then 0 else code
    | none => if bit s.flt.hold c then 0 else s.fget GD_STAT_CODE c

/-- Show which channels are forced, in GD_STAT and PWM_STAT, and start the force on those newly forced: a channel in
pre-charge or in the on slope that is forced to 10 carries 00 first (R219). -/
def syncForced (s : State) : State :=
  (List.range 24).foldl (fun s c =>
    let f := (forcingGrp s c).isSome
    let was := bit s.flt.forced c
    let s := if f && !was then
        let ph := s.fget GD_STAT_PHASE c
        let s := { s with flt.hold := putBit s.flt.hold c false }
        gdMod s c (fun x => { x with pre := (ph == 1 || ph == 2) && forcedCode s c == some 2, forceAt := s.clk })
      else if f then s
      else gdMod (if was then gdSteady s c else s) c (fun x => { x with pre := false })
    let s := s.fset GD_STAT_FORCED c (b2n f)
    let s := { s with flt.forced := putBit s.flt.forced c f }
    s.fset PWM_STAT_FORCED (c / 2) (b2n (bit s.flt.forced (c / 2 * 2) || bit s.flt.forced (c / 2 * 2 + 1))))
    s

/-- FIRST: among the masked live sources, the earliest stamp, then the lowest number (R203). -/
def firstSource (s : State) (mask : Nat) : Nat :=
  match (bitList 56 mask).filter (bit s.flt.live) with
  | [] => 0
  | a :: l => l.foldl (fun best n => if smGet 0 s.flt.stamp n < smGet 0 s.flt.stamp best then n else best) a

/-- FAULT_GROUP_LATCH (R200, R203): the codes are forced, FIRST is chosen, the latch is counted and is a fault event. -/
def grpLatch (s : State) (g : Nat) : State :=
  let s := s.fsets [(FLT_GSTAT_LATCH, g, 1), (FLT_GSTAT_STEP2, g, 0), (FLT_GSTAT_SECV, g, 0), (FLT_GSTAT_TIE, g, 0),
    (FLT_GSTAT_FIRST, g, firstSource s (grpMask s g)), (FLT_GSTAT_SECOND, g, 0)]
  let s := s.satAdd FLT_GCNT_LATCHES g
  let s := { s with flt.latchAt := smSet 0 s.flt.latchAt g s.clk, flt.moved := smSet 0 s.flt.moved g 0 }
  captureFault (syncForced s) g

/-- A masked source stamps while the group is latched (R203): it is SECOND when none is yet. One that carries FIRST's
stamp takes its place by number, whichever reached the latch first (R203, R220, assumption 49). -/
def grpSecond (s : State) (g n : Nat) : State :=
  let first := s.fget FLT_GSTAT_FIRST g
  let second := s.fget FLT_GSTAT_SECOND g
  let same := smGet 0 s.flt.stamp n == smGet 0 s.flt.stamp first
  if n == first then s
  else if !s.flag FLT_GSTAT_SECV g then
    let lead := same && decide (n < first)
    s.fsets [(FLT_GSTAT_FIRST, g, if lead then n else first), (FLT_GSTAT_SECOND, g, if lead then first else n),
      (FLT_GSTAT_SECV, g, 1), (FLT_GSTAT_TIE, g, b2n same)]
  else if same && (!s.flag FLT_GSTAT_TIE g || decide (n < second)) then
    s.fsets [(FLT_GSTAT_FIRST, g, min n first), (FLT_GSTAT_SECOND, g, max n first), (FLT_GSTAT_TIE, g, 1)]
  else s

/-- One enabled group sees a source assert; `stamped` when the assertion was stamped. -/
def grpSee (n : Nat) (stamped : Bool) (s : State) (g : Nat) : State :=
  if s.flag FLT_GCFG_EN g && bit (grpMask s g) n then
    if !s.flag FLT_GSTAT_LATCH g then grpLatch s g else if stamped then grpSecond s g n else s
  else s

/-- The live level of a source as FLT_SRCLIVE shows it. -/
def putLive (s : State) (n : Nat) (b : Bool) : State :=
  let s := { s with flt.live := putBit s.flt.live n b }
  if n < 32 then s.fset FLT_SRCLIVE0_LIVE 0 (putBit (s.fget FLT_SRCLIVE0_LIVE) n b)
  else s.fset FLT_SRCLIVE1_LIVE 0 (putBit (s.fget FLT_SRCLIVE1_LIVE) (n - 32) b)

/-- The flag of a source (FLT_SRCSTAT). -/
def srcFlag (s : State) (n : Nat) : Bool :=
  if n < 32 then bit (s.fget FLT_SRCSTAT0_FLAG) n else bit (s.fget FLT_SRCSTAT1_FLAG) (n - 32)
def putFlag (s : State) (n : Nat) (b : Bool) : State :=
  if n < 32 then s.fset FLT_SRCSTAT0_FLAG 0 (putBit (s.fget FLT_SRCSTAT0_FLAG) n b)
  else s.fset FLT_SRCSTAT1_FLAG 0 (putBit (s.fget FLT_SRCSTAT1_FLAG) (n - 32) b)

/-- A latch with SAFE at 1 that this assertion caused (R204). -/
def latchedSafe (s0 s : State) : Bool :=
  (List.range 8).any (fun g => grpLatched s g && s.flag FLT_GCFG_SAFE g && !grpLatched s0 g)

/-- The pulses that have lasted one clock of their island release their sources (R198). -/
def pulsesEnd (s : State) : State :=
  s.flt.pulse.foldl (fun s e =>
    if e.2 ≤ s.clk then { putLive s e.1 false with flt.pulse := smSet 0 s.flt.pulse e.1 0 } else s) s

/-- A source asserts (R198): its flag, the stamp of the first assertion since the flag was cleared, on the replica of PD7
(R44), and the groups that mask it. While PD7 is off nothing is recorded. -/
def srcAssertCore (s0 : State) (n : Nat) : State :=
  let s := pulsesEnd s0
  if bit s.flt.live n then s
  else if !domOn s 7 then { s with flt.live := putBit s.flt.live n true }
  else
    let s := putLive s n true
    let fresh := !srcFlag s n
    let s := if fresh then
        putFlag { s with flt.stamp := smSet 0 s.flt.stamp n (repTime s 7 / 65536) } n true
      else s
    (List.range 8).foldl (grpSee n fresh) s

/-- FAULT_SOURCE_RELEASE (R198). -/
def srcRelease (s : State) (n : Nat) : State :=
  if bit s.flt.live n then { putLive s n false with flt.pulse := smSet 0 s.flt.pulse n 0 } else s

/-- The precedence of causes within one stack cycle (R34). -/
def causeRank (c : Nat) : Nat :=
  if c == CA_FAULT then 1 else if c == CA_KILN then 2 else if c == CA_SELFCHECK then 3 else if c == CA_STREAMS then 4
  else if c == CA_LANE then 5 else if c == CA_PEER then 6 else if c == CA_TIME then 7 else if c == CA_COMMAND then 8
  else 9

/-- The source STATE_SAFE follows the state (Table 7.4). Where its assertion latches a group that takes the cell to SAFE
(R204), FAULT, the higher cause, is recorded in the cycle of the entry (R34), and the source releases with it. -/
def syncStateSafe (s : State) : State :=
  if !isStack s && devState s == ST_CSAFE && s.fget SYS_STATE_CAUSE != CA_FAULT then
    let s' := srcAssertCore s SRC_STATE_SAFE
    if latchedSafe s s' && s.cell.safeCycle == cycleNow s then srcRelease (setCause s' CA_FAULT) SRC_STATE_SAFE else s'
  else srcRelease s SRC_STATE_SAFE

/-- A change of state that a cause brings (R34): a second one in the same stack cycle continues the first, so that it counts
no further transition, PREV stays, and the cause of higher precedence is recorded. -/
def causedDev (s : State) (st cause : Nat) : State :=
  let old := s.fget SYS_STATE_CAUSE
  let again := s.cell.safeCycle == cycleNow s && [ST_DEGRADED, ST_COAST, ST_CSAFE, ST_TIME_LOCK].contains (devState s)
  let s := { s with cell.safeCycle := cycleNow s }
  if again then
    s.fsets [(SYS_STATE_CAUSE, 0, if causeRank cause < causeRank old then cause else old), (SYS_STATE_STATE, 0, st)]
  else setDev s st cause

/-- The pulse of PO0 or PO1 that a confirmation is awaited for, if any, ends. -/
def pulseEnd (s : State) : State :=
  if s.cell.confirm == 0 then s
  else { s with pins.po := putBit s.pins.po (s.cell.confirm - 1) false, cell.confirm := 0 }

/-- A pulse of PO0 (1) or PO1 (2) begins; one that goes on ends. -/
def bypassPulse (s : State) (k : Nat) (byCmd : Bool) : State :=
  let s := pulseEnd s
  { s with pins.po := putBit s.pins.po (k - 1) true, cell := { s.cell with confirm := k, pulseAt := s.clk, byCmd } }

/-- A cell enters SAFE (R33, R25): from JOINED to COAST one state change; in SAFE and BYPASSED, within the cycle of the
entry, only the cause of higher precedence is kept (R34). With auto-bypass enabled PO0 is pulsed once. -/
def enterSafe (s : State) (cause : Nat) : State :=
  if isStack s then s
  else if ST_JOINED ≤ devState s && devState s ≤ ST_COAST then
    let s := { causedDev s ST_CSAFE cause with cell.stopDue := true }
    let s := if (cfgOf s).autoBypass then bypassPulse s 1 false else s
    captureSafe (syncStateSafe s)
  else if ST_CSAFE ≤ devState s && s.cell.safeCycle == cycleNow s
      && causeRank cause < causeRank (s.fget SYS_STATE_CAUSE) then
    syncStateSafe (setCause s cause)
  else s

/-- A source asserts, with the state change that a latch brings (R204). -/
def srcAssert (s : State) (n : Nat) : State :=
  let s' := srcAssertCore s n
  if latchedSafe s s' then enterSafe s' CA_FAULT else s'

/-- A stack enters SAFE (R31, R32, R339): it releases a lease that it holds at the next boundary (R328). In SAFE, within
the cycle of the entry, only the cause of higher precedence is kept (R34). -/
def stackSafe (s : State) (cause : Nat) : State :=
  if !isStack s || devState s == ST_BOOT then s
  else if devState s == ST_SAFE then
    if s.cell.safeCycle == cycleNow s && causeRank cause < causeRank (s.fget SYS_STATE_CAUSE) then setCause s cause else s
  else
    let s := causedDev s ST_SAFE cause
    captureSafe { s with vote := { s.vote with release := holds s, claim := none } }

/-- Self-diagnosis (R338): the source asserts, and a stack withdraws. -/
def selfDiag (s : State) (src : Nat) : State := stackSafe (srcAssert s src) CA_SELFCHECK

/-- One clock of the island of a source that is only a pulse (R198, R43): the mash's, the grist's, or the counters'. -/
def pulseT (n : Nat) : Time := if n == SRC_GRIST_UE then 2 * nsT else if n == SRC_IL then clkT else nsT

/-- A source that is only a pulse asserts, and is held for one clock of its own island (R198). -/
def srcPulse (s : State) (n : Nat) : State :=
  let s := srcAssert s n
  { s with flt.pulse := smSet 0 s.flt.pulse n (s.clk + pulseT n) }

/-- A source follows a level. -/
def srcLevel (s : State) (n : Nat) (b : Bool) : State := if b then srcAssert s n else srcRelease s n

/-! ## Gate channel operations used by the release of a force -/

/-- The interlock of R214 for pair p: both channels are held in off hold. -/
def interlock (s : State) (p : Nat) : State :=
  let s := gdPhase (gdPhase s (2 * p) 6 0) (2 * p + 1) 6 0
  let s := s.fsets [(GD_STAT_WAIT, 2 * p, 0), (GD_STAT_WAIT, 2 * p + 1, 0),
    (GD_ILSTAT_EVT, 0, putBit (s.fget GD_ILSTAT_EVT) p true)]
  srcPulse (s.satAdd GD_ILCNT_CNT p) SRC_IL

/-- The channel runs: enabled, not forced, not held. -/
def gdLive (s : State) (c : Nat) : Bool :=
  s.flag GD_CFG_EN c && !bit s.flt.forced c && !bit s.flt.hold c

/-- Both conditions of R213: the partner's feedback reads 0 with the partner in off hold or in the off slope, and DT
counter clocks have passed since the partner's latest turn-off began. -/
def mayTurnOn (s : State) (c : Nat) : Bool :=
  let d := partner c
  let ph := s.fget GD_STAT_PHASE d
  !s.flag GD_STAT_FB d && (ph == 0 || ph == 5)
    && decide ((gdOf s d).offAt + s.fget GD_DT_DT (c / 2) * clkT ≤ s.clk || (gdOf s d).offAt == 0)

/-- A channel waits in off hold with its command high. -/
def waitsOff (s : State) (c : Nat) : Bool :=
  gdLive s c && (gdOf s c).cmd && s.flag GD_STAT_WAIT c && s.fget GD_STAT_PHASE c == 0

/-- Both channels of a half-bridge wait in off hold, and their commands rose in one counter clock (R214). -/
def roseTogether (s : State) (c : Nat) : Bool :=
  waitsOff s c && waitsOff s (partner c) && (gdOf s c).riseAt / clkT == (gdOf s (partner c)).riseAt / clkT

/-- The counter clock in which the channel's command rose, or in which an interlock hold of it ended, has passed: what else
happens in that clock, another edge, is known (R214). -/
def clockPassed (s : State) (c : Nat) : Bool :=
  decide (max (gdOf s c).riseAt (gdOf s c).freeAt / clkT < s.clk / clkT)

/-- The partner waits on an earlier rising edge, which is served first (R214). -/
def partnerFirst (s : State) (c : Nat) : Bool :=
  gdLive s (partner c) && s.flag GD_STAT_WAIT (partner c)
    && decide ((gdOf s (partner c)).riseAt / clkT < (gdOf s c).riseAt / clkT)

/-- A rising command reaches a channel that runs (R213): it waits; two commands of a half-bridge that rise in one
counter clock with both channels in off hold are an interlock event (R214). -/
def gdServeRise (s : State) (c : Nat) : State :=
  let ph := s.fget GD_STAT_PHASE c
  if ph == 0 || ph == 4 || ph == 5 then
    let s := s.fset GD_STAT_WAIT c 1
    if roseTogether s c then interlock s (c / 2) else s
  else s

/-- A channel returns to the gate drive unit (R202): it restarts in off hold; a command that is high is served as a
rising command. -/
def gdReturn (s : State) (c : Nat) : State :=
  let s := { s with flt.hold := putBit s.flt.hold c false }
  let s := (gdSteady (gdPhase s c 0 0) c).fset GD_STAT_WAIT c 0
  if (gdOf s c).cmd && s.flag GD_CFG_EN c then
    gdServeRise (gdMod s c (fun x => { x with riseAt := s.clk })) c
  else s

/-- GD_FB follows the feedback faults that GD_FBSRC selects (R215). -/
def syncGdFb (s : State) : State :=
  srcLevel s SRC_GD_FB ((bitList 24 (s.fget GD_FBSRC_EN)).any (fun c => s.flag GD_EVT_FBOFF c || s.flag GD_EVT_FBMIS c))

/-- A channel reaches off hold. A pending disable takes effect; a command that is high goes on waiting under R213 (R211,
R222). Two waiting commands whose edges came in one clock and that become eligible in this one are an interlock event
(R214). -/
def gdOffHold (s : State) (c : Nat) : State :=
  let s := gdPhase s c 0 0
  if (gdOf s c).stopping then
    (gdMod s c (fun x => { x with stopping := false })).fset GD_STAT_WAIT c 0
  else if (gdOf s c).cmd then
    let s := s.fset GD_STAT_WAIT c 1
    if roseTogether s c && mayTurnOn s c && mayTurnOn s (partner c) then interlock s (c / 2) else s
  else s.fset GD_STAT_WAIT c 0

/-- A channel enters the off slope; feedback that already reads 0 ends it. -/
def gdOffSlope (s : State) (c : Nat) : State :=
  let s := gdPhase (gdMod s c (fun x => { x with slopeAt := s.clk })) c 5 2
  if s.flag GD_STAT_FB c then s else gdOffHold s c

/-- GD_TURN_OFF_START (R211): from pre-charge or the on slope always with code 00 first. -/
def gdTurnOff (s : State) (c : Nat) : State :=
  let ph := s.fget GD_STAT_PHASE c
  let s := gdMod s c (fun x => { x with offAt := s.clk, tfb := s.flag GD_STAT_FB c })
  let s := s.fset GD_STAT_WAIT c 0
  if ph == 3 && s.fget GD_TOFF_TPDIS c == 0 then gdOffSlope s c
  else gdPhase s c 4 0

/-- The command of its partner no longer stands: an interlocked channel proceeds under R213 (R214). -/
def ilFree (s : State) (c : Nat) : State :=
  if s.fget GD_STAT_PHASE c == 6 then
    (gdPhase (gdMod s c (fun x => { x with freeAt := s.clk })) c 0 0).fset GD_STAT_WAIT c (b2n (gdOf s c).cmd)
  else s

/-- The command of a channel rises or falls (R210, R211, R213, R214). -/
def gdCommand (s : State) (c : Nat) (on : Bool) : State :=
  if (gdOf s c).cmd == on then s
  else
    let s := gdMod s c (fun x => { x with cmd := on, riseAt := if on then s.clk else x.riseAt })
    let s := if on then s else ilFree s (partner c)
    if !gdLive s c then s
    else if on then gdServeRise s c
    else
      let ph := s.fget GD_STAT_PHASE c
      if ph == 1 || ph == 2 || ph == 3 then gdTurnOff s c
      else if ph == 6 then gdPhase s c 0 0
      else s.fset GD_STAT_WAIT c 0

/-! ## Commands of the fault routing -/

/-- Record a refusal of the fault routing in PWM_ERR, pair 0xF (Table 7.7). -/
def pwmErr (s : State) (m p : Nat) (st : Status) : State :=
  recErr s PWM_ERR_VALID PWM_ERR_MULTI
    [(PWM_ERR_MASTER, 0, m), (PWM_ERR_PAIR, 0, p), (PWM_ERR_STATUS, 0, st.code)]

/-- A check of a block: OK carries the write out, another status is recorded and changes nothing (R8). -/
def guarded (st : Status) (s : State) (err : State → State) (eff : State → State) : Status × State :=
  if st == .ok then (.ok, eff s) else (st, err s)

/-- The group's safe codes that can be in force: SAFE1, and SAFE2 when there is a second step (R199). -/
def grpCodes (s : State) (g c safeT : Nat) : List Nat :=
  if safeT == 0 then [grpSafe1 s g c] else [grpSafe1 s g c, grpSafe2 s g c]

/-- The enable checks of R199. -/
def grpCheck (s : State) (g safeT : Nat) : Status :=
  let cov := bitList 24 (grpCover s g)
  let onCh := cov.filter (fun c => (grpCodes s g c safeT).any onCode)
  let unsafeSelf := onCh.any (fun c =>
    !(cov.contains (partner c)) || (grpCodes s g (partner c) safeT).any onCode)
  let clash := onCh.any (fun c => (List.range 8).any (fun h =>
    h != g && s.flag FLT_GCFG_EN h && bit (grpCover s h) (partner c)
      && (grpCodes s h (partner c) (s.fget FLT_GCFG_SAFE_T h)).any onCode))
  firstStatus [chk (grpMask s g == 0) .zeroNotAllowed, chk (unsafeSelf || clash) .conflict]

/-- A write of FLT_GCFG (R199): enabling checks the group, and latches it at once when a masked source is live
(R200). While EN is 1 only a write that clears EN alone, with LATCH 0, is not refused. -/
def gcfgEff (m g w : Nat) (s : State) : Status × State :=
  let en := bit w 31
  let was := s.flag FLT_GCFG_EN g
  let other := b2n (bit w 30) != s.fget FLT_GCFG_SAFE g || w % 65536 != s.fget FLT_GCFG_SAFE_T g
  let st := if was then chk (en || other || s.flag FLT_GSTAT_LATCH g) .conflict
    else if en then grpCheck s g (w % 65536) else .ok
  guarded st s (fun s => pwmErr s m 15 st) (fun s =>
    let s := s.fsets [(FLT_GCFG_EN, g, b2n en), (FLT_GCFG_SAFE, g, b2n (bit w 30)), (FLT_GCFG_SAFE_T, g, w % 65536)]
    let s := pulsesEnd s
    if en && !was && (bitList 56 (grpMask s g)).any (bit s.flt.live) then
      let s := grpLatch s g
      if s.flag FLT_GCFG_SAFE g then enterSafe s CA_FAULT else s
    else s)

/-- FAULT_GROUP_ENABLE (R199). -/
def execFaultGroupEnable (m : Master) (g : Grp) (w : Word) (s : State) : Outcome State Fault Refusal :=
  .next (rowWrite s m (0x102100 + 0x40 * g.val) w false (gcfgEff m g w.toNat))

/-- A W1C write of FLT_GSTAT.LATCH (R202): ignored while any masked source is live; otherwise the covered channels
that no other latched group forces hold 00 until the next valley of their pair, or return at once when the pair
does not run. -/
def gstatEff (g w : Nat) (s : State) : Status × State :=
  if bit w 31 && s.flag FLT_GSTAT_LATCH g && !(bitList 56 (grpMask s g)).any (bit (liveNow s)) then
    let held := (bitList 24 (grpCover s g)).filter (fun c => bit s.flt.forced c)
    let s := s.fsets [(FLT_GSTAT_LATCH, g, 0), (FLT_GSTAT_STEP2, g, 0)]
    let s := syncForced { s with flt.moved := smSet 0 s.flt.moved g 0 }
    (.ok, held.foldl (fun s c =>
      if bit s.flt.forced c then s
      else if s.flag PWM_STAT_RUN (c / 2) then { s with flt.hold := putBit s.flt.hold c true }
      else gdReturn s c) s)
  else (.ok, s)

/-- FAULT_LATCH_CLEAR (R202). -/
def execFaultLatchClear (m : Master) (g : Grp) (w : Word) (s : State) : Outcome State Fault Refusal :=
  .next (rowWrite s m (0x102120 + 0x40 * g.val) w false (gstatEff g w.toNat))

/-- A covered channel moves to SAFE2: at once for an off code, otherwise once its partner's feedback reads off
(R200). -/
def grpMove (g : Nat) (s : State) (c : Nat) : State :=
  if bit (grpCover s g) c && (!onCode (grpSafe2 s g c) || !s.flag GD_STAT_FB (partner c)) then
    { s with flt.moved := smSet 0 s.flt.moved g (putBit (smGet 0 s.flt.moved g) c true) }
  else s

/-- FAULT_GROUP_STEP2 (R200): SAFE_T × 10 ns after the latch. -/
def execFaultGroupStep2 (t : Time) (g : Grp) (s : State) : Outcome State Fault Refusal :=
  let s := s.at t
  .next (if grpLatched s g && s.fget FLT_GCFG_SAFE_T g != 0 && !s.flag FLT_GSTAT_STEP2 g
      && smGet 0 s.flt.latchAt g + s.fget FLT_GCFG_SAFE_T g * 10 * nsT ≤ s.clk then
    syncForced ((List.range 24).foldl (grpMove g) (s.fset FLT_GSTAT_STEP2 g 1))
  else s)

/-- FORCE_PREFIX_END (R219): 4 to 6 ns after the force began. -/
def execForcePrefixEnd (t : Time) (c : Chan) (s : State) : Outcome State Fault Refusal :=
  let s := s.at t
  .next (if (gdOf s c).forceAt + 4 * nsT ≤ s.clk then gdMod s c (fun x => { x with pre := false }) else s)

/-- FORCE_SEQUENCER_SYNC (R219): 2 to 3 counter clocks after the force began, the sequencer enters off hold, and that clock counts as the start of a turn-off. -/
def execForceSequencerSync (t : Time) (c : Chan) (s : State) : Outcome State Fault Refusal :=
  let s := s.at t
  .next (if bit s.flt.forced c && decide ((gdOf s c).forceAt + 2 * clkT ≤ s.clk) then
    let s := gdMod s c (fun x => { x with offAt := s.clk, tfb := s.flag GD_STAT_FB c })
    (gdPhase s c 0 0).fset GD_STAT_WAIT c 0
  else s)

/-- The FLT pin n carries its active level. -/
def fltActive (s : State) (n : Nat) : Bool := bit s.flt.pin n == s.flag (FLT_PINCFG_POL n)

/-- A FLT pin's level is taken (R198): without deglitch an active level asserts at once; the source releases as soon
as the pin is inactive. -/
def fltTake (s : State) (n : Nat) : State :=
  if fltActive s n then
    if s.fget (FLT_PINCFG_DGL n) == 0 then srcAssert s (24 + n)
    else if bit s.flt.dgl n then s
    else { s with flt.dgl := putBit s.flt.dgl n true, flt.dglAt := smSet 0 s.flt.dglAt n s.clk }
  else srcRelease { s with flt.dgl := putBit s.flt.dgl n false } (24 + n)

/-- FLT_PIN_CHANGE (R198). The pins are ignored in reset (R52). -/
def execFltPinChange (t : Time) (n : Fin 4) (level : Bool) (s : State) : Outcome State Fault Refusal :=
  let s := s.at t
  let s := { s with flt.pin := putBit s.flt.pin n level }
  .next (if domOn s 7 then fltTake s n else s)

/-- The deglitch time of a FLT pin (Table 7.7). -/
def dglTime (s : State) (n : Nat) : Time := [0, 5, 20, 100].getD (s.fget (FLT_PINCFG_DGL n)) 0 * nsT

/-- FLT_DEGLITCH_EXPIRY (R198): the active level has held for the deglitch time. -/
def execFltDeglitchExpiry (t : Time) (n : Fin 4) (s : State) : Outcome State Fault Refusal :=
  let s := s.at t
  .next (if bit s.flt.dgl n && fltActive s n && decide (smGet 0 s.flt.dglAt n + dglTime s n ≤ s.clk) then
    srcAssert { s with flt.dgl := putBit s.flt.dgl n false } (24 + n.val) else s)

/-- A write of FLT_SWFORCE: source 54 follows FORCE (Table 7.4). -/
def swforceEff (w : Nat) (s : State) : Status × State :=
  (.ok, srcLevel (s.fset FLT_SWFORCE_FORCE 0 (w % 2)) SRC_SWFORCE (bit w 0))

/-- FAULT_SWFORCE (R198). -/
def execFaultSwforce (m : Master) (w : Word) (s : State) : Outcome State Fault Refusal :=
  .next (rowWrite s m 0x102024 w false (swforceEff w.toNat))

/-- A W1C write of the source flags (R202): ignored for a source that is live; the stamp goes with the flag. -/
def srcstatEff (lo w : Nat) (s : State) : Status × State :=
  (.ok, (bitList 32 w).foldl (fun s n =>
    if bit (liveNow s) (lo + n) || !srcFlag s (lo + n) then s
    else putFlag { s with flt.stamp := smSet 0 s.flt.stamp (lo + n) 0 } (lo + n) false) s)

/-- A write of another register of a group: refused with CONFLICT while the group is enabled (R199). -/
def grpRegEff (m g : Nat) (F : List Fld) (w : Nat) (s : State) : Status × State :=
  let st := chk (s.flag FLT_GCFG_EN g) .conflict
  guarded st s (fun s => pwmErr s m 15 st) (fun s => F.foldl (fun s F => s.fset F g (bits w F.lo F.width)) s)

/-- A write of FLT_TSIDX: a source from 0 to 55 (Table 7.8, R10). -/
def tsidxEff (m i w : Nat) (s : State) : Status × State :=
  let st := chk (55 < w % 64) .range
  guarded st s (fun s => pwmErr s m 15 st) (fun s => s.fset FLT_TSIDX_SRC i (w % 64))

/-- A write of FLT_PINCFG: the pins are taken anew under the new polarity. -/
def pincfgEff (w : Nat) (s : State) : Status × State :=
  (.ok, (List.range 4).foldl (fun s n =>
    fltTake (s.fsets [(FLT_PINCFG_POL n, 0, b2n (bit w (4 * n + 3))), (FLT_PINCFG_DGL n, 0, bits w (4 * n) 2)]) n) s)

end Sys2Proof.Machine
end

