-- ==== Sys2Proof/Machine/Reset.lean ====
section
/-! DEFINITION. Taking a reset, as one shared operation for each scope (R50 to R54, R77), the strap samples
(R1, R2, R53), and the service of switch requests (R39). -/

namespace Sys2Proof.Machine

/-- The code of a reset source (Table 2.10), which is also its bit in SYS_RSTCAUSE. -/
def srcCode : RstSrc → Nat
  | .por => 0 | .bor => 1 | .pin => 2 | .clkloss => 3 | .wdog => 4 | .lockstep => 5 | .memerr => 6 | .swsys => 7
  | .debug => 8 | .strapchg => 9

/-- The source asks for a cold reset (Table 2.10). -/
def srcCold : RstSrc → Bool
  | .por | .bor | .pin | .clkloss | .strapchg => true
  | _ => false

/-- The bit of a source in SYS_RSTCAUSE. -/
def srcFld : RstSrc → Fld
  | .por => SYS_RSTCAUSE_POR | .bor => SYS_RSTCAUSE_BOR | .pin => SYS_RSTCAUSE_PIN
  | .clkloss => SYS_RSTCAUSE_CLKLOSS | .wdog => SYS_RSTCAUSE_WDOG | .lockstep => SYS_RSTCAUSE_LOCKSTEP
  | .memerr => SYS_RSTCAUSE_MEMERR | .swsys => SYS_RSTCAUSE_SWSYS | .debug => SYS_RSTCAUSE_DEBUG
  | .strapchg => SYS_RSTCAUSE_STRAPCHG

/-- LAST: the source of broadest scope, and among sources of one scope the lowest code (R51). -/
def lastSrc (l : List RstSrc) : Nat :=
  match (l.filter srcCold).map srcCode with
  | a :: as => as.foldl min a
  | [] => match l.map srcCode with | a :: as => as.foldl min a | [] => 0

/-- Set the bits of the sources that fired, and LAST. -/
def setCauses (s : State) (l : List RstSrc) : State :=
  (l.foldl (fun s x => s.fset (srcFld x) 0 1) s).fset SYS_RSTCAUSE_LAST 0 (lastSrc l)

/-- SYS_RSTCAUSE as a word. -/
def rstCauseWord (s : State) : Nat :=
  s.fget SYS_RSTCAUSE_LAST * 2 ^ 28 + s.fget SYS_RSTCAUSE_SYSCNT * 2 ^ 16
    + ([RstSrc.por, .bor, .pin, .clkloss, .wdog, .lockstep, .memerr, .swsys, .debug, .strapchg].foldl
        (fun w x => w + s.fget (srcFld x) * 2 ^ srcCode x) 0)

/-- The journal entry of a reset (R93): always made, even when the journal is full (R94). Its MASTER and STATUS, for which
Table 3.22 gives no value at a reset, are 0 (DESIGN CHOICE, assumption 50). -/
def jnlReset (s : State) : State := jnlAdd s 0 3 0 0 (rstCauseWord s) 0

/-- The domains whose request differs from their state, lowest first (R39). A retired domain is not switched on. -/
def domWaiting (s : State) : List Nat :=
  (List.range' 1 16).filter (fun d => domReq s d != domOn s d && !(domReq s d && domRetired s d))

/-- Serve the next request when no domain is in transition (R39), and show BUSY for those in transition or waiting. -/
def serveDomains (s : State) : State :=
  let s := match s.sys.domBusy with
    | some _ => s
    | none => match domWaiting s with
      | d :: _ => { s with sys.domBusy := some (d, domReq s d) }
      | [] => s
  let moving := match s.sys.domBusy with | some (d, _) => [d] | none => []
  s.fset PWR_DOMBUSY_BUSY 0
    ((domWaiting s ++ moving).foldl (fun w d => putBit w (d - 1) true) 0)

/-- Cold reset (R50): everything takes its reset value; the flash, the OTP, the balls and the elapsed clock stand
outside it, network time begins at 0 (Table 12.2), and SYS_RSTCAUSE keeps only the bits of the sources that fired (R54). `ph` is where the device then
waits. -/
def coldReset (s : State) (srcs : List RstSrc) (ph : Phase) : State :=
  let r : State :=
    { State.blank with
      clk := s.clk, flash := s.flash, free := s.free, pending := s.pending
      sec := { otp := s.sec.otp }
      pins := { s.pins with po := 0, trigxLow := false, fqRstN := false }
      flt := { pin := s.flt.pin }
      tim := { at_ := s.clk }
      sys := { phase := ph, since := s.clk } }
  jnlReset (setCauses r srcs)

/-- A register field instance that a system reset keeps (R50, R383, R385, R394): SYS_RSTCAUSE, SYS_BOOT.TRIES,
SYS_ERRCNT, the journal's HEAD and counters, the TIM block, CLK_STAT, the lane quads, and what cold reset alone
loads or clears (straps, retirement, self-test record, OTP shadow, debug challenge, certificate). -/
def sysKeeps (k : Nat) : Bool :=
  let a := keyAddr k
  a == 0x4 || a == 0x10 || a == 0x24 || a == 0x28 || k == SYS_BOOT_TRIES.key 0
    || a == 0x20020 || a == 0x20024 || a == 0x30010
    || a / 65536 == 4 || a / 65536 == 0x14
    || (a / 65536 == 6 && (a == 0x60004 || (0x60020 ≤ a && a < 0x60040) || (0x60060 ≤ a && a < 0x60084)
        || 0x60100 ≤ a))
    || k == SEC_STAT_SLOTVALID.key 0 || k == SEC_STAT_SLOTREV.key 0 || k == SEC_STAT_VREV.key 0
    || k == SEC_STAT_ENRLOCK.key 0 || k == SEC_STAT_OTPBUSY.key 0 || k == VOTE_LEASE_OWN.key 0
    || k == PWR_DOMCTL_REQ.key 0 || k == PWR_DOMSTAT_ON.key 0 || k == PWR_DOMBUSY_BUSY.key 0

/-- What a system reset leaves of the state, before its causes are recorded (R50, R52, R77): PD0 but for the parts
kept, and PD1 to PD9, take their reset values; the lane quads, the TIM block with its servo and holdover, and the journal run
on, and so do the sources that show CLK_STAT's and TIM's state, CLKLOSS (44) and TIMELOSS (55). TIM's last reset, from which
R308 counts the frames used, is thus a cold one (DEDUCED, assumption 46). -/
def sysResetCore (s : State) : State :=
  let r : State :=
    { State.blank with
      clk := s.clk, flash := s.flash, free := s.free, pending := s.pending, tim := s.tim
      regs := s.regs.filter (fun e => sysKeeps e.1), eff := s.eff.filter (fun e => sysKeeps e.1)
      sec := { otp := s.sec.otp, otpQ := s.sec.otpQ, ecc := s.sec.ecc.filter (fun e => e.1 / 2 ^ 20 == 1)
               scrub := [0, 1].foldl (fun m k => smSet {} m k { at_ := s.clk }) [] }
      mbx := { jnl := s.mbx.jnl, jnlNum := s.mbx.jnlNum }
      pins := { s.pins with po := 0, trigxLow := false }
      flt := { pin := s.flt.pin, live := s.flt.live &&& (2 ^ 44 + 2 ^ 55) }
      lanes := s.lanes, link := s.link, jtag := s.jtag
      sys := { phase := .selfTest, lostAt := s.sys.lostAt, realign := s.sys.realign, repl := s.sys.repl.filter (fun e => 10 ≤ e.1), replAt := s.sys.replAt.filter (fun e => 10 ≤ e.1), testing := s.sys.testing / 1024 * 1024
               domBusy := match s.sys.domBusy with
                 | some (d, b) => if 10 ≤ d then some (d, b) else none
                 | none => none } }
  r.fsets
    [(PWR_DOMCTL_REQ, 0, s.fget PWR_DOMCTL_REQ / 512 * 512),
     (PWR_DOMSTAT_ON, 0, s.fget PWR_DOMSTAT_ON / 1024 * 1024 + 1),
     (PWR_DOMBUSY_BUSY, 0, s.fget PWR_DOMBUSY_BUSY / 512 * 512)]

/-- The straps read as SYS_STRAP holds them. -/
def strapsMatch (s : State) (p : Straps) : Bool :=
  p.role == s.flag SYS_STRAP_ROLE && 2 * b2n p.sid1 + b2n p.sid0 == s.fget SYS_STRAP_SID

/-- A system reset by the given sources, with the straps as sampled at it: a difference makes it a cold reset with
cause STRAPCHG (R53), and so does a cold source in the same PD0 clock (R51). -/
def systemReset (s : State) (srcs : List RstSrc) (p : Straps) : State :=
  let s := { s with pins.straps := p }
  if srcs.any srcCold then coldReset s srcs .refWatch
  else if !strapsMatch s p then coldReset s (srcs ++ [.strapchg]) .refWatch
  else
    let last := lastSrc srcs
    let r := sysResetCore s
    let r := (srcs.foldl (fun r x => r.fset (srcFld x) 0 1) r).fset SYS_RSTCAUSE_LAST 0 last
    serveDomains (jnlReset (r.satAdd SYS_RSTCAUSE_SYSCNT 0))

/-- The three samples agree (R53). -/
def samplesAgree (a b c : Straps) : Bool := a == b && b == c

/-- STRAP_SAMPLE: role, stack identity and SID_BAD are fixed in SYS_STRAP (R1, R2, R29), and the reset values that
depend on the role are set. -/
def strapSample (s : State) (p : Straps) : State :=
  let sid := 2 * b2n p.sid1 + b2n p.sid0
  s.fsets [(SYS_STRAP_ROLE, 0, b2n p.role), (SYS_STRAP_SID, 0, sid),
    (SYS_STRAP_SID_BAD, 0, b2n (p.role && sid == 3)), (VOTE_LEASE_OWN, 0, sid),
    (TIM_CFG_SRC, 0, if p.role then 0 else 2), (TIM_CFG_PORT, 0, if p.role then 2 else 0),
    (TIM_SERVO_BW, 0, if p.role then 10 else 100), (TIM_LOCKCFG_LOCKTH, 0, if p.role then 400 else 4)]

end Sys2Proof.Machine
end

