-- ==== Sys2Proof/Machine/Ecc.lean ====
section
/-! DEFINITION. What an uncorrectable memory word does (Table 16.1, R117, R153, R349, R379), the scrubber (R380) and
the error injection (R382). -/

namespace Sys2Proof.Machine
open Host

def bankEcc : Nat := 13440

/-- A source of the mash engine or the grist asserts; a stack withdraws (R148, R338). -/
def memFault (s : State) (src : Nat) : State :=
  if isStack s then stackSafe (srcPulse s src) CA_SELFCHECK else srcPulse s src

/-- Symbols in error XORed into the data of a word, as 32-bit words. -/
def xorSyms (l : List (Nat × Nat)) (j w : Nat) : Nat :=
  l.foldl (fun w e => if e.1 / 4 == j && e.1 < 32 then w ^^^ (e.2 * 2 ^ (8 * (e.1 % 4))) else w) w

/-- Blocks of the active bank whose state extent holds a state word (R153): by the STATE field and the type's size. -/
def blkStates (ty n : Nat) : Nat :=
  if ty == 0x10 || ty == 0x31 then 1 else if ty == 0x12 || ty == 0x13 || ty == 0x14 then 2
  else if ty == 0x11 || ty == 0x23 || ty == 0x51 then 3 else if ty == 0x50 then n else 0

/-- Bank b holds the shipped bill (R155), as it was loaded. -/
def holdsShipped (s : State) (b : Nat) : Bool := bit s.mash.shipBank b && !bit s.mash.shipMod b

/-- A block of the shipped bill restarts from its initial values. Which one owns a state word is not given: each of the
bill's blocks may be one of them (free values, assumption 4). -/
def shipRestart (s : State) : State :=
  let (v, s) := drawFree s
  let groups := [[0, 1, 2], [3], [4], [5], [6], [7], [8], [9], [10], [12], [13]]
  { s with mash.st := (groups.zipIdx.filter (fun e => bit v e.2)).foldl (fun m e =>
    e.1.foldl (fun m i => smSet 0 m i 0) m) s.mash.st }

/-- The word index of a mailbox byte: master, mailbox and offset (R379). -/
def mbxEcc (key : Nat) : Nat := key / 32

/-- An uncorrectable word (Table 16.1), already counted: what the owning unit does. In MEM 0 the reset follows
separately. -/
def eccHandle (s : State) (mem word : Nat) : State :=
  let bad := eccSyms s mem word
  let fresh (s : State) := eccStored s mem word
  match mem with
  | 1 => fresh { s with mbx.jnl := smSet [] s.mbx.jnl word (List.replicate 8 0) }
  | 2 =>
    let b := word / bankEcc
    let s := { s with mash.bankUe := putBit s.mash.bankUe b true }
    if b == actBank s then
      memFault { s with mash.ueNow := true } SRC_MASH_UE
    else s
  | 3 =>
    fresh ((List.range 8).foldl (fun s j =>
      let n := 8 * word + j
      if n < 2 then s
      else
        let v := smGet 0 s.mash.nodes n
        let w := xorSyms bad j (v % 2 ^ 32)
        { s with mash.nodes := smSet 0 s.mash.nodes n (w + putBit (v / 2 ^ 32) 0 true * 2 ^ 32) }) s)
  | 4 =>
    if holdsShipped s (actBank s) then memFault (fresh (shipRestart s)) SRC_MASH_UE
    else
    let words (e i : Nat) := bankW s (actBank s) (1024 + 8 * e + i)
    let n := bits (bankW s (actBank s) 0) 0 13
    let owns (e : Nat) : Bool :=
      let st := words e 6 % 2 ^ 15
      let ty := bits (words e 0) 24 8
      let nn := f32v (parW s (actBank s) (words e 5 % 65536))
      let k := blkStates ty nn.floor.toNat
      decide (st < 4 * word + 4) && decide (4 * word < st + k)
    let l := (List.range n).filter owns
    memFault (fresh { s with mash.init := (s.mash.init.filter (fun i => !l.contains i)) ++ l }) SRC_MASH_UE
  | 5 =>
    let s := [2 * word, 2 * word + 1].foldl (fun s k =>
      let a := 0x01000000 + 16 * k
      ((s.mwrite a 4 0).mwrite (a + 4) 4 0).mwrite (a + 12) 4 (putBit (s.mread (a + 12) 4) 22 true)) s
    memFault (fresh s) SRC_GRIST_UE
  | 6 =>
    let s := [0, 1, 2, 3].foldl (fun s j => { s with grist.dir := smSet 0 s.grist.dir (4 * word + j) 0 }) s
    let s := { s with grist.lost := s.grist.lost ++ (List.range 4).map (4 * word + ·) }
    memFault (fresh (syncRoutes s 0)) SRC_GRIST_UE
  | 7 => caskBad s word
  | 8 => fresh ((List.range 8).foldl (fun s j => s.mwrite (0x03000000 + 32 * word + 4 * j) 4 0x7fc00000) s)
  | _ => s

/-- A read access, a partial write or a scrub of a word of MEM 1 to 8: corrected, or handled (R379). -/
def eccRead (s : State) (mem word : Nat) : State :=
  if s.sec.ecc.isEmpty then s
  else let (bad, s) := eccFetch s mem word; if bad then eccHandle s mem word else s

/-- A write narrower than a word: its read first, then the word is stored (R379). -/
def eccPart (s : State) (mem word : Nat) : State :=
  match eccSyms s mem word with
  | [] => eccStored s mem word
  | [_] => eccStored (eccCorr s mem) mem word
  | _ => eccStored (eccHandle (eccUncorr s mem word) mem word) mem word

/-- The reset of Table 16.1, when a word of supervisor memory (MEM 0) that an access reads is uncorrectable; a write is
then lost (R379). -/
def eccSupReset (s : State) (words : List Nat) : Option State :=
  if s.sec.ecc.isEmpty then none
  else (words.find? (fun w => 2 ≤ (eccSyms s 0 w).length)).map
    (fun w => systemReset (eccUncorr s 0 w) [.memerr] s.pins.straps)

/-- A read of supervisor memory; what follows reads corrected words. -/
def eccSupGet (s : State) (words : List Nat) (eff : State → State) : State :=
  match eccSupReset s words with
  | some r => r
  | none => eff (if s.sec.ecc.isEmpty then s else words.foldl (fun s w => (eccFetch s 0 w).2) s)

/-- A write into supervisor memory. -/
def eccSupPut (s : State) (words : List Nat) (eff : State → State) : State :=
  match eccSupReset s words with
  | some r => r
  | none => words.foldl (fun s w => eccStored (if (eccSyms s 0 w).isEmpty then s else eccCorr s 0) 0 w) (eff s)

/-! ## Scrubber and injection -/

/-- The domain and the number of words of a memory (Table 16.1). -/
def memDom (mem : Nat) : Nat := [0, 0, 1, 1, 1, 2, 2, 3, 4].getD mem 0
def memWords (mem : Nat) : Nat := [65536, 4096, 26880, 2048, 8192, 131072, 4096, 524288, 32768].getD mem 0

def scrubOf (s : State) (mem : Nat) : Scrub := smGet {} s.sec.scrub mem
def scrubSet (s : State) (mem : Nat) (x : Scrub) : State := { s with sec.scrub := smSet {} s.sec.scrub mem x }
/-- The end of a pass's PASS × 10 ms. -/
def scrubEnd (s : State) (x : Scrub) : Time := x.at_ + s.fget SEC_SCRUBCFG_PASS * 10 * msT
/-- A pass begins now in each of the memories. -/
def scrubBegin (s : State) (mems : List Nat) : State := mems.foldl (fun s m => scrubSet s m { at_ := s.clk }) s
/-- The memories of a domain. -/
def domMems (d : Nat) : List Nat := (List.range 9).filter (fun m => memDom m == d)

/-- One more word among the spans of words read. -/
def spanAdd (w : Nat) : List (Nat × Nat) → List (Nat × Nat)
  | [] => [(w, w + 1)]
  | (a, b) :: l =>
    if w + 1 < a then (w, w + 1) :: (a, b) :: l
    else if w + 1 = a then (w, b) :: l
    else if w < b then (a, b) :: l
    else if w = b then
      match l with
      | (c, d) :: l' => if c = w + 1 then (a, d) :: l' else (a, w + 1) :: (c, d) :: l'
      | [] => [(a, w + 1)]
    else (a, b) :: spanAdd w l

/-- The pass has read every word; it has read this one. -/
def scrubFull (mem : Nat) (x : Scrub) : Bool := x.seen == [(0, memWords mem)]
def scrubHas (x : Scrub) (w : Nat) : Bool := x.seen.any (fun e => decide (e.1 ≤ w) && decide (w < e.2))

/-- The pass that goes on at this instant: a complete one is followed, at the end of its PASS, by the next. -/
def scrubNow (s : State) (mem : Nat) : Scrub :=
  let x := scrubOf s mem
  if scrubFull mem x && decide (scrubEnd s x ≤ s.clk) then { at_ := scrubEnd s x } else x

/-- The pass has read one more word; one that overran is followed by the next as soon as it is complete. -/
def scrubRead (s : State) (mem w : Nat) : State :=
  let x := scrubNow s mem
  let x := { x with seen := spanAdd w x.seen }
  scrubSet s mem (if scrubFull mem x && x.late then { at_ := s.clk } else x)

/-- SCRUB_WORD (R380): one word is read and written back, once in each pass. A memory whose domain is off is skipped, and
PASS 0 means no scrubbing. -/
def execScrubWord (t : Time) (mem : Fin 9) (word : Nat) (straps : Straps) (s : State) :
    Outcome State Fault Refusal :=
  let s := s.at t
  .next (if s.fget SEC_SCRUBCFG_PASS == 0 || !domOn s (memDom mem) || memWords mem ≤ word
      || scrubHas (scrubNow s mem) word then s
  else
    let s := scrubRead s mem word
    let s0 := s
    let (bad, s) := eccFetch s mem word
    if bad then
      if mem.val == 0 then systemReset s [.memerr] straps else eccHandle s mem word
    else if eccSyms s0 mem word == [] then eccStored s mem word else s)

/-- SCRUB_PASS_DEADLINE (R380): PASS × 10 ms of a pass end. A complete pass is followed by the next; an incomplete one is
BEHIND, once, and goes on. -/
def execScrubPassDeadline (t : Time) (mem : Fin 9) (s : State) : Outcome State Fault Refusal :=
  let s := s.at t
  let x := scrubOf s mem
  .next (if s.fget SEC_SCRUBCFG_PASS == 0 || !domOn s (memDom mem) || decide (s.clk < scrubEnd s x) || x.late then s
  else if scrubFull mem x then scrubSet s mem (scrubNow s mem)
  else (scrubSet s mem { x with late := true }).fset SEC_SCRUBSTAT_BEHIND 0
    (putBit (s.fget SEC_SCRUBSTAT_BEHIND) mem true))

/-- A write of SEC_SCRUBCFG: from PASS 0 on every powered memory begins a pass. -/
def scrubCfgEff (w : Nat) (s : State) : Status × State :=
  let s1 := s.fset SEC_SCRUBCFG_PASS 0 (w % 65536)
  (.ok, if s.fget SEC_SCRUBCFG_PASS == 0 && w % 65536 != 0 then
      scrubBegin s1 ((List.range 9).filter (fun m => domOn s (memDom m))) else s1)

/-- A write of SEC_EINJ (R382); only a write that arms is judged beyond MEM. -/
def einjEff (m w : Nat) (s : State) : Status × State :=
  let mem := bits w 24 4
  let sym := bits w 16 6
  let sym2 := bits w 10 6
  let arm := bit w 31
  let st := firstStatus [chk (8 < mem || 35 < sym || 35 < sym2) .range, chk (arm && w % 256 == 0) .range,
    chk (arm && bit w 9 && sym == sym2) .conflict, chk (arm && inService s) .conflict]
  guarded st s (fun s => secErr s m st) (fun s =>
    s.fsets [(SEC_EINJ_ARM, 0, b2n arm), (SEC_EINJ_MEM, 0, mem), (SEC_EINJ_SYM, 0, sym), (SEC_EINJ_SYM2, 0, sym2),
      (SEC_EINJ_TWO, 0, bits w 9 1), (SEC_EINJ_PAT, 0, w % 256)])

/-- ERROR_INJECT_ARM (R382). -/
def execErrorInjectArm (m : Master) (w : Word) (s : State) : Outcome State Fault Refusal :=
  .next (rowWrite s m 0x60058 w false (einjEff m w.toNat))

end Sys2Proof.Machine
end

