-- ==== Sys2Proof/Machine/Grist.lean ====
section
/-! DEFINITION. The grist (Chapter 4): the directory, the point records, the accepted writers, publication, and the
window's latches and staging. A point's record stands in the memory window at 16 × its slot; in cell role the slot is
the low ten bits of the point number (R98, R99). -/

namespace Sys2Proof.Machine

open Host (Outcome)

/-! ## Directory -/

def dRate (e : Nat) : Nat := bits e 60 3
def dPhase (e : Nat) : Nat := bits e 26 6
def dTol (e : Nat) : Nat := bits e 22 4
def dDband (e : Nat) : Nat := e % 65536

/-- Codes of Table 4.4. -/
def SRC_REF : Nat := 0
def SRC_MASH : Nat := 1
def SRC_TEL : Nat := 4
/-- Codes of Table 4.3 that take 64 bits, and TIME64. -/
def ty64 (t : Nat) : Bool := t == 5 || t == 6 || t == 7 || t == 10

/-- The entry as it stood at the cycle boundary (R103). -/
def dirEntAt (s : State) (e : Nat) : Nat :=
  if !isStack s && e < 2 then fixedEntry SRC_SYS e else smGet 0 s.grist.dirAt e

/-- The point number of a slot. -/
def ptOfSlot (s : State) (k : Nat) : Nat := if isStack s then k else ownOrigin s * 1024 + k
/-- A point number names a valid point. -/
def ptValid (s : State) (p : Nat) : Bool := match slotOf s p with | some k => slotValid s k | none => false

/-- Record a refusal in PT_ERR and PT_ERRPT. -/
def ptErr (s : State) (m : Nat) (st : Status) (p : Nat) : State :=
  recErr s PT_ERR_VALID PT_ERR_MULTI [(PT_ERR_MASTER, 0, m), (PT_ERR_STATUS, 0, st.code), (PT_ERRPT_POINT, 0, p)]

/-! ## Records -/

def putW (s : State) (k i w : Nat) : State := s.mwrite (0x01000000 + 16 * k + 4 * i) 4 w
def slotValue (s : State) (k : Nat) : Nat := recW s k 0 + recW s k 1 * 2 ^ 32
def slotTag (s : State) (k : Nat) : Nat := recW s k 2
def slotMeta (s : State) (k : Nat) : Nat := recW s k 3
def M_WRITTEN : Nat := 26
def M_STALE : Nat := 25
def M_LATE : Nat := 24
def M_SUBST : Nat := 23
def M_BAD : Nat := 22

/-- TYPE, RACKED and SRC of META from the directory entry (R104). -/
def metaDir (e : Nat) : Nat := dType e * 2 ^ 28 + b2n (dRack e) * 2 ^ 27 + dSrc e * 2 ^ 16

/-- One tag is later than another (R105). -/
def tagLater (new old : Nat) : Bool := let d := (new + 2 ^ 32 - old) % 2 ^ 32; 1 ≤ d && d < 2 ^ 31
/-- The latest network time, not after now, with a tag; in units of 2⁻¹⁶ ns. -/
def unwrapTag (s : State) (tag : Nat) : Nat :=
  let now := netTime s / 65536
  (now - (now % 2 ^ 32 + 2 ^ 32 - tag) % 2 ^ 32) * 65536

/-- A value extended to 64 bits by its type (R101). -/
def extendPt (type lo : Nat) : Nat := if type == 3 && bit lo 31 then 0xffffffff else 0

/-- A point's value as a number (R127): none for a value that is not finite, and for TIME64. -/
def ptQ (type v : Nat) : Option Q :=
  match type with
  | 3 => some (Q.ofInt (toSigned 32 v))
  | 4 => if f32fin v then some (f32v v) else none
  | 5 => some (Q.ofNat v)
  | 6 => some (Q.ofInt (toSigned 64 v))
  | 7 => if f64fin v then some (f64v v) else none
  | 10 => none
  | _ => some (Q.ofNat (v % 2 ^ 32))

/-- A point's value converted to binary32 (R127). -/
def ptF32 (type v : Nat) : Nat :=
  match type with
  | 4 => f32flush (v % 2 ^ 32)
  | 7 => f32ofF64T v
  | _ => match ptQ type v with | some q => f32q q | none => F_NAN

/-- The value word of a KIND 1 sample (R348). -/
def capWord (type v : Nat) : Nat := if [5, 6, 7].contains type then ptF32 type v else v % 2 ^ 32

/-- The places of R108: racking, commands at the boundary, the point's own source, and direct writes of master m. -/
def W_RACK : Nat := 0
def W_CMD : Nat := 1
def W_OWN : Nat := 2
def W_DIRECT (m : Nat) : Nat := 3 + m

/-- One write of a record (R104, R107): WRITTEN set; STALE, LATE and BAD cleared but for what the write brings; SEQ
counted; the latches of other masters see NEWER; capture channels on the point take a sample. Of writes in one PD2 clock
the one latest in the order of R108 stands, and each counts SEQ. -/
def ptStore (s : State) (k v tag : Nat) (late subst bad : Bool) (place : Nat := W_OWN) : State :=
  let s := eccPart s 5 (k / 2)
  let e := slotEnt s k
  let c := pd2Clk s.clk + 1
  let last := smGet (0, 0) s.grist.wroteIn k
  let m := metaDir e + 2 ^ M_WRITTEN + b2n late * 2 ^ M_LATE + b2n subst * 2 ^ M_SUBST + b2n bad * 2 ^ M_BAD
    + (slotMeta s k + 1) % 65536
  let s := if last.1 == c && decide (place < last.2) then
      putW s k 3 (slotMeta s k / 65536 * 65536 + (slotMeta s k + 1) % 65536)
    else
      let s := putW (putW (putW (putW s k 0 (v % 2 ^ 32)) k 1 (v / 2 ^ 32 % 2 ^ 32)) k 2 tag) k 3 m
      { s with grist.wroteIn := smSet (0, 0) s.grist.wroteIn k (c, place) }
  let s := { s with
    grist.latch := s.grist.latch.map (fun (i, l) => (i, l.map (fun l => if l.slot = k then { l with newer := true } else l)))
    grist.wroteAt := smSet 0 s.grist.wroteAt k (netTime s + 1)
    grist.wroteCyc := if dRack e then smSet 0 s.grist.wroteCyc k (cycleNow s + 1) else s.grist.wroteCyc }
  capFeed s 1 (ptOfSlot s k) (capWord (dType e) v) (unwrapTag s tag)
    (f32ext (if dType e == 4 then v % 2 ^ 32 else ptF32 (dType e) v))

/-- The lease is held with the current epoch (R322). -/
def holdsLease (s : State) : Bool := isStack s && s.flag VOTE_LEASE_HELD

/-- A write by a point's own source (R102, R116): a racked point takes it only in the lease holder, which racks it to
the peers; elsewhere it is discarded and counted. -/
def ptWrite (s : State) (k v : Nat) (subst : Bool) (place : Nat := W_OWN) : State :=
  let racked := isStack s && dRack (slotEnt s k)
  if racked && !holdsLease s then s.satAdd PT_TELUNK_RACKDROP 0
  else
    let tag := tagOf (netTime s)
    let s := ptStore s k v tag false subst false place
    if racked then rackPeers s (.points [{ point := ptOfSlot s k, subst, lo := v % 2 ^ 32, hi := v / 2 ^ 32 % 2 ^ 32, tag }])
    else s

/-- A write by the firmware to a valid SYS point, when it is one. -/
def sysPoint (s : State) (p v : Nat) : State :=
  match slotOf s p with
  | some k => if slotValid s k && dSrc (slotEnt s k) == SRC_SYS && domOn s 2 then ptWrite s k v false else s
  | none => s

/-- The same for a slot, which a cell's firmware writes before its index is fixed (R109). -/
def sysSlot (s : State) (k v : Nat) : State :=
  if slotValid s k && dSrc (slotEnt s k) == SRC_SYS && domOn s 2 then ptWrite s k v false else s

/-! ## The directory's checks -/

/-- The stack or cell is in service, when structural directory changes are refused (R103). -/
def structBusy (s : State) : Bool := inService s

/-- Updates that an entry owes in cycle c, RATE 7 counted as due in every cycle (R112, R113). -/
def ratePeriod (r : Nat) : Nat := [1, 1, 2, 4, 8, 16, 64, 64].getD r 64
def entDue (e c : Nat) : Bool :=
  dRate e != 0 && (c + dPhase e) % ratePeriod (dRate e) == 0
def entOwes (e c : Nat) : Nat :=
  if dRate e == 7 || entDue e c then popCount 16 (dValid e) else 0

/-- A cell's directory never makes more than 127 updates due in one cycle (R112). -/
def cellLoadOk (s : State) (idx w : Nat) : Bool :=
  (List.range 64).all (fun c => decide (((List.range 64).map (fun e =>
    entOwes (if e == idx then w else dirEnt s e) c)).sum ≤ 127))

/-- An entry without its reserved bits, which read 0 (R4, Table 4.2). -/
def dirMask (w : Nat) : Nat := w - bits w 48 4 * 2 ^ 48 - bits w 16 6 * 2 ^ 16

/-- The checks of a directory write (R100 to R103, R109, R112, R116). At most 256 entries have RACK set, whatever VALID
holds; a register write that would set it on one more is answered with RANGE, as R116 answers such an image (DESIGN CHOICE,
assumption 50). -/
def dirCheck (s : State) (e w : Nat) : Status :=
  let w := dirMask w
  let old := dirEnt s e
  let owner := e / 64
  let cellOwner := isStack s && decide (owner < 192)
  let live := dValid w != 0
  let fixed := if isStack s then
      owner < 192 && owner % 8 < chainLen s (owner / 8) && e % 64 < 2
        && (w - dDband w != fixedEntry SRC_TEL (e % 64))
    else e < 2
  let racked := (s.grist.dir.filter (fun x => dRack x.2 && x.1 != e)).length
  firstStatus [
    chk (10 < dType w || 4 < dSrc w || (!isStack s && 64 ≤ e)) .range,
    chk (dRack w && 256 ≤ racked) .range,
    chk (!isStack s && !cellLoadOk s e w) .range,
    chk (live && (dType w == 0 || (dSrc w == SRC_TEL) != cellOwner || (dRack w && dSrc w == SRC_TEL))) .conflict,
    chk fixed .conflict,
    chk (structBusy s && dValid old != 0 && (dType w != dType old || dSrc w != dSrc old || dRack w != dRack old
      || dValid w &&& dValid old != dValid old)) .conflict]

/-- Put an entry into the directory: a point newly made valid starts with a record of zeros. -/
def putEntry (s : State) (m e w : Nat) : State :=
  let w := dirMask w
  let s := eccPart s 6 (e / 4)
  let old := dirEnt s e
  let fresh := (List.range 16).filter (fun i => bit (dValid w) i && !bit (dValid old) i)
  let s := fresh.foldl (fun s i =>
    let k := 16 * e + i
    let s := [0, 1, 2, 3].foldl (fun s j => putW s k j 0) (eccPart s 5 (k / 2))
    { s with grist.wroteAt := smSet 0 s.grist.wroteAt k 0, grist.pub := smSet 0 s.grist.pub k 0,
             grist.wroteIn := smErase s.grist.wroteIn k }) s
  syncRoutes { s with grist.dir := smSet 0 s.grist.dir e w } m

/-- Firmware restores the entries that a memory error took, from the configuration in force (R117). The rule names no
instant; it is the next cycle boundary (DESIGN CHOICE, assumption 50). -/
def restoreDir (s : State) : State :=
  if s.grist.lost.isEmpty || !fwRuns s then s
  else
    let l := (cfgOf s).dir.filter (fun e => s.grist.lost.contains e.1)
    l.foldl (fun s e => if dirCheck s e.1 e.2 == .ok then putEntry s 0 e.1 e.2 else s) { s with grist.lost := [] }

/-- A directory write by a master, refused into PT_ERR, whose POINT shows the entry's first point (DESIGN CHOICE,
assumption 50). -/
def dirWrite (s : State) (m e w : Nat) : Status × State :=
  let st := dirCheck s e w
  if st == .ok then (.ok, putEntry s m e w) else (st, ptErr s m st (16 * e))

/-- A write of PT_DIRCTL (R103). -/
def dirctlEff (m w : Nat) (s : State) : Status × State :=
  let e := s.fget PT_DIRIDX_IDX m
  if bit w 0 && bit w 1 then (.conflict, ptErr s m .conflict (16 * e))
  else if bit w 1 then dirWrite s m e (s.fget PT_DIRHI_WORD m * 2 ^ 32 + s.fget PT_DIRLO_WORD m)
  else if bit w 0 then
    let s := eccRead s 6 (e / 4)
    let v := dirEnt s e
    (.ok, s.fsets [(PT_DIRLO_WORD, m, v % 2 ^ 32), (PT_DIRHI_WORD, m, v / 2 ^ 32)])
  else (.ok, s)

/-- DIR_READ (R103). -/
def execDirRead (m : Master) (w : Word) (s : State) : Outcome State Fault Refusal :=
  .next (rowWrite s m 0x18000c w false (dirctlEff m w.toNat))

/-- DIR_WRITE (R103). -/
def execDirWrite (m : Master) (w : Word) (s : State) : Outcome State Fault Refusal :=
  .next (rowWrite s m 0x18000c w false (dirctlEff m w.toNat))

/-- A write of PT_DIRIDX: a value above the limit is refused and IDX keeps its value. PT_ERRPT.POINT of a refusal that
names no point and no entry (this one, and those of PT_FILLCFG) is not stated: it reads 0 (DESIGN CHOICE, assumption 50). -/
def diridxEff (m w : Nat) (s : State) : Status × State :=
  let v := w % 2 ^ 14
  if (if isStack s then 16383 else 63) < v then (.range, ptErr s m .range 0) else (.ok, s.fset PT_DIRIDX_IDX m v)

/-- A write of PT_FILLCFG, staged to the next boundary (R118). A refusal names no point: PT_ERRPT.POINT then reads 0
(DESIGN CHOICE, assumption 50). -/
def fillcfgEff (m w : Nat) (s : State) : Status × State :=
  let v := w % 2 ^ 20
  let st := firstStatus [chk (!isStack s) .notInRole, chk (v == 0) .zeroNotAllowed,
    chk (v < 1000 || s.fget TIM_CYC_T < v + 1000) .range]
  if st == .ok then (.ok, s.fset PT_FILLCFG_OFS 0 v) else (st, ptErr s m st 0)

/-! ## Window accesses -/

/-- A read of a window word by a master other than M7 and M8 (R100, R106). An access of a cell above window offset 0x3FFF
names no point number: PT_ERRPT.POINT shows the record's place in the window. A word 0 read of a point that does not exist
latches nothing, and the master's latch of another point stays (both DESIGN CHOICE, assumption 50). -/
def winRead (s : State) (m a : Nat) : Nat × State :=
  match winSlot s a with
  | none => (0, ptErr s m .range ((a - 0x01000000) / 16))
  | some k =>
    let i := a % 16 / 4
    let s := eccRead s 6 (k / 64)
    if !slotValid s k then (0, ptErr s m .range (ptOfSlot s k))
    else if i == 0 then
      let s := eccRead s 5 (k / 2)
      let l : PtLatch := { slot := k, hi := recW s k 1, tag := recW s k 2, ctl := recW s k 3 }
      (winVal s m a, { s with grist.latch := smSet none s.grist.latch m (some l) })
    else
      let latched := match latchOf s m with | some l => l.slot == k | none => false
      let s := if latched then s else eccRead s 5 (k / 2)
      (winVal s m a, s)

/-- A direct write is accepted from the writers of Table 4.4. -/
def srcTakes (src m : Nat) : Bool :=
  src == SRC_REF || (src == SRC_MASH && m == 7) || (src == SRC_SYS && m == 0)

/-- A write of a window word (R100, R102, R107): word 1 is staged, word 0 commits, and every
word-0 write clears the master's staged word. -/
def winWrite (m a w : Nat) (s : State) : Status × State :=
  let staged := smGet none s.grist.stage m
  let s := if a % 16 / 4 == 0 then { s with grist.stage := smSet none s.grist.stage m none } else s
  match winSlot s a with
  | none => (.range, ptErr s m .range ((a - 0x01000000) / 16))
  | some k =>
    let i := a % 16 / 4
    let s := eccRead s 6 (k / 64)
    let ty := dType (slotEnt s k)
    if !slotValid s k then (.range, ptErr s m .range (ptOfSlot s k))
    else if i == 1 then (.ok, { s with grist.stage := smSet none s.grist.stage m (some (k, w)) })
    else if i != 0 then (.ok, s)
    else
      let hi := match staged with
        | some (k', h) => if k' = k then some h else if ty64 ty then none else some (extendPt ty w)
        | none => if ty64 ty then none else some (extendPt ty w)
      match hi with
      | none => (.conflict, ptErr s m .conflict (ptOfSlot s k))
      | some h =>
        if !srcTakes (dSrc (slotEnt s k)) m then (.conflict, ptErr s m .conflict (ptOfSlot s k))
        else (.ok, ptWrite s k (w + h * 2 ^ 32) false (if dSrc (slotEnt s k) == SRC_REF then W_DIRECT m else W_OWN))

/-- The address of word i of the record at a slot of the window. -/
def winAddr (k i : Nat) : Nat := 0x01000000 + 16 * (k % 262144) + 4 * i

/-- A read access: refused, it reads 0 and is recorded (R67); carried out, the word goes to the master. -/
def readAccess (s : State) (m a : Nat) (rd : State → Nat × State) : State :=
  let st := readStatus s m a 4
  if (blkOf a).isNone then { unmapped s m a with rdata := smSet 0 s.rdata m 0 }
  else if st != .ok then
    let s := recRefused s m a (readRest s m a 4)
    { s with rdata := smSet 0 s.rdata m 0 }
  else
    let (v, s) := rd s
    { s with rdata := smSet 0 s.rdata m v }

/-- POINT_WORD0_READ (R106). -/
def execPointWord0Read (m : Master) (k : Nat) (s : State) : Outcome State Fault Refusal :=
  .next (readAccess s m (winAddr k 0) (fun s => winRead s m (winAddr k 0)))

/-- POINT_WORD1_WRITE (R107). -/
def execPointWord1Write (m : Master) (k : Nat) (w : Word) (s : State) : Outcome State Fault Refusal :=
  .next (rowWrite s m (winAddr k 1) w false (winWrite m (winAddr k 1) w.toNat))

/-- POINT_WORD0_WRITE (R107). -/
def execPointWord0Write (m : Master) (k : Nat) (w : Word) (s : State) : Outcome State Fault Refusal :=
  .next (rowWrite s m (winAddr k 0) w false (winWrite m (winAddr k 0) w.toNat))

/-- The records and directory entries of slots, read under the memory code (R117). -/
def eccSlots (s : State) (l : List Nat) : State :=
  if s.sec.ecc.isEmpty then s else l.foldl (fun s k => eccRead (eccRead s 6 (k / 64)) 5 (k / 2)) s

/-! ## Publication (R112) -/

/-- A point changed by more than DBAND since it was last published. One never published counts as changed, and so does an
F32 or F64 value that is not finite when its bits differ (DESIGN CHOICE, assumption 50). -/
def changedPt (type dband v pub : Nat) : Bool :=
  if pub == 0 then true
  else
    let old := pub - 1
    if dband == 0 then v != old
    else if type == 4 || type == 7 then
      match ptQ type v, ptQ type old with
      | some a, some b => ((fVal b16 false dband).lt (a.sub b).abs)
      | _, _ => v != old
    else
      let num (x : Nat) : Int := if type == 10 then (x / 2 ^ 32 * 1000000000 + x % 2 ^ 32 : Nat)
        else ((ptQ type x).getD (Q.ofNat 0)).n
      decide ((dband : Int) < (num v - num old).natAbs)

/-- The words that publication reads: the directory, and the records of the entries that may be due (R117). -/
def publishReads (s : State) (c : Nat) : State :=
  let s := (List.range 16).foldl (fun s i => eccRead s 6 i) s
  ((List.range 64).filter (fun e => entDue (dirEntAt s e) c || dRate (dirEntAt s e) == 7)).foldl (fun s e =>
    (bitList 16 (dValid (dirEntAt s e))).foldl (fun s i => eccRead s 5 ((16 * e + i) / 2)) s) s

/-- The updates that the cell publishes in cycle c. -/
def published (s : State) (c : Nat) : List Nat :=
  (List.range 64).flatMap (fun e =>
    let w := dirEntAt s e
    (List.range 16).filterMap (fun i =>
      let k := 16 * e + i
      if !bit (dValid w) i || dRate w == 0 then none
      else if entDue w c || (dRate w == 7 && changedPt (dType w) (dDband w) (slotValue s k) (smGet 0 s.grist.pub k))
      then some k else none))

def updateOf (s : State) (k : Nat) : Update :=
  { point := k % 1024, subst := bit (slotMeta s k) M_SUBST, bad := bit (slotMeta s k) M_BAD, lo := recW s k 0,
    hi := recW s k 1, tag := slotTag s k }

/-! ## Telemetry fill (R114, R115) -/

/-- One update of a TEL frame for an owner, by the entry as it stood at the boundary (R103). -/
def telUpdate (owner : Nat) (late : Bool) (s : State) (u : Update) : State :=
  let k := owner * 1024 + u.point % 1024
  let s := eccRead (eccRead s 6 (k / 64)) 5 (k / 2)
  let e := dirEntAt s (k / 16)
  if !bit (dValid e) (k % 16) || dSrc e != SRC_TEL then s.satAdd PT_TELUNK_UNKNOWN 0
  else if !tagLater u.tag (slotTag s k) then s.satAdd PT_TELCNT_OLD 0
  else ptStore s k (u.lo + u.hi * 2 ^ 32) u.tag late u.subst u.bad

/-- Write a TEL frame into the store. -/
def telWrite (late : Bool) (s : State) (f : Frame) : State :=
  match f.body with
  | .tel _ _ _ _ _ _ _ ups => ups.foldl (telUpdate (f.hdr.chain * 8 + f.hdr.pos) late) s
  | _ => s

/-- Signed distance of cycles modulo 2³². -/
def cycDiff (a b : Nat) : Int := toSigned 32 ((a + 2 ^ 32 - b % 2 ^ 32) % 2 ^ 32)

/-- Table of R114: a TEL frame whose end the receiving quad stamped, on its replica (R44). -/
def telArrive (stamp : Nat) (s : State) (f : Frame) : State :=
  let d := cycDiff (cycleNow s) f.hdr.cycle
  let before := decide (stamp < s.tim.bound + s.eget PT_FILLCFG_OFS * 65536)
  if !domOn s 2 then s
  else if d < 0 then { s with grist.early := s.grist.early ++ [f] }
  else if 2 < d then s.satAdd PT_TELCNT_OLD 0
  else if d == 0 && before then
    let c := f.hdr.chain * 8 + f.hdr.pos
    telWrite false { s with grist.onTime := c :: s.grist.onTime.filter (· != c) } f
  else
    let s := s.satAdd PT_TELCNT_LATE 0
    if before then telWrite true s f else { s with grist.late := s.grist.late ++ [f] }

/-- The boundary of cycle N: staged values are committed, held frames are written, and the new fill begins. -/
def fillBegin (s : State) : State :=
  let s := restoreDir s
  let n := cycleNow s
  let late := s.grist.late
  let (due, wait) := s.grist.early.partition (fun f => 0 ≤ cycDiff n f.hdr.cycle)
  let s := s.eset PT_FILLCFG_OFS 0 (s.fget PT_FILLCFG_OFS)
  let s := { s with grist.dirAt := s.grist.dir, grist.late := [], grist.early := wait, grist.onTime := [],
                    grist.cut := false, grist.closed := false }
  due.foldl (telArrive s.tim.bound) (late.foldl (telWrite true) s)

/-- The configured cells (chain × 8 + position). -/
def cfgCells (s : State) : List Nat :=
  (List.range 24).flatMap (fun k => (List.range (chainLen s k)).map (fun q => 8 * k + q))

/-- The close of the fill (R114, R115): STALE, the miss bits and the counts. -/
def fillClose (s : State) : State :=
  let n := cycleNow s
  let cells := cfgCells s
  let missing := cells.filter (fun c => !s.grist.onTime.contains c)
  let s := s.fsets [(PT_FILLCYC_CYCLE, 0, n), (PT_FILLSTAT_FILLED, 0, (cells.filter s.grist.onTime.contains).length),
    (PT_FILLSTAT_MISSING, 0, missing.length)]
  let s := (List.range 6).foldl (fun s w =>
    s.fset PT_MISS_MISS w ((missing.filter (fun c => c / 32 == w)).foldl (fun x c => putBit x (c % 32) true) 0)) s
  let s := s.grist.dirAt.foldl (fun s (e, w) =>
    let c0 := (n + 2 ^ 32 - dTol w) % 2 ^ 32
    let b0 := s.tim.bound - dTol w * s.fget TIM_CYC_T * 65536
    if dSrc w != SRC_TEL || !entDue w c0 then s
    else (List.range 16).foldl (fun s i =>
      let k := 16 * e + i
      if bit (dValid w) i && smGet 0 s.grist.wroteAt k ≤ b0 then
        let s := eccPart s 5 (k / 2)
        putW s k 3 (putBit (slotMeta s k) M_STALE true)
      else s) s) s
  { s with grist := { s.grist with closed := true, closedAt := netTime s } }

end Sys2Proof.Machine
end

