-- ==== Sys2Proof/Machine/Capture.lean ====
section
/-! DEFINITION. Commands of the capture engine (Chapter 14): arming, disarming, freeing, reading, the trigger pins, the
software trigger, the mask tables and the skew calibration. -/

namespace Sys2Proof.Machine

open Host (Outcome)

/-- Record a refusal in CAP_ERR; `m` is 15 for the engine itself. -/
def capErr (s : State) (m : Nat) (st : Status) : State :=
  recErr s CAP_ERR_VALID CAP_ERR_MULTI [(CAP_ERR_MASTER, 0, m), (CAP_ERR_STATUS, 0, st.code)]

/-- CAP_SRC and CAP_MCFG of a channel, as words. -/
def capSrcWord (s : State) (c : Nat) : Nat :=
  s.fget CAP_SRC_KIND c * 2 ^ 30 + s.fget CAP_SRC_DIV c * 2 ^ 24 + s.fget CAP_SRC_SEL c
def capMcfgWord (s : State) (c : Nat) : Nat :=
  s.fget CAP_MCFG_MEN c * 2 ^ 31 + s.fget CAP_MCFG_TAB c * 2 ^ 24 + s.fget CAP_MCFG_MVN c

/-- The channels of armed and running records. -/
def liveChans (s : State) : List Nat := ((s.cap.recs.filter (fun r => r.st != .closed)).map (fun r => r.chans)).flatten

/-- The largest POST + PRE that the free blocks hold for n channels (R351). -/
def postRoom (s : State) (n : Nat) : Nat := (65536 * (freeBlocks s).length - 512 - 64 * n) / (8 * n)

/-- The status of the unit that a KIND 0 source names. -/
def capConvStatus (s : State) (c : Nat) : Status :=
  if s.fget CAP_SRC_KIND c != 0 then .ok
  else
    let v := bits (s.fget CAP_SRC_SEL c) 4 4
    if !roleUses s (instDom .adc v) then .notInRole
    else if domRetired s (instDom .adc v) || instRetired s .adc v then .absentUnit else .ok

/-- The checks of CAP_ARM (R350). -/
def armCheck (s : State) (mask pre post tset flags : Nat) : Status :=
  let ch := bitList 64 mask
  firstStatus ([
    chk (isStack s && bits tset 16 8 != 0) .notInRole] ++ ch.map (instStatus s .cap) ++ ch.map (capConvStatus s) ++ [
    chk (mask == 0 || post == 0 || tset == 0) .zeroNotAllowed,
    chk (tset &&& 0xff0fff != tset || flags &&& 7 != flags) .range,
    chk (ch.any (fun c => s.fget CAP_SRC_KIND c == 1 &&
      (match slotOf s (s.fget CAP_SRC_SEL c) with
        | some k => !slotValid s k || dType (slotEnt s k) == 10
        | none => true))) .range,
    chk (mask != 0 && postRoom s ch.length < pre + post) .range,
    chk (ch.any (liveChans s).contains) .conflict,
    chk (bit tset 5 && !ch.any (fun c => s.flag CAP_MCFG_MEN c)) .conflict,
    chk (8 ≤ (s.cap.recs.filter (fun r => r.st != .closed)).length) .busy])

/-- DEAD of a record whose channels begin to write now (R363). -/
def deadTime (s : State) (ch : List Nat) : Nat :=
  let e := (ch.map (fun c => smGet (0, 0) s.cap.ended c)).foldl (fun a b => if a.1 < b.1 then b else a) (0, 0)
  if e.1 == 0 then 0xffffffff else min ((repTime s 3 - (e.2 - 1)) / 65536) 0xfffffffe

/-- Arm a record: blocks are taken from the free pool, the reserved words of its header and descriptors are 0, and its
channels start (R349, R350). -/
def armRec (s : State) (ch : List Nat) (pre post tset flags : Nat) (rearmed : Bool) : Nat × State :=
  let serial := s.cap.serial % (2 ^ 24 - 1) + 1
  let rid := 0xff * 2 ^ 24 + serial
  let need := (recBytes ch.length (pre + post) + 65535) / 65536
  let dead := deadTime s ch
  let r : CapRec :=
    { rid, chans := ch, pre, post, tset, flags, blocks := (freeBlocks s).take need, dead, rearmed
      chan := ch.foldl (fun m c => smSet {} m c { src := capSrcWord s c, mcfg := capMcfgWord s c }) [] }
  let s := { s with cap.serial := serial, cap.recs := s.cap.recs ++ [r] }
  let s := (List.range ch.length).foldl (fun s j => recWords r [0, 0, 0, 0] (560 + 64 * j) s)
    (recWords r (List.replicate 41 0) 92 s)
  (rid, (writeHead (syncRec s r) r).fset CAP_DEAD_NS 0 dead)

/-- CAP_ARM's effect: the status and the record id. -/
def capArm (s : State) (mask pre post tset flags : Nat) : Status × Nat × State :=
  let s := capSettle s
  let st := armCheck s mask pre post tset flags
  if st == .ok then
    let (rid, s) := armRec s (bitList 64 mask) pre post tset flags false
    (.ok, rid, s)
  else (st, 0, s)

/-- The channels of a record return to IDLE. -/
def chansIdle (s : State) (rid : Nat) (ch : List Nat) : State :=
  ch.foldl (fun s c =>
    if s.fget CAP_CREC_RID c != rid then s
    else (s.fsets [(CAP_CSTAT_STATE, c, 0), (CAP_CSTAT_END, c, 0), (CAP_CSTAT_COUNT, c, 0), (CAP_CREC_RID, c, 0)]).fset
      CAP_ARMED_MASK (c / 32) (putBit (s.fget CAP_ARMED_MASK (c / 32)) (c % 32) false)) s

/-- A record leaves the cask, and its blocks return to the pool; a record that named it as PREV names its own. -/
def dropRec (s : State) (r : CapRec) : State :=
  let s := chansIdle s r.rid r.chans
  let fix (q : CapRec) : CapRec := if q.prev == r.rid then { q with prev := r.prev } else q
  let s : State := { s with cap.recs := (s.cap.recs.filter (fun q => q.rid != r.rid)).map fix }
  let s := s.cap.recs.foldl (fun (s : State) (q : CapRec) => if q.st == .closed then recWords q (recHeader q) 0 s else s) s
  s.fset CAP_FREEBLK_N 0 (freeBlocks s).length

/-- CAP_DISARM (R362): the mask names whole records. -/
def capDisarm (s : State) (mask : Nat) : Status × State :=
  let s := capSettle s
  let ch := bitList 64 mask
  let recs := s.cap.recs.filter (fun r => r.st != .closed && r.chans.any ch.contains)
  let st := firstStatus (ch.map (instStatus s .cap) ++ [chk (mask == 0) .zeroNotAllowed,
    chk (!ch.all (liveChans s).contains || recs.any (fun r => !r.chans.all ch.contains)) .conflict])
  if st != .ok then (st, s)
  else (.ok, recs.foldl (fun s r =>
    if r.st == .armed then dropRec s r else closeRec s { r with disarmed := true } 4) s)

/-- Where a byte that a reader names by its offset, samples in chronological order, stands in the cask (R349). -/
def recPlace (r : CapRec) (off : Nat) : Nat :=
  let d := recData r 0
  let l := recLenL r
  recAddr r (if off < d then off
    else
      let j := (off - d) / (8 * l)
      let i := (off - d) % (8 * l) / 8
      recData r j + 8 * ((rstart r (chanOf r (r.chans.getD j 0)) + i) % l) + off % 8)
/-- One byte of a record at a logical offset. -/
def recByte (s : State) (r : CapRec) (off : Nat) : Nat := (s.byte (recPlace r off)).toNat
/-- Where the bytes `off` to `off + n - 1` stand, one address for each 8 bytes; one when there are none. -/
def recPlaces (r : CapRec) (off n : Nat) : List Nat :=
  recPlace r off :: (List.range ((off + n + 7) / 8 - off / 8 - 1)).map (fun i => recPlace r (8 * (off / 8 + i + 1)))

/-- CAP_READ of a record that this device holds (R366): the status and the bytes. A serial of 0 names the latest closed
record. -/
def capRead (s : State) (rid off len : Nat) : Status × List Nat × State :=
  let s := capSettle s
  let rid := if rid % 2 ^ 24 == 0 then lastClosed s else rid
  match s.cap.recs.find? (fun r => r.rid % 2 ^ 24 = rid % 2 ^ 24) with
  | none => (.range, [], s)
  | some r =>
    if recBytes r.chans.length (recLenL r) < off + len then (.range, [], s)
    else
      let s := ((recPlaces r off len).map (fun a => (a - 0x02000000) / 32)).eraseDups.foldl caskRead (if r.st == .closed then s else writeHead s r)
      (.ok, (List.range len).map (fun i => recByte s r (off + i)), s)

/-- A write of CAP_FREE (R364). -/
def capFreeEff (m rid : Nat) (s : State) : Status × State :=
  let s := capSettle s
  match findRec s rid with
  | none => (.range, capErr s m .range)
  | some r => if r.st == .closed then (.ok, dropRec s r) else (.conflict, capErr s m .conflict)

/-- CAPTURE_FREE (R364). -/
def execCaptureFree (m : Master) (w : Word) (s : State) : Outcome State Fault Refusal :=
  .next (rowWrite s m 0x161008 w false (capFreeEff m w.toNat))

/-- Arm a closed record with REARM again (R363), under the checks of R350: where it cannot be armed, its channels return to
IDLE, CAP_ERR records the status, and the next CAP_STATUS reports REARMFAIL. R363 names too few free blocks; the other checks
are taken so too (DEDUCED, assumption 29). -/
def rearmOne (s : State) (a : Rearm) : State :=
  let st := armCheck s (chanMask a.chans) a.pre a.post a.tset a.flags
  if st == .ok then (armRec s a.chans a.pre a.post a.tset a.flags true).2
  else capFlag (capErr (chansIdle s a.rid a.chans) 15 st) 1

/-- CAPTURE_REARM (R363). -/
def execCaptureRearm (t : Time) (s : State) : Outcome State Fault Refusal :=
  let s := capSettle (s.at t)
  .next (s.cap.rearms.foldl rearmOne { s with cap.rearms := [] })

/-- TRIG_PIN_EDGE (R352): TRIGA, TRIGB with the polarity of CAP_TRIGCFG, TRIGX falling; T0 is the edge. -/
def execTrigPinEdge (t : Time) (pin : Fin 3) (rising : Bool) (s : State) : Outcome State Fault Refusal :=
  let s := s.at t
  let active := match pin.val with
    | 0 => rising != s.flag CAP_TRIGCFG_APOL
    | 1 => rising != s.flag CAP_TRIGCFG_BPOL
    | _ => !rising
  .next (if active then localTrig s pin.val (pin.val + 1) (repTime s 3) (15 * nsT) else s)

/-- A write of CAP_SWTRIG: T0 is the PD3 clock of the write (Table 14.4). -/
def swtrigEff (w : Nat) (s : State) : Status × State :=
  (.ok, if bit w 0 then localTrig s 4 4 (repTime s 3 / 81920 * 81920) 0 else s)

/-- SOFT_TRIGGER (R352). -/
def execSoftTrigger (m : Master) (w : Word) (s : State) : Outcome State Fault Refusal :=
  .next (rowWrite s m 0x161004 w false (swtrigEff w.toNat))

/-- TRIGX_PULSE_END (R356). -/
def execTrigxPulseEnd (t : Time) (s : State) : Outcome State Fault Refusal :=
  let s := capSettle (s.at t)
  .next (if s.cap.trigxEnd ≤ s.clk then { s with pins.trigxLow := false } else s)

/-- A write of CAP_SKEWCTL (R358). -/
def skewctlEff (m w : Nat) (s : State) : Status × State :=
  if bit w 0 then
    if s.flag CAP_SKEWCTL_BUSY then (.busy, capErr s m .busy) else (.ok, { s with cap.skewAt := s.clk }.fset CAP_SKEWCTL_BUSY 0 1)
  else (.ok, s)

/-- SKEW_CAL (R358). -/
def execSkewCal (m : Master) (w : Word) (s : State) : Outcome State Fault Refusal :=
  .next (rowWrite s m 0x161020 w false (skewctlEff m w.toNat))

/-- The delays that the time-to-digital converter measured for the reference channels, in units of 1/128 ns, take
effect on those that a converter serves (R358); `conv` limits them to one converter. -/
def putSkews (s : State) (conv : Option Nat) (skews : List Int) : State :=
  (List.range 8).foldl (fun s c =>
    let serves := s.fget CAP_SRC_KIND c == 0 &&
      (match conv with | some v => bits (s.fget CAP_SRC_SEL c) 4 4 == v | none => true)
    if serves then s.fset CAP_CSKEW_SKEW c (ofSigned 16 (skews.getD c 0)) else s) s

/-- SKEW_CAL_DONE (R358): after 50 µs. -/
def execSkewCalDone (t : Time) (skews : List Int) (s : State) : Outcome State Fault Refusal :=
  let s := s.at t
  .next (if s.flag CAP_SKEWCTL_BUSY && decide (s.cap.skewAt + 50 * usT ≤ s.clk) then (putSkews s none skews).fset CAP_SKEWCTL_BUSY 0 0 else s)

/-! ## Register writes -/

/-- A channel with MEN that uses a table is ARMED or RUNNING (R368). -/
def tabBusy (s : State) (tab : Option Nat) : Bool :=
  (List.range 64).any (fun c =>
    bit (s.fget CAP_ARMED_MASK (c / 32)) (c % 32) && s.flag CAP_MCFG_MEN c
      && (match tab with | some t => s.fget CAP_MCFG_TAB c == t | none => true))

def capGuard (s : State) (m : Nat) (st : Status) (eff : State → State) : Status × State :=
  if st == .ok then (.ok, eff s) else (st, capErr s m st)

/-- A write of CAP_SRC or CAP_MCFG of channel i. -/
def capSrcEff (m i w : Nat) (s : State) : Status × State :=
  capGuard s m (firstStatus [chk (bits w 30 2 == 3 || (bits w 30 2 == 0 && 5 < w % 8)) .range,
      chk (bit (s.fget CAP_ARMED_MASK (i / 32)) (i % 32)) .conflict]) (fun s =>
    s.fsets [(CAP_SRC_KIND, i, bits w 30 2), (CAP_SRC_DIV, i, bits w 24 4), (CAP_SRC_SEL, i, w % 2 ^ 18)])
def capMcfgEff (m i w : Nat) (s : State) : Status × State :=
  capGuard s m (firstStatus [chk (w % 256 == 0) .zeroNotAllowed,
      chk (bit (s.fget CAP_ARMED_MASK (i / 32)) (i % 32)) .conflict]) (fun s =>
    s.fsets [(CAP_MCFG_MEN, i, bits w 31 1), (CAP_MCFG_TAB, i, bits w 24 4), (CAP_MCFG_MVN, i, w % 256)])

/-- A write of CAP_TRIGCFG, CAP_MPHASE. -/
def trigcfgEff (m w : Nat) (s : State) : Status × State :=
  capGuard s m (chk (bits w 8 8 == 0) .zeroNotAllowed) (fun s =>
    s.fsets [(CAP_TRIGCFG_XW, 0, bits w 8 8), (CAP_TRIGCFG_BPOL, 0, bits w 1 1), (CAP_TRIGCFG_APOL, 0, w % 2)])
def mphaseEff (m w : Nat) (s : State) : Status × State :=
  capGuard s m (chk (tabBusy s none) .conflict) (fun s =>
    s.fsets [(CAP_MPHASE_THETA, 0, bits w 16 14), (CAP_MPHASE_OMEGA, 0, w % 2 ^ 14)])

/-- Writes of a mask table's registers, at the master's table and point. -/
def mtcfgEff (m w : Nat) (s : State) : Status × State :=
  let t := s.fget CAP_MTIDX_TAB m
  capGuard s m (firstStatus [chk (w % 2 ^ 11 == 0) .zeroNotAllowed, chk (1024 < w % 2 ^ 11) .range,
      chk (tabBusy s (some t)) .conflict]) (fun s =>
    s.fsets [(CAP_MTCFG_REF, t, bits w 31 1), (CAP_MTCFG_N, t, w % 2 ^ 11)])
def mtstepEff (m w : Nat) (s : State) : Status × State :=
  let t := s.fget CAP_MTIDX_TAB m
  capGuard s m (firstStatus [chk (w % 2 ^ 24 == 0) .zeroNotAllowed, chk (tabBusy s (some t)) .conflict]) (fun s =>
    s.fset CAP_MTSTEP_STEP t (w % 2 ^ 24))
def mtptEff (m w : Nat) (s : State) : Status × State :=
  let t := s.fget CAP_MTIDX_TAB m
  capGuard s m (chk (s.fget CAP_MTCFG_N t ≤ w % 1024) .range) (fun s => s.fset CAP_MTPT_PT m (w % 1024))
def mtupEff (m w : Nat) (s : State) : Status × State :=
  let t := s.fget CAP_MTIDX_TAB m
  capGuard s m (chk (tabBusy s (some t)) .conflict) (fun s =>
    { s with cap.up := smSet 0x7f800000 s.cap.up (t * 1024 + s.fget CAP_MTPT_PT m) w })
def mtloEff (m w : Nat) (s : State) : Status × State :=
  let t := s.fget CAP_MTIDX_TAB m
  let pt := s.fget CAP_MTPT_PT m
  capGuard s m (chk (tabBusy s (some t)) .conflict) (fun s =>
    { s with cap.lo := smSet 0xff800000 s.cap.lo (t * 1024 + pt) w }.fset CAP_MTPT_PT m
      (if s.fget CAP_MTCFG_N t ≤ pt + 1 then 0 else pt + 1))

/-- MASK_TABLE_LO_WRITE (R368). -/
def execMaskTableLoWrite (m : Master) (w : Word) (s : State) : Outcome State Fault Refusal :=
  .next (rowWrite s m 0x161114 w false (mtloEff m w.toNat))

end Sys2Proof.Machine
end

