-- ==== Sys2Proof/Machine/Adc.lean ====
section
/-! DEFINITION. The converters and window comparators (Chapter 10). -/

namespace Sys2Proof.Machine

open Host (Outcome)

def adcOf (s : State) (c : Nat) : AdcSt := smGet {} s.adc.conv c
def adcMod (s : State) (c : Nat) (f : AdcSt → AdcSt) : State := { s with adc.conv := smMod {} s.adc.conv c f }

/-- Record a refusal in ADC_ERR: CONV is a converter, 0x20 + window, or 0x3F. -/
def adcErr (s : State) (m conv : Nat) (st : Status) : State :=
  recErr s ADC_ERR_VALID ADC_ERR_MULTI [(ADC_ERR_MASTER, 0, m), (ADC_ERR_CONV, 0, conv), (ADC_ERR_STATUS, 0, st.code)]
def adcGuard (s : State) (m conv : Nat) (st : Status) (eff : State → State) : Status × State :=
  if st == .ok then (.ok, eff s) else (st, adcErr s m conv st)

/-- STAT.STATE codes (Table 10.5). -/
def A_OFF : Nat := 0
def A_CAL : Nat := 1
def A_IDLE : Nat := 2
def A_CONV : Nat := 3
def A_DOWN : Nat := 4

/-- The six inputs selected for the string port regulator: link, string, phase currents 0 to 3 (R228). -/
def sprInputs (s : State) : List Nat :=
  [s.fget SPR_SEL0_VLINK, s.fget SPR_SEL0_VBAT, s.fget SPR_SEL0_IPH0, s.fget SPR_SEL0_IPH1, s.fget SPR_SEL1_IPH2,
    s.fget SPR_SEL1_IPH3]
/-- The regulator owns an input's pull controls (R239), and a converter's calibration (R253). -/
def sprOwns (s : State) (ain : Nat) : Bool := s.fget SPR_STAT_STATE != 0 && (sprInputs s).contains ain
def sprOwnsConv (s : State) (c : Nat) : Bool := s.fget SPR_STAT_STATE != 0 && (sprInputs s).any (fun a => a / 4 == c)

/-- The static pull of an input (R260). -/
def staticPull (s : State) (ain : Nat) : Nat := s.fget (ADC_PULL_PULL (ain % 16)) (ain / 16)

/-- A converter clock of 2.5 ns (R246). -/
def adcClk : Time := 163840
/-- Acquisition of an input takes 12 ns (R248). -/
def acqT : Time := 12 * nsT

/-! ## Temperature (R49) -/

/-- c1·ΔT + c2·ΔT² + c3·ΔT³ in ppb for the kiln sensor named, or for its last reading before a break (R49, R376). A
coefficient that is not finite counts as 0 (DESIGN CHOICE, assumption 50). -/
def tempPoly (s : State) (coef : List Nat) (sensor : Nat) : Q :=
  let c (i : Nat) : Q := let w := coef.getD i 0; if fFinite b32 w then f32v w else Q.ofNat 0
  let T : Int := (smGet 65536 s.kiln.good sensor : Nat) - 65536
  let dT : Q := ⟨T - 400, 16⟩
  ((c 0).mul dT).add ((((c 1).mul dT).mul dT).add ((((c 2).mul dT).mul dT).mul dT))

/-- A correction in ppb as the model holds it, in units of 2⁻⁸ ppb; with no image in force it is 0. -/
def tempCorr (s : State) (coef : List Nat) (sensor : Nat) : Int :=
  if cfgInForce s then ((tempPoly s coef sensor).mul (Q.ofNat 256)).round else 0

/-- The correction of a converter's reference gain now (R49, R376). -/
def refGain (s : State) (c : Nat) : Int :=
  tempCorr s ((cfgOf s).adcTemp.getD c []) (s.fget KILN_COMPSEL_REFSNS)

/-- The code of a held sample (R247): the converter's reading, in units of 1.6 V / 2²⁴, with the reference gain corrected
for the change of temperature since the latest calibration (R49, R253; assumption 52). Below 0 V it is 0, and above 1.6 V it
is 65,535. -/
def adcCode (s : State) (c : Nat) (x : Int) : Nat :=
  let g := refGain s c - (adcOf s c).calGain
  min 65535 (x * (256000000000 + g) / 256000000000 / 256).toNat

/-! ## Starting and going on -/

/-- The slots of the regular sequence. -/
def slotsOf (s : State) (c : Nat) : Nat := s.fget ADC_CFG_SLOTS c

/-- Begin the conversion of a slot whose first sample is taken at an instant. -/
def beginSlot (s : State) (c slot : Nat) (first : Time) (wake idle : Bool) : State :=
  let i := c * 16 + slot
  let s := adcMod s c (fun x => { x with
    job := some { inj := false, slot, pos := s.fget ADC_SLOT_POS i, k := s.fget ADC_SLOT_K i,
                  pull := s.fget ADC_SLOT_PULL i, first, wake, idle }
    nextSlot := none, waking := wake, seqAt := if slot == 0 then first else x.seqAt, down := false })
  s.fsets [(ADC_STAT_STATE, c, A_CONV), (ADC_STAT_SLOT, c, slot)]

/-- Begin an injected conversion: position, exponent, pull. -/
def beginInj (s : State) (c : Nat) (q : Nat × Nat × Nat) (first : Time) (wake : Bool) : State :=
  (adcMod s c (fun x => { x with
    job := some { inj := true, pos := q.1, k := q.2.1, pull := q.2.2, first, wake }
    inj := none, waking := wake, down := false })).fset ADC_STAT_STATE c A_CONV

/-- Sample i of a set is taken at this instant: 40 ns apart, the second 400 ns later still after a start-up (R249, R250). -/
def sampleAt (j : AdcJob) (i : Nat) : Time :=
  j.first + i * (40 * nsT) + (if j.wake && i != 0 then 400 * nsT else 0)

/-- The mean of a set's sampling instants (R250). -/
def jobMean (j : AdcJob) : Time :=
  let n := 2 ^ j.k
  j.first + 40 * nsT * (n - 1) / 2 + (if j.wake then 400 * nsT * (n - 1) / n else 0)

/-- The instant at which a set's result is in its register: 40 ns after its last sampling instant (R248), and 400 ns
later still after a start-up. -/
def jobEnd (j : AdcJob) : Time := j.first + 40 * nsT * 2 ^ j.k + (if j.wake then 400 * nsT else 0)

/-- The instant at which a converter that converts or calibrates ends, if it does. -/
def adcEnd (s : State) (c : Nat) : Option Time :=
  let st := s.fget ADC_STAT_STATE c
  if st == A_CAL then some ((adcOf s c).calAt + 20 * usT)
  else if st == A_CONV then (adcOf s c).job.map jobEnd else none

/-- Idle or DOWN, with nothing injected. -/
def adcIdle (s : State) (c : Nat) : Bool :=
  (s.fget ADC_STAT_STATE c == A_IDLE || s.fget ADC_STAT_STATE c == A_DOWN) && (adcOf s c).inj.isNone

/-- A held start is taken at the first instant the converter is free, not later than `lim` (R251). -/
def takeHeld (s : State) (c : Nat) (lim : Time) : State :=
  if s.flag ADC_STAT_HELD c && adcIdle s c && decide ((adcOf s c).freeAt ≤ lim) then
    beginSlot (s.fset ADC_STAT_HELD c 0) c 0 (adcOf s c).freeAt false false
  else s

/-- A regular start at its sampling instant `a` (R250, R251, R253): an idle converter samples at it; a busy one, or one that
has not acquired its input, holds it, one deep; during a calibration it is ignored. -/
def regStart (s : State) (c : Nat) (a : Time) : State :=
  if !s.flag ADC_CFG_EN c || slotsOf s c == 0 then s
  else if s.fget ADC_STAT_STATE c == A_CAL || s.flag ADC_STAT_CALP c then s.satAdd ADC_CNT0_MISS c
  else if adcIdle s c && !s.flag ADC_STAT_HELD c && decide ((adcOf s c).freeAt ≤ a) then
    if s.fget ADC_STAT_STATE c == A_DOWN then beginSlot (s.satAdd ADC_CNT1_WAKE c) c 0 a true true
    else beginSlot s c 0 a false true
  else if s.flag ADC_STAT_HELD c then s.satAdd ADC_CNT0_MISS c
  else (s.satAdd ADC_CNT0_HELD c).fset ADC_STAT_HELD c 1

/-- An instant put into an ascending list. -/
def insertTime (a : Time) : List Time → List Time
  | [] => [a]
  | b :: l => if a < b then a :: b :: l else b :: insertTime a l

/-- A start waits for its sampling instant. -/
def pendStart (s : State) (c : Nat) (a : Time) : State :=
  adcMod s c (fun x => { x with starts := insertTime a x.starts })

/-- One start that may be due: it is judged at its sampling instant, after what ends before it. -/
def startDue (c : Nat) (s : State) (a : Time) : State :=
  let s := takeHeld s c a
  let ends := match adcEnd s c with | some e => decide (e ≤ a) | none => false
  if s.clk < a || ends then pendStart s c a else regStart s c a

/-- The starts of a converter up to now take effect (R251, Table 10.2). -/
def adcSettle (s : State) (c : Nat) : State :=
  let l := (adcOf s c).starts
  takeHeld (l.foldl (startDue c) (adcMod s c (fun x => { x with starts := [] }))) c s.clk

/-- Calibration begins: the remaining slots of an interrupted sequence are abandoned (R253). -/
def beginCal (s : State) (c : Nat) (at_ : Time) : State :=
  let left := match (adcOf s c).nextSlot with | some j => slotsOf s c - j | none => 0
  let s := if left == 0 then s else s.satAdd ADC_CNT1_ABAND c left
  (adcMod s c (fun x => { x with job := none, nextSlot := none, waking := false, calAt := at_ })).fsets
    [(ADC_STAT_STATE, c, A_CAL), (ADC_STAT_CALP, c, 0)]

/-- The next instant of time trigger n after now on a domain's replica, as an elapsed instant (R311). -/
def nextFire (s : State) (d n : Nat) : Option Time :=
  let per := s.fget TIM_TRGPER_PER n * 65536
  let t := repTime s d
  let at_ := if per == 0 then oneShot s n
    else let o := s.fget TIM_TRGNS_NS n * 65536; if t < o then o else o + ((t - o) / per + 1) * per
  if (trigOf s n).on && decide (t < at_) then some (s.clk + (at_ - t)) else none

/-- The next event after now of the pair and the kind that EVT selects (R226, R248), from the pair's effective PER. -/
def nextPairEvent (s : State) (p evt : Nat) : Option Time :=
  let x := pwmOf s p
  let per := s.fget PWM_EPER_PER p
  let half := per / 2 * clkT
  let kind := if evt != 3 then evt else [0, 0, 1, 0, 2].getD (s.fget SPR_CFG_TPP) 0
  let l := [x.nextValley] ++ (if 1 ≤ kind then [x.nextPeak, x.nextValley + per * clkT] else [])
    ++ (if 2 ≤ kind then [x.nextPeak - half, x.nextPeak + half, x.nextValley + half] else [])
  if s.flag PWM_STAT_RUN p || x.waiting then (l.filter (s.clk < ·)).min? else none

/-- The next regular start that the converter predicts (R249). -/
def nextStart (s : State) (c : Nat) : Option Time :=
  match s.fget ADC_CFG_TRIG c with
  | 1 => some ((adcOf s c).timerAt + s.fget ADC_TIMER_PER c * adcClk)
  | 2 => nextFire s (instDom .adc c) (s.fget ADC_CFG_TSEL c)
  | 3 => nextPairEvent s (s.fget ADC_CFG_TSEL c) (s.fget ADC_CFG_EVT c)
  | _ => none

/-- A converter that has written the result of a sequence or an injected conversion whose sampling instant is `ref` powers
down: AWAKE is 0 and no start is predicted within 2,000 ns after it. After a calibration there is no such result, and the
converter stays awake until its next one (R249). -/
def sleeps (s : State) (c : Nat) (ref : Option Time) : Bool :=
  match ref with
  | none => false
  | some r => !s.flag ADC_CFG_AWAKE c
      && (match nextStart s c with | some a => decide (r + 2000 * nsT < a) | none => true)

/-- A converter that has become free at `free` goes on: an injected request first, then a calibration, the remaining
slots, a held start (R251 to R253). `ref` is the sampling instant of the result it has written, if it has. -/
def adcNext (s : State) (c : Nat) (free : Time) (ref : Option Time) : State :=
  match (adcOf s c).inj with
  | some q => beginInj s c q free false
  | none =>
    let s := s.fset ADC_STAT_INJP c 0
    if s.flag ADC_STAT_CALP c then beginCal s c free
    else match (adcOf s c).nextSlot with
      | some j => beginSlot s c j free false false
      | none =>
        let s := s.fsets [(ADC_STAT_STATE, c, if s.flag ADC_CFG_EN c then A_IDLE else A_OFF), (ADC_STAT_SLOT, c, 0)]
        adcSettle (adcMod s c (fun x => { x with freeAt := free, down := sleeps s c ref })) c

/-- ADC_TIMER_EXPIRY (R248): PER converter clocks after the enable or the expiry before. -/
def execAdcTimerExpiry (t : Time) (c : Conv) (s : State) : Outcome State Fault Refusal :=
  let s := s.at t
  let due := (adcOf s c).timerAt + s.fget ADC_TIMER_PER c * adcClk
  .next (if s.flag ADC_CFG_EN c && s.fget ADC_CFG_TRIG c == 1 && domOn s (instDom .adc c) && decide (due ≤ s.clk) then
    adcSettle (pendStart (adcMod s c (fun x => { x with timerAt := due })) c due) c else s)

/-- The converters that a start source selects start (Table 10.2), each 'lo' to 'hi' after the event at `at_`. -/
def startOn (s : State) (trig tsel : Nat) (at_ lo hi : Time) (p : State → Nat → Bool) : State :=
  (List.range 16).foldl (fun s c =>
    if s.fget ADC_CFG_TRIG c == trig && s.fget ADC_CFG_TSEL c == tsel && s.flag ADC_CFG_EN c
        && domOn s (instDom .adc c) && p s c then
      let (d, s) := drawBetween (adcSettle s c) lo hi
      pendStart s c (at_ + d)
    else s) s

/-- A pair event: 0 valley, 1 peak, 2 half count (R226, R248). -/
def adcPairEvent (s : State) (p kind : Nat) : State :=
  startOn s 3 p s.clk 39322 58982 (fun s c => s.fget ADC_CFG_EVT c != 3 && kind ≤ s.fget ADC_CFG_EVT c)
/-- A tick of the regulator: converters with EVT 3 (R226). -/
def adcTick (s : State) : State := startOn s 3 8 s.clk 39322 58982 (fun s c => s.fget ADC_CFG_EVT c == 3)
/-- A network-time trigger whose instant `i` domain d's replica has reached: each of its converters samples at its first
converter clock at or after that instant (R248, R311). -/
def adcTimeTrig (s : State) (d n i : Nat) : State :=
  startOn s 2 n (s.clk - (repTime s d - i)) 0 163839 (fun _ c => instDom .adc c == d)
/-- A window's crossing: 5.0 to 7.5 ns after it. -/
def adcWindow (s : State) (w : Nat) : State := startOn s 4 w s.clk (5 * nsT) 491520 (fun _ _ => true)

/-- ADC_STARTUP_DONE (R249): 400 ns after the sampling instant. -/
def execAdcStartupDone (t : Time) (c : Conv) (s : State) : Outcome State Fault Refusal :=
  let s := adcSettle (s.at t) c
  .next (match (adcOf s c).job with
  | some j => if j.first + 400 * nsT ≤ s.clk then adcMod s c (fun x => { x with waking := false }) else s
  | none => s)

/-- ADC_POWER_DOWN (R249): the converter decided at its last result to power down, and nothing has come since. -/
def execAdcPowerDown (t : Time) (c : Conv) (s : State) : Outcome State Fault Refusal :=
  let s := adcSettle (s.at t) c
  let x := adcOf s c
  .next (if s.fget ADC_STAT_STATE c == A_IDLE && x.down && !s.flag ADC_CFG_AWAKE c && x.inj.isNone && x.starts.isEmpty
      && !s.flag ADC_STAT_HELD c && !s.flag ADC_STAT_CALP c then s.fset ADC_STAT_STATE c A_DOWN else s)

/-! ## Results -/

/-- VALUE and SAT of a set of codes (R250). -/
def adcValue (codes : List Nat) (k : Nat) : Nat :=
  (Q.round ⟨((codes.take (2 ^ k)).sum * 16 : Nat), 2 ^ k⟩).toNat
def adcSat (codes : List Nat) : Bool := codes.any (fun x => x == 0 || x == 65535)

/-- The regulator owned the pulls of an input at an instant (R239). -/
def ownedAt (s : State) (ain : Nat) (at_ : Time) : Bool :=
  (sprOwns s ain && decide (s.spr.startAt ≤ at_))
    || s.spr.owned.any (fun e => e.1.contains ain && decide (e.2.1 ≤ at_ && at_ < e.2.2))

/-- The static pull of an input at an instant of the last 20 µs (R260). -/
def staticAt (s : State) (ain : Nat) (at_ : Time) : Nat :=
  match (smGet [] s.adc.pulls ain).find? (fun e => e.1 ≤ at_) with | some e => e.2 | none => staticPull s ain

/-- A result's tag lies within one counter clock of a tick (R228). -/
def tagMatches (tag at_ : Nat) : Bool := decide (tag * 65536 ≤ at_ + clkT) && decide (at_ < (tag + 1) * 65536 + clkT)

/-- The pulls that the regulator applies for the conversion at tick `no`: the pull-up to an input whose test begins at it, the
pull-down to one whose test began a carrier period before (R239). -/
def tickPulls (s : State) (no : Nat) : List (Nat × Nat) :=
  s.spr.tests.filterMap (fun x =>
    let ain := (sprInputs s).getD x.q 0
    if x.tick == no then some (ain, 1) else if x.tick + s.fget SPR_CFG_TPP == no then some (ain, 2) else none)

/-- The pull that the regulator applies to an input for the conversion whose first sample a tag in nanoseconds names. -/
def sprPull (s : State) (ain tag : Nat) : Nat :=
  match s.spr.ticks.find? (fun e => tagMatches tag e.at_) with
  | some e => match e.pulls.find? (fun p => p.1 == ain) with | some p => p.2 | none => 0
  | none => 0

/-- The pull-up sources current only while the pad lies below VDDA − 0.15 V, and the pull-down sinks only while it lies above
0.15 V (R260), all in units of 1.6 V / 2²⁴. -/
def pullCarries (code : Nat) (x vdda : Int) : Bool :=
  (code == 1 && decide (x < vdda - 1572864)) || (code == 2 && decide (1572864 < x))

/-- The pull of the converter's input at sample i of a job (R260): the regulator's alone on an input that it owns, otherwise
the conversion's own or the static one. -/
def pullAt (s : State) (c : Nat) (j : AdcJob) (i : Nat) : Nat :=
  let ain := 4 * c + j.pos
  if 4 ≤ j.pos then 0
  else if ownedAt s ain (sampleAt j i) then sprPull s ain (repAt s (instDom .adc c) j.first / 65536)
  else if j.pull != 0 then j.pull
  else staticAt s ain (sampleAt j i)

/-- A pull current flowed at a sampling instant of the set (Table 10.3). -/
def pullFlows (s : State) (c : Nat) (j : AdcJob) (levels : List Int) (vdda : Int) : Bool :=
  (List.range (2 ^ j.k)).any (fun i => pullCarries (pullAt s c j i) (levels.getD i 0) vdda)

/-- A result of an input that the regulator has selected crosses to it in 5.0 to 7.5 ns (R228, R248, Table 2.8). -/
def sprSend (s : State) (ain code tag : Nat) : State :=
  if s.fget SPR_STAT_STATE == 0 || !(sprInputs s).contains ain || !domOn s 9 then s
  else
    let (d, s) := drawBetween s (5 * nsT) 491520
    { s with spr.inbox := s.spr.inbox ++ [{ q := (sprInputs s).findIdx (· == ain), code, tag, arrive := s.clk + d }] }

/-- A result is written to register n of a converter (R250, R254, R255), and goes to the regulator, to the capture channels
and to its route (R256). Its tag is of the converter's replica of network time (R44). -/
def writeResult (s : State) (c n : Nat) (j : AdcJob) (codes : List Nat) (pull : Bool) : State :=
  let v := adcValue codes j.k
  let mean := repAt s (instDom .adc c) (jobMean j)
  let tag := tagOf mean
  let src := if j.pos == 4 then 512 + c % 8 * 8 else (4 * c + j.pos) * 8
  let lo := v * 4096 + b2n (adcSat (codes.take (2 ^ j.k))) * 1024 + src + tag % 8
  let hi := b2n pull * 2 ^ 30 + tag / 8
  let i := c * 6 + n
  let was := [s.fget ADC_RESLO_WORD i, s.fget ADC_RESHI_WORD i, s.fget ADC_VAL_VALUE i]
  let s := { s with adc.was := smSet ([], 0) s.adc.was i (was, s.clk) }
  let s := s.fsets [(ADC_RESLO_WORD, i, lo), (ADC_RESHI_WORD, i, hi), (ADC_VAL_VALUE, i, v)]
  let fresh := (List.range 9).foldl (fun m k => smMod (0, false) m (i * 16 + k) (fun e => (e.1 + 1, e.2))) s.adc.fresh
  let s := { s with adc.fresh := fresh, adc.at_ := smSet 0 s.adc.at_ i (mean + 1) }
  let s := if n == 5 || j.pos == 4 then s else sprSend s (4 * c + j.pos) v (mean / 65536)
  let s := capResult s (c * 16 + n) (v * 4096 + b2n (adcSat (codes.take (2 ^ j.k))) * 1024 + b2n pull * 512)
    (mean / 65536 * 65536)
  if n < 5 && s.flag ADC_ROUTE_EN (c * 5 + n) && domOn s 2 then
    match slotOf s (s.fget ADC_ROUTE_POINT (c * 5 + n)) with
    | some k =>
      let s := eccRead s 6 (k / 64)
      if routeOk s (s.fget ADC_ROUTE_POINT (c * 5 + n)) then ptWrite s k v false else s
    | none => s
  else s

/-- ADC_RESULT (R250, R252): `levels` are the converter's readings of the set's 2^k samples, in units of 1.6 V / 2²⁴, and
`vdda` the level of VDDA. -/
def execAdcResult (t : Time) (c : Conv) (levels : List Int) (vdda : Int) (s : State) : Outcome State Fault Refusal :=
  let s := adcSettle (s.at t) c
  .next (match (adcOf s c).job with
  | some j =>
    if s.fget ADC_STAT_STATE c != A_CONV || (adcOf s c).waking || decide (s.clk < jobEnd j)
        || levels.length != 2 ^ j.k then s
    else
      let s := writeResult s c (if j.inj then 5 else j.pos) j (levels.map (adcCode s c)) (pullFlows s c j levels vdda)
      let next := if j.inj then (adcOf s c).nextSlot
        else if j.slot + 1 < slotsOf s c then some (j.slot + 1) else none
      adcNext (adcMod s c (fun x => { x with job := none, nextSlot := next })) c (jobEnd j)
        (some (if j.inj then j.first else (adcOf s c).seqAt))
  | none => s)

/-- A read of ADC_RESLOn (R255): OVR in bit 11, and the latch of the high half. -/
def resloRead (s : State) (m i : Nat) : Nat × State :=
  (resloVal s m i,
    { s with adc.fresh := smSet (0, false) s.adc.fresh (i * 16 + m) (0, false)
             adc.latch := smSet none s.adc.latch m (some (i, s.fget ADC_RESHI_WORD i)) })

/-- A read of ADC_RESHIn: the latched word, or the live word with TORN. -/
def reshiRead (s : State) (m i : Nat) : Nat × State :=
  let latched := match smGet none s.adc.latch m with | some (j, _) => j == i | none => false
  (reshiVal s m i,
    if latched then
      { s with adc.fresh := smMod (0, false) s.adc.fresh (i * 16 + m) (fun e => (e.1, e.2 || 1 ≤ e.1)) }
    else s)

/-- ADC_RESLO_READ (R255). -/
def execAdcResloRead (m : Master) (n : Fin 6) (s : State) : Outcome State Fault Refusal :=
  .next (readAccess s m (0x130180 + 8 * n.val) (fun s => resloRead s m (chsel s .adc m * 6 + n.val)))

/-! ## Injected conversions and calibration -/

/-- The range checks of a PULL, K and POS (Table 10.5). -/
def convArgs (w : Nat) : Status := chk (bits w 8 2 == 3 || 8 < bits w 4 4 || 4 < w % 8) .range
/-- A PULL on an input of a running regulator (R260). -/
def pullTaken (s : State) (c w : Nat) : Bool := bits w 8 2 != 0 && w % 8 < 4 && sprOwns s (4 * c + w % 8)

/-- An injected request is taken (R252): by an idle converter 12.5 ns after it, with the acquisition of the input; a regular
start that reached the idle converter in the same converter clock is held behind it; otherwise it waits. -/
def injTake (s : State) (c : Nat) (q : Nat × Nat × Nat) : State :=
  let st := s.fget ADC_STAT_STATE c
  let first := s.clk + 819200
  let s := s.fset ADC_STAT_INJP c 1
  if st == A_IDLE then beginInj s c q first false
  else if st == A_DOWN then beginInj (s.satAdd ADC_CNT1_WAKE c) c q first true
  else match (adcOf s c).job with
    | some j =>
      if j.idle && j.first / adcClk == s.clk / adcClk && !s.flag ADC_STAT_HELD c then
        (beginInj (s.satAdd ADC_CNT0_HELD c) c q first j.wake).fset ADC_STAT_HELD c 1
      else adcMod s c (fun x => { x with inj := some q })
    | none => adcMod s c (fun x => { x with inj := some q })

/-- A write of ADC_INJ for converter c (R252). -/
def injEff (m c w : Nat) (s : State) : Status × State :=
  let s := adcSettle s c
  let go := bit w 31
  adcGuard s m c (firstStatus [convArgs w, chk (go && (!s.flag ADC_CFG_EN c || pullTaken s c w)) .conflict,
      chk (go && s.flag ADC_STAT_INJP c) .busy]) (fun s =>
    if go then injTake s c (w % 8, bits w 4 4, bits w 8 2) else s)

/-- ADC_INJ_GO (R252). -/
def execAdcInjGo (m : Master) (w : Word) (s : State) : Outcome State Fault Refusal :=
  .next (rowWrite s m 0x130120 w false (injEff m (chsel s .adc m) w.toNat))

/-- A write of ADC_CTL (R253): a held start is discarded. -/
def adcCtlEff (m c w : Nat) (s : State) : Status × State :=
  let s := adcSettle s c
  let st := s.fget ADC_STAT_STATE c
  adcGuard s m c (firstStatus [chk (bit w 0 && sprOwnsConv s c) .conflict,
      chk (bit w 0 && (st == A_CAL || s.flag ADC_STAT_CALP c)) .busy]) (fun s =>
    if !bit w 0 then s
    else
      let s := if s.flag ADC_STAT_HELD c then (s.fset ADC_STAT_HELD c 0).satAdd ADC_CNT0_MISS c else s
      if st == A_CONV then s.fset ADC_STAT_CALP c 1 else beginCal s c s.clk)

/-- ADC_CAL (R253). -/
def execAdcCal (m : Master) (w : Word) (s : State) : Outcome State Fault Refusal :=
  .next (rowWrite s m 0x130124 w false (adcCtlEff m (chsel s .adc m) w.toNat))

/-- ADC_CAL_DONE (R253, R358): after 20 µs the offset and gain found, and the hold delays of the reference channels. The
converter then acquires the input of slot 0 or of a waiting injected request. -/
def execAdcCalDone (t : Time) (c : Conv) (ofs gain : Word) (skews : List Int) (s : State) :
    Outcome State Fault Refusal :=
  let s := adcSettle (s.at t) c
  let ends := (adcOf s c).calAt + 20 * usT
  .next (if s.fget ADC_STAT_STATE c == A_CAL && decide (ends ≤ s.clk) then
    let s := putSkews (s.fsets [(ADC_CALOFS_OFS, c, ofs.toNat), (ADC_CALGAIN_GAIN, c, gain.toNat)]) (some c.val) skews
    let s := adcMod s c (fun x => { x with calGain := refGain s c })
    adcNext (s.fset ADC_STAT_STATE c (if s.flag ADC_CFG_EN c then A_IDLE else A_OFF)) c (ends + acqT) none
  else s)

/-! ## Configuration -/

/-- The checks at which ADC_CFG.EN is set (R262). -/
def adcEnCheck (s : State) (c w : Nat) : Status :=
  let trig := bits w 24 3
  let tsel := bits w 16 5
  firstStatus [chk (trig == 3 && isStack s) .notInRole, chk (trig == 1 && s.fget ADC_TIMER_PER c == 0) .zeroNotAllowed,
    chk ((trig == 2 && 15 < tsel) || (trig == 3 && 11 < tsel) || (trig == 4 && 15 < tsel)) .range,
    chk (bits w 12 2 == 3 && tsel != 8) .conflict]

/-- ADC_CFG without EN, as a word. -/
def adcCfgRest (s : State) (c : Nat) : Nat :=
  s.fget ADC_CFG_AWAKE c * 2 ^ 30 + s.fget ADC_CFG_TRIG c * 2 ^ 24 + s.fget ADC_CFG_TSEL c * 2 ^ 16
    + s.fget ADC_CFG_EVT c * 2 ^ 12 + s.fget ADC_CFG_SLOTS c

/-- ADC_CFG.EN is cleared: no further start is taken. A calibration that is pending or runs is carried out, after the set in
progress and a pending injected conversion, in the order of R253; the converter is then OFF. Without one it stops at once
(DESIGN CHOICE, assumption 50: the spec does not say what becomes of a conversion as EN is cleared). -/
def adcStop (s : State) (c : Nat) : State :=
  let s := (adcMod s c (fun x => { x with starts := [], down := false })).fset ADC_STAT_HELD c 0
  if s.fget ADC_STAT_STATE c == A_CAL || s.flag ADC_STAT_CALP c then s
  else (adcMod s c (fun x => { calAt := x.calAt, calGain := x.calGain })).fsets
    [(ADC_STAT_INJP, c, 0), (ADC_STAT_SLOT, c, 0), (ADC_STAT_STATE, c, A_OFF)]

/-- A write of ADC_CFG (R262). An enabled converter acquires the input of slot 0. -/
def adcCfgEff (m c w : Nat) (s : State) : Status × State :=
  let s := adcSettle s c
  let was := s.flag ADC_CFG_EN c
  let en := bit w 31
  let rest := bits w 30 1 * 2 ^ 30 + bits w 24 3 * 2 ^ 24 + bits w 16 5 * 2 ^ 16 + bits w 12 2 * 2 ^ 12 + w % 32
  adcGuard s m c (firstStatus [chk (4 < bits w 24 3 || 16 < w % 32) .range,
      chk (was && rest != adcCfgRest s c) .conflict, if en && !was then adcEnCheck s c w else .ok]) (fun s =>
    let s := s.fsets [(ADC_CFG_EN, c, b2n en), (ADC_CFG_AWAKE, c, bits w 30 1), (ADC_CFG_TRIG, c, bits w 24 3),
      (ADC_CFG_TSEL, c, bits w 16 5), (ADC_CFG_EVT, c, bits w 12 2), (ADC_CFG_SLOTS, c, w % 32)]
    if en && !was then
      let s := adcMod s c (fun x => { x with timerAt := s.clk, freeAt := s.clk + acqT, down := false })
      if s.fget ADC_STAT_STATE c == A_OFF then s.fset ADC_STAT_STATE c A_IDLE else s
    else if was && !en then adcStop s c
    else s)

/-- ADC_ENABLE (R262). -/
def execAdcEnable (m : Master) (w : Word) (s : State) : Outcome State Fault Refusal :=
  .next (rowWrite s m 0x130100 w false (adcCfgEff m (chsel s .adc m) w.toNat))

/-- Writes of ADC_TIMER and ADC_SLOTs (R262). -/
def adcTimerEff (m c w : Nat) (s : State) : Status × State :=
  let v := w % 2 ^ 24
  adcGuard s m c (firstStatus [chk (v != 0 && v < 16) .range, chk (s.flag ADC_CFG_EN c) .conflict]) (fun s =>
    s.fset ADC_TIMER_PER c v)
def adcSlotEff (m c j w : Nat) (s : State) : Status × State :=
  adcGuard s m c (firstStatus [convArgs w, chk (s.flag ADC_CFG_EN c || pullTaken s c w) .conflict]) (fun s =>
    s.fsets [(ADC_SLOT_PULL, c * 16 + j, bits w 8 2), (ADC_SLOT_K, c * 16 + j, bits w 4 4),
      (ADC_SLOT_POS, c * 16 + j, w % 8)])

/-- A static pull of an input changes (R260). -/
def pullPut (s : State) (ain v : Nat) : State :=
  if staticPull s ain == v then s
  else
    let l := smGet [] s.adc.pulls ain
    let l := if l.isEmpty then [(0, staticPull s ain)] else l
    let young := l.takeWhile (fun e => s.clk < e.1 + 20 * usT)
    let log := (s.clk, v) :: young ++ (l.drop young.length).take 1
    { s with adc.pulls := smSet [] s.adc.pulls ain log }.fset (ADC_PULL_PULL (ain % 16)) (ain / 16) v

/-- A write of ADC_PULLm (R260). -/
def adcPullEff (m j w : Nat) (s : State) : Status × State :=
  let off := if isStack s && 2 ≤ j then Status.notInRole else .ok
  let bad := (List.range 16).any (fun i => bits w (2 * i) 2 == 3)
  let owned := (List.range 16).any (fun i => sprOwns s (16 * j + i) && bits w (2 * i) 2 != staticPull s (16 * j + i))
  adcGuard s m 0x3f (firstStatus [off, chk bad .range, chk owned .conflict]) (fun s =>
    (List.range 16).foldl (fun s i => pullPut s (16 * j + i) (bits w (2 * i) 2)) s)

/-- A write of ADC_ROUTEn of a converter (R256). -/
def routeEff (m c n w : Nat) (s : State) : Status × State :=
  let en := bit w 31
  adcGuard s m c (chk (en && !routeOk s (w % 2 ^ 18)) .conflict) (fun s =>
    s.fsets [(ADC_ROUTE_EN, c * 5 + n, b2n en), (ADC_ROUTE_POINT, c * 5 + n, w % 2 ^ 18)])

/-- ADC_ROUTE_ENABLE (R256). -/
def execAdcRouteEnable (m : Master) (n : Fin 5) (w : Word) (s : State) : Outcome State Fault Refusal :=
  .next (rowWrite s m (0x1301d0 + 4 * n.val) w false (routeEff m (chsel s .adc m) n w.toNat))

/-! ## Window comparators -/

/-- A level in units of 1.6 V / 2²⁴. -/
def lvl (n : Nat) : Int := n * 4096

/-- The assertion and clear conditions of a window at its last input (Table 10.4). -/
def winAssert (s : State) (w : Nat) : Bool :=
  let x := smGet 0 s.adc.winIn w
  let lo := lvl (s.fget ADC_WEFF_ELO w)
  let hi := lvl (s.fget ADC_WEFF_EHI w)
  if s.flag ADC_WCFG_MODE w then decide (lo < x) && decide (x < hi) else decide (hi < x) || decide (x < lo)
def winClear (s : State) (w : Nat) : Bool :=
  let x := smGet 0 s.adc.winIn w
  let lo := lvl (s.fget ADC_WEFF_ELO w)
  let hi := lvl (s.fget ADC_WEFF_EHI w)
  let hy := lvl (s.fget ADC_WEFF_EHYST w)
  if s.flag ADC_WCFG_MODE w then decide (hi + hy < x) || decide (x < lo - hy)
  else decide (lo + hy < x) && decide (x < hi - hy)

/-- The event of a window asserts (R259). -/
def winRise (s : State) (w : Nat) : State :=
  if s.flag ADC_WSTAT_LIVE w then s
  else
    let s := (s.fsets [(ADC_WSTAT_LIVE, w, 1), (ADC_WSTAT_EVT, w, 1)]).satAdd ADC_WSTAT_CNT w
    adcWindow (srcAssert { s with adc.winSince := smSet 0 s.adc.winSince w 0 } (28 + w)) w

def winFall (s : State) (w : Nat) : State :=
  srcRelease (s.fset ADC_WSTAT_LIVE w 0) (28 + w)

/-- The window looks at its input under the levels in force (R257). -/
def winLook (s : State) (w : Nat) : State :=
  if !s.flag ADC_WCFG_EN w then s
  else if s.flag ADC_WSTAT_LIVE w then (if winClear s w then winFall s w else s)
  else if winAssert s w then
    if s.fget ADC_WCFG_FILT w == 0 then winRise s w
    else if smGet 0 s.adc.winSince w == 0 then { s with adc.winSince := smSet 0 s.adc.winSince w (s.clk + 1) }
    else s
  else { s with adc.winSince := smSet 0 s.adc.winSince w 0 }

/-- WINDOW_CROSSING (R257): the window's input is now `x`, in units of 1.6 V / 2²⁴. -/
def execWindowCrossing (t : Time) (w : Fin 16) (x : Int) (s : State) : Outcome State Fault Refusal :=
  let s := s.at t
  .next (if domOn s 5 then winLook { s with adc.winIn := smSet 0 s.adc.winIn w x } w else s)

/-- WINDOW_FILTER_EXPIRY (R257): the condition has held for FILT converter clocks of 2.5 ns. -/
def execWindowFilterExpiry (t : Time) (w : Fin 16) (s : State) : Outcome State Fault Refusal :=
  let s := s.at t
  let since := smGet 0 s.adc.winSince w
  .next (if s.flag ADC_WCFG_EN w && since != 0 && since - 1 + s.fget ADC_WCFG_FILT w * 163840 ≤ s.clk then
    winRise s w else s)

/-- A write of ADC_WCTL of window w (R258). -/
def wctlEff (m w v : Nat) (s : State) : Status × State :=
  let lo := s.fget ADC_WLO_LO w
  let hi := s.fget ADC_WHI_HI w
  let hy := s.fget ADC_WHYST_HYST w
  let mode := s.flag ADC_WCFG_MODE w
  adcGuard s m (0x20 + w) (firstStatus [
      chk (bit v 0 && (if mode then decide (hi ≤ lo) else decide (hi ≤ lo + 2 * hy))) .conflict,
      chk (bit v 0 && s.flag ADC_WSTAT_CPEND w) .busy]) (fun s =>
    if bit v 0 then
      ((s.eset ADC_WLO_LO w lo).eset ADC_WHI_HI w hi).eset ADC_WHYST_HYST w hy |>.fset ADC_WSTAT_CPEND w 1 |> fun s =>
        { s with adc.commitAt := smSet 0 s.adc.commitAt w s.clk }
    else s)

/-- WINDOW_COMMIT (R258). -/
def execWindowCommit (m : Master) (win : Fin 16) (w : Word) (s : State) : Outcome State Fault Refusal :=
  .next (rowWrite s m (0x131110 + 0x20 * win.val) w (bit w.toNat 0) (wctlEff m win w.toNat))

/-- WINDOW_LEVEL_SWITCH (R258): 100 ns after the commit, the released levels come into force together. -/
def execWindowLevelSwitch (t : Time) (w : Fin 16) (s : State) : Outcome State Fault Refusal :=
  let s := s.at t
  .next (if s.flag ADC_WSTAT_CPEND w && decide (smGet 0 s.adc.commitAt w + 100 * nsT ≤ s.clk) then
    winLook (s.fsets [(ADC_WSTAT_CPEND, w, 0), (ADC_WEFF_ELO, w, s.eget ADC_WLO_LO w),
      (ADC_WEFF_EHI, w, s.eget ADC_WHI_HI w), (ADC_WEFF_EHYST, w, s.eget ADC_WHYST_HYST w)]) w
  else s)

/-- A write of ADC_WCFG of window w (R262): with EN at 0 the event is inactive. -/
def wcfgEff (m w v : Nat) (s : State) : Status × State :=
  let was := s.flag ADC_WCFG_EN w
  let other := bits v 30 1 != s.fget ADC_WCFG_MODE w || bits v 16 7 != s.fget ADC_WCFG_INPUT w
    || v % 256 != s.fget ADC_WCFG_FILT w
  adcGuard s m (0x20 + w) (firstStatus [chk (71 < bits v 16 7) .range, chk (was && other) .conflict]) (fun s =>
    let s := s.fsets [(ADC_WCFG_EN, w, bits v 31 1), (ADC_WCFG_MODE, w, bits v 30 1), (ADC_WCFG_INPUT, w, bits v 16 7),
      (ADC_WCFG_FILT, w, v % 256)]
    if bit v 31 then winLook s w
    else winFall { s with adc.winSince := smSet 0 s.adc.winSince w 0 } w)

/-- A W1C write of ADC_WSTAT: ignored while LIVE is 1. -/
def wstatEff (w v : Nat) (s : State) : Status × State :=
  (.ok, if bit v 30 && !s.flag ADC_WSTAT_LIVE w then s.fset ADC_WSTAT_EVT w 0 else s)

end Sys2Proof.Machine
end

