-- ==== Sys2Proof/Machine/Time.lean ====
section
/-! DEFINITION. Network time (Chapter 12): cycles (R296, R297), PTP in stack role (R299, R300), the link's delays
(R302, R303), the servo with its lock and steps (R305, R306), holdover (R307 to R309), time triggers (R311 to R313)
and the TIM registers (R314). -/

namespace Sys2Proof.Machine
open Host

/-! ## Cycles -/

/-- T in units of 2⁻¹⁶ ns. -/
def cycT (s : State) : Nat := s.fget TIM_CYC_T * 65536
/-- A stack cycle within R296. -/
def cycOk (n : Nat) : Bool := decide (10000 ≤ n) && decide (n ≤ 100000) && 1000000000 % n == 0
/-- The cycle in progress at a network time (R296). -/
def cycleAt (s : State) (t : Nat) : Nat :=
  let n := s.fget TIM_CYC_T
  (secOf t * (1000000000 / n) + nsOf t / n) % 2 ^ 32
/-- The boundary of the cycle in progress at a network time. -/
def boundAt (s : State) (t : Nat) : Nat := t - t % cycT s
/-- TIM_CYCLE and the boundary in force follow network time, at a boundary, after a step and after a change of T. -/
def syncCycle (s : State) : State :=
  let t := netTime s
  { s with tim.bound := boundAt s t }.fset TIM_CYCLE_CYCLE 0 (cycleAt s t)

/-- A lane's stamp at an elapsed instant on the replica of its quad, with 0.25 ns resolution (R44, R298). -/
def stampAt (s : State) (l : Nat) (c : Time) : Nat :=
  repAt s (10 + l / 4) c / 16384 * 16384

/-! ## Rate -/

/-- An integer divided by 2^k, to the nearest. -/
def roundShift (k : Nat) (x : Int) : Int := (x + (2 ^ (k - 1) : Nat)) / (2 ^ k : Nat)

/-- Time advances at 1 − y plus the feed-forward from now on (R305, R49). -/
def putRate (s : State) : State :=
  let now := netTime s
  { s with tim := { s.tim with base := now, at_ := s.clk, rate := s.sys.ffwd - roundShift 24 s.tim.y } }.fset
    TIM_FREQ_F 0 (ofSigned 32 (-(roundShift 24 s.tim.y)))

/-- The EN writes of a trigger, oldest first, each in effect 100 ns after it in every replica (R312). -/
def trigSettle (s : State) (n : Nat) : State :=
  ((trigOf s n).pend.takeWhile (fun e => decide (e.2 ≤ s.clk))).foldl (fun s e =>
    trigMod s n (fun x => { x with
      pend := x.pend.drop 1, on := e.1, from_ := if e.1 then e.2 else x.from_ })) s

/-- Network time is set: the triggers' instants that a step forward passes over are counted and do not fire (R313), and the replicas of the domains stay where they
stand until they are compared (R44). -/
def setTime (s : State) (t : Nat) : State :=
  let s := (List.range 16).foldl trigSettle s
  let old := netTime s
  let skip := ((List.range 16).map (fun n => if (trigOf s n).on then skipCount s n old t else 0)).sum
  let s := (List.range 16).foldl (passOver 0 old t) (if skip == 0 then s else s.satAdd TIM_CNT0_SKIP 0 skip)
  let far := (List.range 17).filter (fun d => hasReplica d && domOn s d)
  let repl := far.foldl (fun m d => smMod 0 m d (· + ((old : Int) - t))) s.sys.repl
  syncCycle { s with tim := { s.tim with base := t, at_ := s.clk }, sys.repl := repl }

/-! ## Servo -/

/-- A state in which the device may step its time (R306). -/
def mayStep (s : State) : Bool :=
  if isStack s then [ST_BOOT, ST_ENUMERATE, ST_TIME_LOCK, ST_SAFE].contains (devState s)
  else [ST_BOOT, ST_JOINED, ST_READY, ST_CSAFE, ST_BYPASSED].contains (devState s)

/-- 200 ppm in units of 2⁻³² ppb. -/
def ppm200 : Int := 858993459200000
def clampI (x lo hi : Int) : Int := if x < lo then lo else if hi < x then hi else x

/-- wn = 2π·bw in rad/s (R305). -/
def servoWn (s : State) : Q := (qPi.mul (Q.ofNat (2 * s.fget TIM_SERVO_BW))).mul ⟨1, 10⟩

/-- The proportional-integral update of R305 with offset e, in units of 2⁻¹⁶ ns. -/
def servoPi (s : State) (e : Int) : State :=
  let wn := servoWn s
  let kpe := ((wn.mul ⟨14142 * 65536, 10000⟩).mul (Q.ofInt e)).round
  let slew : Int := (s.fget TIM_SERVO_SLEW * 2 ^ 32 : Nat)
  let p := clampI kpe (-slew) slew
  let dt := match s.tim.lastUpd with | some c => s.clk - c | none => 0
  let di := ((wn.mul wn).mul ⟨e * dt, 1000000000⟩).round
  let i := clampI (if p == kpe then s.tim.i + di else s.tim.i) (-ppm200) ppm200
  let s := s.fset TIM_STAT_SLEW 0 (b2n (p != kpe))
  putRate { s with tim := { s.tim with i, y := clampI (i + p) (-ppm200) ppm200 } }

/-- The correction holds at −i in holdover (R305). -/
def holdRate (s : State) : State := putRate { s with tim.y := s.tim.i }

/-- One servo update (R305, R306): a step removes the offset and keeps i; anywhere else the servo slews. -/
def servo (s : State) (e : Int) : State :=
  let ofs := clampI (roundShift 14 e) (-(2 ^ 31 : Int)) (2 ^ 31 - 1)
  let s := s.fset TIM_OFS_OFS 0 (ofSigned 32 ofs)
  let th := s.fget TIM_LOCKCFG_STEPTH
  let s := if mayStep s && th != 0 && decide (th * 65536 < e.natAbs) then
      let s := setTime s (((netTime s : Nat) : Int) - e).toNat
      ((holdRate s).satAdd TIM_CNT0_STEPS 0).fsets [(TIM_STAT_STEPPED, 0, 1), (TIM_STAT_SLEW, 0, 0)]
    else servoPi s e
  { s with tim.lastUpd := some s.clk }

/-- The lock criteria of R305: `n` offsets in a row within LOCKTH set LOCK, `k` beyond 4 × LOCKTH clear it. -/
def judgeLock (s : State) (e : Int) (n k : Nat) : State :=
  let th := s.fget TIM_LOCKCFG_LOCKTH * 16384
  let good := if e.natAbs ≤ th then min (s.tim.good + 1) n else 0
  let bad := if 4 * th < e.natAbs then min (s.tim.bad + 1) k else 0
  let s := { s with tim := { s.tim with good, bad } }
  if good == n then s.fset TIM_STAT_LOCK 0 1 else if bad == k then s.fset TIM_STAT_LOCK 0 0 else s

/-- LOCK counts begin again. -/
def dropLock (s : State) : State := { s with tim := { s.tim with good := 0, bad := 0 } }.fset TIM_STAT_LOCK 0 0

/-- Entry into holdover: the correction holds at −i, and no p acts (R305, R308, R309). -/
def enterHold (s : State) : State :=
  if s.flag TIM_STAT_HOLD then s
  else
    let s := (s.fsets [(TIM_STAT_HOLD, 0, 1), (TIM_STAT_SLEW, 0, 0)]).satAdd TIM_CNT1_HOLDS 0
    holdRate { s with tim := { s.tim with holdAt := s.clk } }

/-- An instant that lies less than `d` back. -/
def recent (a : Option Time) (d now : Time) : Bool := match a with | some x => decide (now < x + d) | none => false

/-- TEMP_FEEDFORWARD (R49, R376): while a configuration image is in force, the reading of the sensor that
KILN_COMPSEL names, or its last reading before a break; once every 10 ms. The sum is formed exactly and rounded to 2⁻⁸ ppb
(DESIGN CHOICE, assumption 50). -/
def execTempFeedforward (t : Time) (s : State) : Outcome State Fault Refusal :=
  let s := s.at t
  let ff := tempCorr s (cfgOf s).ff (s.fget KILN_COMPSEL_OSCSNS)
  .next (if recent s.tim.ffAt (10 * msT) s.clk then s else putRate { s with sys.ffwd := ff, tim.ffAt := some s.clk })

/-! ## Stack time from PTP -/

def ptpOf (s : State) (p : Nat) : PtpPort := smGet {} s.tim.ptp p
def ptpMod (s : State) (p : Nat) (f : PtpPort → PtpPort) : State := { s with tim.ptp := smMod {} s.tim.ptp p f }

/-- The stack takes its time from PTP. -/
def usesPtp (s : State) : Bool := isStack s && s.fget TIM_CFG_SRC == 0
/-- The Ethernet port is up. -/
def portUp (s : State) (p : Nat) : Bool := isStack s && laneActive s (26 + p)

/-- The default best-master comparison (R299): the dataset's members in order, the smaller value better. -/
def dsKey (a : Announce) : List Nat :=
  [a.prio1, a.clockClass, a.accuracy, a.variance, a.prio2, a.gm, a.steps, a.sender]
def lexLt : List Nat → List Nat → Bool
  | a :: l, b :: r => if a == b then lexLt l r else decide (a < b)
  | _, _ => false
def dsBetter (a b : Option Announce) : Bool :=
  match a, b with
  | some x, some y => lexLt (dsKey x) (dsKey y)
  | some _, none => true
  | _, _ => false

/-- The port that the stack listens to: fixed, or under automatic selection the one in use. -/
def timePort (s : State) : Nat := if s.fget TIM_CFG_PORT == 2 then s.tim.port else s.fget TIM_CFG_PORT

/-- ANNOUNCE_MESSAGE (R299). -/
def execAnnounceMessage (t : Time) (port : Fin 2) (a : Announce) (s : State) : Outcome State Fault Refusal :=
  let s := s.at t
  .next (if !portUp s port || !usesPtp s || a.domain != s.fget TIM_CFG_DOMAIN then s
  else
    let x := ptpOf s port
    let same := match x.best with | some b => b.sender == a.sender | none => false
    let s := if same || dsBetter (some a) x.best then ptpMod s port (fun x => { x with best := some a }) else s
    let o := 1 - s.tim.port
    if s.fget TIM_CFG_PORT == 2 && dsBetter (ptpOf s o).best (ptpOf s s.tim.port).best then { s with tim.port := o }
    else s)

/-- ANNOUNCE_TIMEOUT (R299, R305, R309): on the port in use, the stack moves ports, LOCK clears and holdover begins. -/
def execAnnounceTimeout (t : Time) (port : Fin 2) (s : State) : Outcome State Fault Refusal :=
  let s := s.at t
  .next (if !usesPtp s then s
  else
    let cur := timePort s == port.val
    let s := ptpMod s port (fun x => { x with best := none })
    if !cur then s
    else
      let s := if s.fget TIM_CFG_PORT == 2 then { s with tim.port := 1 - port.val } else s
      enterHold (dropLock s))

/-- SYNC_MESSAGE (R305): a Sync, with its follow-up, from the master of the port in use. The offset is the receive
stamp minus origin, correction, mean link delay and asymmetry (TIM_ASYM3 or TIM_ASYM4). In holdover no update runs, and
the offset is judged for LOCK only, whose return ends the holdover (R305, R309). -/
def execSyncMessage (t : Time) (port : Fin 2) (domain sender : Nat) (rx : Time) (origin : Nat) (corr : Int)
    (s : State) : Outcome State Fault Refusal :=
  let s := s.at t
  let x := ptpOf s port
  let master := match x.best with | some b => b.sender == sender | none => false
  .next (if !usesPtp s || !portUp s port || timePort s != port.val || domain != s.fget TIM_CFG_DOMAIN || !master then s
  else
    let e : Int := (stampAt s (26 + port.val) rx : Nat) - ((origin : Int) + corr + x.delay
      + toSigned 16 (s.fget TIM_ASYM_ASYM (3 + port.val)) * 256)
    let was := s.flag TIM_STAT_LOCK
    let s := judgeLock (if s.flag TIM_STAT_HOLD then s else servo s e) e 16 4
    let now := s.flag TIM_STAT_LOCK
    if now then s.fset TIM_STAT_HOLD 0 0
    else if was && inService s then enterHold s
    else s)

/-- PDELAY_REQUEST (R299): answered two-step, with the stamps of its arrival and of the response's departure. -/
def execPdelayRequest (t : Time) (h : PdelayIn) (s : State) : Outcome State Fault Refusal :=
  let s := s.at t
  .next (if !portUp s h.port || h.domain != s.fget TIM_CFG_DOMAIN then s
  else
    let (d, s) := drawFree s
    let t2 := stampAt s (26 + h.port.val) t
    { s with ethOut := s.ethOut ++ [.pdelayResp h.port h.domain t2, .pdelayFollowUp h.port h.domain (t2 + d)] })

/-- PDELAY_REQUEST_TIMER (R299). -/
def execPdelayRequestTimer (t : Time) (port : Fin 2) (s : State) : Outcome State Fault Refusal :=
  let s := s.at t
  .next (if !portUp s port then s
  else { ptpMod s port (fun x => { x with t1 := some (stampAt s (26 + port.val) s.clk) }) with
    ethOut := s.ethOut ++ [.pdelayReq port (s.fget TIM_CFG_DOMAIN)] })

/-- PDELAY_RESPONSE (R299): with its follow-up, the mean link delay ((t4 − t1) − (t3 − t2) − correction)/2. -/
def execPdelayResponse (t : Time) (h : PdelayIn) (rx : Time) (t2 t3 : Nat) (corr : Int) (s : State) :
    Outcome State Fault Refusal :=
  let s := s.at t
  .next (match (ptpOf s h.port).t1 with
  | some t1 =>
    if !portUp s h.port || h.domain != s.fget TIM_CFG_DOMAIN then s
    else
      let d := ((stampAt s (26 + h.port.val) rx : Nat) - (t1 : Int) - ((t3 : Int) - t2) - corr) / 2
      ptpMod s h.port (fun x => { x with t1 := none, delay := d })
  | none => s)

/-- PTP_TRANSPARENT_RELAY (R299): with TC at 1 a PTP message passes to the other port, as IEEE 1588-2019 has a peer-to-peer
transparent clock do it (PRESUMED, assumption 24): the correction of a Sync (message type 0) grows by its residence and by the
delay of the link it came on, peer-delay messages (types 2, 3 and 10) end at the port, and the others pass as they are. -/
def execPtpTransparentRelay (t : Time) (port : Fin 2) (kind : Nat) (corr : Int) (residence : Nat) (s : State) :
    Outcome State Fault Refusal :=
  let s := s.at t
  .next (if !s.flag TIM_CFG_TC || !portUp s port || !portUp s (1 - port.val) || [2, 3, 10].contains kind then s
  else
    let add : Int := if kind == 0 then residence + (ptpOf s port).delay + toSigned 16 (s.fget TIM_ASYM_ASYM (3 + port.val)) * 256
      else 0
    { s with ethOut := s.ethOut ++ [.ptpRelay (1 - port.val) kind (corr + add)] })

/-- Free-run (R300): time starts at 0 s as the configuration image comes into force, and LOCK reads 1 at once. -/
def startFree (s : State) : State :=
  if isStack s && s.fget TIM_CFG_SRC == 1 then
    (setTime s 0).fsets [(TIM_STAT_LOCK, 0, 1), (TIM_STAT_FREE, 0, 1), (TIM_STAT_HOLD, 0, 0)]
  else s

/-! ## Cell time from the link -/

/-- A frame whose epoch exceeds the known epoch and that carries HOLDER sets both (R330). -/
def learnHolder (s : State) (sid epoch : Nat) (holder : Bool) : State :=
  if !isStack s && holder && decide (s.fget VOTE_CEPOCH_EPOCH < epoch) then
    { s with cell.holder := sid }.fset VOTE_CEPOCH_EPOCH 0 epoch
  else s

/-- D_s in units of 2⁻¹⁶ ns (R303). -/
def ingress (s : State) (p : Nat) : Int :=
  ((s.fget TIM_PDLY_DLY p : Nat) + toSigned 16 (s.fget TIM_ASYM_ASYM p)) * 256

/-- One measurement of a segment's mean delay, in units of 2⁻¹⁶ ns (R302). -/
def delayTake (s : State) (p : Nat) (d : Int) : State :=
  let mean : Int := (s.fget TIM_PDLY_DLY p * 256 : Nat)
  if s.flag TIM_PDLY_VALID p && decide (131072 < (d - mean).natAbs) then s.satAdd TIM_CNT2_OUTLIER 0
  else
    let l := (d :: (lnOf s p).delays).take 64
    let s := lnMod s p (fun x => { x with delays := l })
    let m := roundShift 8 (l.foldl (· + ·) 0 / (l.length : Int))
    s.fsets [(TIM_PDLY_DLY, p, (clampI m 0 (2 ^ 24 - 1)).toNat),
      (TIM_PDLY_VALID, p, b2n (s.flag TIM_PDLY_VALID p || decide (16 ≤ l.length)))]

/-- Self-test has passed (R33): every domain that a cell uses has been tested since the cold reset, and nothing that the
configuration uses is retired (R383, R384). -/
def selfTested (s : State) : Bool :=
  s.sys.testing == 0 && (List.range' 1 11).all (bit (s.fget SEC_BISTDONE_DONE)) && !usesRetired s

/-- A cell in JOINED becomes READY (R33): locked to the holder's time, self-test passed, configuration accepted. Pitch
begins anew. -/
def tryReady (s : State) : State :=
  if !isStack s && devState s == ST_JOINED && s.flag TIM_STAT_LOCK && selfTested s && s.cell.cfgOk
      && s.sys.retrain.isEmpty then
    setDev { s with cell.step := 0 } ST_READY CA_NONE
  else s

/-- TIMELOSS follows the cell's lock (R308). -/
def timeLoss (s : State) : State := srcAssert (dropLock s) SRC_TIMELOSS

/-- TIME_FRAME (R296, R304 to R308, R330): the consumption of a TIME frame whose start block was stamped at `rx`. TIM_PEEROFS
takes the offset of the frames of every stack but the reference, with D_s as it stands (R304). -/
def execTimeFrame (t : Time) (l : Lane) (rx : Time) (fr : Frame) (s : State) : Outcome State Fault Refusal :=
  let (ok, s) := rxCheck (s.at t) l fr
  .next (match fr.body with
  | .time origin corr cyc _ =>
    if !ok || !isUpPort s l then s
    else
      let h := fr.hdr
      let hold := bit h.xflags 0
      let s := learnHolder s h.sid h.epoch hold
      let isRef := if s.cell.holder == 3 then s.tim.ref == none || s.tim.ref == some h.sid
        else s.cell.holder == h.sid || s.tim.ref == some h.sid
      let fresh := hold && isRef && decide (s.fget VOTE_CEPOCH_EPOCH ≤ h.epoch)
      let stays := [ST_PRECHARGED, ST_CRUN, ST_COAST].contains (devState s)
      let s := if fresh && cyc != s.fget TIM_CYC_T && cycOk cyc && !stays then syncCycle (s.fset TIM_CYC_T 0 cyc) else s
      let timed := !bit h.xflags 1 && s.flag TIM_PDLY_VALID l
      let e : Int := (stampAt s l rx : Nat) - ((origin : Int) + corr + ingress s l)
      let other := if s.cell.holder == 3 then s.tim.ref != some h.sid && !(hold && s.tim.ref == none) else s.cell.holder != h.sid
      let s := if other then
          s.fset TIM_PEEROFS_OFS h.sid (ofSigned 32 (clampI (roundShift 14 e) (-(2 ^ 31 - 1 : Int)) (2 ^ 31 - 1)))
        else s
      if !(fresh && timed && cyc == s.fget TIM_CYC_T) then s.satAdd TIM_CNT1_IGNORED 0
      else
        let s := { s with tim := { s.tim with used := true, lastUse := s.clk, ref := some h.sid } }
        let s := s.fsets [(TIM_STAT_REFSID, 0, h.sid), (TIM_STAT_HOLD, 0, 0)]
        let s := judgeLock (servo s e) e 256 16
        tryReady (if s.flag TIM_STAT_LOCK then srcRelease s SRC_TIMELOSS else s)
  | _ => s)

/-- DELAY_REQUEST_TIMER (R302): once every 1 ms, an IDLE frame with DREQ on each ACTIVE upstream port. -/
def execDelayRequestTimer (t : Time) (s : State) : Outcome State Fault Refusal :=
  let s := s.at t
  .next (if isStack s || recent s.tim.dreqAt msT s.clk then s
  else sendAll { s with tim.dreqAt := some s.clk } ([0, 1, 2].filter (laneActive s)) 6 (fun l => idleFrame s l 0x8000))

/-- ECHOLOST (R302): no DRSP within 10 µs of the request. -/
def execEcholost (t : Time) (port : Fin 3) (s : State) : Outcome State Fault Refusal :=
  let s := s.at t
  .next (match (lnOf s port).t1 with
  | some t1 => if isUpPort s port && decide (t1 + 10 * usT ≤ stampAt s port s.clk) then
      (lnMod s port (fun x => { x with t1 := none })).satAdd TIM_CNT2_ECHOLOST 0 else s
  | none => s)

/-- CELL_HOLDOVER_ENTRY (R308). -/
def execCellHoldoverEntry (t : Time) (s : State) : Outcome State Fault Refusal :=
  let s := s.at t
  .next (if isStack s || !s.tim.used || s.flag TIM_STAT_HOLD || decide (s.clk < s.tim.lastUse + 10 * cycT s) then s
  else
    let s := enterHold s
    if s.fget TIM_HOLD_CELLHOLD == 0 then timeLoss s else s)

/-- CELLHOLD_EXPIRY (R308). -/
def execCellholdExpiry (t : Time) (s : State) : Outcome State Fault Refusal :=
  let s := s.at t
  .next (if isStack s || !s.tim.used || !s.flag TIM_STAT_HOLD || decide (s.clk < s.tim.holdAt + s.fget TIM_HOLD_CELLHOLD * msT) then s
  else timeLoss s)

/-! ## Time triggers -/

/-- Record a refusal in TIM_ERR. -/
def timErr (s : State) (m : Nat) (st : Status) : State :=
  recErr s TIM_ERR_VALID TIM_ERR_MULTI [(TIM_ERR_MASTER, 0, m), (TIM_ERR_STATUS, 0, st.code)]

/-- The check of an enable (R312). -/
def trigCheck (s : State) (n : Nat) : Status :=
  let per := s.fget TIM_TRGPER_PER n
  if per == 0 then chk (decide (oneShot s n < netTime s + 100 * nsT)) .stale
  else chk (decide (per < 40) || decide (1000000000 < per) || 1000000000 % per != 0
    || decide (per ≤ s.fget TIM_TRGNS_NS n)) .range

/-- A write of TIM_TRGCFGn (R312). While EN is 1 it is also a write of SEC_HI: only one that clears EN and leaves SEC_HI as it
stands is taken (DEDUCED, assumption 51). -/
def trgcfgEff (m n w : Nat) (s : State) : Status × State :=
  let en := bit w 31
  let was := s.flag TIM_TRGCFG_EN n
  if was && (en || w % 65536 != s.fget TIM_TRGCFG_SEC_HI n) then (.conflict, timErr s m .conflict)
  else
    let r := s.fset TIM_TRGCFG_SEC_HI n w
    if en == was then (.ok, r)
    else
      let st := if en then trigCheck r n else .ok
      if st != .ok then (st, timErr s m st)
      else
        let r := trigMod (r.fset TIM_TRGCFG_EN n (b2n en)) n (fun x => { x with pend := x.pend ++ [(en, s.clk + 100 * nsT)] })
        (.ok, if en then r.fset TIM_TRGCFG_FIRED n 0 else r)

/-- A write of a trigger's PER, NS or SEC_LO (R312). -/
def trgFldEff (m n : Nat) (F : Fld) (w : Nat) (s : State) : Status × State :=
  if s.flag TIM_TRGCFG_EN n then (.conflict, timErr s m .conflict) else (.ok, s.fset F n w)

/-- TIME_TRIGGER_ENABLE (R312). -/
def execTimeTriggerEnable (m : Master) (n : Fin 16) (w : Word) (s : State) : Outcome State Fault Refusal :=
  .next (rowWrite s m (0x40100 + 16 * n.val) w false (trgcfgEff m n w.toNat))

/-- TIME_TRIGGER_EFFECT (R312): 100 ns after it, an EN write of the trigger takes effect. -/
def execTimeTriggerEffect (t : Time) (n : Fin 16) (s : State) : Outcome State Fault Refusal :=
  .next (trigSettle (s.at t) n)

/-- Trigger n on domain d's replica, 0 for TIM's own time (R311, R313): it fires the instant of its schedule that this time
has reached within the last 1 ns, if EN was in effect by then (R312) and the instant is later than the last one fired or
passed over there. TIM shows it in FIRED, and counts an instant that is withheld; a domain that is off sees none. -/
def trigFire (n : Nat) (s : State) (d : Nat) : State :=
  let x := trigOf s n
  match lastInstant s n (repTime s d) with
  | 0 => s
  | i + 1 =>
    let at_ := s.clk - (repTime s d - i)
    if !x.on || decide (i + 65536 ≤ repTime s d) || decide (at_ < x.from_) || (d != 0 && !domOn s d) then s
    else if i < smGet 0 x.last d then
      if d == 0 && decide (x.seen + 65536 ≤ at_) then
        (trigMod s n (fun x => { x with seen := at_ })).satAdd TIM_CNT0_SKIP 0
      else s
    else
      let s := trigMod s n (fun x => { x with last := smSet 0 x.last d (i + 1) })
      if d == 0 then
        let s := trigMod s n (fun x => { x with seen := at_ })
        if s.fget TIM_TRGPER_PER n == 0 then s.fset TIM_TRGCFG_FIRED n 1 else s
      else if d == 3 then captureTime s n i
      else adcTimeTrig s d n i

/-- TIME_TRIGGER_FIRE (R311): TIM and every consuming domain whose replica has reached an instant of the trigger's schedule
act on it; a replica that differs from TIM reaches it with a command of its own (assumption 51). -/
def execTimeTriggerFire (t : Time) (n : Fin 16) (s : State) : Outcome State Fault Refusal :=
  .next ([0, 3, 5, 6].foldl (trigFire n) (trigSettle (s.at t) n))

/-! ## Registers -/

/-- A read of TIM_NOW0: the nanoseconds, with the rest latched for the reading master (R314). -/
def nowRead (s : State) (m : Nat) : Nat × State :=
  (nsOf (netTime s), { s with tim.now := smSet 0 s.tim.now m (netTime s) })

/-- TIM_NOW_READ (R314). -/
def execTimNowRead (m : Master) (s : State) : Outcome State Fault Refusal :=
  .next (readAccess s m 0x40020 (fun s => nowRead s m))

/-- A write that TIM refuses into TIM_ERR, or carries out. -/
def timGuard (m : Nat) (st : Status) (eff : State → State) (s : State) : Status × State :=
  if st == .ok then (.ok, eff s) else (st, timErr s m st)

/-- A write of TIM_CFG (R299, R300, R314). -/
def timCfgEff (m w : Nat) (s : State) : Status × State :=
  timGuard m (firstStatus [chk (!isStack s) .notInRole, chk (inService s) .conflict,
    chk (bits w 8 2 == 3 || 2 ≤ w % 4) .range]) (fun s =>
      let was := s.fget TIM_CFG_SRC
      let s := s.fsets [(TIM_CFG_TC, 0, bits w 31 1), (TIM_CFG_DOMAIN, 0, bits w 16 8), (TIM_CFG_PORT, 0, bits w 8 2),
        (TIM_CFG_SRC, 0, w % 4)]
      if w % 4 == 1 && was != 1 && cfgInForce s then
        s.fsets [(TIM_STAT_LOCK, 0, 1), (TIM_STAT_FREE, 0, 1), (TIM_STAT_HOLD, 0, 0)]
      else if w % 4 == 0 && was == 1 then (dropLock s).fset TIM_STAT_FREE 0 0
      else s) s

/-- A write of TIM_CYC (R296, R297). -/
def timCycEff (m w : Nat) (s : State) : Status × State :=
  let n := w % 2 ^ 17
  timGuard m (firstStatus [chk (!isStack s) .notInRole, chk (n == 0) .zeroNotAllowed, chk (n != 0 && !cycOk n) .range,
    chk (inService s) .conflict]) (fun s => syncCycle (s.fset TIM_CYC_T 0 n)) s

/-- Writes of TIM_SERVO, TIM_LOCKCFG and TIM_HOLD. -/
def timServoEff (m w : Nat) (s : State) : Status × State :=
  timGuard m (firstStatus [chk (bits w 16 12 == 0 || w % 65536 == 0) .zeroNotAllowed, chk (1000 < bits w 16 12) .range])
    (fun s => s.fsets [(TIM_SERVO_BW, 0, bits w 16 12), (TIM_SERVO_SLEW, 0, w)]) s
def timLockcfgEff (m w : Nat) (s : State) : Status × State :=
  timGuard m (chk (w % 65536 == 0) .zeroNotAllowed)
    (fun s => s.fsets [(TIM_LOCKCFG_STEPTH, 0, bits w 16 16), (TIM_LOCKCFG_LOCKTH, 0, w)]) s
def timHoldEff (m w : Nat) (s : State) : Status × State :=
  timGuard m (chk (10000 < w % 2 ^ 14) .range) (fun s => s.fset TIM_HOLD_CELLHOLD 0 w) s

/-- A write of TIM_ASYMs (R303, R314). -/
def timAsymEff (m i w : Nat) (s : State) : Status × State :=
  timGuard m (chk (!isStack s && 3 ≤ i) .notInRole) (fun s => s.fset TIM_ASYM_ASYM i w) s

end Sys2Proof.Machine
end

