-- ==== Sys2Proof/Machine/Lease.lean ====
section
/-! DEFINITION. The tap lease (R322 to R329), racking (R332, R333), cross-check and self-check (R335 to R341) in stack
role, and the stack-role registers of the VOTE block (R346). -/

namespace Sys2Proof.Machine
open Host

/-- STACKS of the build. -/
def stackCount (s : State) : Nat := (cfgOf s).topo.nStacks
/-- Lease length in units of 2⁻¹⁶ ns. -/
def leaseT (s : State) : Nat := s.fget VOTE_LCFG_LEASE_T * usT

/-- Record a refusal in VOTE_ERR. -/
def voteErr (s : State) (m : Nat) (st : Status) : State :=
  recErr s VOTE_ERR_VALID VOTE_ERR_MULTI [(VOTE_ERR_MASTER, 0, m), (VOTE_ERR_STATUS, 0, st.code)]

/-- The network time nearest to now with a tag (an expiry may lie ahead). -/
def nearTag (s : State) (tag : Nat) : Nat :=
  let now := netTime s / 65536
  (((now : Int) + toSigned 32 ((tag + 2 ^ 32 - now % 2 ^ 32) % 2 ^ 32)).toNat) * 65536

def syncCand (s : State) : State := s.fset VOTE_LEASE_CAND 0 (b2n (isCand s))

/-- A peer that sent a periodic LEASE record in either of the last two cycles (R326). -/
def peerSeen (s : State) (sid : Nat) : Bool :=
  let c := smGet 0 s.vote.seen sid
  c != 0 && decide (((cycleNow s + 2 ^ 32 - (c - 1)) % 2 ^ 32) ≤ 2)
/-- A live candidate peer. -/
def peerCand (s : State) (sid : Nat) : Bool := (livePeers s).contains sid && peerSeen s sid
/-- A peer in RUN or DEGRADED, as far as this stack can tell (DEDUCED, assumption 23). -/
def peerRuns (s : State) (sid : Nat) : Bool := peerCand s sid && bit s.vote.runs sid
/-- A configured peer is lost (R31): it sent no periodic LEASE record in this cycle or the two before (DESIGN CHOICE,
assumption 23: the spec names no test of a lost peer). -/
def peerLost (s : State) : Bool := (List.range (stackCount s)).any (fun sid => sid != ownSid s && !peerSeen s sid)

/-- A withdrawal is refused when no other live stack is in RUN or DEGRADED (R339). -/
def withdrawOk (s : State) : Bool := [0, 1, 2].any (fun sid => sid != ownSid s && peerRuns s sid)

/-! ## Lease records -/

def leaseRec (holder : Nat) (claim hand : Bool) (target epoch exp : Nat) : RackRec :=
  .lease holder claim hand target epoch (tagOf exp)
/-- This stack's view as a record (R324). -/
def viewRec (s : State) : RackRec := leaseRec (viewHolder s) false false 0 s.vote.viewEpoch s.vote.viewExp

/-- The view of the lease is set. -/
def setView (s : State) (holder epoch exp : Nat) : State :=
  { s with vote := { s.vote with viewEpoch := epoch, viewExp := exp } }.fset VOTE_LEASE_HOLDER 0 holder
def raiseEpoch (s : State) (e : Nat) : State := s.fset VOTE_EPOCH_EPOCH 0 (max (s.fget VOTE_EPOCH_EPOCH) e)

/-- The stack stops holding the lease: its view's expiry is `exp`. -/
def loseLease (s : State) (exp : Nat) : State :=
  (setView s 3 s.vote.viewEpoch exp).fset VOTE_LEASE_HELD 0 0

/-- A claim is confirmed: the stack holds the lease (R327), and announces the plant address on both ports (R85). -/
def gainLease (s : State) (epoch exp : Nat) : State :=
  let s := setView (raiseEpoch s epoch) (ownSid s) epoch exp
  let s := (s.fset VOTE_LEASE_HELD 0 1).satAdd VOTE_LCNT_CLAIMS 0
  { s with vote := { s.vote with ownExp := exp, claim := none, resv := none, gained := s.clk, arp2 := true }
           ethOut := s.ethOut ++ [.gratuitousArp 0 (cfgOf s).plantAddr (portMac 0), .gratuitousArp 1 (cfgOf s).plantAddr (portMac 1)] }

/-- This stack's view of the lease has passed its expiry plus 2 × T. -/
def viewPassed (s : State) : Bool := !holds s && decide (s.vote.viewExp + 2 * cycT s ≤ netTime s)

/-- A handover reserves claims to another stack than `sid` (R329). -/
def reserved (s : State) (sid : Nat) : Bool :=
  match s.vote.resv with
  | some (t, b) => t != sid && decide (netTime s < b + 4 * cycT s)
  | none => false

/-- A claim sent in cycle `c` is not confirmed yet and has not lapsed (R327). -/
def claimOpen (s : State) (c : Nat) : Bool := decide ((cycleNow s + 2 ^ 32 - c) % 2 ^ 32 < 2)

/-- A LEASE record from peer p (R324 to R329). A release is no periodic record, nor is the view with which a peer answers a
claim (R326, R327): of the view records that follow a claim of this stack, one from each peer counts as that answer. -/
def leaseRx (s : State) (p holder : Nat) (claim hand : Bool) (target epoch tag : Nat) : State :=
  let exp := nearTag s tag
  let known := s.fget VOTE_EPOCH_EPOCH
  let answer (s : State) (r : RackRec) := match peerLane s p with | some l => rackOn s l r (cycleNow s) | none => s
  if claim then
    if holder == p then
      if viewPassed s && decide (known < epoch) && s.vote.acked != epoch && !reserved s p then
        let s := setView (raiseEpoch s epoch) p epoch exp
        answer { s with vote.acked := epoch } (leaseRec p true false 0 epoch exp)
      else answer ((raiseEpoch s epoch).satAdd VOTE_LCNT_REFUSED 0) (viewRec s)
    else
      let s := { s with vote.owed := putBit s.vote.owed p false }
      if holder == ownSid s && s.vote.claim.any (fun c => c.1 == epoch && claimOpen s c.2) then
        gainLease s epoch exp
      else raiseEpoch s epoch
  else
    let ends := hand || (holder == p && decide (exp ≤ netTime s)) || (holder != p && bit s.vote.owed p)
    let s := if holder == p then s else { s with vote.owed := putBit s.vote.owed p false }
    let s := raiseEpoch (if ends then s else { s with vote.seen := smSet 0 s.vote.seen p (cycleNow s + 1) }) epoch
    if hand then
      if known ≤ epoch then
        let s := setView s 3 epoch exp
        { s with vote.resv := some (target, exp) }
      else s
    else if holder == p then
      if known ≤ epoch then
        let s := if holds s then loseLease s s.vote.ownExp else s
        let s := if isCand s || inService s then s else { s with vote.rejoin := true }
        let s := setView s p epoch exp
        if isCand s then answer s (viewRec s) else s
      else s
    else if holder == ownSid s && holds s && epoch == s.vote.viewEpoch then
      { s with vote := { s.vote with ownExp := max s.vote.ownExp exp, viewExp := max s.vote.ownExp exp } }
    else s

/-- The lease at a cycle boundary b: release, handover or renewal by the holder, the view record of the other candidates
(R324, R328, R329). -/
def leaseBoundary (s : State) : State :=
  let b := s.tim.bound
  let s := syncCand s
  let e := s.vote.viewEpoch
  if holds s then
    match s.vote.release, s.vote.handTo with
    | true, _ =>
      let s := rackPeers s (leaseRec (ownSid s) false false 0 e b)
      let s := (loseLease s b).satAdd VOTE_LCNT_RELEASES 0
      { s with vote := { s.vote with release := false, handTo := none } }
    | false, some t =>
      let s := rackPeers s (leaseRec (ownSid s) false true t e b)
      let s := (loseLease s b).satAdd VOTE_LCNT_RELEASES 0
      { s with vote := { s.vote with handTo := none, resv := some (t, b) } }
    | false, none =>
      let s := rackLanes s (leaseRec (ownSid s) false false 0 e (b + leaseT s))
      if stackCount s == 1 then { s with vote := { s.vote with ownExp := b + leaseT s, viewExp := b + leaseT s } } else s
  else
    let s := { s with vote := { s.vote with release := false, handTo := none } }
    let s := if s.vote.viewExp ≤ b then s.fset VOTE_LEASE_HOLDER 0 3 else s
    if isCand s then rackPeers s (viewRec s) else s

/-- A handover names this stack, and its window for the claim is open (R329). -/
def handedTo (s : State) : Bool :=
  match s.vote.resv with
  | some (t, b) => t == ownSid s && decide (netTime s < b + 4 * cycT s)
  | none => false

/-- LEASE_CLAIM (R326): at the boundary of the cycle in progress (assumption 51). The target of a handover does not wait for
peers of lower SID in its window, in which only it may claim (R329). -/
def execLeaseClaim (t : Time) (s : State) : Outcome State Fault Refusal :=
  let s := s.at t
  let lower := !handedTo s && (List.range 3).any (fun sid => decide (sid < ownSid s) && peerSeen s sid)
  .next (if !dueAt s s.tim.bound 109227 || !isCand s || holds s || s.vote.claim.isSome || (!viewPassed s && stackCount s != 1) || lower || reserved s (ownSid s)
    then s
  else
    let e := s.fget VOTE_EPOCH_EPOCH + 1
    let exp := s.tim.bound + leaseT s
    if stackCount s == 1 then gainLease s e exp
    else
      let owed := (livePeers s).foldl (fun w p => putBit w p true) 0
      let s := raiseEpoch { s with vote := { s.vote with claim := some (e, cycleNow s), owed } } e
      rackPeers s (leaseRec (ownSid s) true false 0 e exp))

/-- LEASE_CLAIM_LAPSE (R327): two cycles without confirmation. -/
def execLeaseClaimLapse (t : Time) (s : State) : Outcome State Fault Refusal :=
  let s := s.at t
  .next (match s.vote.claim with
  | some (_, c) =>
    if claimOpen s c then s
    else { s with vote.claim := none }.satAdd VOTE_LCNT_REFUSED 0
  | none => s)

/-- LEASE_EXPIRY (R325): network time passes the holder's own expiry. -/
def execLeaseExpiry (t : Time) (s : State) : Outcome State Fault Refusal :=
  let s := s.at t
  .next (if holds s && decide (s.vote.ownExp < netTime s) then
    (loseLease s s.vote.ownExp).satAdd VOTE_LCNT_LAPSES 0
  else s)

/-- The cell witness of R327 at the close of the fill of the claim cycle, in a dual build. -/
def cellWitness (s : State) : State :=
  match s.vote.claim with
  | some (e, c) =>
    let cells := s.grist.onTime
    let gone (i : Nat) := !bit (s.fget VOTE_DVOTE_VOTE i) (1 - ownSid s)
    if stackCount s == 2 && c == cycleNow s && !cells.isEmpty && cells.all gone then
      gainLease s e (s.tim.bound + leaseT s)
    else s
  | none => s

/-- Entry to ENUMERATE: a stack that knows no holder takes it as its view of the expiry (R326). -/
def enterEnumerate (s : State) (cause : Nat) : State :=
  let s := setDev s ST_ENUMERATE cause
  if viewHolder s == 3 then { s with vote.viewExp := netTime s } else s

/-! ## Racking -/

/-- The racked directory entries in ascending index (R332). -/
def rackedEnts (s : State) : List Nat := (s.grist.dir.filter (fun e => dRack e.2)).map Prod.fst
/-- Valid points of an entry. -/
def entPoints (s : State) (e : Nat) : List Nat :=
  (bitList 16 (dValid (dirEnt s e))).map (fun i => 16 * e + i)

/-- A POINTS record holding points, with at most 125 updates in each (R332). -/
def pointUpd (s : State) (k : Nat) : Update :=
  { point := k, subst := bit (slotMeta s k) M_SUBST, lo := recW s k 0, hi := recW s k 1, tag := slotTag s k }

/-- The cycle in which a racked point was written; of one that nothing has written, the present cycle. -/
def wroteCycle (s : State) (k : Nat) : Nat := match smGet 0 s.grist.wroteCyc k with | 0 => cycleNow s | c + 1 => c

/-- The refresh share of cycle N (R332): each point goes out under the cycle in which its value was written. -/
def rackRefresh (s : State) : State :=
  if !holds s || !domOn s 2 then s
  else
    let n := cycleNow s % 64
    let es := (rackedEnts s).zipIdx.filter (fun e => e.2 % 64 == n)
    es.foldl (fun s e =>
      match entPoints s e.1 with
      | [] => s
      | ps =>
        let s := ps.foldl (fun s k => eccRead s 5 (k / 2)) s
        (ps.map (wroteCycle s)).eraseDups.foldl (fun x c =>
          rackPeersOf x c (.points ((ps.filter (fun k => wroteCycle s k == c)).map (pointUpd s)))) s) (es.foldl (fun s e => eccRead s 6 (e.1 / 4)) s)

/-- The words of the state mirror, in list order (R333). -/
def mirrorWords (s : State) : List Nat :=
  ((List.range 64).flatMap (fun i =>
    (List.range (s.fget VOTE_SLIST_COUNT i)).map (fun j => s.fget VOTE_SLIST_FIRST i + j))).take 1024
def mirrorPt (i : Nat) : Nat := 207 * 1024 + i

/-- After its outlet the holder copies the listed state words into owner 207 and racks them (R333). -/
def sendMirror (s : State) : State :=
  if !holds s || !domOn s 2 then s
  else
    let ws := (mirrorWords s).zipIdx
    let s := ws.foldl (fun s (e : Nat × Nat) =>
      if slotValid s (mirrorPt e.2) then ptStore s (mirrorPt e.2) (smGet 0 s.mash.st e.1) (tagOf (netTime s)) false false false
      else s) s
    let us := (ws.filter (fun e => slotValid s (mirrorPt e.2))).map (fun e => pointUpd s (mirrorPt e.2))
    (List.range ((us.length + 124) / 125)).foldl (fun s j => rackPeers s (.points ((us.drop (125 * j)).take 125))) s

/-- A POINTS record from peer p, whose values were written in cycle `cyc` (R332, R333). -/
def pointsRx (s : State) (p cyc : Nat) (l : List Update) : State :=
  if viewHolder s != p || holds s then s.satAdd VOTE_RCNT_LATE 0 l.length
  else if !domOn s 2 then s
  else
    l.foldl (fun s u =>
      let k := u.point
      if !slotValid s k || !dRack (slotEnt s k) then s.satAdd VOTE_RCNT_LATE 0
      else
        let s := ptStore s k (u.lo + u.hi * 2 ^ 32) u.tag false u.subst false W_RACK
        let s := { s with vote.refreshed := smSet 0 s.vote.refreshed k 1, grist.wroteCyc := smSet 0 s.grist.wroteCyc k (cyc + 1) }
        if mirrorPt 0 ≤ k && k < mirrorPt 1024 then
          { s with vote.mirror := smSet 0 s.vote.mirror (k - mirrorPt 0) (cyc + 1) }
        else s) s

/-- STATE_MIRROR_APPLY (R333): at the boundary of cycle N + 1. -/
def mirrorApply (s : State) : State :=
  let ws := (mirrorWords s).zipIdx
  if holds s || viewHolder s == 3 || ws.isEmpty || !domOn s 2 || !domOn s 1 then s
  else
    let n := (cycleNow s + 2 ^ 32 - 1) % 2 ^ 32
    let s := eccSlots s (ws.map (fun e => mirrorPt e.2))
    if ws.all (fun e => smGet 0 s.vote.mirror e.2 == n + 1) then
      let st := ws.foldl (fun m e => smSet 0 m e.1 (slotValue s (mirrorPt e.2))) s.mash.st
      { s with mash.st := st, vote := { s.vote with mirrored := true } }.satAdd VOTE_RCNT_APPLIED 0
    else s.satAdd VOTE_RCNT_LATE 0

/-- Re-racked (R341): one mirror applied, and every racked point refreshed. -/
def syncRacked (s : State) : State :=
  if s.flag VOTE_LEASE_RACKED || !s.vote.rejoin then s
  else
    let all := (rackedEnts s).flatMap (entPoints s)
    if (s.vote.mirrored || (mirrorWords s).isEmpty) && all.all (fun k => smGet 0 s.vote.refreshed k == 1) then
      s.fset VOTE_LEASE_RACKED 0 1
    else s

/-- The stack sends command and cross-check frames (R32, R340, R341). -/
def sendsCmds (s : State) : Bool :=
  isStack s && decide (ST_ENUMERATE ≤ devState s) && decide (devState s ≤ ST_DEGRADED) && !s.vote.billBad
    && (!s.vote.rejoin || (s.flag VOTE_LEASE_RACKED && s.vote.billSeen))

/-! ## Cross-check and self-check -/

/-- Two command frames are equal under VOTE_XMASK (R336). -/
def wordsAgree (s : State) (F : Fld) (a b : List Nat) : Bool :=
  (List.range 64).all (fun w => !bit (s.fget F (w / 32)) (w % 32) || a.getD w 0 == b.getD w 0)

/-- VOTE_MODE of the configuration in force (R335). -/
def voteMode (s : State) : Nat :=
  if !isStack s then 3 else if stackCount s == 1 then 0 else if (cfgCells s).length ≤ 64 then 1 else 2

/-- The XCHK frame of peer p for cell i and apply cycle c, if it has arrived. -/
def xchkFrom (s : State) (p i c : Nat) : Option (List Nat) :=
  match smGet (0, []) s.vote.xchk ((p * 256 + i) * 2 + c % 2) with
  | (c', ws) => if c' == c && !ws.isEmpty then some ws else none

/-- This stack's own frame for cell i and apply cycle c: of the frames sent last or of those before. -/
def ownFrame (s : State) (i c : Nat) : Option (List Nat) :=
  let f (c' : Nat) (m : SMap (List Nat)) : Option (List Nat) :=
    if c' == c && !(smGet [] m i).isEmpty then some (smGet [] m i) else none
  (f s.vote.sentCyc s.vote.sent).or (f s.vote.lastCyc s.vote.last)

/-- The frames of peer p and of this stack for cell i and apply cycle c differ under VOTE_XMASK (R336). -/
def xchkDiffers (s : State) (p i c : Nat) : Bool :=
  match xchkFrom s p i c, ownFrame s i c with
  | some a, some b => !wordsAgree s VOTE_XMASK_MASK a b
  | _, _ => false

/-- The frame of peer p for cell i and apply cycle c is compared (R336): a difference enters this stack's verdict on the cycle,
and counts once for the cell and the cycle. -/
def xchkCompare (p c : Nat) (s : State) (i : Nat) : State :=
  if !xchkDiffers s p i c then s
  else
    let s := if [0, 1, 2].any (fun q => q != p && xchkDiffers s q i c) then s else s.satAdd VOTE_DXCHK_MISMATCH i
    let put (v : Nat × Nat) : Nat × Nat := if v.1 == c + 1 then (v.1, putBit v.2 p true) else v
    { s with vote := { s.vote with own := put s.vote.own, ownOld := put s.vote.ownOld } }

/-- CROSSCHECK_WITHDRAW (R337): the streak counts an apply cycle, `k` minus 1, once this stack's verdict and both peers' on it
meet the rule, whichever comes last. -/
def xchkStreak (s : State) (k : Nat) : State :=
  let dis := if s.vote.own.1 == k then s.vote.own.2 else if s.vote.ownOld.1 == k then s.vote.ownOld.2 else 0
  let peers := [0, 1, 2].filter (· != ownSid s)
  let bad := stackCount s == 3 && k != 0 && peers.all (fun p => bit dis p) && peers.all (fun p =>
    match smGet (0, 0) s.vote.verdict (p * 2 + (k + 1) % 2) with
    | (k', v) => k' == k && peers.all (fun q => !bit v q))
  if !bad || s.vote.streakAt == k then s
  else
    let n := if s.vote.streakAt != 0 && s.vote.streakAt % 2 ^ 32 + 1 == k then min 255 (s.fget VOTE_XSTAT_STREAK + 1) else 1
    let s := { s with vote.streakAt := k }.fset VOTE_XSTAT_STREAK 0 n
    if s.fget VOTE_XCFG_XC_N ≤ n then stackSafe s CA_SELFCHECK else s

/-- An XCHK frame from peer p for cell i (R336): words, and the sender's verdict on the apply cycle before. It is compared at
once, or once this stack has sent its own frame for that apply cycle. -/
def xchkRx (s : State) (p i cyc flags : Nat) (ws : List Nat) : State :=
  let k := (cyc + 2 ^ 32 - 1) % 2 ^ 32 + 1
  let s := { s with vote := { s.vote with
      xchk := smSet (0, []) s.vote.xchk ((p * 256 + i) * 2 + cyc % 2) (cyc, ws)
      verdict := smSet (0, 0) s.vote.verdict (p * 2 + (k + 1) % 2) (k, flags % 8) } }
  xchkStreak (xchkStreak (xchkCompare p cyc s i) (cyc + 1)) k

/-- Before the frames of a new apply cycle go out, the verdict on the last one stands (R336): the frames that have not come by
then are missing (DESIGN CHOICE, assumption 23), and the cycle before that broke the streak unless it was counted (R337). -/
def xchkClose (s : State) : State :=
  if s.vote.sent.isEmpty then s
  else
    let peers := livePeers s
    let s := (cfgCells s).foldl (fun s i =>
      let miss := (peers.filter (fun p => (xchkFrom s p i s.vote.sentCyc).isNone)).length
      if miss == 0 then s else s.satAdd VOTE_DXCHK_MISSING i miss) s
    let s := s.fset VOTE_XSTAT_DIS 0 s.vote.own.2
    if s.vote.streakAt == s.vote.own.1 || (s.vote.streakAt == s.vote.ownOld.1 && s.vote.ownOld.1 % 2 ^ 32 + 1 == s.vote.own.1)
    then s else s.fset VOTE_XSTAT_STREAK 0 0

/-- The frames of a new apply cycle have been built: its verdict begins with the frames that came before them. -/
def xchkOpen (s : State) : State :=
  let c := s.vote.sentCyc
  let s := { s with vote := { s.vote with ownOld := s.vote.own, own := (c + 1, 0) } }
  xchkStreak ((livePeers s).foldl (fun s p => (cfgCells s).foldl (xchkCompare p c) s) s) (c + 1)

/-- The VOTE word that cell i reports (R335, R338, Table 13.5). -/
def voteReport (s : State) (i v : Nat) : State :=
  let own := ownSid s
  let s := s.fset VOTE_DVOTE_VOTE i v
  let s := if !bit v own then s.satAdd VOTE_DDIS_ABSENT i else s
  let s := if bit v (8 + own) then s.satAdd VOTE_DDIS_DISSENT i else s
  if v % 8 == 7 then
    { s with vote := { s.vote with sc3 := s.vote.sc3 + 1, scd := s.vote.scd + b2n (bit v (8 + own)) } }
  else s

/-- SELFCHECK_WINDOW_END (R338): SC_WIN cycles after the window before. -/
def execSelfcheckWindowEnd (t : Time) (s : State) : Outcome State Fault Refusal :=
  let s := s.at t
  let early := match s.vote.scAt with
    | some c => decide ((cycleNow s + 2 ^ 32 - c) % 2 ^ 32 < s.fget VOTE_XCFG_SC_WIN)
    | none => false
  let bad := s.fget VOTE_MODE_MODE == 2 && stackCount s == 3 && s.vote.sc3 != 0
    && decide (s.fget VOTE_XCFG_SC_PCT * s.vote.sc3 ≤ 100 * s.vote.scd)
  let u := { s with vote := { s.vote with sc3 := 0, scd := 0, scAt := some (cycleNow s) } }
  .next (if early then s else if bad then stackSafe u CA_SELFCHECK else u)

/-! ## Registers (R346) -/

/-- A write of a stack-role or a cell-role register, with its own checks. -/
def voteGuard (m : Nat) (stack : Bool) (st : Status) (eff : State → State) (s : State) : Status × State :=
  let st := firstStatus [chk (isStack s != stack) .notInRole, st, chk (inService s) .conflict]
  if st == .ok then (.ok, eff s) else (st, voteErr s m st)

def lcfgEff (m w : Nat) (s : State) : Status × State :=
  let v := w % 2 ^ 14
  voteGuard m true (firstStatus [chk (v == 0) .zeroNotAllowed,
    chk (decide (v * 1000 < 2 * s.fget TIM_CYC_T) || decide (10000 < v)) .range]) (fun s => s.fset VOTE_LCFG_LEASE_T 0 v) s
def xcfgEff (m w : Nat) (s : State) : Status × State :=
  let n := bits w 24 8
  let pct := bits w 16 8
  let win := w % 65536
  voteGuard m true (firstStatus [chk (n == 0 || pct == 0 || win == 0) .zeroNotAllowed,
    chk (decide (100 < pct) || decide (win < 16)) .range])
    (fun s => s.fsets [(VOTE_XCFG_XC_N, 0, n), (VOTE_XCFG_SC_PCT, 0, pct), (VOTE_XCFG_SC_WIN, 0, win)]) s
def xmaskEff (m i w : Nat) (s : State) : Status × State :=
  voteGuard m true .ok (fun s => s.fset VOTE_XMASK_MASK i w) s
def slistEff (m i w : Nat) (s : State) : Status × State :=
  let total := ((List.range 64).map (fun j => if j == i then w % 256 else s.fget VOTE_SLIST_COUNT j)).sum
  voteGuard m true (chk (1024 < total) .range)
    (fun s => s.fsets [(VOTE_SLIST_FIRST, i, bits w 16 15), (VOTE_SLIST_COUNT, i, w)]) s
def ccfgEff (m w : Nat) (s : State) : Status × State :=
  voteGuard m false (chk (4000 < bits w 16 12) .range)
    (fun s => s.fsets [(VOTE_CCFG_SOLO, 0, bits w 31 1), (VOTE_CCFG_WIN, 0, bits w 16 12), (VOTE_CCFG_COAST, 0, w)]) s
def cmaskEff (m i w : Nat) (s : State) : Status × State :=
  voteGuard m false .ok (fun s => s.fset VOTE_CMASK_MASK i w) s

end Sys2Proof.Machine
end

