-- ==== Sys2Proof/Machine/Gate.lean ====
section
/-! DEFINITION. The gate drive unit's commands (Chapter 8). -/

namespace Sys2Proof.Machine

open Host (Outcome)

/-- Record a refusal in GD_ERR (Table 8.4). -/
def gdErr (s : State) (m c : Nat) (st : Status) : State :=
  recErr s GD_ERR_VALID GD_ERR_MULTI
    [(GD_ERR_MASTER, 0, m), (GD_ERR_CHAN, 0, c), (GD_ERR_STATUS, 0, st.code)]

/-- DIDTx rises (R218): by the threshold or by the hard comparator; counted once. -/
def didtRise (s : State) (c : Nat) (hard : Bool) : State :=
  if (gdOf s c).didt then
    if (gdOf s c).didtAt / clkT == s.clk / clkT then s.fset (if hard then GD_EVT_HARDEV else GD_EVT_DIDT) c 1 else s
  else
    let s := gdMod s c (fun x => { x with didt := true, didtAt := s.clk })
    let s := s.fset (if hard then GD_EVT_HARDEV else GD_EVT_DIDT) c 1
    srcAssert (s.satAdd GD_CNT0_DET c) c

/-- DIDTx follows its comparators, the blanking window and DIEN (R217, R218). -/
def didtSync (s : State) (c : Nat) : State :=
  let thr := s.flag GD_CFG_DIEN c && s.flag GD_STAT_DET c && !(gdOf s c).blank
  let hard := s.flag GD_CFG_DIEN c && s.flag GD_STAT_HARD c
  if (gdOf s c).didt then
    if thr || hard then s else srcRelease (gdMod s c (fun x => { x with didt := false })) c
  else
    let s := if thr then didtRise s c false else s
    if hard then didtRise s c true else s

/-- GD_TURN_ON_START (R210, R213): code 01, and the blanking window opens (R217). Waiting commands are served in the order of
their rising edges; two whose edges arrived in one clock and that are eligible together are an interlock event (R214). What
the commands do in one counter clock is judged together, so that a turn-on comes after the clock of its rising edge. -/
def execGdTurnOnStart (t : Time) (c : Chan) (s : State) : Outcome State Fault Refusal :=
  let s := s.at t
  .next (if waitsOff s c && mayTurnOn s c && !partnerFirst s c && clockPassed s c then
    if roseTogether s c && mayTurnOn s (partner c) then interlock s (c / 2)
    else
      let s := gdPhase (s.fset GD_STAT_WAIT c 0) c 1 1
      didtSync (gdMod s c (fun x => { x with blank := s.fget GD_CFG_TBLANK c != 0, blankAt := s.clk })) c
  else s)

/-- GD_TPRE_EXPIRY (R210): from code 01 to code 10 towards on; feedback that already reads 1 ends the slope. -/
def execGdTpreExpiry (t : Time) (c : Chan) (s : State) : Outcome State Fault Refusal :=
  let s := s.at t
  .next (if s.fget GD_STAT_PHASE c == 1 && decide ((gdOf s c).blankAt + s.fget GD_TON_TPRE c * clkT ≤ s.clk) then
    if s.flag GD_STAT_FB c then gdPhase s c 3 3
    else gdPhase (gdMod s c (fun x => { x with slopeAt := s.clk })) c 2 2
  else s)

/-- GD_TWON_TIMEOUT (R210). -/
def execGdTwonTimeout (t : Time) (c : Chan) (s : State) : Outcome State Fault Refusal :=
  let s := s.at t
  .next (if s.fget GD_STAT_PHASE c == 2 && decide ((gdOf s c).slopeAt + s.fget GD_TON_TWON c * clkT ≤ s.clk) then
    (gdPhase (s.fset GD_EVT_WONTO c 1) c 3 3).satAdd GD_CNT1_SLOW c
  else s)

/-- GD_TPDIS_EXPIRY (R211): from code 00 to code 10 towards off, after TPDIS clocks and at least one. -/
def execGdTpdisExpiry (t : Time) (c : Chan) (s : State) : Outcome State Fault Refusal :=
  let s := s.at t
  .next (if s.fget GD_STAT_PHASE c == 4
      && decide ((gdOf s c).offAt + max 1 (s.fget GD_TOFF_TPDIS c) * clkT ≤ s.clk) then gdOffSlope s c else s)

/-- GD_TWOFF_TIMEOUT (R211). -/
def execGdTwoffTimeout (t : Time) (c : Chan) (s : State) : Outcome State Fault Refusal :=
  let s := s.at t
  .next (if s.fget GD_STAT_PHASE c == 5 && decide ((gdOf s c).slopeAt + s.fget GD_TOFF_TWOFF c * clkT ≤ s.clk) then
    gdOffHold ((s.fset GD_EVT_WOFFTO c 1).satAdd GD_CNT1_SLOW c) c
  else s)

/-- The synchronised feedback after FBPOL (R209) ends a slope; a partner's channel that waits for its SAFE2 on code
moves to it (R200). -/
def gdFb (s : State) (c : Nat) (fb : Bool) : State :=
  let s := if s.flag GD_STAT_FB c == fb then s else gdSteady (s.fset GD_STAT_FB c (b2n fb)) c
  let s := gdMod s c (fun x => { x with tfb := x.tfb && fb })
  let ph := s.fget GD_STAT_PHASE c
  if fb then
    if ph == 2 then gdPhase s c 3 3 else s
  else
    let s := if ph == 5 then gdOffHold s c else s
    let s := (List.range 8).foldl (fun s g =>
      if grpLatched s g && s.flag FLT_GSTAT_STEP2 g then grpMove g s (partner c) else s) s
    syncForced s

/-- The feedback of a channel takes the level of its line (R209, R402). -/
def gdLine (s : State) (c : Nat) : State := gdFb s c (bit s.pins.gfb c != s.flag GD_CFG_FBPOL c)

/-- GD_FEEDBACK_CHANGE (R209): a new level of GxFB behind its synchroniser. -/
def execGdFeedbackChange (t : Time) (c : Chan) (level : Bool) (s : State) : Outcome State Fault Refusal :=
  let s := s.at t
  let s := { s with pins.gfb := putBit s.pins.gfb c level }
  .next (if domOn s (instDom .gd c) then gdLine s c else s)

/-- GD_TFBOFF_EXPIRY (R215): feedback has not read 0 within TFBOFF clocks of a turn-off's start. -/
def execGdTfboffExpiry (t : Time) (c : Chan) (s : State) : Outcome State Fault Refusal :=
  let s := s.at t
  .next (if s.flag GD_CFG_EN c && (gdOf s c).tfb
      && (gdOf s c).offAt + s.fget GD_TFB_TFBOFF c * clkT ≤ s.clk then
    let s := gdMod s c (fun x => { x with tfb := false })
    syncGdFb ((s.fset GD_EVT_FBOFF c 1).satAdd GD_CNT1_FBERR c)
  else s)

/-- The feedback disagrees with off hold, with interlock held or with on hold (R215). -/
def disagrees (s : State) (c : Nat) : Bool :=
  let held := heldState (s.fget GD_STAT_PHASE c)
  s.flag GD_CFG_EN c && !bit s.flt.forced c && (if s.flag GD_STAT_FB c then held == 0 else held == 1)

/-- GD_FBMIS (R215): feedback disagrees with off hold, interlock held or on hold for 8 consecutive clocks, once for each
disagreement; not checked while the channel is forced. -/
def execGdFbmis (t : Time) (c : Chan) (s : State) : Outcome State Fault Refusal :=
  let s := s.at t
  .next (if disagrees s c && !(gdOf s c).mism && decide ((gdOf s c).steady + 8 * clkT ≤ s.clk) then
    let s := gdMod s c (fun x => { x with mism := true })
    syncGdFb ((s.fset GD_EVT_FBMIS c 1).satAdd GD_CNT1_FBERR c)
  else s)

/-- GD_THRESHOLD_TRIP (R216, R217): recorded as BLANKED inside the window, asserts DIDTx outside it. -/
def execGdThresholdTrip (t : Time) (c : Chan) (s : State) : Outcome State Fault Refusal :=
  let s := s.at t
  let s := s.fset GD_STAT_DET c 1
  .next (if (gdOf s c).blank then
    let s := if s.flag GD_EVT_BLANKED c then s
      else s.fsets [(GD_EVT_BLANKED, c, 1), (GD_BLKNS_NS, c, nsOf (repTime s (instDom .gd c)))]
    s.satAdd GD_CNT0_BLK c
  else if s.flag GD_CFG_DIEN c then didtRise s c false else s)

/-- GD_HARD_TRIP (R218): never blanked. -/
def execGdHardTrip (t : Time) (c : Chan) (s : State) : Outcome State Fault Refusal :=
  let s := s.at t
  let s := s.fset GD_STAT_HARD c 1
  .next (if s.flag GD_CFG_DIEN c then didtRise s c true else s)

/-- GD_COMPARATOR_RELEASE (R216). -/
def execGdComparatorRelease (t : Time) (c : Chan) (hard : Bool) (s : State) : Outcome State Fault Refusal :=
  let s := s.at t
  .next (didtSync (s.fset (if hard then GD_STAT_HARD else GD_STAT_DET) c 0) c)

/-- GD_BLANKING_END (R217): the mask opens; a threshold comparator still tripped asserts DIDTx at once. -/
def execGdBlankingEnd (t : Time) (c : Chan) (s : State) : Outcome State Fault Refusal :=
  let s := s.at t
  .next (if (gdOf s c).blank && decide ((gdOf s c).blankAt + s.fget GD_CFG_TBLANK c * clkT ≤ s.clk) then
    let s := gdMod s c (fun x => { x with blank := false })
    if s.flag GD_STAT_DET c && s.flag GD_CFG_DIEN c then didtRise s c false else s
  else s)

/-- A write of GD_CFG (R222): the enable check, the turn-off of a disable, and CONFLICT for a change of another field
while EN is 1. -/
def gdCfgEff (m c w : Nat) (s : State) : Status × State :=
  let en := bit w 31
  let was := s.flag GD_CFG_EN c
  let fs := [GD_CFG_DIEN, GD_CFG_FBPOL, GD_CFG_THR, GD_CFG_TBLANK]
  let other := fs.any (fun F => bits w F.lo F.width != s.fget F c)
  let st := if was then chk other .conflict
    else chk (en && (scanHolds s
      || s.fget GD_TFB_TFBOFF c ≤ s.fget GD_TOFF_TPDIS c + s.fget GD_TOFF_TWOFF c)) .conflict
  guarded st s (fun s => gdErr s m c st) (fun s =>
    let s := fs.foldl (fun s F => s.fset F c (bits w F.lo F.width)) s
    let s := didtSync (gdLine s c) c
    if en && !was then
      let s := (gdMod s c (fun x => { x with stopping := false })).fset GD_CFG_EN c 1
      if bit s.flt.forced c || bit s.flt.hold c then gdSteady s c else gdReturn s c
    else if !en && was then
      let s := (s.fset GD_CFG_EN c 0).fset GD_STAT_WAIT c 0
      let ph := s.fget GD_STAT_PHASE c
      if ph == 0 || ph == 6 then ilFree (gdPhase s c 0 0) (partner c)
      else
        let s := gdMod s c (fun x => { x with stopping := true })
        if ph == 4 || ph == 5 then s else gdTurnOff s c
    else s)

/-- GD_ENABLE (R222): a write of GD_CFG of the channel that the master's BLK_CHSEL selects. -/
def execGdEnable (m : Master) (w : Word) (s : State) : Outcome State Fault Refusal :=
  .next (rowWrite s m 0x110100 w false (gdCfgEff m (chsel s .gd m) w.toNat))

/-- A write of GD_TON, GD_TOFF or GD_TFB (R222, Table 8.3): refused with CONFLICT while EN is 1; `zero` fields refuse
a zero. -/
def gdTimeEff (m c : Nat) (fs zero : List Fld) (w : Nat) (s : State) : Status × State :=
  let st := firstStatus [chk (zero.any (fun F => bits w F.lo F.width == 0)) .zeroNotAllowed,
    chk (s.flag GD_CFG_EN c) .conflict]
  guarded st s (fun s => gdErr s m c st) (fun s => fs.foldl (fun s F => s.fset F c (bits w F.lo F.width)) s)

/-- A write of GD_DT of pair p (R222, Table 8.4). -/
def gdDtEff (m p w : Nat) (s : State) : Status × State :=
  let v := w % 2048
  let st := firstStatus [chk (v == 0) .zeroNotAllowed, chk (v < 8 || 1600 < v) .range,
    chk (s.flag GD_CFG_EN (2 * p) || s.flag GD_CFG_EN (2 * p + 1)) .conflict]
  guarded st s (fun s => gdErr s m 31 st) (fun s => s.fset GD_DT_DT p v)

/-- A W1C write of GD_EVT (Table 8.3): FBMIS stays while the mismatch persists, HARDEV while HARD is 1, DIDT while
DIDTx is asserted; BLANKED takes its stamp with it. -/
def gdEvtEff (c w : Nat) (s : State) : Status × State :=
  let mism := (gdOf s c).mism && disagrees s c
  let clr (s : State) (n : Nat) (F : Fld) (keep : Bool) : State := if bit w n && !keep then s.fset F c 0 else s
  let s := clr s 6 GD_EVT_WOFFTO false
  let s := clr s 5 GD_EVT_WONTO false
  let s := clr s 4 GD_EVT_FBMIS mism
  let s := clr s 3 GD_EVT_FBOFF false
  let s := clr s 2 GD_EVT_HARDEV (s.flag GD_STAT_HARD c)
  let s := clr s 1 GD_EVT_DIDT (gdOf s c).didt
  let s := clr s 0 GD_EVT_BLANKED false
  (.ok, syncGdFb (if bit w 0 then s.fset GD_BLKNS_NS c 0 else s))

/-- A write of GD_FBSRC: GD_FB follows. -/
def gdFbsrcEff (w : Nat) (s : State) : Status × State := (.ok, syncGdFb (s.fset GD_FBSRC_EN 0 w))

end Sys2Proof.Machine
end

