-- ==== Sys2Proof/Machine/Pwm.lean ====
section
/-! DEFINITION. Pair generators: staging, release, enable and the work of a reload instant (R184 to R197). -/

namespace Sys2Proof.Machine

open Host (Outcome)

/-- 2.5 ns and 3.75 ns: the crossing into PD7 or PD8 (Table 2.8). -/
def crossPwm (s : State) : Time × State := drawBetween s (2 * clkT) (3 * clkT)

/-- With HR at 0 a pair takes bits [9:0] of a position as 0 (R187). -/
def finePos (s : State) (p v : Nat) : Nat := if s.flag PWM_CFG_HR p then v else v / 1024 * 1024

/-- Table 7.3: the checks of a staged set. -/
def setCheck (align : Bool) (per cmpa cmpb ofs : Nat) : Status :=
  firstStatus [chk (per == 0) .zeroNotAllowed, chk (per == 1) .range,
    chk (1024 * per < cmpa || 1024 * per < cmpb) .range, chk (2048 * per ≤ ofs) .range,
    chk (align && per != 0 && 2000000000 % (5 * per) != 0) .range]

/-- The staging copy of a pair, checked; while the regulator runs, pairs 8 to 11 keep PER and OFS (R224). -/
def stagedCheck (s : State) (p : Nat) (align : Bool) : Status :=
  firstStatus [setCheck align (s.fget PWM_PER_PER p) (s.fget PWM_CMPA_CMP p) (s.fget PWM_CMPB_CMP p) (s.fget PWM_OFS_OFS p),
    chk (8 ≤ p && s.fget SPR_STAT_STATE != 0
      && (s.fget PWM_PER_PER p != s.fget PWM_EPER_PER p || s.fget PWM_OFS_OFS p != s.fget PWM_EOFS_OFS p)) .conflict]

/-- PEND shows a released set that waits. -/
def pwmPend (s : State) (p : Nat) : State := s.fset PWM_STAT_PEND p (b2n (pwmOf s p).rel.isSome)

/-- A set of values becomes effective. -/
def makeEff (s : State) (p per cmpa cmpb ofs : Nat) : State :=
  s.fsets [(PWM_EPER_PER, p, per), (PWM_ECMPA_CMP, p, cmpa), (PWM_ECMPB_CMP, p, cmpb), (PWM_EOFS_OFS, p, ofs)]

/-- A set changes PER or OFS, so that it passes a peak (R193). -/
def gridSet (s : State) (p : Nat) (r : RelSet) : Bool := r.per != s.fget PWM_EPER_PER p || r.ofs != s.fget PWM_EOFS_OFS p

/-- The next reload instant of a running pair that is open to a set (R193). -/
def nextReload (s : State) (p : Nat) (r : RelSet) : Time :=
  let x := pwmOf s p
  if s.flag PWM_CFG_UPD p && !s.flag PWM_STAT_DOWN p && !gridSet s p r then x.nextPeak else x.nextValley

/-- A release (R192, R194): the checked staging copy becomes the released set. It replaces a set that still waits,
unless that set lies within 2 clocks of its reload instant, where it takes effect and the new one follows. `m` is the
master recorded with a refusal. -/
def releaseSet (s : State) (m p : Nat) (at_ : Time) : Status × State :=
  let st := stagedCheck s p (s.flag PWM_CFG_ALIGN p)
  guarded st s (fun s => pwmErr s m p st) (fun s =>
    let r : RelSet := ⟨s.fget PWM_PER_PER p, s.fget PWM_CMPA_CMP p, s.fget PWM_CMPB_CMP p, s.fget PWM_OFS_OFS p, at_, false⟩
    let keep := match (pwmOf s p).rel with
      | some w =>
        let next := nextReload s p w
        (s.flag PWM_STAT_RUN p || (pwmOf s p).waiting) && decide (w.at_ + 2 * clkT ≤ next) && decide (next < at_ + 2 * clkT)
          && decide (s.clk ≤ next)
      | none => false
    pwmPend (pwmMod s p (fun x => if keep then { x with rel2 := some r } else { x with rel := some r, rel2 := none })) p)

/-- The instant at which a release by a master completes: a write by M7 crosses from PD1 (R194). -/
def releaseAt (s : State) (m : Nat) : Time × State :=
  if m == 7 then let (c, s) := crossPwm s; (s.clk + c, s) else (s.clk, s)

/-- A release by a master's write. -/
def masterRelease (s : State) (m p : Nat) : Status × State :=
  let (a, s) := releaseAt s m
  releaseSet s m p a

/-- A cancel (R192): the waiting set is discarded and the staging copy reloaded from the effective values. -/
def cancelSet (s : State) (p : Nat) : State :=
  let s := pwmMod s p (fun x => { x with rel := none, rel2 := none })
  (s.fsets [(PWM_PER_PER, p, s.fget PWM_EPER_PER p), (PWM_CMPA_CMP, p, s.fget PWM_ECMPA_CMP p),
    (PWM_CMPB_CMP, p, s.fget PWM_ECMPB_CMP p), (PWM_OFS_OFS, p, s.fget PWM_EOFS_OFS p), (PWM_STAT_PEND, p, 0)])

/-- A write of PWM_CTL (R192): CANCEL acts before COMMIT. -/
def pwmCtlEff (m p w : Nat) (s : State) : Status × State :=
  let s := if bit w 1 then cancelSet s p else s
  if bit w 0 then masterRelease s m p else (.ok, s)

/-- PWM_COMMIT (R192). -/
def execPwmCommit (m : Master) (w : Word) (s : State) : Outcome State Fault Refusal :=
  .next (rowWrite s m 0x100118 w (bit w.toNat 0) (pwmCtlEff m (chsel s .pwm m) w.toNat))

/-- PWM_CANCEL (R192). -/
def execPwmCancel (m : Master) (w : Word) (s : State) : Outcome State Fault Refusal :=
  .next (rowWrite s m 0x100118 w (bit w.toNat 0) (pwmCtlEff m (chsel s .pwm m) w.toNat))

/-- The pairs named by a mask are served one after another; a pair that is off for the role, retired, unpowered or
in transition is ignored and recorded in PWM_ERR (R192). -/
def pwmMask (m : Nat) (eff : State → Nat → Status × State) : List Nat → State → Status × State
  | [], s => (.ok, s)
  | p :: ps, s =>
    let ist := instStatus s .pwm p
    if ist != .ok then pwmMask m eff ps (pwmErr s m p ist)
    else
      let (a, s) := eff s p
      let (b, s) := pwmMask m eff ps s
      (firstStatus [a, b], s)

/-- A write of PWM_GCOMMIT: pairs 6 to 11 are reached after a PD7 to PD8 crossing (R194). Where a named pair fails Table
7.3 the other pairs are released all the same: the write is judged pair by pair (DESIGN CHOICE, assumption 50: R192 says so
of pairs that are off, retired or in transition only). -/
def gcommitEff (m w : Nat) (s : State) : Status × State :=
  let (a, s) := releaseAt s m
  let (c, s) := crossPwm s
  pwmMask m (fun s p => releaseSet s m p (if p < 6 then a else a + c)) (bitList 12 w) s

/-- A write of PWM_GCANCEL. -/
def gcancelEff (m w : Nat) (s : State) : Status × State :=
  pwmMask m (fun s p => (.ok, cancelSet s p)) (bitList 12 w) s

/-- PWM_GCOMMIT (R192). -/
def execPwmGcommit (m : Master) (w : Word) (s : State) : Outcome State Fault Refusal :=
  .next (rowWrite s m 0x101000 w true (gcommitEff m w.toNat))

/-- PWM_GCANCEL (R192). -/
def execPwmGcancel (m : Master) (w : Word) (s : State) : Outcome State Fault Refusal :=
  .next (rowWrite s m 0x101004 w false (gcancelEff m w.toNat))

/-- The staged field of a pair: PER, CMPA, CMPB, OFS. -/
def stagedFld (reg : Nat) : Fld :=
  match reg with | 0 => PWM_PER_PER | 1 => PWM_CMPA_CMP | 2 => PWM_CMPB_CMP | _ => PWM_OFS_OFS

/-- A write of a staged value of pair p (R192, R197): staged; a write of CMPA under AUTO also releases. While the
regulator supplies the compares a write of them is refused with CONFLICT. Where the release under AUTO is refused, the staging
copy keeps the new CMPA (DESIGN CHOICE, assumption 50: R192 says what a refused release leaves, not what its write does). -/
def stagedEff (m p reg w : Nat) (s : State) : Status × State :=
  let src := s.flag PWM_CFG_SRC p
  let st := chk (src && (reg == 1 || reg == 2)) .conflict
  if st != .ok then (st, pwmErr s m p st)
  else
    let s := s.fset (stagedFld reg) p w
    if reg == 1 && s.flag PWM_CFG_AUTO p then masterRelease s m p else (.ok, s)

/-- A duty write that auto-commit makes a commit event needs the C right (R90). -/
def stagedNeedC (s : State) (p reg : Nat) : Bool := reg == 1 && s.flag PWM_CFG_AUTO p && !s.flag PWM_CFG_SRC p

/-- The address of a staged value: the window, or its alias (Table 7.6). -/
def stagedAddr (reg : Nat) (al : Option Nat) : Nat :=
  match al with
  | some p => if reg == 0 then 0x100104 else 0x101400 + 16 * p + 4 * (reg - 1)
  | none => 0x100104 + 4 * reg

/-- PWM_CMPA_WRITE (R192). -/
def execPwmCmpaWrite (m : Master) (reg : Fin 4) (al : Option Pair) (w : Word) (s : State) : Outcome State Fault Refusal :=
  let p := match al with | some p => if reg.val == 0 then chsel s .pwm m else p.val | none => chsel s .pwm m
  .next (rowWrite s m (stagedAddr reg (al.map Fin.val)) w (stagedNeedC s p reg) (stagedEff m p reg w.toNat))

/-- The fields of PWM_CFG other than EN. -/
def pwmCfgFlds : List Fld :=
  [PWM_CFG_ALIGN, PWM_CFG_HR, PWM_CFG_SRC, PWM_CFG_UPD, PWM_CFG_AUTO, PWM_CFG_INVA, PWM_CFG_INVB, PWM_CFG_DITH,
   PWM_CFG_MINPW]

/-- The period T of the effective PER, in units of 2⁻¹⁶ ns. -/
def pwmPeriod (s : State) (p : Nat) : Nat := 2 * s.fget PWM_EPER_PER p * clkT

/-- The domain of a pair (Table 1.5). -/
def pairDom (p : Nat) : Nat := if p < 6 then 7 else 8

/-- Network time as the pair's replica shows it at an instant near now (R44, R189). -/
def pairTime (s : State) (p : Nat) (at_ : Time) : Nat := ((repTime s (pairDom p) : Int) - s.clk + at_).toNat

/-- The first valley of a pair that is enabled now (R189, R195): with ALIGN the first ideal valley at least 2 counter clocks
ahead on the pair's replica, whose instant on the elapsed clock is as the rate now gives it; else S + OFS·u, with S the first
counter clock after EN is set. -/
def firstValley (s : State) (p : Nat) (x : PwmPair) : PwmPair :=
  let start := (s.clk / clkT + 1) * clkT
  let ofs := finePos s p (s.fget PWM_EOFS_OFS p) * uT
  if s.flag PWM_CFG_ALIGN p then
    let T : Int := (max 1 (pwmPeriod s p) : Nat)
    let from_ : Int := (pairTime s p s.clk + 2 * clkT : Nat)
    let d := 2 * clkT + (((ofs : Int) - from_) % T).toNat
    { x with start, target := pairTime s p s.clk + d
             nextValley := s.clk + ((d : Int) * 256000000000 / (256000000000 + s.tim.rate)).toNat }
  else { x with start, nextValley := start + ofs }

/-- A write of PWM_CFG (R188, R195, R197). -/
def pwmCfgEff (m p w : Nat) (s : State) : Status × State :=
  let en := bit w 31
  let was := s.flag PWM_CFG_EN p
  let stopping := (pwmOf s p).stop
  let other := pwmCfgFlds.any (fun F => bits w F.lo F.width != s.fget F p)
  let dith := bits w 16 5
  let st := firstStatus [
    chk (!(dith == 0 || dith == 2 || dith == 4 || dith == 8 || dith == 16)) .range,
    chk (bit w 28 && p < 8) .range,
    chk ((was || stopping) && other) .conflict, chk (en && !was && scanHolds s) .conflict,
    if en && !was then stagedCheck s p (bit w 30) else .ok]
  if st != .ok then (st, pwmErr s m p st)
  else
    let s := pwmCfgFlds.foldl (fun s F => s.fset F p (bits w F.lo F.width)) s
    let s := s.fset PWM_CFG_EN p (b2n en)
    if en && !was then
      if stopping then masterRelease (pwmMod s p (fun x => { x with stop := false })) m p
      else
        let s := makeEff s p (s.fget PWM_PER_PER p) (s.fget PWM_CMPA_CMP p) (s.fget PWM_CMPB_CMP p) (s.fget PWM_OFS_OFS p)
        (.ok, pwmPend (pwmMod s p (fun _ => firstValley s p { waiting := true })) p)
    else if !en && was then (.ok, pwmMod s p (fun x => { x with stop := true }))
    else (.ok, s)

/-- PWM_ENABLE (R195). -/
def execPwmEnable (m : Master) (w : Word) (s : State) : Outcome State Fault Refusal :=
  .next (rowWrite s m 0x100100 w false (pwmCfgEff m (chsel s .pwm m) w.toNat))

/-- PWM_DISABLE (R195). -/
def execPwmDisable (m : Master) (w : Word) (s : State) : Outcome State Fault Refusal :=
  .next (rowWrite s m 0x100100 w false (pwmCfgEff m (chsel s .pwm m) w.toNat))

/-- A write of PWM_PHSTEP. -/
def phstepEff (m p w : Nat) (s : State) : Status × State :=
  let st := chk (w % 4096 == 0) .zeroNotAllowed
  guarded st s (fun s => pwmErr s m p st) (fun s => s.fset PWM_PHSTEP_STEP p w)

/-! ## Reload instants -/

/-- A released set that is complete but misses this reload instant, open to it, is LATE (R194). -/
def lateMark (s : State) (p : Nat) (peak : Bool) : State :=
  match (pwmOf s p).rel with
  | none => s
  | some r =>
    let grid := r.per != s.fget PWM_EPER_PER p || r.ofs != s.fget PWM_EOFS_OFS p
    if s.clk < r.at_ || r.missed || (peak && grid) then s
    else
      let s := (s.fset PWM_STAT_LATE p 1).satAdd PWM_CNT_LATE p
      pwmMod s p (fun x => { x with rel := some { r with missed := true } })

/-- The set that waits at a reload instant `clk` takes effect there, or misses it under the 2-clock rule (R194).
At a peak a set that changes PER or OFS waits for the valley (R193). Answers whether PER or OFS changed. -/
def reload (s : State) (p : Nat) (peak : Bool) : Bool × State :=
  match (pwmOf s p).rel with
  | none => (false, s)
  | some r =>
    let grid := r.per != s.fget PWM_EPER_PER p || r.ofs != s.fget PWM_EOFS_OFS p
    if peak && grid then (false, s)
    else if r.at_ + 2 * clkT ≤ s.clk then
      let s := makeEff s p r.per r.cmpa r.cmpb r.ofs
      let s := s.fset PWM_STAT_LATE p (b2n r.missed)
      (grid, lateMark (pwmPend (pwmMod s p (fun x => { x with rel := x.rel2, rel2 := none })) p) p peak)
    else (false, lateMark s p peak)

/-- The phase error e at a valley V (R190), for a set with this PER and OFS: the next ideal valley of R189 minus the valley
that the counter would reach unchanged, reduced into [−T/2, T/2). With ALIGN the ideal valleys stand on the replica, else on
the pair's own clock. -/
def phaseErrorOf (s : State) (p per ofs : Nat) (V : Time) : Int :=
  let T := 2 * per * clkT
  let ofs := finePos s p ofs * uT
  let e : Int := if s.flag PWM_CFG_ALIGN p then ((ofs : Int) - (pairTime s p V : Nat)) % (T : Int)
    else (((pwmOf s p).start + ofs : Nat) - (V : Int)) % (T : Int)
  if (T : Int) ≤ 2 * e then e - T else e
/-- The phase error of the effective set. -/
def phaseError (s : State) (p : Nat) (V : Time) : Int := phaseErrorOf s p (s.fget PWM_EPER_PER p) (s.fget PWM_EOFS_OFS p) V

/-- The whole periods from the origin to the ideal valley next to V (R188). -/
def periodIndex (s : State) (p : Nat) (V : Time) : Nat :=
  let at_ : Int := if s.flag PWM_CFG_ALIGN p then (pairTime s p V : Nat) else (V : Int) - ((pwmOf s p).start : Nat)
  ((at_ + phaseError s p V) / (max 1 (pwmPeriod s p) : Nat)).toNat

/-- The correction of R190 at the valley V, and its registers. -/
def phaseCorrect (s : State) (p : Nat) (V : Time) (whole : Bool) : State :=
  let e := phaseError s p V
  let lim : Int := (s.fget PWM_PHSTEP_STEP p * tapT : Nat)
  let applied := if whole || e.natAbs ≤ lim.toNat then e else if e < 0 then -lim else lim
  let near := e.natAbs ≤ tapT
  let T := pwmPeriod s p
  let index := periodIndex s p V
  let s := s.fsets [(PWM_STAT_LOCK, p, b2n near),
    (PWM_STAT_SLEW, p, if near then 0 else if applied != e then 1 else s.fget PWM_STAT_SLEW p),
    (PWM_PERR_E, p, ofSigned 32 (Int.tdiv e (uT : Nat))), (PWM_STAT_DOWN, p, 0)]
  pwmMod s p (fun x => { x with
    valley := V, corr := applied, index
    nextValley := ((V + T : Nat) + applied).toNat
    nextPeak := ((V + T / 2 : Nat) + applied).toNat })

/-- The channels of a pair that wait for its valley return to the gate drive unit (R202). -/
def releaseHeld (s : State) (p : Nat) : State :=
  let s := if bit s.flt.hold (2 * p) then gdReturn s (2 * p) else s
  if bit s.flt.hold (2 * p + 1) then gdReturn s (2 * p + 1) else s

/-- A pair's counter stops (R195): outputs off, waiting sets discarded. -/
def pwmHalt (s : State) (p : Nat) : State :=
  let s := gdCommand (gdCommand s (2 * p) false) (2 * p + 1) false
  let s := s.fsets [(PWM_STAT_RUN, p, 0), (PWM_STAT_DOWN, p, 0), (PWM_STAT_PEND, p, 0)]
  releaseHeld (pwmMod s p (fun _ => {})) p

/-! ## Edges (R185 to R188) -/

/-- The further tap that dithering gives the edge with ideal instant X (R188): bitrev(j) < f. -/
def ditherTap (s : State) (p : Nat) (X : Nat) : Nat :=
  let n := s.fget PWM_CFG_DITH p
  let m := Nat.log2 n
  let j := (pwmOf s p).index % max 1 n
  let rev := (List.range m).foldl (fun r i => r + bits j i 1 * 2 ^ (m - 1 - i)) 0
  if n != 0 && decide (rev < X / uT % 16 / 2 ^ (4 - m)) then 1 else 0

/-- Where the pair places an edge of ideal instant X (R187): on a tap after the counter clock at or before X, with its
dither tap; without HR on that clock. -/
def placeEdge (s : State) (p : Nat) (X : Time) : Time :=
  if s.flag PWM_CFG_HR p then (X / tapT + ditherTap s p X) * tapT else X / clkT * clkT

/-- The effective compare of an output. -/
def cmpOf (s : State) (p : Nat) (outB : Bool) : Nat :=
  finePos s p (s.fget (if outB then PWM_ECMPB_CMP else PWM_ECMPA_CMP) p)

/-- The ideal instants of the edges on the way up and on the way down of the present period (R185, R190): they follow the
counter, which starts late after a hold and further up after a skip. -/
def upEdge (s : State) (p : Nat) (outB : Bool) : Time :=
  let x := pwmOf s p
  max x.valley (((x.valley + cmpOf s p outB * uT : Nat) : Int) + x.corr).toNat
def downEdge (s : State) (p : Nat) (outB : Bool) : Time :=
  let x := pwmOf s p
  (((x.valley + (2048 * s.fget PWM_EPER_PER p - cmpOf s p outB) * uT : Nat) : Int) + x.corr).toNat

/-- The released set that takes effect at the next peak or valley, by what has been released by now (R186, R193, R194). -/
def closingSet (s : State) (p : Nat) (peak : Bool) : Option RelSet :=
  let x := pwmOf s p
  x.rel.filter (fun r => (!peak || (s.flag PWM_CFG_UPD p && !gridSet s p r)) && decide (r.at_ ≤ s.clk)
    && decide (r.at_ + 2 * clkT ≤ (if peak then x.nextPeak else x.nextValley)))

/-- The compare value that governs the closing edge of an interval that spans the peak or the valley: that of a set that
has been released, and takes effect there (R186). -/
def closingCmp (s : State) (p : Nat) (outB peak : Bool) (cur : Nat) : Nat :=
  match closingSet s p peak with
  | some r => finePos s p (if outB then r.cmpb else r.cmpa)
  | none => cur

/-- The correction, in u, that a waiting set which changes PER or OFS brings at the next valley: the whole of e (R190). -/
def closingHold (s : State) (p : Nat) : Int :=
  match closingSet s p false with
  | some r => if gridSet s p r then Int.tdiv (phaseErrorOf s p r.per r.ofs (pwmOf s p).nextValley) (uT : Nat) else 0
  | none => 0

/-- The edge that the output has reached last in the present period: its placed instant, the level from it on, and the
length in u of the interval that it opens, none where no edge closes it in this period or the next. At the valley the
level is that of the period's start. -/
def lastEdge (s : State) (p : Nat) (outB : Bool) : Time × Bool × Option Nat :=
  let x := pwmOf s p
  let full := 1024 * s.fget PWM_EPER_PER p
  let inv := s.flag (if outB then PWM_CFG_INVB else PWM_CFG_INVA) p
  let cmp := cmpOf s p outB
  let up := placeEdge s p (upEdge s p outB)
  let dn := placeEdge s p (downEdge s p outB)
  if dn ≤ s.clk && cmp != full then
    let next := closingCmp s p outB false cmp
    let top := match closingSet s p false with | some r => 1024 * r.per | none => full
    (dn, inv, if next == top then none else some (cmp + (max 0 ((next : Int) + closingHold s p)).toNat))
  else if dn ≤ s.clk && s.flag PWM_STAT_DOWN p then (dn, inv, none)
  else if up ≤ s.clk && cmp != full then (up, !inv, some (full - cmp + (full - closingCmp s p outB true cmp)))
  else (x.valley, inv, if cmp == full then none else some cmp)

/-- The command of an output at its edges (R185, R186): an interval that would be shorter than MINPW is dropped or filled at
its opening edge, and a closing edge waits until its interval has lasted MINPW. A valley inside a dropped or filled interval is
no edge; the interval ends with its closing edge. -/
def pwmEdge (s : State) (p : Nat) (outB : Bool) : State :=
  let x := pwmOf s p
  let c := 2 * p + b2n outB
  let (at_, on, len) := lastEdge s p outB
  let min := s.fget PWM_CFG_MINPW p
  let opened := if outB then x.openB else x.openA
  let due := if opened == 0 then at_ else max at_ (opened + min * clkT)
  let judged := if outB then x.judgedB else x.judgedA
  let drops := match len with | some l => decide (l < min * 1024) | none => false
  let inv := s.flag (if outB then PWM_CFG_INVB else PWM_CFG_INVA) p
  let spanned := at_ == x.valley && on == inv && (if outB then x.dropB else x.dropA)
  if !s.flag PWM_STAT_RUN p || judged == at_ + 1 || len == some 0 || spanned then s
  else if (gdOf s c).cmd == on then
    pwmMod s p (fun x => if outB then { x with dropB := false } else { x with dropA := false })
  else if s.clk < due || due + (if s.flag PWM_CFG_HR p then tapT else clkT) ≤ s.clk then s
  else
    let s := pwmMod s p (fun x => if outB then { x with judgedB := at_ + 1, dropB := drops }
      else { x with judgedA := at_ + 1, dropA := drops })
    let s := if drops || decide (at_ < due) then s.satAdd PWM_CNT_DROP p else s
    if drops then s
    else gdCommand (pwmMod s p (fun x => if outB then { x with openB := s.clk } else { x with openA := s.clk })) c on

/-- Both outputs at an instant of the counter. -/
def pwmEdges (s : State) (p : Nat) : State := pwmEdge (pwmEdge s p false) p true

/-- PWM_COMPARE_MATCH (R185, R186): an edge of the command of output A or B, in the tap of its placed instant. -/
def execPwmCompareMatch (t : Time) (p : Pair) (outB : Bool) (s : State) : Outcome State Fault Refusal :=
  .next (pwmEdge (s.at t) p outB)

/-! ## Valleys and peaks -/

/-- An instant of the counter is now, within one counter clock. -/
def inClk (s : State) (at_ : Time) : Bool := decide (at_ ≤ s.clk) && decide (s.clk < at_ + clkT)

/-- The first valley of a waiting pair, when it lies in this clock: with ALIGN it is the target on the pair's replica
(R195). -/
def firstIn (s : State) (p : Nat) (x : PwmPair) : Option Time :=
  if s.flag PWM_CFG_ALIGN p then
    let r := pairTime s p s.clk
    if x.target ≤ r && r < x.target + clkT then some (s.clk - (r - x.target)) else none
  else if inClk s x.nextValley then some x.nextValley else none

/-- PWM_COUNTER_START (R193, R195): the first valley of an enabled pair, which is a reload instant; a stop that is pending
takes effect instead. -/
def execPwmCounterStart (t : Time) (p : Pair) (s : State) : Outcome State Fault Refusal :=
  let s := s.at t
  let x := pwmOf s p
  match firstIn s p x with
  | none => .next s
  | some V =>
    .next (if !x.waiting then s
    else if x.stop then pwmHalt s p
    else
      let s := pwmMod s p (fun x => { x with waiting := false, nextValley := V })
      let (_, s) := reload (s.fset PWM_STAT_RUN p 1) p false
      pwmEdges (releaseHeld (phaseCorrect s p V true) p) p)

/-- The work of a valley of a running pair, but for its events (R190, R193, R195, R202). -/
def valleyWork (s : State) (p : Nat) : State :=
  let V := (pwmOf s p).nextValley
  if (pwmOf s p).stop then pwmHalt s p
  else
    let (grid, s) := reload s p false
    pwmEdges (releaseHeld (phaseCorrect s p V grid) p) p

/-- The work of a peak of a running pair, but for its events (R193). -/
def peakWork (s : State) (p : Nat) : State :=
  let s := s.fset PWM_STAT_DOWN p 1
  pwmEdges (if s.flag PWM_CFG_UPD p then (reload s p true).2 else s) p

/-- A release by the string port regulator (R197), refused into PWM_ERR with MASTER 0xF. A pair whose SRC is 0 takes its
compares from its registers. -/
def sprRelease (s : State) (p cmpa cmpb : Nat) : State :=
  if !s.flag PWM_CFG_SRC p then s
  else
  let (a, s) := crossPwm s
  (releaseSet (s.fsets [(PWM_CMPA_CMP, p, cmpa), (PWM_CMPB_CMP, p, cmpb)]) 15 p (s.clk + a)).2

end Sys2Proof.Machine
end

