-- ==== Sys2Proof/Machine/Spr.lean ====
section
/-! DEFINITION. The battery-string port regulator (Chapter 9). -/

namespace Sys2Proof.Machine

open Host (Outcome)

/-! ## Arithmetic -/

def sAdd (a b : Nat) : Nat := (f32add a b).getD (Config.sprArith 0 a b)
def sSub (a b : Nat) : Nat := (f32sub a b).getD (Config.sprArith 1 a b)
def sMul (a b : Nat) : Nat := (f32mul a b).getD (Config.sprArith 2 a b)
def sDiv (a b : Nat) : Nat := (f32div a b).getD (Config.sprArith 3 a b)
def sOf (q : Q) : Nat := (f32r q).getD (Config.sprArith 4 q.n.natAbs q.d)
def s64 (q : Q) : Nat := (f64r q).getD (Config.sprArith 5 q.n.natAbs q.d)
def sNat (n : Nat) : Nat := f32ofInt n

/-! ## Names -/

def sprMod (s : State) (f : SprSt → SprSt) : State := { s with spr := f s.spr }
def sprState (s : State) : Nat := s.fget SPR_STAT_STATE
def S_OFF : Nat := 0
def S_MEASURE : Nat := 1
def S_STEEP : Nat := 2
def S_RUN : Nat := 3
def S_SKIP : Nat := 4
def S_STOP : Nat := 5
def S_TRIP : Nat := 6

/-- Record a refusal in SPR_ERR. -/
def sprErr (s : State) (m : Nat) (st : Status) : State :=
  recErr s SPR_ERR_VALID SPR_ERR_MULTI [(SPR_ERR_MASTER, 0, m), (SPR_ERR_STATUS, 0, st.code)]
def sprGuard (s : State) (m : Nat) (st : Status) (eff : State → State) : Status × State :=
  if st == .ok then (.ok, eff s) else (st, sprErr s m st)

/-- An effective parameter. -/
def prm (s : State) (F : Fld) (i : Nat := 0) : Nat := s.eget F i
def fitted (s : State) : List Nat := bitList 4 (s.fget SPR_CFG_PHEN)
def failedMask (s : State) : Nat := s.fget SPR_PHFAIL_OPEN ||| s.fget SPR_PHFAIL_SENSE
/-- Fitted phases that are not marked failed. -/
def goodPhases (s : State) : List Nat := (fitted s).filter (fun k => !bit (failedMask s) k)
def activePhases (s : State) : List Nat := bitList 4 (s.fget SPR_STAT_ACTIVE)
def qv (s : State) (i : Nat) : Nat := s.spr.q.getD i 0
def vLink (s : State) : Nat := qv s 0
def vBat (s : State) : Nat := qv s 1

/-- The loop period T_L in seconds (R226). -/
def loopT (s : State) : Q := ⟨s.fget PWM_EPER_PER 8 * 10, 4 * max 1 (s.fget SPR_CFG_TPP) * 1000000000⟩

/-- Phase k's offset against pair 8 in quarters of the carrier period (R225, R227). -/
def phaseLag (s : State) (k : Nat) : Nat :=
  let per := s.fget PWM_EPER_PER 8
  if per == 0 then 0 else (s.fget PWM_EOFS_OFS (8 + k) + 2048 * per - s.fget PWM_EOFS_OFS 8) % (2048 * per) / (512 * per)

/-- Phase k executes at a tick at place `pos` of the carrier period: at its valley, and with TPP 2 or 4 at its peak
(R227). -/
def executes (s : State) (k pos : Nat) : Bool :=
  let r := (pos + 4 - phaseLag s k) % 4
  r == 0 || (s.fget SPR_CFG_TPP != 1 && r == 2)

/-! ## Parameters (R231, R245) -/

/-- The staged parameters with the ends of their ranges (Table 9.8). -/
def sprParams : List (Fld × Nat × Nat × Nat) :=
  [(SPR_VREF_VREF, 0, 0x41200000, 0x44fa0000), (SPR_IPHMAX_IPH_MAX, 0, 0x3dcccccd, 0x43fa0000),
   (SPR_IPHTRIP_IPH_TRIP, 0, 0x3dcccccd, 0x447a0000), (SPR_VLINKOV_VLINK_OV, 0, 0x41200000, 0x451c4000),
   (SPR_VBATMIN_VBAT_MIN, 0, 0x3f800000, 0x44fa0000), (SPR_VBATMAX_VBAT_MAX, 0, 0x3f800000, 0x44fa0000),
   (SPR_KV_KV, 0, 0x3a83126f, 0x4cbebc20), (SPR_FZ_FZ, 0, 0x3f800000, 0x49742400), (SPR_FZ_FZ, 1, 0x3f800000, 0x49742400),
   (SPR_FP_FP, 0, 0x3f800000, 0x7f7fffff), (SPR_FP_FP, 1, 0x3f800000, 0x7f7fffff),
   (SPR_KP_KP, 0, 0, 0x41200000), (SPR_KI_KI, 0, 0, 0x4b189680), (SPR_DMIN_DMIN, 0, 0, 0x3f800000),
   (SPR_DMAX_DMAX, 0, 0, 0x3f800000), (SPR_LPH_LPH, 0, 0x33d6bf95, 0x3dcccccd), (SPR_RPH_RPH, 0, 0, 0x41200000),
   (SPR_OPENDI_OPEN_DI, 0, 0x3c23d70a, 0x447a0000), (SPR_OPENMIN_OPEN_MIN, 0, 0, 0x447a0000),
   (SPR_SSRATE_SS_RATE, 0, 0x3dcccccd, 0x461c4000), (SPR_SSILIM_SS_ILIM, 0, 0x3dcccccd, 0x7f7fffff),
   (SPR_SSBAND_SS_BAND, 0, 0x3c23d70a, 0x42c80000), (SPR_SHEDLO_SHED_LO, 0, 0, 0x3f800000),
   (SPR_SHEDHI_SHED_HI, 0, 0, 0x3f800000), (SPR_STEPI_STEP_I, 0, 0x3dcccccd, 0x447a0000),
   (SPR_SKIPIN_SKIP_IN, 0, 0, 0x7f7fffff), (SPR_SKIPOUT_SKIP_OUT, 0, 0, 0x7f7fffff),
   (SPR_SKIPBAND_SKIP_BAND, 0, 0x3c23d70a, 0x42c80000)]

/-- Both registers of the input scaling, quantities 0 to 5. -/
def sprScales : List (Fld × Nat) := (List.range 6).flatMap (fun i => [(SPR_GAIN_GAIN, i), (SPR_OFF_OFFSET, i)])

/-- The ranges (RANGE) and relations (CONFLICT) of the staged parameters (R245). -/
def paramCheck (s : State) : Status :=
  let v (F : Fld) := s.fget F 0
  let tl := loopT s
  let poleBad (i : Nat) := decide (0 < tl.n) && (Q.ofNat 1).le (((f32v (s.fget SPR_FP_FP i)).mul tl).mul (Q.ofNat 2))
  firstStatus [
    chk (sprParams.any (fun (F, i, lo, hi) => !(f32le lo (s.fget F i) && f32le (s.fget F i) hi))) .range,
    chk ((List.range 6).any (fun i => !f32fin (s.fget SPR_GAIN_GAIN i) || (f32v (s.fget SPR_GAIN_GAIN i)).isZero
      || !f32fin (s.fget SPR_OFF_OFFSET i))) .range,
    chk (poleBad 0 || poleBad 1) .range,
    chk (f32lt (v SPR_IPHMAX_IPH_MAX) (v SPR_SSILIM_SS_ILIM) || f32lt (v SPR_IPHMAX_IPH_MAX) (v SPR_SKIPIN_SKIP_IN)
      || f32lt (v SPR_IPHMAX_IPH_MAX) (v SPR_SKIPOUT_SKIP_OUT)) .range,
    chk (!f32lt (v SPR_VBATMAX_VBAT_MAX) (v SPR_VREF_VREF) || !f32lt (v SPR_IPHMAX_IPH_MAX) (v SPR_IPHTRIP_IPH_TRIP)
      || !f32lt (v SPR_VREF_VREF) (v SPR_VLINKOV_VLINK_OV) || !f32lt (v SPR_VBATMIN_VBAT_MIN) (v SPR_VBATMAX_VBAT_MAX)
      || !f32lt (v SPR_DMIN_DMIN) (v SPR_DMAX_DMAX) || !f32lt (v SPR_SHEDLO_SHED_LO) (v SPR_SHEDHI_SHED_HI)
      || (!(f32v (v SPR_SKIPIN_SKIP_IN)).isZero && !f32lt (v SPR_SKIPIN_SKIP_IN) (v SPR_SKIPOUT_SKIP_OUT))) .conflict]

/-- C_v by the bilinear transform at T_L: b0 to b3 and a1 to a3 (R229). -/
def typeIII (kv fz1 fz2 fp1 fp2 tl : Q) : List Nat :=
  let k := (Q.ofNat 2).div tl |>.getD (Q.ofNat 0)
  let ang (f : Q) := (k.div ((f.mul (Q.ofNat 2)).mul qPi)).getD (Q.ofNat 0)
  let p (f : Q) := (Q.add (Q.ofNat 1) (ang f), Q.sub (Q.ofNat 1) (ang f))
  -- polynomials in the unit delay, constant term first
  let mulP (a b : List Q) : List Q :=
    (List.range (a.length + b.length - 1)).map (fun i =>
      (List.range a.length).foldl (fun acc j =>
        if j ≤ i && i - j < b.length then acc.add ((a.getD j (Q.ofNat 0)).mul (b.getD (i - j) (Q.ofNat 0))) else acc)
        (Q.ofNat 0))
  let lin (f : Q) := [(p f).1, (p f).2]
  let num := (mulP (mulP (lin fz1) (lin fz2)) [Q.ofNat 1, Q.ofNat 1]).map (kv.mul)
  let den := mulP (mulP (lin fp1) (lin fp2)) [k, k.neg]
  let d0 := den.getD 0 (Q.ofNat 1)
  let nrm (q : Q) := sOf ((q.div d0).getD (Q.ofNat 0))
  (num.map nrm) ++ ((den.drop 1).map nrm)

/-- Every staged field of the regulator, with its instance. -/
def sprStaged : List (Fld × Nat) := sprParams.map (fun e => (e.1, e.2.1)) ++ sprScales

/-- A commit of the staged parameters: the set is taken as it stands, and its coefficients are to be computed. -/
def takeParams (s : State) : State :=
  let vals := sprStaged.foldl
    (fun (m : SMap Nat) (e : Fld × Nat) => smSet 0 m (e.1.key e.2) (s.fget e.1 e.2 + 1)) []
  let f (F : Fld) (i : Nat) := f32v (s.fget F i)
  let coef := typeIII (f SPR_KV_KV 0) (f SPR_FZ_FZ 0) (f SPR_FZ_FZ 1) (f SPR_FP_FP 0) (f SPR_FP_FP 1) (loopT s)
  (sprMod s (fun x => { x with wait := some { vals, coef } })).fsets [(SPR_STAT_CPEND, 0, 1), (SPR_STAT_CLATE, 0, 0)]

/-- The waiting set becomes effective. -/
def applyParams (s : State) (w : SprSet) : State :=
  let s := sprStaged.foldl
    (fun (s : State) (e : Fld × Nat) =>
      match smGet 0 w.vals (e.1.key e.2) with | 0 => s | v + 1 => s.eset e.1 e.2 v) s
  (sprMod s (fun x => { x with wait := none, coef := w.coef })).fset SPR_STAT_CPEND 0 0

/-- SPR_COEFF_COMPUTED (R231). -/
def execSprCoeffComputed (t : Time) (s : State) : Outcome State Fault Refusal :=
  let s := s.at t
  .next (sprMod s (fun x => { x with wait := x.wait.map (fun w =>
    if w.ready.isNone then { w with ready := some s.clk } else w) }))

/-! ## Outputs -/

/-- Release the off set to phase k (R230), whose pair takes its compares from the regulator (R197). -/
def offSet (s : State) (k : Nat) : State :=
  if s.flag PWM_CFG_SRC (8 + k) then sprRelease s (8 + k) (1024 * s.fget PWM_EPER_PER (8 + k)) 0 else s
def offAll (s : State) : State := (List.range 4).foldl offSet s

/-- SPR_PLIM and its event (R243). -/
def syncPlim (s : State) : State :=
  let n := (goodPhases s).length
  let on := sprState s == S_RUN || sprState s == S_SKIP
  let p := if on then sMul (sMul (vBat s) (sNat n)) (prm s SPR_IPHMAX_IPH_MAX) else 0
  let drop := p == 0 && s.fget SPR_PLIM_P != 0
  let s := if n < s.spr.nOk || drop then s.fset SPR_EVT_PLIM 0 1 else s
  (sprMod s (fun x => { x with nOk := n })).fset SPR_PLIM_P 0 p

def putActive (s : State) (k : Nat) (b : Bool) : State :=
  s.fset SPR_STAT_ACTIVE 0 (putBit (s.fget SPR_STAT_ACTIVE) k b)

/-- SPR_STAT.SHEDDING follows the shed windows. -/
def syncShed (s : State) : State :=
  s.fset SPR_STAT_SHEDDING 0 (s.spr.shed.foldl (fun w e => putBit w e.1 true) 0)

/-- A phase leaves the active set; the off set is released to it. -/
def phaseOut (s : State) (k : Nat) : State :=
  let s := sprMod s (fun x => { x with shed := smErase x.shed k, openAt := smErase x.openAt k })
  let s := s.fset SPR_STAT_SUBST 0 (putBit (s.fget SPR_STAT_SUBST) k false)
  offSet (syncShed (putActive s k false)) k

/-- The regulator goes to OFF. Conversions sampled while it was not OFF had its pulls (R239, R260): the span and the pulls
of its ticks are kept for them. -/
def sprOff (s : State) : State :=
  let s := (offAll s).fsets [(SPR_STAT_STATE, 0, S_OFF), (SPR_STAT_TRIPC, 0, 0), (SPR_STAT_ACTIVE, 0, 0),
    (SPR_STAT_SHEDDING, 0, 0), (SPR_STAT_SUBST, 0, 0), (SPR_STAT_ILIM, 0, 0), (SPR_STAT_HOLDOFF, 0, 0)]
  let owned := (sprInputs s, s.spr.startAt, s.clk) :: s.spr.owned.filter (fun e => s.clk < e.2.2 + 20 * usT)
  syncPlim (sprMod s (fun x => { wait := x.wait, coef := x.coef, pffQ := x.pffQ, pff := x.pff, nOk := x.nOk,
                                 tested := x.tested, startAt := x.startAt, owned,
                                 ticks := x.ticks.map (fun e => { e with no := 0 }) }))

/-- SPR_TRIP: the off set to every pair, TRIP with its cause, the fault source (R235). -/
def sprTrip (s : State) (cause : Nat) : State :=
  if sprState s == S_OFF || sprState s == S_TRIP then s
  else
    let s := (offAll s).fsets [(SPR_STAT_STATE, 0, S_TRIP), (SPR_STAT_TRIPC, 0, cause), (SPR_EVT_TRIP, 0, 1),
      (SPR_STAT_ACTIVE, 0, 0), (SPR_STAT_SHEDDING, 0, 0), (SPR_STAT_SUBST, 0, 0), (SPR_STAT_ILIM, 0, 0),
      (SPR_STAT_HOLDOFF, 0, 0)]
    let s := sprMod s (fun x => { x with shed := [], openAt := [], tested := x.tested.set 0 0 |>.set 1 0 })
    syncPlim (srcAssert s SRC_SPR_FAULT)

/-! ## Commands -/

/-- The checks of Table 9.1. -/
def startCheck (s : State) : Status :=
  let fit := fitted s
  let tpp := s.fget SPR_CFG_TPP
  let per := s.fget PWM_EPER_PER 8
  let pairs := 8 :: fit.map (8 + ·)
  let lacks (p : Nat) := !(s.flag PWM_CFG_EN p && s.flag PWM_CFG_HR p && s.flag PWM_CFG_ALIGN p && s.flag PWM_CFG_SRC p)
  let order := (List.range 4).map (fun i => bits (s.fget SPR_CFG_ORDER) (2 * i) 2)
  let convs := sprInputs s
  firstStatus [
    chk (fit == [] || tpp == 0 || s.fget SPR_CFG_PHMIN == 0) .zeroNotAllowed,
    chk (decide (400 * tpp > per)) .range, paramCheck s,
    chk (pairs.any lacks) .conflict,
    chk (pairs.any (fun p => s.flag PWM_CFG_INVA p || !s.flag PWM_CFG_INVB p)) .conflict,
    chk (pairs.any (fun p => s.fget PWM_EPER_PER p != per)) .conflict,
    chk (tpp != 1 && pairs.any (fun p => !s.flag PWM_CFG_UPD p)) .conflict,
    chk (tpp == 4 && per % 2 == 1) .conflict,
    chk (per != 0 && tpp != 0 && fit.any (fun k =>
      (s.fget PWM_EOFS_OFS (8 + k) + 2048 * per - s.fget PWM_EOFS_OFS 8) % (2048 * per / tpp) != 0)) .conflict,
    chk (fit.length < s.fget SPR_CFG_PHMIN) .conflict,
    chk (!(List.range 4).all order.contains) .conflict,
    chk ((List.range 6).any (fun i => (List.range i).any (fun j => convs.getD i 0 == convs.getD j 0))) .conflict]

/-- STOP (R234). -/
def sprStop (s : State) : State :=
  if sprState s == S_MEASURE then sprOff s
  else syncPlim ((sprMod s (fun x => { x with stopAt := x.tick, low := [], itot := 0 })).fsets
    [(SPR_STAT_STATE, 0, S_STOP), (SPR_ITOT_I, 0, 0), (SPR_STAT_ILIM, 0, 0)])

/-- START carried out: MEASURE begins with every output at the off set (R225). -/
def sprStart (s : State) : State :=
  offAll ((sprMod s (fun x => { x with startAt := s.clk, issued := 0 })).fset SPR_STAT_STATE 0 S_MEASURE)

/-- The staged parameters can be committed (R231). -/
def commitCheck (s : State) : Status := firstStatus [paramCheck s, chk (s.flag SPR_STAT_CPEND) .busy]

/-- A write of SPR_CTL: STOP, START and COMMIT (R225, R231, R234), judged as a whole (R8). START in OFF commits the
staged parameters first, so that they stay committed where a check of Table 9.1 then fails; START in any other state is
refused with CONFLICT before any of those checks. -/
def sprCtlEff (m w : Nat) (s : State) : Status × State :=
  let st := sprState s
  let off := st == S_OFF
  let stopSt := chk (bit w 1 && (off || st == S_STOP || st == S_TRIP)) .conflict
  let begins := bit w 0 && off
  let takes := (bit w 2 || begins) && commitCheck s == .ok && stopSt == .ok && (!(bit w 0) || off)
  let st := firstStatus [stopSt, chk (bit w 0 && !off) .conflict, if bit w 2 || begins then commitCheck s else .ok,
    if begins then startCheck s else .ok]
  let s := if takes && (begins || st == .ok) then takeParams s else s
  sprGuard s m st (fun s => if begins then sprStart s else if bit w 1 then sprStop s else s)

/-- START and COMMIT need C (Table 9.7). -/
def sprCtlNeedC (w : Nat) : Bool := bit w 0 || bit w 2

/-- SPR_START (R225). -/
def execSprStart (m : Master) (w : Word) (s : State) : Outcome State Fault Refusal :=
  .next (rowWrite s m 0x120020 w (sprCtlNeedC w.toNat) (sprCtlEff m w.toNat))

/-- SPR_STOP (R234). -/
def execSprStop (m : Master) (w : Word) (s : State) : Outcome State Fault Refusal :=
  .next (rowWrite s m 0x120020 w (sprCtlNeedC w.toNat) (sprCtlEff m w.toNat))

/-- SPR_COMMIT (R231). -/
def execSprCommit (m : Master) (w : Word) (s : State) : Outcome State Fault Refusal :=
  .next (rowWrite s m 0x120020 w (sprCtlNeedC w.toNat) (sprCtlEff m w.toNat))

/-- SPR_SSTMO (R233): RUN is not reached within SSTMO of START. -/
def execSprSstmo (t : Time) (s : State) : Outcome State Fault Refusal :=
  let s := s.at t
  .next (if (sprState s == S_MEASURE || sprState s == S_STEEP)
      && s.spr.startAt + s.fget SPR_TIME_SSTMO * msT ≤ s.clk then sprTrip s 7 else s)

/-! ## The tick -/

/-- The number of the next tick that pair 8 issues, and its place in the carrier period. -/
def nextNo (s : State) : Nat := s.spr.issued + 1
def nextPos (s : State) : Nat :=
  let last := match s.spr.ticks.getLast? with | some e => e.pos | none => s.spr.pos
  (last + 4 / max 1 (s.fget SPR_CFG_TPP)) % 4

/-- Begin the wanted tests with the conversion at the next tick (R239, R241): a phase current waits, with TPP 4, for a tick
at which its phase does not execute. An input under test is not tested twice at once. -/
def nextTest (s : State) : State :=
  let may (q : Nat) : Bool := q < 2 || s.fget SPR_CFG_TPP != 4 || !executes s (q - 2) (nextPos s)
  let new := (s.spr.want.filter may).filter (fun q => !s.spr.tests.any (fun x => x.q == q))
  sprMod s (fun x => { x with tests := x.tests ++ new.map (fun q => { q, tick := nextNo s }),
                              want := x.want.filter (fun q => !may q) })

/-- The rotation: every DIV ticks the next of the six inputs is wanted (R239). -/
def rotate (s : State) : State :=
  let div := s.fget SPR_SENSE_DIV
  if div == 0 then s
  else if s.spr.rotCnt + 1 < div then sprMod s (fun x => { x with rotCnt := x.rotCnt + 1 })
  else sprMod s (fun x => { x with rotCnt := 0, rot := (x.rot + 1) % 6,
                                   want := if x.want.contains x.rot then x.want else x.want ++ [x.rot] })

/-- The duty preset of a phase: d equals clamp(V_bat/V_link, DMIN, DMAX) with e at 0 (R233). -/
def presetState (s : State) : Nat :=
  let r := sDiv (vBat s) (vLink s)
  let d := f32clamp r (prm s SPR_DMIN_DMIN) (prm s SPR_DMAX_DMAX)
  s64 ((f32v d).sub (f32v r))

/-- Entry to STEEP at the tick after the measurement (R233). -/
def enterSteep (s : State) : State :=
  let good := goodPhases s
  let i0 := presetState s
  let s := sprMod s (fun x => { x with
    vref := (x.q.getD 0 0), x := [0, 0, 0], settle := 0, acc := []
    ist := good.foldl (fun m k => smSet 0 m k i0) [] })
  s.fsets [(SPR_STAT_STATE, 0, S_STEEP), (SPR_STAT_ACTIVE, 0, good.foldl (fun w k => w + 2 ^ k) 0)]

/-- A computed set becomes effective at the first tick that arrives 5 ns after it was ready; one that missed the tick that
followed is marked (R231). -/
def paramsDue (s : State) : State :=
  match s.spr.wait with
  | some w => match w.ready with
    | some r =>
      if r + 5 * nsT ≤ s.clk then applyParams s w
      else if w.missed then s
      else ((sprMod s (fun x => { x with wait := some { w with missed := true } })).fset SPR_STAT_CLATE 0 1).satAdd
        SPR_CNT0_CLATE 0
    | none => s
  | none => s

/-- So does a power feed-forward whose write completed 5 ns before (R232). -/
def pffDue (s : State) : State :=
  match (s.spr.pffQ.filter (fun e => e.2 + 5 * nsT ≤ s.clk)).getLast? with
  | some e => sprMod s (fun x => { x with pff := e.1, pffQ := x.pffQ.filter (fun e => s.clk < e.2 + 5 * nsT) })
  | none => s

/-- The first tick at a stage, and the tick moved on. -/
def tickAtStage (s : State) (k : Nat) : Option SprTick := s.spr.ticks.find? (fun e => e.stage == k)
def moveTick (k : Nat) : List SprTick → List SprTick
  | [] => []
  | e :: l => if e.stage == k then { e with stage := k + 1 } :: l else e :: moveTick k l

/-- SPR_TICK (R226): the oldest tick on its way arrives in PD9, 5.0 to 7.5 ns after pair 8 issued it; `pos` is its place in
the carrier period. -/
def execSprTick (t : Time) (pos : Fin 4) (s : State) : Outcome State Fault Refusal :=
  let s := s.at t
  .next (match tickAtStage s 0 with
  | some e =>
    if e.pos != pos.val || decide (s.clk < e.sent + 5 * nsT) || !domOn s 9 then s
    else pffDue (paramsDue (sprMod s (fun x => { x with ticks := moveTick 0 x.ticks })))
  | none => s)

/-! ## Measurements -/

/-- The result of quantity i that has arrived and belongs to a tick: its tag lies within one counter clock of it (R228). -/
def resultFor (s : State) (at_ i : Nat) : Option Nat :=
  (s.spr.inbox.find? (fun r => r.q == i && tagMatches r.tag at_ && decide (r.arrive ≤ s.clk))).map SprIn.code

/-- Quantity i is disturbed by a test in progress at this tick. -/
def disturbed (s : State) (i : Nat) : Bool :=
  s.spr.tests.any (fun x => x.q == i && (x.tick == s.spr.tick || x.tick + s.fget SPR_CFG_TPP == s.spr.tick))

/-- Take the tick's six results: a missing one keeps its previous value and is counted (R228). -/
def takeResults (s : State) : State :=
  (List.range 6).foldl (fun s i =>
    match resultFor s s.spr.tickAt i with
    | some c =>
      let v := sAdd (sMul (sNat c) (prm s SPR_GAIN_GAIN i)) (prm s SPR_OFF_OFFSET i)
      sprMod s (fun x => { x with codes := x.codes.set i c, miss := x.miss.set i 0,
                                  q := if disturbed s i then x.q else x.q.set i v })
    | none => sprMod (s.satAdd SPR_CNT0_MISS 0) (fun x => { x with miss := x.miss.set i (x.miss.getD i 0 + 1) })) s

/-- A phase's sense fails; its model runs on from its last good reading (R242). -/
def senseFail (s : State) (k : Nat) : State :=
  if bit (s.fget SPR_PHFAIL_SENSE) k || !(fitted s).contains k then s
  else
    let s := s.fsets [(SPR_PHFAIL_SENSE, 0, putBit (s.fget SPR_PHFAIL_SENSE) k true), (SPR_EVT_SENSEF, 0, 1),
      (SPR_STAT_SUBST, 0, putBit (s.fget SPR_STAT_SUBST) k (bit (s.fget SPR_STAT_ACTIVE) k))]
    let s := if (smGet (0, false) s.spr.shed k).1 != 0 then phaseOut s k else s
    let s := s.fset SPR_PHHAT_IHAT k (smGet (s.fget SPR_PHHAT_IHAT k) s.spr.good k)
    sprMod s (fun x => { x with senseAt := smSet 0 x.senseAt k (x.tick + 1), openAt := smErase x.openAt k,
                                tested := x.tested.set (k + 2) 2 })

/-- The readings of a test (R239): the pull-up at its tick, the pull-down one carrier period later. A failed test of a
voltage is a trip cause of this tick (Table 9.4), one of a phase current a failed sense, which R241 judges later while
the open-phase condition holds. -/
def runTest (s : State) (x : SprTest) : State :=
  let c := s.spr.codes.getD x.q 0
  let put (s : State) (l : List SprTest) : State := sprMod s (fun y => { y with tests := y.tests ++ l })
  if x.tick == s.spr.tick then put s [{ x with up := some c }]
  else if x.tick + s.fget SPR_CFG_TPP ≤ s.spr.tick then
    let fail := decide (c + s.fget SPR_SENSEDV_DV < x.up.getD c)
    let s := sprMod s (fun y => { y with tested := y.tested.set x.q (if fail then 2 else 1) })
    let s := if fail then s.satAdd SPR_CNT2_TESTFAIL 0 else s
    if x.q < 2 then s
    else
      let k := x.q - 2
      if smGet 0 s.spr.openAt k != 0 then
        sprMod s (fun y => { y with openTest := smSet 0 y.openTest k (if fail then 2 else 1) })
      else if fail then senseFail s k else s
  else put s [x]

/-- Every test in progress takes its readings. -/
def runTests (s : State) : State := s.spr.tests.foldl runTest (sprMod s (fun y => { y with tests := [] }))

/-! ## Phase currents -/

/-- Phase k's model current after the interval that ends now, from the current `i0` at its start (R241). -/
def carryOn (s : State) (k i0 : Nat) : Nat :=
  let i := f32v i0
  let n := s.spr.tick + 1 - smGet (s.spr.tick + 1) s.spr.last k
  let dt := (loopT s).mul (Q.ofNat n)
  let v := ((f32v (smGet 0 s.spr.dIn k)).mul (f32v (vLink s))).sub (f32v (vBat s)) |>.sub ((f32v (prm s SPR_RPH_RPH)).mul i)
  match (dt.mul v).div (f32v (prm s SPR_LPH_LPH)) with
  | some q => sOf (i.add q)
  | none => Config.sprArith 6 0 0

/-- The prediction of phase k's current (R241). -/
def predict (s : State) (k : Nat) : Nat := carryOn s k (s.fget SPR_PHHAT_IHAT k)

/-- The open-phase condition (R241). -/
def openCond (s : State) (k pred : Nat) : Bool :=
  let i := qv s (2 + k)
  sprState s == S_RUN && !bit (s.fget SPR_STAT_SHEDDING) k && !bit (s.fget SPR_PHFAIL_SENSE) k
    && f32le (prm s SPR_OPENMIN_OPEN_MIN) (f32abs pred) && f32lt (f32abs i) (f32abs pred)
    && f32lt (prm s SPR_OPENDI_OPEN_DI) (f32abs (sSub i pred))

/-- Judge phase k at an execution under R241: a first hold asks for a test out of rotation. A test that failed while the
condition held is a failed sense also when the condition has gone (R239). -/
def openWatch (s : State) (k pred : Nat) : State :=
  if openCond s k pred then
    if smGet 0 s.spr.openAt k != 0 then s
    else sprMod s (fun x => { x with openAt := smSet 0 x.openAt k (x.tick + 1), openTest := smErase x.openTest k,
                                     tests := x.tests.filter (fun y => y.q != k + 2),
                                     want := (k + 2) :: x.want.filter (· != k + 2) })
  else
    let lost := smGet 0 s.spr.openAt k != 0 && smGet 0 s.spr.openTest k == 2
    let s := sprMod s (fun x => { x with openAt := smErase x.openAt k, openTest := smErase x.openTest k })
    if lost then senseFail s k else s

/-- The judgement at the eighth tick after the first hold (R241). -/
def openJudge (s : State) (k : Nat) : State :=
  let a := smGet 0 s.spr.openAt k
  if a == 0 || s.spr.tick < a + 7 then s
  else
    let s := sprMod s (fun x => { x with openAt := smErase x.openAt k })
    if smGet 0 s.spr.openTest k == 2 then senseFail s k
    else if smGet 0 s.spr.openTest k == 1 then
      phaseOut (s.fsets [(SPR_PHFAIL_OPEN, 0, putBit (s.fget SPR_PHFAIL_OPEN) k true), (SPR_EVT_OPEN, 0, 1)]) k
    else s

/-- The current that phase k uses at an execution: measured, or the model's while its sense has failed (R242). -/
def phaseI (s : State) (k : Nat) : Nat := if bit (s.fget SPR_STAT_SUBST) k then predict s k else qv s (2 + k)

/-- Phase k takes its current (R241, R242). The model restarts from a measured current; beside it, the model current since
the last reading that did not raise the open-phase condition is carried on. -/
def useCurrent (s : State) (k : Nat) : State :=
  let pred := predict s k
  let i := phaseI s k
  let good := if openCond s k pred then carryOn s k (smGet (s.fget SPR_PHHAT_IHAT k) s.spr.good k) else i
  let s := openWatch s k pred
  (sprMod s (fun x => { x with good := smInsert k good (smErase x.good k) })).fsets [(SPR_PHI_I, k, i), (SPR_PHHAT_IHAT, k, i)]

/-- A phase whose sense fails as it executes takes the model's current in place of the reading (R242). -/
def substNow (s : State) (k : Nat) : State :=
  if bit (s.fget SPR_STAT_SUBST) k then s.fset SPR_PHI_I k (s.fget SPR_PHHAT_IHAT k) else s

/-! ## Trips -/

/-- The lowest-coded trip cause that the readings show, and the currents of the phases that execute (Table 9.4). -/
def tripCause (s : State) (ran : List Nat) : Option Nat :=
  if f32lt (prm s SPR_VLINKOV_VLINK_OV) (vLink s) then some 1
  else if f32lt (vBat s) (prm s SPR_VBATMIN_VBAT_MIN) || f32lt (prm s SPR_VBATMAX_VBAT_MAX) (vBat s) then some 2
  else if ran.any (fun k => f32lt (prm s SPR_IPHTRIP_IPH_TRIP) (f32abs (s.fget SPR_PHI_I k))) then some 3
  else if (goodPhases s).isEmpty then some 4
  else if 4 ≤ s.spr.miss.getD 0 0 || s.spr.tested.getD 0 0 == 2 then some 5
  else if 4 ≤ s.spr.miss.getD 1 0 || s.spr.tested.getD 1 0 == 2 then some 6
  else none

/-- A live cause keeps SPR_EVT.TRIP from being cleared (R235). -/
def tripLive (s : State) : Bool :=
  f32lt (prm s SPR_VLINKOV_VLINK_OV) (vLink s)
    || f32lt (vBat s) (prm s SPR_VBATMIN_VBAT_MIN) || f32lt (prm s SPR_VBATMAX_VBAT_MAX) (vBat s)
    || (s.fget SPR_STAT_TRIPC == 4 && failedMask s != 0)
    || s.spr.tested.getD 0 0 == 2 || s.spr.tested.getD 1 0 == 2

/-- A W1C write of SPR_EVT (R235). -/
def sprEvtEff (w : Nat) (s : State) : Status × State :=
  let clr (s : State) (n : Nat) (F : Fld) := if bit w n then s.fset F 0 0 else s
  let s := clr (clr (clr (clr (clr (clr (clr s 7 SPR_EVT_PLIM) 6 SPR_EVT_OPEN) 5 SPR_EVT_SENSEF) 4 SPR_EVT_SHED) 3
    SPR_EVT_ABORT) 2 SPR_EVT_ADD) 0 SPR_EVT_SSDONE
  (.ok, if bit w 1 && s.flag SPR_EVT_TRIP && !tripLive s then
    srcRelease (sprOff (s.fset SPR_EVT_TRIP 0 0)) SRC_SPR_FAULT else s)

/-- SPR_TRIP_CLEAR (R235). -/
def execSprTripClear (m : Master) (w : Word) (s : State) : Outcome State Fault Refusal :=
  .next (rowWrite s m 0x12002c w false (sprEvtEff w.toNat))

/-- A W1C write of SPR_PHFAIL (R242): a SENSE bit clears only once a test of its input has passed. -/
def phfailEff (w : Nat) (s : State) : Status × State :=
  let s := s.fset SPR_PHFAIL_OPEN 0 ((bitList 4 w).foldl (fun v k => putBit v k false) (s.fget SPR_PHFAIL_OPEN))
  let ok := (bitList 4 (w / 16)).filter (fun k => s.spr.tested.getD (k + 2) 0 == 1 || !bit (s.fget SPR_PHFAIL_SENSE) k)
  let s := s.fset SPR_PHFAIL_SENSE 0 (ok.foldl (fun v k => putBit v k false) (s.fget SPR_PHFAIL_SENSE))
  let s := sprMod s (fun x => { x with senseAt := ok.foldl smErase x.senseAt,
                                       shed := ok.foldl (fun m k => if (smGet (0, false) m k).2 then smErase m k else m) x.shed })
  (.ok, syncPlim ((syncShed s).fset SPR_STAT_SUBST 0 (ok.foldl (fun v k => putBit v k false) (s.fget SPR_STAT_SUBST))))

/-- SPR_PHFAIL_CLEAR (R242). -/
def execSprPhfailClear (m : Master) (w : Word) (s : State) : Outcome State Fault Refusal :=
  .next (rowWrite s m 0x120028 w false (phfailEff w.toNat))

/-! ## The loops -/

/-- V_ref at this tick (R229, R233). -/
def stepVref (s : State) : State :=
  if sprState s != S_STEEP then s
  else
    let tgt := prm s SPR_VREF_VREF
    let dv := ((f32v (prm s SPR_SSRATE_SS_RATE)).mul (Q.ofNat 1000)).mul (loopT s)
    let v := f32v s.spr.vref
    let aim := f32v tgt
    let nxt := if v.lt aim then (if aim.le (v.add dv) then tgt else sOf (v.add dv))
      else if aim.lt v then (if (v.sub dv).le aim then tgt else sOf (v.sub dv)) else tgt
    sprMod s (fun x => { x with vref := nxt })

/-- e_v (R229). -/
def errV (s : State) : Nat :=
  sSub (vLink s) (if sprState s == S_STEEP then s.spr.vref else prm s SPR_VREF_VREF)

/-- i_lim (R229). -/
def iLim (s : State) : Nat :=
  if sprState s == S_STEEP then prm s SPR_SSILIM_SS_ILIM
  else sMul (sNat (goodPhases s).length) (prm s SPR_IPHMAX_IPH_MAX)

/-- The voltage loop: the compensator in direct form II transposed and the total reference (R229). In SKIP the compensator
is held, and its output with it, while the feed-forward goes on (R236); in STOP all of it is held (R234). -/
def voltageLoop (s : State) : State :=
  let st := sprState s
  let iff := if st == S_STEEP then 0 else sDiv s.spr.pff (f32max (vBat s) (prm s SPR_VBATMIN_VBAT_MIN))
  let s := sprMod s (fun x => { x with iff })
  if st == S_STEEP || st == S_RUN then
    let e := errV s
    let c (i : Nat) := f32v (s.spr.coef.getD i 0)
    let x (i : Nat) := f64v (s.spr.x.getD i 0)
    let y := sOf (((c 0).mul (f32v e)).add (x 0))
    let upd (i : Nat) (tail : Q) := s64 ((((c (i + 1)).mul (f32v e)).sub ((c (i + 4)).mul (f32v y))).add tail)
    let lim := iLim s
    let raw := sAdd iff y
    let tot := f32clamp raw (f32neg lim) lim
    let clamped := f32lt lim raw || f32lt raw (f32neg lim)
    let further := (f32lt lim raw && f32lt 0 e) || (f32lt raw (f32neg lim) && f32lt e 0)
    let s := if clamped && further then s else sprMod s (fun z => { z with x := [upd 0 (x 1), upd 1 (x 2), upd 2 (Q.ofNat 0)] })
    (sprMod s (fun z => { z with itot := tot, cv := y })).fsets [(SPR_STAT_ILIM, 0, b2n clamped), (SPR_ITOT_I, 0, tot)]
  else if st == S_SKIP then
    let lim := iLim s
    let raw := sAdd iff s.spr.cv
    let tot := f32clamp raw (f32neg lim) lim
    (sprMod s (fun z => { z with itot := tot })).fsets
      [(SPR_STAT_ILIM, 0, b2n (f32lt lim raw || f32lt raw (f32neg lim))), (SPR_ITOT_I, 0, tot)]
  else s

/-- The weight of an active phase (R237); an added one takes weight 1 at its next execution. -/
def weight (s : State) (k : Nat) : Q :=
  if !bit (s.fget SPR_STAT_ACTIVE) k || bit s.spr.joining k then Q.ofNat 0
  else match (smGet (0, false) s.spr.shed k).1 with
    | 0 => Q.ofNat 1
    | t + 1 => let win := s.fget SPR_SHEDCFG_WIN; ⟨((win - (s.spr.tick - t) : Nat) : Int), max 1 win⟩

/-- The present reference of phase k (R230, R236). -/
def phaseRef (s : State) (k : Nat) : Nat :=
  let lim := prm s SPR_IPHMAX_IPH_MAX
  if sprState s == S_STOP then 0
  else if sprState s == S_SKIP then
    let a := sDiv (prm s SPR_SKIPOUT_SKIP_OUT) (sNat (max 1 (s.fget SPR_CFG_PHMIN)))
    if f32lt (errV s) 0 then f32neg a else a
  else
    let sum := (activePhases s).foldl (fun a j => a.add (weight s j)) (Q.ofNat 0)
    match ((f32v s.spr.itot).mul (weight s k)).div sum with
    | some r => f32clamp (sOf r) (f32neg lim) lim
    | none => 0

/-- The duty now in force on a pair, from its effective compare (R241). -/
def dutyInForce (s : State) (k : Nat) : Nat :=
  let per := 1024 * s.fget PWM_EPER_PER (8 + k)
  if per == 0 then 0 else sOf ⟨(per : Int) - s.fget PWM_ECMPA_CMP (8 + k), per⟩

/-- The current loop of phase k executes (R230, R236). -/
def currentLoop (s : State) (k : Nat) : State :=
  let skip := sprState s == S_SKIP
  let fresh := bit s.spr.preset k
  let s := if fresh then sprMod s (fun x => { x with ist := smSet 0 x.ist k (presetState s), preset := putBit x.preset k false })
    else s
  let ref := phaseRef s k
  let e := sSub ref (s.fget SPR_PHI_I k)
  let ist := smGet 0 s.spr.ist k
  let raw := sAdd (sAdd (sDiv (vBat s) (vLink s)) (sMul (prm s SPR_KP_KP) e)) ((f32ofF64 ist).getD 0)
  let d := f32clamp raw (prm s SPR_DMIN_DMIN) (prm s SPR_DMAX_DMAX)
  let push := (f32lt (prm s SPR_DMAX_DMAX) raw && f32lt 0 e) || (f32lt raw (prm s SPR_DMIN_DMIN) && f32lt e 0)
  let n := s.spr.tick + 1 - smGet (s.spr.tick + 1 - s.fget SPR_CFG_TPP) s.spr.last k
  let ts := (loopT s).mul (Q.ofNat n)
  let ist' := if push || skip then ist else s64 ((f64v ist).add ((ts.mul (f32v (prm s SPR_KI_KI))).mul (f32v e)))
  let per := 1024 * s.fget PWM_EPER_PER (8 + k)
  let cmp := (((Q.ofNat 1).sub (f32v d)).mul (Q.ofNat per)).round.toNat
  let s := sprMod s (fun x => { x with ist := smSet 0 x.ist k ist', last := smSet 0 x.last k (x.tick + 1),
                                       dIn := smSet 0 x.dIn k (dutyInForce s k) })
  let s := s.fsets [(SPR_PHREF_IREF, k, ref), (SPR_PHD_D, k, d)]
  if skip && f32le (f32abs (errV s)) (prm s SPR_SKIPBAND_SKIP_BAND) then offSet s k else sprRelease s (8 + k) cmp cmp

/-! ## Adding and shedding -/

/-- The sum of the currents of the active phases. -/
def sumI (s : State) : Q := (activePhases s).foldl (fun a k => a.add (f32v (s.fget SPR_PHI_I k))) (Q.ofNat 0)

/-- The add condition for N active phases (R237). -/
def addCond (s : State) : Bool :=
  let n := (activePhases s).length
  n < (goodPhases s).length &&
    ((f32v (prm s SPR_SHEDHI_SHED_HI)).mul (f32v (prm s SPR_IPHMAX_IPH_MAX)) |>.mul (Q.ofNat n)).le (f32v s.spr.itot).abs
/-- The shed condition, for N active phases, failed ones that still run on their models among them (R237). Phases that are
not failed are not shed below PHMIN (R242). -/
def shedCond (s : State) : Bool :=
  let n := (activePhases s).length
  let stay := (activePhases s).filter (fun k => !bit (failedMask s) k)
  s.fget SPR_CFG_PHMIN < n && s.fget SPR_CFG_PHMIN < stay.length && !(f32v (prm s SPR_SHEDLO_SHED_LO)).isZero &&
    (f32v s.spr.itot).abs.le
      ((f32v (prm s SPR_SHEDLO_SHED_LO)).mul (f32v (prm s SPR_IPHMAX_IPH_MAX)) |>.mul (Q.ofNat (n - 1)))

/-- ORDER, first shed first. -/
def shedOrder (s : State) : List Nat := (List.range 4).map (fun i => bits (s.fget SPR_CFG_ORDER) (2 * i) 2)

/-- A phase joins the active set, to start with a preset integrator and to take weight 1 at its next execution (R237). -/
def phaseIn (s : State) (k : Nat) : State :=
  (sprMod (putActive s k true) (fun x => { x with
    preset := putBit x.preset k true, joining := putBit x.joining k true, last := smErase x.last k,
    good := smErase x.good k })).fset SPR_EVT_ADD 0 1

/-- Failed phases at this tick: forced sheds begin at tick 64 − WIN and end by tick 64 (R242). -/
def forcedSheds (s : State) : State :=
  (List.range 4).foldl (fun s k =>
    match smGet 0 s.spr.senseAt k with
    | 0 => s
    | a + 1 =>
      let n := s.spr.tick - a
      if !bit (s.fget SPR_STAT_ACTIVE) k then s
      else if 64 ≤ n then
        phaseOut s k
      else if 64 - s.fget SPR_SHEDCFG_WIN ≤ n && (smGet (0, false) s.spr.shed k).1 == 0 then
        syncShed (sprMod s (fun x => { x with shed := smSet (0, false) x.shed k (x.tick + 1, true) }))
      else s) s

/-- A shed that ends at this tick, and an aborted one that takes its weight again (R237, R238). -/
def endSheds (s : State) : State :=
  let s := (bitList 4 s.spr.abort).foldl (fun s k => sprMod s (fun x => { x with shed := smErase x.shed k })) s
  let s := sprMod s (fun x => { x with abort := 0 })
  (List.range 4).foldl (fun s k =>
    match smGet (0, false) s.spr.shed k with
    | (t + 1, false) =>
      if t + s.fget SPR_SHEDCFG_WIN ≤ s.spr.tick then (phaseOut s k).fset SPR_EVT_SHED 0 1 else s
    | _ => s) (syncShed s)

/-- A shed in progress is aborted (R238); `failed` when another phase was declared failed at this tick. -/
def abortSheds (s : State) (failed : Bool) : State :=
  let open_ := (List.range 4).filter (fun k => match smGet (0, false) s.spr.shed k with | (_ + 1, false) => true | _ => false)
  let far := (f32v (prm s SPR_STEPI_STEP_I)).lt ((f32v s.spr.itot).sub (sumI s)).abs
  if open_.isEmpty || !(far || addCond s || failed) then s
  else
    let s := (s.satAdd SPR_CNT1_ABORT 0).fset SPR_EVT_ABORT 0 1
    let hold := s.fget SPR_SHEDCFG_HOLD
    (sprMod s (fun x => { x with abort := open_.foldl (fun w k => putBit w k true) 0, shedCnt := 0, hold })).fset
      SPR_STAT_HOLDOFF 0 (b2n (hold != 0))

/-- The hold-off counts ticks (R238). -/
def holdStep (s : State) : State :=
  if s.spr.hold == 0 then s
  else (sprMod s (fun x => { x with hold := x.hold - 1 })).fset SPR_STAT_HOLDOFF 0 (b2n (s.spr.hold != 1))

/-- Begin a shed, add a phase, and count (R237, R238). Failures that leave fewer than PHMIN phases bring every good phase
in (R242). -/
def shedAdd (s : State) : State :=
  let good := goodPhases s
  let back := if good.length < s.fget SPR_CFG_PHMIN then good.filter (fun k => !bit (s.fget SPR_STAT_ACTIVE) k) else []
  let s := back.foldl phaseIn s
  let s := if addCond s then
      match (shedOrder s).reverse.find? (fun k => good.contains k && !bit (s.fget SPR_STAT_ACTIVE) k) with
      | some k => phaseIn s k
      | none => s
    else s
  if s.spr.shed != [] || s.spr.hold != 0 then sprMod s (fun x => { x with shedCnt := 0 })
  else if !shedCond s then sprMod s (fun x => { x with shedCnt := 0 })
  else if s.spr.shedCnt + 1 < s.fget SPR_SHEDCFG_SHEDT then sprMod s (fun x => { x with shedCnt := x.shedCnt + 1 })
  else match (shedOrder s).find? (fun k => bit (s.fget SPR_STAT_ACTIVE) k && !bit (failedMask s) k) with
    | some k => syncShed (sprMod s (fun x => { x with shedCnt := 0, shed := smSet (0, false) x.shed k (x.tick + 1, false) }))
    | none => s

/-- Entry to and exit from SKIP (R236). The ticks with |i_tot| below SKIP_IN are counted whatever else holds. -/
def skipStep (s : State) : State :=
  let lvl := prm s SPR_SKIPIN_SKIP_IN
  let low := !(f32v lvl).isZero && f32lt (f32abs s.spr.itot) lvl
  let st := sprState s
  let s := sprMod s (fun x => { x with skipCnt := if low && st != S_SKIP then min 64 (x.skipCnt + 1) else 0 })
  if st == S_SKIP then
    let out := prm s SPR_SKIPOUT_SKIP_OUT
    let band4 := (f32v (prm s SPR_SKIPBAND_SKIP_BAND)).mul (Q.ofNat 4)
    if f32lt out (f32abs s.spr.iff) || band4.lt (f32v (errV s)).abs then
      (sprMod s (fun x => { x with preset := s.fget SPR_STAT_ACTIVE })).fset SPR_STAT_STATE 0 S_RUN
    else s
  else if st == S_RUN && s.spr.skipCnt == 64 && (activePhases s).length == s.fget SPR_CFG_PHMIN && s.spr.shed == [] then
    ((sprMod s (fun x => { x with skipCnt := 0 })).satAdd SPR_CNT1_SKIP 0).fset SPR_STAT_STATE 0 S_SKIP
  else s

/-- Entry to RUN after 16 ticks within SS_BAND (R233). -/
def settleStep (s : State) : State :=
  if sprState s != S_STEEP then s
  else if s.spr.vref == prm s SPR_VREF_VREF
      && f32le (f32abs (sSub (vLink s) (prm s SPR_VREF_VREF))) (prm s SPR_SSBAND_SS_BAND) then
    if s.spr.settle + 1 < 16 then sprMod s (fun x => { x with settle := x.settle + 1 })
    else s.fsets [(SPR_STAT_STATE, 0, S_RUN), (SPR_EVT_SSDONE, 0, 1)]
  else sprMod s (fun x => { x with settle := 0 })

/-- STOP ends when every active phase has read below 2 % of IPH_MAX at two executions in a row, or after 64 ticks
(R234). -/
def stopStep (s : State) (ran : List Nat) : State :=
  if sprState s != S_STOP then s
  else
    let lim := (f32v (prm s SPR_IPHMAX_IPH_MAX)).mul ⟨1, 50⟩
    let s := ran.foldl (fun s k =>
      let small := (f32v (s.fget SPR_PHI_I k)).abs.lt lim
      sprMod s (fun x => { x with low := smSet 0 x.low k (if small then smGet 0 x.low k + 1 else 0) })) s
    if (activePhases s).all (fun k => 2 ≤ smGet 0 s.spr.low k) || s.spr.stopAt + 64 ≤ s.spr.tick then sprOff s else s

/-- MEASURE: four readings are averaged (R233). -/
def measureStep (s : State) : State :=
  let acc := s.spr.acc ++ [(vBat s, vLink s)]
  let s := sprMod s (fun x => { x with acc })
  if acc.length < 4 then s
  else
    let mean (f : Nat × Nat → Nat) := sOf (((acc.map (fun e => f32v (f e))).foldl Q.add (Q.ofNat 0)).mul ⟨1, 4⟩)
    let vb := mean Prod.fst
    let vl := mean Prod.snd
    let s := sprMod s (fun x => { x with q := (x.q.set 0 vl).set 1 vb })
    if f32lt (prm s SPR_VLINKOV_VLINK_OV) vl then sprTrip s 1
    else if f32lt vb (prm s SPR_VBATMIN_VBAT_MIN) || f32lt (prm s SPR_VBATMAX_VBAT_MAX) vb then sprTrip s 2
    else s

/-- The phases that execute take their currents, failed senses and open phases are declared, and an added phase takes its
weight (R237 to R242). -/
def phaseWork (s : State) (ran : List Nat) : State :=
  let s := ran.foldl useCurrent (sprMod s (fun x => { x with joining := ran.foldl (fun w k => putBit w k false) x.joining }))
  ran.foldl substNow ((List.range 4).foldl openJudge s)

/-- The loops at one tick, from STEEP to STOP (R229, R230, R234 to R238). -/
def loopWork (s : State) (failed : Bool) : State :=
  let s := skipStep (voltageLoop (stepVref (endSheds (forcedSheds (holdStep s)))))
  let ran := (activePhases s).filter (fun k => executes s k s.spr.pos)
  let s := abortSheds (ran.foldl currentLoop s) failed
  stopStep (settleStep (if sprState s == S_STOP then s else shedAdd s)) ran

/-- The computation of one tick (R227 to R243). -/
def sprComputeTick (s : State) : State :=
  let fails0 := failedMask s
  let s := if sprState s == S_MEASURE && s.spr.acc.length == 4 then enterSteep s else s
  let s := runTests (takeResults s)
  let s := (List.range 4).foldl (fun s k => if 4 ≤ s.spr.miss.getD (k + 2) 0 then senseFail s k else s) s
  let ran := (activePhases s).filter (fun k => executes s k s.spr.pos)
  let s := if sprState s == S_TRIP then s else phaseWork s ran
  syncPlim (if sprState s == S_TRIP then s
  else match tripCause s ran with
    | some c => sprTrip s c
    | none => if sprState s == S_MEASURE then measureStep s else loopWork s (failedMask s != fails0))

/-- The tick that is computed now: its results that are older leave the inbox. -/
def takeTick (s : State) (e : SprTick) : State :=
  sprMod s (fun x => { x with
    tickAt := e.at_, pos := e.pos, tick := e.no
    ticks := (moveTick 1 x.ticks).drop (x.ticks.length - 24)
    inbox := x.inbox.filter (fun r => e.at_ < (r.tag + 1) * 65536 + clkT) })

/-- SPR_COMPUTE (R228): the oldest tick that has arrived is computed at the arrival of all six results, or at the tick plus
WAIT; then the next sense tests begin (R239). -/
def execSprCompute (t : Time) (s : State) : Outcome State Fault Refusal :=
  let s := s.at t
  .next (match tickAtStage s 1 with
  | some e =>
    if (List.range 6).all (fun i => (resultFor s e.at_ i).isSome)
        || decide (e.at_ + s.fget SPR_TIME_WAIT * 65536 ≤ repTime s 8) then
      let s := takeTick s e
      if sprState s == S_OFF || e.no == 0 then s
      else
        let s := sprComputeTick s
        if sprState s == S_OFF then s else nextTest (rotate s)
    else s
  | none => s)

/-! ## Register writes -/

/-- A write of a configuration register while the regulator is not OFF is refused (R244). -/
def sprCfgEff (m w : Nat) (s : State) : Status × State :=
  let tpp := bits w 8 3
  sprGuard s m (firstStatus [chk (bits w 12 3 == 0 || tpp == 0) .zeroNotAllowed,
      chk (4 < bits w 12 3 || (tpp != 0 && tpp != 1 && tpp != 2 && tpp != 4)) .range,
      chk (sprState s != S_OFF) .conflict]) (fun s =>
    syncPlim (s.fsets [(SPR_CFG_ORDER, 0, bits w 16 8), (SPR_CFG_PHMIN, 0, bits w 12 3), (SPR_CFG_TPP, 0, tpp),
      (SPR_CFG_PHEN, 0, w % 16)]))
def sprSelEff (m : Nat) (F : List Fld) (w : Nat) (s : State) : Status × State :=
  sprGuard s m (firstStatus [chk (F.any (fun F => bits w F.lo F.width < 32)) .range,
      chk (sprState s != S_OFF) .conflict]) (fun s => F.foldl (fun s F => s.fset F 0 (bits w F.lo F.width)) s)
def sprTimeEff (m w : Nat) (s : State) : Status × State :=
  let wait := bits w 16 11
  sprGuard s m (firstStatus [chk (w % 65536 == 0) .zeroNotAllowed, chk (wait < 50 || 1500 < wait || 10000 < w % 65536) .range,
      chk (sprState s != S_OFF) .conflict]) (fun s =>
    s.fsets [(SPR_TIME_WAIT, 0, wait), (SPR_TIME_SSTMO, 0, w % 65536)])
def sprShedcfgEff (m w : Nat) (s : State) : Status × State :=
  sprGuard s m (firstStatus [chk (bits w 8 8 == 0 || w % 64 == 0) .zeroNotAllowed, chk (32 < w % 64) .range,
      chk (sprState s != S_OFF) .conflict]) (fun s =>
    s.fsets [(SPR_SHEDCFG_HOLD, 0, bits w 16 16), (SPR_SHEDCFG_SHEDT, 0, bits w 8 8), (SPR_SHEDCFG_WIN, 0, w % 64)])
def sprSenseEff (m w : Nat) (s : State) : Status × State :=
  let v := w % 65536
  sprGuard s m (firstStatus [chk (v != 0 && v < 8) .range, chk (sprState s != S_OFF) .conflict]) (fun s =>
    s.fset SPR_SENSE_DIV 0 v)
def sprSensedvEff (m w : Nat) (s : State) : Status × State :=
  let v := w % 2 ^ 20
  sprGuard s m (firstStatus [chk (v == 0) .zeroNotAllowed, chk (sprState s != S_OFF) .conflict]) (fun s =>
    s.fset SPR_SENSEDV_DV 0 v)

/-- A write of SPR_PFF (R232): a non-finite value is refused; by M7 it crosses in 5.0 to 7.5 ns. -/
def sprPffEff (m w : Nat) (s : State) : Status × State :=
  sprGuard s m (chk (!f32fin w) .range) (fun s =>
    let (d, s) := if m == 7 then drawBetween s (5 * nsT) 491520 else (0, s)
    (sprMod s (fun x => { x with pffQ := x.pffQ ++ [(w, s.clk + d)] })).fset SPR_PFF_P 0 w)

end Sys2Proof.Machine
end

