-- ==== Sys2Proof/Machine/CellFw.lean ====
section
/-! DEFINITION. The cell voter (R289, R315 to R321, R330) and the shipped cell firmware (R23 to R25, R109, R172 to R179,
R243, R342, R343, R435, R436). -/

namespace Sys2Proof.Machine
open Host

/-! ## Command frames -/

/-- The voter's window for the cycle in progress, as a network time. -/
def voteInst (s : State) : Nat := s.tim.bound + s.fget VOTE_CCFG_WIN * 65536

/-- A late frame of stream `sid` for cycle `cyc` (R315): it is counted, and the latest vote's word shows it when it names
that vote's cycle. -/
def markLate (s : State) (sid cyc : Nat) : State :=
  let s := { s with cell.late := smSet 0 s.cell.late sid (cyc + 1) }.satAdd VOTE_CCNT2_LATE 0
  if s.cell.voteCyc == cyc + 1 then
    let w := putBit (s.fget VOTE_CSTAT_VOTE) (4 + sid) true
    sysSlot (s.fset VOTE_CSTAT_VOTE 0 w) 1 w
  else s

/-- CMD_FRAME (R289, R315, R330): a command frame that the cell consumes. -/
def execCmdFrame (t : Time) (l : Lane) (fr : Frame) (s : State) : Outcome State Fault Refusal :=
  let (ok, s) := rxCheck (s.at t) l fr
  .next (match fr.body with
  | .cmd ws =>
    let h := fr.hdr
    if !ok || !isUpPort s l || !forMe s l h then s
    else
      let d := cycDiff (cycleNow s) h.cycle
      let keep (s : State) := learnHolder s h.sid h.epoch (bit h.xflags 0)
      if !s.flag TIM_STAT_LOCK || 3 ≤ d then s.satAdd LNK_CNT1_STALE l
      else if d < -16 then s.satAdd LNK_CNT3_FUTURE l
      else if 1 ≤ d || (d == 0 && decide (voteInst s ≤ stampAt s l s.clk)) then markLate (keep s) h.sid h.cycle
      else
        let s := keep s
        let q := (smGet [] s.cell.held l).filter (fun e => e.1 != h.cycle)
        { s with cell.held := smSet [] s.cell.held l (q ++ [(h.cycle, stampAt s l s.clk, ws)]) }
  | _ => s)

/-! ## Outputs of the H-bridge -/

/-- PWM_CFG of a pair as one word. -/
def pwmCfgWord (s : State) (p : Nat) : Nat :=
  match findReg s .pwm 0 0x100100 pwmRegs with | some (r, _) => regWord s r p | none => 0

/-- Both legs of the H-bridge at zero output: equal compares on pairs 0 and 1 (R342). -/
def zeroOutput (s : State) : State :=
  let s := { s with cell.zero := true }
  if !domOn s 7 then s
  else
    [0, 1].foldl (fun s p =>
      let half := 512 * s.fget PWM_EPER_PER p
      let s := fwReg s 0x100108 p half (stagedEff 0 p 1 half)
      let s := fwReg s 0x10010c p half (stagedEff 0 p 2 half)
      fwReg s 0x100118 p 1 (pwmCtlEff 0 p 1)) s

/-- Every switch off: the pairs are disabled and stop at once (R342). -/
def switchesOff (s : State) : State :=
  (List.range 12).foldl (fun s p =>
    if s.flag PWM_CFG_EN p then
      fwReg s 0x100100 p (putBit (pwmCfgWord s p) 31 false) (fun s => (.ok, pwmHalt (s.fset PWM_CFG_EN p 0) p))
    else s) s

/-- The firmware enables or disables pairs; it sets ALIGN with the enable where `align` says so. -/
def pairsEnable (s : State) (ps : List Nat) (align on : Bool) : State :=
  if !domOn s 7 then s
  else
    ps.foldl (fun s p =>
      if s.flag PWM_CFG_EN p == on then s
      else
        let w := pwmCfgWord s p
        let w := putBit (if align && on then putBit w 30 true else w) 31 on
        fwReg s 0x100100 p w (pwmCfgEff 0 p w)) s

/-- The H-bridge, pairs 0 and 1, on the aligned carrier of R172. -/
def bridgeEnable (s : State) (on : Bool) : State := pairsEnable s [0, 1] true on

/-- The dual-active bridge, pairs 2 to 5, as the cell configuration sets them up: it raises the medium-voltage link
(R179). -/
def dabEnable (s : State) : State := pairsEnable s [2, 3, 4, 5] false true

/-! ## Bypass -/

def poSet (s : State) (n : Nat) (b : Bool) : State := { s with pins.po := putBit s.pins.po n b }
def piOf (s : State) (n : Nat) : Bool := bit s.pins.pi n

/-- The confirmation time of the configuration (R25). -/
def confirmT (s : State) : Time := (cfgOf s).bypassMs * msT

/-- The lease-only check of an action at a cell (R330): a higher epoch is adopted. -/
def leaseOk (s : State) (l epoch : Nat) : Bool × State :=
  let known := s.fget VOTE_CEPOCH_EPOCH
  if known < epoch then (true, { s with cell.holder := l }.fset VOTE_CEPOCH_EPOCH 0 epoch)
  else (epoch == known && s.cell.holder == l && known != 0, s)

/-- The bypass command (R342). -/
def cellBypass (s : State) : Status × State :=
  let st := devState s
  if st == ST_CRUN || st == ST_COAST then (.ok, bypassPulse (zeroOutput s) 1 true)
  else if st == ST_READY || st == ST_PRECHARGED || st == ST_CSAFE then (.ok, bypassPulse s 1 true)
  else (.conflict, s)

/-- Clear by W1C every fault group latch and every source flag. -/
def clearFaults (s : State) : State :=
  if !domOn s 7 then s
  else
    let s := (List.range 8).foldl (fun s g => fwReg s (0x102120 + 64 * g) 0 0x80000000 (gstatEff g 0x80000000)) s
    let s := fwReg s 0x102000 0 0xffffffff (srcstatEff 0 0xffffffff)
    fwReg s 0x102004 0 0xffffff (srcstatEff 32 0xffffff)

/-- The rejoin command (R343): accepted in SAFE, BYPASSED and READY. -/
def cellRejoin (s : State) : Status × State :=
  if ! [ST_CSAFE, ST_BYPASSED, ST_READY].contains (devState s) then (.conflict, s)
  else
    let s := clearFaults s
    if (List.range 8).any (fun g => s.flag FLT_GSTAT_LATCH g) || s.flag KILN_STAT_TRIP || !s.flag TIM_STAT_LOCK
        || !s.cell.voteOk then (.conflict, s)
    else (.ok, { s with cell := { s.cell with cc := 0, rejoin := true, openDue := true, cfgOk := false } })

/-- A lease-only command of the holder: it is answered LEASE_REQUIRED where the lease check fails, else with its own status
(R88, R330). -/
def leaseOnly (s : State) (l epoch : Nat) (act : State → Status × State) : State :=
  let (ok, s) := leaseOk s l epoch
  let (st, s) := if ok then act s else (.leaseRequired, s)
  { s with cell.answers := s.cell.answers ++ [(l, st.code)] }

/-- CELL_BYPASS_COMMAND (R320, R330, R342). -/
def execCellBypassCommand (t : Time) (l : Fin 3) (epoch : Nat) (s : State) : Outcome State Fault Refusal :=
  let s := s.at t
  .next (if isStack s then s else leaseOnly s l epoch cellBypass)

/-- CELL_REJOIN_COMMAND (R320, R330, R343). -/
def execCellRejoinCommand (t : Time) (l : Fin 3) (epoch : Nat) (s : State) : Outcome State Fault Refusal :=
  let s := s.at t
  .next (if isStack s then s else leaseOnly s l epoch cellRejoin)

/-- The lease holder's configuration has been accepted (R33, R343). -/
def cfgAccepted (s : State) : State :=
  let s := { s with cell.cfgOk := true }
  if s.cell.rejoin && [ST_CSAFE, ST_BYPASSED, ST_READY].contains (devState s) then
    let s := pulseEnd { s with cell := { s.cell with rejoin := false, step := 0 } }
    syncStateSafe (if devState s == ST_READY then s else setDev s ST_READY CA_NONE)
  else tryReady s

/-- The STOP that the firmware writes once after each entry to SAFE, within one cell cycle (R435). -/
def safeStop (s : State) : State :=
  if !s.cell.stopDue then s
  else
    let s := { s with cell.stopDue := false }
    if domOn s 9 then fwReg s 0x120020 0 2 (sprCtlEff 0 2) else s

/-- BYPASS_CONFIRM (R25, R34, R342): PI0 reads closed within the confirmation time. -/
def execBypassConfirm (t : Time) (s : State) : Outcome State Fault Refusal :=
  let s := s.at t
  .next (if isStack s || s.cell.confirm != 1 then s
  else
    let s := { safeStop (pulseEnd s) with cell.zero := false }
    let s := { s with pins.pi := putBit s.pins.pi 0 true }
    let st := devState s
    if st < ST_READY || ST_CSAFE < st then s
    else
      let cause := if st == ST_CSAFE || (st == ST_COAST && s.cell.safeCycle == cycleNow s) then s.fget SYS_STATE_CAUSE
        else CA_COMMAND
      let t := causedDev (switchesOff s) ST_BYPASSED cause
      syncStateSafe { t with cell.safeCycle := if st == ST_CSAFE then s.cell.safeCycle else cycleNow s })

/-- BYPASS_CONFIRM_TIMEOUT (R25, R342, R343): the cell stays in SAFE, or enters it as R25 says, with cause BYPASS_FAIL. -/
def execBypassConfirmTimeout (t : Time) (s : State) : Outcome State Fault Refusal :=
  let s := s.at t
  .next (if isStack s || s.cell.confirm == 0 || decide (s.clk < s.cell.pulseAt + confirmT s) then s
  else
    let s := pulseEnd s
    if devState s == ST_CSAFE then syncStateSafe (setCause s CA_BYPASS_FAIL) else enterSafe s CA_BYPASS_FAIL)

/-- REJOIN_OPEN_CONFIRM (R343): PI1 reads open after the PO1 pulse; the cell reports RUN. -/
def execRejoinOpenConfirm (t : Time) (s : State) : Outcome State Fault Refusal :=
  let s := s.at t
  .next (if isStack s || s.cell.confirm != 2 then s
  else
    let s := { pulseEnd s with cell.zero := false, pins.pi := putBit (putBit s.pins.pi 0 false) 1 true }
    if devState s == ST_PRECHARGED then setDev s ST_CRUN CA_NONE else s)

/-! ## Pitch at the cell -/

/-- Steep start begins: the string port is started (R179). -/
def steepStart (s : State) : State :=
  let s := { s with cell.step := 4 }
  if domOn s 9 then fwReg s 0x120020 0 1 (sprCtlEff 0 1) else s

/-- CTL.PRECHARGE reaches the cell in READY (R179, R436). -/
def startPrecharge (s : State) : State :=
  if s.cell.step != 0 then s
  else if piOf s 3 then steepStart s
  else poSet { s with cell.step := 1 } 4 true

/-- PRECHARGE_CONTACTOR_STEP (R179): the contact of PO4, then of PO3, confirms; PO4 then opens and steep start begins. -/
def execPrechargeContactorStep (t : Time) (s : State) : Outcome State Fault Refusal :=
  let s := s.at t
  .next (if isStack s || devState s != ST_READY then s
  else if s.cell.step == 1 then
    poSet { s with cell.step := 2, pins.pi := putBit s.pins.pi 4 true } 3 true
  else if s.cell.step == 2 then
    poSet { s with cell.step := 3, pins.pi := putBit s.pins.pi 3 true } 4 false
  else if s.cell.step == 3 then steepStart { s with pins.pi := putBit s.pins.pi 4 false }
  else s)

/-- Voted reference word w. -/
def refWord (s : State) (w : Nat) : Nat := s.fget VOTE_REF_WORD w

/-- The medium-voltage link has been raised to VDC_REF, in volts (R179). -/
def linkRaised (s : State) : Bool :=
  f32fin s.cell.meas.vdcMv && (Q.ofNat (refWord s 21)).le (f32v s.cell.meas.vdcMv)

/-- PRECHARGE_COMPLETE (R33, R179): the string port has started and the medium-voltage link, raised through the
dual-active bridge, reads at least the VDC_REF of the cell's command (word 21). -/
def execPrechargeComplete (t : Time) (s : State) : Outcome State Fault Refusal :=
  let s := s.at t
  .next (if !isStack s && devState s == ST_READY && s.cell.step == 4 && linkRaised s then
    setDev { s with cell.step := 0 } ST_PRECHARGED CA_NONE
  else s)

/-- The slot words of a usable vote (R172, R173): words that name no slot leave the offset as it is, and count while RUN is
commanded. -/
def slotWords (s : State) : State :=
  let k := refWord s 17
  let n := refWord s 18
  if n == 0 || decide (n ≤ k) then
    let s := { s with cell.slotDue := false }
    if bit (refWord s 16) 1 then sysSlot s 50 (min (slotValue s 50 + 1) (2 ^ 32 - 1)) else s
  else if s.cell.slot == some (k, n) then { s with cell.slotDue := false }
  else { s with cell.slotDue := true }

/-- The carrier grid of R172 on pairs 0 and 1: the offset SLOT × P_CAR / NSLOT and the period P_CAR, counted
from the start of the second, for which the pairs are set to ALIGN while they are off. The offset in nanoseconds is exact and
PWM_OFS takes it rounded down to a compare unit (DEDUCED, assumption 50: the worked example says that it rounds and fits the
nearest unit as well). The new grid acts at the valley at which the slot is adopted: the set is released in time for it. -/
def placeCarrier (s : State) (k n car : Nat) : State :=
  if !domOn s 7 then s
  else
    let per := car * 65536 / (2 * clkT)
    let ofs := k * car * 65536 / (n * uT)
    let s := [0, 1].foldl (fun s p =>
      let s := fwReg s 0x100104 p per (stagedEff 0 p 0 per)
      let s := fwReg s 0x100110 p ofs (stagedEff 0 p 3 ofs)
      let w := putBit (pwmCfgWord s p) 30 true
      if s.flag PWM_CFG_EN p then fwReg s 0x100118 p 1 (releaseSet · 0 p (s.clk - 2 * clkT))
      else if s.flag PWM_STAT_RUN p then s
      else fwReg s 0x100100 p w (pwmCfgEff 0 p w)) s
    [0, 1].foldl (fun s p =>
      if s.flag PWM_STAT_RUN p && inClk s (pwmOf s p).valley then
        let (grid, s) := reload s p false
        pwmEdges (if grid then phaseCorrect s p (pwmOf s p).valley true else s) p
      else s) s

/-- The slot of the latest voted frame is adopted (R172). -/
def adoptSlot (s : State) : State :=
  let k := refWord s 17
  let n := refWord s 18
  let s := { s with cell.slot := some (k, n), cell.slotDue := false }
  placeCarrier (sysSlot (sysSlot s 48 k) 49 n) k n (refWord s 19)

/-- A period boundary of the carrier of pairs 0 and 1 is now; a carrier that does not run has none to wait for (R172). -/
def carrierBoundary (s : State) : Bool :=
  !s.flag PWM_STAT_RUN 0 || inClk s (pwmOf s 0).valley || inClk s (pwmOf s 0).nextValley

/-- SLOT_ADOPT (R172): the first period boundary of the carrier at or after the boundary of SLOT_CYCLE. -/
def execSlotAdopt (t : Time) (s : State) : Outcome State Fault Refusal :=
  let s := s.at t
  .next (if isStack s || !s.cell.slotDue || cycDiff (cycleNow s) (refWord s 20) < 0 || !carrierBoundary s then s
    else adoptSlot s)

/-- The firmware words of a usable vote (R33, R179, R181, R343). A cell that has never held a slot does not start switching
(R173). -/
def obeyCtl (s : State) : State :=
  let ctl := refWord s 16
  let st := devState s
  let s := slotWords s
  if st == ST_READY && bit ctl 0 then startPrecharge s
  else if st == ST_PRECHARGED && bit ctl 1 && s.cell.slot.isSome then
    let s := bridgeEnable s true
    if s.cell.openDue then
      if s.cell.confirm == 2 then s
      else bypassPulse { zeroOutput s with cell.openDue := false } 2 true
    else if s.cell.confirm == 2 then s
    else setDev { s with cell.openDue := false } ST_CRUN CA_NONE
  else if st == ST_CRUN && bit ctl 2 then setDev (bridgeEnable s false) ST_PRECHARGED CA_NONE
  else s

/-! ## The vote -/

/-- The frame of stream `sid` for cycle c that ended before the vote instant. -/
def present (s : State) (sid c : Nat) : Option (List Nat) :=
  if !laneActive s sid then none
  else ((smGet [] s.cell.held sid).find? (fun e => e.1 == c && decide (e.2.1 < voteInst s))).map (fun e => e.2.2)

/-- What a vote decides (Table 13.1): RESULT, the stream used, the dissenting streams. -/
structure Vote where
  result : Nat
  used : Option Nat
  dissent : List Nat
  deriving DecidableEq, Repr

/-- The stream used of an agreeing set: the holder's when it is in the set, else the lowest. -/
def pick (holder : Nat) (l : List Nat) : Option Nat := if l.contains holder then some holder else l.head?

/-- Table 13.1, for the streams present (ascending) and their agreement. -/
def decideVote (l : List Nat) (agree : Nat → Nat → Bool) (holder : Nat) (solo : Bool) : Vote :=
  let byHolder : Vote := if l.contains holder then ⟨4, some holder, l.filter (· != holder)⟩ else ⟨6, none, []⟩
  match l with
  | [a, b, c] =>
    if agree a b && agree b c then ⟨1, pick holder l, []⟩
    else if agree a b then ⟨2, pick holder [a, b], [c]⟩
    else if agree a c then ⟨2, pick holder [a, c], [b]⟩
    else if agree b c then ⟨2, pick holder [b, c], [a]⟩
    else byHolder
  | [a, b] => if agree a b then ⟨3, pick holder l, []⟩ else byHolder
  | [a] => if a == holder && solo then ⟨5, some a, []⟩ else ⟨6, none, []⟩
  | _ => ⟨6, none, []⟩

def maskOf (l : List Nat) : Nat := l.foldl (fun w n => w + 2 ^ n) 0

/-- The state changes of R319, and the cause of a cell that has entered BYPASSED in this cycle (R34). -/
def coast (s : State) : State :=
  let st := devState s
  let lim := s.fget VOTE_CCFG_COAST
  if s.cell.cc == 0 then if st == ST_COAST then setDev s ST_CRUN CA_NONE else s
  else if (st == ST_CRUN || st == ST_COAST) && decide (lim < s.cell.cc) then enterSafe s CA_STREAMS
  else if st == ST_CRUN then causedDev s ST_COAST CA_STREAMS
  else if st == ST_BYPASSED && [ST_CRUN, ST_COAST].contains (s.fget SYS_STATE_PREV) then enterSafe s CA_STREAMS
  else s

/-- VOTE_INSTANT (R315 to R321): the vote of the cycle in progress, decided 5 ns after its instant (assumption 51); its words
reach PD1 2 to 3 ns later (R318). -/
def execVoteInstant (t : Time) (s : State) : Outcome State Fault Refusal :=
  let s := s.at t
  .next (if isStack s || s.cell.voteCyc == cycleNow s + 1 || !dueAt s (voteInst s + 5 * 65536) 109227 then s
  else
    let c := cycleNow s
    let (cross, s) := drawBetween s (2 * nsT) (3 * nsT)
    let l := [0, 1, 2].filter (fun sid => (present s sid c).isSome)
    let ws (sid : Nat) := (present s sid c).getD []
    let agree (a b : Nat) : Bool :=
      (List.range 64).all (fun w => !bit (s.fget VOTE_CMASK_MASK (w / 32)) (w % 32) || (ws a).getD w 0 == (ws b).getD w 0)
    let v := decideVote l agree s.cell.holder (s.flag VOTE_CCFG_SOLO)
    let late := [0, 1, 2].filter (fun sid => smGet 0 s.cell.late sid == c + 1)
    let s := v.dissent.foldl (fun s sid => s.satAdd ([VOTE_CCNT0_DIS0, VOTE_CCNT0_DIS1].getD sid VOTE_CCNT1_DIS2) 0) s
    let ok := v.used.isSome
    let s := if ok then s else s.satAdd VOTE_CCNT1_COASTS 0
    let cc := if ok then 0 else s.cell.cc + 1
    let word := min cc 255 * 2 ^ 24 + v.result * 2 ^ 20 + s.cell.holder * 2 ^ 16
      + (match v.used with | some u => 2 ^ (12 + u) | none => 0) + maskOf v.dissent * 256 + maskOf late * 16 + maskOf l
    let st := devState s
    let applies := ok && (s.cell.rejoin || (st != ST_CSAFE && st != ST_BYPASSED))
    let words := ws (v.used.getD 0)
    let s := { s with cell := { s.cell with
      cc, voteOk := ok, voteCyc := c + 1, voteAt := s.clk + cross
      applyAt := if applies then s.tim.bound else s.cell.applyAt
      seenAt := if l.isEmpty then s.cell.seenAt else s.clk
      held := s.cell.held.map (fun (e : Nat × List (Nat × Nat × List Nat)) => (e.1, e.2.filter (fun x => cycDiff c x.1 < 0))) } }
    let s := s.fset VOTE_CSTAT_VOTE 0 word
    let s := if applies then
        (List.range 64).foldl (fun s w => s.fset VOTE_REF_WORD w (words.getD w 0)) s
      else s
    let s := sysSlot s 1 word
    let s := coast (if applies then sysSlot s 6 c else s)
    if applies && shippedCfg s && ST_READY ≤ devState s && devState s ≤ ST_COAST then obeyCtl s else s)

/-- CELL_EPOCH_CLEAR (R330): no stream has been present for 20 ms. -/
def execCellEpochClear (t : Time) (s : State) : Outcome State Fault Refusal :=
  let s := s.at t
  .next (if isStack s || decide (s.clk < s.cell.seenAt + 20 * msT) then s
  else { s with cell.holder := 3 }.fset VOTE_CEPOCH_EPOCH 0 0)

/-! ## The cell cycle -/

/-- A binary32 operation of the firmware; a result outside the format is a free value (assumption 4). -/
def fwF (op a b : Nat) (r : Option Nat) : Nat := r.getD (Config.fwArith op a b)
def fwMul (a b : Nat) : Nat := fwF 0 a b (f32mul a b)
def fwSub (a b : Nat) : Nat := fwF 1 a b (f32sub a b)
def f32min (a b : Nat) : Nat := if f32lt b a then b else a

/-- kiln_factor of the throttle level in force (R374). -/
def kilnFactor (s : State) : Nat :=
  let q (F : Fld) : Nat := (f32r ⟨s.fget F, 256⟩).getD 0
  match s.fget KILN_STAT_LEVEL with
  | 0 => F_ONE | 1 => q KILN_FACTOR_F1 | 2 => q KILN_FACTOR_F2 | _ => q KILN_FACTOR_F3

/-- The state of charge as published, clamped to 0 to 1. -/
def socWord (s : State) : Nat := (f32r ⟨min s.cell.soc (2 ^ 48), 2 ^ 48⟩).getD 0

/-- One cap of R176. -/
def capOf (s : State) (iMax : Nat) (out : Bool) : Nat :=
  let r := (cfgOf s).cell
  let soc := socWord s
  let p := f32min (f32min (fwMul s.cell.meas.vbat iMax) (s.fget SPR_PLIM_P)) r.pDabMax
  let cap := fwMul (fwMul (fwSub F_ONE r.capMargin) p) (kilnFactor s)
  if (if out then f32le soc r.socLo else f32le r.socHi soc) then 0 else cap

/-- Cell point 4: the phases active and failed (Table 4.6). -/
def phasePoint (s : State) : State :=
  sysSlot s 4 (s.fget SPR_STAT_ACTIVE + (s.fget SPR_PHFAIL_OPEN ||| s.fget SPR_PHFAIL_SENSE) * 16)

/-- The caps and the phase point (R176, R243). -/
def writeCaps (s : State) : State :=
  let r := (cfgOf s).cell
  let s := phasePoint s
  let s := sysSlot s 16 (capOf s r.iChgMax false)
  sysSlot s 17 (capOf s r.iDisMax true)

/-- The word of a register, by its address. -/
def wordAt (s : State) (b : Blk) (a : Nat) : Nat :=
  match findReg s b 0 a (blkRegs b) with | some (r, i) => regWord s r i | none => 0

/-- Cell point 3: the throttle level, 4 while tripped (R371). -/
def throttle (s : State) : Nat := if s.flag KILN_STAT_TRIP then 4 else s.fget KILN_STAT_LEVEL

/-- Cell point 24: the highest group value in °C (R371). -/
def tmax (s : State) : Nat :=
  let l := ((List.range 8).filter (bit s.kiln.valued)).map (fun g => toSigned 16 (s.fget KILN_GVAL_T g))
  match l with
  | [] => 0
  | a :: r => (fRound b32 (decide (r.foldl max a < 0)) ⟨r.foldl max a, 16⟩).getD 0

/-- The count of IBAT against the string capacity over `dt` (R177), in units of 2⁻⁴⁸. -/
def countSoc (s : State) (ibat : Nat) (dt : Time) : Nat :=
  let cap := f32v (cfgOf s).cell.capacity
  let d := if f32fin ibat then (((f32v ibat).mul ⟨dt * 2 ^ 48, 65536000000000⟩).div cap).getD (Q.ofNat 0) else Q.ofNat 0
  (clampI ((s.cell.soc : Int) + d.round) 0 (2 ^ 48)).toNat

/-- |IBAT| below 1 % of i_chg_max (R177). -/
def ibatLow (s : State) (ibat : Nat) : Bool :=
  f32fin ibat && ((f32v ibat).abs).lt ((f32v (cfgOf s).cell.iChgMax).mul ⟨1, 100⟩)

/-- Free words (assumption 4). -/
def drawWords (s : State) : Nat → List Nat × State
  | 0 => ([], s)
  | n + 1 => let (v, s) := drawFree s; let (l, s) := drawWords s n; (v % 2 ^ 32 :: l, s)

/-- In pitch step 1 the dual-active bridge raises the medium-voltage link once the string port runs (R179). -/
def linkRaise (s : State) : State :=
  if devState s == ST_READY && s.cell.step == 4 && sprState s == S_RUN then dabEnable s else s

/-- CELL_CYCLE (R109, R176, R177, R179, R435): the firmware's pass of one cell cycle with its measurements. The state of
charge and the caps are those of R176 and R177 while the shipped bills are in force (R155); without them the spec does not
say how they are formed, and they are free values (assumption 4). A port that R17 holds
in CAPS is reported in TEL as a port that point 5 does not show ACTIVE (DESIGN CHOICE, assumption 50: Table 4.6 and R271 have
no other field for it). -/
def execCellCycle (t : Time) (x : CellMeas) (s : State) : Outcome State Fault Refusal :=
  let s := s.at t
  .next (if isStack s || s.sys.phase != .firmware then s
  else
    let dt := match s.cell.cycAt with | some c => s.clk - c | none => 0
    let soc := if shippedCfg s then countSoc s x.ibat dt else s.cell.soc
    let s := { s with cell := { s.cell with
      soc, cycAt := some s.clk, meas := x
      lowSince := if ibatLow s x.ibat then some (s.cell.lowSince.getD s.clk) else none } }
    let s := linkRaise (safeStop s)
    let faults := (List.range 8).foldl (fun w g => w + s.fget FLT_GSTAT_LATCH g * 2 ^ g) 0
    let s := [(0, wordAt s .sys 8), (1, s.fget VOTE_CSTAT_VOTE), (2, faults), (3, throttle s), (5, activeMask s),
        (6, slotValue s 6), (7, wordAt s .sys 0x18)].foldl (fun s (e : Nat × Nat) => sysSlot s e.1 e.2) s
    let s := [(18, x.vdcMv), (19, x.vdcLv), (20, x.vbat), (21, x.ibat), (23, x.edc), (24, tmax s)].foldl
      (fun s (e : Nat × Nat) => sysSlot s e.1 e.2) s
    if shippedCfg s then writeCaps (sysSlot s 22 (socWord s))
    else
      let (l, s) := drawWords s 3
      [22, 16, 17].zip l |>.foldl (fun s (e : Nat × Nat) => sysSlot s e.1 e.2) (phasePoint s))

/-- The state of charge of an open-circuit voltage: the table's points, joined by straight lines (R177). -/
def ocvSoc (v : Q) : List (Nat × Nat) → Q
  | [] => Q.ofNat 0
  | [(_, q)] => f32v q
  | (v0, q0) :: (v1, q1) :: l =>
    if v.le (f32v v0) then f32v q0
    else if v.lt (f32v v1) then
      let f := ((v.sub (f32v v0)).div ((f32v v1).sub (f32v v0))).getD (Q.ofNat 0)
      (f32v q0).add (f.mul ((f32v q1).sub (f32v q0)))
    else ocvSoc v ((v1, q1) :: l)

/-- SOC_OCV_RESET (R177). -/
def execSocOcvReset (t : Time) (s : State) : Outcome State Fault Refusal :=
  let s := s.at t
  .next (match s.cell.lowSince with
  | some c =>
    if !shippedCfg s || isStack s || decide (s.clk < c + 600 * secT) || (cfgOf s).cell.ocv.isEmpty || !f32fin s.cell.meas.vbat then s
    else
      let q := (ocvSoc (f32v s.cell.meas.vbat) (cfgOf s).cell.ocv).mul (Q.ofNat (2 ^ 48))
      { s with cell.soc := (clampI q.round 0 (2 ^ 48)).toNat }
  | none => s)

/-- CAP_UPDATE_ON_PLIM (R243). -/
def execCapUpdateOnPlim (t : Time) (s : State) : Outcome State Fault Refusal :=
  let s := s.at t
  .next (if !shippedCfg s || isStack s || s.sys.phase != .firmware then s else writeCaps s)

end Sys2Proof.Machine
end

