-- ==== Sys2Proof/Machine/Lanes.lean ====
section
/-! DEFINITION. Lanes of the Yarid link as they come up and send (R16 to R18, R278, R279, R283 to R288, R291, R292): the
lane registers, the lane states, CAPS and IDLE frames, the transmitter and the relay. -/

namespace Sys2Proof.Machine
open Host

/-! ## Registers -/

/-- The lanes that the role uses (Table 1.1). -/
def laneUsed (s : State) (l : Nat) : Bool := isYarid s l || isEthLane s l

/-- LNK_TEST of a lane is all zero. -/
def testNone (s : State) (l : Nat) : Bool :=
  !s.flag LNK_TEST_GEN l && !s.flag LNK_TEST_CHK l && s.fget LNK_TEST_LOOP l == 0

/-- A lane that R292 keeps enabled in service. -/
def laneKept (s : State) (l : Nat) : Bool :=
  inService s && (if isStack s then (l < 24 && usedChain s l) || isPeerLane s l else isUpPort s l || isDownPort s l)

/-- A write that LNK refuses into LNK_ERR, or carries out. -/
def lnkGuard (m l : Nat) (st : Status) (eff : State → State) (s : State) : Status × State :=
  if st == .ok then (.ok, eff s) else (st, lnkErr s m l st)

/-- An enabled lane begins to run; a lane that the role does not use stays electrically idle (Table 1.1), and so does a
lane that is switched off. -/
def laneStart (s : State) (l : Nat) : State :=
  if !laneUsed s l then s else if testNone s l then enterDetect s l else laneTo s l L_TEST
/-- A lane is disabled. -/
def laneStop (s : State) (l : Nat) : State :=
  linkStatus ((laneTo (laneQuiet s l) l L_OFF).fsets [(LNK_STAT_BLOCK, l, 0), (LNK_PRBS_SYNC, l, 0)])

/-- What a lane's transmitter sends (R283, R292): nothing, frames and idle blocks, PRBS31, or the blocks received. -/
inductive LaneTx where
  | silent | blocks | prbs | received
  deriving DecidableEq, Repr

def laneSends (s : State) (l : Nat) : LaneTx :=
  if laneState s l == L_OFF then .silent
  else if laneState s l != L_TEST then .blocks
  else if s.flag LNK_TEST_GEN l then .prbs
  else if s.fget LNK_TEST_LOOP l == 3 then .received else .blocks

/-- PRBS31 can reach the checker of a lane in TEST: from the far end, or with a near-end loop from its own generator
(R292). -/
def prbsReaches (s : State) (l : Nat) : Bool :=
  laneState s l == L_TEST && s.flag LNK_TEST_CHK l
    && (!(s.fget LNK_TEST_LOOP l == 1 || s.fget LNK_TEST_LOOP l == 2) || laneSends s l == .prbs)

/-- A write of LNK_CFG (R292, R294). -/
def lnkCfgEff (m l w : Nat) (s : State) : Status × State :=
  let en := bit w 31
  let was := s.flag LNK_CFG_EN l
  let rate := bits w 16 3
  let other := bits w 30 1 != s.fget LNK_CFG_TXINV l || bits w 29 1 != s.fget LNK_CFG_RXINV l
    || rate != s.fget LNK_CFG_RATE l
  lnkGuard m l (firstStatus [chk (rate == 7) .range, chk (was && other) .conflict,
    chk (en && !was && rate != 0 && testNone s l) .conflict, chk (!en && was && laneKept s l) .conflict]) (fun s =>
      let s := s.fsets [(LNK_CFG_EN, l, b2n en), (LNK_CFG_TXINV, l, bits w 30 1), (LNK_CFG_RXINV, l, bits w 29 1),
        (LNK_CFG_RATE, l, rate)]
      if en && !was then laneStart s l else if !en && was then laneStop s l else s) s

/-- LANE_ENABLE (R294): a write of LNK_CFG of the lane that the master's window selects. -/
def execLaneEnable (m : Master) (w : Word) (s : State) : Outcome State Fault Refusal :=
  .next (rowWrite s m 0x140100 w false (lnkCfgEff m (chsel s .lnk m) w.toNat))

/-- A write of LNK_CTL (R285). -/
def lnkCtlEff (l w : Nat) (s : State) : Status × State :=
  let st := laneState s l
  if !bit w 0 || !s.flag LNK_CFG_EN l || st == L_OFF || st == L_TEST then (.ok, s)
  else if st == L_ACTIVE then (.ok, laneLoss s l 4)
  else (.ok, enterTrain s l)

/-- LANE_RETRAIN (R285). -/
def execLaneRetrain (m : Master) (w : Word) (s : State) : Outcome State Fault Refusal :=
  .next (rowWrite s m 0x14010c w false (lnkCtlEff (chsel s .lnk m) w.toNat))

/-- A write of LNK_TEST (R292). -/
def lnkTestEff (m l w : Nat) (s : State) : Status × State :=
  lnkGuard m l (chk (s.flag LNK_CFG_EN l) .conflict) (fun s =>
    s.fsets [(LNK_TEST_GEN, l, bits w 31 1), (LNK_TEST_CHK, l, bits w 30 1), (LNK_TEST_LOOP, l, bits w 24 2)]) s

/-! ## Bring-up (Table 11.5) -/

/-- LANE_SIGNAL_DETECT (R283): a signal for 10 µs without a break. -/
def execLaneSignalDetect (t : Time) (l : Lane) (s : State) : Outcome State Fault Refusal :=
  let s := s.at t
  .next (if laneState s l == L_OFF then s
  else
    let s := s.fset LNK_STAT_SIGDET l 1
    if laneState s l == L_DETECT then enterTrain s l else s)

/-- LANE_SIGNAL_LOSS (R283): the receiver no longer detects a signal. A lane that is ACTIVE leaves it under R285. -/
def execLaneSignalLoss (t : Time) (l : Lane) (s : State) : Outcome State Fault Refusal :=
  let s := s.at t
  .next (if laneState s l == L_OFF then s else s.fset LNK_STAT_SIGDET l 0)

/-- LANE_TRAIN_DONE (R283): 50 µs with the effective settings, and block lock. -/
def execLaneTrainDone (t : Time) (l : Lane) (s : State) : Outcome State Fault Refusal :=
  let s := s.at t
  .next (if laneState s l != L_TRAIN || decide (s.clk < (lnOf s l).since + 50 * usT) then s
  else laneTo (s.fset LNK_STAT_BLOCK l 1) l L_LOCK)

/-- 65,536 blocks of 6.4 ns in units of 2⁻¹⁶ ns. -/
def lockT : Time := 27487790694

/-- A window of the high-BER monitor of Clause 49, and the errors in it that make the error rate high (R283; PRESUMED,
assumption 53). -/
def berT : Time := 125 * usT
def berMax : Nat := 16

/-- LANE_LOCK_DONE (R283): 65,536 consecutive blocks without a code error; on an Ethernet lane, a window of the high-BER
monitor has passed. -/
def execLaneLockDone (t : Time) (l : Lane) (s : State) : Outcome State Fault Refusal :=
  let s := s.at t
  .next (if laneState s l != L_LOCK || decide (s.clk < (lnOf s l).lockFrom + (if isEthLane s l then berT else lockT)) then s
  else
    let s := leaveLock s l
    if laneState s l == L_ACTIVE then linkStatus s else s)

/-- LANE_CODE_ERROR (R283): the run of good blocks begins again; on an Ethernet lane the high-BER monitor counts it, and a
window with too many begins again. -/
def execLaneCodeError (t : Time) (l : Lane) (s : State) : Outcome State Fault Refusal :=
  let s := s.at t
  .next (if laneState s l != L_LOCK then s
  else if !isEthLane s l then lnMod s l (fun x => { x with lockFrom := s.clk, lockDone := false })
  else lnMod s l (fun x =>
    if x.ber + 1 < berMax then { x with ber := x.ber + 1 } else { x with ber := 0, lockFrom := s.clk }))

/-- LANE_BLOCK_LOCK_LOSS (R283, R285, R294): in CAPS the lane only shows it, until a frame arrives again. -/
def execLaneBlockLockLoss (t : Time) (l : Lane) (s : State) : Outcome State Fault Refusal :=
  let s := s.at t
  .next (if laneState s l == L_ACTIVE then laneLoss s l 1
  else if laneState s l == L_LOCK then enterTrain s l
  else s.fset LNK_STAT_BLOCK l 0)

/-- LANE_FRAME_SILENCE (R285): 10 µs without a frame with a good CRC. -/
def execLaneFrameSilence (t : Time) (l : Lane) (s : State) : Outcome State Fault Refusal :=
  let s := s.at t
  .next (if isYarid s l && laneActive s l && decide ((lnOf s l).lastGood + 10 * usT ≤ s.clk) then laneLoss s l 2 else s)

/-- PRBS_CHECKER_SYNC (R292): the checker gains or loses synchronisation, having counted bit errors. -/
def execPrbsCheckerSync (t : Time) (l : Lane) (sync : Bool) (errs : Nat) (s : State) : Outcome State Fault Refusal :=
  let s := s.at t
  .next (if prbsReaches s l then
    (s.fset LNK_PRBS_SYNC l (b2n sync)).satAdd LNK_PRBS_ERR l errs
  else s)

/-! ## CAPS -/

/-- The checks of R16 and R18 on the far end that the last CAPS frame showed, and the check of R17. -/
def capsWired (s : State) (l : Nat) : Bool :=
  let stack := s.flag LNK_STAT_FARROLE l
  let hop := s.fget LNK_STAT_FARHOP l
  if isPeerLane s l then stack && farSid s l != ownSid s
  else if isChainLane s l then !stack
  else if isUpPort s l then hop < 8 && farSid s l == l && (if stack then hop == 0 else hop != 0)
  else !stack
def capsSame (s : State) (l : Nat) : Bool :=
  !isUpPort s l || !portsFixed s || (s.fget LNK_STAT_FARCHAIN l == myChain s && s.fget LNK_STAT_FARHOP l == myPos s)

/-- A cell joins (R33, R384): firmware runs, its configuration slots are checked, an upstream port is ACTIVE with the
index fixed, and everything that its image uses has been tested and nothing of it is retired. -/
def tryJoin (s : State) : State :=
  if !isStack s && s.sys.phase == .firmware && devState s == ST_BOOT && !usesRetired s && !usesUntested s
      && s.sys.cfgLeft.isEmpty && s.sys.retrain.isEmpty && portsFixed s && [0, 1, 2].any (laneActive s) then
    setDev s ST_JOINED CA_NONE
  else s

/-- The ports of a cell are retrained one at a time (R61, R291). A port that has no signal takes its settings when it next
trains. -/
def retrainNext (s : State) : State :=
  let l := s.sys.retrain.dropWhile (fun l => ! [L_TRAIN, L_LOCK, L_CAPS, L_ACTIVE].contains (laneState s l))
  let s := { s with sys.retrain := l }
  match l with
  | l :: _ => if laneActive s l then laneLoss s l 4 else enterTrain s l
  | [] => s

/-- A lane table has come for the ports `ls` of a cell (R61, R291). -/
def retrainPorts (s : State) (ls : List Nat) : State :=
  retrainNext { s with sys.retrain := [0, 1, 2, 4, 5, 6].filter ls.contains }

/-- The port that is being retrained is ACTIVE again, or has failed to come up in its time; the next one follows, and after
the last the cell goes on (R33, R61). -/
def retrainPass (s : State) (l : Nat) : State :=
  match s.sys.retrain with
  | p :: r => if p == l then tryReady (tryJoin (retrainNext { s with sys.retrain := r })) else s
  | [] => s

/-- LANE_STATE_TIMEOUT (R283): 500 µs in TRAIN, 1 ms in LOCK, 200 µs in CAPS without a valid CAPS frame. -/
def execLaneStateTimeout (t : Time) (l : Lane) (s : State) : Outcome State Fault Refusal :=
  let s := s.at t
  let x := lnOf s l
  let fail := s.satAdd LNK_CNT2_TRAINFAIL l
  .next (match laneState s l with
  | 2 => if x.since + 500 * usT ≤ s.clk then retrainPass (enterDetect fail l) l else s
  | 3 => if !capsHeld s l && x.since + msT ≤ s.clk then retrainPass (enterTrain fail l) l else s
  | 4 => if x.lastCaps + 200 * usT ≤ s.clk then retrainPass (enterTrain fail l) l else s
  | _ => s)

/-- A lane enters ACTIVE (R284); the first upstream port to do so fixes chain and position (R17). -/
def enterActive (s : State) (l : Nat) : State :=
  let s := laneTo s l L_ACTIVE
  let s := if isUpPort s l && !portsFixed s then
      releaseDown (s.fsets [(LNK_PORTS_FIXED, 0, 1), (LNK_PORTS_CHAIN, 0, s.fget LNK_STAT_FARCHAIN l),
        (LNK_PORTS_POS, 0, s.fget LNK_STAT_FARHOP l)])
    else s
  tryReady (tryJoin (retrainPass (linkStatus s) l))

/-- Both ends have accepted each other. -/
def capsDone (s : State) (l : Nat) : State :=
  let x := lnOf s l
  if laneState s l == L_CAPS && x.ackRx && x.ackTx then enterActive s l else s

/-- The CAPS frame that a lane sends (R16, R61, R277). -/
def capsOut (s : State) (l : Nat) (ack : Bool) : Frame :=
  ⟨segHdr s l 8 32, .caps (isStack s) (isUpPort s l && inNetboot s)
    (isChainLane s l && usedChain s l && decide (ST_ENUMERATE ≤ devState s)) ack 1 0x6A1A0192 (s.fget SEC_SVN_CFG_SVN)
    (s.fget SEC_SVN_FW_SVN) l⟩

/-- CAPS_SEND (R283, R284). -/
def execCapsSend (t : Time) (l : Lane) (s : State) : Outcome State Fault Refusal :=
  let s := s.at t
  let x := lnOf s l
  .next (if laneState s l != L_CAPS || (decide (x.since ≤ x.lastTx) && decide (s.clk < x.lastTx + usT)) then s
  else
    let ack := x.pass && capsWired s l && capsSame s l
    let f := capsOut s l ack
    let n := smGet 0 x.seq 8
    let s := lnMod s l (fun x => { x with
      sent := some ⟨{ f.hdr with seq := n }, f.body⟩, sentAt := stampAt s l s.clk, sentBad := false, lastTx := s.clk
      seq := smSet 0 x.seq 8 ((n + 1) % 65536), ackTx := x.ackTx || ack })
    capsDone s l)

/-- A CAPS frame arrives (R16 to R18, R284, R285): in ACTIVE it is a loss. -/
def capsRx (s : State) (l : Nat) (fr : Frame) : State :=
  let (ok, s) := rxCheck s l fr
  match fr.body with
  | .caps stack bootreq _ ack _ _ _ _ _ =>
    if !ok then s
    else if laneState s l == L_ACTIVE then laneLoss s l 3
    else
      let s := s.fsets [(LNK_STAT_FARROLE, l, b2n stack), (LNK_STAT_FARSID, l, fr.hdr.sid),
        (LNK_STAT_FARCHAIN, l, fr.hdr.chain), (LNK_STAT_FARHOP, l, fr.hdr.hop), (LNK_STAT_BLOCK, l, 1)]
      let wired := capsWired s l
      let pass := wired && capsSame s l
      let s := if isUpPort s l then
          s.fset LNK_PORTS_MISMATCH 0 (putBit (s.fget LNK_PORTS_MISMATCH) l (wired && !pass)) else s
      let first := !pass && wired == false && !(lnOf s l).failing
      let s := if first then s.satAdd LNK_CNT3_DISCARD l else s
      let s := lnMod s l (fun x => { x with
        lastCaps := s.clk, pass, failing := !wired, ackRx := pass && (x.ackRx || ack), ackTx := pass && x.ackTx
        bootReq := bootreq })
      capsDone s l
  | _ => s

/-! ## Sending -/

/-- The frame of highest priority, the first of its priority, and the others (R279). -/
def takeTx (q : List (Nat × Frame)) : Option (Frame × List (Nat × Frame)) :=
  match (q.map Prod.fst).min? with
  | none => none
  | some p =>
    match q.findIdx? (fun e => e.1 == p) with
    | some i => (q[i]?).map (fun e => (e.2, q.eraseIdx i))
    | none => none

/-- A relayed frame starts on a lane (R281): LNK_RES records its residence since the start stamp at its input. -/
def relayStart (s : State) (out : Nat) (g : Frame) (inAt : Nat) (bad : Bool) : State :=
  let now := stampAt s out s.clk
  let q := min ((now - inAt) / 16384) 65535
  (lnMod s out (fun x => { x with sent := some g, sentAt := now, sentBad := bad, lastTx := s.clk })).fsets
    [(LNK_RES_LAST, out, q), (LNK_RES_MAX, out, max q (s.fget LNK_RES_MAX out))]

/-- LANE_TX_READY (R265, R278, R279, R302): the transmitter is free and starts the next frame. Link status, the origin of
a TIME frame and the turnaround of a delay response are those of the start; a response whose turnaround does not fit
TURN is not sent. -/
def execLaneTxReady (t : Time) (l : Lane) (s : State) : Outcome State Fault Refusal :=
  let s := capSettle (s.at t)
  .next (if !laneActive s l || txBusy s l then s
  else match takeTx (lnOf s l).txq with
  | none => s
  | some (f, q) =>
    let s := lnMod s l (fun x => { x with txq := q })
    let x := lnOf s l
    match x.relIn.find? (fun r => r.1 == f) with
    | some r => relayStart (lnMod s l (fun x => { x with relIn := x.relIn.erase r })) l f r.2.1 r.2.2
    | none =>
    let now := stampAt s l s.clk
    let turn := match x.dreqIn with | some t2 => (now - t2) / 16384 | none => 0
    let drsp := f.hdr.ty == 0 && bit f.hdr.xflags 14
    if drsp && (x.dreqIn.isNone || 16383 < turn) then lnMod s l (fun x => { x with dreqIn := none })
    else
      let n := smGet 0 x.seq f.hdr.ty
      let h := { f.hdr with seq := n }
      let g : Frame := match f.body with
        | .idle _ _ => ⟨{ h with xflags := if drsp then 0x4000 + turn else h.xflags },
            .idle (activeMask s) (idleWord1 s l)⟩
        | .time _ corr cyc ts => ⟨{ h with cycle := cycleNow s }, .time now corr cyc ts⟩
        | b => ⟨h, b⟩
      let idle := f.hdr.ty == 0
      lnMod s l (fun x => { x with
        sent := some g, sentAt := now, sentBad := false, lastTx := s.clk, seq := smSet 0 x.seq f.hdr.ty ((n + 1) % 65536)
        idle0 := if idle then activeMask s else x.idle0, idle1 := if idle then idleWord1 s l else x.idle1
        dreqIn := if drsp then none else x.dreqIn
        t1 := if idle && bit f.hdr.xflags 15 then some now else x.t1 }))

/-- IDLE_TIMER (R278): no frame has been sent for 5 µs. -/
def execIdleTimer (t : Time) (l : Lane) (s : State) : Outcome State Fault Refusal :=
  let s := s.at t
  .next (if isYarid s l && laneActive s l && (lnOf s l).txq.isEmpty && decide ((lnOf s l).lastTx + 5 * usT ≤ s.clk) then
    sendOn s l 6 (idleFrame s l 0)
  else s)

/-- An IDLE frame arrives, its start block stamped at `rx` (R61, R278, R287, R302): link status, a delay request to
answer, or the answer to this cell's request. -/
def idleRx (s : State) (l : Nat) (rx : Time) (fr : Frame) : State :=
  let (ok, s) := rxCheck s l fr
  match fr.body with
  | .idle w0 w1 =>
    if !ok then s
    else
      let x := fr.hdr.xflags
      let req := (isChainLane s l || isDownPort s l) && bit w1 0
      let s := lnMod s l (fun y => { y with far0 := w0, far1 := if isPeerLane s l then w1 else 0, bootReq := req })
      let s := if bit x 15 then
          sendOn (lnMod s l (fun y => { y with dreqIn := some (stampAt s l rx) })) l 6 (idleFrame s l 0x4000) else s
      let s := match (lnOf s l).t1 with
        | some t1 =>
          let t4 := stampAt s l rx
          if bit x 14 && isUpPort s l && decide (t4 ≤ t1 + 10 * usT) then
            delayTake (lnMod s l (fun y => { y with t1 := none })) l (((t4 : Int) - t1 - (x % 2 ^ 14 * 16384 : Nat)) / 2)
          else s
        | none => s
      linkStatus s
  | _ => s

/-! ## Relay (R279 to R281, R303) -/

/-- R280: a frame at a port of a cell is relayed. -/
def relays (s : State) (l : Nat) (h : Hdr) : Bool :=
  laneActive s l && h.ty != 0 && h.ty != 8 &&
  (if isUpPort s l then
    h.chain == myChain s && h.sid == l && h.hop == myPos s
      && (if h.ty == 1 || h.ty == 7 then decide (myPos s < h.pos) else h.ty == 3 || h.ty == 4)
  else isDownPort s l && h.up && h.hop + myPos s + 1 == h.pos)

/-- The copy of a frame that a relay sends: HOP is incremented, and in a TIME frame the residence and the ingress delay are
added to CORR (R280, R281, R303). -/
def relayCopy (s : State) (l : Nat) (fr : Frame) (res : Time) : Frame :=
  let h := { fr.hdr with hop := fr.hdr.hop + 1 }
  match fr.body with
  | .time o corr cyc ts =>
    if s.flag TIM_PDLY_VALID l then ⟨h, .time o (corr + res + ingress s l) cyc ts⟩
    else ⟨{ h with xflags := putBit h.xflags 1 true }, .time o (corr + res) cyc ts⟩
  | b => ⟨h, b⟩

/-- The priority of a frame type (Table 11.2). -/
def tyPrio (ty : Nat) : Nat := [6, 2, 4, 1, 0, 3, 3, 5, 6].getD ty 6

/-- A cell abandons its own IDLE or CAPS frame on a downstream port (R279). A delay response that was still to be sent
stays so (R302). -/
def abandon (s : State) (out : Nat) : State :=
  match (lnOf s out).sent with
  | some f =>
    if txBusy s out && (f.hdr.ty == 0 || f.hdr.ty == 8) then
      lnMod s out (fun x => { x with cutOff := some f })
    else s
  | none => s

/-- FRAME_RELAY (R279 to R281, R303): a frame is ready at the other end of its path, `res` after its start block here. A
downstream relay never waits; an upstream one waits, by its priority, until the output is free. -/
def execFrameRelay (t : Time) (l : Lane) (fr : Frame) (res : Time) (s : State) : Outcome State Fault Refusal :=
  let s := s.at t
  let out := if l.val < 4 then l.val + 4 else l.val - 4
  .next (if !relays s l fr.hdr then s
  else
    let s := lnMod s l (fun x => { x with lastGood := s.clk })
    let s := if fr.hdr.ty == 2 && fr.hdr.pos == myPos s + 1 then lnMod s l (fun x => { x with bootReq := false }) else s
    if !laneActive s out then s.satAdd LNK_CNT3_DISCARD l
    else
      let g := relayCopy s l fr res
      let inAt := stampAt s out s.clk - res
      let s := lnMod s out (fun x => { x with relLast := some g })
      if 4 ≤ l.val && (txBusy s out || !(lnOf s out).txq.isEmpty) then
        lnMod s out (fun x => { x with txq := x.txq ++ [(tyPrio fr.hdr.ty, g)], relIn := x.relIn ++ [(g, inAt, false)] })
      else relayStart (if l.val < 4 then abandon s out else s) out g inAt false)

/-- The relayed copy at lane `out` of a frame that ended badly ends with an error block, be it being sent or waiting: it is
the copy of the frame that came last at the input (R281). -/
def relayBad (s : State) (out : Nat) : State :=
  lnMod s out (fun x =>
    if x.relIn.any (fun r => some r.1 == x.relLast) then
      { x with relIn := x.relIn.map (fun r => if some r.1 == x.relLast then (r.1, r.2.1, true) else r) }
    else if x.relLast.isSome && x.sent == x.relLast then { x with sentBad := true } else x)

/-- FRAME_CUT_SHORT (R280, R281, R288): a frame that does not end well is counted; the relay ends its copy with an error
block. -/
def execFrameCutShort (t : Time) (l : Lane) (kind : BadEnd) (relayed : Bool) (s : State) :
    Outcome State Fault Refusal :=
  let s := s.at t
  let st := laneState s l
  .next (if !isYarid s l || st < L_LOCK || st == L_TEST then s
  else
    let F := match kind with | .cut => LNK_CNT0_PARTIAL | .errorBlock => LNK_CNT1_RELAYBAD | .badCrc => LNK_CNT0_CRC
    let s := s.satAdd F l
    if relayed && (isUpPort s l || isDownPort s l) then
      relayBad s (if l.val < 4 then l.val + 4 else l.val - 4)
    else s)

/-! ## Triggers over the link -/

/-- A TRIG frame goes on to the lanes of R273. -/
def routeTrig (s : State) (l : Nat) (t0 cause origin tseq : Nat) : State :=
  if !isStack s then s
  else
    let lanes := if isPeerLane s l then List.range 24 else List.range 26
    sendTrig s (dueLanes s lanes) t0 cause origin tseq

/-- TRIG_FRAME (R273, R365): the first copy of each origin and sequence within 1 ms is acted on and routed. -/
def execTrigFrame (t : Time) (l : Lane) (fr : Frame) (s : State) : Outcome State Fault Refusal :=
  let (ok, s) := rxCheck (s.at t) l fr
  .next (match fr.body with
  | .trig t0 cause origin tseq =>
    if !ok then s
    else
      let live := s.link.trigSeen.filter (fun e => decide (s.clk < e.2.2 + msT))
      if live.any (fun e => e.1 == origin && e.2.1 == tseq) then { s with link.trigSeen := live }
      else
        let s := { s with link.trigSeen := live ++ [(origin, tseq, s.clk)] }
        captureLink (routeTrig s l t0 cause origin tseq) t0 cause origin tseq
  | _ => s)

/-- XCHK_FRAME (R275, R336). -/
def execXchkFrame (t : Time) (l : Lane) (fr : Frame) (s : State) : Outcome State Fault Refusal :=
  let (ok, s) := rxCheck (s.at t) l fr
  .next (match fr.body with
  | .xchk ws =>
    if ok then xchkRx s fr.hdr.sid (fr.hdr.chain * 8 + fr.hdr.pos) fr.hdr.cycle fr.hdr.xflags ws else s
  | _ => s)

end Sys2Proof.Machine
end

