-- ==== Sys2Proof/Machine/Kiln.lean ====
section
/-! DEFINITION. The kiln (Chapter 15): the scan's decisions on sensors, groups, levels and trips (R369 to R376), and its
registers (R373, R377). -/

namespace Sys2Proof.Machine
open Host

/-- Record a refusal in KILN_ERR. -/
def kilnErr (s : State) (m : Nat) (st : Status) : State :=
  recErr s KILN_ERR_VALID KILN_ERR_MULTI [(KILN_ERR_MASTER, 0, m), (KILN_ERR_STATUS, 0, st.code)]
def kilnGuard (m : Nat) (st : Status) (eff : State → State) (s : State) : Status × State :=
  if st == .ok then (.ok, eff s) else (st, kilnErr s m st)

/-! ## Sensors -/

/-- KILN_SBROKEN of a sensor. -/
def sBroken (s : State) (n : Nat) : Bool :=
  if n < 32 then bit (s.fget KILN_SBROKEN0_B) n else bit (s.fget KILN_SBROKEN1_B) (n - 32)
def putBroken (s : State) (n : Nat) (b : Bool) : State :=
  if n < 32 then s.fset KILN_SBROKEN0_B 0 (putBit (s.fget KILN_SBROKEN0_B) n b)
  else s.fset KILN_SBROKEN1_B 0 (putBit (s.fget KILN_SBROKEN1_B) (n - 32) b)

def enabledSensors (s : State) : List Nat := (List.range 44).filter (fun n => s.flag KILN_SCFG_EN n)
def groupOf (s : State) (n : Nat) : Nat := s.fget KILN_SCFG_GROUP n
/-- The group trips (R372). -/
def groupTrips (s : State) (g : Nat) : Bool := bit s.kiln.tripT g || bit s.kiln.tripB g

/-- WHY 1 or 2 of R370: 1 open, 2 short, 0 neither. External inputs only. -/
def openShort (s : State) (x : Scan) : Nat :=
  if x.sensor < 12 then 0
  else if s.fget KILN_SCFG_KIND x.sensor == 1 then
    if 950000 < x.vf10 then 1 else if x.vf160 < 150000 then 2 else 0
  else if 1500000 < x.ohms then 1 else if x.ohms < 20 then 2 else 0

/-- A reading is kept as itself plus 2¹⁶; 0 is none. -/
def keepT (t : Int) : Nat := (t + 65536).toNat
def readT (w : Nat) : Int := (w : Int) - 65536

/-- The natural logarithm of n/d in units of 2⁻⁴⁸, for 2⁻⁴⁸ ≤ n/d. -/
def lnFix (n d : Nat) : Int :=
  let a := max 1 (n * 2 ^ 48 / max d 1)
  let e : Int := (a.log2 : Int) - 48
  let m := if 0 ≤ e then a / 2 ^ e.toNat else a * 2 ^ (-e).toNat
  let z := (m - 2 ^ 48) * 2 ^ 48 / (m + 2 ^ 48)
  let zz := z * z / 2 ^ 48
  let sum := (List.range 16).foldl (fun (x : Nat × Nat) k => (x.1 + x.2 / (2 * k + 1), x.2 * zz / 2 ^ 48)) (0, z)
  2 * sum.1 + e * 195103586505167

/-- A diode's temperature in K (R369): the difference of its forward voltages, in µV, over (k/q) ln 16 = 238.923 µV/K
(PRESUMED: the diode law, assumption 56) and the ideality factor in units of 2⁻¹⁴. -/
def diodeK (x : Scan) (ideal : Nat) : Option Q :=
  (Q.ofInt (((x.vf160 : Int) - x.vf10) * 16384 * 100000000)).div (Q.ofNat (ideal * 23892321018))

/-- An NTC's temperature in K (R369): 1/T = 1/298.15 + ln(R/R25)/β (PRESUMED: the β law, assumption 56). -/
def ntcK (x : Scan) (beta r25 : Nat) : Option Q :=
  if beta == 0 || r25 == 0 then none
  else
    let d : Int := 100 * beta * 2 ^ 48 + 29815 * lnFix (max x.ohms 1) (10 * r25)
    if d ≤ 0 then some (Q.ofNat 100000) else (Q.ofInt (29815 * beta * 2 ^ 48)).div (Q.ofInt d)

/-- The bias of an NTC in µA (R369): the largest that keeps the ball voltage at 1.5 V or less, else the smallest. -/
def ntcBias (ohms : Nat) : Nat := ([1000, 100, 10].find? (fun b => decide (b * ohms ≤ 1500000))).getD 1

/-- A reading in units of 1/16 °C (R369): an on-die sensor's is its measurement; an external input's follows from its
voltages or its resistance and KILN_SPARn, and `temp` is the measurement's deviation from that. Parameters that R377 gives
no reset value and no meaning at 0 leave it open. -/
def reading (s : State) (x : Scan) : Int :=
  let n := x.sensor
  let hi := s.fget KILN_SPAR_HI n
  let lo := s.fget KILN_SPAR_LO n
  let celsius (k : Option Q) (ofs : Int) : Int := match k with
    | some q => ((q.mul (Q.ofNat 16)).sub ⟨437040, 100⟩).round + ofs + x.temp
    | none => toSigned 16 (Config.fwArith 40 hi lo)
  let v := if n < 12 then x.temp
    else if s.fget KILN_SCFG_KIND n == 1 then celsius (diodeK x lo) (toSigned 16 hi)
    else celsius (ntcK x hi lo) 0
  max (-32768) (min 32767 v)

/-- One sensor's part of a scan (R370): its break, or its measured reading. -/
def scanSensor (s : State) (x : Scan) : State :=
  let n := x.sensor
  let temp := reading s x
  let why12 := openShort s x
  let k := s.kiln
  let same := if smGet 0 k.raw n == x.raw + 1 then smGet 0 k.same n + 1 else 1
  let stuckN := s.fget KILN_CFG_STUCK_N
  let slope := s.fget KILN_CFG_SLOPE
  let prev := smGet 0 k.meas n
  let slow := prev == 0 || slope == 0 || decide ((temp - readT prev).natAbs ≤ 4 * slope)
  let why := if why12 != 0 then why12 else if stuckN != 0 && decide (stuckN < same) then 3 else if slow then 0 else 4
  let was := sBroken s n
  let s := { s with kiln := { k with
    raw := smSet 0 k.raw n (x.raw + 1), same := smSet 0 k.same n same, meas := smSet 0 k.meas n (keepT temp)
    latest := smSet 0 k.latest n (keepT temp)
    bias := smSet 0 k.bias n (if s.fget KILN_SCFG_KIND n == 2 then ntcBias x.ohms else 0)
    cond := smSet 0 k.cond n why12
    good := if why == 0 && !was then smSet 0 k.good n (keepT temp) else k.good } }
  if was then s
  else if why != 0 then
    let s := (putBroken s n true).fsets [(KILN_T_BROKEN, n, 1), (KILN_T_WHY, n, why), (KILN_EVT_BROKEN, 0, 1)]
    s.satAdd KILN_CNT_BROKEN 0
  else s.fset KILN_T_T n (ofSigned 16 temp)

/-- A broken sensor reports BT of its group. -/
def showBroken (s : State) : State :=
  (enabledSensors s).foldl (fun s n =>
    if sBroken s n then s.fset KILN_T_T n (s.fget KILN_GCFG_BT (groupOf s n)) else s) s

/-! ## Groups -/

def members (s : State) (g : Nat) : List Nat := (enabledSensors s).filter (fun n => groupOf s n == g)
def brokenCount (s : State) (g : Nat) : Nat := ((members s g).filter (sBroken s)).length

/-- A group's value (R371): none for a disabled group, and for one with no enabled member. -/
def groupValue (s : State) (g : Nat) : Option Int :=
  if !s.flag KILN_GCFG_EN g then none
  else match (members s g).map (fun n => toSigned 16 (s.fget KILN_T_T n)) with
    | [] => none
    | a :: l => some (l.foldl max a)

def thr (s : State) (g k : Nat) : Int :=
  toSigned 16 (s.fget ([KILN_GTH0_TH1, KILN_GTH0_TH2].getD (k - 1) KILN_GTH1_TH3) g)

/-- The level moves by R371: up to the highest threshold reached, down one step below the threshold in force less
HYST. -/
def nextLevel (s : State) (g lvl : Nat) (v : Int) : Nat :=
  let up := if thr s g 3 ≤ v then 3 else if thr s g 2 ≤ v then 2 else if thr s g 1 ≤ v then 1 else 0
  if lvl < up then up
  else if lvl != 0 && decide (v < thr s g lvl - s.fget KILN_GCFG_HYST g) then lvl - 1
  else lvl

/-- One group's part of a scan (R371, R372). -/
def scanGroup (s : State) (g : Nat) : State :=
  let k := s.kiln
  match groupValue s g with
  | none =>
    { s with kiln := { k with level := smSet 0 k.level g 0, overs := smSet 0 k.overs g 0
                              tripT := putBit k.tripT g false, tripB := putBit k.tripB g false
                              valued := putBit k.valued g false } }.fset KILN_GVAL_T g 0
  | some v =>
    let trip := toSigned 16 (s.fget KILN_GTH1_TRIP g)
    let more := if trip ≤ v then min (smGet 0 k.overs g + 1) 15 else 0
    let tT := if bit k.tripT g then decide (trip - s.fget KILN_GCFG_HYST g ≤ v)
      else decide (s.fget KILN_CFG_TFILT ≤ more)
    { s with kiln := { k with level := smMod 0 k.level g (fun l => nextLevel s g l v), overs := smSet 0 k.overs g more
                              tripT := putBit k.tripT g tT, tripB := putBit k.tripB g (decide (2 ≤ brokenCount s g))
                              valued := putBit k.valued g true } }.fset
      KILN_GVAL_T g (ofSigned 16 v)

/-- The throttle level, the trips and the frozen compensation at a scan's end (R371 to R376). -/
def kilnOutputs (s : State) : State :=
  let lvl := ((List.range 8).map (smGet 0 s.kiln.level)).foldl max 0
  let old := s.fget KILN_STAT_LEVEL
  let trips := (List.range 8).foldl (fun w g => w + b2n (groupTrips s g) * 2 ^ g) 0
  let broken := (List.range 8).foldl (fun w g => w + b2n (decide (1 ≤ brokenCount s g)) * 2 ^ g) 0
  let s := s.fsets [(KILN_STAT_LEVEL, 0, lvl), (KILN_STAT_TRIPG, 0, trips), (KILN_STAT_BROKENG, 0, broken),
    (KILN_STAT_CFROZEN, 0, b2n (sBroken s (s.fget KILN_COMPSEL_OSCSNS))),
    (KILN_STAT_RFROZEN, 0, b2n (sBroken s (s.fget KILN_COMPSEL_REFSNS)))]
  let s := if old < lvl then s.satAdd KILN_CNT_LEVELUP 0 else s
  let s := if old == lvl then s else
    let (d, s) := drawBetween s (2 * nsT) (3 * nsT)
    { s with kiln := { s.kiln with arrive := s.clk + d, was := old } }
  if trips != 0 then
    let s := s.fsets [(KILN_STAT_TRIP, 0, 1), (KILN_EVT_TRIP, 0, if s.flag KILN_STAT_TRIP then s.fget KILN_EVT_TRIP else 1)]
    let s := srcAssert s SRC_KILN_TRIP
    if isStack s then stackSafe s CA_KILN else enterSafe s CA_KILN
  else srcRelease (s.fset KILN_STAT_TRIP 0 0) SRC_KILN_TRIP

/-- A scan measures every enabled sensor (R369). -/
def scanWhole (s : State) (scan : List Scan) : Bool :=
  (enabledSensors s).all (fun n => scan.any (fun x => x.sensor == n))

/-- KILN_SCAN_END (R369 to R376): 1 ms after the scan before. -/
def execKilnScanEnd (t : Time) (scan : List Scan) (s : State) : Outcome State Fault Refusal :=
  let s := s.at t
  .next (if recent s.kiln.scanAt msT s.clk || !scanWhole s scan then s
  else
    let s := { s with kiln.scanAt := some s.clk }
    let s := (scan.filter (fun x => s.flag KILN_SCFG_EN x.sensor && decide (x.sensor < 44))).foldl scanSensor s
    kilnOutputs ((List.range 8).foldl scanGroup (showBroken s)))

/-- The level that the mash engine sees at a boundary (R374): a level that has not crossed yet applies later. -/
def kilnLevel (s : State) : Nat := if s.kiln.arrive ≤ s.clk then s.fget KILN_STAT_LEVEL else s.kiln.was

/-! ## Registers -/

/-- A W1C write of KILN_SBROKEN0 or 1 (R370): a clear is ignored while the condition of WHY 1 or 2 still holds, and
restarts the test of WHY 3 or of WHY 4; the sensor reports measured values again. -/
def sbrokenEff (i w : Nat) (s : State) : Status × State :=
  (.ok, (List.range 32).foldl (fun s j =>
    let n := 32 * i + j
    if !bit w j || !decide (n < 44) || !sBroken s n then s
    else
      let why := s.fget KILN_T_WHY n
      let k := s.kiln
      if why ≤ 2 && smGet 0 k.cond n == why && why != 0 then s
      else
        let last := smGet 0 k.latest n
        let s := (putBroken s n false).fsets [(KILN_T_BROKEN, n, 0), (KILN_T_WHY, n, 0)]
        let s := if last == 0 then s else s.fset KILN_T_T n (ofSigned 16 (readT last))
        { s with kiln := { k with
          raw := if why == 3 then smSet 0 k.raw n 0 else k.raw, same := if why == 3 then smSet 0 k.same n 0 else k.same
          meas := if why == 4 then smSet 0 k.meas n 0 else k.meas } }) s)

/-- KILN_BROKEN_CLEAR (R370). -/
def execKilnBrokenClear (m : Master) (n : Fin 2) (w : Word) (s : State) : Outcome State Fault Refusal :=
  .next (rowWrite s m (0x50018 + 4 * n.val) w false (sbrokenEff n w.toNat))

/-- A W1C write of KILN_EVT (R372). -/
def kilnEvtEff (w : Nat) (s : State) : Status × State :=
  let s := if bit w 31 && !s.flag KILN_STAT_TRIP then s.fset KILN_EVT_TRIP 0 0 else s
  (.ok, if bit w 30 then s.fset KILN_EVT_BROKEN 0 0 else s)

/-- A threshold or BT from −40 to 200 °C. -/
def degOk (w : Nat) : Bool := decide (-640 ≤ toSigned 16 w) && decide (toSigned 16 w ≤ 3200)

/-- The check of a group's enable (R373). -/
def groupCheck (s : State) (g : Nat) : Status :=
  let v (F : Fld) := s.fget F g
  let sg (F : Fld) := toSigned 16 (v F)
  let t1 := sg KILN_GTH0_TH1
  let t2 := sg KILN_GTH0_TH2
  firstStatus [
    chk (! [KILN_GTH0_TH1, KILN_GTH0_TH2, KILN_GTH1_TH3, KILN_GTH1_TRIP, KILN_GCFG_BT].all (fun F => degOk (v F))) .range,
    chk (!(decide (t1 < t2) && decide (t2 < sg KILN_GTH1_TH3) && decide (sg KILN_GTH1_TH3 ≤ sg KILN_GCFG_BT)
      && decide (sg KILN_GCFG_BT < sg KILN_GTH1_TRIP) && decide ((v KILN_GCFG_HYST : Int) < t2 - t1))) .conflict]

/-- A write of KILN_GCFGg (R373). -/
def kilnGcfgEff (m g w : Nat) (s : State) : Status × State :=
  let en := bit w 31
  let was := s.flag KILN_GCFG_EN g
  let other := bits w 8 16 != s.fget KILN_GCFG_BT g || w % 256 != s.fget KILN_GCFG_HYST g
  let r := s.fsets [(KILN_GCFG_BT, g, bits w 8 16), (KILN_GCFG_HYST, g, w), (KILN_GCFG_EN, g, b2n en)]
  kilnGuard m (firstStatus [chk (was && other) .conflict, chk (was && !en && groupTrips s g) .conflict,
    if en && !was then groupCheck r g else .ok]) (fun _ => r) s

/-- KILN_GROUP_ENABLE (R373). -/
def execKilnGroupEnable (m : Master) (g : Grp) (w : Word) (s : State) : Outcome State Fault Refusal :=
  .next (rowWrite s m (0x50408 + 16 * g.val) w false (kilnGcfgEff m g w.toNat))

/-- A write of KILN_GTH0g or KILN_GTH1g (R373). -/
def gthEff (m g : Nat) (hi lo : Fld) (w : Nat) (s : State) : Status × State :=
  kilnGuard m (chk (s.flag KILN_GCFG_EN g && (bits w 16 16 != s.fget hi g || w % 65536 != s.fget lo g)) .conflict)
    (fun s => s.fsets [(hi, g, bits w 16 16), (lo, g, w)]) s

/-- A write of KILN_SCFGn (R373, Table 15.2). A sensor that is disabled, and enabled again, has no previous scan; it stays
broken until it is cleared (R370). -/
def scfgEff (m n w : Nat) (s : State) : Status × State :=
  let en := bit w 31
  let kind := bits w 28 3
  let was := s.flag KILN_SCFG_EN n
  let other := kind != s.fget KILN_SCFG_KIND n || bits w 24 3 != groupOf s n
  kilnGuard m (firstStatus [chk (if n < 12 then kind != 0 else kind != 1 && kind != 2) .range,
    chk (was && other) .conflict, chk (was && !en && groupTrips s (groupOf s n)) .conflict]) (fun s =>
      let s := s.fsets [(KILN_SCFG_KIND, n, kind), (KILN_SCFG_GROUP, n, bits w 24 3), (KILN_SCFG_EN, n, b2n en)]
      if en == was then s
      else
        let k := s.kiln
        { s with kiln := { k with raw := smSet 0 k.raw n 0, same := smSet 0 k.same n 0, meas := smSet 0 k.meas n 0
                                  cond := smSet 0 k.cond n 0, latest := smSet 0 k.latest n 0 } }) s

/-- A write of KILN_SPARn (R373, Table 15.2): an NTC's BETA and R25, or a diode's offset and ideality factor. -/
def sparEff (m n w : Nat) (s : State) : Status × State :=
  let hi := bits w 16 16
  let lo := w % 65536
  let kind := s.fget KILN_SCFG_KIND n
  kilnGuard m (firstStatus [
    chk (kind == 2 && (hi == 0 || lo == 0)) .range, chk (kind == 1 && (decide (lo < 14746) || decide (18022 < lo))) .range,
    chk (s.flag KILN_SCFG_EN n && (hi != s.fget KILN_SPAR_HI n || lo != s.fget KILN_SPAR_LO n)) .conflict])
    (fun s => s.fsets [(KILN_SPAR_HI, n, hi), (KILN_SPAR_LO, n, lo)]) s

/-- Writes of KILN_CFG and KILN_COMPSEL. -/
def kilnCfgEff (m w : Nat) (s : State) : Status × State :=
  kilnGuard m (chk (bits w 24 4 == 0) .zeroNotAllowed) (fun s =>
    s.fsets [(KILN_CFG_TFILT, 0, bits w 24 4), (KILN_CFG_SLOPE, 0, bits w 16 8), (KILN_CFG_STUCK_N, 0, w)]) s
def compselEff (m w : Nat) (s : State) : Status × State :=
  kilnGuard m (chk (43 < bits w 8 6 || 43 < w % 64) .range) (fun s =>
    s.fsets [(KILN_COMPSEL_REFSNS, 0, bits w 8 6), (KILN_COMPSEL_OSCSNS, 0, w)]) s

end Sys2Proof.Machine
end

