-- ==== Sys2Proof/Machine/MashBlocks.lean ====
section
/-! DEFINITION. The block library of the mash engine (R131 to R141) as functions of inputs, parameters and state. Outputs
are computed in binary32, operation by operation; a state word is updated exactly and rounded once to binary64 (R121).
`none` stands for an operation that yields a NaN or an infinity. -/

namespace Sys2Proof.Machine

/-! ## Sine and cosine (R121) -/

/-- π to 60 bits, as a fraction. -/
def piQ : Q := ⟨3622009729038561421, 2 ^ 60⟩

/-- A series with terms t·x²/((k+1)(k+2)), signs alternating, in units of 2⁻⁸⁰. -/
def trigSeries (x2 : Int) : Nat → Nat → Int → Int → Int
  | 0, _, _, acc => acc
  | n + 1, k, t, acc =>
    let t' := -(t * x2 / 2 ^ 80) / ((k + 1) * (k + 2) : Nat)
    trigSeries x2 n (k + 2) t' (acc + t')

/-- An angle reduced to a turn around 0, in units of 2⁻⁸⁰. -/
def turnFix (x : Q) : Int :=
  let tau := piQ.mul (Q.ofNat 2)
  let n := ((x.div tau).getD (Q.ofNat 0)).round
  ((x.sub (tau.mul (Q.ofInt n))).mul (Q.ofNat (2 ^ 80))).round

/-- The engine's deviation, within 1.2 × 10⁻⁷ less half a unit of the last place, in units of 2⁻⁴⁰. -/
def trigDev (v : Nat) : Q := ⟨((v % 198327 : Nat) : Int) - 99163, 2 ^ 40⟩

def trigEval (f : Int → Int) (dev : Nat → Nat) (op w : Nat) : Option Nat :=
  if !f32fin w then none
  else if (Q.ofNat 256).lt (f32v w).abs then some (Config.fwArith op w 0 % 2 ^ 32)
  else
    let v : Q := (⟨f (turnFix (f32v w)), 2 ^ 80⟩ : Q).add (trigDev (dev w))
    f32r (v.clamp (Q.ofInt (-1)) (Q.ofInt 1))

def sinF (w : Nat) : Option Nat := trigEval (fun x => trigSeries (x * x / 2 ^ 80) 20 1 x x) Config.sinDev 20 w
def cosF (w : Nat) : Option Nat := trigEval (fun x => trigSeries (x * x / 2 ^ 80) 20 0 (2 ^ 80) (2 ^ 80)) Config.cosDev 21 w

/-- √ of a binary32 word. -/
def sqrtF (w : Nat) : Option Nat := if f32fin w && !fSign b32 w then qSqrt32 (f32v w) else none

/-! ## Interfaces -/

/-- How a stateful block acts in one execution (R126). -/
inductive Act where
  | run | reset | hold | track
  deriving DecidableEq, Repr

/-- What a block reads: its scalar operands A to F, its parameters, vectors of nodes (value and QUAL), its state, its
previous outputs and Ts. -/
structure BlkIn where
  op : Nat → Nat
  par : Nat → Nat
  vec : Nat → Nat → Nat × Bool
  st : List Nat
  prev : List Nat
  act : Act
  ts : Q

/-- What a block gives: outputs with QUAL, state, SUB on its first output, events of PLAUS. -/
structure BlkOut where
  outs : List (Nat × Bool)
  st : List Nat := []
  sub : Bool := false
  flagged : Bool := false
  raised : Bool := false
  /-- A lower limit exceeds its upper limit: outputs and state stay, with QUAL (R131). -/
  keep : Bool := false

def okOut (l : List Nat) (st : List Nat := []) : Option BlkOut := some { outs := l.map (fun w => (w, false)), st }
def keepOut : Option BlkOut := some { outs := [], keep := true }

/-- sat: +1 at the upper limit, −1 at the lower (R131). -/
def satF (v lo hi : Nat) : Nat := if f32le hi v then F_ONE else if f32le v lo then F_MONE else 0

/-- A state word as binary32. -/
def st32 (w : Nat) : Option Nat := f32ofF64 w
def nth (l : List Nat) (i : Nat) : Nat := l.getD i 0

def mulF (a b : Option Nat) : Option Nat := match a, b with | some x, some y => f32mul x y | _, _ => none
def addF (a b : Option Nat) : Option Nat := match a, b with | some x, some y => f32add x y | _, _ => none
def subF (a b : Option Nat) : Option Nat := match a, b with | some x, some y => f32sub x y | _, _ => none
def divF (a b : Option Nat) : Option Nat := match a, b with | some x, some y => f32div x y | _, _ => none

/-- A binary32 word plus a state word, rounded once to binary32. -/
def addS (a : Option Nat) (w : Nat) : Option Nat :=
  match a with
  | some x => if f32fin x && f64fin w then fRound b32 (fSign b32 x && fSign b64 w) ((f32v x).add (f64v w)) else none
  | none => none
/-- A clamp that gives a finite word (R121). -/
def clampF (x lo hi : Nat) : Option Nat :=
  let u := f32clamp x lo hi
  if f32nan lo || f32nan hi || !f32fin u then none else some u
def maxF (a b : Nat) : Option Nat := if f32fin a && f32fin b then some (f32max a b) else none

/-! ## Controllers (R132) -/

/-- w = Kaw·(u − v) + aw. -/
def windF (kaw u v aw : Nat) : Option Nat := addF (mulF (some kaw) (f32sub u v)) (some aw)

/-- PI. TRACK sets the integrator to F − Kp·e, rounded once to binary64, and v is F itself (R126). -/
def blkPi (x : BlkIn) : Option BlkOut := do
  let kp := x.par 0
  let lo := x.par 3
  let hi := x.par 4
  if f32lt hi lo then keepOut
  else
    let e ← f32sub (x.op 0) (x.op 1)
    let ke ← f32mul kp e
    let i0 ← match x.act with
      | .reset => f64ofF32 (x.par 5)
      | .track => f64r ((← qOf (x.op 5)).sub (f32v ke))
      | _ => some (nth x.st 0)
    let v ← if x.act == .track then some (x.op 5) else addS (some ke) i0
    let u ← clampF v lo hi
    let i1 ← if x.act == .run then do
        let w ← windF (x.par 2) u v (x.op 2)
        f64r ((f64v i0).add (x.ts.mul (((← qOf (x.par 1)).mul (f32v e)).add (f32v w))))
      else some i0
    okOut [u, satF v lo hi] [i1]

def blkPid (mode : Nat) (x : BlkIn) : Option BlkOut := do
  let kp := x.par 0
  let lo := x.par 5
  let hi := x.par 6
  if f32lt hi lo then keepOut
  else
    let e ← f32sub (x.op 0) (x.op 1)
    let ed := if mode == 1 then f32neg (x.op 1) else e
    let ke ← f32mul kp e
    let fresh := x.act == .reset
    let d0 := if fresh then 0 else nth x.st 1
    let p0 := if fresh then 0 else nth x.st 2
    let d1 ← if x.act == .run then do
        let dd := (f32v ed).sub (f64v p0)
        let g ← x.ts.div ((← qOf (x.par 3)).add x.ts)
        let r ← ((← qOf (x.par 2)).mul dd).div x.ts
        f64r ((f64v d0).add (g.mul (r.sub (f64v d0))))
      else some d0
    let p1 ← if x.act == .run then f64ofF32 ed else some p0
    let i0 ← match x.act with
      | .reset => f64ofF32 (x.par 7)
      | .track => f64r (((← qOf (x.op 5)).sub (f32v ke)).sub (f64v d1))
      | _ => some (nth x.st 0)
    let v ← if x.act == .track then some (x.op 5) else addS (addS (some ke) i0) d1
    let u ← clampF v lo hi
    let i1 ← if x.act == .run then do
        let w ← windF (x.par 4) u v (x.op 2)
        f64r ((f64v i0).add (x.ts.mul (((← qOf (x.par 1)).mul (f32v e)).add (f32v w))))
      else some i0
    okOut [u, satF v lo hi] [i1, d1, p1]

/-- Coefficients b0, a1, a2 of the resonant part, bilinear, pre-warped at ω0; b1 is 0 and b2 is −b0. -/
def prCoef (kr wc w0 : Nat) (ts : Q) : Option (Q × Q × Q) := do
  let (_, _, _) := (← qOf kr, ← qOf wc, ← qOf w0)
  let th ← f32r (((f32v w0).mul ts).mul ⟨1, 2⟩)
  let k ← ((f32v w0).mul (f32v (← cosF th))).div (f32v (← sinF th))
  let wc2 := (f32v wc).mul (Q.ofNat 2)
  let k2 := k.mul k
  let w2 := (f32v w0).mul (f32v w0)
  let den := (k2.add (wc2.mul k)).add w2
  let b0 ← (((f32v kr).mul wc2).mul k).div den
  let a1 ← ((w2.sub k2).mul (Q.ofNat 2)).div den
  let a2 ← ((k2.sub (wc2.mul k)).add w2).div den
  let r (q : Q) : Option Q := (f32r q).map f32v
  return (← r b0, ← r a1, ← r a2)

/-- PR: v solves v = Kp·e + ρ with w = Kaw·(u − v) + aw inside the drive of ρ; ρ is the resonant part's own output. -/
def blkPr (mode : Nat) (x : BlkIn) : Option BlkOut := do
  let kp := x.par 0
  let kr := x.par 1
  let lo := x.par 5
  let hi := x.par 6
  if f32lt hi lo then keepOut
  else
    let w0 := if mode == 1 then x.op 3 else x.par 3
    let (b0, a1, a2) ← prCoef kr (x.par 2) w0 x.ts
    let b0w ← f32r b0
    let e ← f32sub (x.op 0) (x.op 1)
    let s1 := if x.act == .reset then 0 else nth x.st 0
    let s2 := if x.act == .reset then 0 else nth x.st 1
    let drive0 ← addF (some e) (f32div (x.op 2) kr)
    let v0 ← addF (mulF (some kp) (some e)) (addS (mulF (some b0w) (some drive0)) s1)
    let u ← clampF v0 lo hi
    let g ← divF (mulF (some b0w) (some (x.par 4))) (some kr)
    let v ← if u == v0 then some v0 else divF (addF (some v0) (mulF (some g) (some u))) (f32add F_ONE g)
    let w ← windF (x.par 4) u v (x.op 2)
    let d ← addF (some e) (f32div w kr)
    let rho ← addS (mulF (some b0w) (some d)) s1
    if x.act == .run then
      let n1 ← f64r ((f64v s2).sub (a1.mul (f32v rho)))
      let n2 ← f64r (((b0.neg).mul (f32v d)).sub (a2.mul (f32v rho)))
      okOut [u, satF v lo hi] [n1, n2]
    else okOut [u, satF v lo hi] [s1, s2]

/-! ## Filters (R133) -/

def blkBiquad (x : BlkIn) : Option BlkOut := do
  let a := x.op 0
  let p (i : Nat) : Q := f32v (x.par i)
  let s1 := if x.act == .reset then 0 else nth x.st 0
  let s2 := if x.act == .reset then 0 else nth x.st 1
  let y ← addS (mulF (some (x.par 0)) (some a)) s1
  if x.act == .run then
    let _ ← [x.par 1, x.par 2, x.par 3, x.par 4].mapM qOf
    let n1 ← f64r ((((p 1).mul (f32v a)).sub ((p 3).mul (f32v y))).add (f64v s2))
    let n2 ← f64r (((p 2).mul (f32v a)).sub ((p 4).mul (f32v y)))
    okOut [y] [n1, n2]
  else okOut [y] [s1, s2]

def blkLeadlag (x : BlkIn) : Option BlkOut := do
  let a := x.op 0
  let kk := x.par 0
  let k ← ((Q.ofNat 2).div x.ts).bind f32r
  let xp ← if x.act == .reset then some 0 else st32 (nth x.st 0)
  let yp ← if x.act == .reset then some 0 else st32 (nth x.st 1)
  let k1 ← f32mul k (x.par 1)
  let k2 ← f32mul k (x.par 2)
  let one := some F_ONE
  let num ← subF (addF (mulF (addF one (some k1)) (some a)) (mulF (subF one (some k1)) (some xp)))
    (divF (mulF (subF one (some k2)) (some yp)) (some kk))
  let y ← divF (mulF (some kk) (some num)) (addF one (some k2))
  if x.act == .run then okOut [y] [← f64ofF32 a, ← f64ofF32 y]
  else okOut [y] (if x.act == .reset then [0, 0] else [nth x.st 0, nth x.st 1])

/-! ## Transforms and PLL (R134) -/

def clarkeF (a b c : Nat) : Option (Nat × Nat × Nat) := do
  let al ← divF (subF (subF (f32mul F_TWO a) (some b)) (some c)) (some F_THREE)
  let be ← divF (f32sub b c) (some F_SQRT3)
  let z ← divF (addF (f32add a b) (some c)) (some F_THREE)
  return (al, be, z)

def blkClarke (mode : Nat) (x : BlkIn) : Option BlkOut := do
  let a := x.op 0
  let b := x.op 1
  let c ← if mode == 1 then f32sub (f32neg a) b else some (x.op 2)
  let (al, be, z) ← clarkeF a b c
  okOut [al, be, z]

def parkF (al be th : Nat) : Option (Nat × Nat) := do
  let c ← cosF th
  let s ← sinF th
  return (← addF (f32mul al c) (f32mul be s), ← addF (f32mul (f32neg al) s) (f32mul be c))
def blkPark (x : BlkIn) : Option BlkOut := do
  let (d, q) ← parkF (x.op 0) (x.op 1) (x.op 2)
  okOut [d, q]

def iparkF (d q th : Nat) : Option (Nat × Nat) := do
  let c ← cosF th
  let s ← sinF th
  return (← subF (f32mul d c) (f32mul q s), ← addF (f32mul d s) (f32mul q c))
def blkIpark (mode : Nat) (x : BlkIn) : Option BlkOut := do
  let (al, be) ← iparkF (x.op 0) (x.op 1) (x.op 2)
  if mode == 1 then
    let h ← f32div (f32neg al) F_TWO
    let r ← divF (f32mul be F_SQRT3) (some F_TWO)
    okOut [al, be, al, ← f32add h r, ← f32sub h r]
  else okOut [al, be]

/-- An angle into [−π, π). -/
def wrapPi (x : Q) : Q :=
  let tau := piQ.mul (Q.ofNat 2)
  let n := (((x.add piQ).div tau).getD (Q.ofNat 0)).floor
  x.sub (tau.mul (Q.ofInt n))

def blkSrfpll (x : BlkIn) : Option BlkOut := do
  let al := x.op 0
  let be := x.op 1
  let p := x.par
  if f32lt (p 4) (p 3) then keepOut
  else
    let fresh := x.act == .reset
    let th0 := if fresh then 0 else nth x.st 0
    let i0 := if fresh then 0 else nth x.st 1
    let c0 := if fresh then 0 else (f64v (nth x.st 2)).floor.toNat
    let th ← st32 th0
    let s ← sinF th
    let c ← cosF th
    let vq ← addF (f32mul (f32neg al) s) (f32mul be c)
    let mag ← (addF (f32mul al al) (f32mul be be)).bind sqrtF
    let amp ← maxF mag (p 5)
    let e ← f32div vq amp
    let run := x.act == .run
    let i1 ← if run then do
        let lo := (← qOf (p 3)).sub (← qOf (p 2))
        let hi := (← qOf (p 4)).sub (← qOf (p 2))
        f64r ((((f64v i0).add (x.ts.mul ((← qOf (p 1)).mul (f32v e))))).clamp lo hi)
      else some i0
    let w ← addS (addF (some (p 2)) (f32mul (p 0) e)) i1
    let w ← clampF w (p 3) (p 4)
    let ae := f32abs e
    let th1 ← if run then f64r (wrapPi ((f64v th0).add (x.ts.mul (f32v w)))) else some th0
    let c1 ← if !run then some c0
      else if c0 == 64 then (f32mul F_TWO (p 6)).map (fun e2 => if f32lt ae e2 then 64 else 0)
      else some (if f32lt ae (p 6) then c0 + 1 else 0)
    okOut [th, w, amp, if c1 == 64 then F_ONE else 0] [th1, i1, (f64r (Q.ofNat c1)).getD 0]

/-! ## Limits and tables (R135) -/

def blkLimit (mode : Nat) (x : BlkIn) : Option BlkOut := do
  let lo := if mode == 1 then x.op 1 else x.par 0
  let hi := if mode == 1 then x.op 2 else x.par 1
  if f32lt hi lo then keepOut
  else if !f32fin (x.op 0) then none
  else
    let y ← clampF (x.op 0) lo hi
    okOut [y, satF (x.op 0) lo hi, ← f32sub y (x.op 0)]

def blkRatelim (x : BlkIn) : Option BlkOut := do
  let up := (← qOf (x.par 0)).mul x.ts
  let dn := ((← qOf (x.par 1)).mul x.ts).neg
  if up.lt dn then keepOut
  else if !f32fin (x.op 0) then none
  else
    let y0 ← match x.act with
      | .reset => f64ofF32 (x.op 0)
      | .track => f64ofF32 (x.op 5)
      | _ => some (nth x.st 0)
    let d := (f32v (x.op 0)).sub (f64v y0)
    let y1 ← if x.act == .run then f64r ((f64v y0).add (d.clamp dn up)) else some y0
    okOut [← st32 y1, if up.le d then F_ONE else if d.le dn then F_MONE else 0] [y1]

/-- Linear interpolation between two words. -/
def lerpF (a b f : Nat) : Option Nat := addF (some a) (mulF (some f) (f32sub b a))

/-- Where an input lies against a uniform grid of n points from x0 by steps dx: −1 before its first point, 1 beyond its
last, 0 between; none for a NaN, or a grid without steps. -/
def gridSide (x x0 dx n : Nat) : Option Int := do
  if f32nan x || !f32fin x0 || !f32fin dx then none
  else
    let d := f32v dx
    if f32fin x then
      let u ← ((f32v x).sub (f32v x0)).div d
      return if u.lt (Q.ofNat 0) then -1 else if (Q.ofInt ((n : Int) - 1)).lt u then 1 else 0
    else if d.isZero then none
    else return if fSign b32 x != decide (d.n < 0) then -1 else 1

/-- The interval and the fraction of an input on a uniform grid of n points, with the range output (R135): an input outside
the grid is clamped to the nearest edge. -/
def gridAt (x x0 dx n : Nat) : Option (Nat × Nat × Nat) := do
  let side ← gridSide x x0 dx n
  if side < 0 then return (0, 0, F_MONE)
  else if 0 < side then return (n - 2, F_ONE, F_ONE)
  else
    let u ← divF (f32sub x x0) (some dx)
    let c := f32clamp u 0 (f32ofInt ((n : Int) - 1))
    let i := min (f32v c).floor.toNat (n - 2)
    return (i, ← f32sub c (f32ofInt i), 0)

/-- The interval of ascending breakpoints in which a value lies. -/
def breakAt (par : Nat → Nat) (x n : Nat) : Nat :=
  ((List.range (n - 1)).filter (fun i => f32le (par (1 + i)) x)).length - 1

def blkTab1 (mode : Nat) (x : BlkIn) : Option BlkOut := do
  let n := (f32v (x.par 0)).floor.toNat
  let a := x.op 0
  if f32nan a then none
  else if mode == 0 then
    let (i, f, r) ← gridAt a (x.par 1) (x.par 2) n
    okOut [← lerpF (x.par (3 + i)) (x.par (4 + i)) f, r]
  else if (List.range (n - 1)).any (fun i => !f32lt (x.par (1 + i)) (x.par (2 + i))) then keepOut
  else
    let lo := x.par 1
    let hi := x.par n
    let r := if f32lt hi a then F_ONE else if f32lt a lo then F_MONE else 0
    let c := f32clamp a lo hi
    let i := breakAt x.par c n
    let f ← divF (f32sub c (x.par (1 + i))) (f32sub (x.par (2 + i)) (x.par (1 + i)))
    okOut [← lerpF (x.par (1 + n + i)) (x.par (2 + n + i)) f, r]

/-- TAB2. With both inputs outside the grid its one range output shows A's direction (DESIGN CHOICE, assumption 50). -/
def blkTab2 (x : BlkIn) : Option BlkOut := do
  let nx := (f32v (x.par 0)).floor.toNat
  let nz := (f32v (x.par 1)).floor.toNat
  let (i, f, r1) ← gridAt (x.op 0) (x.par 2) (x.par 3) nx
  let (j, g, r2) ← gridAt (x.op 1) (x.par 4) (x.par 5) nz
  let t (j i : Nat) := x.par (6 + j * nx + i)
  let y0 ← lerpF (t j i) (t j (i + 1)) f
  let y1 ← lerpF (t (j + 1) i) (t (j + 1) (i + 1)) f
  okOut [← lerpF y0 y1 g, if r1 != 0 then r1 else r2]

/-! ## State-space predictor (R136) and plausibility (R137) -/

def qSum (l : List Q) : Q := l.foldl Q.add (Q.ofNat 0)

def blkSsp (x : BlkIn) : Option BlkOut := do
  let i (k : Nat) := (f32v (x.par k)).floor.toNat
  let n := i 0
  let m := i 1
  let p := i 2
  let q := i 3
  let am := 4
  let bm := am + n * n
  let cm := bm + n * m
  let dm := cm + p * n
  let l := dm + p * m
  let x0 := l + n * q
  let par (k : Nat) : Q := f32v (x.par k)
  let u (j : Nat) : Q := f32v (x.vec 0 j).1
  let meas (j : Nat) : Q := f32v (x.vec 1 j).1
  let _ ← (List.range (p * n + p * m)).mapM (fun k => qOf (x.par (cm + k)))
  let _ ← (List.range m).mapM (fun j => qOf (x.vec 0 j).1)
  let _ ← if x.act == .run then
      (((List.range (n * n + n * m)).map (fun k => x.par (am + k)) ++ (List.range (n * q)).map (fun k => x.par (l + k))
        ++ (List.range q).map (fun j => (x.vec 1 j).1)).mapM qOf)
    else some []
  let st ← (List.range n).mapM (fun k => if x.act == .reset then f64ofF32 (x.par (x0 + k)) else some (nth x.st k))
  let xs (k : Nat) : Q := f64v (nth st k)
  let cx (r : Nat) : Q := qSum ((List.range n).map (fun k => (par (cm + r * n + k)).mul (xs k)))
  let ys ← (List.range p).mapM (fun r =>
    f32r ((cx r).add (qSum ((List.range m).map (fun k => (par (dm + r * m + k)).mul (u k))))))
  let next ← if x.act == .run then (List.range n).mapM (fun r =>
      f64r ((qSum ((List.range n).map (fun k => (par (am + r * n + k)).mul (xs k)))).add
        ((qSum ((List.range m).map (fun k => (par (bm + r * m + k)).mul (u k)))).add
          (qSum ((List.range q).map (fun k => (par (l + r * q + k)).mul ((meas k).sub (cx k))))))))
    else some st
  okOut ys next

def f64nat (n : Nat) : Nat := (f64r (Q.ofNat n)).getD 0

/-- State words of PLAUS: consecutive executions towards the next change, executions of substitution, and 0 sound, 1
flagged, 2 raised. -/
def blkPlaus (x : BlkIn) : Option BlkOut := do
  let y := x.op 0
  let yh := x.op 1
  let th := x.par 0
  let n := (f32v (x.par 1)).floor.toNat
  let m := (f32v (x.par 2)).floor.toNat
  let r ← (f32sub y yh).map f32abs
  let g (i : Nat) : Nat := if x.act == .reset then 0 else (f64v (nth x.st i)).floor.toNat
  let c := g 0
  let k := g 1
  let z := g 2
  let out (z : Nat) (st : List Nat) (flagged raised : Bool) : Option BlkOut :=
    let sub := z != 0 && m != 0
    some { outs := [(if sub then yh else y, false), (if z == 0 then 0 else F_ONE, false), (r, false)]
           st := st.map f64nat, sub, flagged, raised }
  if z == 2 then
    some { outs := [(nth x.prev 0, false), (F_ONE, false), (r, false)], st := [c, k, z].map f64nat, sub := m != 0 }
  else if x.act != .run then out z [c, k, z] false false
  else if z == 0 then
    let c := if f32lt th r then c + 1 else 0
    if c < n then out 0 [c, 0, 0] false false
    else if m == 0 then out 2 [0, 0, 2] true true
    else out 1 [0, 1, 1] true false
  else
    let c := if f32lt th r then 0 else c + 1
    if n ≤ c then out 0 [0, 0, 0] false false
    else if m ≤ k then out 2 [c, k, 2] false true
    else out 1 [c, k + 1, 1] false false

/-! ## Vector blocks (R138, R139) -/

/-- The elements used, with their positions: QUAL alone excludes one. -/
def usedOf (x : BlkIn) (n : Nat) : List (Nat × Nat) :=
  (List.range n).filterMap (fun j => let e := x.vec 0 j; if e.2 then none else some (j, e.1))
/-- Their values when all are finite: none where the block's output would be an infinity or a NaN (R121). -/
def usedFin (x : BlkIn) (n : Nat) : Option (List (Nat × Nat)) :=
  let used := usedOf x n
  if used.all (fun e => f32fin e.2) then some used else none

/-- Insertion by a strict order, after equal keys. -/
def insBy (lt : Nat × Nat → Nat × Nat → Bool) (e : Nat × Nat) : List (Nat × Nat) → List (Nat × Nat)
  | [] => [e]
  | h :: t => if lt e h then e :: h :: t else h :: insBy lt e t

def blkSort (mode n : Nat) (x : BlkIn) : Option BlkOut := do
  let used ← usedFin x n
  let lt (a b : Nat × Nat) : Bool := if mode == 1 then f32lt b.2 a.2 else f32lt a.2 b.2
  let sorted := used.foldl (fun l e => insBy lt e l) []
  let rest := ((List.range n).filter (fun j => !used.any (fun e => e.1 == j))).map (fun j => (j, (x.vec 0 j).1))
  some { outs := (sorted ++ rest).map (fun e => (f32ofInt e.1, false)) ++ sorted.map (fun e => (e.2, false))
           ++ rest.map (fun e => (e.2, true)) ++ [(f32ofInt used.length, false)] }

/-- VMAX, VMIN: a NaN among the used elements, or an infinity as the extreme, is no value (R121). -/
def blkExt (top : Bool) (n : Nat) (x : BlkIn) : Option BlkOut :=
  let used := usedOf x n
  let best := used.foldl (fun (b : Option (Nat × Nat)) e => match b with
    | none => some e
    | some c => if (if top then f32lt c.2 e.2 else f32lt e.2 c.2) then some e else some c) none
  match best with
  | none => some { outs := [(0, true), (F_MONE, false), (0, false)] }
  | some e => if used.any (fun e => f32nan e.2) || !f32fin e.2 then none else okOut [e.2, f32ofInt e.1, f32ofInt used.length]

def blkMean (n : Nat) (x : BlkIn) : Option BlkOut := do
  let used ← usedFin x n
  if used.isEmpty then some { outs := [(0, true), (0, false)] }
  else
    let m ← (qSum (used.map (fun e => f32v e.2))).div (Q.ofNat used.length)
    okOut [← f32r m, f32ofInt used.length]

/-- Insertion of a fraction into an ascending list. -/
def insQ (q : Q) : List Q → List Q
  | [] => [q]
  | h :: t => if q.lt h then q :: h :: t else h :: insQ q t

/-- One element of an allocation: limits, and base share plus g times score. -/
structure AllocEl where
  lo : Q
  hi : Q
  c : Q

def allocAt (els : List AllocEl) (lam : Q) : Q := qSum (els.map (fun e => (e.c.add lam).clamp e.lo e.hi))

/-- λ: the smallest value at which the shares sum to P; the ends of the breakpoints beyond (R139). -/
def allocLam (els : List AllocEl) (p : Q) : Q :=
  let bps := (els.flatMap (fun e => [e.lo.sub e.c, e.hi.sub e.c])).foldl (fun l q => insQ q l) []
  go p (bps.map (fun b => (b, allocAt els b))) none
where
  go (p : Q) : List (Q × Q) → Option (Q × Q) → Q
    | [], none => Q.ofNat 0
    | [], some (b, _) => b
    | (b, f) :: l, prev =>
      if f.lt p then go p l (some (b, f))
      else match prev with
        | none => b
        | some (b0, f0) => b0.add ((((p.sub f0).mul (b.sub b0)).div (f.sub f0)).getD (Q.ofNat 0))

/-- The allocation of R139 over elements that may be absent: shares, λ, shortfall, sat, count. -/
def allocF (els : List (Option AllocEl)) (p : Q) : Option (List Nat × Nat × Nat × Nat × Nat) := do
  let used := els.filterMap id
  let lam := if used.isEmpty then Q.ofNat 0 else allocLam used p
  let share (e : Option AllocEl) : Q := match e with | some e => (e.c.add lam).clamp e.lo e.hi | none => Q.ofNat 0
  let ps ← els.mapM (fun e => f32r (share e))
  let sum := qSum (els.map share)
  let sat := if (qSum (used.map (fun e => e.hi))).lt p then F_ONE
    else if p.lt (qSum (used.map (fun e => e.lo))) then F_MONE else 0
  return (ps, ← f32r lam, ← f32r (p.sub sum), sat, f32ofInt used.length)

/-- ALLOC. An element is excluded on QUAL or crossed limits alone; with one that is used and not finite, the sums are not
finite either (R121). -/
def blkAlloc (n : Nat) (x : BlkIn) : Option BlkOut := do
  let node (v i : Nat) := x.vec v i
  let out (i : Nat) : Bool := [1, 2, 3, 4].any (fun v => (node v i).2) || f32lt (node 1 i).1 (node 2 i).1
  let el (i : Nat) : Option AllocEl :=
    if out i then none
    else some { lo := f32v (node 2 i).1, hi := f32v (node 1 i).1,
                c := (f32v (node 4 i).1).add ((f32v (x.par 0)).mul (f32v (node 3 i).1)) }
  let bad := (List.range n).any (fun i => !out i && [1, 2, 3, 4].any (fun v => !f32fin (node v i).1))
  if !f32fin (x.op 0) || !f32fin (x.par 0) || bad then none
  else
    let (ps, lam, short, sat, cnt) ← allocF ((List.range n).map el) (f32v (x.op 0))
    okOut (ps ++ [lam, short, sat, cnt])

/-! ## Modulation reference and feed-forward (R140, R141) -/

def modrefF (v vdc z mmax vfloor : Nat) : Option (Nat × Nat) := do
  let q ← divF (f32add v z) (maxF vdc vfloor)
  return (← clampF q (f32neg mmax) mmax, satF q (f32neg mmax) mmax)

def blkModref (mode : Nat) (x : BlkIn) : Option BlkOut := do
  let mmax := x.par 0
  if f32lt mmax (f32neg mmax) then keepOut
  else
    let (m, sat) ← modrefF (x.op 0) (x.op 1) (x.op 2) mmax (x.par 1)
    let da ← divF (f32add F_ONE m) (some F_TWO)
    if mode == 1 then okOut [m, da, sat]
    else okOut [m, da, ← divF (f32sub F_ONE m) (some F_TWO), sat]

def blkFfsum (mode n : Nat) (x : BlkIn) : Option BlkOut := do
  let sum ← (List.range n).foldl (fun acc j => addF acc (f32mul (x.par (1 + j)) (x.op j))) (some (x.par 0))
  if mode == 1 then
    let v := x.op 5
    let fl := x.par 6
    okOut [← divF (some sum) (maxF v fl), if f32lt v fl then F_ONE else 0]
  else okOut [sum, 0]

/-! ## The table of types (Table 5.5) -/

/-- The type codes of Table 5.5, the modes of each, whether it takes a count N, and its number of parameters (SSP and the
tables by their own first parameters). -/
def blkKnown (ty : Nat) : Bool :=
  [0x00, 0x10, 0x11, 0x12, 0x13, 0x14, 0x20, 0x21, 0x22, 0x23, 0x30, 0x31, 0x40, 0x41, 0x50, 0x51, 0x60, 0x61, 0x62,
    0x63, 0x64, 0x70, 0x71].contains ty
def blkMode1 (ty : Nat) : Bool := [0x11, 0x12, 0x20, 0x22, 0x30, 0x40, 0x60, 0x70, 0x71].contains ty
def blkCounted (ty : Nat) : Bool := [0x60, 0x61, 0x62, 0x63, 0x64, 0x71].contains ty
def blkVector (ty : Nat) : Bool := [0x60, 0x61, 0x62, 0x63, 0x64].contains ty

/-- Parameter words of a block: `p` are the words from PARAM. -/
def blkParams (ty mode n : Nat) (p : Nat → Nat) : Nat :=
  let i (k : Nat) := (f32v (p k)).floor.toNat
  match ty with
  | 0x10 => 6 | 0x11 => 8 | 0x12 => 7 | 0x13 => 5 | 0x14 => 3 | 0x23 => 7
  | 0x30 => if mode == 1 then 0 else 2
  | 0x31 => 2
  | 0x40 => if mode == 1 then 1 + 2 * i 0 else 3 + i 0
  | 0x41 => 6 + i 0 * i 1
  | 0x50 => 4 + i 0 * i 0 + i 0 * i 1 + i 2 * i 0 + i 2 * i 1 + i 0 * i 3 + i 0
  | 0x51 => 3 | 0x61 => 1 | 0x70 => 2
  | 0x71 => if mode == 1 then 7 else 1 + n
  | _ => 0

/-- Outputs of a block. -/
def blkOuts (ty mode n : Nat) (p : Nat → Nat) : Nat :=
  match ty with
  | 0x10 | 0x11 | 0x12 | 0x21 | 0x31 | 0x40 | 0x41 | 0x64 | 0x71 => 2
  | 0x13 | 0x14 => 1
  | 0x20 | 0x30 | 0x51 | 0x62 | 0x63 => 3
  | 0x22 => if mode == 1 then 5 else 2
  | 0x23 => 4
  | 0x50 => (f32v (p 2)).floor.toNat
  | 0x60 => 2 * n + 1
  | 0x61 => n + 4
  | 0x70 => if mode == 1 then 3 else 4
  | _ => 0

/-- Cost in ns (Table 5.5). -/
def blkCost (ty mode n : Nat) (p : Nat → Nat) : Nat :=
  match ty with
  | 0x00 => 1 | 0x10 => 12 | 0x11 => 18 | 0x12 => if mode == 1 then 60 else 24
  | 0x13 | 0x14 | 0x51 => 10
  | 0x20 | 0x31 => 8
  | 0x21 => 14 | 0x22 => if mode == 1 then 18 else 14
  | 0x23 => 40 | 0x30 => 6 | 0x40 => 20 | 0x41 => 30
  | 0x50 => 16 + 4 * (f32v (p 0)).floor.toNat
  | 0x60 => 40 + 2 * n | 0x61 => 80 + 6 * n
  | 0x62 | 0x63 | 0x64 => 10 + (n + 15) / 16
  | 0x70 => 12 | 0x71 => 6 + n
  | _ => 0

/-- The operands that a scalar block reads: letters A to F as 0 to 5. -/
def blkReads (ty mode n : Nat) (act : Act) : List Nat :=
  let f := if act == .track then [5] else []
  match ty with
  | 0x10 | 0x11 => [0, 1, 2] ++ f
  | 0x12 => [0, 1, 2] ++ (if mode == 1 then [3] else [])
  | 0x13 | 0x14 | 0x40 => [0]
  | 0x20 => if mode == 1 then [0, 1] else [0, 1, 2]
  | 0x21 | 0x22 | 0x70 => [0, 1, 2]
  | 0x23 | 0x41 | 0x51 => [0, 1]
  | 0x30 => if mode == 1 then [0, 1, 2] else [0]
  | 0x31 => [0] ++ f
  | 0x61 => [0]
  | 0x71 => List.range (min n 5) ++ (if mode == 1 then [5] else [])
  | _ => []

/-- The vectors that a block reads: the letter of the base and the length. -/
def blkVecs (ty n : Nat) (p : Nat → Nat) : List (Nat × Nat) :=
  let i (k : Nat) := (f32v (p k)).floor.toNat
  match ty with
  | 0x50 => [(0, i 1), (1, i 3)]
  | 0x60 | 0x62 | 0x63 | 0x64 => [(0, n)]
  | 0x61 => [(1, n), (2, n), (3, n), (4, n)]
  | _ => []

/-- One execution of a block. Subnormal inputs are flushed to zero (R121). -/
def blkRun (ty mode n : Nat) (x : BlkIn) : Option BlkOut :=
  let x := { x with op := fun k => f32flush (x.op k), par := fun k => f32flush (x.par k),
                    vec := fun k j => let e := x.vec k j; (f32flush e.1, e.2) }
  match ty with
  | 0x10 => blkPi x | 0x11 => blkPid mode x | 0x12 => blkPr mode x | 0x13 => blkBiquad x | 0x14 => blkLeadlag x
  | 0x20 => blkClarke mode x | 0x21 => blkPark x | 0x22 => blkIpark mode x | 0x23 => blkSrfpll x
  | 0x30 => blkLimit mode x | 0x31 => blkRatelim x | 0x40 => blkTab1 mode x | 0x41 => blkTab2 x
  | 0x50 => blkSsp x | 0x51 => blkPlaus x | 0x60 => blkSort mode n x | 0x61 => blkAlloc n x
  | 0x62 => blkExt false n x | 0x63 => blkExt true n x | 0x64 => blkMean n x
  | 0x70 => blkModref mode x | 0x71 => blkFfsum mode n x
  | _ => okOut []

end Sys2Proof.Machine
end

