-- ==== Sys2Proof/Machine/MashBank.lean ====
section
/-! DEFINITION. Bill banks, their check and swap (R119, R123 to R128, R142 to R146), tuning (R150), the trace channels'
registers (R151, R152) and the MASH registers (R154). -/

namespace Sys2Proof.Machine
open Host

/-! ## Bank contents (R123 to R128) -/

def setBankW (s : State) (b i w : Nat) : State :=
  if bit s.mash.shipBank b then { s with mash.shipEdit := smSet 0 s.mash.shipEdit (b * bankWords + i) (w % 2 ^ 32 + 1) }
  else { s with mash.bank := smSet 0 s.mash.bank (b * bankWords + i) (w % 2 ^ 32) }

/-- One word of a bank is written; the memory word is read first (R379). -/
def bankPut (s : State) (b off w : Nat) : State :=
  setBankW { eccPart s 2 (b * bankEcc + off / 32) with mash.shipMod := putBit s.mash.shipMod b true } b (off / 4) w

/-- A tuning word is written into the active bank, shipped or not. -/
def tunePut (s : State) (b i w : Nat) : State := setBankW (eccPart s 2 (b * bankEcc + i / 8)) b i w

/-- The memory words of a bank's first n words are written whole (R379, R382): what stood in them is read as each first
narrow write does. -/
def bankRewrite (s : State) (b n : Nat) : State :=
  let bad := ((s.sec.ecc.map Prod.fst).filter (fun k => k / 2 ^ 20 == 2)).map (· % 2 ^ 20)
  let ws := b * bankEcc :: bad.filter (fun w => w / bankEcc == b && w % bankEcc != 0 && decide (w % bankEcc * 8 < n))
  ws.foldl (fun s w => eccPart s 2 w) s

/-- The firmware loads bank b: with the words of an image's bill, or with the shipped bill, built for a cycle of T (R155). -/
def bankLoad (s : State) (b : Nat) (ws : List Nat) (T : Nat) : State :=
  let s := bankRewrite s b (if ws.isEmpty then bankWords else ws.length)
  let keep (k : Nat) : Bool := k / bankWords != b
  if ws.isEmpty then
    let (v, s) := drawFree s
    { s with mash := { s.mash with
      bank := smKeep s.mash.bank keep, shipEdit := smKeep s.mash.shipEdit keep
      shipBank := putBit s.mash.shipBank b true, shipMod := putBit s.mash.shipMod b false
      shipSeed := smSet (0, 0) s.mash.shipSeed b (v, T) } }
  else ws.zipIdx.foldl (fun s e => setBankW s b e.2 e.1) { s with mash.shipBank := putBit s.mash.shipBank b false }

/-- The bill header (Table 5.2). -/
def hdrIntake (s : State) (b : Nat) : Nat := bankW s b 0 / 65536
def hdrBlocks (s : State) (b : Nat) : Nat := bankW s b 0 % 2 ^ 13
def hdrOutlet (s : State) (b : Nat) : Nat := bankW s b 1 / 65536
def hdrStart (s : State) (b : Nat) : Nat := bankW s b 2 % 2 ^ 20
def hdrDeadline (s : State) (b : Nat) : Nat := bankW s b 3 % 2 ^ 20
def hdrFast (s : State) (b : Nat) : Nat := bankW s b 4 % 2 ^ 20
def hdrOvr (s : State) (b : Nat) : Nat := bankW s b 5 % 256
def hdrT (s : State) (b : Nat) : Nat := bankW s b 6 % 2 ^ 20

/-- A block entry (Table 5.3). -/
structure BlkEnt where
  ty : Nat
  fast : Bool
  opt : Bool
  init : Bool
  mode : Nat
  n : Nat
  ops : List Nat
  out : Nat
  ctl : Nat
  par : Nat
  st : Nat

def blkEnt (s : State) (b i : Nat) : BlkEnt :=
  let w (k : Nat) := bankW s b (1024 + 8 * i + k)
  { ty := bits (w 0) 24 8, fast := bit (w 0) 23, opt := bit (w 0) 22, init := bit (w 0) 21, mode := bits (w 0) 16 4
    n := w 0 % 512
    ops := [bits (w 1) 16 14, w 1 % 2 ^ 14, bits (w 2) 16 14, w 2 % 2 ^ 14, bits (w 3) 16 14, w 3 % 2 ^ 14]
    out := bits (w 4) 16 14, ctl := w 4 % 2 ^ 14, par := w 5 % 2 ^ 16, st := w 6 % 2 ^ 15 }

/-- The parameters of a block. -/
def entPar (s : State) (b : Nat) (e : BlkEnt) (k : Nat) : Nat := parW s b (e.par + k)

/-- An intake or outlet entry (R127, R128). -/
structure IoEnt where
  kind : Nat
  num : Nat
  fast : Bool
  node : Nat
  fmt : Nat
  hold : Bool
  stride : Nat
  extra : Nat
  scale : Nat
  offset : Nat

def ioEnt (s : State) (b base i : Nat) : IoEnt :=
  let w (k : Nat) := bankW s b (base + 4 * i + k)
  let kind := w 0 / 2 ^ 30
  { kind, num := w 0 % (if kind == 0 then 2 ^ 18 else if kind == 1 then 2 ^ 24 else 64), fast := bit (w 1) 31
    node := bits (w 1) 16 14, fmt := bits (w 1) 14 2, hold := bit (w 1) 13, stride := bits (w 1) 8 2
    extra := w 1 % 256, scale := w 2, offset := w 3 }
def intakeEnt (s : State) (b i : Nat) : IoEnt := ioEnt s b 0x8400 i
def outletEnt (s : State) (b i : Nat) : IoEnt := ioEnt s b 0x9400 i

/-- The points, or the one register, of an entry, each with its node. -/
def ioRun (e : IoEnt) : List (Nat × Nat) :=
  let st := [1, 16, 1024, 0].getD e.stride 0
  (List.range (e.extra + 1)).map (fun j => (e.num + j * st, e.node + j))

/-- Cost of an entry in ns. -/
def ioCost (e : IoEnt) : Nat := if e.kind == 0 then e.extra + 1 else 8

/-! ## The check (R142, R143) -/

/-- One step of CRC-32C over a byte, bit by bit. -/
def crcByte (c b : Nat) : Nat :=
  (List.range 8).foldl (fun c _ => if bit c 0 then (c / 2) ^^^ 0x82f63b78 else c / 2) (c ^^^ b)

/-- CRC-32C of a bank, with word 7 taken as 0. -/
def bankCrc (s : State) (b : Nat) : Nat :=
  let c := (List.range bankWords).foldl (fun c i =>
    (leBytes 4 (if i = 7 then 0 else bankW s b i)).foldl crcByte c) 0xffffffff
  c ^^^ 0xffffffff

/-- An integer parameter: integral and within a range. -/
def intPar (w lo hi : Nat) : Bool :=
  f32fin w && (f32v w).n % (f32v w).d == 0 && decide ((lo : Int) ≤ (f32v w).floor) && decide ((f32v w).floor ≤ hi)
def zeroPar (w : Nat) : Bool := f32fin w && (f32v w).isZero

/-- The status of a block entry on its own. -/
def blkCheck (s : State) (b : Nat) (e : BlkEnt) : Status :=
  let p := entPar s b e
  let z := firstStatus [
    chk (blkCounted e.ty && e.n == 0) .zeroNotAllowed,
    chk (e.ty == 0x50 && (zeroPar (p 0) || zeroPar (p 1) || zeroPar (p 2))) .zeroNotAllowed,
    chk (e.ty == 0x51 && zeroPar (p 1)) .zeroNotAllowed]
  let ints := match e.ty with
    | 0x40 => intPar (p 0) 2 256
    | 0x41 => intPar (p 0) 2 32 && intPar (p 1) 2 32
    | 0x50 => intPar (p 0) 1 8 && intPar (p 1) 1 4 && intPar (p 2) 1 4 && intPar (p 3) 0 4 && (f32v (p 3)).le (f32v (p 2))
    | 0x51 => intPar (p 1) 1 65535 && intPar (p 2) 0 65535
    | _ => true
  let cnt := !blkCounted e.ty || e.n ≤ (if e.ty == 0x71 then 5 else 256)
  let sz := blkStates e.ty (f32v (p 0)).floor.toNat
  let outs := blkOuts e.ty e.mode e.n p
  let ext := 65536 < e.par + blkParams e.ty e.mode e.n p || 32768 < e.st + sz || 16384 < e.out + outs
    || (blkVecs e.ty e.n p).any (fun v => nth e.ops v.1 != 0 && 16384 < nth e.ops v.1 + v.2)
  let r := !blkKnown e.ty || 1 < e.mode || (e.mode == 1 && !blkMode1 e.ty) || !ints || !cnt || ext
  firstStatus [z, chk r .range, chk (blkKnown e.ty && outs != 0 && e.out < 2) .conflict]

/-- The status of an intake entry on its own. -/
def intakeCheck (s : State) (e : IoEnt) : Status :=
  let pts := if e.kind == 0 then (ioRun e).map Prod.fst else []
  firstStatus [chk (e.kind == 2 && isStack s) .notInRole,
    chk (e.kind == 3 || (e.kind != 0 && e.fmt == 1) || e.stride == 3 || (e.kind != 0 && (e.stride != 0 || e.extra != 0))
      || pts.any (fun p => 262144 ≤ p) || 16384 ≤ e.node + e.extra) .range,
    chk (pts.any (fun p => match slotOf s p with
      | some k => slotValid s k && dType (slotEnt s k) == 10 | none => false)) .range,
    chk (pts.any (fun p => !ptValid s p)) .conflict,
    chk (e.node < 2) .conflict]

/-- The status of an outlet entry on its own. -/
def outletCheck (s : State) (e : IoEnt) : Status :=
  let pts := if e.kind == 0 then (ioRun e).map Prod.fst else []
  firstStatus [
    chk (2 ≤ e.kind || (e.kind != 0 && e.fmt == 1) || e.stride == 3 || (e.kind != 0 && (e.stride != 0 || e.extra != 0))
      || pts.any (fun p => 262144 ≤ p) || 16384 ≤ e.node + e.extra) .range,
    chk (pts.any (fun p => match slotOf s p with
      | some k => !slotValid s k || dSrc (slotEnt s k) != SRC_MASH | none => true)) .conflict]

/-- Extents that overlap an earlier one, as positions; `ext` gives position, start and length. -/
def overlaps : List (Nat × Nat × Nat) → Nat → List Nat
  | [], _ => []
  | (pos, a, n) :: l, seen =>
    let m := (2 ^ n - 1) * 2 ^ a
    (if seen &&& m == 0 then [] else [pos]) ++ overlaps l (seen ||| m)

/-- Costs C_main and C_fast in ns (R143). -/
def billCost (s : State) (b : Nat) (fast : Bool) : Nat :=
  let io (l : List IoEnt) := ((l.filter (fun e => e.fast == fast)).map ioCost).sum
  20 + io ((List.range (hdrIntake s b)).map (intakeEnt s b)) + io ((List.range (hdrOutlet s b)).map (outletEnt s b))
    + (((List.range (hdrBlocks s b)).map (blkEnt s b)).filter (fun e => e.fast == fast)).foldl
        (fun c e => c + blkCost e.ty e.mode e.n (entPar s b e)) 0

/-- The smallest solution of t = C_main + ⌈t / per⌉ × C_fast, none beyond a limit (R143). -/
def response (cm cf per lim : Nat) : Nat → Nat → Option Nat
  | 0, _ => none
  | n + 1, t =>
    let t' := cm + (t + per - 1) / per * cf
    if t' = t then some t else if lim < t' then none else response cm cf per lim n t'
/-- C_main of the shipped stack bill: 1,320 + 40 × n ns (Table 6.9). -/
def shipCost (s : State) : Nat := 1320 + 40 * (cfgCells s).length

/-- The costs of the shipped cell bill are stated nowhere: C_fast and C_main are free values for which the response time
meets the deadline of R143. The largest C_fast that leaves room for a C_main of the 20 ns of its start; and the largest
C_main beside a C_fast. -/
def shipFastTop (s : State) (b : Nat) : Nat :=
  let lim := hdrDeadline s b - hdrStart s b
  min (hdrFast s b - 100) ((lim - 20) / max 1 ((lim + hdrFast s b - 1) / max 1 (hdrFast s b)))
def shipMainTop (s : State) (b cf : Nat) : Nat :=
  let lim := hdrDeadline s b - hdrStart s b
  lim - (lim + hdrFast s b - 1) / max 1 (hdrFast s b) * cf

/-- C_main and C_fast of a bank, as MASH_COSTM's response time and MASH_COSTF show them. -/
def mainResponse (s : State) (b : Nat) : Option Nat :=
  let cm := if holdsShipped s b then shipCost s else billCost s b false
  if hdrFast s b == 0 then some cm
  else response cm (billCost s b true) (hdrFast s b) (hdrDeadline s b) 4096 cm

/-- The bank holds no bill: its BLOCKS is 0. -/
def bankIdle (s : State) (b : Nat) : Bool := !holdsShipped s b && hdrBlocks s b == 0

/-- The header's own fields (Table 5.2), and what it promises. The costs of the shipped cell bill are stated nowhere: it
meets that check where any cost could (DESIGN CHOICE, assumption 50), and its CRC holds. -/
def hdrCheck (s : State) (b : Nat) : Status :=
  let T := s.fget TIM_CYC_T
  let f := hdrFast s b
  let ship := holdsShipped s b
  let cell := ship && !isStack s
  let s0 := if isStack s then max (hdrStart s b) (s.fget PT_FILLCFG_OFS + 303) else hdrStart s b
  firstStatus [
    chk ((!ship && (1024 < hdrIntake s b || 1024 < hdrOutlet s b || 4096 < hdrBlocks s b)) || T < hdrStart s b + 1000
      || hdrDeadline s b ≤ hdrStart s b || T < hdrDeadline s b + 1000
      || (f != 0 && (f < 1000 || 100000 < f || T % f != 0))) .range,
    chk (cell && shipFastTop s b < 20) .range,
    chk (!cell && !bankIdle s b && f != 0 && f < billCost s b true + 100) .range,
    chk (!cell && !bankIdle s b && match mainResponse s b with
      | some t => hdrDeadline s b < s0 + t | none => true) .range,
    chk (hdrT s b != T || (!ship && bankW s b 7 != bankCrc s b)) .conflict]

/-- The check of a bank: the status that comes first in the order of R12, and the position of the first entry with it. -/
def bankCheck (s : State) (b : Nat) : Status × Nat :=
  let h := hdrCheck s b
  let bad := (List.range bankEcc).any (fun w => 2 ≤ (eccSyms s 2 (b * bankEcc + w)).length) || bit s.mash.bankUe b
  let hs : List (Nat × Status) := [(0x3fff, h), (0x3fff, chk bad .conflict)]
  let all : List (Nat × Status) :=
    if holdsShipped s b || hdrBlocks s b == 0 then hs
    else
      let nb := min (hdrBlocks s b) 4096
      let ni := min (hdrIntake s b) 1024
      let no := min (hdrOutlet s b) 1024
      let es := (List.range nb).map (fun i => (i, blkEnt s b i))
      let is := (List.range ni).map (fun i => (0x1000 + i, intakeEnt s b i))
      let os := (List.range no).map (fun i => (0x2000 + i, outletEnt s b i))
      let wr := es.map (fun (e : Nat × BlkEnt) => (e.1, e.2.out, blkOuts e.2.ty e.2.mode e.2.n (entPar s b e.2)))
        ++ is.map (fun (e : Nat × IoEnt) => (e.1, e.2.node, e.2.extra + 1))
      let stx := es.map (fun (e : Nat × BlkEnt) =>
        (e.1, e.2.st, blkStates e.2.ty (f32v (entPar s b e.2 0)).floor.toNat))
      es.map (fun (e : Nat × BlkEnt) => (e.1, blkCheck s b e.2))
        ++ is.map (fun (e : Nat × IoEnt) => (e.1, intakeCheck s e.2))
        ++ os.map (fun (e : Nat × IoEnt) => (e.1, outletCheck s e.2))
        ++ (overlaps wr 0).map (fun p => (p, Status.conflict)) ++ (overlaps stx 0).map (fun p => (p, Status.conflict))
        ++ hs
  let st := firstStatus (all.map Prod.snd)
  if st == .ok then (.ok, 0)
  else (st, ((all.filter (fun e => e.2 == st)).map Prod.fst).foldl min 0x3fff)

/-! ## Swap (R144, R145) -/

/-- Record a refusal in MASH_ERR. -/
def mashErr (s : State) (m : Nat) (st : Status) : State :=
  recErr s MASH_ERR_VALID MASH_ERR_MULTI [(MASH_ERR_MASTER, 0, m), (MASH_ERR_STATUS, 0, st.code)]

/-- An apply cycle as it is read at its check (R78, R144): the cycle in which it takes effect. `lead` is the least distance
ahead. -/
def applyCycle (s : State) (c lead : Nat) : Status × Nat :=
  let now := cycleNow s
  if c == 0 then (.ok, (now + lead) % 2 ^ 32)
  else
    let d := cycDiff c now
    if d < -2 then (.stale, 0) else if 50000 < d then (.range, 0)
    else if d < (lead : Int) then (.ok, (now + lead) % 2 ^ 32) else (.ok, c)

/-- The first cycle whose boundary lies at least 2 µs from now (R144). -/
def swapLead (s : State) : Nat :=
  if s.tim.bound + cycT s < netTime s + 2 * usT then 2 else 1

/-- The apply cycle of a swap whose check has passed (R144). -/
def swapCycle (s : State) (c : Nat) : Status × Nat := applyCycle s c (swapLead s)

/-- A swap is pending or being checked. -/
def swapBusy (s : State) : Bool := s.mash.pend.isSome || s.mash.chk.isSome

/-- A swap is requested: the check of the shadow bank begins (R142, R144). -/
def swapRequest (s : State) (r : SwapReq) : Status × State :=
  if swapBusy s then (.conflict, s) else (.ok, { s with mash.chk := some r })

/-- The check reads every word of a bank: errors are corrected, or counted, as on any read (R153, R379). -/
def eccBank (s : State) (b : Nat) : State :=
  ((s.sec.ecc.map Prod.fst).filter (fun k => k / 2 ^ 20 == 2 && k % 2 ^ 20 / bankEcc == b)).foldl
    (fun s k => eccRead s 2 (k % 2 ^ 20)) s

/-- The check's result, once it completes: a pending swap, or the failure, with its position where an entry failed. -/
def swapChecked (s : State) (r : SwapReq) : Status × State :=
  let b := 1 - actBank s
  let s := eccBank s b
  let (bank, pos) := bankCheck s b
  let s := { s with mash := { s.mash with chk := none, bankUe := putBit s.mash.bankUe b false } }
  let (cyc, c) := swapCycle s r.cyc
  let st := firstStatus [bank, cyc]
  if bank != .ok then (st, mashErr (s.fset MASH_ERRPOS_POS 0 pos) r.master st)
  else
    if st == .ok then (.ok, { s with mash.pend := some c }.fset MASH_STAT_PEND 0 1) else (st, mashErr s r.master st)

/-- A free value from a to b. -/
def drawNat (s : State) (a b : Nat) : Nat × State := let (v, s) := drawFree s; (a + v % (b - a + 1), s)

/-- The costs of a shipped cell bill that becomes active (assumption 4): intake, blocks and outlet of the main task, then of
the fast task, beside the 20 ns of their starts. -/
def shipParts (s : State) (b : Nat) : List Nat × State :=
  let (cf, s) := drawNat s 20 (shipFastTop s b)
  let (cm, s) := drawNat s 20 (shipMainTop s b cf)
  let split (s : State) (c : Nat) : List Nat × State :=
    let (i, s) := drawNat s 0 (c - 20)
    let (o, s) := drawNat s 0 (c - 20 - i)
    ([i, c - 20 - i - o, o], s)
  let (m, s) := split s cm
  let (f, s) := split s cf
  (m ++ f, s)

/-- The costs that MASH_COSTM and MASH_COSTF show once a bank is active (R143, R183). -/
def swapCosts (s : State) (b : Nat) : Nat × Nat × State :=
  if holdsShipped s b && !isStack s then
    let (l, s) := shipParts s b
    let cm := 20 + (l.take 3).sum
    let cf := 20 + (l.drop 3).sum
    ((response cm cf (hdrFast s b) (hdrDeadline s b) 4096 cm).getD 0, cf, { s with mash.shipPart := l })
  else ((mainResponse s b).getD 0, if hdrFast s b == 0 then 0 else billCost s b true, s)

/-- BANK_SWAP (R145): the banks exchange roles at the boundary. Staged tuning words are discarded with CONFLICT in MASH_ERR;
no master's access is refused there: its MASTER reads 0 (DESIGN CHOICE, assumption 50). -/
def bankSwap (s : State) : State :=
  let b := 1 - actBank s
  let s := if s.mash.tune.isEmpty then s else mashErr s 0 .conflict
  let inits := if holdsShipped s b then [] else (List.range (hdrBlocks s b)).filter (fun i => (blkEnt s b i).init)
  let s := { s with mash := { s.mash with pend := none, tune := [], tuneGo := 0, init := inits, last := [] } }
  let (cm, cf, s) := swapCosts s b
  s.fsets [(MASH_STAT_ACTIVE, 0, b), (MASH_STAT_PEND, 0, 0), (MASH_STAT_TUNED, 0, 0), (MASH_ENDMAX_NS, 0, 0),
    (MASH_STAT_IDLE, 0, b2n (bankIdle s b)), (MASH_COSTM_T, 0, cm), (MASH_COSTF_C, 0, cf)]

/-- What the engine does at a boundary before any execution of the cycle (R145, R149, R150). -/
def mashBoundary (s : State) : State :=
  if !domOn s 1 then s
  else
    let s := s.fset MASH_STAT_THR 0 (if isStack s then kilnLevel s else 0)
    let due := match s.mash.pend with | some c => decide (0 ≤ cycDiff (cycleNow s) c) | none => false
    if due then bankSwap s
    else if 0 < s.mash.tuneGo then
      let b := actBank s
      let left := s.mash.tune.drop s.mash.tuneGo
      let s := (s.mash.tune.take s.mash.tuneGo).foldl (fun s (e : Nat × Nat) => tunePut s b (0xa400 + e.1) e.2) s
      { s with mash := { s.mash with tune := left, tuneGo := 0 } }.fset MASH_STAT_TUNED 0 left.length
    else s

/-! ## Registers (R150 to R152, R154) -/

def mashGuard (m : Nat) (st : Status) (eff : State → State) (s : State) : Status × State :=
  if st == .ok then (.ok, eff s) else (st, mashErr s m st)

/-- A write of MASH_SWAPCTL (R144, R150), judged as a whole (R8): TCOMMIT commits the words staged so far, and words
staged later wait for a TCOMMIT of their own (R7). -/
def swapctlEff (m w : Nat) (s : State) : Status × State :=
  mashGuard m (chk (bit w 0 && swapBusy s) .conflict) (fun s =>
    let s := if bit w 1 then { s with mash.tuneGo := s.mash.tune.length } else s
    if bit w 0 then (swapRequest s { cyc := s.fget MASH_SWAPCYC_CYCLE, master := m }).2 else s) s

/-- BANK_SWAP_REQUEST (R144). -/
def execBankSwapRequest (m : Master) (w : Word) (s : State) : Outcome State Fault Refusal :=
  .next (rowWrite s m 0x171004 w (bit w.toNat 0 || bit w.toNat 1) (swapctlEff m w.toNat))

/-- TUNE_COMMIT (R150). -/
def execTuneCommit (m : Master) (w : Word) (s : State) : Outcome State Fault Refusal :=
  .next (rowWrite s m 0x171004 w (bit w.toNat 0 || bit w.toNat 1) (swapctlEff m w.toNat))

/-- A write of MASH_TUNEDATA (R150). -/
def tunedataEff (m w : Nat) (s : State) : Status × State :=
  let i := s.fget MASH_TUNEIDX_IDX m
  mashGuard m (firstStatus [chk (isStack s && stackCount s != 1) .conflict, chk (64 ≤ s.mash.tune.length) .busy]) (fun s =>
    let s := { s with mash.tune := s.mash.tune ++ [(i, w)] }
    s.fsets [(MASH_TUNEDATA_VALUE, 0, w), (MASH_TUNEIDX_IDX, m, i + 1), (MASH_STAT_TUNED, 0, s.mash.tune.length)]) s

/-- MASH_TUNEDATA_WRITE (R150). -/
def execMashTunedataWrite (m : Master) (w : Word) (s : State) : Outcome State Fault Refusal :=
  .next (rowWrite s m 0x176004 w false (tunedataEff m w.toNat))

/-- A write of MASH_B0ADDR or MASH_B1ADDR. -/
def bankAddrEff (m b w : Nat) (s : State) : Status × State :=
  let v := w % 2 ^ 19
  mashGuard m (chk (v % 4 != 0 || 0x69000 ≤ v) .range) (fun s => s.fset (bankAddr b) m v) s

/-- A bank whose words may not be written: active, or pending. -/
def bankBusy (s : State) (b : Nat) : Bool := b == actBank s || s.mash.pend.isSome

/-- A write of MASH_B0DATA or MASH_B1DATA (R144, R154). -/
def bankDataEff (m b w : Nat) (s : State) : Status × State :=
  let a := s.fget (bankAddr b) m
  mashGuard m (firstStatus [chk (0x69000 ≤ a) .range, chk (bankBusy s b) .conflict])
    (fun s => (bankPut s b a w).fset (bankAddr b) m (a + 4)) s

/-- BANK_DATA_WRITE (R154). -/
def execBankDataWrite (m : Master) (b : Fin 2) (w : Word) (s : State) : Outcome State Fault Refusal :=
  .next (rowWrite s m (0x172004 + 0x1000 * b.val) w false (bankDataEff m b w.toNat))

/-- A read of a bank's data register. -/
def bankDataRead (m b : Nat) (s : State) : Nat × State :=
  let a := s.fget (bankAddr b) m
  if 0x69000 ≤ a then (0, mashErr s m .range)
  else
    let s := eccRead s 2 (b * bankEcc + a / 32)
    (bankVal s m b, s.fset (bankAddr b) m (a + 4))

/-- The nodes of the shipped bill are not given: what a node other than 0 and 1 holds under it is a free value (assumption
4). -/
def shipNode (s : State) (i : Nat) : State :=
  if !holdsShipped s (actBank s) || i < 2 then s
  else let (v, s) := drawFree s; { s with mash.nodes := smSet 0 s.mash.nodes i (v % 2 ^ 34) }

/-- A read of MASH_NDATA (R154). -/
def ndataRead (m : Nat) (s : State) : Nat × State :=
  let i := s.fget MASH_NADDR_NODE m
  let s := shipNode (eccRead s 3 (i / 8)) i
  let v := if i == 1 then F_ONE else smGet 0 s.mash.nodes i
  (nodeVal s m, s.fsets [(MASH_NADDR_NODE, m, i + 1), (MASH_NFLAG_SUB, 0, bits v 33 1), (MASH_NFLAG_QUAL, 0, bits v 32 1)])

/-- A read of MASH_TUNEDATA: the staged value of the master's index, else the parameter in force (R6). -/
def tunedataRead (m : Nat) (s : State) : Nat × State :=
  let i := s.fget MASH_TUNEIDX_IDX m
  let s := if s.mash.tune.any (fun e => e.1 == i) then s else eccRead s 2 (actBank s * bankEcc + (0xa400 + i) / 8)
  (tuneVal s m, s.fset MASH_TUNEIDX_IDX m (i + 1))

/-- NODE_DATA_READ (R154). -/
def execNodeDataRead (m : Master) (s : State) : Outcome State Fault Refusal :=
  .next (readAccess s m 0x175004 (ndataRead m))

/-! ## Trace channels (R151, R152) -/

def trOf (s : State) (c : Nat) : TraceSt := smGet {} s.trace c
def trMod (s : State) (c : Nat) (f : TraceSt → TraceSt) : State := { s with trace := smMod {} s.trace c f }

/-- MASH_TRARM (R151). -/
def trarmEff (w : Nat) (s : State) : Status × State :=
  (.ok, (bitList 32 w).foldl (fun s c =>
    let st := s.fget MASH_TRSTAT_STATE c
    if st == 0 || st == 3 then
      (trMod s c (fun x => { x with skip := 0, left := 0, startAt := none })).fsets
        [(MASH_TRSTAT_STATE, c, 1), (MASH_TRSTAT_TAKEN, c, 0), (MASH_TRSTAT_OLDEST, c, (trOf s c).wr)]
    else s) (capSettle s))

/-- A start event that reaches a channel: it counts once PRE samples have been taken (R151). -/
def trStart (s : State) (c : Nat) : State :=
  if s.fget MASH_TRSTAT_STATE c == 1 && s.fget MASH_TRCFG1_PRE c ≤ s.fget MASH_TRSTAT_TAKEN c then
    (trMod s c (fun x => { x with left := 0, startAt := none })).fset MASH_TRSTAT_STATE c 2
  else trMod s c (fun x => { x with startAt := none })

/-- MASH_TRSTART and MASH_TRSTOP (R151). -/
def trstartEff (w : Nat) (s : State) : Status × State := (.ok, (bitList 32 w).foldl trStart s)
def trstopEff (w : Nat) (s : State) : Status × State :=
  (.ok, (bitList 32 w).foldl (fun s c =>
    (trMod s c (fun x => { x with skip := 0, left := 0, startAt := none })).fset MASH_TRSTAT_STATE c 0) s)

/-- TRACE_ARM, TRACE_START_EVENT, TRACE_STOP (R151, R152). -/
def execTraceArm (m : Master) (w : Word) (s : State) : Outcome State Fault Refusal :=
  .next (rowWrite s m 0x171008 w false (trarmEff w.toNat))
def execTraceStartEvent (m : Master) (w : Word) (s : State) : Outcome State Fault Refusal :=
  .next (rowWrite s m 0x17100c w false (trstartEff w.toNat))
def execTraceStop (m : Master) (w : Word) (s : State) : Outcome State Fault Refusal :=
  .next (rowWrite s m 0x171010 w false (trstopEff w.toNat))

/-- A write of a channel's configuration: refused while it is ARMED or RUNNING (R151). -/
def trcfgRegEff (m c k w : Nat) (s : State) : Status × State :=
  let st := s.fget MASH_TRSTAT_STATE c
  let len := if k == 1 then w % 2 ^ 14 else s.fget MASH_TRCFG1_LEN c
  let pre := if k == 1 then bits w 16 13 else s.fget MASH_TRCFG1_PRE c
  mashGuard m (firstStatus [chk (k == 1 && len == 0) .zeroNotAllowed, chk (k == 2 && w % 65536 == 0) .zeroNotAllowed,
    chk (k == 1 && (8192 < len || len ≤ pre)) .range, chk (st == 1 || st == 2) .conflict]) (fun s =>
      if k == 0 then s.fsets [(MASH_TRCFG0_TASK, c, bits w 31 1), (MASH_TRCFG0_CAPEN, c, bits w 30 1),
        (MASH_TRCFG0_CAPCH, c, bits w 24 6), (MASH_TRCFG0_SRC, c, w)]
      else if k == 1 then s.fsets [(MASH_TRCFG1_PRE, c, pre), (MASH_TRCFG1_LEN, c, len)]
      else s.fset MASH_TRCFG2_DECIM c w) s

/-- One sample of a channel at the end of an execution of its task that began at network time `began` (R149, R151,
R152); a capture trigger that came before that start applies first. -/
def trSample (s : State) (began c : Nat) : State :=
  let s := capSettle s
  let st := s.fget MASH_TRSTAT_STATE c
  let thr := s.fget MASH_STAT_THR
  if st != 1 && st != 2 then s
  else
    let s := match (trOf s c).startAt with
      | some a => if a + (netTime s - began) ≤ s.clk then trStart s c else s
      | none => s
    let x := trOf s c
    let dec := s.fget MASH_TRCFG2_DECIM c * (if thr == 1 then 2 else if thr == 2 then 4 else 1)
    if 3 ≤ thr then s
    else if x.skip + 1 < dec then trMod s c (fun x => { x with skip := x.skip + 1 })
    else
      let i := s.fget MASH_TRCFG0_SRC c
      let s := shipNode (eccRead s 3 (i / 8)) i
      let v := if i == 1 then F_ONE else smGet 0 s.mash.nodes i % 2 ^ 32
      let off := 0x8000 * c + 4 * x.wr
      let s := if domOn s 4 then (eccPart s 8 (off / 32)).mwrite (0x03000000 + off) 4 v else s
      let taken := min 8192 (s.fget MASH_TRSTAT_TAKEN c + 1)
      let st := s.fget MASH_TRSTAT_STATE c
      let pre := s.fget MASH_TRCFG1_PRE c
      let len := s.fget MASH_TRCFG1_LEN c
      let pos := x.wr
      let wr := (pos + 1) % 8192
      let s := trMod s c (fun x => { x with skip := 0, wr })
      let s := s.fset MASH_TRSTAT_TAKEN c taken
      if st == 1 then s.fset MASH_TRSTAT_OLDEST c (if taken < 8192 then s.fget MASH_TRSTAT_OLDEST c else wr)
      else
        let first := x.left == 0
        let s := if first then s.fsets
            [(MASH_TRSTAT_OLDEST, c, (pos + 8192 - pre) % 8192), (MASH_TRT0_NS, c, nsOf began),
             (MASH_TRT1_SEC_LO, c, secOf began), (MASH_TRT2_FRAC, c, fracOf began), (MASH_TRT2_SEC_HI, c, secOf began / 2 ^ 32)]
          else s
        let left := if first then len - pre else x.left
        let s := trMod s c (fun x => { x with left := left - 1 })
        if left ≤ 1 then s.fset MASH_TRSTAT_STATE c 3 else s

end Sys2Proof.Machine
end

