-- ==== Sys2Proof/Machine/Domains.lean ====
section
/-! DEFINITION. The contents of a power domain (R37, R38). -/

namespace Sys2Proof.Machine

/-- How many entries of an in-window array one converter has (Table 10.5). -/
def winCount (a : Nat) : Nat :=
  if a == 0x130140 then 16 else if a == 0x130180 || a == 0x130184 || a == 0x1301b0 then 6
  else if a == 0x1301d0 then 5 else 1

/-- The domain that holds a register field instance (R65, Table 3.8). -/
def keyDom (a i : Nat) : Nat :=
  match blkOf a with
  | none => 0
  | some b =>
    if inWindow b a then instDom b (i / winCount a)
    else match b with
      | .pwm | .gd => 7 | .spr => 9 | .adc => 5 | .lnk => 10 | .cap => 3 | .mash => 1 | .pt => 2
      | _ => 0

/-- The live sources without those of PD7 itself: DIDT0 to 11, the FLT pins, IL, GD_FB and SWFORCE (R198). -/
def otherLive (w : Nat) : Nat :=
  (List.range 12 ++ [24, 25, 26, 27, SRC_IL, SRC_GD_FB, SRC_SWFORCE]).foldl (fun w n => putBit w n false) w

/-- The registers and memories of a domain take their reset values (R37, R38). -/
def domClear (s : State) (d : Nat) : State :=
  let s := s.resetRegs (fun a i => keyDom a i == d)
  let s := { s with sec.ecc := smKeep s.sec.ecc (fun k => memDom (k / 2 ^ 20) != d), sec.scrub := smKeep s.sec.scrub (fun k => memDom k != d) }
  if d == 1 then { s with mash := {}, trace := [] }
  else if d == 2 then syncRoutes { s.clearMem 0x01000000 0x01400000 with grist := {} } 0
  else if d == 3 then { s.clearMem 0x02000000 0x03000000 with cap := {}, pins.trigxLow := false }
  else if d == 4 then s.clearMem 0x03000000 0x03100000
  else if d == 5 then
    let s := { s with adc := { s.adc with conv := smKeep s.adc.conv (8 ≤ ·), at_ := smKeep s.adc.at_ (48 ≤ ·), was := smKeep s.adc.was (48 ≤ ·),
                                          fresh := smKeep s.adc.fresh (768 ≤ ·), latch := [], winIn := [], winSince := [],
                                          commitAt := [], pulls := [] } }
    (List.range 16).foldl (fun s w => srcRelease s (28 + w)) s
  else if d == 6 then
    { s with adc := { s.adc with conv := smKeep s.adc.conv (· < 8), at_ := smKeep s.adc.at_ (· < 48), was := smKeep s.adc.was (· < 48),
                                 fresh := smKeep s.adc.fresh (· < 768) } }
  else if d == 9 then srcRelease { s with spr := {} } SRC_SPR_FAULT
  else if d == 7 then
    let s := { s with gd := smKeep s.gd (12 ≤ ·), pwm := smKeep s.pwm (6 ≤ ·), flt := { live := otherLive s.flt.live, pin := s.flt.pin, pulse := smKeep s.flt.pulse (· != SRC_IL) } }
    syncForced ((List.range 56).foldl (fun s n => if bit s.flt.live n then putLive s n true else s) s)
  else if 10 ≤ d then { s with lanes := smKeep s.lanes (fun l => l / 4 + 10 != d) }
  else if d == 8 then
    let s := { s with gd := smKeep s.gd (· < 12), pwm := smKeep s.pwm (· < 6), flt.hold := s.flt.hold % 2 ^ 12 }
    syncGdFb ((List.range' 12 12).foldl srcRelease s)
  else s

end Sys2Proof.Machine
end

