-- ==== Sys2Proof/Machine/Power.lean ====
section
/-! DEFINITION. Supplies, reference clock, reset and power domains (Chapter 2). -/

namespace Sys2Proof.Machine

open Host (Outcome)

/-! ## From the supplies to the straps -/

/-- SUPPLY_RELEASE (R36): with RST_N high reference selection begins; with RST_N low the ball still holds. -/
def execSupplyRelease (t : Time) (s : State) : Outcome State Fault Refusal :=
  let s := s.at t
  .next (if s.sys.phase == .supplyHold then
    { s with sys.phase := if s.pins.rstN then .refWatch else .pinHold, sys.since := s.clk } else s)

/-- BROWN_OUT (R36): a cold reset with cause BOR, held while the rail stays below its release level. -/
def execBrownOut (t : Time) (also : List RstSrc) (s : State) : Outcome State Fault Refusal :=
  let s := s.at t
  .next (if s.sys.phase == .supplyHold then s else coldReset s (.bor :: also) .supplyHold)

/-- PIN_RESET (R50): RST_N low for 1 µs or more, a cold reset with cause PIN. -/
def execPinReset (t : Time) (also : List RstSrc) (s : State) : Outcome State Fault Refusal :=
  let s := s.at t
  let s := { s with pins.rstN := false }
  .next (if s.sys.phase == .supplyHold then s else coldReset s (.pin :: also) .pinHold)

/-- RESET_PIN_RELEASE (R401): RST_N rises; with the rails up this is instant a. -/
def execResetPinRelease (t : Time) (s : State) : Outcome State Fault Refusal :=
  let s := s.at t
  let s := { s with pins.rstN := true }
  .next (if s.sys.phase == .pinHold then { s with sys.phase := .refWatch, sys.since := s.clk } else s)

/-- VDDIO_BANK_POWER (R399): the bank's balls take their powered states, or lose them. -/
def execVddioBankPower (t : Time) (bank : Fin 4) (up : Bool) (s : State) : Outcome State Fault Refusal :=
  let s := s.at t
  .next { s with pins.banks := putBit s.pins.banks bank up }

/-- LREFCLK_WATCH_END (R45): 100 µs after the try began, a qualifying LREFCLK is taken, otherwise crystal counting
begins. -/
def execLrefclkWatchEnd (t : Time) (qualifies : Bool) (s : State) : Outcome State Fault Refusal :=
  let s := s.at t
  .next (if s.sys.phase == .refWatch && decide (s.sys.since + 100 * usT ≤ s.clk) then
    if qualifies then { s.fset CLK_STAT_SRC 0 1 with sys.phase := .pllLocking }
    else { s with sys.phase := .crystal }
  else s)

/-- CRYSTAL_QUALIFIED (R45): 4,096 crystal cycles have been counted within 5 ms of the watch's end. -/
def execCrystalQualified (t : Time) (s : State) : Outcome State Fault Refusal :=
  let s := s.at t
  .next (if s.sys.phase == .crystal && decide (s.clk ≤ s.sys.since + 5100 * usT) then { s.fset CLK_STAT_SRC 0 0 with sys.phase := .pllLocking } else s)

/-- CRYSTAL_QUALIFY_TIMEOUT (R45): the crystal is not accepted and the retry wait begins. -/
def execCrystalQualifyTimeout (t : Time) (s : State) : Outcome State Fault Refusal :=
  let s := s.at t
  .next (if s.sys.phase == .crystal && decide (s.sys.since + 5100 * usT ≤ s.clk) then { s with sys.phase := .retryWait }
  else s)

/-- REFERENCE_RETRY (R45): 10 ms after the try before it (assumption 1). -/
def execReferenceRetry (t : Time) (s : State) : Outcome State Fault Refusal :=
  let s := s.at t
  .next (if s.sys.phase == .retryWait && decide (s.sys.since + 10 * msT ≤ s.clk) then
    { s with sys.phase := .refWatch, sys.since := s.clk } else s)

/-- The straps are compared and, when the three samples agree, fixed (R53). -/
def takeSamples (s : State) (s0 s1 s2 : Straps) : State :=
  let s := { s with pins.straps := s2, sys.since := s.clk }
  if samplesAgree s0 s1 s2 then { strapSample s s2 with sys.phase := .otpLoad }
  else { s with sys.phase := .strapWait }

/-- PLL_LOCK (R53): CLK_STAT.LOCK reads 1 and the third strap sample is taken. -/
def execPllLock (t : Time) (s0 s1 s2 : Straps) (s : State) : Outcome State Fault Refusal :=
  let s := s.at t
  .next (if s.sys.phase == .pllLocking then takeSamples (s.fset CLK_STAT_LOCK 0 1) s0 s1 s2 else s)

/-- STRAP_RESAMPLE (R53): 1 ms after the samples that disagreed. -/
def execStrapResample (t : Time) (s0 s1 s2 : Straps) (s : State) : Outcome State Fault Refusal :=
  let s := s.at t
  .next (if s.sys.phase == .strapWait && decide (s.sys.since + msT ≤ s.clk) then takeSamples s s0 s1 s2 else s)

/-! ## Loss of the reference -/

/-- REFERENCE_LOSS (R47): HOLD 1, LOCK 0, CLKLOSS asserted while HOLD is 1. -/
def execReferenceLoss (t : Time) (s : State) : Outcome State Fault Refusal :=
  let s := s.at t
  .next (if s.flag CLK_STAT_LOCK && s.sys.lostAt.isNone then
    let s := s.fsets [(CLK_STAT_HOLD, 0, 1), (CLK_STAT_LOCK, 0, 0)]
    srcAssert { s with sys.lostAt := some s.clk } SRC_CLKLOSS
  else s)

/-- The 100 µs after a loss for which the PLLs hold have passed (R47). -/
def holdOver (s : State) : Bool := match s.sys.lostAt with | some l => decide (l + 100 * usT ≤ s.clk) | none => false

/-- REFERENCE_HOLD_EXPIRY (R47): a cold reset with cause CLKLOSS. -/
def execReferenceHoldExpiry (t : Time) (also : List RstSrc) (s : State) : Outcome State Fault Refusal :=
  let s := s.at t
  .next (if holdOver s then coldReset s (.clkloss :: also) .refWatch else s)

/-- REFERENCE_RETURN (R47): the PLLs relock without a reset. -/
def execReferenceReturn (t : Time) (s : State) : Outcome State Fault Refusal :=
  let s := s.at t
  .next (if s.sys.lostAt.isSome && !holdOver s then
    let s := s.fsets [(CLK_STAT_HOLD, 0, 0), (CLK_STAT_LOCK, 0, 1)]
    srcRelease { s.satAdd CLK_STAT_LOSSCNT 0 with sys.lostAt := none } SRC_CLKLOSS
  else s)

/-! ## Resets -/

/-- The supervisor runs: the boot ROM or the firmware. -/
def running (s : State) : Bool :=
  [Phase.selfTest, .romSelect, .romIdle, .recovery, .netboot, .firmware].contains s.sys.phase

/-- WATCHDOG_EXPIRY (R50): a system reset with cause WDOG; the watchdog stands still while the supervisor is
halted (R409). -/
def execWatchdogExpiry (t : Time) (also : List RstSrc) (straps : Straps) (s : State) : Outcome State Fault Refusal :=
  let s := s.at t
  .next (if running s && !s.sys.halted then systemReset s (.wdog :: also) straps else s)

/-- LOCKSTEP_ERROR (R50). -/
def execLockstepError (t : Time) (also : List RstSrc) (straps : Straps) (s : State) : Outcome State Fault Refusal :=
  let s := s.at t
  .next (if running s then systemReset s (.lockstep :: also) straps else s)

/-- DEBUG_RESET (R50): only while a debug token is in force. -/
def execDebugReset (t : Time) (also : List RstSrc) (straps : Straps) (s : State) : Outcome State Fault Refusal :=
  let s := s.at t
  .next (if running s && s.flag SEC_STAT_UNLOCKED then systemReset s (.debug :: also) straps else s)

/-- A write of SYS_RSTCTL (R51, R54): the key must be 0xA55A; COLD takes precedence, and a SYS beside it has fired too. The journal entry of the write is made
before the reset, which keeps the journal only when it is a system reset. -/
def rstctlWrite (s : State) (m w : Nat) (width : Nat) (epochOk : Bool) (also : List RstSrc) (straps : Straps) :
    Status × State :=
  let (st, s) := regWrite s m 0x14 w width false epochOk (fun s => (.ok, s))
  if st == .ok && w / 65536 == 0xA55A then
    if bit w 1 then (st, coldReset s (.pin :: ((if bit w 0 then [.swsys] else []) ++ also)) .refWatch)
    else if bit w 0 then (st, systemReset s (.swsys :: also) straps)
    else (st, s)
  else (st, s)

/-- SYS_RESET_REQUEST (R54). -/
def execSysResetRequest (m : Master) (w : Word) (also : List RstSrc) (straps : Straps) (s : State) :
    Outcome State Fault Refusal :=
  .next (rstctlWrite s m w.toNat 4 true also straps).2

/-- COLD_RESET_REQUEST (R54). A word that asks for SYS alone takes a system reset, whose strap samples (R53, R400) the command
does not carry: they are free values (assumption 4). -/
def execColdResetRequest (m : Master) (w : Word) (also : List RstSrc) (s : State) : Outcome State Fault Refusal :=
  .next (if w.toNat / 65536 == 0xA55A && bit w.toNat 0 && !bit w.toNat 1 then
    let (v, s) := drawFree s
    (rstctlWrite s m w.toNat 4 true also ⟨bit v 0, bit v 1, bit v 2⟩).2
  else (rstctlWrite s m w.toNat 4 true also s.pins.straps).2)

/-- MAILBOX_RESET_FIRE (R78): the reset that a RESET command asked for, 1 ms after its response: kind 1 as COLD, kind
0 as SYS. -/
def execMailboxResetFire (t : Time) (straps : Straps) (s : State) : Outcome State Fault Refusal :=
  let s := s.at t
  .next (if s.clk < s.sys.resetAt then s else match s.sys.resetPend with
    | none => s
    | some true => coldReset s [.pin] .refWatch
    | some false => systemReset s [.swsys] straps)

/-! ## Power domains -/

/-- A write of PWR_DOMCTL (R41): each changed request bit is judged alone, in ascending domain number. -/
def domctlJudge (s : State) (w : Nat) : List Nat → Bool × Option Status × State
  | [] => (false, none, s)
  | d :: ds =>
    let want := bit w d
    if want == domReq s d then domctlJudge s w ds
    else
      let st := if want then firstStatus [chk (!roleUses s d) .notInRole, chk (domRetired s d) .absentUnit]
        else chk (roleUses s d && inService s) .conflict
      if st == .ok then
        let s := s.fset PWR_DOMCTL_REQ 0 (putBit (s.fget PWR_DOMCTL_REQ) (d - 1) want)
        let (_, r, s) := domctlJudge s w ds
        (true, r, s)
      else
        let (a, _, s) := domctlJudge (pwrErr s d st) w ds
        (a, some st, s)

/-- The effect of a PWR_DOMCTL write: accepted requests are served one at a time in ascending number (R39). -/
def domctlEff (w : Nat) (s : State) : Status × State :=
  let (took, rej, s) := domctlJudge s w (List.range' 1 16)
  (if took then .ok else rej.getD .ok, serveDomains s)

/-- PWR_DOMCTL_WRITE (R41). -/
def execPwrDomctlWrite (m : Master) (w : Word) (s : State) : Outcome State Fault Refusal :=
  .next (rowWrite s m 0x30000 w false (domctlEff w.toNat))

/-- A domain's power-on completes (R37): ON is set, the domain's registers and memories hold their reset values, its
replica is loaded from TIM (R44), its converters begin a calibration (R253), and the next pending request is served. A
domain not tested since cold reset begins its test (R383); so do PD10 and PD11 in netboot, where no firmware runs that
could test them, and their lanes wait for it (DESIGN CHOICE, assumption 50). CLK_STAT.LOCK stays 1 while a lane quad's own
PLL locks within its power-on (DESIGN CHOICE, assumption 50: R48 speaks of the powered PLLs, and the quad counts as powered
from the end of its power-on). -/
def domainOn (s : State) (d : Nat) : State :=
  let s := domClear { s with sys := { s.sys with
    repl := smErase s.sys.repl d, replAt := if hasReplica d then smSet 0 s.sys.replAt d s.clk else s.sys.replAt } } d
  let s := s.fset PWR_DOMSTAT_ON 0 (putBit (s.fget PWR_DOMSTAT_ON) d true)
  let tested := bit (s.fget SEC_BISTDONE_DONE) d
  let s := if d == 7 then (List.range 4).foldl fltTake s else s
  let s := if d == 7 || d == 8 then
      (List.range' (12 * (d - 7)) 12).foldl (fun s c => s.fset GD_STAT_FB c (b2n (bit s.pins.gfb c))) s
    else s
  let s := if d == 5 || d == 6 then
      (List.range 8).foldl (fun s i => s.fset ADC_STAT_STATE (8 * (d - 5) + i) 1)
        { s with adc.conv := (List.range 8).foldl (fun m i => smSet {} m (8 * (d - 5) + i) { calAt := s.clk }) s.adc.conv }
    else s
  let s := scrubBegin s (domMems d)
  serveDomains { s with
    sys.domBusy := none, sys.testing := if tested then s.sys.testing else putBit s.sys.testing d true }

/-- The instances of a domain that are retired singly (Table 16.2): register, instance numbers. -/
def domInstances (d : Nat) : List Nat :=
  if d == 3 then List.range 64
  else if d == 5 then List.range 8 else if d == 6 then List.range' 8 8
  else if d == 7 then List.range 6 else if d == 8 then List.range' 6 6
  else if 10 ≤ d then List.range' (4 * (d - 10)) 4 else []

/-- Record a retired instance in the register of Table 16.2. -/
def retireInst (d : Nat) (s : State) (i : Nat) : State :=
  let put (F : Fld) (j k : Nat) := s.fset F j (putBit (s.fget F j) k true)
  if d == 3 then put SEC_RETCAP_RET (i / 32) (i % 32)
  else if d == 5 || d == 6 then put SEC_RETADC_RET 0 i
  else if d == 7 || d == 8 then put SEC_RETPAIR_RET 0 i
  else put SEC_RETLANE_RET 0 i

/-- A domain's first self-test ends (R383): `pass` is false when something other than instances failed; `failed` are the
failing instances. A domain that fails, or fails in every instance, is retired and switched off. -/
def domainTested (s : State) (d : Nat) (pass : Bool) (failed : List Nat) : State :=
  let s := s.fset SEC_BISTDONE_DONE 0 (putBit (s.fget SEC_BISTDONE_DONE) d true)
  let s := { s with sys.testing := putBit s.sys.testing d false }
  let insts := domInstances d
  let bad := insts.filter failed.contains
  let s := bad.foldl (retireInst d) s
  if !pass || (insts != [] && bad.length == insts.length) then
    let s := s.fset SYS_RETIRED_RETIRED 0 (putBit (s.fget SYS_RETIRED_RETIRED) d true)
    serveDomains (s.fset PWR_DOMCTL_REQ 0 (putBit (s.fget PWR_DOMCTL_REQ) (d - 1) false))
  else s

end Sys2Proof.Machine
end

