-- ==== Sys2Proof/Machine/Bus.lean ====
section
/-! DEFINITION. The register map as one bus (R4, R6, R8, R65 to R71, R88, R90): every register's write effect and read
effect by address, for writes that have no row of their own and for the routes that reach any register: the QSPI
target, RRA frames, the debug port, the outlet, and the firmware. -/

namespace Sys2Proof.Machine
open Host

/-! ## Mailbox registers (R71, R72) -/

/-- A mailbox byte (mailbox index, offset) and several of them as a number. -/
def mbxByte (s : State) (i o : Nat) : Nat := smGet 0 s.mbx.buf (i * 4096 + o)
def mbxNum (s : State) (i o n : Nat) : Nat := leNat ((List.range n).map (fun j => mbxByte s i (o + j)))
/-- Put bytes into a mailbox buffer. -/
def mbxPut (s : State) (i : Nat) : Nat → List Nat → State
  | _, [] => s
  | o, b :: bs => mbxPut { s with mbx.buf := smSet 0 s.mbx.buf (i * 4096 + o) (b % 256) } i (o + 1) bs

/-- Mailbox `i`, posted in PD0 clock `c`, joins the queue: behind earlier clocks, and within its clock by ascending master
and mailbox number (R74). -/
def queueIn (at_ : SMap Nat) (c i : Nat) : List Nat → List Nat
  | [] => [i]
  | x :: xs => if smGet 0 at_ x == c && i < x then i :: x :: xs else x :: queueIn at_ c i xs

/-- A mailbox is posted (R72, R74). -/
def mbxPost (s : State) (i : Nat) : State :=
  let c := pd0Clk s.clk + 1
  let mbx := { s.mbx with
    queue := queueIn s.mbx.postAt c i s.mbx.queue, postAt := smInsert i c (smErase s.mbx.postAt i) }
  { s.fset MBX_STAT_STATE i 1 with mbx }

/-- The level of the HOST_IRQ_N ball: low while an enabled DONE bit of M1 is set (R82). -/
def hostIrqN (s : State) : Bool := s.fget MBX_IRQ_DONE 1 &&& s.fget MBX_IEN_EN 1 == 0
/-- The debug status register: the enabled DONE bits of M3 (Table 3.10). -/
def debugStatus (s : State) : Nat := s.fget MBX_IRQ_DONE 3 &&& s.fget MBX_IEN_EN 3

/-- A write into the MBX block: IRQ and IEN of the accessing master, and of M1 and M3 their headers, GO and buffers. -/
def mbxEff (m a w : Nat) (s : State) : Status × State :=
  let o := a % 65536
  if o == 0 then (.ok, s.fset MBX_IRQ_DONE m (s.fget MBX_IRQ_DONE m - (s.fget MBX_IRQ_DONE m &&& w % 256)))
  else if o == 4 then (.ok, s.fset MBX_IEN_EN m w)
  else if !mbxMaster m then (.ok, s)
  else if 0x8000 ≤ o then
    let k := m * 8 * 4096 + (o - 0x8000)
    (.ok, eccSupPut s [mbxEcc k] (fun s => mbxPut s 0 k (leBytes 4 w)))
  else if 0x100 ≤ o && o < 0x180 then
    let i := m * 8 + (o - 0x100) / 16
    match o % 16 with
    | 0 => (.ok, s.fsets [(MBX_HDR0_OPCODE, i, bits w 16 16), (MBX_HDR0_LENGTH, i, w)])
    | 4 => (.ok, s.fset MBX_HDR1_SEQ i (bits w 16 16))
    | 8 => (.ok, if bit w 0 then mbxPost s i else s)
    | _ => (.ok, s)
  else (.ok, s)

/-- MBX_GO (R72): a write of MBX_CTL of mailbox n. -/
def execMbxGo (m : Master) (n : Fin 8) (w : Word) (s : State) : Outcome State Fault Refusal :=
  let a := 0x10108 + 16 * n.val
  .next (rowWrite s m a w false (mbxEff m a w.toNat))

/-! ## Access tables and journal registers -/

/-- A write of an ACC register (Tables 3.18, 3.19, 3.23); only M0 reaches this. -/
def accEff (m a w : Nat) (s : State) : Status × State :=
  match a with
  | 0x20000 => (.ok, s.fset ACC_REGION_REGION 0 w)
  | 0x20004 =>
    let r := s.fget ACC_REGION_REGION
    if (blkOf (r * 4096)).isNone then (.range, accErr s m a .range)
    else
      let v := bits w 0 27 / 8 * 8 + 7 + bits w 31 1 * 2 ^ 31
      (.ok, { s with mbx := { s.mbx with
        accTab := smInsert r v (smErase s.mbx.accTab r), m3w := smInsert r (bits w 9 3) (smErase s.mbx.m3w r) } })
  | 0x20010 =>
    let s := if bit w 31 then s.fset ACC_ERR_VALID 0 0 else s
    (.ok, if bit w 30 then s.fset ACC_ERR_MULTI 0 0 else s)
  | 0x20028 => (.ok, s.fset ACC_JNLCFG_STOP 0 w)
  | 0x2002c =>
    let (st, s') := jnlFree s (w % 2 ^ 13)
    if st == .ok then (.ok, s') else (st, accErr s m a st)
  | 0x20030 => (.ok, s.fset ACC_JNLIDX_IDX 0 w)
  | _ => (.ok, s)

/-- ACC_JNLFREE (R95). -/
def execAccJnlfree (m : Master) (w : Word) (s : State) : Outcome State Fault Refusal :=
  .next (rowWrite s m 0x2002c w false (accEff m 0x2002c w.toNat))

/-! ## The effect of a write by address -/

/-- A register without an effect of its own: RW and RWS fields take the written value, W1C fields clear (R6). -/
def plainEff (r : Reg) (i w : Nat) (s : State) : Status × State :=
  (.ok, r.flds.foldl (fun s F =>
    let v := bits w F.lo F.width
    match F.acc with
    | .rw | .rws => s.fset F i v
    | .w1c => s.fset F i (s.fget F i - (s.fget F i &&& v))
    | _ => s) s)

/-- A write of a SEC register that may be written (R395). -/
def secEff (m a w : Nat) (r : Reg) (s : State) : Status × State :=
  if a == 0x60058 then einjEff m w s else if a == 0x60050 then scrubCfgEff w s else plainEff r 0 w s

/-- A PWM pair's or fault group's register. -/
def pwmRegEff (m a w : Nat) (r : Reg) (i : Nat) (s : State) : Status × State :=
  match r.addr with
  | 0x100100 => pwmCfgEff m i w s
  | 0x100104 => stagedEff m i 0 w s
  | 0x100108 => stagedEff m i 1 w s
  | 0x10010c => stagedEff m i 2 w s
  | 0x100110 => stagedEff m i 3 w s
  | 0x100114 => phstepEff m i w s
  | 0x100118 => pwmCtlEff m i w s
  | 0x101000 => gcommitEff m w s
  | 0x101004 => gcancelEff m w s
  | 0x102000 => srcstatEff 0 w s
  | 0x102004 => srcstatEff 32 (w % 2 ^ 24) s
  | 0x102010 => tsidxEff m i w s
  | 0x102020 => pincfgEff w s
  | 0x102024 => swforceEff w s
  | 0x102100 => gcfgEff m i w s
  | 0x102120 => gstatEff i w s
  | 0x102124 => grpRegEff m i [] w s
  | _ => if 0x102104 ≤ a && a < 0x102300 then grpRegEff m i r.flds w s else plainEff r i w s

def gdRegEff (m w : Nat) (r : Reg) (i : Nat) (s : State) : Status × State :=
  match r.addr with
  | 0x110100 => gdCfgEff m i w s
  | 0x110104 => gdTimeEff m i r.flds [GD_TON_TWON, GD_TON_TPRE] w s
  | 0x110108 => gdTimeEff m i r.flds [GD_TOFF_TWOFF] w s
  | 0x11010c => gdTimeEff m i r.flds [GD_TFB_TFBOFF] w s
  | 0x110114 => gdEvtEff i w s
  | 0x111004 => gdFbsrcEff w s
  | 0x111100 => gdDtEff m i w s
  | _ => plainEff r i w s

def sprRegEff (m w : Nat) (r : Reg) (i : Nat) (s : State) : Status × State :=
  match r.addr with
  | 0x120000 => sprCfgEff m w s
  | 0x120004 => sprSelEff m r.flds w s
  | 0x120008 => sprSelEff m r.flds w s
  | 0x12000c => sprTimeEff m w s
  | 0x120010 => sprShedcfgEff m w s
  | 0x120014 => sprSenseEff m w s
  | 0x120018 => sprSensedvEff m w s
  | 0x120020 => sprCtlEff m w s
  | 0x120028 => phfailEff w s
  | 0x12002c => sprEvtEff w s
  | 0x120038 => sprPffEff m w s
  | _ => plainEff r i w s

def adcRegEff (m a w : Nat) (r : Reg) (i : Nat) (s : State) : Status × State :=
  match r.addr with
  | 0x130100 => adcCfgEff m i w s
  | 0x130104 => adcTimerEff m i w s
  | 0x130120 => injEff m i w s
  | 0x130124 => adcCtlEff m i w s
  | 0x130140 => adcSlotEff m (i / 16) ((a - 0x130140) / 4) w s
  | 0x1301d0 => routeEff m (i / 5) ((a - 0x1301d0) / 4) w s
  | 0x131000 => adcPullEff m i w s
  | 0x131100 => wcfgEff m i w s
  | 0x131110 => wctlEff m i w s
  | 0x131114 => wstatEff i w s
  | _ => plainEff r i w s

def timRegEff (m w : Nat) (r : Reg) (i : Nat) (s : State) : Status × State :=
  match r.addr with
  | 0x40000 => timCfgEff m w s
  | 0x40004 => timCycEff m w s
  | 0x40008 => timServoEff m w s
  | 0x4000c => timLockcfgEff m w s
  | 0x40010 => timHoldEff m w s
  | 0x400a0 => timAsymEff m i w s
  | 0x40100 => trgcfgEff m i w s
  | 0x40104 => trgFldEff m i TIM_TRGPER_PER w s
  | 0x40108 => trgFldEff m i TIM_TRGNS_NS w s
  | 0x4010c => trgFldEff m i TIM_TRGSEC_SEC_LO w s
  | _ => plainEff r i w s

def voteRegEff (m w : Nat) (r : Reg) (i : Nat) (s : State) : Status × State :=
  match r.addr with
  | 0x151004 => lcfgEff m w s
  | 0x151014 => xcfgEff m w s
  | 0x151024 => xmaskEff m i w s
  | 0x151040 => slistEff m i w s
  | 0x151800 => ccfgEff m w s
  | 0x151804 => cmaskEff m i w s
  | _ =>
    if 0x151000 ≤ r.addr && r.addr != 0x151030 && isStack s != (r.addr < 0x151800) then (.notInRole, voteErr s m .notInRole)
    else plainEff r i w s

def capRegEff (m w : Nat) (r : Reg) (i : Nat) (s : State) : Status × State :=
  let s := capSettle s
  match r.addr with
  | 0x160100 => capSrcEff m i w s
  | 0x160104 => capMcfgEff m i w s
  | 0x161000 => trigcfgEff m w s
  | 0x161004 => swtrigEff w s
  | 0x161008 => capFreeEff m w s
  | 0x161020 => skewctlEff m w s
  | 0x161024 => mphaseEff m w s
  | 0x161104 => mtcfgEff m w s
  | 0x161108 => mtstepEff m w s
  | 0x16110c => mtptEff m w s
  | 0x161110 => mtupEff m w s
  | 0x161114 => mtloEff m w s
  | _ => plainEff r i w s

def mashRegEff (m w : Nat) (r : Reg) (i : Nat) (s : State) : Status × State :=
  match r.addr with
  | 0x171004 => swapctlEff m w s
  | 0x171008 => trarmEff w s
  | 0x17100c => trstartEff w s
  | 0x171010 => trstopEff w s
  | 0x172000 => bankAddrEff m 0 w s
  | 0x172004 => bankDataEff m 0 w s
  | 0x173000 => bankAddrEff m 1 w s
  | 0x173004 => bankDataEff m 1 w s
  | 0x174000 => trcfgRegEff m i 0 w s
  | 0x174004 => trcfgRegEff m i 1 w s
  | 0x174008 => trcfgRegEff m i 2 w s
  | 0x176004 => tunedataEff m w s
  | _ => plainEff r i w s

def kilnRegEff (m w : Nat) (r : Reg) (i : Nat) (s : State) : Status × State :=
  match r.addr with
  | 0x50000 => kilnCfgEff m w s
  | 0x50008 => compselEff m w s
  | 0x50010 => kilnEvtEff w s
  | 0x50018 => sbrokenEff 0 w s
  | 0x5001c => sbrokenEff 1 (w % 2 ^ 12) s
  | 0x50100 => scfgEff m i w s
  | 0x50200 => sparEff m i w s
  | 0x50400 => gthEff m i KILN_GTH0_TH1 KILN_GTH0_TH2 w s
  | 0x50404 => gthEff m i KILN_GTH1_TH3 KILN_GTH1_TRIP w s
  | 0x50408 => kilnGcfgEff m i w s
  | _ => plainEff r i w s

/-- What a write does once the access itself is allowed. -/
def busEff (m a w : Nat) (s : State) : Status × State :=
  match blkOf a with
  | none => (.ok, s)
  | some .grist => winWrite m a w s
  | some .cask => (.conflict, capErr s m .conflict)
  | some .trace => (.ok, (eccPart s 8 ((a - 0x03000000) / 32)).mwrite a 4 w)
  | some .mbx => mbxEff m a w s
  | some .acc => accEff m a w s
  | some b =>
    match findReg s b m a (blkRegs b) with
    | none => (.ok, s)
    | some (r, i) =>
      match b with
      | .pwm => pwmRegEff m a w r i s
      | .gd => gdRegEff m w r i s
      | .spr => sprRegEff m w r i s
      | .adc => adcRegEff m a w r i s
      | .lnk =>
        if r.addr == 0x140100 then lnkCfgEff m i w s
        else if r.addr == 0x14010c then lnkCtlEff i w s
        else if r.addr == 0x140130 then lnkTestEff m i w s
        else plainEff r i w s
      | .tim => timRegEff m w r i s
      | .vote => voteRegEff m w r i s
      | .cap => capRegEff m w r i s
      | .mash => mashRegEff m w r i s
      | .kiln => kilnRegEff m w r i s
      | .sec => secEff m a w r s
      | .pt =>
        if r.addr == 0x18000c then dirctlEff m w s
        else if r.addr == 0x180000 then diridxEff m w s
        else if r.addr == 0x180010 then fillcfgEff m w s
        else if !isStack s && 0x180014 ≤ r.addr && r.addr < 0x180038 then (.notInRole, ptErr s m .notInRole 0)
        else plainEff r i w s
      | .pwr => if r.addr == 0x30000 then domctlEff w s else plainEff r i w s
      | _ => plainEff r i w s

/-- The write commits and needs the C right (R90). -/
def busNeedC (s : State) (m a w : Nat) : Bool :=
  match blkOf a with
  | some .pwm =>
    a == 0x101000 || (a == 0x100118 && bit w 0)
      || (match findReg s .pwm m a pwmRegs with
          | some (r, i) => r.addr == 0x100108 && stagedNeedC s i 1
          | none => false)
  | some .spr => a == 0x120020 && sprCtlNeedC w
  | some .adc => (0x131100 ≤ a && a < 0x131300 && a % 32 == 16) && bit w 0
  | some .mash => a == 0x171004 && (bit w 0 || bit w 1)
  | _ => false

/-- One write access at any address (R67). A reset that it asks for (R54) comes with it; the levels at the strap balls, which
it samples (R53, R400), come with no access, and are free values (assumption 4). -/
def busWrite (s : State) (m a w width : Nat) (epochOk : Bool) : Status × State :=
  if a == 0x14 then
    let (v, s) := drawFree s
    rstctlWrite s m w width epochOk [] ⟨bit v 0, bit v 1, bit v 2⟩
  else regWrite s m a w width (busNeedC s m a w) epochOk (busEff m a w)

/-- REGISTER_WRITE (R8): a write of any width at any address by a direct access. -/
def execRegisterWrite (m : Master) (a width : Nat) (w : Word) (s : State) : Outcome State Fault Refusal :=
  .next (busWrite s m (a % 2 ^ 32) w.toNat width true).2

/-! ## The effect of a read by address -/

/-- What a read returns and does once the access itself is allowed. -/
def busReadEff (m a : Nat) (s : State) : Nat × State :=
  match blkOf a with
  | none => (0, s)
  | some .grist => winRead s m a
  | some .cask => let s := caskRead (capSettle s) ((a - 0x02000000) / 32); (peekWord s m a, s)
  | some .trace => let s := eccRead s 8 ((a - 0x03000000) / 32); (peekWord s m a, s)
  | some .mbx =>
    let k := m * 8 * 4096 + (a % 65536 - 0x8000)
    if mbxMaster m && 0x8000 ≤ a % 65536 then (peekWord s m a, eccSupGet s [mbxEcc k] id) else (peekWord s m a, s)
  | some b =>
    match findReg s b m a (blkRegs b) with
    | none => (0, s)
    | some (r, i) =>
      let s := if b == .adc then adcSettle s (chsel s .adc m) else if b == .cap then capSettle s else s
      match r.addr with
      | 0x40020 => nowRead s m
      | 0x130180 => resloRead s m i
      | 0x130184 => reshiRead s m i
      | 0x172004 => bankDataRead m 0 s
      | 0x173004 => bankDataRead m 1 s
      | 0x175004 => ndataRead m s
      | 0x176004 => tunedataRead m s
      | 0x20040 =>
        let s := eccRead s 1 (s.fget ACC_JNLIDX_IDX)
        (regView s m r i, s)
      | _ => (regView s m r i, s)

/-- One read access at any address: refused, it reads 0 and is recorded (R66, R67, R70). -/
def busRead (s : State) (m a width : Nat) : Status × Nat × State :=
  if (blkOf a).isNone then (.range, 0, unmapped s m a)
  else
    let st := readStatus s m a width
    if st != .ok then (st, 0, recRefused s m a (readRest s m a width))
    else
      let (v, s) := busReadEff m a s
      (.ok, v, s)

end Sys2Proof.Machine
end

