-- ==== Sys2Proof/Machine/MashIo.lean ====
section
/-! DEFINITION. How the mash engine, as master M7, reads and writes points and registers (R90, R100, R102, R127, R128). -/

namespace Sys2Proof.Machine
open Host

/-- What one source gives: the value as binary32, or a word that is not finite; whether it is invalid; SUBST; whether the
read was refused. -/
structure Got where
  w : Nat
  bad : Bool
  sub : Bool := false
  refused : Bool := false

/-- One point for the engine, as M7: a record that does not exist reads 0, and PT_ERR records RANGE (R100). -/
def pointIn (s : State) (p : Nat) : Got × State :=
  match slotOf s p with
  | none => (⟨0, true, false, true⟩, ptErr s 7 .range p)
  | some k =>
    let a := winAddr k 0
    if !domOn s 2 || !hasRight s 7 a 0 then (⟨0, true, false, true⟩, recRefused s 7 a (readRest s 7 a 4))
    else
      let s := eccRead (eccRead s 6 (k / 64)) 5 (k / 2)
      if !slotValid s k then (⟨0, true, false, true⟩, ptErr s 7 .range p)
      else
        let m := slotMeta s k
        let e := slotEnt s k
        let v := slotValue s k
        let inv := bit m M_STALE || bit m M_BAD || !bit m M_WRITTEN
        let w := ptF32 (dType e) v
        (⟨w, inv || !f32fin w, bit m M_SUBST, false⟩, s)

/-- A result register (converter × 6 + number) that an address reads through M7's window, and which of its words: RESLO,
RESHI, VAL. -/
def adcWordOf (s : State) (a : Nat) : Option (Nat × Nat) :=
  let c := 6 * chsel s .adc 7
  if 0x130180 ≤ a && a < 0x1301b0 then some (c + (a - 0x130180) / 8, (a - 0x130180) / 4 % 2)
  else if 0x1301b0 ≤ a && a < 0x1301c8 then some (c + (a - 0x1301b0) / 4, 2) else none

/-- A register read by M7 at an instant. A converter result reaches the engine 2.0 to 3.0 ns after it is written (Table 2.8):
before that the engine reads the one before. -/
def m7Read (s : State) (a : Nat) (at_ : Time) : Status × Nat × State :=
  let old := (adcWordOf s a).map (fun e => (smGet ([], 0) s.adc.was e.1, e.2))
  let (st, w, s) := busRead s 7 a 4
  match st, old with
  | .ok, some ((ws, t), k) =>
    if ws.isEmpty || t + 3 * nsT ≤ at_ then (st, w, s)
    else let (d, s) := drawBetween s (2 * nsT) (3 * nsT); (st, if at_ < t + d then nth ws k else w, s)
  | _, _ => (st, w, s)

/-- A register write by M7, its refusal in MASH_ERR. -/
def m7Write (s : State) (a v : Nat) : State :=
  let (st, s) := busWrite s 7 a v 4 true
  if st == .ok then s else mashErr s 7 st

/-! ## The outlet's writes (R128) -/

/-- A binary32 value as an integer, an infinity as one beyond every range. -/
def roundT (w : Nat) : Int := if f32fin w then (f32v w).round else f32end w * 2 ^ 200

/-- An integer clamped to a range; CLAMP counts it. -/
def clampCnt (s : State) (x lo hi : Int) : Int × State :=
  if x < lo then (lo, s.satAdd MASH_NUMCNT_CLAMP 0) else if hi < x then (hi, s.satAdd MASH_NUMCNT_CLAMP 0) else (x, s)

/-- A binary32 value converted to a point's TYPE; a NaN has no integer, which is a free value (assumption 4). -/
def toType (s : State) (ty w : Nat) : Nat × State :=
  let r := roundT w
  if f32nan w && !([1, 4, 7].contains ty) then let (v, s) := drawFree s; (v % (if ty64 ty then 2 ^ 64 else 2 ^ 32), s)
  else match ty with
  | 1 => (b2n (!(f32fin w && (f32v w).isZero)), s)
  | 3 => let (x, s) := clampCnt s r (-(2 ^ 31)) (2 ^ 31 - 1); (extendPt 3 (ofSigned 32 x) * 2 ^ 32 + ofSigned 32 x, s)
  | 4 => (w, s)
  | 5 => let (x, s) := clampCnt s r 0 (2 ^ 64 - 1); (x.toNat, s)
  | 6 => let (x, s) := clampCnt s r (-(2 ^ 63)) (2 ^ 63 - 1); (ofSigned 64 x, s)
  | 7 => ((f64ofF32 w).getD (if f32nan w then 0x7ff8000000000000 else b2n (fSign b32 w) * 2 ^ 63 + 0x7ff0000000000000), s)
  | 10 => let (v, s) := drawFree s; (v % 2 ^ 64, s)
  | _ => let (x, s) := clampCnt s r 0 (2 ^ 32 - 1); (x.toNat, s)

/-- A binary32 value, scaled, to a point of the outlet. -/
def outPut (s : State) (p w : Nat) (sub : Bool) : State :=
  match slotOf s p with
  | none => ptErr (mashErr s 7 .range) 7 .range p
  | some k =>
    let a := winAddr k 0
    let acc := chk (!hasRight s 7 a 1) .denied
    let own := firstStatus [chk (!slotValid s k) .range, chk (dSrc (slotEnt s k) != SRC_MASH) .conflict]
    let st := firstStatus [domStatus s 2, acc, own]
    if st != .ok then
      let s := mashErr s 7 st
      if domStatus s 2 == .ok && acc == .ok then ptErr s 7 st p else recRefused s 7 a acc
    else
      let (v, s) := toType s (dType (slotEnt s k)) w
      ptWrite s k v sub

end Sys2Proof.Machine
end

