-- ==== Sys2Proof/Machine/Ship.lean ====
section
/-! DEFINITION. The shipped bills (R155 to R169, R174, R175): what one execution of the stack bill's main task, and of the
cell bill's main and fast tasks, computes. Each named quantity is computed exactly from binary32 words and rounded once
to binary32; the blocks SRFPLL, PI, ALLOC and MODREF are the engine's own. `none` stands for a result outside the number
format: the engine then keeps its outputs. -/

namespace Sys2Proof.Machine
open Host

/-- The shipped bill is the one in force (R155): selected by the control record, and held by the active bank. -/
def shippedOn (s : State) : Bool :=
  cfgInForce s && (cfgOf s).ctrl.shipped && domOn s 1 && holdsShipped s (actBank s)

/-- START, DEADLINE, FAST_PER and OVR_LIMIT of the bill that runs (Table 5.2, R174). -/
def billStart (s : State) : Nat := hdrStart s (actBank s)
def billDeadline (s : State) : Nat := hdrDeadline s (actBank s)
def billFast (s : State) : Nat := hdrFast s (actBank s)
def billOvr (s : State) : Nat := hdrOvr s (actBank s)

/-- The engine has a bill to run. -/
def mashRuns (s : State) : Bool := domOn s 1 && (holdsShipped s (actBank s) || hdrBlocks s (actBank s) != 0)

/-! ## Cells and arms -/

/-- The cells of an arm in arm position order (R21). -/
def armCells (s : State) (a : Nat) : List Nat :=
  (List.range 24).flatMap (fun k =>
    if (cfgOf s).topo.chainArm.getD k 0 == a then (List.range (chainLen s k)).map (fun q => 8 * k + q) else [])
def armPhase (s : State) (a : Nat) : Nat := (cfgOf s).topo.armPhase.getD a 3
def usedArms (s : State) : List Nat := (List.range 6).filter (fun a => armPhase s a != 3 && !(armCells s a).isEmpty)
/-- The cells of the single arm of a phase (R155). -/
def phaseCells (s : State) (x : Nat) : List Nat :=
  match (usedArms s).find? (fun a => armPhase s a == x) with | some a => armCells s a | none => []

/-- Points of Table 6.3. -/
def P_STATE : Nat := 0x30000
def P_CLASS (c : Nat) : Nat := 0x30040 + c
def P_WORD (c w : Nat) : Nat := if w < 16 then 0x34000 + 16 * c + w else 0x35000 + 16 * c + (w - 16)

/-- The value word of a stack point. -/
def ptWord (s : State) (p : Nat) : Nat := slotValue s p % 2 ^ 32

/-- Class codes (Table 6.3). -/
def C_USED : Nat := 1
def C_FROZEN : Nat := 2
def C_JOINING : Nat := 3
def C_LOST : Nat := 4

/-- The class of a cell: the racked point where there is one, else the stack's own. -/
def classOf (s : State) (c : Nat) : Nat :=
  let k := P_CLASS c
  if slotValid s k && dRack (slotEnt s k) && bit (slotMeta s k) M_WRITTEN then ptWord s k else smGet 0 s.ctl.cls c

/-- The class points read (R117). -/
def classReads (s : State) : State := if domOn s 2 then eccSlots s ((cfgCells s).map P_CLASS) else s

/-- The class of a cell in the cycle, and the one that stage 8 uses: a USED cell with a STALE point is FROZEN there (R164). -/
def rawClass (s : State) (c : Nat) : Nat := smGet 0 s.ctl.clsNow c
def billClass (s : State) (c : Nat) : Nat :=
  let stale (i : Nat) : Bool := bit (slotMeta s (c * 1024 + i)) M_STALE
  if rawClass s c == C_USED && [16, 17, 18, 22, 23].any stale then C_FROZEN else rawClass s c

/-- A value of a cell point, and of the cell's previous command words. -/
def cellQ (s : State) (c i : Nat) : Q := f32v (ptWord s (c * 1024 + i))
def prevQ (s : State) (c w : Nat) : Q := f32v (ptWord s (P_WORD c w))
/-- A cell point whose node has no QUAL but for staleness (R127): written, not BAD, finite. Elements with QUAL take no part
in sums, means and allocation (R138, R139). -/
def soundPt (s : State) (c i : Nat) : Bool :=
  let m := slotMeta s (c * 1024 + i)
  bit m M_WRITTEN && !bit m M_BAD && f32fin (ptWord s (c * 1024 + i))

/-- The USED and the FROZEN cells of a list, for stages 3 to 6 and 10. -/
def used (s : State) (l : List Nat) : List Nat := l.filter (fun c => rawClass s c == C_USED)
def frozen (s : State) (l : List Nat) : List Nat := l.filter (fun c => rawClass s c == C_FROZEN)
/-- The USED cells whose points i all are sound. -/
def usedWith (s : State) (l : List Nat) (i : List Nat) : List Nat := (used s l).filter (fun c => i.all (soundPt s c))

def qMax (a b : Q) : Q := if a.lt b then b else a
def qMin (a b : Q) : Q := if b.lt a then b else a
def qSum3 (f : Nat → Q) : Q := qSum ((List.range 3).map f)
/-- √ rounded to binary32. -/
def qRoot (x : Q) : Option Q := (qSqrt32 x).map f32v
/-- A quantity rounded to binary32. -/
def qr (x : Q) : Option Q := (f32r x).map f32v

/-- The score of a cell (R166, R168). -/
def score (s : State) (c : Nat) : Q :=
  let r := (cfgOf s).ctrl
  (cellQ s c 22).add ((f32v r.wE).mul (((cellQ s c 23).div (f32v r.eRef)).getD (Q.ofNat 0)))

/-! ## State words and the engine's blocks -/

def stQ (s : State) (i : Nat) : Nat := smGet 0 s.mash.st i

/-- One PI loop without limits of its own beyond the format, or within ±lim (R132). -/
def piStep (kp ki : Nat) (lo hi e aw : Nat) (i0 : Nat) (ts : Q) : Option (Nat × Nat) :=
  match blkPi { op := fun k => if k == 0 then e else if k == 2 then aw else 0
                par := fun k => [kp, ki, 0, lo, hi, 0].getD k 0
                vec := fun _ _ => (0, false), st := [i0], prev := [], act := .run, ts } with
  | some o => match o.outs, o.st with | (u, _) :: _, i :: _ => some (u, i) | _, _ => none
  | none => none

def F_MAX : Nat := 0x7f7fffff
def F_MIN : Nat := 0xff7fffff

/-- The SRFPLL of stage 2 (R160): θ, ω, amplitude, LOCK and the state. -/
def shipPll (s : State) (al be : Nat) (ts : Q) : Option ((Nat × Nat × Nat × Nat) × List Nat) := do
  let r := (cfgOf s).ctrl
  let w0 := (piQ.mul (Q.ofNat (2 * r.fNom)))
  let wn ← f32r w0
  let lo ← f32r (w0.mul ⟨9, 10⟩)
  let hi ← f32r (w0.mul ⟨11, 10⟩)
  let vf ← f32r ((f32v r.vFloor).mul ⟨1, 10⟩)
  let el ← f32r ⟨2, 100⟩
  let o ← blkSrfpll { op := fun k => if k == 0 then al else be
                      par := fun k => [r.pllKp, r.pllKi, wn, lo, hi, vf, el].getD k 0
                      vec := fun _ _ => (0, false), st := [stQ s 0, stQ s 1, stQ s 2], prev := [], act := .run, ts }
  match o.outs with
  | [(th, _), (om, _), (vg, _), (lk, _)] => some ((th, om, vg, lk), o.st)
  | _ => none

/-! ## Stages 3 to 7 -/

/-- What a cycle of the stack bill gives: per cell the words 0 to 4, points, state words, and whether the reference and
measured currents lie below I_FLOOR. -/
structure ShipOut where
  words : List (Nat × List Nat)
  pts : List (Nat × Nat)
  st : List (Nat × Nat)
  low : Bool

/-- A power reference moved towards its target by at most rate × T; a rate of 0 does not limit (R165). -/
def ramp (old target rate : Q) (limit : Bool) (ts : Q) : Q :=
  if !limit then target
  else
    let d := rate.abs.mul ts
    target.clamp (old.sub d) (old.add d)

/-- Sum of a cap over the USED cells and the matching previous powers of the FROZEN cells of an arm (R165). -/
def armCap (s : State) (l : List Nat) (pt : Nat) (neg : Bool) : Q :=
  let p (c : Nat) : Q := let v := prevQ s c 4; qMax (if neg then v.neg else v) (Q.ofNat 0)
  (qSum ((usedWith s l [pt]).map (fun c => cellQ s c pt))).add (qSum ((frozen s l).map p))

/-- The demands of stage 6 after spill (R166): base demands D, capacities C, all counted positive in the direction of
P_eff. -/
def spill (d c : Nat → Q) (x : Nat) : Q :=
  let z := Q.ofNat 0
  let e (x : Nat) := qMax ((d x).sub (c x)) z
  let h (x : Nat) := qMax ((c x).sub (d x)) z
  let hs := qSum3 h
  let p := (d x).sub (e x)
  match ((qSum3 e).mul (h x)).div hs with
  | some q => if hs.isZero then p else p.add q
  | none => p

/-- Turn a phasor by +2πx/3. -/
def turn3 (x : Nat) (d q : Q) : Q × Q :=
  let r := f32v F_SQRT3H
  let h : Q := ⟨1, 2⟩
  match x with
  | 0 => (d, q)
  | 1 => ((d.mul h).neg.sub (q.mul r), (d.mul r).sub (q.mul h))
  | _ => ((d.mul h).neg.add (q.mul r), ((d.mul r).neg).sub (q.mul h))

/-- The commands of one arm (R168, R169): words 0, 1 and 4 of each cell, and the shortfall. -/
def armCmds (s : State) (l : List Nat) (px vd vq id iq : Q) (iHigh : Bool) : Option (List (Nat × Nat × Nat × Nat) × Nat) := do
  let r := (cfgOf s).ctrl
  let u := l.filter (fun c => billClass s c == C_USED)
  let f := l.filter (fun c => billClass s c == C_FROZEN)
  let n := u.length
  let prem := px.sub (qSum (f.map (fun c => prevQ s c 4)))
  let els := u.map (fun c =>
    let lo := (cellQ s c 16).neg
    let hi := cellQ s c 17
    if hi.lt lo || !([16, 17, 22, 23].all (soundPt s c)) then none else some ({ lo, hi, c := (f32v r.gBal).mul (score s c) } : AllocEl))
  let (ps, _, short, _, _) ← allocF els prem
  let pbar := ((qSum (ps.map f32v)).div (Q.ofNat n)).getD (Q.ofNat 0)
  let fd := qSum (f.map (fun c => prevQ s c 0))
  let fq := qSum (f.map (fun c => prevQ s c 1))
  let i2 := (id.mul id).add (iq.mul iq)
  let cmds ← (u.zip ps).mapM (fun (e : Nat × Nat) => do
    let k := if iHigh then (((f32v e.2).sub pbar).mul (Q.ofNat 2)).div i2 else some (Q.ofNat 0)
    let k := k.getD (Q.ofNat 0)
    let bd := ((vd.sub fd).div (Q.ofNat n)).getD (Q.ofNat 0)
    let bq := ((vq.sub fq).div (Q.ofNat n)).getD (Q.ofNat 0)
    return (e.1, ← f32r (bd.add (k.mul id)), ← f32r (bq.add (k.mul iq)), e.2))
  return (cmds, short)

/-- One execution of the shipped stack bill (Table 6.1). `grid` holds the three phase-to-neutral grid voltages and the
three arm currents sampled at the boundary. -/
def shipStack (s : State) (grid : List Nat) : Option ShipOut := do
  let r := (cfgOf s).ctrl
  let z := Q.ofNat 0
  let ts : Q := ⟨s.fget TIM_CYC_T, 1000000000⟩
  let cells (x : Nat) := phaseCells s x
  -- stage 2
  let (al, be, _) ← clarkeF (nth grid 0) (nth grid 1) (nth grid 2)
  let ((thw, omw, vgw, lkw), pll) ← shipPll s al be ts
  let th := f32v thw
  let om := f32v omw
  let vg := f32v vgw
  -- stage 3
  let released := s.ctl.step == 4
  let stop := s.ctl.stop.isSome
  let ref (i : Nat) := f32v (ptWord s (0x30400 + i))
  let lim (i : Nat) := stop || !(ref i).isZero
  let rate (i : Nat) := if stop then f32v r.stopRate else ref i
  let pr ← f64r (if released then ramp (f64v (stQ s 8)) (if stop then z else ref 0) (rate 2) (lim 2) ts else z)
  let qrw ← f64r (if released then ramp (f64v (stQ s 9)) (if stop then z else ref 1) (rate 3) (lim 3) ts else z)
  let dis (x : Nat) := armCap s (cells x) 17 false
  let chg (x : Nat) := armCap s (cells x) 16 true
  let p1 := (f64v pr).clamp (qSum3 chg).neg (qSum3 dis)
  let l0 := !((f64v pr).sub p1).isZero
  -- stage 4
  let vm := qMax vg (f32v r.vFloor)
  let im := f32v r.iMax
  let curr (p : Q) : Q := ((p.mul (Q.ofNat 2)).div (vm.mul (Q.ofNat 3))).getD z
  let id0 := curr p1
  let iq0 := (curr (f64v qrw)).neg
  let first := (if r.prio == 0 then id0 else iq0).clamp im.neg im
  let rest ← qRoot (qMax ((im.mul im).sub (first.mul first)) z)
  let second := (if r.prio == 0 then iq0 else id0).clamp rest.neg rest
  let id ← qr (if r.prio == 0 then first else second)
  let iq ← qr (if r.prio == 0 then second else first)
  let l1 := im.lt (if r.prio == 0 then id0 else iq0).abs || rest.lt (if r.prio == 0 then iq0 else id0).abs
  let pe ← qr (if l1 then (vm.mul id).mul ⟨3, 2⟩ else p1)
  -- rewritten with the V_g that formed the currents, V_FLOOR below it (DESIGN CHOICE, assumption 50)
  let qe ← qr (if l1 then ((vm.mul iq).mul ⟨3, 2⟩).neg else f64v qrw)
  -- stage 5
  let (ial, ibe, _) ← clarkeF (nth grid 3) (nth grid 4) (nth grid 5)
  let (mdw, mqw) ← parkF ial ibe thw
  let md := f32v mdw
  let mq := f32v mqw
  let w0 := piQ.mul (Q.ofNat (2 * r.fNom))
  let bw := (f32v r.bwCc).mul (piQ.mul (Q.ofNat 2))
  let kp ← f32r (bw.mul (f32v r.lArm))
  let ki ← f32r (bw.mul (f32v r.resArm))
  let awd ← f32ofF64 (stQ s 12)
  let awq ← f32ofF64 (stQ s 13)
  let (ud, sd) ← if released then piStep kp ki F_MIN F_MAX (← f32r (id.sub md)) awd (stQ s 3) ts else some (0, 0)
  let (uq, sq) ← if released then piStep kp ki F_MIN F_MAX (← f32r (iq.sub mq)) awq (stQ s 4) ts else some (0, 0)
  let xl := w0.mul (f32v r.lArm)
  let vd0 ← qr ((vg.add (f32v ud)).sub (xl.mul mq))
  let vq0 ← qr ((f32v uq).add (xl.mul md))
  let vdc (x : Nat) := qSum (((used s (cells x) ++ frozen s (cells x)).filter (soundPt s · 18)).map (fun c => cellQ s c 18))
  let head := (f32v r.mMax).mul (qMin (vdc 0) (qMin (vdc 1) (vdc 2)))
  let amp ← qRoot ((vd0.mul vd0).add (vq0.mul vq0))
  let room := qMax (head.sub (f64v (stQ s 10))) z
  let l2 := room.lt amp
  let f := if l2 then (room.div amp).getD z else Q.ofNat 1
  let vd ← qr (vd0.mul f)
  let vq ← qr (vq0.mul f)
  -- stage 6
  let scored (x : Nat) := usedWith s (cells x) [22, 23]
  let n (x : Nat) := (scored x).length
  let sm (x : Nat) : Option Q := if n x == 0 then none else (qSum ((scored x).map (score s))).div (Q.ofNat (n x))
  let known := (List.range 3).filterMap sm
  let sbar := ((qSum known).div (Q.ofNat known.length)).getD z
  let ew (x : Nat) : Option Nat := f32r ((((sm x).getD sbar)).sub sbar)
  let bal (x : Nat) : Option (Nat × Nat) := do
    piStep r.balKp r.balKi (f32neg r.dpbMax) r.dpbMax (← ew x) 0 (stQ s (5 + x)) ts
  let b0 ← bal 0
  let b1 ← bal 1
  let b2 ← bal 2
  let b (x : Nat) : Q := f32v ([b0, b1, b2].getD x (0, 0)).1
  let bm := (qSum3 b).mul ⟨1, 3⟩
  let third := pe.mul ⟨1, 3⟩
  let dx (x : Nat) := third.add ((b x).sub bm)
  let fwd := !pe.lt z
  let px (x : Nat) : Q := if fwd then spill dx dis x else (spill (fun y => (dx y).neg) chg x).neg
  let dp0 (x : Nat) := (px x).sub third
  let top := qMax (dp0 0).abs (qMax (dp0 1).abs (dp0 2).abs)
  let l3a := (f32v r.dpMax).lt top
  let g := if l3a then ((f32v r.dpMax).div top).getD z else Q.ofNat 1
  -- stage 7
  let i2 := (id.mul id).add (iq.mul iq)
  let ifl := f32v r.iFloor
  let iHigh := !i2.lt (ifl.mul ifl)
  let dp1 (x : Nat) := if iHigh then (dp0 x).mul g else z
  let dpa := ((((dp1 0).mul (Q.ofNat 2)).sub (dp1 1)).sub (dp1 2)).mul ⟨1, 3⟩
  let dpb := (((dp1 1).sub (dp1 2)).div (f32v F_SQRT3)).getD z
  let zf (a : Q) : Q := if iHigh then ((a.mul (Q.ofNat 2)).div i2).getD z else z
  let zd0 := zf ((dpa.mul id).add (dpb.mul iq))
  let zq0 := zf ((dpa.mul iq).sub (dpb.mul id))
  let za0 ← qRoot ((zd0.mul zd0).add (zq0.mul zq0))
  let l3b := (f32v r.zMax).lt za0
  let h := if l3b then ((f32v r.zMax).div za0).getD z else Q.ofNat 1
  let dp (x : Nat) := (dp1 x).mul h
  let zd ← qr (zd0.mul h)
  let zq ← qr (zq0.mul h)
  let za ← qRoot ((zd.mul zd).add (zq.mul zq))
  -- stages 8 and 9
  let arm (x : Nat) := do
    let (td, tq) := turn3 x zd zq
    armCmds s (cells x) (← qr (third.add (dp x))) (← qr (vd.add td)) (← qr (vq.add tq)) id iq iHigh
  let a0 ← arm 0
  let a1 ← arm 1
  let a2 ← arm 2
  let arms := [a0, a1, a2]
  let l4 := arms.any (fun a => !(f32v a.2).isZero)
  let l5 := devState s == ST_RUN && (f32v lkw).isZero
  let lead := ts.mul (Q.ofNat r.lead)
  let thx (x : Nat) : Option Nat :=
    f32r (wrapPi ((th.sub ((piQ.mul (Q.ofNat (2 * x))).mul ⟨1, 3⟩)).add (om.mul lead)))
  let words (x : Nat) : Option (List (Nat × List Nat)) := do
    let t ← thx x
    let cm := (arms.getD x ([], 0)).1
    return (cells x).map (fun c =>
      match cm.find? (fun e => e.1 == c) with
      | some (_, d, q, p) => (c, [d, q, t, omw, p])
      | none =>
        if billClass s c == C_FROZEN then
          (c, [ptWord s (P_WORD c 0), ptWord s (P_WORD c 1), t, omw, ptWord s (P_WORD c 4)])
        else (c, [0, 0, t, omw, 0]))
  -- stage 10
  let armPts (x : Nat) : Option (List (Nat × Nat)) := do
    let base := 0x30c00 + 0x400 * x
    let soc := (usedWith s (cells x) [22]).map (fun c => cellQ s c 22)
    let mean := ((qSum soc).div (Q.ofNat soc.length)).getD z
    let lo := match soc with | [] => z | a :: l => l.foldl qMin a
    let hi := match soc with | [] => z | a :: l => l.foldl qMax a
    return [(base, ← f32r (third.add (dp x))), (base + 1, ← f32r (dp x)), (base + 2, (arms.getD x ([], 0)).2),
      (base + 3, ← f32r (dis x)), (base + 4, ← f32r (chg x)), (base + 5, ← f32r mean), (base + 6, ← f32r lo),
      (base + 7, ← f32r hi)]
  let limits := f32ofInt ((b2n l0 + b2n l1 * 2 + b2n l2 * 4 + b2n (l3a || l3b) * 8 + b2n l4 * 16 + b2n l5 * 32 : Nat) : Int)
  let pts := [(0x30010, limits), (0x30800, thw), (0x30801, omw), (0x30802, vgw), (0x30803, lkw), (0x30804, ← f32r pe),
    (0x30805, ← f32r qe), (0x30806, ← f32r id), (0x30807, ← f32r iq), (0x30808, ← f32r (qSum3 dis)),
    (0x30809, ← f32r (qSum3 chg))] ++ (← armPts 0) ++ (← armPts 1) ++ (← armPts 2)
  let m2 := (md.mul md).add (mq.mul mq)
  return {
    words := (← words 0) ++ (← words 1) ++ (← words 2)
    pts
    st := [(0, nth pll 0), (1, nth pll 1), (2, nth pll 2), (3, sd), (4, sq), (5, b0.2), (6, b1.2), (7, b2.2), (8, pr),
      (9, qrw), (10, ← f64r za), (12, ← f64r (vd.sub vd0)), (13, ← f64r (vq.sub vq0))]
    low := i2.lt (ifl.mul ifl) && m2.lt (ifl.mul ifl) }

/-- A point written by the shipped bill's outlet. -/
def shipPut (s : State) (p v : Nat) : State := outPut s p v false

/-! ## The intake of the shipped bills -/

/-- The intake entries of the stack bill, each a run of points (R183, Table 6.1): points 0 and 16 to 24 and the class of the
cells of a chain, and the references. -/
def stackRuns (s : State) : List (List Nat) :=
  (usedChains s).flatMap (fun k =>
    let cells := (List.range (chainLen s k)).map (8 * k + ·)
    (0 :: (List.range 9).map (16 + ·)).map (fun i => cells.map (fun c => c * 1024 + i)) ++ [cells.map P_CLASS])
    ++ (List.range 4).map (fun i => [0x30400 + i])
/-- The same of the cell bill, by task: what its formulas read (R174, R175). -/
def cellRuns (s : State) (fast : Bool) : List (List Nat) :=
  ((if fast then [18] else [18, 19, 23]).map (ptOfSlot s)).map (fun p => [p])

/-- What the intake of a shipped bill reads, as M7, and how many of its entries are marked QUAL: those of points by their runs
(DEDUCED from R183, assumption 50), and in a cell its five voted references. A refused read gives 0 without WRITTEN. -/
def shipIntake (s : State) (fast : Bool) : ShipIn × Nat × State :=
  let runs := if isStack s then stackRuns s else cellRuns s fast
  let (recs, q, s) := runs.foldl (fun (x : List (Nat × Nat × Nat) × Nat × State) run =>
    let (l, bad, s) := run.foldl (fun (y : List (Nat × Nat × Nat) × Bool × State) p =>
      let (g, s) := pointIn y.2.2 p
      match slotOf s p with
      | some k =>
        let e := if g.refused then (k, 0, 0) else (k, ptWord s k, slotMeta s k)
        (e :: y.1, y.2.1 || g.bad, s)
      | none => (y.1, true, s)) ([], false, x.2.2)
    (l ++ x.1, x.2.1 + b2n bad, s)) ([], 0, s)
  let voted := s.cell.voteOk && s.cell.voteCyc == cycleNow s + 1
  ({ recs, refs := (List.range 5).map (s.fget VOTE_REF_WORD ·), step := s.ctl.step, stop := s.ctl.stop.isSome
     dev := devState s, applyAt := s.cell.applyAt },
    q + (if isStack s || voted then 0 else if fast then 4 else 3), s)

/-- The state as the intake saw it, from which the bill computes. -/
def atIntake (s : State) (x : ShipIn) : State :=
  let s := x.recs.foldl (fun s e => putW (putW s e.1 0 e.2.1) e.1 3 e.2.2) s
  let s := x.refs.zipIdx.foldl (fun s e => s.fset VOTE_REF_WORD e.2 e.1) s
  { s with ctl.step := x.step, ctl.stop := if x.stop then some (s.ctl.stop.getD 0) else none, cell.applyAt := x.applyAt
    }.fset SYS_STATE_STATE 0 x.dev

/-- The shipped stack bill's execution, with its outlet (stage 10). -/
def shipStackRun (s : State) (x : ShipIn) (grid : List Nat) : State :=
  match shipStack (atIntake s x) grid with
  | none => s.satAdd MASH_NUMCNT_NONFIN 0
  | some o =>
    let s := { s with mash.st := o.st.foldl (fun m (e : Nat × Nat) => smSet 0 m e.1 e.2) s.mash.st }
    let s := o.words.foldl (fun s (e : Nat × List Nat) =>
      (e.2.zipIdx).foldl (fun s (w : Nat × Nat) => shipPut s (P_WORD e.1 w.2) w.1) s) s
    let s := o.pts.foldl (fun s (e : Nat × Nat) => shipPut s e.1 e.2) s
    { s with ctl.lowSince := if o.low then some (s.ctl.lowSince.getD s.clk) else none }

/-! ## The shipped cell bill (R174, R175) -/

/-- A function given by points, joined by straight lines, constant beyond its ends; 0 without points. -/
def lineAt (v : Q) : List (Nat × Nat) → Q
  | [] => Q.ofNat 0
  | [(_, q)] => f32v q
  | (v0, q0) :: (v1, q1) :: l =>
    if v.le (f32v v0) then f32v q0
    else if v.lt (f32v v1) then
      let f := ((v.sub (f32v v0)).div ((f32v v1).sub (f32v v0))).getD (Q.ofNat 0)
      (f32v q0).add (f.mul ((f32v q1).sub (f32v q0)))
    else lineAt v ((v1, q1) :: l)

/-- The compare of a duty with INV = 0 (R185). -/
def dutyCmp (s : State) (p : Nat) (d : Nat) : Nat :=
  let full := 1024 * s.fget PWM_EPER_PER p
  (clampI (((Q.ofNat 1).sub (f32v d)).mul (Q.ofNat full)).round 0 full).toNat

/-- The fast task: the waveform of the voted phasor, through MODREF, to the duties of pairs 0 and 1 (R174). -/
def shipFast (s : State) (x : ShipIn) (began : Nat) : State :=
  let i := atIntake s x
  let w (k : Nat) := i.fget VOTE_REF_WORD k
  let res : Option (Nat × Nat × Nat) := do
    let t : Q := ⟨(began : Int) - i.cell.applyAt, 65536 * 1000000000⟩
    let th ← f32r (wrapPi ((f32v (w 2)).add ((f32v (w 3)).mul t)))
    let v ← subF (mulF (some (w 0)) (cosF th)) (mulF (some (w 1)) (sinF th))
    let (m, sat) ← modrefF v (ptWord i 18) 0 (cfgOf s).ctrl.mMax (cfgOf s).cell.mFloor
    return (← divF (f32add F_ONE m) (some F_TWO), ← divF (f32sub F_ONE m) (some F_TWO), sat)
  match res with
  | none => s.satAdd MASH_NUMCNT_NONFIN 0
  | some (da, db, sat) =>
    let s := { s with cell.msat := s.cell.msat || !(f32v sat).isZero }
    if s.cell.zero then s
    else
      let put (s : State) (p d : Nat) : State :=
        [0, 4].foldl (fun s o => m7Write s (0x101400 + 16 * p + o) (dutyCmp s p d)) s
      m7Write (put (put s 0 da) 1 db) 0x101000 3

/-- What the main task of the cell bill computes: amplitude, the bridge's power and its phase shift as a position in the
carrier, and the integrator of PI_E (R175, R196). P_DAB is divided by the product of the links, not below vfloor (R141). -/
def cellMain (s : State) : Option (Nat × Nat × Nat × Nat) := do
  let r := cfgOf s
  let w (i : Nat) := s.fget VOTE_REF_WORD i
  let ts : Q := ⟨s.fget TIM_CYC_T, 1000000000⟩
  let amp ← qSqrt32 (((f32v (w 0)).mul (f32v (w 0))).add ((f32v (w 1)).mul (f32v (w 1))))
  let e ← f32sub (ptWord s 23) r.ctrl.eRef
  let (u, i) ← piStep r.cell.eKp r.cell.eKi F_MIN F_MAX e 0 (stQ s 0) ts
  let p ← f32add (f32neg (w 4)) u
  let prod := (f32v (ptWord s 18)).mul (f32v (ptWord s 19))
  let x ← (f32v p).div (qMax prod (f32v r.cell.dFloor))
  let full := 2048 * s.fget PWM_EPER_PER 4
  let turns := ((lineAt x r.cell.dabTab).div (piQ.mul (Q.ofNat 2))).getD (Q.ofNat 0)
  let ofs := ((s.fget PWM_OFS_OFS 2 : Int) + (turns.mul (Q.ofNat full)).round) % (max full 1 : Nat)
  return (amp, p, i, ofs.toNat)

/-- The main task, with its outlet: the points, and the bridge's offset and the regulator's power feed-forward (R175). -/
def shipCell (s : State) (x : ShipIn) : State :=
  match cellMain (atIntake s x) with
  | none => s.satAdd MASH_NUMCNT_NONFIN 0
  | some (amp, p, i, ofs) =>
    let own (k : Nat) := ptOfSlot s k
    let s := { s with mash.st := smSet 0 s.mash.st 0 i }
    let s := shipPut (shipPut (shipPut s (own 32) amp) (own 33) (if s.cell.msat then F_ONE else 0)) (own 34) p
    let s := { s with cell.msat := false }
    let s := [4, 5].foldl (fun s q => m7Write s (0x101408 + 16 * q) ofs) s
    m7Write (m7Write s 0x101000 0x30) 0x120038 (f32neg (nth x.refs 4))

/-- The state words that a main task of the shipped bills advances, with free samples of the grid (R147). -/
def shipStates (s : State) (x : ShipIn) : List (Nat × Nat) × State :=
  if isStack s then
    let (grid, s) := (List.range 6).foldl (fun (y : List Nat × State) _ =>
      let (v, s) := drawFree y.2; (y.1 ++ [v % 2 ^ 32], s)) ([], s)
    (((shipStack (atIntake s x) grid).map ShipOut.st).getD [], s)
  else (match cellMain (atIntake s x) with | some (_, _, i, _) => [(0, i)] | none => [], s)

end Sys2Proof.Machine
end

