-- ==== Sys2Proof/Machine/MashRun.lean ====
section
/-! DEFINITION. The mash engine's tasks (R120 to R122, R126 to R130, R147 to R149, R153): intake, blocks and outlet one
item at a time, each at its instant within the task, overruns, and the end of a task. -/

namespace Sys2Proof.Machine
open Host

/-! ## Nodes -/

/-- A node's word, with QUAL in bit 32 and SUB in bit 33; nodes 0 and 1 are constants (R122). -/
def nodeAll (s : State) (i : Nat) : Nat := if i == 0 then 0 else if i == 1 then F_ONE else smGet 0 s.mash.nodes i
def nodeW (s : State) (i : Nat) : Nat := nodeAll s i % 2 ^ 32
def nodeQ (s : State) (i : Nat) : Bool := bit (nodeAll s i) 32
def nodeS (s : State) (i : Nat) : Bool := bit (nodeAll s i) 33
def putNode (s : State) (i w : Nat) (q sub : Bool) : State :=
  let s := eccPart s 3 (i / 8)
  { s with mash.nodes := smSet 0 s.mash.nodes i (w % 2 ^ 32 + b2n q * 2 ^ 32 + b2n sub * 2 ^ 33) }

/-! ## Items of a task -/

inductive MItem where
  | intake (i : Nat)
  | block (i : Nat)
  | outlet (i : Nat)
  /-- Intake, blocks and outlet of a shipped bill. -/
  | shipIn
  | shipRun
  | shipOut
  deriving DecidableEq, Repr

/-- The items of a task in their order (R120): intake, blocks, outlet. -/
def intakeItems (s : State) (fast : Bool) : List MItem :=
  let b := actBank s
  if holdsShipped s b then [.shipIn]
  else ((List.range (hdrIntake s b)).filter (fun i => (intakeEnt s b i).fast == fast)).map .intake
def blockItems (s : State) (fast : Bool) : List MItem :=
  let b := actBank s
  if holdsShipped s b then [.shipRun]
  else ((List.range (hdrBlocks s b)).filter (fun i => (blkEnt s b i).fast == fast)).map .block
def outItems (s : State) (fast : Bool) : List MItem :=
  let b := actBank s
  if holdsShipped s b then [.shipOut]
  else ((List.range (hdrOutlet s b)).filter (fun i => (outletEnt s b i).fast == fast)).map .outlet
/-- What comes before the outlet. -/
def inItems (s : State) (fast : Bool) : List MItem := intakeItems s fast ++ blockItems s fast

def taskOf (s : State) (fast : Bool) : Option TaskRun := if fast then s.mash.fast else s.mash.main
def setTask (s : State) (fast : Bool) (r : Option TaskRun) : State :=
  if fast then { s with mash.fast := r } else { s with mash.main := r }

/-! ## Intake (R127) -/

/-- A number converted from a register word by FMT. -/
def fmtQ (fmt w : Nat) : Option Q :=
  if fmt == 2 then some (Q.ofInt (toSigned 32 w)) else if fmt == 3 then some (Q.ofNat (w % 2 ^ 32))
  else if f32fin w then some (f32v w) else none

/-- value × SCALE + OFFSET in binary32, each operation rounded to nearest: a result beyond the format is an infinity. -/
def scaled (w scale offset : Nat) : Nat := f32addT (f32mulT w scale) offset

/-- The node of one source (R127). The value as read of an invalid source is scaled as any other where it is finite; one that
is not finite reaches the node as it is (DESIGN CHOICE, assumption 43). -/
def intakePut (s : State) (e : IoEnt) (n : Nat) (g : Got) : State :=
  let w := if g.bad && e.hold then nodeW s n else if g.refused then 0 else if !f32fin g.w then g.w
    else scaled g.w e.scale e.offset
  putNode s n w g.bad g.sub

/-- One intake entry; answers whether any of its nodes got QUAL. -/
def intakeRun (s : State) (e : IoEnt) : Bool × State :=
  if e.kind == 0 then
    (ioRun e).foldl (fun (x : Bool × State) (pn : Nat × Nat) =>
      let (g, s) := pointIn x.2 pn.1
      (x.1 || g.bad, intakePut s e pn.2 g)) (false, s)
  else
    let (ok, no, w, s) := if e.kind == 1 then
        let (st, w, s) := m7Read s e.num (((taskOf s e.fast).map TaskRun.next).getD s.clk)
        (st == .ok, st != .ok, w, s)
      else
        let at_ := ((taskOf s e.fast).map TaskRun.next).getD s.clk
        (s.cell.voteOk && s.cell.voteCyc == cycleNow s + 1 && decide (s.cell.voteAt ≤ at_), false,
          s.fget VOTE_REF_WORD e.num, s)
    let g : Got := match fmtQ e.fmt w with
      | some q => ⟨f32q q, !ok, false, no⟩
      | none => ⟨w, true, false, no⟩
    (g.bad, intakePut s e e.node g)

/-! ## Blocks (R121, R122, R126, R130) -/

/-- Read the memory words that a list names (memory and word), as R379 says. -/
def eccReads (s : State) (l : List (Nat × Nat)) : State :=
  if s.sec.ecc.isEmpty then s else l.foldl (fun s (e : Nat × Nat) => eccRead s e.1 e.2) s

/-- The state words of a block. -/
def stWords (s : State) (b : Nat) (e : BlkEnt) : Nat := blkStates e.ty (f32v (entPar s b e 0)).floor.toNat

/-- The control action of a block (R126). -/
def actOf (w : Nat) : Act :=
  if !f32fin w then .hold
  else match (f32v w).round with
    | 0 => .run | 1 => .reset | 3 => .track | _ => .hold

/-- The start of the task period in ns, and its length. -/
def periodOf (s : State) (fast : Bool) : Nat × Nat :=
  let bound := s.tim.bound / 65536
  if fast then
    let p := max 1 (billFast s)
    (bound + (((taskOf s true).map TaskRun.began).getD 0 / 65536 - bound) / p * p, p)
  else (bound, s.fget TIM_CYC_T)

/-- Ts of a block in seconds (R130). -/
def blockTs (s : State) (fast : Bool) (i : Nat) : Q :=
  let (st, p) := periodOf s fast
  let l := smGet 0 s.mash.last i
  let n := if l == 0 then 1 else max 1 (min 16 ((st - (l - 1)) / p))
  ⟨(n * p : Nat), 1000000000⟩

/-- Put a block's outputs. -/
def putOuts (s : State) (o : Nat) (sub : Bool) : Nat → List (Nat × Bool) → State
  | _, [] => s
  | k, (w, q) :: l => putOuts (putNode s (o + k) w q sub) o sub (k + 1) l

/-- Put a block's state words. -/
def putState (s : State) (a : Nat) : Nat → List Nat → State
  | _, [] => s
  | k, w :: l =>
    let s := eccPart s 4 ((a + k) / 4)
    putState { s with mash.st := smSet 0 s.mash.st (a + k) w } a (k + 1) l

/-- One execution of block i. ALLOC with QUAL on its demand keeps every output (R139). A block with INIT whose first execution
after the swap yields a NaN, an infinity or crossed limits keeps the state it found, and its INIT is spent (DESIGN CHOICE,
assumption 50). -/
def blockRun (s : State) (fast : Bool) (i : Nat) : State :=
  let b := actBank s
  let e := blkEnt s b i
  let ns := stWords s b e
  let p := entPar s b e
  let s := eccReads s ([(2, b * bankEcc + (1024 + 8 * i) / 8)]
    ++ (List.range (blkParams e.ty e.mode e.n p)).map (fun k => (2, b * bankEcc + (0xa400 + e.par + k) / 8))
    ++ (List.range ns).map (fun k => (4, (e.st + k) / 4)))
  let s := if ns == 0 || e.ctl == 0 then s else eccReads s [(3, e.ctl / 8)]
  let ctl := if ns == 0 || e.ctl == 0 then Act.run else actOf (nodeW s e.ctl)
  let vecs := blkVecs e.ty e.n p
  let reads := (blkReads e.ty e.mode e.n ctl).map (fun k => nth e.ops k)
  let vnodes := vecs.flatMap (fun v => if nth e.ops v.1 == 0 then [] else (List.range v.2).map (nth e.ops v.1 + ·))
  let s := eccReads s ((reads ++ vnodes).map (fun n => (3, n / 8)))
  let initial := s.mash.init.contains i
  let q := (if blkVector e.ty then reads else reads ++ vnodes).any (nodeQ s)
  let sub := (reads ++ vnodes).any (nodeS s)
  let n := blkOuts e.ty e.mode e.n p
  let prev := (List.range n).map (fun k => nodeW s (e.out + k))
  let inp (act : Act) (st : List Nat) : BlkIn :=
    { op := fun k => nodeW s (nth e.ops k)
      par := p
      vec := fun k j => let a := nth e.ops k; if a == 0 then (0, false) else (nodeW s (a + j), nodeQ s (a + j))
      st, prev, act, ts := blockTs s fast i }
  let st0 := (List.range ns).map (fun k => smGet 0 s.mash.st (e.st + k))
  let st1 := if !initial then st0
    else match blkRun e.ty e.mode e.n (inp .reset st0) with | some o => o.st | none => st0
  let act := if q && ctl != .reset then .hold else ctl
  let s := { s with mash := { s.mash with
    init := s.mash.init.filter (· != i)
    last := if ctl == .reset then smErase s.mash.last i
      else smInsert i ((periodOf s fast).1 + 1) (smErase s.mash.last i) } }
  let keepQ (s : State) : State :=
    putOuts s e.out sub 0 (prev.map (fun w => (w, true)))
  if e.ty == 0x61 && q then keepQ s
  else match blkRun e.ty e.mode e.n (inp act st1) with
  | none => keepQ (s.satAdd MASH_NUMCNT_NONFIN 0)
  | some o =>
    if o.keep then keepQ s
    else
      let s := if ns == 0 then s else putState s e.st 0 o.st
      let s := match o.outs with
        | [] => s
        | (w, oq) :: l =>
          putOuts (putNode s e.out w (oq || q) (sub || o.sub)) e.out sub 1 (l.map (fun (x : Nat × Bool) => (x.1, x.2 || q)))
      let s := if o.flagged then s.satAdd MASH_PLCNT_FLAGS 0 else s
      if o.raised then memFault (s.satAdd MASH_PLCNT_FAULTS 0) SRC_MASH_PLAUS else s

/-- An OPT block that throttling leaves out (R149). -/
def optSkipped (s : State) (e : BlkEnt) : Bool :=
  let l := s.fget MASH_STAT_THR
  e.opt && isStack s && (decide (3 ≤ l) || (l == 2 && cycleNow s % 4 != 0))

/-! ## Outlet (R128) -/

/-- One point written by the outlet. -/
def pointOut (s : State) (e : IoEnt) (p n : Nat) : State :=
  let s := eccReads s [(3, n / 8)]
  if nodeQ s n then s else outPut s p (scaled (nodeW s n) e.scale e.offset) (nodeS s n)

/-- One outlet entry. -/
def outletRun (s : State) (e : IoEnt) : State :=
  if e.kind == 0 then (ioRun e).foldl (fun s (pn : Nat × Nat) => pointOut s e pn.1 pn.2) s
  else
    let s := eccReads s [(3, e.node / 8)]
    if nodeQ s e.node then s
    else
      let w := scaled (nodeW s e.node) e.scale e.offset
      let (v, s) := if e.fmt == 2 then toType s 3 w else if e.fmt == 3 then toType s 2 w else (w, s)
      m7Write s e.num (v % 2 ^ 32)

/-! ## Progress of a task -/

/-- The cost of an item in ns (R127, R128, Table 5.5); the parts of Table 6.9 for the shipped stack bill. -/
def itemCost (s : State) (fast : Bool) : MItem → Nat
  | .intake i => ioCost (intakeEnt s (actBank s) i)
  | .outlet i => ioCost (outletEnt s (actBank s) i)
  | .block i =>
    let e := blkEnt s (actBank s) i
    if optSkipped s e then 0 else blkCost e.ty e.mode e.n (entPar s (actBank s) e)
  | .shipIn => if isStack s then 11 * (cfgCells s).length + 24 else part 0
  | .shipRun => if isStack s then 1240 + 24 * (cfgCells s).length else part 1
  | .shipOut => if isStack s then 5 * (cfgCells s).length + 36 else part 2
where
  part (k : Nat) : Nat := nth s.mash.shipPart (if fast then 3 + k else k)

/-- The work of an item. The shipped bill's blocks and outlet work when its task ends, with what its intake has read: the
samples of the grid come with the end. -/
def itemWork (s : State) (fast : Bool) (r : TaskRun) : MItem → TaskRun × State
  | .intake i =>
    let (q, s) := intakeRun (eccReads s [(2, actBank s * bankEcc + (0x8400 + 4 * i) / 8)]) (intakeEnt s (actBank s) i)
    ({ r with qual := r.qual + b2n q }, s)
  | .block i => (r, if optSkipped s (blkEnt s (actBank s) i) then s else blockRun s fast i)
  | .outlet i =>
    (r, outletRun (eccReads s [(2, actBank s * bankEcc + (0x9400 + 4 * i) / 8)]) (outletEnt s (actBank s) i))
  | .shipIn =>
    let (x, q, s) := shipIntake s fast
    ({ r with ship := some x, qual := r.qual + q }, s)
  | .shipRun => (r, eccBank s (actBank s))
  | .shipOut => (r, s)

/-- One item: its work, its cost, and a stall of at most 8 ns for each error corrected in it. An uncorrectable error of the
active bank ends the task that met it (R153). -/
def itemStep (s : State) (fast : Bool) (r : TaskRun) (it : MItem) : State :=
  let c := s.fget MASH_ECC_CORR
  let cost := itemCost s fast it
  let (r, s) := itemWork { s with mash.ueNow := false } fast r it
  let (stall, s) := drawBetween s 0 ((s.fget MASH_ECC_CORR - c) * 8 * nsT)
  setTask s fast (some { r with pos := r.pos + 1, next := r.next + cost * nsT + stall, ue := r.ue || s.mash.ueNow })

/-- Execute the items of a task that begin before an instant; a memory error ends the task (R153). -/
def advance (fast : Bool) (limit : Option Time) : List MItem → State → State
  | [], s => s
  | it :: l, s =>
    match taskOf s fast with
    | none => s
    | some r =>
      if r.ue then s
      else if (match limit with | some t => decide (t ≤ r.next) | none => false) then s
      else advance fast limit l (itemStep s fast r it)

/-- A task runs through the items of a list that it has not done, up to an instant or to their end. An execution that a
memory error ends takes no trace sample and gives no node sample: R151 and R347 speak of the end of an execution, and this
one is cut off (DESIGN CHOICE, assumption 29). -/
def runItems (s : State) (fast : Bool) (limit : Option Time) (l : List MItem) : State :=
  match taskOf s fast with
  | none => s
  | some r =>
    let s := advance fast limit (l.drop r.pos) s
    match taskOf s fast with
    | some r => if r.ue then setTask s fast none else s
    | none => s

/-- A task runs up to an instant, or to its end. -/
def runTask (s : State) (fast : Bool) (limit : Option Time) : State :=
  runItems s fast limit (inItems s fast ++ outItems s fast)

/-- FAST_PER of the bill that runs, as a span of network time; the last instant k × FAST_PER, not after now (R129). -/
def fastSpan (s : State) : Nat := billFast s * 65536
def fastGrid (s : State) : Nat := s.tim.bound + (netTime s - s.tim.bound) / max 1 (fastSpan s) * fastSpan s

/-- A task that has the engine reads its intake, up to the next fast start where it is the main one: the entries read when the
task comes to them, within the few ns of their costs (DESIGN CHOICE, assumption 50). -/
def runIntake (s : State) (fast : Bool) : State :=
  let limit := if fast || billFast s == 0 then none else some (s.clk + (fastGrid s + fastSpan s - netTime s))
  runItems s fast limit (intakeItems s fast)

/-- The main task runs up to now, unless a fast execution holds it. -/
def mainUpTo (s : State) (t : Time) : State := if s.mash.fast.isSome then s else runTask s false (some t)

/-- A task has done its last item by now. -/
def taskDone (s : State) (fast : Bool) : Bool :=
  match taskOf s fast with
  | none => false
  | some r => decide ((inItems s fast ++ outItems s fast).length ≤ r.pos) && decide (r.next ≤ s.clk)

/-- Whether the task writes a node; of the shipped bill that is not given (a free value, assumption 4). -/
def taskWrites (s : State) (fast : Bool) (n : Nat) : Bool × State :=
  let b := actBank s
  if holdsShipped s b then let (v, s) := drawFree s; (bit v 0, s)
  else
    let ins := (List.range (hdrIntake s b)).map (intakeEnt s b)
    let blks := (List.range (hdrBlocks s b)).map (blkEnt s b)
    (ins.any (fun e => e.fast == fast && decide (e.node ≤ n) && decide (n ≤ e.node + e.extra))
      || blks.any (fun e => e.fast == fast && decide (e.out ≤ n)
          && decide (n < e.out + blkOuts e.ty e.mode e.n (entPar s b e))), s)

/-- Node samples for the capture channels (R347), and trace samples (R151), at the end of an execution. -/
def taskSamples (s : State) (fast : Bool) (r : TaskRun) : State :=
  let srcs := (s.cap.recs.filter (fun r => r.st != .closed)).flatMap (fun r =>
    r.chans.filterMap (fun c => let x := (chanOf r c).src; if x / 2 ^ 30 == 2 then some (srcSel x) else none))
  let s := srcs.eraseDups.foldl (fun s n =>
    let (own, s) := taskWrites s fast n
    if own then
      let s := shipNode (eccReads s [(3, n / 8)]) n
      let w := if nodeQ s n then F_NAN else nodeW s n
      capFeed s 2 n w r.began (f32ext w)
    else s) s
  (List.range 32).foldl (fun s c => if s.flag MASH_TRCFG0_TASK c == fast then trSample s r.began c else s) s

/-- The engine raises MASH_OVR when consecutive overruns exceed OVR_LIMIT (R147, R148). -/
def overrun (s : State) (fast : Bool) : State :=
  let n := (if fast then s.mash.ovrF else s.mash.ovrM) + 1
  let s := if fast then { s with mash.ovrF := n } else { s with mash.ovrM := n }
  let s := if fast then (s.fset MASH_STAT_FOVR 0 1).satAdd MASH_OVRCNT_FAST 0
    else (s.fset MASH_STAT_OVR 0 1).satAdd MASH_OVRCNT_MAIN 0
  if billOvr s < n then memFault s SRC_MASH_OVR else s

/-- The instants between which the main task starts, in network time (R129): START after the boundary; in stack role not
before the close of the fill. The boundary (R297), and the close, take 2 to 3 ns to cross into PD1; a start within 1 ns of
that is on time. -/
def mainWindow (s : State) : Nat × Nat :=
  let at_ := s.tim.bound + billStart s * 65536
  let e := if isStack s then max at_ s.grist.closedAt else at_
  (e + 2 * 65536, e + 4 * 65536)

/-- A task that starts reads the header: an uncorrectable error there ends it (R153). -/
def startRead (s : State) (fast : Bool) : State :=
  let s := eccReads { s with mash.ueNow := false } [(2, actBank s * bankEcc)]
  if s.mash.ueNow then setTask s fast none else s

/-- The main task starts (R129); its own 20 ns wait while a fast execution holds it. The header is read. -/
def mainStart (s : State) : State :=
  let s := { s with mash.ranCycle := cycleNow s + 1 }
  let busy := s.mash.fast.isSome
  let r : TaskRun :=
    { cyc := cycleNow s, began := netTime s
      next := s.clk + (if busy then 0 else 20 * nsT), held := if busy then 20 * nsT else 0 }
  let s := startRead (setTask s false (some r)) false
  if busy then s else runIntake s false

/-- A fast execution ends with its outlet complete (R120, R147): the main task goes on from that instant. -/
def fastFinish (s : State) : State :=
  match s.mash.fast with
  | none => s
  | some r =>
    let s := runTask s true none
    match s.mash.fast with
    | none => s
    | some x =>
      let s := { s with mash.fast := none, mash.ovrF := 0 }.fset MASH_STAT_FOVR 0 0
      let s := { s with mash.main := s.mash.main.map (fun m => { m with next := max m.next x.next + m.held, held := 0 }) }
      let s := match x.ship with | some i => shipFast s i r.began | none => s
      runIntake (taskSamples s true r) false

/-- A fast execution runs up to now, and is finished once its last item is done. -/
def settleFast (s : State) : State :=
  if s.mash.fast.isNone then s
  else
    let s := runTask s true (some s.clk)
    if taskDone s true then fastFinish s else s

/-- MAIN_TASK_START (R129): once in a cycle, within its window. -/
def execMainTaskStart (t : Time) (s : State) : Outcome State Fault Refusal :=
  let s := settleFast (s.at t)
  let w := mainWindow s
  .next (if !mashRuns s || s.mash.main.isSome || s.mash.ranCycle == cycleNow s + 1 || !dueAt s w.1 (w.2 - w.1)
      || (isStack s && !s.grist.closed)
    then s else mainStart s)

/-- A fast execution starts; `go` is the instant from which its own 20 ns count. -/
def fastStart (s : State) (go : Time) : State :=
  let g := fastGrid s
  let s := { s with mash := { s.mash with
    main := s.mash.main.map (fun m => { m with next := max m.next go }), fastAt := g + 1 } }
  runIntake (startRead (setTask s true (some { cyc := cycleNow s, began := g, next := go + 20 * nsT })) true) true

/-- The item of the main task in progress ends first; a main task that starts in this very instant waits whole. -/
def preempt (s : State) : Time × State :=
  let s := mainUpTo s s.clk
  match s.mash.main with
  | none => (s.clk, s)
  | some m =>
    if m.pos == 0 && decide (fastGrid s ≤ m.began) then
      (s.clk, { s with mash.main := some { m with next := s.clk, held := 20 * nsT } })
    else (max s.clk m.next, s)

/-- The fast execution that is still running at the next fast start ends as an overrun, unless its outlet has begun. -/
def fastOver (s : State) : Time × State :=
  match s.mash.fast with
  | none => (s.clk, s)
  | some x =>
    if (inItems s true).length < x.pos then
      let s := runTask s true none
      let e := match s.mash.fast with | some x => max s.clk x.next | none => s.clk
      (e, fastFinish s)
    else (max s.clk x.next, overrun (taskSamples { s with mash.fast := none } true x) true)

/-- FAST_TASK_START (R129, R147): at an instant k × FAST_PER after the boundary, once each. -/
def execFastTaskStart (t : Time) (s : State) : Outcome State Fault Refusal :=
  let s := settleFast (s.at t)
  .next (if !mashRuns s || billFast s == 0 || !dueAt s (fastGrid s) 65536 || s.mash.fastAt == fastGrid s + 1 then s
  else
    let (go, s) := if s.mash.fast.isNone then preempt s else fastOver s
    fastStart s go)

/-- FAST_TASK_END (R120). -/
def execFastTaskEnd (t : Time) (s : State) : Outcome State Fault Refusal :=
  .next (settleFast (s.at t))

/-- The main task has begun its outlet (R147). -/
def outletBegun (s : State) (r : TaskRun) : Bool :=
  let n := (inItems s false).length
  decide (n < r.pos) || (r.pos == n && decide (r.next ≤ s.clk) && s.mash.fast.isNone)

/-- A shipped main task that an overrun cuts off: the blocks that have run keep their advanced states (R147). Which have is
free, and in a stack so are the samples of the grid, which only the end of the task shows (assumption 4). -/
def shipCut (s : State) (r : TaskRun) : State :=
  match r.ship with
  | none => s
  | some x =>
    if r.pos < 2 then s
    else
      let (v, s) := drawFree s
      let (st, s) := shipStates s x
      { s with mash.st := (st.filter (fun e => bit v e.1)).foldl (fun m e => smSet 0 m e.1 e.2) s.mash.st }

/-- MAIN_DEADLINE (R147). -/
def execMainDeadline (t : Time) (s : State) : Outcome State Fault Refusal :=
  let s := settleFast (s.at t)
  .next (if !mashRuns s || !dueAt s (s.tim.bound + billDeadline s * 65536) 65536 then s
  else
    let s := mainUpTo s s.clk
    match s.mash.main with
    | some r =>
      if outletBegun s r then s else overrun (taskSamples (shipCut { s with mash.main := none } r) false r) false
    | none =>
      if s.mash.ranCycle == cycleNow s + 1 then s
      else overrun { s with mash.ranCycle := cycleNow s + 1 } false)

end Sys2Proof.Machine
end

