-- ==== Sys2Proof/Machine/StackCtl.lean ====
section
/-! DEFINITION. Stack control by the firmware: enumeration, cell records, cell classes, carrier slots, pitch, the breaker
and the orderly stop (R30, R31, R163, R171, R178 to R182). -/

namespace Sys2Proof.Machine

open Host

/-- What the stack keeps of a cell. -/
def seenOf (s : State) (c : Nat) : CellSeen := smGet {} s.ctl.cells c
def cellState (s : State) (c : Nat) : Nat := (seenOf s c).state

/-- The record of a cell from its TEL frame (R30, R271). -/
def seenPut (s : State) (f : Frame) : State :=
  match f.body with
  | .tel bootreq _ state cause applied _ faults _ =>
    let x : CellSeen := { state, cause, faults, applied, cyc := f.hdr.cycle + 1, bootreq }
    { s with ctl.cells := smSet {} s.ctl.cells (f.hdr.chain * 8 + f.hdr.pos) x }
  | _ => s

/-- Entry to ENUMERATE: enumeration begins. -/
def beginEnum (s : State) (cause : Nat) : State :=
  let s := enterEnumerate s cause
  { s with ctl := { s.ctl with enumAt := s.clk, cells := [], found := [] } }

/-- Configured cells that the stack hears. -/
def heardCells (s : State) : List Nat := (cfgCells s).filter (fun c => cellState s c != 0)
/-- Every arm holds at least ARM_MINCELLS of the cells. -/
def armsFull (s : State) (l : List Nat) : Bool :=
  (usedArms s).all (fun a => decide ((cfgOf s).topo.armMin.getD a 0 ≤ ((armCells s a).filter l.contains).length))
/-- An arm holds fewer non-LOST cells than its ARM_MINCELLS, or holds none (R182). -/
def armShort (s : State) (gone : List Nat) : Bool :=
  (usedArms s).any (fun a =>
    let n := ((armCells s a).filter (fun c => classOf s c != 0 && classOf s c != C_LOST && !gone.contains c)).length
    n == 0 || decide (n < (cfgOf s).topo.armMin.getD a 0))

/-- ENUM_COMPLETE (R31). -/
def execEnumComplete (t : Time) (s : State) : Outcome State Fault Refusal :=
  let s := s.at t
  let l := heardCells s
  let far := (usedChains s).all (fun k => laneActive s k && l.contains (8 * k + chainLen s k - 1))
  .next (if isStack s && devState s == ST_ENUMERATE && far && armsFull s l then
    setDev { s with ctl.found := l } ST_TIME_LOCK CA_NONE
  else s)

/-- ENUM_TIMEOUT (R31). -/
def execEnumTimeout (t : Time) (s : State) : Outcome State Fault Refusal :=
  let s := s.at t
  let l := heardCells s
  .next (if !isStack s || devState s != ST_ENUMERATE
      || decide (s.clk < s.ctl.enumAt + (cfgOf s).topo.enumTimeout * msT) then s
  else if armsFull s l then setDev { s with ctl.found := l } ST_TIME_LOCK CA_NONE
  else setCause { s with ctl := { s.ctl with enumAt := s.clk, cells := [], found := [] } } CA_TOPOLOGY)

/-! ## Plant outputs (R26, R178) -/

/-- A level held on PO n. -/
def plantLevel (s : State) (n : Nat) (b : Bool) : State :=
  poSet { s with ctl := { s.ctl with level := putBit s.ctl.level n b, pulse := smErase s.ctl.pulse n } } n b
/-- A pulse on PO n. -/
def plantPulse (s : State) (n : Nat) (len : Time) : State :=
  poSet { s with ctl.pulse := smSet 0 s.ctl.pulse n (s.clk + len) } n true

/-- PLANT_PULSE_END (R78, R178). -/
def execPlantPulseEnd (t : Time) (n : Fin 8) (s : State) : Outcome State Fault Refusal :=
  let s := s.at t
  let e := smGet 0 s.ctl.pulse n.val
  .next (if e == 0 || decide (s.clk < e) then s
  else poSet { s with ctl.pulse := smErase s.ctl.pulse n.val } n.val (bit s.ctl.level n.val))

/-- The holder's 100 ms breaker pulse (R178). -/
def breakerPulse (s : State) (n : Nat) : State := if holds s then plantPulse s n (100 * msT) else s

/-! ## Orderly stop (R181) -/

/-- An orderly stop begins, with the cause that it will give; after a failed opening it begins again. -/
def stopBegin (s : State) (cause : Nat) : State :=
  if s.ctl.stop.isSome && s.ctl.stopStep != 2 then s
  else { s with ctl := { s.ctl with stop := some cause, stopAt := s.clk, lowSince := none, stopStep := 0 } }

/-- PI1 confirms: CTL.STOP for every cell, and TIME_LOCK. -/
def stopDone (s : State) : State :=
  let c := s.ctl.stop.getD CA_NONE
  causedDev { s with ctl := { s.ctl with stop := none, stopStep := 0, ctlStop := true, brk := 0, step := 0 } } ST_TIME_LOCK c

/-- STOP_BREAKER_OPEN (R181 step 2), while the shipped bills are in force (R155). -/
def execStopBreakerOpen (t : Time) (s : State) : Outcome State Fault Refusal :=
  let s := s.at t
  let low := match s.ctl.lowSince with | some x => decide (x + 10 * msT ≤ s.clk) | none => false
  let due := low || decide (s.ctl.stopAt + (cfgOf s).ctrl.stopTmo * msT ≤ s.clk)
  .next (if !shippedCfg s || !inService s || s.ctl.stop.isNone || s.ctl.stopStep != 0 || !due then s
  else
    let s := breakerPulse s 1
    let s := { s with ctl := { s.ctl with stopStep := 1, brk := 3, brkAt := s.clk } }
    if piOf s 1 then stopDone s else s)

/-! ## Classes and slots -/

/-- The class of a cell after this fill (Table 6.5); LOST goes to JOINING only after a rejoin command (R180). The table has
no row for a cell on time in COAST that was JOINING or had no class: it keeps what it had (DESIGN CHOICE, assumption 50). -/
def nextClass (s : State) (c : Nat) : Nat :=
  let prev := classOf s c
  let st := cellState s c
  if prev == C_FROZEN && (cfgOf s).ctrl.lossCyc ≤ smGet 0 s.ctl.frozen c then C_LOST
  else if s.grist.onTime.contains c then
    if [ST_CSAFE, ST_BYPASSED, ST_BOOT, ST_JOINED].contains st then C_LOST
    else if prev == C_LOST then
      if s.ctl.rejoin.contains c && (st == ST_READY || st == ST_PRECHARGED) then C_JOINING else C_LOST
    else if st == ST_CRUN then C_USED
    else if st == ST_COAST then if prev == C_USED || prev == C_FROZEN then C_FROZEN else prev
    else if st == ST_READY || st == ST_PRECHARGED then C_JOINING
    else prev
  else if prev == C_USED || prev == C_FROZEN then C_FROZEN
  else prev

/-- CELL_CLASS_DECISION (R163): every configured cell's class for the next cycle. -/
def classDecide (s : State) : State :=
  let l := (cfgCells s).map (fun c => (c, nextClass s c))
  l.foldl (fun s (c, n) =>
    let s := { s with ctl := { s.ctl with
      cls := smSet 0 s.ctl.cls c n
      frozen := smSet 0 s.ctl.frozen c (if n == C_FROZEN then smGet 0 s.ctl.frozen c + 1 else 0)
      rejoin := if n == C_LOST then s.ctl.rejoin else s.ctl.rejoin.filter (· != c) } }
    sysPoint s (P_CLASS c) n) s

/-- Command word 16 of a cell (Table 6.4, R179, R180, R181). -/
def ctlWord (s : State) (c : Nat) : Nat :=
  let st := cellState s c
  let cl := classOf s c
  let runs := devState s == ST_RUN || devState s == ST_DEGRADED
  let pitch := devState s == ST_PITCH
  let pre := st == ST_READY && ((pitch && s.ctl.step == 1) || (runs && cl == C_JOINING))
  let run := ((pitch && 2 ≤ s.ctl.step) || runs) && !s.ctl.ctlStop
    && (cl == C_USED || cl == C_FROZEN || (cl == C_JOINING && (st == ST_PRECHARGED || st == ST_CRUN)))
  b2n pre + 2 * b2n run + 4 * b2n s.ctl.ctlStop

/-- SLOT_ASSIGNMENT (R171): recomputed when the set of an arm's slotted cells has changed. -/
def slotAssign (s : State) : State :=
  (usedArms s).foldl (fun s a =>
    let cells := armCells s a
    let set := cells.filter (fun c =>
      classOf s c == C_USED || classOf s c == C_FROZEN || (classOf s c == C_JOINING && bit (ctlWord s c) 1))
    if set == smGet [] s.ctl.slotSet a then s
    else
      let at_ := (cycleNow s + 1 + (cfgOf s).ctrl.lead) % 2 ^ 32
      let put (m : SMap (Nat × Nat × Nat)) (c : Nat) :=
        smSet (0, 0, 0) m c (if set.contains c then (set.idxOf c, set.length, at_) else (0, 0, at_))
      { s with ctl := { s.ctl with slotSet := smSet [] s.ctl.slotSet a set, slots := cells.foldl put s.ctl.slots } }) s

/-- The firmware words 16 to 21 of every configured cell (R159). -/
def wordsPut (s : State) : State :=
  let r := (cfgOf s).ctrl
  (cfgCells s).foldl (fun s c =>
    let (k, n, at_) := smGet (0, 0, 0) s.ctl.slots c
    [ctlWord s c, k, n, r.pCar, at_, r.vdcRef].zipIdx.foldl
      (fun s (e : Nat × Nat) => sysPoint s (P_WORD c (16 + e.2)) e.1) s) s

/-- The firmware's stack points (Table 6.3). -/
def stackPoints (s : State) : State :=
  let n (c : Nat) := ((cfgCells s).filter (fun i => classOf s i == c)).length
  [(P_STATE, peekWord s 0 8), (P_STATE + 1, n C_USED), (P_STATE + 2, n C_FROZEN), (P_STATE + 3, n C_LOST),
    (P_STATE + 4, s.ctl.brk)].foldl (fun s (e : Nat × Nat) => sysPoint s e.1 e.2) s

/-- What this stack knows of its peers at a boundary: with every found cell RUN or BYPASSED (Table 1.10) a live candidate that
took the START in force, and the holder of the lease, run; a peer that is lost does not. -/
def peersFollow (s : State) : State :=
  let all := !s.ctl.found.isEmpty && s.ctl.found.all (fun c => cellState s c == ST_CRUN || cellState s c == ST_BYPASSED)
  let keep (w : Nat) : Nat := [0, 1, 2].foldl (fun w p => if peerCand s p then w else putBit w p false) w
  let given := keep s.vote.given
  let runs := [0, 1, 2].foldl (fun w p =>
    if all && peerCand s p && (bit given p || viewHolder s == p) then putBit w p true else w) (keep s.vote.runs)
  { s with vote := { s.vote with given, runs } }

/-! ## Pitch (R179) -/

/-- PITCH_ENTRY (R31): time locked, every cell found READY (or still PRECHARGED after an orderly stop, R181), a start
command held. For a stack that rejoins while a peer runs, the racked START stands for the cells' READY too (R341).
Otherwise every configured cell is classed anew: one found READY or PRECHARGED is JOINING, a LOST one among them without a
CELL_BYPASS of action 1, and any other is LOST (DESIGN CHOICE, assumption 50). -/
def execPitchEntry (t : Time) (s : State) : Outcome State Fault Refusal :=
  let s := s.at t
  let rejoins := s.vote.rejoin && [0, 1, 2].any (fun sid => sid != ownSid s && peerRuns s sid)
  let rdy (c : Nat) := cellState s c == ST_READY || cellState s c == ST_PRECHARGED
  .next (if isStack s && devState s == ST_TIME_LOCK && s.flag TIM_STAT_LOCK
      && s.ctl.startHeld && (rejoins || s.ctl.found.all rdy) then
    let s := setDev (classReads s) ST_PITCH CA_NONE
    let s := { s with ctl := { s.ctl with step := 1, pitchAt := s.clk, laggards := false, startHeld := false } }
    let s := { s with ctl := { s.ctl with ctlStop := false, stop := none, stopStep := 0 } }
    if (cfgOf s).ctrl.shipped then
      let s := (cfgCells s).foldl (fun s c =>
        let n := if rejoins then classOf s c else if rdy c then C_JOINING else C_LOST
        let cls := smSet 0 s.ctl.cls c n
        let frozen := smErase s.ctl.frozen c
        sysPoint { s with ctl := { s.ctl with cls, frozen } } (P_CLASS c) n) s
      wordsPut s
    else s
  else s)

/-- Pitch at the close of a fill: step 1 to 2, and PITCH to RUN (R31, R179); the steps and BRK belong to the shipped bills
(R155). -/
def pitchProgress (s : State) : State :=
  let st (l : List Nat) := s.ctl.found.all (fun c => l.contains (cellState s c))
  if !shippedCfg s then
    if devState s == ST_PITCH && st [ST_CRUN, ST_BYPASSED] then setDev s ST_RUN CA_NONE else s
  else
  let s := if devState s == ST_PITCH && s.ctl.step == 1 && st [ST_PRECHARGED, ST_BYPASSED, ST_CRUN, ST_COAST]
    then { s with ctl.step := 2 } else s
  if devState s == ST_PITCH && s.ctl.step == 2 && s.ctl.stop.isNone && st [ST_CRUN, ST_BYPASSED] then
    let s := setDev s ST_RUN CA_NONE
    if piOf s 0 then { s with ctl := { s.ctl with step := 4, brk := 1 } } else { s with ctl := { s.ctl with step := 3, brk := 0 } }
  else s

/-- PRECHARGE_TIMEOUT (Table 6.8 step 1). -/
def execPrechargeTimeout (t : Time) (s : State) : Outcome State Fault Refusal :=
  let s := s.at t
  .next (if !shippedCfg s || !isStack s || devState s != ST_PITCH || s.ctl.step != 1 || s.ctl.laggards
      || decide (s.clk < s.ctl.pitchAt + (cfgOf s).ctrl.prechgTmo * secT) then s
  else
    let s := classReads s
    let slow := s.ctl.found.filter (fun c => ! [ST_PRECHARGED, ST_BYPASSED, ST_CRUN, ST_COAST].contains (cellState s c))
    let s := { s with ctl.laggards := true }
    let s := if holds s then { s with ctl.sent := s.ctl.sent ++ slow.map (fun c => (c, false, knownEpoch s)) } else s
    if armShort s slow then stopBegin s CA_TOPOLOGY else s)

/-- BREAKER_CLOSE (Table 6.8 step 3): the holder's pulse on PO0. -/
def execBreakerClose (t : Time) (s : State) : Outcome State Fault Refusal :=
  let s := s.at t
  .next (if isStack s && shippedCfg s && devState s == ST_RUN && s.ctl.step == 3 && s.ctl.brk == 0 && s.ctl.stop.isNone then
    let s := eccSlots s [0x30803]
    if devState s == ST_RUN && ptWord s 0x30803 == F_ONE then
      let s := breakerPulse s 0
      { s with ctl := { s.ctl with brk := 2, brkAt := s.clk } }
    else s
  else s)

/-- BREAKER_CONFIRM (R179, R181): PI0 or PI1 reports the breaker; what follows belongs to the shipped bills (R155). -/
def execBreakerConfirm (t : Time) (closed : Bool) (s : State) : Outcome State Fault Refusal :=
  let s := s.at t
  .next (if !isStack s then s
  else
    let s := { s with pins.pi := putBit (putBit s.pins.pi 0 closed) 1 !closed }
    if !shippedCfg s then s
    else if closed then
      if s.ctl.step == 3 && s.ctl.brk != 4 && s.ctl.stop.isNone then { s with ctl := { s.ctl with step := 4, brk := 1 } }
      else s
    else if s.ctl.stop.isSome && s.ctl.stopStep == 1 && inService s then stopDone s
    else if s.ctl.brk == 4 then s
    else { s with ctl.brk := 0 })

/-- BREAKER_TIMEOUT (R179 step 3, R181 step 4): BRK_TMO without confirmation. -/
def execBreakerTimeout (t : Time) (s : State) : Outcome State Fault Refusal :=
  let s := s.at t
  .next (if !shippedCfg s || !isStack s || decide (s.clk < s.ctl.brkAt + (cfgOf s).ctrl.brkTmo * msT) then s
  else if s.ctl.brk == 2 then
    let s := breakerPulse s 1
    stopBegin { s with ctl.brk := 4 } CA_NONE
  else if s.ctl.brk == 3 && s.ctl.stopStep == 1 then { s with ctl := { s.ctl with brk := 4, stopStep := 2 } }
  else s)

/-! ## The fill (R114, R115) -/

/-- FILL_CUTOFF (R114). -/
def execFillCutoff (t : Time) (s : State) : Outcome State Fault Refusal :=
  let s := s.at t
  .next (if isStack s && domOn s 2 && s.tim.bound + s.eget PT_FILLCFG_OFS * 65536 ≤ netTime s
    then { s with grist.cut := true } else s)

/-- The firmware's part at the close of a fill. -/
def fillFirmware (s : State) : State :=
  let s := classReads s
  let off := (cfgCells s).filter (fun c => !s.grist.onTime.contains c)
  let s := { s with ctl.cells := off.foldl (fun m c => smMod {} m c (fun x => { x with state := 0 })) s.ctl.cells }
  let s := if devState s == ST_ENUMERATE || devState s == ST_TIME_LOCK then { s with ctl.found := heardCells s } else s
  let s := cellWitness s
  let shipped := (cfgOf s).ctrl.shipped
  let s := if shipped then classDecide s else s
  let s := pitchProgress s
  let s := if shipped && (devState s == ST_RUN || devState s == ST_DEGRADED) && armShort s [] then stopBegin s CA_TOPOLOGY else s
  if shipped then stackPoints (wordsPut (slotAssign s)) else s

/-- FILL_CLOSE (R115): every on-time frame is written. -/
def execFillClose (t : Time) (s : State) : Outcome State Fault Refusal :=
  let s := s.at t
  .next (if !isStack s || !domOn s 2 || s.grist.closed
      || decide (netTime s < s.tim.bound + s.eget PT_FILLCFG_OFS * 65536) then s
  else
    let s := fillClose { s with grist.cut := true }
    if s.sys.phase == .firmware && !s.sys.halted then fillFirmware s else s)

end Sys2Proof.Machine
end

