-- ==== Sys2Proof/Machine/TaskEnd.lean ====
section
/-! DEFINITION. The end of the main task: what the engine writes, and the command, cross-check and mirror frames that
follow its outlet (R120, R270, R333, R336). -/

namespace Sys2Proof.Machine

open Host

/-- A word that the command of a cell carries: of the shipped bills those of Table 6.4 (R159), of other bills words 0 to
31. -/
def cmdCarries (s : State) (w : Nat) : Bool := if shippedCfg s then w < 5 || (16 ≤ w && w < 22) else w < 32

/-- Command words 0 to 63 of a cell (R159): the others are sent as 0. -/
def cmdWords (s : State) (c : Nat) : List Nat :=
  (List.range 64).map (fun w => if cmdCarries s w then ptWord s (P_WORD c w) else 0)

/-- One CMD frame per configured cell of each ACTIVE chain lane, in descending position (R270, R280, R286). -/
def sendCmds (s : State) : State :=
  let app := (cycleNow s + (cfgOf s).ctrl.lead) % 2 ^ 32
  let frame (c : Nat) : Frame :=
    ⟨{ downHdr s (c / 8) (c % 8) 1 256 with cycle := app, xflags := b2n (holds s) }, .cmd (cmdWords s c)⟩
  let s' := ((usedChains s).filter (laneActive s)).foldl (fun x k => (List.range (chainLen s k)).reverse.foldl (fun x q =>
    sendOn x k 2 (frame (8 * k + q))) x) s
  let sent : SMap (List Nat) := (cfgCells s).map (fun c => (c, cmdWords s c))
  { s' with vote := { s'.vote with lastCyc := s.vote.sentCyc, last := s.vote.sent, sentCyc := app, sent } }

/-- One XCHK frame per configured cell to every ACTIVE peer; a peer lane that is not ACTIVE drops it (R336, R280). -/
def sendXchk (s : State) : State :=
  let frame (c : Nat) : Frame :=
    ⟨{ downHdr s (c / 8) (c % 8) 6 256 with cycle := s.vote.sentCyc, xflags := if s.vote.ownOld.1 % 2 ^ 32 == s.vote.sentCyc then s.vote.ownOld.2 else 0 },
      .xchk (smGet [] s.vote.sent c)⟩
  let live := (livePeers s).filterMap (peerLane s)
  let lost := (dueLanes s [24, 25]).filter (fun l => isPeerLane s l && !laneActive s l)
  (live ++ lost).foldl (fun x l => (cfgCells s).foldl (fun x c => sendOn x l 3 (frame c)) x) s

/-- What follows the outlet of the main task in stack role. -/
def afterOutlet (s : State) : State :=
  let s := sendMirror s
  let s := if s.flag VOTE_LEASE_RACKED then syncCand { s with vote.outlet := true } else s
  if !sendsCmds s || !domOn s 2 then s
  else if voteMode s == 1 then sendXchk (xchkOpen (sendCmds (xchkClose s)))
  else sendCmds s

/-- MAIN_TASK_END (R120): the outlet is complete, and END is the instant at which its last item ended; a task with work
left goes on. `grid` holds the sampled grid voltages and arm currents of a shipped
stack bill, binary32. -/
def execMainTaskEnd (t : Time) (grid : List Nat) (s : State) : Outcome State Fault Refusal :=
  let s := settleFast (s.at t)
  .next (if s.mash.main.isNone || s.mash.fast.isSome then s
  else
    let s := runTask s false (some s.clk)
    match s.mash.main with
    | none => s
    | some r =>
    if !taskDone s false then s
    else
      let ns := (netTime s - (s.clk - r.next) - s.tim.bound) / 65536
      let s := { s with mash := { s.mash with main := none, ovrM := 0 } }
      let s := s.fsets [(MASH_CYCLE_CYCLE, 0, r.cyc), (MASH_END_NS, 0, ns),
        (MASH_ENDMAX_NS, 0, max ns (s.fget MASH_ENDMAX_NS)), (MASH_QUALCNT_N, 0, r.qual), (MASH_STAT_OVR, 0, 0)]
      let s := match r.ship with
        | some x => if isStack s then shipStackRun s x grid else shipCell s x
        | none => s
      let s := taskSamples s false r
      if isStack s then afterOutlet s else s)

end Sys2Proof.Machine
end

