-- ==== Sys2Proof/Machine/ConfigCheck.lean ====
section
/-! DEFINITION. Images: the boot directory, the verification of an image, and the checks that a configuration image's
content must pass (R20, R21, R25, R46, R50, R55 to R57, R86, R113, R116, R155 to R158, R176, R290, R300, R334, R386 to
R390, R438). -/

namespace Sys2Proof.Machine

open Host

/-! ## The boot directory (R55, R438) -/

/-- GEN g1 is later than g2. -/
def genLater (g1 g2 : Nat) : Bool := let d := (g1 + 2 ^ 32 - g2 % 2 ^ 32) % 2 ^ 32; 1 ≤ d && d < 2 ^ 31

/-- The copy that R55 selects; with neither CRC good, an empty directory in place of copy 0. -/
def dirNow (f : Flash) : Nat × DirCopy :=
  match f.dir0.crcOk, f.dir1.crcOk with
  | true, true => if genLater f.dir1.gen f.dir0.gen then (1, f.dir1) else (0, f.dir0)
  | true, false => (0, f.dir0)
  | false, true => (1, f.dir1)
  | false, false => (0, {})

/-- Rewrite the copy that R55 does not select: its fields, with GEN one more. -/
def dirRewrite (s : State) (g : DirCopy → DirCopy) : State :=
  let (i, d) := dirNow s.flash
  let n := { g d with crcOk := true, gen := (d.gen + 1) % 2 ^ 32 }
  if i == 0 then { s with flash.dir1 := n } else { s with flash.dir0 := n }

def slotOfDir (d : DirCopy) (i : Nat) : SlotDir := d.slots.getD i {}

/-- A slot's OFFSET is valid (R438). -/
def offsetOk (f : Flash) (d : DirCopy) (i : Nat) : Bool :=
  let o := (slotOfDir d i).offset
  o % 65536 == 0 && decide (65536 ≤ o) && decide (o < min f.size (2 ^ 28))
    && (List.range i).all (fun j => (slotOfDir d j).offset != o)

/-- A slot's extent (R438). -/
def slotExtent (f : Flash) (d : DirCopy) (i : Nat) : Nat :=
  let o := (slotOfDir d i).offset
  let next := ((List.range 4).filter (offsetOk f d)).map (fun j => (slotOfDir d j).offset)
  (next.filter (o < ·)).foldl min (min f.size (2 ^ 28)) - o

/-- The slots i and i + 1 that hold something, in the order in which they are tried (R57, R59). -/
def slotOrder (s : State) (i : Nat) : List Nat :=
  let (_, d) := dirNow s.flash
  let full (j : Nat) : Bool := s.flash.present && (slotOfDir d j).length != 0 && offsetOk s.flash d j
  let l := [i, i + 1].filter full
  if l.length == 2 && (slotOfDir d i).seq < (slotOfDir d (i + 1)).seq then [i + 1, i] else l

/-! ## Verification (R56, R387, R388) -/

/-- The identity fingerprint of the device (R387, R391). -/
def identityFpr (o : Otp) : Nat := keyFpr (idPub o.idSeed).1 (idPub o.idSeed).2

/-- An owner slot is VALID and not REVOKED. -/
def slotLive (o : Otp) (n : Nat) : Bool := bit o.slotValid n && !bit o.slotRev n

/-- Owner slot n is live and holds the keys of the image's block. -/
def slotHolds (o : Otp) (i : Image) (n : Nat) : Bool := slotLive o n && o.slotFpr.getD n 0 == imgFpr i

/-- A first enrolment (R390): while ENRLOCK is 0, keys that match no slot are taken as if slot 0 held them. -/
def firstEnrol (o : Otp) (i : Image) : Bool := !o.enrLock && (List.range 4).all (fun n => !slotHolds o i n)

/-- Part 1 of step 4 (R388): MAGIC, FORMAT, KIND and PART match, and KEYSEL names keys that Table 16.5 allows for the kind; bit 2
of FLAGS is 0 but in firmware that V1 signed (R386). -/
def headMatch (cfg : Bool) (i : Image) : Bool :=
  i.magic == 0x7a192001 && i.format == 1 && imgCfg i == cfg && (cfg || i.kind == 1) && i.part == 0x6a1a0192
    && (if cfg then decide (i.keySel < 4) else i.keySel == 0x10 || i.keySel == 0x11)
    && (!imgRevokeV0 i || (!cfg && i.keySel == 0x11))

/-- Part 2 of step 4 (R388): the keys of the full block are live keys of the kind (Table 16.5); a short block holds none. -/
def keyLive (o : Otp) (cfg : Bool) (i : Image) : Bool :=
  !imgShort i && if cfg then slotHolds o i i.keySel || (i.keySel == 0 && firstEnrol o i)
    else !bit o.vrev (i.keySel % 2) && vendorFpr (i.keySel % 2) == imgFpr i

/-- Step 4 of R56 (R388). -/
def sigOk (o : Otp) (cfg : Bool) (i : Image) : Bool := headMatch cfg i && keyLive o cfg i && i.edOk && i.mlOk

/-- The largest image of a kind. -/
def imageMax (cfg : Bool) : Nat := if cfg then 512 * 1024 else 1792 * 1024

/-- R56: `len` is the length that the directory, or the chunks, give; `room` the slot's extent. -/
def verify (s : State) (cfg : Bool) (i : Image) (len room : Nat) : Status :=
  let o := s.sec.otp
  firstStatus [
    chk (!bit i.roles (b2n (isStack s))) .notInRole,
    chk (imageMax cfg < i.length || i.length != len || room < i.length || i.length != 256 + i.bodyLen + blockLen i) .badLength,
    chk (63 < i.svn) .range,
    chk (!sigOk o cfg i) .sigFail,
    chk (i.svn < if cfg then o.cfgSvn else o.fwSvn) .stale]

/-- The check of a flash slot; bytes that spell no image fail at step 4. -/
def verifySlot (s : State) (i : Nat) : Status :=
  let (_, d) := dirNow s.flash
  match s.flash.images.getD i none with
  | some img => verify s (2 ≤ i) img (slotOfDir d i).length (slotExtent s.flash d i)
  | none => .sigFail

/-! ## Topology (R20, R21) -/

def topoStatus (t : Topology) : Status :=
  let len (k : Nat) := t.chainLen.getD k 0
  let used (a : Nat) : Bool := t.armPhase.getD a 3 != 3
  let chains (a : Nat) := (List.range 24).filter (fun k => len k != 0 && t.chainArm.getD k 0 == a)
  let cells (a : Nat) := ((chains a).map len).sum
  let arms := List.range 6
  let mates (a : Nat) := arms.filter (fun b => b != a && used b && t.armPhase.getD b 3 == t.armPhase.getD a 3)
  firstStatus [
    chk (t.nStacks == 0 || t.enumTimeout == 0) .zeroNotAllowed,
    chk (3 < t.nStacks || 10000 < t.enumTimeout || (List.range 24).any (fun k => 8 < len k)
      || (List.range 24).any (fun k => len k != 0 && 5 < t.chainArm.getD k 0)
      || arms.any (fun a => 2 < t.armKind.getD a 0 || cells a < t.armMin.getD a 0 || 64 < cells a)) .range,
    chk ((t.nStacks == 1 && !t.solo) || arms.any (fun a => used a == (chains a).isEmpty)
      || arms.any (fun a => used a && (mates a).any (fun b =>
          t.armKind.getD a 0 == 0 || t.armKind.getD b 0 == 0 || t.armKind.getD a 0 == t.armKind.getD b 0))) .conflict]

/-! ## The control records (R157, R176) -/

/-- A binary32 parameter within a range whose ends are fractions. -/
def parIn (w : Nat) (lo hi : Q) : Bool := f32fin w && lo.le (f32v w) && (f32v w).le hi

def ctrlStatus (r : CtrlRec) : Status :=
  let n (k : Nat) : Q := Q.ofNat k
  let zero (w : Nat) : Bool := f32fin w && (f32v w).isZero
  let counts : List (Nat × Nat × Nat) := [(r.lead, 1, 4), (r.prio, 0, 1), (r.pCar, 100000, 500000), (r.lossCyc, 1, 16),
    (r.prechgTmo, 1, 600), (r.brkTmo, 10, 2000), (r.stopTmo, 100, 60000)]
  let reals : List (Nat × Q × Q) := [(r.pllKp, n 1, n 10000), (r.pllKi, n 1, n 1000000), (r.lArm, ⟨1, 100000⟩, n 1),
    (r.resArm, n 0, n 10), (r.bwCc, n 50, n 5000), (r.iMax, n 1, n 10000), (r.vFloor, n 1, n 100000),
    (r.iFloor, ⟨1, 10⟩, n 1000), (r.mMax, ⟨1, 2⟩, n 1), (r.gBal, n 0, n 1000000), (r.wE, n 0, n 10),
    (r.eRef, n 1, n 100000), (r.balKp, n 0, n 100000000), (r.balKi, n 0, n 100000000), (r.dpbMax, n 0, n 10000000),
    (r.dpMax, n 0, n 10000000), (r.zMax, n 0, n 50000), (r.stopRate, n 1000, n 10000000000)]
  firstStatus [
    chk ([r.lead, r.lossCyc, r.prechgTmo, r.brkTmo, r.stopTmo].any (· == 0)
      || [r.lArm, r.iMax, r.eRef, r.stopRate].any zero) .zeroNotAllowed,
    chk (counts.any (fun (v, lo, hi) => v < lo || hi < v) || reals.any (fun (w, lo, hi) => !parIn w lo hi)
      || (r.fNom != 50 && r.fNom != 60) || 1000000000 % max 1 r.pCar != 0 || 2 * r.pCar % 5 != 0) .range]

def cellRecStatus (r : CellRec) : Status :=
  firstStatus [
    chk ([r.iDisMax, r.iChgMax, r.pDabMax].any (fun w => f32fin w && (f32v w).isZero)) .zeroNotAllowed,
    chk (!parIn r.capMargin (Q.ofNat 0) ⟨1, 2⟩) .range]

/-! ## The point space (R100 to R102, R113, R116, R158) -/

/-- A register word that the image sets, or the reset value of a field. -/
def imageFld (b : CfgBody) (F : Fld) (i : Nat) : Nat :=
  match b.regs.find? (fun e => e.1 == F.addr + i * 2 ^ 32) with
  | some (_, w) => bits w F.lo F.width
  | none => F.resetAt i

/-- The entries of the image, each checked as a directory write in the order given, on top of the entries that stand. -/
def dirStatus (s : State) (i : Image) : Status :=
  let s := { s with sys.cfg := some i }.fset SYS_STATE_STATE 0 ST_BOOT
  (i.cfg.dir.foldl (fun (a : Status × State) e =>
    let st := firstStatus [chk (16384 ≤ e.1) .range, dirCheck a.2 e.1 e.2]
    (firstStatus [a.1, st], { a.2 with grist.dir := smSet 0 a.2.grist.dir e.1 e.2 })) (.ok, s)).1

/-- A directory entry of the image. -/
def imageEnt (b : CfgBody) (e : Nat) : Nat := ((b.dir.reverse.find? (fun x => x.1 == e)).map Prod.snd).getD 0

/-- The entries that Table 6.3 names, for every cell 0 to 191, each of which must be valid (R158): entry, TYPE, SRC, VALID. -/
def shippedEnts : List (Nat × Nat × Nat × Nat) :=
  let cls := (List.range 12).map (fun e => (0x3004 + e, 9, SRC_SYS, 0xffff))
  [(0x3000, 2, SRC_SYS, 0x1f), (0x3001, 8, SRC_MASH, 1), (0x3040, 4, SRC_REF, 0xf), (0x3080, 4, SRC_MASH, 0x3ff)] ++ cls
    ++ (List.range 3).map (fun x => (0x30c0 + 0x40 * x, 4, SRC_MASH, 0xff))
    ++ (List.range 192).flatMap (fun c => [(0x3400 + c, 4, SRC_MASH, 0xffff), (0x3500 + c, 2, SRC_SYS, 0xffff)])

def shippedStatus (i : Image) : Status :=
  let t := i.cfg.topo
  let used := (List.range 6).filter (fun a => t.armPhase.getD a 3 != 3)
  let arms := used.length == 3 && used.all (fun a => t.armKind.getD a 0 == 0)
  let ent (x : Nat × Nat × Nat × Nat) : Bool :=
    let w := imageEnt i.cfg x.1
    dType w == x.2.1 && dSrc w == x.2.2.1 && dValid w &&& x.2.2.2 == x.2.2.2
  chk (!arms || !shippedEnts.all ent) .conflict

/-- The publication load of every chain (R113). -/
def loadStatus (i : Image) : Status :=
  let owed (c x : Nat) : Nat := ((i.cfg.dir.filter (fun e => e.1 / 64 == x)).map (fun e => entOwes e.2 c)).sum
  let ofs := imageFld i.cfg PT_FILLCFG_OFS 0
  let bad (k : Nat) : Bool :=
    let cells := (List.range (i.cfg.topo.chainLen.getD k 0)).map (8 * k + ·)
    (List.range 64).any (fun c =>
      cells.any (fun x => 127 < owed c x) || 10 * ofs < 8 * (cells.map (fun x => 16 + 16 * owed c x)).sum + 5000)
  chk ((List.range 24).any bad) .range

/-- The wire time, in units of 2⁻¹⁶ ns, of RACK frames that carry n updates. -/
def rackWire (n : Nat) : Nat := n / 125 * wireT 2004 + (if n % 125 == 0 then 0 else wireT (4 + 16 * (n % 125)))

/-- The peer-lane load (R334). The refresh share numbers the racked entries in ascending directory index (R332), each as the
image leaves it. -/
def peerLoadStatus (s : State) (i : Image) : Status :=
  let b := i.cfg
  let cells := (cfgCells { s with sys.cfg := some i }).length
  let racked := (b.dir.foldl (fun m e => smSet 0 m e.1 e.2) ([] : SMap Nat)).filter (fun e => dRack e.2)
  let pts (l : List (Nat × Nat)) : Nat := (l.map (fun e => popCount 16 (dValid e.2))).sum
  let mirror := min 1024 ((List.range 64).map (imageFld b VOTE_SLIST_COUNT)).sum
  let other := pts (racked.filter (fun e => e.1 / 64 != 207))
  let share := (List.range 64).foldl (fun m k =>
    max m (pts ((racked.zipIdx.filter (fun e => e.2 % 64 == k)).map Prod.fst))) 0
  let sum := (if cells ≤ 64 then 224 * 65536 * cells else 0) + rackWire (mirror + other + share) + 2000 * 65536
  chk (1 < b.topo.nStacks && imageFld b TIM_CYC_T 0 * 65536 < sum) .range

/-! ## The board lane table and the KEYS record -/

def laneTabStatus : Option LaneTab → Status
  | none => .ok
  | some t =>
    let l := t.ents
    firstStatus [
      chk l.isEmpty .zeroNotAllowed,
      chk (t.version != 1 || t.res != 0 || l.any (fun e => e.res != 0) || 28 < l.length || l.any (fun e => 27 < e.lane || 3 < e.flags || 15 < e.pre || 63 < e.main
        || 31 < e.post || 15 < e.ctle)) .range,
      chk (!(l.map LaneEnt.lane).Nodup || l.any (fun e => 63 < e.pre + e.main + e.post || e.main < e.pre + e.post + 16))
        .conflict]

/-- One entry of the KEYS record on the slots as they then stand (R390). -/
def keyStep (signer : Nat) (o : Otp) : KeyOp → Option Otp
  | .enrol n f =>
    if bit o.slotValid n || (o.slotFpr.getD n 0 &&& f) != o.slotFpr.getD n 0 then none
    else some { o with slotFpr := o.slotFpr.set n f, slotValid := putBit o.slotValid n true }
  | .revoke n =>
    if n.val == signer || (List.range 4).all (fun k => k == n.val || !slotLive o k) then none
    else some { o with slotRev := putBit o.slotRev n true }

def keysStatus (o : Otp) (i : Image) : Status :=
  let run := i.cfg.keys.foldl (fun (a : Option Otp) k => a.bind (fun o => keyStep i.keySel o k)) (some o)
  chk (run.isNone || (firstEnrol o i && !i.cfg.keys.any (fun k => k == .enrol 0 (imgFpr i)))) .conflict

/-! ## All checks -/

/-- The checks that hold in both roles (R25, R46, R50, R290). -/
def bodyStatus (s : State) (b : CfgBody) : Status :=
  let ref : Bool := match b.refSrc with | some x => x != s.flag CLK_STAT_SRC | none => false
  firstStatus [
    chk (b.wdogMs == 0 || b.bypassMs == 0) .zeroNotAllowed,
    chk (1000 < b.wdogMs || 500 < b.bypassMs) .range,
    chk ref .conflict, laneTabStatus b.laneTab]

/-- The checks of a cell's configuration, its own or the lease holder's: the directory entries under R100 to R102 and
R112 among them. -/
def cellBodyStatus (s : State) (b : CfgBody) : Status :=
  firstStatus [bodyStatus s b, if b.ctrl.shipped then cellRecStatus b.cell else .ok, dirStatus s { kind := 2, cfg := b }]

/-- The checks of an image's content in the device's role; the first failure in the order of R12. -/
def contentStatus (s : State) (i : Image) : Status :=
  let b := i.cfg
  let both := [bodyStatus s b, keysStatus s.sec.otp i]
  let own := if isStack s then [
      topoStatus b.topo, chk b.sources.isEmpty .zeroNotAllowed,
      chk (8 < b.sources.length || b.mtu < 1500 || 9000 < b.mtu) .range,
      chk (256 < (b.dir.filter (fun e => dRack e.2)).length) .range,
      dirStatus s i, loadStatus i, peerLoadStatus s i,
      chk (imageFld b TIM_CFG_SRC 0 == 1 && 1 < b.topo.nStacks) .conflict]
      ++ (if b.ctrl.shipped then [ctrlStatus b.ctrl, shippedStatus i] else [])
    else [cellBodyStatus s b]
  firstStatus (both ++ own)

/-- The check of a configuration slot (R59). -/
def cfgSlotStatus (s : State) (i : Nat) : Status :=
  match verifySlot s i, s.flash.images.getD i none with
  | .ok, some img => contentStatus s img
  | st, _ => st

end Sys2Proof.Machine
end

