-- ==== Sys2Proof/Machine/Boot.lean ====
section
/-! DEFINITION. Boot: the OTP load, the self-test of PD0, slot selection, recovery and netboot, the start of the firmware,
configuration images coming into force, OTP programming (R50, R55 to R63, R383 to R385, R389 to R391, R439). -/

namespace Sys2Proof.Machine

open Host

/-! ## OTP -/

/-- The OTP registers of the SEC block show the OTP (R385, R395). -/
def otpShow (s : State) : State :=
  let o := s.sec.otp
  let s := s.fsets [(SEC_SVN_FW_SVN, 0, o.fwSvn), (SEC_SVN_CFG_SVN, 0, o.cfgSvn), (SEC_STAT_SLOTVALID, 0, o.slotValid),
    (SEC_STAT_SLOTREV, 0, o.slotRev), (SEC_STAT_VREV, 0, o.vrev), (SEC_STAT_ENRLOCK, 0, b2n o.enrLock)]
  s.fset SEC_STAT_OTPBUSY 0 (b2n !s.sec.otpQ.isEmpty)

/-- A new debug challenge (R394): eight random words. -/
def newChallenge (s : State) : State :=
  (List.range 8).foldl (fun s i => let (w, s) := drawFree s; s.fset SEC_DBGCHAL_CHAL i w) s

/-- Programming steps are queued (R385). -/
def otpPush (s : State) (l : List OtpStep) : State := otpShow { s with sec.otpQ := s.sec.otpQ ++ l }

/-- The device sets ENRLOCK once slot 0 is VALID (R390), whatever interrupted it before. -/
def otpLock (s : State) : State :=
  otpPush s (if bit s.sec.otp.slotValid 0 && !s.sec.otp.enrLock && !s.sec.otpQ.contains .enrLock then [.enrLock] else [])

/-- OTP_LOAD_DONE (R50, R399, Table 2.13): 0.1 ms after the straps, the PD0 reset is released, FQ_RST_N rises and the boot
ROM starts. -/
def execOtpLoadDone (t : Time) (s : State) : Outcome State Fault Refusal :=
  let s := s.at t
  .next (if s.sys.phase == .otpLoad && decide (s.sys.since + 100 * usT ≤ s.clk) then
    newChallenge (otpLock (scrubBegin { s with sys.phase := .selfTest, pins.fqRstN := true } [0, 1]))
  else s)

/-- The steps of raising a counter (R58) from where it will stand once the steps `q` that wait are done. -/
def raiseSteps (q : List OtpStep) (step : OtpStep) (now want : Nat) : List OtpStep :=
  List.replicate (min want 63 - (now + q.count step)) step

/-- The steps of the KEYS record: 32 fingerprint bytes, then VALID (R390). -/
def keySteps : KeyOp → List OtpStep
  | .enrol n f => (List.range 32).map (fun i => .slotFpr n.val (f / 256 ^ i % 256 * 256 ^ i)) ++ [.slotValid n.val]
  | .revoke n => [.slotRev n.val]

/-- One programming step done. -/
def otpDo (o : Otp) : OtpStep → Otp
  | .fwSvn => { o with fwSvn := min 63 (o.fwSvn + 1) }
  | .cfgSvn => { o with cfgSvn := min 63 (o.cfgSvn + 1) }
  | .slotFpr n f => { o with slotFpr := o.slotFpr.set n (o.slotFpr.getD n 0 ||| f) }
  | .slotValid n => { o with slotValid := putBit o.slotValid n true }
  | .slotRev n => { o with slotRev := putBit o.slotRev n true }
  | .vrev v => { o with vrev := o.vrev ||| v }
  | .enrLock => { o with enrLock := true }

/-! ## Powering domains -/

/-- The boot ROM or the firmware requests domains: a write of PWR_DOMCTL by M0. -/
def powerOn (s : State) (l : List Nat) : State :=
  let w := l.foldl (fun w d => putBit w d true) (s.fget PWR_DOMCTL_REQ * 2)
  (busWrite s 0 0x30000 w 4 true).2

/-- A register write by the firmware to instance i of the register at `a` (instance above 0: through the window). -/
def fwWrite (s : State) (e : Nat × Nat) : State :=
  let a := e.1 % 2 ^ 32
  let i := e.1 / 2 ^ 32
  (busWrite (fwSelect s a i) 0 a e.2 4 true).2

/-- Lanes that the device uses (R61, Table 1.4). -/
def laneWanted (s : State) (l : Nat) : Bool :=
  if !isStack s then [0, 1, 2, 4, 5, 6].contains l
  else if l < 24 then usedChain s l
  else l == 26 || decide (1 < stackCount s)

/-- The board lane table's settings of a lane become its staged settings (R290, R291). -/
def laneSettings (s : State) (l : Nat) : State :=
  match (cfgOf s).laneTab with
  | none => s
  | some t =>
    match t.ents.find? (fun e => e.lane == l) with
    | none => s
    | some e => s.fsets [(LNK_EQ_CTLE, l, e.ctle), (LNK_EQ_POST, l, e.post), (LNK_EQ_MAIN, l, e.main), (LNK_EQ_PRE, l, e.pre),
        (LNK_CFG_TXINV, l, e.flags % 2), (LNK_CFG_RXINV, l, e.flags / 2 % 2)]

/-- The ROM preset of the equaliser (R290). -/
def romPreset (s : State) (l : Nat) : State :=
  s.fsets [(LNK_EQ_CTLE, l, 8), (LNK_EQ_POST, l, 0), (LNK_EQ_MAIN, l, 48), (LNK_EQ_PRE, l, 0)]

/-- The firmware, or the ROM in netboot, enables the lanes of a quad: with the settings of the table (R290), or the ROM preset
(R61). A lane that a system reset found enabled keeps its state when it is trained, and else trains with those. -/
def lanesUp (s : State) (d : Nat) : State :=
  (List.range' (4 * (d - 10)) 4).foldl (fun s l =>
    let set (s : State) : State := if s.sys.phase == .netboot then romPreset s l else laneSettings s l
    if !laneWanted s l then s
    else if s.flag LNK_CFG_EN l then
      if laneState s l == L_TRAIN then enterTrain (set s) l else if laneState s l == L_DETECT then set s else s
    else
      let s := set s
      fwWrite s (0x140100 + l * 2 ^ 32, 2 ^ 31 + s.fget LNK_CFG_TXINV l * 2 ^ 30 + s.fget LNK_CFG_RXINV l * 2 ^ 29
        + s.fget LNK_CFG_RATE l * 2 ^ 16)) s

/-- What the configuration in force gives a domain that is on and tested: register words, directory entries, and the
bill, its own or the shipped one (R155), which is loaded into the shadow bank and swapped in. -/
def cfgDomain (s : State) (d : Nat) : State :=
  if !cfgInForce s then s
  else
    let b := cfgOf s
    let s := b.regs.foldl (fun s e =>
      let a := e.1 % 2 ^ 32
      let dom := match blkOf a with
        | some k => if inWindow k a then instDom k (e.1 / 2 ^ 32) else addrDom s 0 a
        | none => 17
      if dom == d then fwWrite s e else s) s
    let s := if d == 2 then b.dir.foldl (fun s e => putEntry s 0 e.1 e.2) s else s
    if d == 1 && (!b.bank.isEmpty || b.ctrl.shipped) then
      let s := bankLoad s (1 - actBank s) b.bank (imageFld b TIM_CYC_T 0)
      (swapRequest s { cyc := 0, master := 0 }).2
    else s

/-- A stack or a cell with a configuration in force leaves BOOT once everything that its image uses has been tested; it stays
there, with cause CONFIG, while any of it is retired (R31, R33, R384). -/
def leaveBoot (s : State) : State :=
  if devState s != ST_BOOT || s.sys.phase != .firmware || !cfgInForce s || usesUntested s then s
  else if usesRetired s then setCause s CA_CONFIG
  else if isStack s then beginEnum s CA_NONE
  else tryJoin s

/-- A domain is ready for use: powered, and tested since the cold reset. -/
def domReady (s : State) (d : Nat) : State :=
  if s.sys.phase == .netboot || (s.sys.phase == .firmware && !s.sys.halted) then
    let s := if s.sys.phase == .firmware then cfgDomain s d else s
    let s := if 10 ≤ d && (!isStack s || cfgInForce s) then linkStatus (lanesUp s d) else s
    tryReady (leaveBoot s)
  else s

/-- Every domain that is on and tested. -/
def readyDomains (s : State) : List Nat := (List.range 17).filter (fun d => domOn s d && !bit s.sys.testing d)

/-- DOMAIN_ON_COMPLETE (R37). -/
def execDomainOnComplete (t : Time) (d : Dom) (s : State) : Outcome State Fault Refusal :=
  let s := s.at t
  .next (if s.sys.domBusy == some (d.val, true) then
    let s := domainOn s d
    if bit s.sys.testing d then s else domReady s d
  else s)

/-- The lanes of a quad that is switched off stop carrying frames (R280, R285, R302). -/
def lanesDown (s : State) (d : Nat) : State :=
  if d < 10 then s else (List.range' (4 * (d - 10)) 4).foldl laneQuiet s

/-- DOMAIN_OFF_COMPLETE (R38): the domain's register and memory contents are lost; with a quad the link status changes
(R278, R286). -/
def execDomainOffComplete (t : Time) (d : Dom) (s : State) : Outcome State Fault Refusal :=
  let s := s.at t
  .next (if s.sys.domBusy == some (d.val, false) then
    let s := domClear (lanesDown s d) d
    let s := s.fset PWR_DOMSTAT_ON 0 (putBit (s.fget PWR_DOMSTAT_ON) d false)
    let s := if 10 ≤ d.val then linkStatus s else s
    serveDomains { s with sys.domBusy := none, sys.testing := putBit s.sys.testing d false }
  else s)

/-- DOMAIN_SELFTEST_DONE (R383, R384). -/
def execDomainSelftestDone (t : Time) (d : Dom) (pass : Bool) (failed : List Nat) (s : State) :
    Outcome State Fault Refusal :=
  let s := s.at t
  .next (if bit s.sys.testing d then
    let s := domainTested s d pass failed
    if domRetired s d then leaveBoot s else domReady s d
  else s)

/-! ## A configuration in force -/

/-- An image that has verified and been accepted comes into force (R59, R91, R300, R335, R389, R390). -/
def cfgForce (s : State) (slot : Nat) (i : Image) : State :=
  let o := s.sec.otp
  let s := { s with sys.cfg := some i }.fset SYS_BOOT_CFGSLOT 0 slot
  let tab := i.cfg.rights.foldl (fun m e => smInsert e.1 (e.2 / 8 * 8 + 7) (smErase m e.1)) ([] : SMap Nat)
  let s := { s with mbx := { s.mbx with accTab := tab, accImg := true, m3w := [] } }
  let q := s.sec.otpQ
  let s := otpPush s ((if imgRaise i then raiseSteps q .cfgSvn o.cfgSvn i.svn else [])
    ++ (i.cfg.keys.flatMap keySteps).filter (fun x => !q.contains x))
  let s := s.fset VOTE_MODE_MODE 0 (voteMode s)
  let s := (readyDomains s).foldl cfgDomain s
  let s := startFree s
  if isStack s then
    let s := (((i.cfg.laneTab.map LaneTab.ents).getD []).map LaneEnt.lane).foldl laneSettings s
    let s := powerOn s ((usedChains s).map (fun k => 10 + k / 4) ++ [16])
    let s := linkStatus (((readyDomains s).filter (10 ≤ ·)).foldl lanesUp s)
    leaveBoot s
  else
    let ls := ((i.cfg.laneTab.map LaneTab.ents).getD []).map LaneEnt.lane
    let s := ls.foldl laneSettings s
    let s := retrainPorts s ls
    leaveBoot s

/-- No configuration slot is accepted (R59): the cause is CONFIG (R46); a stack stays in BOOT, a cell goes on with its
default board settings. -/
def cfgNone (s : State) : State :=
  let s := setCause s CA_CONFIG
  if isStack s then s else tryJoin s

/-- CONFIG_SLOT_CHECK (R59, R439). -/
def execConfigSlotCheck (t : Time) (s : State) : Outcome State Fault Refusal :=
  let s := s.at t
  .next (if s.sys.phase != .firmware || s.sys.halted then s
  else match s.sys.cfgLeft with
  | [] => s
  | j :: l =>
    let st := cfgSlotStatus s j
    let s := if j == 2 then s.fsets [(SYS_CFGSTAT_TRIED0, 0, 1), (SYS_CFGSTAT_ST0, 0, st.code)]
      else s.fsets [(SYS_CFGSTAT_TRIED1, 0, 1), (SYS_CFGSTAT_ST1, 0, st.code)]
    match st, s.flash.images.getD j none with
    | .ok, some i => cfgForce { s with sys.cfgLeft := [] } (j - 2) i
    | _, _ => if l.isEmpty then cfgNone { s with sys.cfgLeft := [] } else { s with sys.cfgLeft := l })

/-! ## The start of the firmware -/

/-- A verified image starts (R57, R60, R61, R63): slot 0 A, 1 B, 2 RAM; src 0 flash, 1 netboot, 2 recovery. -/
def startFirmware (s : State) (slot src : Nat) (trial : Bool) (i : Image) : State :=
  let s := s.fsets [(SYS_BOOT_FWSLOT, 0, slot), (SYS_BOOT_SRC, 0, src), (SYS_BOOT_TRIAL, 0, b2n trial),
    (SYS_BOOT_TRIES, 0, s.fget SYS_BOOT_TRIES + b2n trial), (SYS_BOOT_STATUS, 0, 0)]
  let left := slotOrder s 2
  let s := { s with sys := { s.sys with phase := .firmware, fw := some i, bootLeft := [], cfgLeft := left, load := none } }
  let s := linkStatus (releaseDown s)
  let s := powerOn s (if isStack s then [1, 2, 3, 4, 5] else List.range' 1 11)
  let s := if isStack s then s else ((readyDomains s).filter (10 ≤ ·)).foldl lanesUp s
  if left.isEmpty then cfgNone s else s

/-- No slot holds firmware that starts (R57). -/
def noFirmware (s : State) : State :=
  if isStack s then { s with sys := { s.sys with phase := .recovery, bootLeft := [] } }
  else
    let s := { s with sys := { s.sys with phase := .netboot, bootLeft := [], netPort := none } }
    let s := powerOn s [10, 11]
    linkStatus (((readyDomains s).filter (10 ≤ ·)).foldl lanesUp s)

/-- Trials that have started three times are passed over (R57). -/
def bootSkip (s : State) : List Nat → List Nat
  | [] => []
  | j :: l =>
    let (_, d) := dirNow s.flash
    if (slotOfDir d j).trial && 3 ≤ s.fget SYS_BOOT_TRIES then bootSkip s l else j :: l

def bootNext (s : State) (l : List Nat) : State :=
  match bootSkip s l with
  | [] => noFirmware s
  | j :: r => { s with sys.bootLeft := j :: r }

/-- PD0_SELFTEST_DONE (R383): boot source selection begins, or the device waits to repeat the test. -/
def execPd0SelftestDone (t : Time) (pass : Bool) (s : State) : Outcome State Fault Refusal :=
  let s := s.at t
  .next (if s.sys.phase != .selfTest then s
  else if !pass then { s with sys.phase := .selfTestWait, sys.since := s.clk }
  else if s.flag SYS_STRAP_SID_BAD then { s.fset SYS_BOOT_STATUS 0 Status.conflict.code with sys.phase := .romIdle }
  else bootNext { s with sys.phase := .romSelect } (slotOrder s 0))

/-- PD0_SELFTEST_RETRY (R383): 10 ms later. -/
def execPd0SelftestRetry (t : Time) (s : State) : Outcome State Fault Refusal :=
  let s := s.at t
  .next (if s.sys.phase == .selfTestWait && decide (s.sys.since + 10 * msT ≤ s.clk) then { s with sys.phase := .selfTest }
  else s)

/-- BOOT_SLOT_VERIFY (R57). -/
def execBootSlotVerify (t : Time) (s : State) : Outcome State Fault Refusal :=
  let s := s.at t
  .next (if s.sys.phase != .romSelect then s
  else match s.sys.bootLeft with
  | [] => s
  | j :: l =>
    let (_, d) := dirNow s.flash
    let st := verifySlot s j
    match st, s.flash.images.getD j none with
    | .ok, some i => startFirmware s j 0 (slotOfDir d j).trial i
    | _, _ => bootNext (s.fset SYS_BOOT_STATUS 0 st.code) l)

/-- KEY_DERIVATION_DONE (R391): the key pairs are derived from the seeds; KEYRDY, and the identity fingerprint. -/
def execKeyDerivationDone (t : Time) (s : State) : Outcome State Fault Refusal :=
  let s := s.at t
  .next (if s.sys.phase == .firmware then
    let s := { s with sec.idKeys := some (idPub s.sec.otp.idSeed) }.fset SEC_STAT_KEYRDY 0 1
    (List.range 8).foldl (fun s i => s.fset SEC_FPR_FPR i (identityFpr s.sec.otp / 2 ^ (32 * i))) s
  else s)

/-- NETBOOT_TIMEOUT (R61): an image that is not complete 2 s after its first chunk is discarded. -/
def execNetbootTimeout (t : Time) (s : State) : Outcome State Fault Refusal :=
  let s := s.at t
  .next (match s.sys.load with
  | some a => if s.sys.phase == .netboot && !a.complete && decide (a.first + 2 * secT ≤ s.clk) then
      { s with sys := { s.sys with load := none, netPort := none } } else s
  | none => s)

end Sys2Proof.Machine
end

