-- ==== Sys2Proof/Machine/Netboot.lean ====
section
/-! DEFINITION. RRA mailbox fragments, netboot served by a stack, and the frames that bring its requests (R61, R62, R114,
R271, R276, R287). -/

namespace Sys2Proof.Machine

open Host

/-! ## RRA MAILBOX frames (R276) -/

/-- The fragments of a payload: offset, bytes, LAST. -/
def fragsOf (n : Nat) (l : List Nat) : List (Nat × List Nat × Bool) :=
  let k := max 1 ((l.length + n - 1) / n)
  (List.range k).map (fun i => (n * i, (l.drop (n * i)).take n, i + 1 == k))

/-- A mailbox payload leaves on lane l under header h: op 2 MAILBOX, 10 MAILBOX_RSP. -/
def rraMailbox (s : State) (l : Nat) (h : Hdr) (op mbx opcode seq status : Nat) (bytes : List Nat) : State :=
  (fragsOf 2036 bytes).foldl (fun s e =>
    sendOn s l 5 ⟨{ h with len := 12 + e.2.1.length },
      .rra op mbx e.2.2 0 status (opcode * 65536 + bytes.length) (seq * 65536 + e.1) e.2.1⟩) s

/-! ## Offers (R62) -/

/-- The image that an offer's slot holds. -/
def offerImage (s : State) (slot : Nat) : Option Image := if slot == 2 then s.sys.fw else s.flash.images.getD slot none

/-- Bytes of an image's file. -/
def imageBytes (i : Image) (off n : Nat) : List Nat :=
  let l := (objectBytes i).drop off
  (List.range n).map (fun j => l.getD j 0)

/-- The next IMAGE_LOAD chunk of an offer to position q of chain k. -/
def offerChunk (s : State) (k q : Nat) (o : Offer) : State :=
  match offerImage s o.slot with
  | none => s
  | some i =>
    let n := min 4088 (i.length - o.off)
    rraMailbox s k (downHdr s k q 7 12) 2 0 0x0010 (o.off / 4088 % 65536) 0
      (leBytes 4 i.length ++ leBytes 4 o.off ++ imageBytes i o.off n)

/-- The slot that a stack offers to a position. -/
def offerSlot (s : State) (c : Nat) : Option Nat :=
  let p := smGet 0 s.sys.push c
  let hasCell (i : Option Image) : Bool := match i with | some x => bit x.roles 0 | none => false
  if p != 0 then if holds s then some (p - 1) else none
  else if hasCell s.sys.fw then some 2
  else ([0, 1].filter (· != s.fget SYS_BOOT_FWSLOT)).find? (fun j =>
    (slotOrder s 0).contains j && verifySlot s j == .ok && hasCell (s.flash.images.getD j none))

/-- The position at chain k, position q still requests an image. -/
def requests (s : State) (k q : Nat) : Bool :=
  if q == 0 then (lnOf s k).bootReq else bit (seenOf s (8 * k + q - 1)).bootreq (ownSid s)

/-- An offer to a requesting position begins, unless one goes on or was turned away less than 2 s ago. -/
def offerStart (s : State) (k q : Nat) : State :=
  let c := 8 * k + q
  let serving := isStack s && s.sys.phase == .firmware && !s.sys.halted && decide (ST_ENUMERATE ≤ devState s)
  let busy := match smGet none s.sys.offers c with | some o => decide (s.clk < o.at_ + 2 * secT) | none => false
  if !serving || !usedChain s k || 8 ≤ q || !requests s k q || busy then s
  else match offerSlot s c with
  | none => if smGet 0 s.sys.push c != 0 then s else lnkErr s 0 k .conflict
  | some slot =>
    let o : Offer := { slot, at_ := s.clk }
    offerChunk { s with sys.offers := smSet none s.sys.offers c (some o) } k q o

/-- The answer to a chunk of an offer: OK brings the next one, CONFLICT and every other status ends it. -/
def offerAnswer (s : State) (c status : Nat) : State :=
  match smGet none s.sys.offers c with
  | none => s
  | some o =>
    if !o.go then s
    else if status != 0 then { s with sys.offers := smSet none s.sys.offers c (some { o with go := false, at_ := s.clk }) }
    else
      let off := o.off + 4088
      let len := match offerImage s o.slot with | some i => i.length | none => 0
      if len ≤ off then { s with sys := { s.sys with offers := smSet none s.sys.offers c none, push := smErase s.sys.push c } }
      else
        let o := { o with off, at_ := s.clk }
        offerChunk { s with sys.offers := smSet none s.sys.offers c (some o) } (c / 8) (c % 8) o

/-- NETBOOT_OFFER_RETRY (R62): 2 s later, while the position still requests. -/
def execNetbootOfferRetry (t : Time) (k : Fin 24) (q : Fin 8) (s : State) : Outcome State Fault Refusal :=
  let s := s.at t
  .next (offerStart s k q)

/-- CAPS_FRAME (R16 to R18, R62, R284, R285). -/
def execCapsFrame (t : Time) (l : Lane) (fr : Frame) (s : State) : Outcome State Fault Refusal :=
  let s := capsRx (s.at t) l fr
  .next (if isChainLane s l && (lnOf s l).bootReq then offerStart s l 0 else s)

/-- IDLE_FRAME (R61, R62, R278, R287, R302). -/
def execIdleFrame (t : Time) (l : Lane) (rx : Time) (fr : Frame) (s : State) : Outcome State Fault Refusal :=
  let s := idleRx (s.at t) l rx fr
  .next (if isChainLane s l && (lnOf s l).bootReq then offerStart s l 0 else s)

/-! ## Telemetry -/

/-- TEL_FRAME (R114, R271, R287, R335): its updates, its cell's record, VOTE word and BOOTREQ, and the copies to the peers
that ask for the chain. -/
def execTelFrame (t : Time) (l : Lane) (fr : Frame) (s : State) : Outcome State Fault Refusal :=
  let (ok, s) := rxCheck (s.at t) l fr
  .next (match fr.body with
  | .tel _ _ _ _ _ vote _ _ =>
    let h := fr.hdr
    if !ok || !isStack s then s
    else
      let s := seenPut s fr
      let s := telArrive (repTime s (10 + l.val / 4)) s fr
      let s := voteReport s (h.chain * 8 + h.pos) vote
      if isChainLane s l then
        let s := (livePeers s).foldl (fun s p => match peerLane s p with
          | some x => if bit (lnOf s x).far1 l then sendOn s x 4 { fr with hdr := { h with fwd := true } } else s
          | none => s) s
        offerStart s l (h.pos + 1)
      else s
  | _ => s)

end Sys2Proof.Machine
end

