-- ==== Sys2Proof/Machine/Mailbox.lean ====
section
/-! DEFINITION. Mailbox commands: what Table 3.16 asks of each opcode, every check in the order of R12, taking a command,
and its response (R72 to R79, R87 to R90, R93 to R96, R320). -/

namespace Sys2Proof.Machine

open Host

/-! ## Opcodes (Table 3.16) -/

def oGetInfo : Nat := 0x0001
def oGetStatus : Nat := 0x0002
def oReset : Nat := 0x0003
def oImageLoad : Nat := 0x0010
def oImageWrite : Nat := 0x0011
def oImageConfirm : Nat := 0x0012
def oStart : Nat := 0x0020
def oStop : Nat := 0x0021
def oSetRef : Nat := 0x0022
def oCellBypass : Nat := 0x0023
def oContactor : Nat := 0x0024
def oCellImagePush : Nat := 0x0025
def oPointRead : Nat := 0x0030
def oPointWrite : Nat := 0x0031
def oCapArm : Nat := 0x0040
def oCapDisarm : Nat := 0x0041
def oCapStatus : Nat := 0x0042
def oCapRead : Nat := 0x0043
def oTraceStart : Nat := 0x0050
def oTraceRead : Nat := 0x0051
def oBillLoad : Nat := 0x0060
def oBillSwap : Nat := 0x0061
def oLeaseStatus : Nat := 0x0070
def oLeaseHandover : Nat := 0x0071
def oStackWithdraw : Nat := 0x0072
def oAttest : Nat := 0x0080
def oDebugUnlock : Nat := 0x0081
def oJournalRead : Nat := 0x0082
def oJournalFree : Nat := 0x0083
def oForward : Nat := 0x0090

def opcodes : List Nat :=
  [oGetInfo, oGetStatus, oReset, oImageLoad, oImageWrite, oImageConfirm, oStart, oStop, oSetRef, oCellBypass, oContactor,
    oCellImagePush, oPointRead, oPointWrite, oCapArm, oCapDisarm, oCapStatus, oCapRead, oTraceStart, oTraceRead, oBillLoad,
    oBillSwap, oLeaseStatus, oLeaseHandover, oStackWithdraw, oAttest, oDebugUnlock, oJournalRead, oJournalFree, oForward]

def stackOps : List Nat :=
  [oStart, oStop, oSetRef, oCellBypass, oContactor, oCellImagePush, oLeaseStatus, oLeaseHandover, oStackWithdraw, oForward]

/-- Opcodes racked in stack role: marked L there. -/
def rackedOps : List Nat := [oStart, oStop, oSetRef, oCellBypass, oContactor, oCellImagePush, oBillSwap, oLeaseHandover]

/-! ## A mailbox's command: mailbox k = master × 8 + number -/

def opOf (s : State) (k : Nat) : Nat := s.fget MBX_HDR0_OPCODE k
def lenOf (s : State) (k : Nat) : Nat := s.fget MBX_HDR0_LENGTH k
def seqOf (s : State) (k : Nat) : Nat := s.fget MBX_HDR1_SEQ k
def retOf (s : State) (k : Nat) : MbxRet := smGet {} s.mbx.ret k
/-- The first `n` bytes of a mailbox's payload from offset `o`. -/
def mbxBytes (s : State) (k o n : Nat) : List Nat := (List.range n).map (fun i => mbxByte s k (o + i))

/-- The point numbers that a point command names, at most 511. -/
def cmdPoints (s : State) (k : Nat) : List Nat :=
  let op := opOf s k
  if op == oPointRead then (List.range (min 255 (mbxNum s k 0 2))).map (fun i => mbxNum s k (4 + 4 * i) 4)
  else if op == oPointWrite then (List.range (min 340 (mbxNum s k 0 2))).map (fun i => mbxNum s k (4 + 12 * i) 4)
  else if op == oSetRef then (List.range (min 511 (mbxNum s k 4 2))).map (fun i => mbxNum s k (8 + 8 * i) 4)
  else []

/-- A cell-owned point in stack role. -/
def cellOwned (s : State) (p : Nat) : Bool := isStack s && decide (p / 1024 < 192)
def isRacked (s : State) (p : Nat) : Bool :=
  isStack s && !cellOwned s p && (match slotOf s p with | some k => dRack (slotEnt s k) | none => false)

/-- The command needs the lease (Table 3.16, R88, R320). -/
def needsLease (s : State) (k : Nat) : Bool :=
  let op := opOf s k
  let m := k / 8
  if isStack s then
    rackedOps.contains op || (op == oPointWrite && (cmdPoints s k).any (fun p => cellOwned s p || isRacked s p))
  else
    4 ≤ m && ([oImageWrite, oPointWrite, oBillLoad, oBillSwap].contains op
      || (devState s == ST_BYPASSED && (op == oImageConfirm || op == oReset))) && !inNetboot s

/-- The bytes of a point's record in the window. -/
def pointAddr (s : State) (p : Nat) : Nat := winAddr (if isStack s then p else p % 1024) 0

/-- Where the bytes of a record that CAP_READ reads stand, one address per region (R75). -/
def capRegions (s : State) (k : Nat) : List Nat :=
  let rid := mbxNum s k 0 4
  let rid := if rid % 2 ^ 24 == 0 then lastClosed s else rid
  match findRec s rid with
  | some r =>
    let off := mbxNum s k 4 4
    let n := min 4096 (mbxNum s k 8 4)
    if recBytes r.chans.length (recLenL r) < off + n then [0x02000000]
    else ((recPlaces r off n).map (fun a => a / 4096 * 4096)).eraseDups
  | none => [0x02000000]

/-- The accesses whose rights a command needs: address, right (0 R, 1 W, 2 C); the governing region first. -/
def cmdAccess (s : State) (k : Nat) : List (Nat × Nat) :=
  let op := opOf s k
  if op == oGetInfo || op == oGetStatus then [(0, 0)]
  else if op == oReset then [(0, 1)]
  else if op == oImageLoad then if inNetboot s then [] else [(0x60000, 1)]
  else if op == oImageWrite then [(0x60000, 1)]
  else if op == oImageConfirm then [(0x60000, 2)]
  else if [oStart, oStop, oContactor, oStackWithdraw].contains op then [(0x151000, 1)]
  else if op == oCellBypass then [(0x150000, 1)]
  else if op == oCellImagePush then [(0x60000, 1), (0x150000, 1)]
  else if op == oPointRead then (cmdPoints s k).map (fun p => (pointAddr s p, 0))
  else if op == oPointWrite || op == oSetRef then (cmdPoints s k).map (fun p => (pointAddr s p, 1))
  else if op == oCapArm || op == oCapDisarm then [(0x161000, 1)]
  else if op == oCapStatus then [(0x161000, 0)]
  else if op == oCapRead then (capRegions s k).map (fun a => (a, 0))
  else if op == oTraceStart then [(0x171000, 1)]
  else if op == oTraceRead then
    let c := mbxByte s k 0 % 32
    let i := mbxNum s k 4 4 % 8192
    let old := s.fget MASH_TRSTAT_OLDEST c
    let read := (List.range (min 1024 (8192 - i))).filter (fun j => decide (i + j < s.fget MASH_TRCFG1_LEN c))
    let places := read.map (fun j => 0x03000000 + c * 32768 + 4 * ((old + i + j) % 8192))
    let regions := (places.map (fun a => a / 4096 * 4096)).eraseDups
    (if regions.isEmpty then [0x03000000 + c * 32768] else regions).map (fun a => (a, 0))
  else if op == oBillLoad then [(0x172000 + mbxByte s k 0 % 2 * 4096, 1)]
  else if op == oBillSwap then [(0x171000, 2)]
  else if op == oLeaseStatus then [(0x151000, 0)]
  else if op == oLeaseHandover then [(0x151000, 2)]
  else if op == oAttest then [(0x60000, 0)]
  else if op == oJournalRead || op == oJournalFree then [(0x20000, 0)]
  else if op == oForward then [(0x10000, 1)]
  else []

/-- Rights of the requesting master; a locked M3 may only ask for GET_INFO and DEBUG_UNLOCK (R75, R89). -/
def cmdDenied (s : State) (k : Nat) : Bool :=
  let m := k / 8
  let op := opOf s k
  if op == oDebugUnlock then m != 1 && m != 3
  else if m == 3 && !s.flag SEC_STAT_UNLOCKED then op != oGetInfo
  else (cmdAccess s k).any (fun e => !hasRight s m e.1 e.2)

/-- LENGTH against the request format: exact, a span, or a count with a head and items. -/
def cmdBadLength (s : State) (k : Nat) : Bool :=
  let op := opOf s k
  let l := lenOf s k
  let eq (n : Nat) : Bool := l != n
  let span (lo hi : Nat) : Bool := l < lo || hi < l
  let cnt (at_ head item top : Nat) : Bool :=
    let n := mbxNum s k at_ 2
    l < head || (if n ≤ top then l != head + item * n else l < head || (l - head) % item != 0)
  if 4096 < l then true
  else if op == oReset || op == oStop || op == oCellBypass || op == oContactor || op == oCellImagePush
    || op == oTraceStart || op == oBillSwap || op == oLeaseHandover || op == oJournalRead || op == oJournalFree then eq 4
  else if op == oImageLoad || op == oBillLoad then span 9 4096
  else if op == oImageWrite then span 13 4096
  else if op == oSetRef then cnt 4 8 8 511
  else if op == oPointRead then cnt 0 4 4 255
  else if op == oPointWrite then cnt 0 4 12 340
  else if op == oCapArm then eq 24
  else if op == oCapDisarm || op == oTraceRead then eq 8
  else if op == oCapRead then eq 12
  else if op == oAttest then eq 32
  else if op == oDebugUnlock then span 1 4096
  else if op == oForward then span 12 4096
  else eq 0

/-! ## The checks of each opcode beyond role, rights, lease and length -/

/-- Units that are absent, retired or off (R96). -/
def cmdUnit (s : State) (k : Nat) : List Status :=
  let op := opOf s k
  if op == oPointRead || op == oPointWrite || op == oSetRef then [domStatus s 2]
  else if op == oCapArm || op == oCapDisarm then
    domStatus s 3 :: (bitList 64 (mbxNum s k 0 8)).map (instStatus s .cap)
  else if op == oCapRead then if isStack s && mbxByte s k 3 != 0xff then [] else [domStatus s 3]
  else if op == oTraceStart || op == oTraceRead then [domStatus s 1, domStatus s 4]
  else if op == oBillLoad || op == oBillSwap then [domStatus s 1]
  else []

def configured (s : State) (c : Nat) : Bool := (cfgCells s).contains c

/-- The slot's OFFSET in use, as it stands or by default (R438). -/
def slotDefault (i : Nat) : Nat := [0x00100000, 0x00300000, 0x00500000, 0x00580000].getD i 0

/-- The directory with the slot's OFFSET in use: its own, or the default; none when neither is valid. -/
def dirWithSlot (s : State) (i : Nat) : Option DirCopy :=
  let (_, d) := dirNow s.flash
  if offsetOk s.flash d i then some d
  else
    let d' := { d with slots := d.slots.set i { slotOfDir d i with offset := slotDefault i } }
    if offsetOk s.flash d' i then some d' else none

/-- The chunk of IMAGE_WRITE (R78, R390). -/
def imageWriteChecks (s : State) (k : Nat) : List Status :=
  let slot := mbxByte s k 0
  let total := mbxNum s k 4 4
  let off := mbxNum s k 8 4
  let n := lenOf s k - 12
  let cfg := decide (2 ≤ slot)
  let running := if cfg then s.fget SYS_BOOT_CFGSLOT == slot - 2 else s.fget SYS_BOOT_FWSLOT == slot
  let later : List Status := match s.sys.write with
    | some a => [chk (a.m != k / 8 || a.n != k % 8 || a.slot != slot || a.total != total) .conflict]
    | none =>
      let room := match dirWithSlot s slot with | some d => slotExtent s.flash d slot | none => 2 ^ 28
      [chk (s.flash.present && min (imageMax cfg) room < total) .badLength,
        chk (s.flash.present && (dirWithSlot s slot).isNone) .range]
  later ++ [chk (total == 0) .zeroNotAllowed, chk (3 < slot || total < off + n) .range,
    chk (running || !s.flash.present || (cfg && !s.sec.otp.enrLock && k / 8 != 1)) .conflict,
    chk (s.mbx.otpWait.isSome) .busy]

/-- The chunk of IMAGE_LOAD (R60, R61, R78, R79). -/
def imageLoadChecks (s : State) (k : Nat) : List Status :=
  let total := mbxNum s k 0 4
  let off := mbxNum s k 4 4
  let n := lenOf s k - 8
  let later : List Status := match s.sys.load with
    | some a => [chk (a.total != total && !a.complete) .conflict, chk a.complete .busy]
    | none => []
  let port := match s.sys.netPort with | some p => p != (retOf s k).lane | none => false
  later ++ [chk (total == 0) .zeroNotAllowed, chk (total < off + n) .range,
    chk (s.sys.phase != .recovery && s.sys.phase != .netboot) .conflict, chk (inNetboot s && port) .conflict]

/-- Points of a point command (R78, R99, R100, R102). -/
def pointChecks (s : State) (k : Nat) : List Status :=
  let op := opOf s k
  let ps := cmdPoints s k
  let n := if op == oSetRef then mbxNum s k 4 2 else mbxNum s k 0 2
  let top := if op == oSetRef then 511 else if op == oPointWrite then 340 else 255
  let ent (p : Nat) : Nat := match slotOf s p with | some i => slotEnt s i | none => 0
  let local_ (p : Nat) : Bool := !cellOwned s p
  let own : List Status :=
    if op == oSetRef then
      [chk (ps.any (fun p => cellOwned s p || !ptValid s p || dSrc (ent p) != SRC_REF || dType (ent p) != 4)) .range]
    else if op == oPointWrite then
      [chk (ps.any (fun p => local_ p && ptValid s p && dSrc (ent p) != SRC_REF)) .conflict]
    else []
  own ++ [chk (n == 0) .zeroNotAllowed, chk (top < n || ps.any (fun p => 2 ^ 18 ≤ p || (portsFixedOr s && !ptValid s p))) .range,
    chk (!isStack s && !portsFixed s) .conflict]
where
  /-- A cell names its own points once its index is fixed. -/
  portsFixedOr (s : State) : Bool := isStack s || portsFixed s

/-- The largest response of an inner command (R78). -/
def innerMax (s : State) (k : Nat) : Nat :=
  let op := mbxNum s k 4 2
  let at_ (o n : Nat) : Nat := mbxNum s k (12 + o) n
  if op == oCapRead then at_ 8 4
  else if op == oTraceRead then 4 * min 1024 (8192 - min 8192 (at_ 4 4))
  else if op == oJournalRead then 32 * at_ 2 2
  else if op == oPointRead then 16 * at_ 0 2
  else if op == oAttest then 3952
  else 32

/-- A debug token (R393, R394): LENGTH field, signatures by the rules of R388, and the body's fields. The two verdicts of
the signature schemes over the token's bytes, under the vendor keys of the ROM or those of the block of the configuration in
force, are one operand of the command (assumption 6). -/
def tokenChecks (s : State) (k : Nat) (sigOk : Bool) : List Status :=
  let b := 256
  let chal := (List.range 8).foldl (fun w i => w + s.fget SEC_DBGCHAL_CHAL i * 2 ^ (32 * i)) 0
  let head := mbxNum s k 0 4 == 0x7a192001 && mbxNum s k 4 2 == 1 && mbxByte s k 6 == 4 && !bit (mbxByte s k 7) 2
    && mbxNum s k 20 4 == 0x6a1a0192
  let sel := mbxByte s k 10
  let keyOk := ((sel == 0x10 || sel == 0x11) && !bit s.sec.otp.vrev (sel % 2))
    || (decide (sel < 4) && (match s.sys.cfg with | some i => i.keySel == sel | none => false))
  let dur := mbxNum s k (b + 72) 4
  [chk (mbxNum s k 12 4 != lenOf s k || lenOf s k != 3728 || mbxNum s k 16 4 != 96 || mbxByte s k 7 % 2 == 0) .badLength, chk (dur == 0) .zeroNotAllowed,
    chk (86400 < dur) .range, chk (!head || !keyOk || !sigOk) .sigFail,
    chk (mbxNum s k b 32 != chal) .stale, chk (mbxNum s k (b + 32) 32 != identityFpr s.sec.otp) .conflict]

/-- The checks of an opcode from ZERO_NOT_ALLOWED on. -/
def cmdValues (s : State) (k : Nat) : List Status :=
  let op := opOf s k
  let b (i : Nat) : Nat := mbxByte s k i
  let n (o w : Nat) : Nat := mbxNum s k o w
  let cyc (c lead : Nat) : Status := (applyCycle s c lead).1
  let lead := if (livePeers s).isEmpty then 1 else 3
  if op == oReset then [chk (1 < n 0 4) .range, chk s.sys.resetPend.isSome .busy]
  else if op == oImageLoad then imageLoadChecks s k
  else if op == oImageWrite then imageWriteChecks s k
  else if op == oImageConfirm then [chk (!s.flag SYS_BOOT_TRIAL) .conflict, chk (!s.sec.otpQ.isEmpty || s.sys.write.isSome) .busy]
  else if op == oStart then [chk (devState s != ST_ENUMERATE && devState s != ST_TIME_LOCK) .conflict]
  else if op == oStop then
    [chk (1 < n 0 4) .range, chk (n 0 4 == 0 && !inService s) .conflict, chk (devState s == ST_BOOT) .conflict]
  else if op == oSetRef then cyc (n 0 4) lead :: pointChecks s k
  else if op == oCellBypass then [chk (!configured s (n 0 2) || 1 < b 2) .range]
  else if op == oContactor then [chk (1000 < n 2 2) .range]
  else if op == oCellImagePush then
    [chk (!configured s (n 0 2) || 1 < b 2) .range, chk (cellState s (n 0 2) != ST_BYPASSED) .conflict,
      chk (s.flash.images.getD (b 2) none).isNone .conflict, chk (s.mbx.remote.any (fun r => r.op == oCellImagePush)) .busy]
  else if op == oPointRead || op == oPointWrite then pointChecks s k
  else if op == oCapArm then [armCheck s (n 0 8) (n 8 4) (n 12 4) (n 16 4) (n 20 4)]
  else if op == oCapDisarm then [chk (n 0 8 == 0) .zeroNotAllowed, (capDisarm s (n 0 8)).1]
  else if op == oCapRead then
    let far := isStack s && b 3 != 0xff
    [chk (n 8 4 == 0) .zeroNotAllowed, chk (4096 < n 8 4) .range] ++
      (if far then [chk (!configured s (b 3)) .range,
        chk (s.mbx.remote.any (fun r => r.op == oCapRead && r.cell == b 3)) .busy] else [chk (b 3 != 0xff) .range, (capRead s (n 0 4) (n 4 4) (n 8 4)).1])
  else if op == oTraceStart then
    [chk (n 0 4 == 0) .zeroNotAllowed, chk ((bitList 32 (n 0 4)).any (fun c => s.fget MASH_TRSTAT_STATE c != 1)) .conflict]
  else if op == oTraceRead then
    [chk (31 < b 0 || 8191 < n 4 4) .range, chk (s.fget MASH_TRSTAT_STATE (b 0) != 3) .conflict]
  else if op == oBillLoad then
    [chk ((lenOf s k - 8) % 4 != 0 || n 4 4 % 4 != 0) .badLength, chk (1 < b 0 || 0x69000 < n 4 4 + (lenOf s k - 8)) .range,
      chk (bankBusy s (b 0)) .conflict]
  else if op == oBillSwap then
    let st := firstStatus [cyc (n 0 4) (if isStack s then 2 else 1), chk (swapBusy s) .conflict]
    if st == .ok then [] else [(bankCheck s (1 - actBank s)).1, st]
  else if op == oLeaseHandover then
    [chk (2 < b 0) .range, chk (b 0 == ownSid s || !(livePeers s).contains (b 0)) .conflict,
      chk (s.mbx.handWait.isSome || s.vote.handTo.isSome) .busy]
  else if op == oStackWithdraw then [chk (!withdrawOk s) .conflict]
  else if op == oAttest then [chk (!s.flag SEC_STAT_KEYRDY) .busy]
  else if op == oDebugUnlock then [chk (s.sec.lockout.any (fun a => decide (s.clk < a + secT))) .busy]
  else if op == oJournalRead then [chk (n 2 2 == 0) .zeroNotAllowed, chk (4095 < n 0 2 || 128 < n 2 2) .range]
  else if op == oJournalFree then [chk (n 0 2 == 0) .zeroNotAllowed, chk (4096 < n 0 2 || jnlUnread s < n 0 2) .range]
  else if op == oForward then
    [chk (n 6 2 != lenOf s k - 12 || 4088 < innerMax s k) .badLength, chk (2 < b 0 || 7 < b 1) .range,
      chk (n 4 2 == oForward || b 0 == ownSid s) .conflict, chk (!(livePeers s).contains (b 0)) .busy]
  else []

/-- The command is journaled (R93, R95). -/
def cmdJournaled (s : State) (k : Nat) : Bool :=
  let op := opOf s k
  op != oJournalRead && op != oJournalFree && (cmdAccess s k).any (fun e => journaled s e.1)
def cmdRegion (s : State) (k : Nat) : Nat := ((cmdAccess s k).map Prod.fst).headD 0 / 4096 * 4096

/-- The ROM serves the mailboxes (R79). -/
def romServes (s : State) : Bool := [Phase.romSelect, .romIdle, .recovery, .netboot].contains s.sys.phase

/-- The status of a command: every check, in the order of R12. -/
def cmdStatus (s : State) (k : Nat) : Status :=
  let op := opOf s k
  let m := k / 8
  let rom := romServes s
  let safe := !isStack s && decide (4 ≤ m) && (devState s == ST_CSAFE || devState s == ST_BYPASSED) && !rom
  let reads := [oGetInfo, oGetStatus, oPointRead, oCapStatus, oCapRead, oTraceRead, oJournalRead, oAttest]
  let update := devState s == ST_BYPASSED && [oImageWrite, oImageConfirm, oReset].contains op
  let lease := if isStack s then !holds s else !(retOf s k).lease
  let jnl := cmdJournaled s k && jnlFull s
  if rom && ! [oGetInfo, oReset, oImageLoad].contains op then .conflict
  else if !opcodes.contains op then
    firstStatus [chk (m == 3 && !s.flag SEC_STAT_UNLOCKED) .denied, chk (4096 < lenOf s k) .badLength, .range]
  else firstStatus ([
    chk (stackOps.contains op && !isStack s) .notInRole,
    chk (cmdDenied s k) .denied,
    chk (needsLease s k && lease) .leaseRequired,
    chk (cmdBadLength s k) .badLength,
    chk (safe && !reads.contains op && !update) .conflict,
    chk jnl .busy] ++ cmdUnit s k ++ cmdValues s k)

/-! ## Responses -/

/-- The KIND 2 journal entry of a command (R93, R94): a command that was accepted has its room; else a full journal that
stops leaves a record in ACC_ERR instead. -/
def cmdJournal (s : State) (k : Nat) (st : Status) : State :=
  let held := s.mbx.jnlHeld.contains k
  let s := { s with mbx.jnlHeld := s.mbx.jnlHeld.filter (· != k) }
  if !cmdJournaled s k then s
  else if !held && jnlFull s then accErr s (k / 8) (cmdRegion s k) .busy
  else jnlAdd s (k / 8) 2 st.code (cmdRegion s k) (seqOf s k * 65536 + opOf s k)
    (if lenOf s k == 0 then 0 else mbxNum s k 0 (min 4 (lenOf s k)))

/-- A response datagram, in fragments of the MTU (R84, R86). -/
def sendDatagram (s : State) (n : Nat) (r : MbxRet) (op seq status : Nat) (bytes : List Nat) : State :=
  let all := [n, 1, 0, 0] ++ leBytes 2 op ++ leBytes 2 bytes.length ++ leBytes 2 seq ++ leBytes 2 status ++ bytes
  let cap := ((cfgOf s).mtu - 20) / 8 * 8
  let first : EthOut := .response r.lane r.addr r.port 0 (all.take (cap - 8))
  let rest := (fragsOf cap (all.drop (cap - 8))).filter (fun e => !e.2.1.isEmpty)
  { s with ethOut := s.ethOut ++ (first :: rest.map (fun e => .response r.lane r.addr r.port (cap + e.1) e.2.1)) }

/-- The memory words of `n` bytes of a mailbox's payload from offset `o`. -/
def mbxWords (k o n : Nat) : List Nat := (List.range ((n + 31) / 32)).map (fun i => mbxEcc (k * 4096 + o) + i)

/-- The header of an RRA response on a lane. -/
def rspHdr (s : State) (l : Nat) : Hdr :=
  if isStack s then { downHdr s 0 0 7 12 with chain := 0 } else upHdr s l 7 12

/-- The response is placed, and the mailbox enters DONE (R72): M2 and M4 to M6 have theirs sent. -/
def cmdAnswer (s : State) (k : Nat) (st : Status) (bytes : List Nat) : State :=
  let m := k / 8
  let n := k % 8
  let op := opOf s k
  let s := cmdJournal s k st
  let keep := m == 2 && !needsLease s k
  let s := if keep then
      { s with mbx.last := smInsert n ⟨op, seqOf s k, st.code, bytes⟩ (smErase s.mbx.last n) }
    else s
  let s := if op == oDebugUnlock then newChallenge s else s
  let r := retOf s k
  let words := mbxWords k 0 bytes.length
  match eccSupReset s words with
  | some x => x
  | none =>
  let s := (eccSupPut s words (fun s => mbxPut s k 0 bytes)).fsets [(MBX_HDR0_OPCODE, k, 0x8000 + op % 0x8000), (MBX_HDR0_LENGTH, k, bytes.length),
    (MBX_HDR1_STATUS, k, st.code), (MBX_STAT_STATE, k, 3), (MBX_IRQ_DONE, m, putBit (s.fget MBX_IRQ_DONE m) n true)]
  if m == 2 then if !holds s then s else sendDatagram s n r (0x8000 + op % 0x8000) (seqOf s k) st.code bytes
  else if 4 ≤ m then rraMailbox s r.lane (rspHdr s r.lane) 10 n (0x8000 + op % 0x8000) (seqOf s k) st.code bytes
  else s

/-- Who serves this mailbox now: the running firmware, or the ROM for M1 and in netboot for IMAGE_LOAD of M4 to M6. -/
def servedNow (s : State) (k : Nat) : Bool :=
  let m := k / 8
  if s.sys.phase == .firmware then !s.sys.halted
  else romServes s && (m == 1 || (inNetboot s && decide (4 ≤ m) && opOf s k == oImageLoad))

/-- The lease check of a command that a cell takes from M4 to M6 (R76, R330): a higher epoch is adopted. -/
def leaseTaken (s : State) (k : Nat) : Bool × State :=
  if !isStack s && needsLease s k then leaseOk s (retOf s k).lane (retOf s k).epoch else (true, s)

/-- MBX_TAKE (R73, R74, R76): the oldest command that is served is taken: answered at once when a check fails, else RUNNING. -/
def execMbxTake (t : Time) (s : State) : Outcome State Fault Refusal :=
  let s := s.at t
  .next (match s.mbx.queue.find? (servedNow s) with
  | none => s
  | some k =>
    let s := { s with mbx.queue := s.mbx.queue.filter (· != k) }
    let (ok, s') := leaseTaken s k
    let lease (s : State) : State :=
      { s with mbx.ret := smInsert k { retOf s k with lease := ok } (smErase s.mbx.ret k) }.fset MBX_STAT_STATE k 2
    let st := cmdStatus (lease s) k
    if st == .ok then lease s' else cmdAnswer (lease s) k st [])

/-- A mailbox whose command has begun and waits for something else. -/
def waits (s : State) (k : Nat) : Bool :=
  s.mbx.remote.any (fun r => r.key == k) || s.mbx.racks.any (fun r => r.key == some k) || s.mbx.otpWait == some k
    || s.mbx.handWait == some k || (match s.mash.chk with | some r => r.mbx == some k | none => false)
    || (match s.sys.load with | some a => a.complete && a.m * 8 + a.n == k | none => false)

/-- A journaled command that was accepted and now waits keeps the room of its journal entry (R94). -/
def jnlHold (s : State) (k : Nat) : State :=
  if waits s k && cmdJournaled s k then { s with mbx.jnlHeld := k :: s.mbx.jnlHeld.filter (· != k) } else s

/-- A running command of one opcode is carried out: its checks are made again, and what fails is answered. -/
def serve (s : State) (k op : Nat) (act : State → State) : State :=
  if s.fget MBX_STAT_STATE k != 2 || opOf s k != op || !servedNow s k || waits s k then s
  else
    let st := cmdStatus s k
    if st == .ok then act s else cmdAnswer s k st []

end Sys2Proof.Machine
end

