-- ==== Sys2Proof/Machine/MailboxOps.lean ====
section
/-! DEFINITION. The mailbox commands that one device carries out by itself (R58, R60, R61, R74, R78, R94, R95, R152, R154,
R339, R350, R362, R366, R368, R389, R392 to R394). -/

namespace Sys2Proof.Machine

open Host

def mbxNo (m : Master) (n : Fin 8) : Nat := m.val * 8 + n.val

/-- A command that acts at once and is answered OK with bytes. -/
def serveNow (t : Time) (m : Master) (n : Fin 8) (op : Nat) (act : State → Nat → List Nat × State) (s : State) :
    Outcome State Fault Refusal :=
  .next (serve (s.at t) (mbxNo m n) op (fun s =>
    let (b, s) := act s (mbxNo m n)
    cmdAnswer s (mbxNo m n) .ok b))

/-! ## Identity and status -/

/-- A network time as 12 bytes (R272). -/
def timeBytes (t : Nat) : List Nat :=
  leBytes 4 (nsOf t) ++ leBytes 4 (secOf t) ++ leBytes 4 (fracOf t * 65536 + secOf t / 2 ^ 32 % 65536)

/-- GET_INFO's payload. -/
def infoBytes (s : State) : List Nat :=
  let w (a : Nat) : List Nat := leBytes 4 (peekWord s 0 a)
  w 0x0 ++ leBytes 4 (match s.sys.fw with | some i => i.version | none => 0)
    ++ [s.sec.otp.fwSvn % 256, s.sec.otp.cfgSvn % 256, peekWord s 0 0x4 % 256, 0]
    ++ w 0x20 ++ w 0x24 ++ w 0x18 ++ w 0x8 ++ w 0x30010

/-- The known holder as a byte: 0xFF none. -/
def holderByte (s : State) : Nat :=
  let h := if isStack s then viewHolder s else s.cell.holder
  if h == 3 then 0xff else h

/-- GET_STATUS's payload. -/
def statusBytes (s : State) : List Nat :=
  leBytes 4 (cycleNow s) ++ [holderByte s, 0, 0, 0] ++ leBytes 4 (knownEpoch s) ++ timeBytes (netTime s)

/-- GET_INFO (R78). -/
def execGetInfo (t : Time) (m : Master) (n : Fin 8) (s : State) : Outcome State Fault Refusal :=
  serveNow t m n oGetInfo (fun s _ => (infoBytes s, s)) s
/-- GET_STATUS (R78). -/
def execGetStatus (t : Time) (m : Master) (n : Fin 8) (s : State) : Outcome State Fault Refusal :=
  serveNow t m n oGetStatus (fun s _ => (statusBytes s, s)) s
/-- RESET (R78): the reset follows 1 ms after the response. -/
def execReset (t : Time) (m : Master) (n : Fin 8) (s : State) : Outcome State Fault Refusal :=
  serveNow t m n oReset (fun s k => ([], { s with sys.resetPend := some (mbxNum s k 0 4 == 1), sys.resetAt := s.clk + msT })) s

/-! ## Images -/

/-- How far bytes from `p` on are received without a gap. -/
def coverTo (got : List (Nat × Nat)) : Nat → Nat → Nat
  | 0, p => p
  | f + 1, p =>
    let q := got.foldl (fun q e => if e.1 ≤ p then max q (e.1 + e.2) else q) p
    if q == p then p else coverTo got f q
/-- Every byte from 0 to n − 1 has been received. -/
def covered (got : List (Nat × Nat)) (n : Nat) : Bool := n ≤ coverTo got (got.length + 1) 0

/-- A chunk joins what has arrived. -/
def addChunk (s : State) (k slot total off n : Nat) (a : Option Assembly) : Assembly :=
  match a with
  | some a => { a with m := k / 8, n := k % 8, got := (off, n) :: a.got, last := s.clk }
  | none => { slot, m := k / 8, n := k % 8, total, got := [(off, n)], first := s.clk, last := s.clk }

/-- IMAGE_LOAD (R60, R61): `img` is what the bytes spell when this chunk completes the image (assumption 6). -/
def execImageLoad (t : Time) (m : Master) (n : Fin 8) (img : Option Image) (s : State) : Outcome State Fault Refusal :=
  let k := mbxNo m n
  .next (serve (s.at t) k oImageLoad (fun s =>
    let a := addChunk s k 2 (mbxNum s k 0 4) (mbxNum s k 4 4) (lenOf s k - 8) s.sys.load
    let port := if inNetboot s then some (retOf s k).lane else none
    let full := covered a.got a.total
    let a := if full then { a with complete := true, img } else a
    let s := { s with sys := { s.sys with load := some a, netPort := port } }
    if full then jnlHold s k else cmdAnswer s k .ok []))

/-- IMAGE_LOAD_VERIFY_DONE (R60, R61): the image starts, or is discarded. -/
def execImageLoadVerifyDone (t : Time) (s : State) : Outcome State Fault Refusal :=
  let s := s.at t
  .next (match s.sys.load with
  | none => s
  | some a =>
    if !a.complete || !romServes s then s
    else
      let k := a.m * 8 + a.n
      let st := match a.img with | some i => verify s false i a.total (2 ^ 28) | none => .sigFail
      match st, a.img with
      | .ok, some i => startFirmware (cmdAnswer s k .ok []) 2 (if inNetboot s then 1 else 2) false i
      | _, _ => cmdAnswer ({ s with sys := { s.sys with load := none, netPort := none } }.fset SYS_BOOT_STATUS 0 st.code) k st [])

/-- One slot of a directory copy changed. -/
def setSlot (d : DirCopy) (i : Nat) (x : SlotDir) : DirCopy := { d with slots := d.slots.set i x }

/-- The first chunk of IMAGE_WRITE empties the slot (R78). -/
def slotEmpty (s : State) (slot : Nat) : State :=
  let off := match dirWithSlot s slot with | some d => (slotOfDir d slot).offset | none => slotDefault slot
  let s := dirRewrite s (fun d => setSlot d slot { slotOfDir d slot with length := 0, offset := off })
  { s with flash.images := s.flash.images.set slot none }

/-- A verified image is committed to the directory (R78). -/
def slotCommit (s : State) (slot total : Nat) : State :=
  dirRewrite s (fun d =>
    let top := (d.slots.map SlotDir.seq).foldl max 0
    setSlot d slot { slotOfDir d slot with length := total, trial := decide (slot < 2), seq := top + 1 })

/-- IMAGE_WRITE (R56, R78, R438): `img` is what the bytes spell when this chunk completes the image (assumption 6). -/
def execImageWrite (t : Time) (m : Master) (n : Fin 8) (img : Option Image) (s : State) : Outcome State Fault Refusal :=
  let k := mbxNo m n
  .next (serve (s.at t) k oImageWrite (fun s =>
    let slot := mbxByte s k 0
    let s := if s.sys.write.isNone then slotEmpty s slot else s
    let a := addChunk s k slot (mbxNum s k 4 4) (mbxNum s k 8 4) (lenOf s k - 12) s.sys.write
    if !covered a.got a.total then cmdAnswer { s with sys.write := some a } k .ok []
    else
      let s := { s with sys.write := none, flash.images := s.flash.images.set slot img }
      let room := slotExtent s.flash (dirNow s.flash).2 slot
      let st := match img with | some i => verify s (decide (2 ≤ slot)) i a.total room | none => .sigFail
      cmdAnswer (if st == .ok then slotCommit s slot a.total else s) k st []))

/-- IMAGE_WRITE_ABANDON (R78): no chunk for 2 s. -/
def execImageWriteAbandon (t : Time) (s : State) : Outcome State Fault Refusal :=
  let s := s.at t
  .next (match s.sys.write with
  | some a => if a.last + 2 * secT ≤ s.clk then { s with sys.write := none } else s
  | none => s)

/-- IMAGE_CONFIRM's payload. -/
def confirmBytes (s : State) : List Nat := [s.sec.otp.fwSvn % 256, s.sec.otp.cfgSvn % 256, 0, 0]

/-- The last part of IMAGE_CONFIRM, once the OTP holds the image's version: TRIAL is cleared and the command answered
(R58). -/
def confirmDone (s : State) (k : Nat) : State :=
  let slot := s.fget SYS_BOOT_FWSLOT
  let s := dirRewrite s (fun d => setSlot d slot { slotOfDir d slot with trial := false })
  let s := s.fset SYS_BOOT_TRIAL 0 0
  cmdAnswer s k .ok (confirmBytes s)

/-- IMAGE_CONFIRM (R58, R389): the OTP steps come first and the image stays a trial image until they are done, so that
after a power failure the next confirmation completes the raise. -/
def execImageConfirm (t : Time) (m : Master) (n : Fin 8) (s : State) : Outcome State Fault Refusal :=
  let k := mbxNo m n
  .next (serve (s.at t) k oImageConfirm (fun s =>
    let steps := match s.sys.fw with
      | some i => raiseSteps s.sec.otpQ .fwSvn s.sec.otp.fwSvn i.svn
          ++ (if imgRevokeV0 i && i.keySel == 0x11 && !bit s.sec.otp.vrev 0 then [.vrev 1] else [])
      | none => []
    let s := otpPush s steps
    if s.sec.otpQ.isEmpty then confirmDone s k else jnlHold { s with mbx.otpWait := some k } k))

/-- OTP_STEP_DONE (R58, R385, R389, R390). -/
def execOtpStepDone (t : Time) (s : State) : Outcome State Fault Refusal :=
  let s := s.at t
  .next (match s.sec.otpQ with
  | [] => s
  | x :: l =>
    let s := otpLock { s with sec := { s.sec with otp := otpDo s.sec.otp x, otpQ := l } }
    match s.sec.otpQ, s.mbx.otpWait with
    | [], some k => confirmDone { s with mbx.otpWait := none } k
    | _, _ => s)

/-! ## Points -/

/-- A point command's write of one stack-local point, or of one of a cell's own (R101, R116): a racked point is written by
the holder as by its source, and in the other stacks at the apply cycle. -/
def pointCmd (s : State) (p v : Nat) : State :=
  match slotOf s p with
  | none => s
  | some i =>
    let e := slotEnt s i
    let v := if ty64 (dType e) then v else v % 2 ^ 32 + extendPt (dType e) (v % 2 ^ 32) * 2 ^ 32
    if !slotValid s i || dSrc e != SRC_REF || !domOn s 2 then s
    else if isStack s && dRack e && !holds s then ptStore s i v (tagOf (netTime s)) false false false W_CMD
    else ptWrite s i v false W_CMD

/-- The record of a point as POINT_READ returns it. -/
def pointBytes (s : State) (p : Nat) : List Nat × State :=
  match slotOf s p with
  | none => ([], s)
  | some i =>
    let s := eccRead (eccRead s 6 (i / 64)) 5 (i / 2)
    (leBytes 8 (slotValue s i) ++ leBytes 4 (slotTag s i) ++ leBytes 4 (slotMeta s i), s)

/-- POINT_READ (R78). -/
def execPointRead (t : Time) (m : Master) (n : Fin 8) (s : State) : Outcome State Fault Refusal :=
  serveNow t m n oPointRead (fun s k => (cmdPoints s k).foldl (fun (b, s) p =>
    let (x, s) := pointBytes s p
    (b ++ x, s)) ([], s)) s

/-! ## Capture -/

/-- CAP_ARM (R350). -/
def execCapArm (t : Time) (m : Master) (n : Fin 8) (s : State) : Outcome State Fault Refusal :=
  serveNow t m n oCapArm (fun s k =>
    let w (o : Nat) : Nat := mbxNum s k o 4
    let (_, rid, s) := capArm s (mbxNum s k 0 8) (w 8) (w 12) (w 16) (w 20)
    (leBytes 4 rid, s)) s
/-- CAP_DISARM (R362). -/
def execCapDisarm (t : Time) (m : Master) (n : Fin 8) (s : State) : Outcome State Fault Refusal :=
  serveNow t m n oCapDisarm (fun s k => ([], (capDisarm s (mbxNum s k 0 8)).2)) s

/-- Channels of RUNNING records. -/
def runningMask (s : State) : Nat :=
  ((s.cap.recs.filter (fun r => r.st == .running)).flatMap (fun r => r.chans)).foldl (fun w c => putBit w c true) 0

/-- CAP_STATUS (R368): the read clears the master's flags. -/
def execCapStatus (t : Time) (m : Master) (n : Fin 8) (s : State) : Outcome State Fault Refusal :=
  serveNow t m n oCapStatus (fun s k =>
    let s := capSettle s
    let b := leBytes 4 (s.fget CAP_ARMED_MASK 0) ++ leBytes 4 (s.fget CAP_ARMED_MASK 1) ++ leBytes 8 (runningMask s)
      ++ leBytes 4 (s.fget CAP_LAST_RID) ++ leBytes 4 (s.fget CAP_DEAD_NS) ++ leBytes 4 (smGet 0 s.cap.flags (k / 8))
      ++ [0, 0, 0, 0]
    (b, { s with cap.flags := smSet 0 s.cap.flags (k / 8) 0 })) s

/-! ## Traces and bills -/

/-- TRACE_START (R152). -/
def execTraceStart (t : Time) (m : Master) (n : Fin 8) (s : State) : Outcome State Fault Refusal :=
  serveNow t m n oTraceStart (fun s k => ([], (trstartEff (mbxNum s k 0 4) s).2)) s

/-- TRACE_READ (R152): chronological indices, 0.0 from LEN on. -/
def execTraceRead (t : Time) (m : Master) (n : Fin 8) (s : State) : Outcome State Fault Refusal :=
  serveNow t m n oTraceRead (fun s k =>
    let c := mbxByte s k 0
    let i := mbxNum s k 4 4
    let word (s : State) (j : Nat) : Nat × State :=
      if s.fget MASH_TRCFG1_LEN c ≤ j then (0, s)
      else
        let off := 0x8000 * c + 4 * ((s.fget MASH_TRSTAT_OLDEST c + j) % 8192)
        let s := eccRead s 8 (off / 32)
        (s.mread (0x03000000 + off) 4, s)
    (List.range (min 1024 (8192 - i))).foldl (fun (b, s) j =>
      let (w, s) := word s (i + j)
      (b ++ leBytes 4 w, s)) ([], s)) s

/-- BILL_LOAD (R154). -/
def execBillLoad (t : Time) (m : Master) (n : Fin 8) (s : State) : Outcome State Fault Refusal :=
  serveNow t m n oBillLoad (fun s k =>
    let b := mbxByte s k 0
    let off := mbxNum s k 4 4
    ([], (List.range ((lenOf s k - 8) / 4)).foldl (fun s j => bankPut s b (off + 4 * j) (mbxNum s k (8 + 4 * j) 4)) s)) s

/-! ## Lease and journal -/

/-- LEASE_STATUS (R78). -/
def execLeaseStatus (t : Time) (m : Master) (n : Fin 8) (s : State) : Outcome State Fault Refusal :=
  serveNow t m n oLeaseStatus (fun s _ =>
    ([holderByte s, ownSid s, 0, 0] ++ leBytes 4 (knownEpoch s) ++ leBytes 4 (leaseRem s), s)) s

/-- STACK_WITHDRAW (R339). -/
def execStackWithdraw (t : Time) (m : Master) (n : Fin 8) (s : State) : Outcome State Fault Refusal :=
  serveNow t m n oStackWithdraw (fun s _ => ([], stackSafe s CA_COMMAND)) s

/-- JOURNAL_READ (R94). -/
def execJournalRead (t : Time) (m : Master) (n : Fin 8) (s : State) : Outcome State Fault Refusal :=
  serveNow t m n oJournalRead (fun s k =>
    (List.range (mbxNum s k 2 2)).foldl (fun (b, s) j =>
      let i := (mbxNum s k 0 2 + j) % 4096
      let s := eccRead s 1 i
      let e := smGet [] s.mbx.jnl i
      (b ++ (List.range 8).flatMap (fun w => leBytes 4 (e.getD w 0)), s)) ([], s)) s

/-- JOURNAL_FREE (R95). -/
def execJournalFree (t : Time) (m : Master) (n : Fin 8) (s : State) : Outcome State Fault Refusal :=
  serveNow t m n oJournalFree (fun s k =>
    let s := (jnlFree s (mbxNum s k 0 2)).2
    (leBytes 2 (jnlUnread s) ++ leBytes 2 (s.fget ACC_JNLCNT_LOST), s)) s

/-! ## Attestation and debug unlock -/

/-- The body of the attestation report (Table 16.7). -/
def reportBody (s : State) (nonce : List Nat) : List Nat :=
  let w (a : Nat) : List Nat := leBytes 4 (peekWord s 0 a)
  let o := s.sec.otp
  let d (i : Option Image) : List Nat := leBytes 64 (match i with | some i => imgDigest i | none => 0)
  nonce ++ w 0x0 ++ w 0x4 ++ w 0x18 ++ w 0x8 ++ d s.sys.fw ++ d s.sys.cfg
    ++ [o.fwSvn % 256, o.cfgSvn % 256, (o.slotValid % 16) + 16 * (o.slotRev % 16), b2n (s.flag SEC_STAT_UNLOCKED)]
    ++ w 0x20 ++ w 0x24 ++ timeBytes (netTime s) ++ leBytes 4 (cycleNow s)
    ++ leBytes 2 (s.mbx.jnlNum + 65535) ++ leBytes 2 (s.fget ACC_JNLCNT_LOST)
    ++ leBytes 4 (s.fget SEC_ECC_CORR) ++ leBytes 4 (s.fget SEC_ECC_UNCORR) ++ leBytes 32 (identityFpr o) ++ List.replicate 72 0

/-- The attestation report (R386, R387, R392): KIND 3, KEYSEL 0x20, a short block, signed by the device's identity. VERSION is
the firmware version as GET_INFO reports it; ROLES, SVN and ENTRY, whose meanings Table 16.4 gives for images alone, are the
words `f` (assumption 6). -/
def report (s : State) (nonce f : List Nat) : Image :=
  let i : Image := {
    kind := 3, flags := 1, roles := f.getD 0 0 % 4, svn := f.getD 1 0 % 64, entry := f.getD 2 0 % 2 ^ 32, keySel := 0x20
    length := 3952, bodyLen := 320, version := match s.sys.fw with | some i => i.version | none => 0
    body := reportBody s nonce }
  let msg := signedMsg (headerBytes i ++ bodyBytes i)
  { i with edSig := Config.edSign (s.sec.otp.idSeed.getD 0 0) msg, mlSig := Config.mlSign (s.sec.otp.idSeed.getD 1 0) msg }

/-- ATTEST (R392): the report's bytes. -/
def execAttest (t : Time) (m : Master) (n : Fin 8) (s : State) : Outcome State Fault Refusal :=
  serveNow t m n oAttest (fun s k =>
    let (a, s) := drawFree s
    let (b, s) := drawFree s
    let (c, s) := drawFree s
    (objectBytes (report s (mbxBytes s k 0 32) [a, b, c]), s)) s

/-- M3's rights under a token end (R89, R394). -/
def debugLock (s : State) : State :=
  { s with mbx := { s.mbx with m3 := 0, m3jtag := 0, m3w := [] }, sec := { s.sec with unlockEnd := none } }.fset SEC_STAT_UNLOCKED 0 0

/-- DEBUG_UNLOCK (R89, R393, R394): `sigOk` is the verdict of both signatures over the token (assumption 6). -/
def execDebugUnlock (t : Time) (m : Master) (n : Fin 8) (sigOk : Bool) (s : State) : Outcome State Fault Refusal :=
  let k := mbxNo m n
  .next (serve (s.at t) k oDebugUnlock (fun s =>
    let st := firstStatus (tokenChecks s k sigOk)
    if st == .ok then
      let s := { s with
        mbx := { s.mbx with m3 := mbxNum s k 320 4 % 16, m3jtag := mbxNum s k 324 4, m3w := [] }
        sec := { s.sec with unlockEnd := some (s.clk + mbxNum s k 328 4 * secT), refused := 0 } }
      cmdAnswer (s.fset SEC_STAT_UNLOCKED 0 1) k .ok []
    else
      let full := 3 ≤ s.sec.refused + 1
      let s := { s with sec := { s.sec with
        refused := if full then 0 else s.sec.refused + 1
        lockout := if full then some s.clk else none } }
      cmdAnswer s k st []))

/-- DEBUG_UNLOCK_EXPIRY (R89, R394). -/
def execDebugUnlockExpiry (t : Time) (s : State) : Outcome State Fault Refusal :=
  let s := s.at t
  .next (match s.sec.unlockEnd with | some e => if e ≤ s.clk then debugLock s else s | none => s)

/-- DEBUG_LOCKOUT_END (R394): 1 s. -/
def execDebugLockoutEnd (t : Time) (s : State) : Outcome State Fault Refusal :=
  let s := s.at t
  .next (match s.sec.lockout with
  | some a => if a + secT ≤ s.clk then { s with sec.lockout := none } else s
  | none => s)

end Sys2Proof.Machine
end

