-- ==== Sys2Proof/Machine/Rack.lean ====
section
/-! DEFINITION. Racked commands, and commands that wait for another device (R26, R31, R76, R87, R111, R144, R146, R181,
R329, R342 to R344, R366). -/

namespace Sys2Proof.Machine

open Host

/-! ## Commands carried out on another device -/

def statusOf (n : Nat) : Status :=
  ([Status.ok, .busy, .denied, .badLength, .zeroNotAllowed, .absentUnit, .stale, .sigFail, .conflict, .range, .notInRole,
    .leaseRequired].find? (fun x => x.code == n)).getD .conflict

/-- A mailbox command to a cell's firmware. -/
def toCell (s : State) (c mbx op seq : Nat) (bytes : List Nat) : State :=
  rraMailbox s (c / 8) (downHdr s (c / 8) (c % 8) 7 12) 2 mbx op seq 0 bytes

/-- A mailbox's command waits for answers. -/
def remoteAdd (s : State) (r : Remote) : State := { s with mbx.remote := s.mbx.remote ++ [r] }
def remoteDrop (s : State) (k : Nat) : State := { s with mbx.remote := s.mbx.remote.filter (fun r => r.key != k) }
def remotePut (s : State) (r : Remote) : State :=
  { s with mbx.remote := s.mbx.remote.map (fun x => if x.key == r.key then r else x) }

/-- The key of a command that this stack carries out for another stack's mailbox: it answers no mailbox here. -/
def farKey (src mbx : Nat) : Nat := 128 + src * 8 + mbx

/-- A racked command of this stack is answered: where it failed, every live peer hears of it by an ACK record with the
status, so that it takes effect in none and their records show it (R76, R87; assumption 35). The record of the last
lease-only command of a mailbox of M2 takes the status too. -/
def dupAnswer (s : State) (k : Nat) (st : Status) : State :=
  let s := if isStack s && needsLease s k && st != .ok then rackPeers s (.ack (k / 8) (k % 8) (seqOf s k) st.code) else s
  if k / 8 == 2 && needsLease s k then
    { s with mbx.dup := smInsert (k % 8) (opOf s k, seqOf s k, st.code) (smErase s.mbx.dup (k % 8)) }
  else s

/-- A waiting command is answered. -/
def remoteAnswer (s : State) (r : Remote) (st : Status) (bytes : List Nat) : State :=
  let s := remoteDrop s r.key
  let s := if r.op == oCellImagePush && st == .busy then { s with sys.push := smErase s.sys.push r.cell } else s
  if 128 ≤ r.key then s
  else
    cmdAnswer (dupAnswer s r.key st) r.key st bytes

/-- REMOTE_REPLY_TIMEOUT (R78, R111, R366): no answer within the bound. -/
def execRemoteReplyTimeout (t : Time) (s : State) : Outcome State Fault Refusal :=
  let s := s.at t
  .next ((s.mbx.remote.filter (fun r => decide (r.deadline ≤ s.clk))).foldl (fun s r =>
    remoteAnswer s r (firstStatus [statusOf r.worst, .busy]) []) s)

/-- The next IMAGE_WRITE chunk of a pushed image (R344): to the cell's slot that is not running (cell point 7). -/
def pushChunk (s : State) (r : Remote) : State :=
  match s.flash.images.getD r.slot none with
  | none => s
  | some i =>
    let s := eccSlots s [r.cell * 1024 + 7]
    let boot := ptWord s (r.cell * 1024 + 7)
    let run := bits boot SYS_BOOT_FWSLOT.lo SYS_BOOT_FWSLOT.width
    let n := min 4084 (i.length - r.off)
    toCell s r.cell 3 oImageWrite (r.off / 4084 % 65536)
      ([if run == 0 then 1 else 0, 0, 0, 0] ++ leBytes 4 i.length ++ leBytes 4 r.off ++ imageBytes i r.off n)

/-- The answer to a chunk of a pushed image (R344). A stack that has lost the lease writes nothing more into the cell (R322,
R325), and its push is answered as one that the cell has not completed. -/
def pushAnswer (s : State) (r : Remote) (st : Nat) : State :=
  let len := match s.flash.images.getD r.slot none with | some i => i.length | none => 0
  let off := r.off + 4084
  if !holds s then remoteAnswer s r .busy []
  else if st == 0 && off < len then
    let r := { r with off, left := [(r.cell, 3, off / 4084 % 65536)] }
    pushChunk (remotePut s r) r
  else
    let flashless := st == Status.conflict.code && r.off == 0
    let s := if st == 0 || flashless then toCell s r.cell 3 oReset 0xffff [0, 0, 0, 0] else s
    let s := if st == 0 then { s with mbx.confirm := r.cell :: s.mbx.confirm.filter (· != r.cell) } else s
    let s := if flashless then s else { s with sys.push := smErase s.sys.push r.cell }
    remoteAnswer s r (statusOf st) []

/-! ## The effect of a racked command -/

def rNum (r : RackCmd) (o w : Nat) : Nat := leNat ((List.range w).map (fun j => smGet 0 r.bytes (o + j)))

/-- Points of SET_REF and POINT_WRITE with their values. -/
def rPoints (r : RackCmd) : List (Nat × Nat) :=
  if r.op == oSetRef then (List.range (min 511 (rNum r 4 2))).map (fun i => (rNum r (8 + 8 * i) 4, rNum r (12 + 8 * i) 4))
  else (List.range (min 340 (rNum r 0 2))).map (fun i => (rNum r (4 + 12 * i) 4, rNum r (8 + 12 * i) 8))

/-- The cell-owned points of a POINT_WRITE go to the cells that own them (R111). An owner that is not configured has no
path and gives no answer. -/
def cellWrites (s : State) (r : RackCmd) (far : List (Nat × Nat)) : State :=
  let cells := (far.map (fun e => e.1 / 1024)).eraseDups
  let s := if !holds s then s else (cells.filter (cfgCells s).contains).foldl (fun s c =>
    let es := far.filter (fun e => e.1 / 1024 == c)
    toCell s c 1 oPointWrite r.seq (leBytes 2 es.length ++ [0, 0] ++ es.flatMap (fun e => leBytes 4 e.1 ++ leBytes 8 e.2))) s
  match r.key with
  | some k => remoteAdd s { key := k, op := oPointWrite, deadline := s.clk + 2 * cycT s, left := cells.map (fun c => (c, 1, r.seq)) }
  | none => s

/-- CONTACTOR (R26): levels held, or pulses that end at the level held before. -/
def contactorSet (s : State) (mask levels pulse : Nat) : State :=
  (bitList 8 mask).foldl (fun s i =>
    if pulse == 0 then plantLevel s i (bit levels i)
    else poSet { s with ctl.pulse := smSet 0 s.ctl.pulse i (s.clk + pulse * msT) } i (bit levels i)) s

/-- START, STOP, SET_REF, POINT_WRITE, CELL_BYPASS, CONTACTOR, CELL_IMAGE_PUSH and LEASE_HANDOVER take effect in this
stack. A BILL_SWAP takes effect by the swap that is pending. The points of a POINT_WRITE that are no cell's are written in
every stack at the apply cycle (R76, R116), whatever the cells answer for the others (assumption 35). -/
def rackEffect (s : State) (r : RackCmd) : State :=
  let n (o w : Nat) : Nat := rNum r o w
  if r.op == oStart then
    let s := { s with vote.given := [0, 1, 2].foldl (fun w p => if peerCand s p then putBit w p true else w) s.vote.given }
    if devState s == ST_ENUMERATE || devState s == ST_TIME_LOCK then { s with ctl.startHeld := true } else s
  else if r.op == oStop then
    let s := { s with vote := { s.vote with given := 0, runs := 0 } }
    if n 0 4 == 1 then stackSafe s CA_COMMAND else if inService s then stopBegin s CA_COMMAND else s
  else if r.op == oSetRef then (rPoints r).foldl (fun s e => pointCmd s e.1 e.2) s
  else if r.op == oPointWrite then
    let (far, near) := (rPoints r).partition (fun e => cellOwned s e.1)
    let s := near.foldl (fun s e => pointCmd s e.1 e.2) s
    if far.isEmpty then s else cellWrites s r far
  else if r.op == oCellBypass then
    let c := n 0 2
    let back := n 2 1 == 1
    let s := if holds s then { s with ctl.sent := s.ctl.sent ++ [(c, back, knownEpoch s)] } else s
    if back then
      { s with ctl := { s.ctl with rejoin := c :: s.ctl.rejoin.filter (· != c), cfgSent := s.ctl.cfgSent.filter (· != c) } }
    else s
  else if r.op == oContactor then contactorSet s (n 0 1) (n 1 1) (n 2 2)
  else if r.op == oCellImagePush then
    let c := n 0 2
    let s := { s with sys.push := smSet 0 s.sys.push c (n 2 1 + 1) }
    let acts := holds s
    let x : Remote := { key := r.key.getD (farKey r.src r.mbx), op := oCellImagePush, deadline := s.clk + 10 * secT, left := if acts then [(c, 3, 0)] else [], cell := c, slot := n 2 1 }
    if acts then pushChunk (remoteAdd s x) x else if r.key.isSome then remoteAdd s x else s
  else if r.op == oLeaseHandover then
    let s := if holds s then { s with vote.handTo := some (n 0 1) } else s
    if r.key.isSome then { s with mbx.handWait := r.key } else s
  else s

/-- Commands answered before their effect: once every live peer has acknowledged them. -/
def answersEarly (r : RackCmd) : Bool := ! [oPointWrite, oCellImagePush, oLeaseHandover].contains r.op

/-- The record of the last racked command of a mailbox of M2 (R87). -/
def dupPut (s : State) (r : RackCmd) (st : Status) : State :=
  if r.src == 2 then { s with mbx.dup := smInsert r.mbx (r.op, r.seq, st.code) (smErase s.mbx.dup r.mbx) } else s

/-- A mailbox is answered with a status. -/
def answerKey (s : State) (key : Option Nat) (st : Status) : State :=
  match key with | some k => cmdAnswer (dupAnswer s k st) k st [] | none => s

/-! ## Racking and acknowledging (R76) -/

/-- The COMMAND records of a command, in fragments that fit one RACK payload. -/
def rackSend (s : State) (r : RackCmd) : State :=
  let bytes := (List.range r.len).map (fun o => smGet 0 r.bytes o)
  (fragsOf 2028 bytes).foldl (fun s e => rackPeers s (.command r.src r.mbx r.seq r.op r.len r.apply e.2.2 e.1 e.2.1)) s

/-- The same command. -/
def RackCmd.same (r : RackCmd) (sid src mbx seq : Nat) : Bool := r.sid == sid && r.src == src && r.mbx == mbx && r.seq == seq

/-- The peer has acknowledged the command with OK. -/
def ackedBy (s : State) (r : RackCmd) (p : Nat) : Bool :=
  p == r.sid || s.mbx.acks.any (fun a => a.sid == p && a.src == r.src && a.mbx == r.mbx && a.seq == r.seq && a.status == 0)
/-- Every live peer has acknowledged the command, no later than 2 stack cycles after it was racked (R76). -/
def ackedAll (s : State) (r : RackCmd) : Bool :=
  r.acked || ((livePeers s).all (ackedBy s r) && (r.sid == ownSid s || r.okd)
    && decide (0 ≤ cycDiff (cycleNow s) r.at_) && decide (cycDiff (cycleNow s) r.at_ ≤ 2))

/-- Commands that every live peer has acknowledged are marked; own ones are answered, where their effect gives no answer of
its own. -/
def rackAnswer (s : State) : State :=
  (s.mbx.racks.filter (fun r => !r.acked && ackedAll s r)).foldl
    (fun s r =>
      let early := r.sid == ownSid s && answersEarly r
      let r' := { r with acked := true, key := if early then none else r.key }
      let s := { s with mbx.racks := s.mbx.racks.map (fun x => if x == r then r' else x) }
      if early then answerKey s r.key .ok else s) s

/-- A lease-only command of this stack is racked at the next boundary; `cyc` is the apply cycle that it asks for. -/
def rackCommand (s : State) (k cyc : Nat) : State :=
  let alone := (livePeers s).isEmpty
  let lead := if !alone then 3 else if opOf s k == oBillSwap then 2 else 1
  let len := lenOf s k
  let bytes : SMap Nat := (List.range len).map (fun o => (o, mbxByte s k o))
  let c := (applyCycle s cyc lead).2
  let r : RackCmd := { sid := ownSid s, src := k / 8, mbx := k % 8, seq := seqOf s k, op := opOf s k, len := len, apply := c, at_ := cycleNow s }
  let r := { r with bytes, got := [(0, len)], at_ := (cycleNow s + 1) % 2 ^ 32, key := some k }
  let old (a : RackAck) : Bool := a.src == r.src && a.mbx == r.mbx && a.seq == r.seq
  let acks := s.mbx.acks.filter (fun a => !old a)
  let s := { s with mbx := { s.mbx with racks := s.mbx.racks ++ [r], acks, handAt := s.clk } }
  if alone && answersEarly r then
    let r' := { r with acked := true, key := none }
    answerKey { s with mbx.racks := s.mbx.racks.map (fun x => if x == r then r' else x) } (some k) .ok
  else s

/-- A fragment of a peer's COMMAND, and its acknowledgement once it is whole: a BILL_SWAP's only after its check (R146). -/
def commandRx (s : State) (p src mbx seq op len apply : Nat) (last : Bool) (off : Nat) (bytes : List Nat) : State :=
  if viewHolder s != p || s.mbx.racks.any (fun r => r.same p src mbx seq && r.okd) then s
  else
    let r := (s.mbx.racks.find? (fun r => r.same p src mbx seq && r.op == op && r.len == len)).getD
      { sid := p, src, mbx, seq, op, len, apply, at_ := cycleNow s }
    let m := bytes.zipIdx.foldl (fun m (e : Nat × Nat) => smInsert (off + e.2) e.1 (smErase m (off + e.2))) r.bytes
    let r := { r with bytes := m, got := (off, bytes.length) :: r.got }
    let rest := s.mbx.racks.filter (fun x => !x.same p src mbx seq)
    if !last || !covered r.got len then { s with mbx.racks := rest ++ [r] }
    else if op == oBillSwap then
      let s := { s with mbx.racks := rest ++ [r] }
      if domOn s 1 then (swapRequest s { cyc := apply, rack := some (src, mbx, seq) }).2 else s
    else rackAnswer (rackPeers (dupPut { s with mbx.racks := rest ++ [{ r with okd := true }] } r .ok) (.ack src mbx seq 0))

/-- A racked command leaves the list. -/
def rackDrop (s : State) (r : RackCmd) : State :=
  let gone (a : RackAck) : Bool := a.src == r.src && a.mbx == r.mbx && a.seq == r.seq
  { s with mbx := { s.mbx with racks := s.mbx.racks.filter (· != r), acks := s.mbx.acks.filter (fun a => !gone a) } }

/-- A command that has not been acknowledged takes no effect: a swap that waits for it is given up. -/
def rackVoid (s : State) (r : RackCmd) : State :=
  let s := rackDrop s r
  let s := if r.sid != ownSid s && r.okd then dupPut s r .busy else s
  let s := if r.op == oBillSwap && (r.okd || r.sid == ownSid s) then { s with mash.pend := none }.fset MASH_STAT_PEND 0 0 else s
  answerKey s r.key .busy

/-- The stack that racked a command says that it has failed: the command takes no effect here either, and the record of its
mailbox takes the status (R76, R87). -/
def rackFailed (s : State) (p src mbx seq status : Nat) : State :=
  let s := (s.mbx.racks.filter (fun r => r.same p src mbx seq)).foldl rackVoid s
  match smGet (0, 0, 0) s.mbx.dup mbx with
  | (op, n, _) =>
    if src == 2 && n == seq && op != 0 then
      { s with mbx.dup := smInsert mbx (op, n, status) (smErase s.mbx.dup mbx) }
    else s

/-- An ACK record from peer p: of a command of its own only a failure is told so. -/
def ackRx (s : State) (p src mbx seq status : Nat) : State :=
  let old (a : RackAck) : Bool := a.sid == p && a.src == src && a.mbx == mbx && a.seq == seq
  let s := { s with mbx.acks := s.mbx.acks.filter (fun a => !old a) ++ [⟨p, src, mbx, seq, status⟩] }
  rackAnswer (if status != 0 && viewHolder s == p then rackFailed s p src mbx seq status else s)

/-- RACKED_COMMAND_APPLY (R76): at the boundary of the apply cycle. -/
def rackApply (s : State) : State :=
  let s := rackAnswer s
  let due := s.mbx.racks.filter (fun r => decide (0 ≤ cycDiff (cycleNow s) r.apply))
  due.foldl (fun s r => if ackedAll s r then rackEffect (rackDrop s r) r else rackVoid s r) s

/-- Commands of this stack whose racking falls on this boundary are sent. -/
def rackSendDue (s : State) : State :=
  (s.mbx.racks.filter (fun r => r.sid == ownSid s && r.at_ == cycleNow s)).foldl rackSend s

/-- LEASE_RACK_TIMEOUT (R76): not acknowledged within 2 stack cycles; the stack that racked it answers BUSY, and no stack
keeps it. -/
def execLeaseRackTimeout (t : Time) (s : State) : Outcome State Fault Refusal :=
  let s := s.at t
  .next ((s.mbx.racks.filter (fun r => !ackedAll s r
    && decide (2 ≤ cycDiff (cycleNow s) r.at_))).foldl rackVoid s)

/-- BANK_CHECK_COMPLETE (R142, R144, R146). -/
def execBankCheckComplete (t : Time) (s : State) : Outcome State Fault Refusal :=
  let s := s.at t
  .next (match s.mash.chk with
  | none => s
  | some r =>
    if !domOn s 1 then s
    else
      let (st, s) := swapChecked s r
      match r.mbx, r.rack with
      | some k, _ =>
        if st == .ok && isStack s then
          let lead := if (livePeers s).isEmpty then 2 else 3
          rackCommand { s with mash.pend := some (applyCycle s r.cyc lead).2 } k r.cyc
        else cmdAnswer s k st []
      | none, some (src, mbx, seq) =>
        if st == .ok then
          let ok (x : RackCmd) : RackCmd := if x.src == src && x.mbx == mbx && x.seq == seq && x.op == oBillSwap
            then { x with okd := true } else x
          let s := { s with mash.pend := some r.cyc, mbx.racks := s.mbx.racks.map ok }
          let s := match s.mbx.racks.find? (fun x => x.src == src && x.mbx == mbx && x.seq == seq && x.okd) with
            | some x => dupPut s x .ok
            | none => s
          rackAnswer (rackPeers s (.ack src mbx seq 0))
        else s
      | none, none => s)

/-- HANDOVER_TIMEOUT (R329): 2 ms. -/
def execHandoverTimeout (t : Time) (s : State) : Outcome State Fault Refusal :=
  let s := s.at t
  .next (match s.mbx.handWait with
  | some k => if s.mbx.handAt + 2 * msT ≤ s.clk then answerKey { s with mbx.handWait := none } (some k) .ok else s
  | none => s)

/-- LEASE_HANDOVER is answered once the target's claim is seen (R329). -/
def handSeen (s : State) : State :=
  match s.mbx.handWait with
  | some k => if viewHolder s == mbxByte s k 0 then answerKey { s with mbx.handWait := none } (some k) .ok else s
  | none => s

/-! ## The lease-only commands -/

/-- A lease-only command without an apply cycle of its own is racked. -/
def rackNow (t : Time) (m : Master) (n : Fin 8) (op : Nat) (s : State) : Outcome State Fault Refusal :=
  let k := mbxNo m n
  .next (serve (s.at t) k op (fun s => jnlHold (rackCommand s k 0) k))

/-- START (R31, R76). -/
def execStart (t : Time) (m : Master) (n : Fin 8) (s : State) : Outcome State Fault Refusal := rackNow t m n oStart s
/-- STOP (R32, R76, R181). -/
def execStop (t : Time) (m : Master) (n : Fin 8) (s : State) : Outcome State Fault Refusal := rackNow t m n oStop s
/-- CELL_BYPASS (R76, R342, R343). -/
def execCellBypass (t : Time) (m : Master) (n : Fin 8) (s : State) : Outcome State Fault Refusal :=
  rackNow t m n oCellBypass s
/-- CONTACTOR (R26, R76). -/
def execContactor (t : Time) (m : Master) (n : Fin 8) (s : State) : Outcome State Fault Refusal := rackNow t m n oContactor s
/-- CELL_IMAGE_PUSH (R76, R344). -/
def execCellImagePush (t : Time) (m : Master) (n : Fin 8) (s : State) : Outcome State Fault Refusal :=
  rackNow t m n oCellImagePush s
/-- LEASE_HANDOVER (R76, R329). -/
def execLeaseHandover (t : Time) (m : Master) (n : Fin 8) (s : State) : Outcome State Fault Refusal :=
  rackNow t m n oLeaseHandover s

/-- SET_REF (R76, R78). -/
def execSetRef (t : Time) (m : Master) (n : Fin 8) (s : State) : Outcome State Fault Refusal :=
  let k := mbxNo m n
  .next (serve (s.at t) k oSetRef (fun s => jnlHold (rackCommand s k (mbxNum s k 0 4)) k))

/-- POINT_WRITE (R76, R78, R111): racked for racked and cell-owned points of a stack, else at once. -/
def execPointWrite (t : Time) (m : Master) (n : Fin 8) (s : State) : Outcome State Fault Refusal :=
  let k := mbxNo m n
  .next (serve (s.at t) k oPointWrite (fun s =>
    if isStack s && needsLease s k then jnlHold (rackCommand s k 0) k
    else
      let l := (List.range (min 340 (mbxNum s k 0 2))).map (fun i => (mbxNum s k (4 + 12 * i) 4, mbxNum s k (8 + 12 * i) 8))
      cmdAnswer (l.foldl (fun s e => pointCmd s e.1 e.2) s) k .ok []))

/-- BILL_SWAP (R144, R146): the check of the shadow bank begins. -/
def execBillSwap (t : Time) (m : Master) (n : Fin 8) (s : State) : Outcome State Fault Refusal :=
  let k := mbxNo m n
  .next (serve (s.at t) k oBillSwap (fun s =>
    jnlHold (swapRequest s { cyc := mbxNum s k 0 4, master := k / 8, mbx := some k }).2 k))

/-- CAP_READ (R366): a record of a cell is read through RRA. -/
def execCapRead (t : Time) (m : Master) (n : Fin 8) (s : State) : Outcome State Fault Refusal :=
  let k := mbxNo m n
  .next (serve (s.at t) k oCapRead (fun s =>
    let rid := mbxNum s k 0 4
    let c := rid / 2 ^ 24
    if isStack s && c != 0xff then
      let s := toCell s c 2 oCapRead (seqOf s k)
        (leBytes 4 (rid % 2 ^ 24 + 0xff * 2 ^ 24) ++ mbxBytes s k 4 8)
      jnlHold (remoteAdd s { key := k, op := oCapRead, deadline := s.clk + msT, left := [(c, 2, seqOf s k)], cell := c }) k
    else
      let (_, b, s) := capRead s rid (mbxNum s k 4 4) (mbxNum s k 8 4)
      cmdAnswer s k .ok b))

/-- FORWARD (R78): the inner command goes to the peer's mailbox. -/
def execForward (t : Time) (m : Master) (n : Fin 8) (s : State) : Outcome State Fault Refusal :=
  let k := mbxNo m n
  .next (serve (s.at t) k oForward (fun s =>
    let p := mbxByte s k 0
    let mbx := mbxByte s k 1
    let seq := mbxNum s k 8 2
    match peerLane s p with
    | none => cmdAnswer s k .busy []
    | some l =>
      let s := rraMailbox s l (rspHdr s l) 2 mbx (mbxNum s k 4 2) seq 0 (mbxBytes s k 12 (lenOf s k - 12))
      jnlHold (remoteAdd s { key := k, op := oForward, deadline := s.clk + 10 * msT, left := [(256 + p, mbx, seq)] }) k))

/-! ## Answers from another device -/

/-- A fragment of a MAILBOX_RSP from device d (a cell, or 256 + SID). -/
def remoteRx (s : State) (d mbx opcode seq status len off : Nat) (last : Bool) (bytes : List Nat) : State :=
  match s.mbx.remote.find? (fun r => r.left.contains (d, mbx, seq)) with
  | none => s
  | some r =>
    let out := bytes.zipIdx.foldl (fun x (e : Nat × Nat) => smInsert (off + e.2) e.1 (smErase x (off + e.2))) r.out
    let r := { r with out, got := (off, bytes.length) :: r.got }
    let len := if status == 0 then len else 0
    if !last || !covered r.got len then remotePut s r
    else
      let bytes := (List.range len).map (fun o => smGet 0 r.out o)
      if r.op == oCellImagePush then pushAnswer s { r with out := [], got := [] } status
      else if r.op == oForward then
        remoteAnswer s r .ok (leBytes 2 (0x8000 + opcode % 0x8000) ++ leBytes 2 len ++ leBytes 2 seq ++ leBytes 2 status ++ bytes)
      else if r.op == oCapRead then remoteAnswer s r (statusOf status) bytes
      else
        let worst := (firstStatus [statusOf r.worst, statusOf status]).code
        let left := r.left.filter (fun e => e.1 != d)
        let r := { r with worst, left, out := [], got := [] }
        if left.isEmpty then remoteAnswer s r (statusOf worst) [] else remotePut s r

end Sys2Proof.Machine
end

