-- ==== Sys2Proof/Machine/Rra.lean ====
section
/-! DEFINITION. RACK frames (R274, R324 to R333), RRA frames (R61, R62, R88, R276, R320, R330), the lease holder's cell
configuration (R33, R59, R343, R437), and the bill check of a rejoining stack (R340). -/

namespace Sys2Proof.Machine

open Host

/-! ## RACK frames -/

/-- One record from peer p on lane l, sent for cycle `cyc`. -/
def rackRec (s : State) (l p cyc : Nat) : RackRec → State
  | .points us => syncRacked (pointsRx s p cyc us)
  | .lease h claim hand tgt epoch tag => syncCand (handSeen (leaseRx s p h claim hand tgt epoch tag))
  | .command src mbx seq op len apply last off bytes => commandRx s p src mbx seq op len apply last off bytes
  | .ack src mbx seq status => ackRx s p src mbx seq status
  | .unknown _ _ => s.satAdd LNK_CNT3_DISCARD l
  | .overrun => s.satAdd LNK_CNT3_DISCARD l

/-- Records up to one that runs past LEN. -/
def rackRecs (s : State) (l p cyc : Nat) : List RackRec → State
  | [] => s
  | r :: rs => let s := rackRec s l p cyc r; if r == .overrun then s else rackRecs s l p cyc rs

/-- RACK_FRAME (R274). -/
def execRackFrame (t : Time) (l : Lane) (fr : Frame) (s : State) : Outcome State Fault Refusal :=
  let (ok, s) := rxCheck (s.at t) l fr
  .next (match fr.body with
  | .rack recs => if ok then rackRecs s l (farSid s l) fr.hdr.cycle recs else s
  | _ => s)

/-- One RRA request of the bill read to the holder (R340). -/
def billSend (s : State) (op a : Nat) (data : List Nat) : State :=
  match peerLane s (viewHolder s) with
  | some l => sendOn s l 5 ⟨{ rspHdr s l with len := 12 + data.length }, .rra op 0 false 1 0 a 0 data⟩
  | none => s

/-- A rejoining stack reads the header of the holder's active bank through RRA before its first CMD frame (R340): MASH_STAT
shows the bank, whose address register is set to the CRC, word 7 of the header, and whose data register is read. It begins at a
boundary, and anew at each one until the check is done (DESIGN CHOICE, assumption 17). -/
def billAsk (s : State) : State :=
  if !s.vote.rejoin || s.vote.billSeen || s.vote.billCrc.isSome || (peerLane s (viewHolder s)).isNone then s
  else billSend { s with vote.billStep := 1 } 0 0x170000 []

/-- An answer to the bill read; one with another status ends the attempt. -/
def billAnswer (s : State) (p op status a : Nat) (data : List Nat) : State :=
  let w := leNat (data.take 4)
  let go (s : State) (n : Nat) : State := { s with vote.billStep := n }
  if p != viewHolder s || s.vote.billStep == 0 then s
  else if status != 0 then go s 0
  else if s.vote.billStep == 1 && op == 8 && a == 0x170000 then
    billSend (go s 2) 1 (if bit w 31 then 0x173000 else 0x172000) (leBytes 4 28)
  else if s.vote.billStep == 2 && op == 9 && (a == 0x172000 || a == 0x173000) then billSend (go s 3) 0 (a + 4) []
  else if s.vote.billStep == 3 && op == 8 && (a == 0x172004 || a == 0x173004) then { go s 0 with vote.billCrc := some w }
  else s

/-- REJOIN_BILL_CHECK (R340): the CRC that the bill read has brought is compared with this stack's own. -/
def execRejoinBillCheck (t : Time) (crc : Word) (s : State) : Outcome State Fault Refusal :=
  let s := s.at t
  .next (if !isStack s || !s.vote.rejoin || s.vote.billSeen || s.vote.billCrc != some crc.toNat then s
  else
    let bad := crc.toNat != bankW s (actBank s) 7
    let s := { s with vote := { s.vote with billSeen := true, billBad := bad } }
    if bad then voteErr s 15 .conflict else s)

/-! ## The lease holder's cell configuration -/

/-- Its checks: those of a configuration image's content in cell role (R59). -/
def cellCfgStatus (s : State) (b : CfgBody) : Status := cellBodyStatus s b

/-- The holder's configuration in a cell: accepted in JOINED, and while a rejoin waits for it. -/
def cellCfgTake (s : State) (l epoch : Nat) (b : CfgBody) : Status × State :=
  let (ok, s') := leaseOk s l epoch
  let due := devState s == ST_JOINED
    || (s.cell.rejoin && [ST_READY, ST_CSAFE, ST_BYPASSED].contains (devState s))
  let st := firstStatus [chk (!ok) .leaseRequired, chk (!due) .conflict, cellCfgStatus s b]
  if st != .ok then (st, s)
  else
    let i : Image := s'.sys.cfg.getD { kind := 2 }
    let tab := b.rights.foldl (fun m e => smInsert e.1 (e.2 / 8 * 8 + 7) (smErase m e.1)) ([] : SMap Nat)
    let s := { s' with sys.cfg := some { i with cfg := b } }.fset SYS_BOOT_CFGSLOT 0 2
    let s := if b.rights.isEmpty then s else { s with mbx := { s.mbx with accTab := tab, accImg := true, m3w := [] } }
    let s := (readyDomains s).foldl cfgDomain s
    let ls := ((b.laneTab.map LaneTab.ents).getD []).map LaneEnt.lane
    let s := ls.foldl laneSettings s
    (.ok, cfgAccepted (retrainPorts s ls))

/-- The holder sends a cell its configuration: the entries of R437, each as a WRITE of PT_DIRIDX to PT_DIRCTL. An entry for
which the configuration gives no SRC is sent with SYS (DESIGN CHOICE, assumption 50). -/
def cellCfgSend (s : State) (c : Nat) : State :=
  let es := (s.grist.dir.filter (fun e => e.1 / 64 == c && 2 ≤ e.1 % 64))
  es.foldl (fun s e =>
    let src := (((cfgOf s).cellSrc.find? (fun x => x.1 == e.1)).map Prod.snd).getD SRC_SYS
    let w := e.2 - dSrc e.2 * 2 ^ 52 - b2n (dRack e.2) * 2 ^ 63 + src % 16 * 2 ^ 52
    let data := leBytes 4 (e.1 % 64) ++ leBytes 4 w ++ leBytes 4 (w / 2 ^ 32) ++ leBytes 4 2
    sendOn s (c / 8) 5 ⟨downHdr s (c / 8) (c % 8) 7 28, .rra 1 0 false 4 0 0x180000 0 data⟩) s

/-! ## RRA requests (R276) -/

/-- The master of Table 3.1 that lane l carries: a peer lane in a stack, an upstream port in a cell; no other lane carries
requests of a master (R64). -/
def laneMaster (s : State) (l : Nat) : Nat := if isStack s then 4 + farSid s l else 4 + l

/-- An answer goes out on the lane of the request. -/
def rraAnswer (s : State) (l op mbx count : Nat) (st : Status) (w1 w2 : Nat) (data : List Nat) : State :=
  sendOn s l 5 ⟨{ rspHdr s l with len := 12 + data.length }, .rra op mbx false count st.code w1 w2 data⟩

/-- The lane carries a master's requests. -/
def laneServes (s : State) (l : Nat) : Bool := isPeerLane s l || isUpPort s l

/-- A request whose OP is none of R276's is answered with RANGE on the lane that it came on. The answer's OP, which the rule
leaves open, is WRITE_RSP (DESIGN CHOICE, assumption 50), so that no answer asks for another one. -/
def rraUnknown (s : State) (l : Nat) (h : Hdr) (mbx count w1 w2 : Nat) : State :=
  let hdr := if isChainLane s l then downHdr s l h.pos 7 12
    else rspHdr s l
  sendOn s l 5 ⟨hdr, .rra 9 mbx false count Status.range.code w1 w2 []⟩

/-- READ and WRITE. -/
def rraAccess (s : State) (l : Nat) (h : Hdr) (write : Bool) (mbx count w1 w2 : Nat) (data : List Nat) : State :=
  let m := laneMaster s l
  let as := (List.range count).map (fun i => (w1 + 4 * i) % 2 ^ 32)
  let word (i : Nat) : Nat := leNat ((data.drop (4 * i)).take 4)
  let jnl := as.any (fun a => journaled s a)
  let (lease, s') := if write && !isStack s && jnl then leaseOk s l h.epoch else (true, s)
  let held := devState s == ST_CSAFE || devState s == ST_BYPASSED
  let pre := firstStatus [
    chk (count == 0) .zeroNotAllowed, chk (data.length != if write then 4 * count else 0) .badLength,
    chk (s.sys.phase != .firmware) .conflict,
    chk (write && !isStack s && held && !s.cell.rejoin) .conflict]
  let out := (if write then 9 else 8)
  if pre != .ok then
    let each := as.zipIdx.map (fun e => (e.1, if write then writeStatus s m e.1 4 (word e.2) (busNeedC s m e.1 (word e.2)) lease
      else readStatus s m e.1 4))
    let st := firstStatus (pre :: each.map Prod.snd)
    let rest (a w : Nat) : Status := if write then writeRest s m a 4 w (busNeedC s m a w) lease else readRest s m a 4
    let s := match each.zipIdx.find? (fun e => e.1.2 == st && st != pre) with
      | some e => (if write then recWrite s m e.1.1 (rest e.1.1 (word e.2)) st else recRefused s m e.1.1 (rest e.1.1 0))
      | none => s
    let s := if write then as.zipIdx.foldl (fun s e => jnlRefused s m e.1 (word e.2) st) s else s
    rraAnswer s l out mbx count st w1 w2 []
  else if write then
    let (st, s) := as.zipIdx.foldl (fun (x : Status × State) e =>
      let (st, s) := busWrite x.2 m e.1 (word e.2) 4 lease
      (firstStatus [x.1, st], s)) (.ok, s')
    rraAnswer s l out mbx count st w1 w2 []
  else
    let (st, b, s) := as.foldl (fun (x : Status × List Nat × State) a =>
      let (st, v, s) := busRead x.2.2 m a 4
      (firstStatus [x.1, st], x.2.1 ++ leBytes 4 v, s)) (.ok, [], s)
    rraAnswer s l out mbx count st w1 w2 b

/-- A mailbox fragment: the mailbox is posted when LAST arrives and every byte has. -/
def rraPost (s : State) (l : Nat) (h : Hdr) (mbx : Nat) (last : Bool) (w1 w2 : Nat) (data : List Nat) : State :=
  let m := laneMaster s l
  let k := m * 8 + mbx
  let op := w1 / 65536
  let len := w1 % 65536
  let seq := w2 / 65536
  let off := w2 % 8192
  let answer (s : State) (st : Status) : State :=
    if last then sendOn s l 5 ⟨rspHdr s l, .rra 10 mbx true 0 st.code w1 w2 []⟩ else s
  let stt := s.fget MBX_STAT_STATE k
  if stt == 1 || stt == 2 then answer (accErr s m (0x10100 + 16 * mbx) .busy) .busy
  else if s.sys.phase == .netboot && op != oImageLoad then answer s .conflict
  else
    let a := match smGet none s.mbx.asm k with
      | some a => if a.opcode == op && a.len == len && a.seq == seq then a else ⟨op, len, seq, []⟩
      | none => ⟨op, len, seq, []⟩
    let a := { a with got := (off, data.length) :: a.got }
    let words := mbxWords k off data.length
    match eccSupReset s words with
    | some x => x
    | none =>
    let s := eccSupPut s words (fun s => mbxPut s k off (data.take (4096 - off)))
    if !last then { s with mbx.asm := smSet none s.mbx.asm k (some a) }
    else
      let s := { s with mbx.asm := smSet none s.mbx.asm k none }
      if !covered a.got len || a.got.any (fun e => len < e.1 + e.2) then answer s .badLength
      else
        let s := s.fsets [(MBX_HDR0_OPCODE, k, op), (MBX_HDR0_LENGTH, k, len), (MBX_HDR1_SEQ, k, seq), (MBX_HDR1_STATUS, k, 0)]
        let ret : MbxRet := { lane := l, epoch := h.epoch }
        mbxPost { s with mbx.ret := smInsert k ret (smErase s.mbx.ret k) } k

/-- RRA_FRAME (R276, R280): a request is served, an answer delivered; a frame at a downstream port is only relayed. `cfg` is the lease holder's cell configuration that the
frame completes, when it does. -/
def execRraFrame (t : Time) (l : Lane) (fr : Frame) (cfg : Option CfgBody) (s : State) : Outcome State Fault Refusal :=
  let (ok, s) := rxCheck (s.at t) l fr
  let h := fr.hdr
  .next (match fr.body with
  | .rra op mbx last count status w1 w2 data =>
    if !ok || !forMe s l h || isDownPort s l || (s.sys.phase != .firmware && s.sys.phase != .netboot) || s.sys.halted then s
    else if op == 10 then
      let d := if isChainLane s l then h.chain * 8 + h.pos else 256 + farSid s l
      if !isStack s then s
      else if isChainLane s l && mbx == 0 && w1 / 65536 % 0x8000 == 0x10 then if last then offerAnswer s d status else s
      else remoteRx s d mbx (w1 / 65536) (w2 / 65536) status (w1 % 65536) (w2 % 8192) last data
    else if op == 8 || op == 9 then if isPeerLane s l then billAnswer s (farSid s l) op status w1 data else s
    else if 2 < op then rraUnknown s l h mbx count w1 w2
    else if !laneServes s l then s
    else match cfg with
    | some b =>
      if isStack s || s.sys.phase != .firmware then s
      else
        let (st, s) := cellCfgTake s l h.epoch b
        rraAnswer s l 9 mbx count st w1 w2 []
    | none =>
      if op == 2 then rraPost s l h mbx last w1 w2 data
      else rraAccess s l h (op == 1) mbx count w1 w2 data
  | _ => s)

end Sys2Proof.Machine
end

