-- ==== Sys2Proof/Machine/Cycle.lean ====
section
/-! DEFINITION. The boundary of a stack cycle (R31, R34, R76, R112, R114, R145, R149, R150, R271, R272, R296, R301, R324,
R328, R332, R333, R336, R337, R344, R437). -/

namespace Sys2Proof.Machine

open Host

/-- One TIME frame on each ACTIVE chain lane (R272, R301); its origin is the stamp of its own start. -/
def sendTime (s : State) : State :=
  let ts := b2n (s.flag TIM_STAT_LOCK) + 2 * b2n (s.flag TIM_STAT_HOLD)
  ((usedChains s).filter (laneActive s)).foldl (fun s k =>
    sendOn s k 1 ⟨{ downHdr s k 0 3 32 with xflags := b2n (holds s) }, .time 0 0 (s.fget TIM_CYC_T) ts⟩) s

/-- The cause of DEGRADED that applies, of highest precedence (R31, R34). -/
def degradedBy (s : State) : Nat :=
  if !(usedChains s).all (laneActive s) then CA_LANE
  else if peerLost s then CA_PEER
  else if s.flag TIM_STAT_HOLD then CA_TIME
  else CA_NONE

/-- RUN to DEGRADED and back (R31), with one cause by R34: a stack that left RUN in this cycle or the one that ends here
keeps its one change of state, and its cause is the one of highest precedence. -/
def degrade (s : State) : State :=
  let c := degradedBy s
  let since := (cycleNow s + 2 ^ 32 - s.cell.safeCycle) % 2 ^ 32
  if devState s == ST_RUN then if c == CA_NONE then s else causedDev s ST_DEGRADED c
  else if devState s == ST_DEGRADED then if c == CA_NONE then setDev s ST_RUN CA_NONE else s
  else if [ST_SAFE, ST_TIME_LOCK].contains (devState s) && s.fget SYS_STATE_PREV == ST_RUN && since ≤ 1 && c != CA_NONE
      && causeRank c < causeRank (s.fget SYS_STATE_CAUSE) then
    setCause s c
  else s

/-- The holder confirms pushed images once their cells run, and a push that has ended is forgotten (R62, R344). -/
def pushBoundary (s : State) : State :=
  let run (c : Nat) : Bool := cellState s c == ST_CRUN
  let s := { s with sys.push := s.sys.push.filter (fun e => !run e.1) }
  if !holds s then s
  else
    let due := s.mbx.confirm.filter run
    let s := { s with mbx.confirm := s.mbx.confirm.filter (fun c => !run c) }
    due.foldl (fun s c => toCell s c 3 oImageConfirm 0xfffe []) s

/-- The holder sends each joined cell its configuration, and each cell that rejoins (R33, R343, R437). -/
def cfgBoundary (s : State) : State :=
  let st (c : Nat) : Nat := cellState s c
  let s := { s with ctl.cfgSent := s.ctl.cfgSent.filter (fun c => ! [0, ST_BOOT].contains (st c)) }
  if !holds s || !domOn s 2 then s
  else
    let due := (cfgCells s).filter (fun c => !s.ctl.cfgSent.contains c
      && (st c == ST_JOINED || (s.ctl.rejoin.contains c && [ST_CSAFE, ST_BYPASSED, ST_READY].contains (st c))))
    due.foldl (fun s c => cellCfgSend { s with ctl.cfgSent := c :: s.ctl.cfgSent } c) s

/-- The boundary in stack role. -/
def stackBoundary (s : State) : State :=
  let s := classReads s
  let now := (cfgCells s).foldl (fun m c => smSet 0 m c (classOf s c)) ([] : SMap Nat)
  let s := { s with ctl.clsNow := now }
  let s := if domOn s 2 then fillBegin s else s
  let s := if fwRuns s then syncRacked (mirrorApply (rackApply s)) else s
  let s := mashBoundary s
  if !fwRuns s then s
  else
    let s := rackRefresh (rackSendDue (billAsk (leaseBoundary (peersFollow s))))
    cfgBoundary (pushBoundary (degrade (sendTime s)))

/-- A cell's TEL frame for the cycle, on every ACTIVE upstream port; another drops it (R112, R271, R280). -/
def sendTel (s : State) : State :=
  let s := if domOn s 2 then publishReads s (cycleNow s) else s
  let ks := if domOn s 2 then published s (cycleNow s) else []
  let ups := ks.map (updateOf s)
  let boot := [0, 1, 2].foldl (fun w p => w + b2n (lnOf s (4 + p)).bootReq * 2 ^ p) 0
  let body : Body := .tel boot ups.length (devState s) (s.fget SYS_STATE_CAUSE) (slotValue s 6 % 2 ^ 32)
    (slotValue s 1 % 2 ^ 32) (slotValue s 2 % 2 ^ 32) ups
  let s := (dueLanes s [0, 1, 2]).foldl (fun s p => sendOn s p 4 ⟨upHdr s p 2 (16 + 16 * ups.length), body⟩) s
  { s with grist.pub := ks.foldl (fun m k => smSet 0 m k (slotValue s k + 1)) s.grist.pub }

/-- The boundary in cell role. -/
def cellBoundary (s : State) : State :=
  let s := if domOn s 2 then restoreDir s else s
  let s := { s with grist.dirAt := s.grist.dir }
  let s := mashBoundary s
  if fwRuns s && portsFixed s then sendTel s else s

/-- CYCLE_BOUNDARY (R296): at the instant at which a cycle begins, in one clock of PD0 (assumption 51). -/
def execCycleBoundary (t : Time) (s : State) : Outcome State Fault Refusal :=
  let s := s.at t
  .next (if boundAt s (netTime s) ≤ s.tim.bound || !dueAt s (boundAt s (netTime s)) 109227 then s
  else
    let s := syncCycle s
    if isStack s then stackBoundary s else cellBoundary s)

end Sys2Proof.Machine
end

