-- ==== Sys2Proof/Machine/Qspi.lean ====
section
/-! DEFINITION. The QSPI target of master M1 (R80 to R82). A transfer's instruction comes as one command with all its
words; chip select stays low until QSPI_CS_RISE. -/

namespace Sys2Proof.Machine

open Host

/-- The status of a refused word is kept for RDSR when none is kept yet (R80). -/
def qspiRec (s : State) (st : Status) : State :=
  if s.qspi.status == 0 then { s with qspi.status := st.code } else s

/-- An instruction is taken only after chip select has risen, while the target runs. -/
def qspiReady (s : State) : Bool := running s && s.qspi.phase == .idle

/-- One word written when its fourth byte completes, checked at its region (R80, R82). -/
def qspiPut (s : State) (w : Word) : State :=
  if s.qspi.phase != .write then s
  else
    let a := s.qspi.addr
    let (st, s) := busWrite s 1 a w.toNat 4 true
    if s.qspi.phase != .write then s
    else qspiRec { s with qspi.addr := (a + 4) % 2 ^ 32 } st

/-- WRITE and QWRITE: `part` bytes of a further word follow the words. -/
def qspiWrite (s : State) (a : Word) (ws : List Word) (part : Nat) : State :=
  let s := { s with qspi := { s.qspi with phase := .write, addr := a.toNat, marker := 0, out := [] } }
  let s := ws.foldl qspiPut s
  if s.qspi.phase == .write then { s with qspi.part := part } else s

/-- QSPI_WRITE (R80). -/
def execQspiWrite (t : Time) (a : Word) (ws : List Word) (part : Fin 4) (s : State) : Outcome State Fault Refusal :=
  let s := s.at t
  .next (if qspiReady s then qspiWrite s a ws part.val else s)
/-- QSPI_QWRITE (R80). -/
def execQspiQwrite (t : Time) (a : Word) (ws : List Word) (part : Fin 4) (s : State) : Outcome State Fault Refusal :=
  let s := s.at t
  .next (if qspiReady s then qspiWrite s a ws part.val else s)

/-- `n` words read from the transfer's address on; a refused one reads 0 (R80). -/
def qspiGet : Nat → State → State
  | 0, s => s
  | n + 1, s =>
    let a := s.qspi.addr
    let (st, v, s) := busRead s 1 a 4
    if s.qspi.phase != .read then s
    else
      let s := if st == .ok then s else qspiRec s st
      qspiGet n { s with qspi := { s.qspi with addr := (a + 4) % 2 ^ 32, out := s.qspi.out ++ [v] } }

/-- READ and QREAD: the marker 0xA5, then `n` words, the last of them cut after `part` bytes where that is not 0. -/
def qspiRead (s : State) (a : Word) (n part : Nat) : State :=
  let s := { s with qspi := { s.qspi with phase := .read, addr := a.toNat, marker := 0xa5, out := [] } }
  let s := qspiGet (n + (if part == 0 then 0 else 1)) s
  if s.qspi.phase == .read then { s with qspi.part := part } else s

/-- QSPI_READ (R80, R81). -/
def execQspiRead (t : Time) (a : Word) (n : Nat) (part : Fin 4) (s : State) : Outcome State Fault Refusal :=
  let s := s.at t
  .next (if qspiReady s then qspiRead s a n part.val else s)
/-- QSPI_QREAD (R80, R81). -/
def execQspiQread (t : Time) (a : Word) (n : Nat) (part : Fin 4) (s : State) : Outcome State Fault Refusal :=
  let s := s.at t
  .next (if qspiReady s then qspiRead s a n part.val else s)

/-- QSPI_RDSR (R80): the status is returned, least significant byte first, and cleared. -/
def execQspiRdsr (t : Time) (s : State) : Outcome State Fault Refusal :=
  let s := s.at t
  .next (if qspiReady s then
    { s with qspi := { s.qspi with phase := .rdsr, marker := 0, out := leBytes 2 s.qspi.status, status := 0 } }
  else s)

/-- QSPI_READ_TIMEOUT (R81): a read whose first word is not ready after 64 wait bytes. Whether that access still has
its effect is free (assumption 4). -/
def execQspiReadTimeout (t : Time) (a : Word) (n : Nat) (s : State) : Outcome State Fault Refusal :=
  let s := s.at t
  .next (if qspiReady s then
    let (f, s) := drawFree s
    let s := if f % 2 == 0 then s else (busRead s 1 a.toNat 4).2.2
    qspiRec { s with qspi :=
      { s.qspi with phase := .read, addr := a.toNat, marker := 0x5a, out := List.replicate n 0 } } .busy
  else s)

/-- QSPI_CS_RISE (R82): the transfer ends; a word in progress is discarded and recorded with BAD_LENGTH. -/
def execQspiCsRise (t : Time) (s : State) : Outcome State Fault Refusal :=
  let s := s.at t
  .next (
    let s := if s.qspi.part == 0 then s else qspiRec s .badLength
    { s with qspi := { s.qspi with phase := .idle, part := 0 } })

/-- QSPI_UNKNOWN_INSTRUCTION (R80): ignored until chip select rises. -/
def execQspiUnknownInstruction (t : Time) (s : State) : Outcome State Fault Refusal :=
  let s := s.at t
  .next (if qspiReady s then { s with qspi := { s.qspi with phase := .ignored, marker := 0, out := [] } } else s)

end Sys2Proof.Machine
end

