-- ==== Sys2Proof/Machine/Ethernet.lean ====
section
/-! DEFINITION. Ethernet management in stack role (R83 to R87). -/

namespace Sys2Proof.Machine

open Host

/-- An Ethernet port serves its addresses: trained, with the firmware running on a configuration. -/
def ethServes (s : State) (p : Nat) : Bool := portUp s p && fwRuns s && cfgInForce s

/-- The static address of a port, and whether an address is one that this stack answers for (R83, R85). -/
def portIp (s : State) (p : Nat) : Nat := (cfgOf s).portAddr.getD p 0
def mineIp (s : State) (a : Nat) : Bool := a == portIp s 0 || a == portIp s 1 || (holds s && a == (cfgOf s).plantAddr)

/-- The MAC passes a frame with an IPv4 packet of `n` bytes: none is longer than the MTU plus 18 bytes of header and FCS
(R293). -/
def macTakes (s : State) (n : Nat) : Bool := n ≤ (cfgOf s).mtu

/-- A field of a datagram, least significant byte first. -/
def dgNum (d : List Nat) (o n : Nat) : Nat := leNat ((List.range n).map (fun i => d.getD (o + i) 0 % 256))

/-- A mailbox datagram that passed its source and lease checks (R84, R87): answered at once when it is ill formed or a
duplicate, else posted. -/
def datagramPost (s : State) (port src sport : Nat) (d : List Nat) : State :=
  let n := dgNum d 0 1
  let op := dgNum d 4 2
  let len := dgNum d 6 2
  let seq := dgNum d 8 2
  let ret : MbxRet := { lane := port, addr := src, port := sport }
  let answer (st : Nat) (b : List Nat) : State := sendDatagram s n ret (0x8000 + op % 0x8000) seq st b
  let bad := firstStatus [chk (d.length != 12 + len || 4096 < len) .badLength, chk (7 < n || dgNum d 1 1 != 1) .range]
  let k := 16 + n
  let racked := s.mbx.dup.find? (fun e => e.1 == n && e.2.1 == op && e.2.2.1 == seq)
  let kept := s.mbx.last.find? (fun e => e.1 == n && e.2.op == op && e.2.seq == seq)
  let busy := s.fget MBX_STAT_STATE k == 1 || s.fget MBX_STAT_STATE k == 2
  if bad != .ok then answer bad.code []
  else match racked, kept with
  | some e, _ => answer e.2.2.2 []
  | none, some e => answer e.2.status e.2.bytes
  | none, none =>
    if busy then accErr s 2 (0x10100 + 16 * n) .busy
    else
      let put (s : State) : State := mbxPut s k 0 ((d.drop 12).map (· % 256))
      match eccSupReset s (mbxWords k 0 len) with
      | some x => x
      | none =>
      let s := (eccSupPut s (mbxWords k 0 len) put).fsets [(MBX_HDR0_OPCODE, k, op), (MBX_HDR0_LENGTH, k, len), (MBX_HDR1_SEQ, k, seq), (MBX_HDR1_STATUS, k, 0)]
      mbxPost { s with mbx.ret := smInsert k ret (smErase s.mbx.ret k) } k

/-- A mailbox datagram (R85, R86): a stack without the lease discards and counts every one; a holder takes those from
the listed sources to the plant address or its own. -/
def datagramRx (s : State) (port src dst sport : Nat) (d : List Nat) : State :=
  if !ethServes s port then s
  else if !holds s then s.satAdd MBX_NETCNT_DROP_NOLEASE 0
  else if !(cfgOf s).sources.contains src then s.satAdd MBX_NETCNT_DROP_SRC 0
  else if !mineIp s dst then s
  else datagramPost s port src sport d

/-- MAILBOX_DATAGRAM (R84): `d` holds the bytes of the UDP payload on port 51020. -/
def execMailboxDatagram (t : Time) (port : Fin 2) (src dst : Word) (sport : Fin 65536) (d : List Nat) (s : State) :
    Outcome State Fault Refusal :=
  let s := s.at t
  .next (if macTakes s (28 + d.length) then datagramRx s port.val src.toNat dst.toNat sport.val d else s)

/-- An incomplete datagram is held for 10 ms after its first fragment (R86). -/
def fragsLive (s : State) : List Frag := s.mbx.frags.filter (fun f => s.clk < f.first + 10 * msT)

/-- IPV4_FRAGMENT (R86): `off` and `last` from the IPv4 header of `hlen` bytes, `bytes` the part of the UDP datagram. A
datagram above 4,176 bytes is given up. -/
def execIpv4Fragment (t : Time) (port : Fin 2) (src dst : Word) (id : Fin 65536) (hlen off : Nat) (last : Bool)
    (bytes : List Nat) (s : State) : Outcome State Fault Refusal :=
  let s := s.at t
  .next (if !ethServes s port || !macTakes s (hlen + bytes.length) then s
  else
    let s := { s with mbx.frags := fragsLive s }
    let same (f : Frag) : Bool := f.port == port.val && f.src == src.toNat && f.id == id.val
    let f0 : Frag := { port := port.val, src := src.toNat, id := id.val, first := s.clk, got := [], bytes := [] }
    let f := (s.mbx.frags.find? same).getD f0
    let rest := s.mbx.frags.filter (fun f => !same f)
    let whole := if last then some (off + bytes.length) else f.whole
    let put := bytes.zipIdx.foldl (fun m e => smSet 0 m (off + e.2) (e.1 % 256)) f.bytes
    let f := { f with got := (off, bytes.length) :: f.got, bytes := put, whole := whole }
    if 4176 < hlen + off + bytes.length then { s with mbx.frags := rest }
    else match whole with
    | some n =>
      if covered f.got n then
        let u := (List.range n).map (smGet 0 f.bytes)
        let be (o : Nat) : Nat := u.getD o 0 * 256 + u.getD (o + 1) 0
        let s := { s with mbx.frags := rest }
        if be 2 == 51020 then datagramRx s port src.toNat dst.toNat (be 0) (u.drop 8) else s
      else { s with mbx.frags := f :: rest }
    | none => { s with mbx.frags := f :: rest })

/-- FRAGMENT_TIMEOUT (R86). -/
def execFragmentTimeout (t : Time) (s : State) : Outcome State Fault Refusal :=
  let s := s.at t
  .next { s with mbx.frags := fragsLive s }

/-- ARP_REQUEST (R83, R85): answered for the port's address, and by the lease holder for the plant address. -/
def execArpRequest (t : Time) (port : Fin 2) (target : Word) (s : State) : Outcome State Fault Refusal :=
  let s := s.at t
  let a := target.toNat
  .next (if ethServes s port && (a == portIp s port || (holds s && a == (cfgOf s).plantAddr)) then
    { s with ethOut := s.ethOut ++ [.arpReply port a (portMac port)] }
  else s)

/-- ICMP_ECHO (R83). -/
def execIcmpEcho (t : Time) (port : Fin 2) (src dst : Word) (data : List Nat) (s : State) : Outcome State Fault Refusal :=
  let s := s.at t
  .next (if ethServes s port && macTakes s (28 + data.length) && mineIp s dst.toNat then
    { s with ethOut := s.ethOut ++ [.echoReply port src.toNat data] }
  else s)

/-- GRATUITOUS_ARP_SECOND (R85): 1 ms after the first, on both ports. -/
def execGratuitousArpSecond (t : Time) (s : State) : Outcome State Fault Refusal :=
  let s := s.at t
  .next (if holds s && s.vote.arp2 && decide (s.vote.gained + msT ≤ s.clk) then
    let s := { s with vote.arp2 := false }
    { s with ethOut := s.ethOut ++ [.gratuitousArp 0 (cfgOf s).plantAddr (portMac 0), .gratuitousArp 1 (cfgOf s).plantAddr (portMac 1)] }
  else s)

end Sys2Proof.Machine
end

