-- ==== Sys2Proof/Machine/Jtag.lean ====
section
/-! DEFINITION. Boundary scan and debug (R89, R409, R410). -/

namespace Sys2Proof.Machine

open Host

/-- The instruction of an IR code, and its mask bit (Table 17.4). -/
def jtagCode (c : Nat) : Option (JtagIr × Nat) :=
  match c with
  | 0xff => some (.bypass, 0) | 0x01 => some (.idcode, 1) | 0x02 => some (.sample, 2) | 0x00 => some (.extest, 3)
  | 0x04 => some (.clamp, 4) | 0x05 => some (.highz, 5) | 0x10 => some (.dbgacc, 6) | 0x11 => some (.dbgcore, 7)
  | _ => none

/-- Instructions that need a token in force (Table 17.4), and that R410 refuses in service. -/
def jtagGuarded : JtagIr → Bool
  | .extest | .clamp | .highz | .dbgcore => true
  | _ => false

/-- JTAG_UPDATE_IR (R409, R410): an unknown or refused instruction is loaded as BYPASS. -/
def execJtagUpdateIr (t : Time) (code : Fin 256) (s : State) : Outcome State Fault Refusal :=
  let s := s.at t
  .next (if !running s then s
  else match jtagCode code.val with
  | some (i, n) =>
    if jtagGuarded i && (!bit s.mbx.m3jtag n || inService s) then
      { s with jtag := { s.jtag with ir := .bypass, refused := true } }
    else { s with jtag := { s.jtag with ir := i, refused := false } }
  | none => { s with jtag := { s.jtag with ir := .bypass, refused := true } })

/-- What the next Capture-IR returns (R409). -/
def captureIr (s : State) : Nat := if s.jtag.refused then 0b00000101 else 0b00000001

/-- The identification register (Table 17.4). -/
def jtagIdcode : Nat := 0x6a1a0193

/-- DBGACC_UPDATE (R409): one access as M3; its result is what the next Capture-DR loads. -/
def execDbgaccUpdate (t : Time) (write : Bool) (a d : Word) (s : State) : Outcome State Fault Refusal :=
  let s := s.at t
  .next (if !running s || s.jtag.ir != .dbgacc then s
  else if write then
    let (st, s) := busWrite s 3 a.toNat d.toNat 4 true
    { s with jtag := { s.jtag with done := true, status := st.code, word := 0 } }
  else
    let (st, v, s) := busRead s 3 a.toNat 4
    { s with jtag := { s.jtag with done := true, status := st.code, word := v } })

/-- The 65 bits that Capture-DR of DBGACC loads (R409). -/
def captureDbgacc (s : State) : Nat :=
  b2n s.jtag.done * 2 ^ 64 + s.jtag.status % 65536 * 2 ^ 32 + s.jtag.word % 2 ^ 32

/-- TAP_RESET (R409): a low level on TRST_N. -/
def execTapReset (t : Time) (s : State) : Outcome State Fault Refusal :=
  let s := s.at t
  .next { s with jtag := {} }

/-- EXTEST_UPDATE (R409, R410): Update-DR loads the boundary register, under EXTEST, which drives the balls from it, and under
SAMPLE/PRELOAD, which changes no ball. -/
def execExtestUpdate (t : Time) (b : Boundary) (s : State) : Outcome State Fault Refusal :=
  let s := s.at t
  .next (if !running s || (s.jtag.ir != .extest && s.jtag.ir != .sample) then s else { s with jtag.bnd := b })

/-- DBGCORE_HALT (R409): a step runs one instruction of the supervisor, whose instruction set the spec does not give. -/
def execDbgcoreHalt (t : Time) (op : DbgOp) (s : State) : Outcome State Fault Refusal :=
  let s := s.at t
  .next (if !running s || s.jtag.ir != .dbgcore then s
  else match op with
  | .halt => { s with sys.halted := true }
  | .step => s
  | .resume => { s with sys.halted := false })

end Sys2Proof.Machine
end

