-- ==== Sys2Proof/Machine/PwmEvents.lean ====
section
/-! DEFINITION. The valley, peak and half-count instants of a pair: the counter's work and the events they issue to
the converters and to the regulator (R190, R193, R226, R248). -/

namespace Sys2Proof.Machine
open Host

/-- The regulator tick that pair 8 issues at a place of its period: 0 valley, 1 and 3 the half counts, 2 peak (R226). It
leaves for PD9 and is numbered since START. -/
def pairTick (s : State) (p pos : Nat) : State :=
  let tpp := s.fget SPR_CFG_TPP
  if p == 8 && (pos == 0 || (pos == 2 && tpp != 1) || (pos % 2 == 1 && tpp == 4)) then
    let s := adcTick s
    if !domOn s 9 then s
    else
      let no := if s.fget SPR_STAT_STATE == 0 then 0 else s.spr.issued + 1
      { s with spr.issued := no, spr.ticks := (s.spr.ticks.drop (s.spr.ticks.length - 23)) ++
        [{ at_ := repTime s 8, pos, no, sent := s.clk, pulls := if no == 0 then [] else tickPulls s no }] }
  else s

/-- The events of a pair that is still running: to the converters and the regulator. -/
def pairEvents (s : State) (p kind pos : Nat) : State :=
  if s.flag PWM_STAT_RUN p then pairTick (adcPairEvent s p kind) p pos else s

/-- PWM_VALLEY (R190, R193, R195). -/
def execPwmValley (t : Time) (p : Pair) (s : State) : Outcome State Fault Refusal :=
  let s := s.at t
  .next (if s.flag PWM_STAT_RUN p && inClk s (pwmOf s p).nextValley then pairEvents (valleyWork s p) p 0 0 else s)

/-- PWM_PEAK (R193). -/
def execPwmPeak (t : Time) (p : Pair) (s : State) : Outcome State Fault Refusal :=
  let s := s.at t
  .next (if s.flag PWM_STAT_RUN p && !s.flag PWM_STAT_DOWN p && inClk s (pwmOf s p).nextPeak then
    pairEvents (peakWork s p) p 1 2 else s)

/-- PWM_HALF_COUNT (R226): either instant at which the count passes PER/2. -/
def execPwmHalfCount (t : Time) (p : Pair) (s : State) : Outcome State Fault Refusal :=
  let s := s.at t
  let half := s.fget PWM_EPER_PER p / 2 * clkT
  let x := pwmOf s p
  .next (if inClk s (x.nextPeak - half) then pairEvents s p 2 1
  else if inClk s (x.nextPeak + half) then pairEvents s p 2 3 else s)

/-! ## Replicas -/

/-- A replica stands `off` ahead of TIM at a comparison (R44): more than 50 ps (50 × 65536 / 1000 units) re-aligns it, and the
event is counted; the pairs that still wait for their first valley find it again on the re-aligned replica (R195). -/
def replicaJudge (s : State) (d : Nat) (off : Int) : State :=
  if 50 * 65536 < off.natAbs * 1000 then
    let s := if off < 0 then (List.range 16).foldl (passOver d (repTime s d) (netTime s)) s else s
    let s := { s with sys := { s.sys with realign := smMod 0 s.sys.realign d (· + 1), repl := smErase s.sys.repl d } }
    (List.range 12).foldl (fun s p =>
      if pairDom p == d && (pwmOf s p).waiting && s.flag PWM_CFG_ALIGN p then pwmMod s p (firstValley s p) else s) s
  else { s with sys.repl := smSet 0 s.sys.repl d off }

/-- REPLICA_CHECK (R44): 1 ms after the replica's load or its comparison before. `diff` is how far the island's clock has
carried the replica since, in units of 2⁻¹⁶ ns, beside what a step of network time has left. -/
def execReplicaCheck (t : Time) (d : Dom) (diff : Int) (s : State) : Outcome State Fault Refusal :=
  let s := s.at t
  .next (if !domOn s d || !hasReplica d || decide (s.clk < smGet 0 s.sys.replAt d + msT) then s
  else replicaJudge { s with sys.replAt := smSet 0 s.sys.replAt d s.clk } d (smGet 0 s.sys.repl d + diff))

end Sys2Proof.Machine
end

