-- ==== Sys2Proof/Machine/Dispatch.lean ====
section
/-! DEFINITION. exec: one arm per command of the table. -/

namespace Sys2Proof.Machine

/-- The effect of one command on everything but the queue. -/
def exec (i : Instr) (s : State) : Host.Outcome State Fault Refusal :=
  match i with
  | .supplyRelease t => Sys2Proof.Machine.execSupplyRelease t s
  | .brownOut t also => Sys2Proof.Machine.execBrownOut t also s
  | .pinReset t also => Sys2Proof.Machine.execPinReset t also s
  | .lrefclkWatchEnd t qualifies => Sys2Proof.Machine.execLrefclkWatchEnd t qualifies s
  | .crystalQualified t => Sys2Proof.Machine.execCrystalQualified t s
  | .referenceRetry t => Sys2Proof.Machine.execReferenceRetry t s
  | .pllLock t s0 s1 s2 => Sys2Proof.Machine.execPllLock t s0 s1 s2 s
  | .strapResample t s0 s1 s2 => Sys2Proof.Machine.execStrapResample t s0 s1 s2 s
  | .otpLoadDone t => Sys2Proof.Machine.execOtpLoadDone t s
  | .pd0SelftestDone t pass => Sys2Proof.Machine.execPd0SelftestDone t pass s
  | .pd0SelftestRetry t => Sys2Proof.Machine.execPd0SelftestRetry t s
  | .referenceLoss t => Sys2Proof.Machine.execReferenceLoss t s
  | .referenceHoldExpiry t also => Sys2Proof.Machine.execReferenceHoldExpiry t also s
  | .referenceReturn t => Sys2Proof.Machine.execReferenceReturn t s
  | .watchdogExpiry t also straps => Sys2Proof.Machine.execWatchdogExpiry t also straps s
  | .lockstepError t also straps => Sys2Proof.Machine.execLockstepError t also straps s
  | .debugReset t also straps => Sys2Proof.Machine.execDebugReset t also straps s
  | .sysResetRequest m w also straps => Sys2Proof.Machine.execSysResetRequest m w also straps s
  | .coldResetRequest m w also => Sys2Proof.Machine.execColdResetRequest m w also s
  | .tempFeedforward t => Sys2Proof.Machine.execTempFeedforward t s
  | .replicaCheck t d diff => Sys2Proof.Machine.execReplicaCheck t d diff s
  | .pwrDomctlWrite m w => Sys2Proof.Machine.execPwrDomctlWrite m w s
  | .domainOnComplete t d => Sys2Proof.Machine.execDomainOnComplete t d s
  | .domainOffComplete t d => Sys2Proof.Machine.execDomainOffComplete t d s
  | .domainSelftestDone t d pass failed => Sys2Proof.Machine.execDomainSelftestDone t d pass failed s
  | .bootSlotVerify t => Sys2Proof.Machine.execBootSlotVerify t s
  | .configSlotCheck t => Sys2Proof.Machine.execConfigSlotCheck t s
  | .otpStepDone t => Sys2Proof.Machine.execOtpStepDone t s
  | .keyDerivationDone t => Sys2Proof.Machine.execKeyDerivationDone t s
  | .netbootTimeout t => Sys2Proof.Machine.execNetbootTimeout t s
  | .netbootOfferRetry t k q => Sys2Proof.Machine.execNetbootOfferRetry t k q s
  | .mbxGo m n w => Sys2Proof.Machine.execMbxGo m n w s
  | .mbxTake t => Sys2Proof.Machine.execMbxTake t s
  | .getInfo t m n => Sys2Proof.Machine.execGetInfo t m n s
  | .getStatus t m n => Sys2Proof.Machine.execGetStatus t m n s
  | .reset t m n => Sys2Proof.Machine.execReset t m n s
  | .mailboxResetFire t straps => Sys2Proof.Machine.execMailboxResetFire t straps s
  | .imageLoad t m n img => Sys2Proof.Machine.execImageLoad t m n img s
  | .imageWrite t m n img => Sys2Proof.Machine.execImageWrite t m n img s
  | .imageWriteAbandon t => Sys2Proof.Machine.execImageWriteAbandon t s
  | .imageConfirm t m n => Sys2Proof.Machine.execImageConfirm t m n s
  | .start t m n => Sys2Proof.Machine.execStart t m n s
  | .stop t m n => Sys2Proof.Machine.execStop t m n s
  | .setRef t m n => Sys2Proof.Machine.execSetRef t m n s
  | .cellBypass t m n => Sys2Proof.Machine.execCellBypass t m n s
  | .contactor t m n => Sys2Proof.Machine.execContactor t m n s
  | .plantPulseEnd t n => Sys2Proof.Machine.execPlantPulseEnd t n s
  | .cellImagePush t m n => Sys2Proof.Machine.execCellImagePush t m n s
  | .pointRead t m n => Sys2Proof.Machine.execPointRead t m n s
  | .pointWrite t m n => Sys2Proof.Machine.execPointWrite t m n s
  | .remoteReplyTimeout t => Sys2Proof.Machine.execRemoteReplyTimeout t s
  | .capArm t m n => Sys2Proof.Machine.execCapArm t m n s
  | .capDisarm t m n => Sys2Proof.Machine.execCapDisarm t m n s
  | .capStatus t m n => Sys2Proof.Machine.execCapStatus t m n s
  | .capRead t m n => Sys2Proof.Machine.execCapRead t m n s
  | .traceStart t m n => Sys2Proof.Machine.execTraceStart t m n s
  | .traceRead t m n => Sys2Proof.Machine.execTraceRead t m n s
  | .billLoad t m n => Sys2Proof.Machine.execBillLoad t m n s
  | .billSwap t m n => Sys2Proof.Machine.execBillSwap t m n s
  | .leaseStatus t m n => Sys2Proof.Machine.execLeaseStatus t m n s
  | .leaseHandover t m n => Sys2Proof.Machine.execLeaseHandover t m n s
  | .handoverTimeout t => Sys2Proof.Machine.execHandoverTimeout t s
  | .stackWithdraw t m n => Sys2Proof.Machine.execStackWithdraw t m n s
  | .attest t m n => Sys2Proof.Machine.execAttest t m n s
  | .debugUnlock t m n sigOk => Sys2Proof.Machine.execDebugUnlock t m n sigOk s
  | .debugUnlockExpiry t => Sys2Proof.Machine.execDebugUnlockExpiry t s
  | .debugLockoutEnd t => Sys2Proof.Machine.execDebugLockoutEnd t s
  | .journalRead t m n => Sys2Proof.Machine.execJournalRead t m n s
  | .journalFree t m n => Sys2Proof.Machine.execJournalFree t m n s
  | .forward t m n => Sys2Proof.Machine.execForward t m n s
  | .leaseRackTimeout t => Sys2Proof.Machine.execLeaseRackTimeout t s
  | .accJnlfree m w => Sys2Proof.Machine.execAccJnlfree m w s
  | .registerWrite m a width w => Sys2Proof.Machine.execRegisterWrite m a width w s
  | .qspiWrite t a ws part => Sys2Proof.Machine.execQspiWrite t a ws part s
  | .qspiQwrite t a ws part => Sys2Proof.Machine.execQspiQwrite t a ws part s
  | .qspiRead t a n part => Sys2Proof.Machine.execQspiRead t a n part s
  | .qspiQread t a n part => Sys2Proof.Machine.execQspiQread t a n part s
  | .qspiRdsr t => Sys2Proof.Machine.execQspiRdsr t s
  | .qspiReadTimeout t a n => Sys2Proof.Machine.execQspiReadTimeout t a n s
  | .qspiCsRise t => Sys2Proof.Machine.execQspiCsRise t s
  | .qspiUnknownInstruction t => Sys2Proof.Machine.execQspiUnknownInstruction t s
  | .mailboxDatagram t port src dst sport d => Sys2Proof.Machine.execMailboxDatagram t port src dst sport d s
  | .ipv4Fragment t port src dst id hlen off last bytes => Sys2Proof.Machine.execIpv4Fragment t port src dst id hlen off last bytes s
  | .fragmentTimeout t => Sys2Proof.Machine.execFragmentTimeout t s
  | .arpRequest t port target => Sys2Proof.Machine.execArpRequest t port target s
  | .icmpEcho t port src dst data => Sys2Proof.Machine.execIcmpEcho t port src dst data s
  | .gratuitousArpSecond t => Sys2Proof.Machine.execGratuitousArpSecond t s
  | .syncMessage t port domain sender rx origin corr => Sys2Proof.Machine.execSyncMessage t port domain sender rx origin corr s
  | .announceMessage t port a => Sys2Proof.Machine.execAnnounceMessage t port a s
  | .announceTimeout t port => Sys2Proof.Machine.execAnnounceTimeout t port s
  | .pdelayRequest t port => Sys2Proof.Machine.execPdelayRequest t port s
  | .pdelayResponse t port rx t2 t3 corr => Sys2Proof.Machine.execPdelayResponse t port rx t2 t3 corr s
  | .ptpTransparentRelay t port kind corr residence => Sys2Proof.Machine.execPtpTransparentRelay t port kind corr residence s
  | .jtagUpdateIr t code => Sys2Proof.Machine.execJtagUpdateIr t code s
  | .dbgaccUpdate t write a d => Sys2Proof.Machine.execDbgaccUpdate t write a d s
  | .tapReset t => Sys2Proof.Machine.execTapReset t s
  | .dirRead m w => Sys2Proof.Machine.execDirRead m w s
  | .dirWrite m w => Sys2Proof.Machine.execDirWrite m w s
  | .pointWord0Read m k => Sys2Proof.Machine.execPointWord0Read m k s
  | .pointWord1Write m k w => Sys2Proof.Machine.execPointWord1Write m k w s
  | .pointWord0Write m k w => Sys2Proof.Machine.execPointWord0Write m k w s
  | .cycleBoundary t => Sys2Proof.Machine.execCycleBoundary t s
  | .telFrame t l fr => Sys2Proof.Machine.execTelFrame t l fr s
  | .fillCutoff t => Sys2Proof.Machine.execFillCutoff t s
  | .fillClose t => Sys2Proof.Machine.execFillClose t s
  | .mainTaskStart t => Sys2Proof.Machine.execMainTaskStart t s
  | .mainTaskEnd t grid => Sys2Proof.Machine.execMainTaskEnd t grid s
  | .mainDeadline t => Sys2Proof.Machine.execMainDeadline t s
  | .fastTaskStart t => Sys2Proof.Machine.execFastTaskStart t s
  | .fastTaskEnd t => Sys2Proof.Machine.execFastTaskEnd t s
  | .bankSwapRequest m w => Sys2Proof.Machine.execBankSwapRequest m w s
  | .bankCheckComplete t => Sys2Proof.Machine.execBankCheckComplete t s
  | .tuneCommit m w => Sys2Proof.Machine.execTuneCommit m w s
  | .mashTunedataWrite m w => Sys2Proof.Machine.execMashTunedataWrite m w s
  | .bankDataWrite m b w => Sys2Proof.Machine.execBankDataWrite m b w s
  | .nodeDataRead m => Sys2Proof.Machine.execNodeDataRead m s
  | .traceArm m w => Sys2Proof.Machine.execTraceArm m w s
  | .traceStartEvent m w => Sys2Proof.Machine.execTraceStartEvent m w s
  | .traceStop m w => Sys2Proof.Machine.execTraceStop m w s
  | .prechargeTimeout t => Sys2Proof.Machine.execPrechargeTimeout t s
  | .pitchEntry t => Sys2Proof.Machine.execPitchEntry t s
  | .enumComplete t => Sys2Proof.Machine.execEnumComplete t s
  | .enumTimeout t => Sys2Proof.Machine.execEnumTimeout t s
  | .breakerClose t => Sys2Proof.Machine.execBreakerClose t s
  | .breakerConfirm t closed => Sys2Proof.Machine.execBreakerConfirm t closed s
  | .breakerTimeout t => Sys2Proof.Machine.execBreakerTimeout t s
  | .stopBreakerOpen t => Sys2Proof.Machine.execStopBreakerOpen t s
  | .cellCycle t x => Sys2Proof.Machine.execCellCycle t x s
  | .socOcvReset t => Sys2Proof.Machine.execSocOcvReset t s
  | .capUpdateOnPlim t => Sys2Proof.Machine.execCapUpdateOnPlim t s
  | .slotAdopt t => Sys2Proof.Machine.execSlotAdopt t s
  | .prechargeContactorStep t => Sys2Proof.Machine.execPrechargeContactorStep t s
  | .prechargeComplete t => Sys2Proof.Machine.execPrechargeComplete t s
  | .bypassConfirm t => Sys2Proof.Machine.execBypassConfirm t s
  | .bypassConfirmTimeout t => Sys2Proof.Machine.execBypassConfirmTimeout t s
  | .rejoinOpenConfirm t => Sys2Proof.Machine.execRejoinOpenConfirm t s
  | .cellBypassCommand t l epoch => Sys2Proof.Machine.execCellBypassCommand t l epoch s
  | .cellRejoinCommand t l epoch => Sys2Proof.Machine.execCellRejoinCommand t l epoch s
  | .pwmCommit m w => Sys2Proof.Machine.execPwmCommit m w s
  | .pwmCancel m w => Sys2Proof.Machine.execPwmCancel m w s
  | .pwmGcommit m w => Sys2Proof.Machine.execPwmGcommit m w s
  | .pwmGcancel m w => Sys2Proof.Machine.execPwmGcancel m w s
  | .pwmCmpaWrite m reg al w => Sys2Proof.Machine.execPwmCmpaWrite m reg al w s
  | .pwmEnable m w => Sys2Proof.Machine.execPwmEnable m w s
  | .pwmDisable m w => Sys2Proof.Machine.execPwmDisable m w s
  | .pwmCounterStart t p => Sys2Proof.Machine.execPwmCounterStart t p s
  | .pwmValley t p => Sys2Proof.Machine.execPwmValley t p s
  | .pwmPeak t p => Sys2Proof.Machine.execPwmPeak t p s
  | .pwmHalfCount t p => Sys2Proof.Machine.execPwmHalfCount t p s
  | .pwmCompareMatch t p outB => Sys2Proof.Machine.execPwmCompareMatch t p outB s
  | .gdTurnOnStart t c => Sys2Proof.Machine.execGdTurnOnStart t c s
  | .gdTpreExpiry t c => Sys2Proof.Machine.execGdTpreExpiry t c s
  | .gdTwonTimeout t c => Sys2Proof.Machine.execGdTwonTimeout t c s
  | .gdTpdisExpiry t c => Sys2Proof.Machine.execGdTpdisExpiry t c s
  | .gdTwoffTimeout t c => Sys2Proof.Machine.execGdTwoffTimeout t c s
  | .gdFeedbackChange t c level => Sys2Proof.Machine.execGdFeedbackChange t c level s
  | .gdTfboffExpiry t c => Sys2Proof.Machine.execGdTfboffExpiry t c s
  | .gdFbmis t c => Sys2Proof.Machine.execGdFbmis t c s
  | .gdThresholdTrip t c => Sys2Proof.Machine.execGdThresholdTrip t c s
  | .gdHardTrip t c => Sys2Proof.Machine.execGdHardTrip t c s
  | .gdComparatorRelease t c hard => Sys2Proof.Machine.execGdComparatorRelease t c hard s
  | .gdBlankingEnd t c => Sys2Proof.Machine.execGdBlankingEnd t c s
  | .gdEnable m w => Sys2Proof.Machine.execGdEnable m w s
  | .faultGroupStep2 t g => Sys2Proof.Machine.execFaultGroupStep2 t g s
  | .forcePrefixEnd t c => Sys2Proof.Machine.execForcePrefixEnd t c s
  | .forceSequencerSync t c => Sys2Proof.Machine.execForceSequencerSync t c s
  | .faultLatchClear m g w => Sys2Proof.Machine.execFaultLatchClear m g w s
  | .faultGroupEnable m g w => Sys2Proof.Machine.execFaultGroupEnable m g w s
  | .fltPinChange t n level => Sys2Proof.Machine.execFltPinChange t n level s
  | .fltDeglitchExpiry t n => Sys2Proof.Machine.execFltDeglitchExpiry t n s
  | .faultSwforce m w => Sys2Proof.Machine.execFaultSwforce m w s
  | .sprStart m w => Sys2Proof.Machine.execSprStart m w s
  | .sprStop m w => Sys2Proof.Machine.execSprStop m w s
  | .sprCommit m w => Sys2Proof.Machine.execSprCommit m w s
  | .sprCoeffComputed t => Sys2Proof.Machine.execSprCoeffComputed t s
  | .sprTick t pos => Sys2Proof.Machine.execSprTick t pos s
  | .sprCompute t => Sys2Proof.Machine.execSprCompute t s
  | .sprSstmo t => Sys2Proof.Machine.execSprSstmo t s
  | .sprTripClear m w => Sys2Proof.Machine.execSprTripClear m w s
  | .sprPhfailClear m w => Sys2Proof.Machine.execSprPhfailClear m w s
  | .adcEnable m w => Sys2Proof.Machine.execAdcEnable m w s
  | .adcTimerExpiry t c => Sys2Proof.Machine.execAdcTimerExpiry t c s
  | .adcInjGo m w => Sys2Proof.Machine.execAdcInjGo m w s
  | .adcResult t c levels vdda => Sys2Proof.Machine.execAdcResult t c levels vdda s
  | .adcStartupDone t c => Sys2Proof.Machine.execAdcStartupDone t c s
  | .adcPowerDown t c => Sys2Proof.Machine.execAdcPowerDown t c s
  | .adcCal m w => Sys2Proof.Machine.execAdcCal m w s
  | .adcCalDone t c ofs gain skews => Sys2Proof.Machine.execAdcCalDone t c ofs gain skews s
  | .adcResloRead m n => Sys2Proof.Machine.execAdcResloRead m n s
  | .adcRouteEnable m n w => Sys2Proof.Machine.execAdcRouteEnable m n w s
  | .windowCrossing t w x => Sys2Proof.Machine.execWindowCrossing t w x s
  | .windowFilterExpiry t w => Sys2Proof.Machine.execWindowFilterExpiry t w s
  | .windowCommit m win w => Sys2Proof.Machine.execWindowCommit m win w s
  | .windowLevelSwitch t w => Sys2Proof.Machine.execWindowLevelSwitch t w s
  | .laneEnable m w => Sys2Proof.Machine.execLaneEnable m w s
  | .laneSignalDetect t l => Sys2Proof.Machine.execLaneSignalDetect t l s
  | .laneSignalLoss t l => Sys2Proof.Machine.execLaneSignalLoss t l s
  | .laneTrainDone t l => Sys2Proof.Machine.execLaneTrainDone t l s
  | .laneLockDone t l => Sys2Proof.Machine.execLaneLockDone t l s
  | .laneStateTimeout t l => Sys2Proof.Machine.execLaneStateTimeout t l s
  | .capsSend t l => Sys2Proof.Machine.execCapsSend t l s
  | .capsFrame t l fr => Sys2Proof.Machine.execCapsFrame t l fr s
  | .laneBlockLockLoss t l => Sys2Proof.Machine.execLaneBlockLockLoss t l s
  | .laneFrameSilence t l => Sys2Proof.Machine.execLaneFrameSilence t l s
  | .laneRetrain m w => Sys2Proof.Machine.execLaneRetrain m w s
  | .laneTxReady t l => Sys2Proof.Machine.execLaneTxReady t l s
  | .idleTimer t l => Sys2Proof.Machine.execIdleTimer t l s
  | .frameRelay t l fr res => Sys2Proof.Machine.execFrameRelay t l fr res s
  | .frameCutShort t l kind relayed => Sys2Proof.Machine.execFrameCutShort t l kind relayed s
  | .cmdFrame t l fr => Sys2Proof.Machine.execCmdFrame t l fr s
  | .timeFrame t l rx fr => Sys2Proof.Machine.execTimeFrame t l rx fr s
  | .trigFrame t l fr => Sys2Proof.Machine.execTrigFrame t l fr s
  | .rackFrame t l fr => Sys2Proof.Machine.execRackFrame t l fr s
  | .xchkFrame t l fr => Sys2Proof.Machine.execXchkFrame t l fr s
  | .rraFrame t l fr cfg => Sys2Proof.Machine.execRraFrame t l fr cfg s
  | .idleFrame t l rx fr => Sys2Proof.Machine.execIdleFrame t l rx fr s
  | .delayRequestTimer t => Sys2Proof.Machine.execDelayRequestTimer t s
  | .echolost t port => Sys2Proof.Machine.execEcholost t port s
  | .cellHoldoverEntry t => Sys2Proof.Machine.execCellHoldoverEntry t s
  | .cellholdExpiry t => Sys2Proof.Machine.execCellholdExpiry t s
  | .timeTriggerEnable m n w => Sys2Proof.Machine.execTimeTriggerEnable m n w s
  | .timeTriggerEffect t n => Sys2Proof.Machine.execTimeTriggerEffect t n s
  | .timeTriggerFire t n => Sys2Proof.Machine.execTimeTriggerFire t n s
  | .timNowRead m => Sys2Proof.Machine.execTimNowRead m s
  | .voteInstant t => Sys2Proof.Machine.execVoteInstant t s
  | .leaseClaim t => Sys2Proof.Machine.execLeaseClaim t s
  | .leaseClaimLapse t => Sys2Proof.Machine.execLeaseClaimLapse t s
  | .leaseExpiry t => Sys2Proof.Machine.execLeaseExpiry t s
  | .cellEpochClear t => Sys2Proof.Machine.execCellEpochClear t s
  | .selfcheckWindowEnd t => Sys2Proof.Machine.execSelfcheckWindowEnd t s
  | .rejoinBillCheck t crc => Sys2Proof.Machine.execRejoinBillCheck t crc s
  | .trigPinEdge t pin rising => Sys2Proof.Machine.execTrigPinEdge t pin rising s
  | .softTrigger m w => Sys2Proof.Machine.execSoftTrigger m w s
  | .captureRearm t => Sys2Proof.Machine.execCaptureRearm t s
  | .trigxPulseEnd t => Sys2Proof.Machine.execTrigxPulseEnd t s
  | .captureFree m w => Sys2Proof.Machine.execCaptureFree m w s
  | .skewCal m w => Sys2Proof.Machine.execSkewCal m w s
  | .skewCalDone t skews => Sys2Proof.Machine.execSkewCalDone t skews s
  | .maskTableLoWrite m w => Sys2Proof.Machine.execMaskTableLoWrite m w s
  | .kilnScanEnd t scan => Sys2Proof.Machine.execKilnScanEnd t scan s
  | .kilnBrokenClear m n w => Sys2Proof.Machine.execKilnBrokenClear m n w s
  | .kilnGroupEnable m g w => Sys2Proof.Machine.execKilnGroupEnable m g w s
  | .scrubWord t mem word straps => Sys2Proof.Machine.execScrubWord t mem word straps s
  | .errorInjectArm m w => Sys2Proof.Machine.execErrorInjectArm m w s
  | .resetPinRelease t => Sys2Proof.Machine.execResetPinRelease t s
  | .vddioBankPower t bank up => Sys2Proof.Machine.execVddioBankPower t bank up s
  | .imageLoadVerifyDone t => Sys2Proof.Machine.execImageLoadVerifyDone t s
  | .scrubPassDeadline t mem => Sys2Proof.Machine.execScrubPassDeadline t mem s
  | .crystalQualifyTimeout t => Sys2Proof.Machine.execCrystalQualifyTimeout t s
  | .laneCodeError t l => Sys2Proof.Machine.execLaneCodeError t l s
  | .prbsCheckerSync t l sync errs => Sys2Proof.Machine.execPrbsCheckerSync t l sync errs s
  | .pdelayRequestTimer t port => Sys2Proof.Machine.execPdelayRequestTimer t port s
  | .extestUpdate t b => Sys2Proof.Machine.execExtestUpdate t b s
  | .dbgcoreHalt t op => Sys2Proof.Machine.execDbgcoreHalt t op s

end Sys2Proof.Machine
end

