-- ==== Sys2Proof/Machine/Balls.lean ====
section
/-! DEFINITION. The balls: their groups, supplies and internal pulls, and the state of each in every phase (R52, R397 to R400,
R402, R404, R409, R410). -/

namespace Sys2Proof.Machine

/-- The signal balls (Table 17.2); a pair is one ball here. -/
inductive Ball where
  | gxP (c : Fin 24) | gxFb (c : Fin 24) | gxDi (c : Fin 24)
  | po (n : Fin 8) | pi (n : Fin 8)
  | trigA | trigB | trigX | flt (n : Fin 4)
  | role | sid1 | sid0 | rstN | hostIrqN
  | hqClk | hqCsN | hqIo (n : Fin 4)
  | fqClk | fqCsN | fqIo (n : Fin 4) | fqRstN
  | tck | tms | tdi | tdo | trstN
  | laneTx (l : Fin 28) | laneRx (l : Fin 28) | lrefclk
  | ain (n : Fin 64) | kts (x : Fin 32)
  deriving DecidableEq, Repr

/-- What supplies a group: a VDDIO bank, VDDA, or the lane supplies. -/
inductive Supply where
  | bank (n : Fin 4) | vdda | lane
  deriving DecidableEq, Repr

/-- What a ball is in (Table 17.3). -/
inductive Pad where
  /-- Without its supply. -/
  | unpowered
  | input | ignored | highZ
  | low | high
  /-- An open-drain ball that the part does not pull low. -/
  | released
  /-- The profile code at GxP1 and GxP0. -/
  | code (c : Nat)
  /-- A di/dt input before the straps, and its comparator. -/
  | analogue | comparator (on : Bool)
  /-- Driven by the QSPI target or the flash controller during its transfers alone. -/
  | transfer
  | idle | sending | terminated
  /-- The pull that ADC_PULL sets. -/
  | pull (code : Nat)
  | bias (on : Bool)
  deriving DecidableEq, Repr

/-- The supply of a ball's group (Table 17.2). -/
def ballSupply : Ball → Supply
  | .gxP c | .gxFb c => if c.val < 12 then .bank 2 else .bank 3
  | .po _ | .pi _ | .trigA | .trigB | .trigX | .flt _ => .bank 1
  | .gxDi _ | .ain _ | .kts _ => .vdda
  | .laneTx _ | .laneRx _ | .lrefclk => .lane
  | _ => .bank 0

/-- The internal pull of a ball, present whenever its bank is powered (Table 17.3): true up. -/
def ballPull : Ball → Option Bool
  | .gxP _ | .po _ | .pi _ | .trigA | .trigB | .tck | .trstN => some false
  | .gxFb _ | .flt _ | .rstN | .hqCsN | .fqCsN | .fqIo _ | .tms | .tdi => some true
  | _ => none

/-- The supply is there: a bank past 0.9 V; the others are monitored rails (R36). -/
def supplied (s : State) : Supply → Bool
  | .bank n => bit s.pins.banks n
  | _ => s.sys.phase != .supplyHold
def ballOn (s : State) (b : Ball) : Bool := supplied s (ballSupply b)

/-- The straps have been fixed since the cold reset, so that the role is known: instant c of Table 2.13 (R52, R399). -/
def roleKnown (s : State) : Bool :=
  ! [Phase.supplyHold, .pinHold, .refWatch, .crystal, .retryWait, .pllLocking, .strapWait].contains s.sys.phase

/-- The PD0 reset has been released: instant d of Table 2.13. -/
def resetOver (s : State) : Bool := roleKnown s && s.sys.phase != .otpLoad

/-- EXTEST or CLAMP drives the boundary outputs from the boundary register; HIGHZ leaves them at high impedance (R409). -/
def scanDrives (s : State) : Bool := s.jtag.ir == .extest || s.jtag.ir == .clamp
def scanOff (s : State) : Bool := s.jtag.ir == .highz

/-- A boundary output: its level from the boundary register, at high impedance, or what the part makes of it. -/
def scanned (s : State) (bnd part : Pad) : Pad := if scanDrives s then bnd else if scanOff s then .highZ else part

/-- The code at the profile balls of channel c: 00 by the pull-downs while the channel's bank has no supply (R399); a fault
group's code comes first, then EXTEST, CLAMP and HIGHZ, where a ball at high impedance reads as 00 (R409, R410). -/
def profileBall (s : State) (c : Nat) : Nat :=
  if !bit s.pins.banks (if c < 12 then 2 else 3) then 0
  else if bit s.flt.forced c then pinCode s c
  else if scanDrives s then s.jtag.bnd.profile.getD c 0 % 4
  else if scanOff s then 0
  else pinCode s c

/-- The levels that the part drives on PO0 to PO7, if it drives them: not while bank 1 has no supply, nor in a cold reset before
the role is known (Table 17.3); EXTEST and CLAMP drive the boundary register (R409); a stack drives its own levels only while
it holds the lease (R26). -/
def poBalls (s : State) : Option Nat :=
  if !bit s.pins.banks 1 then none
  else if scanDrives s then some (s.jtag.bnd.po % 256)
  else if scanOff s || !roleKnown s || (isStack s && !holds s) then none
  else some s.pins.po

def padLevel (b : Bool) : Pad := if b then .high else .low
/-- An open-drain ball. -/
def padDrain (low : Bool) : Pad := if low then .low else .released
/-- Ball n of a group of four, as the boundary register drives it. -/
def padIo (w n : Nat) : Pad := if bit w (n + 4) then padLevel (bit w n) else .highZ

/-- The state of a powered ball (Table 17.3). FQ_CLK and FQ_CS_N are shown between transfers. -/
def padOf (s : State) : Ball → Pad
  | .gxP c => .code (profileBall s c)
  | .gxFb _ | .pi _ | .trigA | .trigB | .role | .sid1 | .sid0 | .rstN | .hqCsN | .tck | .tms | .tdi | .trstN => .input
  | .gxDi c => if !roleKnown s then .analogue else if !resetOver s then .highZ else .comparator (domOn s (instDom .gd c))
  | .po n => match poBalls s with | some w => padLevel (bit w n) | none => .highZ
  | .trigX => scanned s (padDrain (bit s.jtag.bnd.od 0)) (padDrain (resetOver s && s.pins.trigxLow))
  | .flt _ => if resetOver s then .input else .ignored
  | .hostIrqN => scanned s (padDrain (bit s.jtag.bnd.od 1)) (padDrain (resetOver s && !hostIrqN s))
  | .hqClk => if resetOver s then .input else .highZ
  | .hqIo n => scanned s (padIo s.jtag.bnd.hqIo n) (if resetOver s then .transfer else .highZ)
  | .fqClk => scanned s (padLevel (bit s.jtag.bnd.fq 1)) (if resetOver s then .low else .highZ)
  | .fqCsN => scanned s (padLevel (bit s.jtag.bnd.fq 2)) (if resetOver s then .high else .highZ)
  | .fqIo n => scanned s (padIo s.jtag.bnd.fqIo n) (if resetOver s then .transfer else .highZ)
  | .fqRstN => scanned s (padLevel (bit s.jtag.bnd.fq 0)) (padLevel s.pins.fqRstN)
  | .tdo => .highZ
  | .laneTx l => if s.flag LNK_CFG_EN l && domOn s (instDom .lnk l) then .sending else .idle
  | .laneRx _ | .lrefclk => .terminated
  | .ain n => if !roleKnown s then .highZ else .pull (if resetOver s then (if sprOwns s n then 0 else staticPull s n) else 0)
  | .kts x => if !roleKnown s then .highZ else .bias (resetOver s && s.flag KILN_SCFG_EN (12 + x))

/-- The state of a ball; without its supply GxP1 and GxP0 still read as code 00 by their passive pull-downs (R399). -/
def ballState (s : State) (b : Ball) : Pad :=
  if ballOn s b then padOf s b else match b with | .gxP _ => .code 0 | _ => .unpowered

/-- TRIGX and HOST_IRQ_N pulled low by the part, and the flash held in reset (R82, R356, R399, R404). -/
def trigxLow (s : State) : Bool := ballState s .trigX == .low
def hostIrqLow (s : State) : Bool := ballState s .hostIrqN == .low
def flashReset (s : State) : Bool := ballState s .fqRstN == .low

/-- Ball n of a group of four as a capture sees it: driven by the part, or else at the level from outside. -/
def captureIo (s : State) (b : Fin 4 → Ball) (outer : Nat) : Nat :=
  (List.finRange 4).foldl (fun (w : Nat) (n : Fin 4) => putBit w n (match ballState s (b n) with
    | .low => false | .high => true | _ => bit outer n)) 0

/-- What Capture-DR samples of the boundary register under SAMPLE/PRELOAD and EXTEST, without changing any ball (R409);
`outer` holds the levels from outside at balls that the part does not drive and whose level it does not hold. -/
def captureBoundary (s : State) (outer : Boundary) : Boundary where
  profile := (List.range 24).map (profileBall s)
  po := (poBalls s).getD (outer.po % 256)
  od := b2n (trigxLow s || bit outer.od 0) + 2 * b2n (hostIrqLow s || bit outer.od 1)
  fq := (outer.fq / 8 * 8 + b2n (!flashReset s && bit s.pins.banks 0)
    + 2 * b2n (match ballState s .fqClk with | .low => false | .high => true | _ => bit outer.fq 1)
    + 4 * b2n (match ballState s .fqCsN with | .low => false | .high => true | _ => true)) % 8
  hqIo := captureIo s .hqIo outer.hqIo
  fqIo := captureIo s .fqIo outer.fqIo
  ins := s.pins.gfb % 2 ^ 24 + s.pins.pi % 256 * 2 ^ 24 + s.flt.pin % 16 * 2 ^ 32 + b2n s.pins.straps.role * 2 ^ 36
    + b2n s.pins.straps.sid1 * 2 ^ 37 + b2n s.pins.straps.sid0 * 2 ^ 38 + b2n s.pins.rstN * 2 ^ 39
    + outer.ins / 2 ^ 40 % 256 * 2 ^ 40

end Sys2Proof.Machine
end

