-- ==== Sys2Proof/WellFormed.lean ====
section
/-! DEFINITION. Well-formed commands: the operands that the wire, the bus or the balls can carry (Table 11.1, R265 to
R278, R67, R84, R86, R409). -/

namespace Sys2Proof

/-- Every number is a byte; every number is a 32-bit word. -/
def bytesWf (l : List Nat) : Bool := l.all (fun b => decide (b < 256))
def wordsWf (l : List Nat) : Bool := l.all (fun w => decide (w < 2 ^ 32))

/-- A frame header's fields fit their widths (Table 11.1). -/
def Hdr.wf (h : Hdr) : Bool :=
  decide (h.ty < 16) && decide (h.sid < 4) && decide (h.chain < 32) && decide (h.pos < 8) && decide (h.hop < 16)
    && decide (h.len ≤ 2048) && decide (h.cycle < 2 ^ 32) && decide (h.epoch < 2 ^ 32) && decide (h.seq < 65536)
    && decide (h.xflags < 65536)

/-- An update's fields fit their widths (R271, Table 11.3). -/
def Update.wf (u : Update) : Bool :=
  decide (u.point < 2 ^ 18) && wordsWf [u.lo, u.hi, u.tag]

/-- A RACK record's fields fit their widths (Table 11.3). -/
def RackRec.wf : RackRec → Bool
  | .points l => l.all Update.wf
  | .lease h _ _ t e x => decide (h < 4) && decide (t < 4) && wordsWf [e, x]
  | .command src mbx seq op len ap _ off bs =>
    decide (src < 16) && decide (mbx < 8) && decide (seq < 65536) && decide (op < 65536) && decide (len ≤ 4096)
      && decide (ap < 2 ^ 32) && decide (off < 8192) && bytesWf bs
  | .ack src mbx seq st => decide (src < 16) && decide (mbx < 8) && decide (seq < 65536) && decide (st < 65536)
  | .unknown k _ => decide (k < 256)
  | .overrun => true

/-- A payload's fields fit their widths (R270 to R278). -/
def Body.wf : Body → Bool
  | .idle a b => wordsWf [a, b]
  | .cmd ws => wordsWf ws
  | .tel b n st ca ap v f us =>
    decide (b < 8) && decide (n < 128) && decide (st < 256) && decide (ca < 256) && wordsWf [ap, v, f] && us.all Update.wf
  | .time _ _ c ts => decide (c < 2 ^ 32) && decide (ts < 2 ^ 32)
  | .trig _ c _ _ => decide (c < 256)
  | .rack rs => rs.all RackRec.wf
  | .xchk ws => wordsWf ws
  | .rra op m _ n st a b bs =>
    decide (op < 16) && decide (m < 8) && decide (n < 256) && decide (st < 65536) && wordsWf [a, b] && bytesWf bs
  | .caps _ _ _ _ _ _ _ _ l => decide (l < 28)
  | .other => true

def Frame.wf (f : Frame) : Bool := f.hdr.wf && f.body.wf

/-- The boundary register holds one two-bit code for each of 24 channels, and its other groups fit their balls (R409). -/
def Boundary.wf (b : Boundary) : Bool :=
  b.profile.length == 24 && b.profile.all (fun c => decide (c < 4)) && decide (b.po < 256) && decide (b.od < 4)
    && decide (b.fq < 8) && decide (b.hqIo < 256) && decide (b.fqIo < 256) && decide (b.ins < 2 ^ 48)

/-- A scan's sensor is one of the 44 of Chapter 15, each at most once. -/
def scanWf (l : List Scan) : Bool :=
  l.all (fun x => decide (x.sensor < 44) && decide (x.raw < 65536)) && decide ((l.map Scan.sensor).Nodup)

/-- A command's operands are ones that its source can carry. -/
def Instr.wf : Instr → Bool
  | .registerWrite _ a n _ => decide (a < 2 ^ 32) && (n == 1 || n == 2 || n == 4)
  | .pointWord0Read _ k | .pointWord1Write _ k _ | .pointWord0Write _ k _ => decide (k < 2 ^ 18)
  | .mailboxDatagram _ _ _ _ _ d => bytesWf d && decide (d.length < 65536)
  | .ipv4Fragment _ _ _ _ _ h off last bs =>
    decide (20 ≤ h) && decide (h ≤ 60) && off % 8 == 0 && decide (off < 65536) && bytesWf bs
      && (last || bs.length % 8 == 0)
  | .icmpEcho _ _ _ _ d => bytesWf d
  | .extestUpdate _ b => b.wf
  | .telFrame _ _ f | .capsFrame _ _ f | .frameRelay _ _ f _ | .cmdFrame _ _ f | .timeFrame _ _ _ f | .trigFrame _ _ f
  | .rackFrame _ _ f | .xchkFrame _ _ f | .rraFrame _ _ f _ | .idleFrame _ _ _ f => f.wf
  | .kilnScanEnd _ l => scanWf l
  | .mainTaskEnd _ g => wordsWf g
  | .cellCycle _ x => wordsWf [x.vdcMv, x.vdcLv, x.vbat, x.ibat, x.edc]
  | _ => true

end Sys2Proof
end

