-- ==== Sys2Proof/Safety.lean ====
section
/-! DEFINITION. What the statements say of a run: the block answers, the memory keeps its form (R37), and an access is
carried out (R4, R12, R67, R90, R93). -/

namespace Sys2Proof.Machine

/-- The outcome is a next state with a property. -/
def Answers (o : Host.Outcome State Fault Refusal) (P : State → Prop) : Prop := ∃ t, o = .next t ∧ P t

/-- The addressed memory keeps its one canonical form: addresses rising, no byte listed that an unlisted one reads as. -/
def State.memOk (s : State) : Prop := memWf s.mem = true

/-- The waiting commands are well formed. -/
def State.queueOk (s : State) : Prop := s.pending.all Instr.wf = true

/-- A write of a full word passes every check that comes before the register itself (R12, R67, R90). `c`: it
commits. -/
def State.MayWrite (s : State) (m a w : Nat) (c : Bool) : Prop :=
  (blkOf a).isSome = true ∧ writeStatus s m a 4 w c true = .ok

/-- A read of a full word passes every check. -/
def State.MayRead (s : State) (m a : Nat) : Prop := (blkOf a).isSome = true ∧ readStatus s m a 4 = .ok

/-- The state `r` that a write carried out leads to, with its journal entry where the region is journaled (R93). -/
def State.noted (s : State) (m a w : Nat) (r : State) : State :=
  if m ≤ 6 && journaled s a then jnlAdd r m 0 0 a (jnlOld s m a) w else r

/-- The same of a write that the register itself refuses with the status `st`: `r` is the state with the refusal
recorded. -/
def State.notedBad (s : State) (m a w : Nat) (st : Status) (r : State) : State :=
  if m ≤ 6 && journaled s a then jnlAdd r m 1 st.code a (jnlOld s m a) w else r

/-- Two states whose registers differ in the listed field instances alone. -/
def State.SameRegsBut (s t : State) (l : List (Fld × Nat)) : Prop :=
  ∀ (G : Fld) (j : Nat), (∀ e ∈ l, G.key j ≠ e.1.key e.2) → t.fget G j = s.fget G j

/-- Every byte of the addressed memory reads as before. -/
def State.SameMem (s t : State) : Prop := ∀ a, t.byte a = s.byte a

/-- The command in mailbox `k` is RUNNING with opcode `op`, is served now and waits for nothing (R72, R74). -/
def State.Runs (s : State) (k op : Nat) : Prop :=
  s.fget MBX_STAT_STATE k = 2 ∧ opOf s k = op ∧ servedNow s k = true ∧ waits s k = false

/-- It passes every check of R12. -/
def State.Serves (s : State) (k op : Nat) : Prop := s.Runs k op ∧ cmdStatus s k = .ok

/-- It fails one. -/
def State.Refuses (s : State) (k op : Nat) : Prop := s.Runs k op ∧ cmdStatus s k ≠ .ok

end Sys2Proof.Machine
end

