-- ==== Sys2Proof/Certificates/Slice0/Obligations.lean ====
section
/-! DEFINITION. The statements for the provers, in the order of OBLIGATIONS.json. A number of an assumption names the
row notes/assumptions/<n>.md of a choice of the model that the statement rests on. -/

open Sys2Proof Sys2Proof.Machine

/-! ### The block as a whole -/

/-- For every command c and state s, a step of s with c in front of its queue is exec of c on s with the queue's rest.
On an empty queue a step answers the state as it is. The queue is the model's choice (assumption 2, a DESIGN CHOICE).
-/
def Obligations.StepRunsTheFrontCommand : Prop :=
  (∀ (s : State) (c : Instr) (rest : List Instr), s.pending = c :: rest → step s = exec c { s with pending := rest }) ∧
  (∀ s : State, s.pending = [] → step s = .next s)

/-- For every command and every state, exec answers a next state. An access is always answered (R66, R67); that an
event outside its condition moves the clock alone is the model's choice (assumption 1). -/
def Obligations.EveryCommandAnswers : Prop :=
  ∀ (i : Instr) (s : State), ∃ t, exec i s = .next t

/-- At power-on the block is held in reset with cause POR (R36, R50, R54): every other register reads its On reset
value and is effective at it, the journal holds the reset's entry (R93), every memory byte reads 0 (R37), no command
waits. Rests on the model's choices of assumptions 3, 5, 7, 15, 45. -/
def Obligations.PowerOnState : Prop :=
  (∀ (F : Fld) (i : Nat), keyAddr (F.key i) ∉ [0x10, 0x20020, 0x20024] → State.reset.fget F i = F.resetAt i) ∧
  (∀ (F : Fld) (i : Nat), State.reset.eget F i = F.resetAt i) ∧
  (∀ x : RstSrc, State.reset.fget (srcFld x) = if x = .por then 1 else 0) ∧
  State.reset.fget SYS_RSTCAUSE_LAST = 0 ∧ State.reset.fget SYS_RSTCAUSE_SYSCNT = 0 ∧
  State.reset.fget ACC_JNLHEAD_HEAD = 1 ∧ State.reset.fget ACC_JNLCNT_UNREAD = 1 ∧
  (∀ a, State.reset.byte a = 0#8) ∧ State.reset.memOk ∧ State.reset.pending = [] ∧
  State.reset.sys.phase = .supplyHold ∧ State.reset.clk = 0

/-! ### Supplies, reference, straps and resets (R36, R39, R46 to R54, R77) -/

/-- What starts the block: the supply monitors, the reset pin, the supply of the IO banks, and the search for a
reference (R36, R39, R46, R48, R50). An event that its phase does not wait for moves the elapsed clock alone. The
reference is lost and returns (R47): HOLD and LOCK in CLK_STAT, LOSSCNT, and the fault source CLKLOSS. Rests on the
model's choices of assumptions 1, 5. -/
def Obligations.SupplyPinAndReferenceEvents : Prop :=
  (∀ (t : Time) (s : State), s.sys.phase = .supplyHold →
    exec (.supplyRelease t) s = .next { s.at t with
      sys.phase := if s.pins.rstN then .refWatch else .pinHold, sys.since := max s.clk t }) ∧
  (∀ (t : Time) (s : State), s.sys.phase ≠ .supplyHold → exec (.supplyRelease t) s = .next (s.at t)) ∧
  (∀ (t : Time) (also : List RstSrc) (s : State), s.sys.phase ≠ .supplyHold →
    exec (.brownOut t also) s = .next (coldReset (s.at t) (.bor :: also) .supplyHold)) ∧
  (∀ (t : Time) (also : List RstSrc) (s : State), s.sys.phase = .supplyHold →
    exec (.brownOut t also) s = .next (s.at t)) ∧
  (∀ (t : Time) (also : List RstSrc) (s : State), s.sys.phase ≠ .supplyHold →
    exec (.pinReset t also) s = .next (coldReset { s.at t with pins.rstN := false } (.pin :: also) .pinHold)) ∧
  (∀ (t : Time) (also : List RstSrc) (s : State), s.sys.phase = .supplyHold →
    exec (.pinReset t also) s = .next { s.at t with pins.rstN := false }) ∧
  (∀ (t : Time) (s : State), s.sys.phase = .pinHold →
    exec (.resetPinRelease t) s = .next { s.at t with
      pins.rstN := true, sys.phase := .refWatch, sys.since := max s.clk t }) ∧
  (∀ (t : Time) (s : State), s.sys.phase ≠ .pinHold →
    exec (.resetPinRelease t) s = .next { s.at t with pins.rstN := true }) ∧
  (∀ (t : Time) (bank : Fin 4) (up : Bool) (s : State),
    exec (.vddioBankPower t bank up) s = .next { s.at t with pins.banks := putBit s.pins.banks bank up }) ∧
  (∀ (t : Time) (s : State), s.sys.phase = .refWatch → s.sys.since + 100 * usT ≤ max s.clk t →
    exec (.lrefclkWatchEnd t true) s = .next { (s.at t).fset CLK_STAT_SRC 0 1 with sys.phase := .pllLocking } ∧
    exec (.lrefclkWatchEnd t false) s = .next { s.at t with sys.phase := .crystal }) ∧
  (∀ (t : Time) (q : Bool) (s : State), s.sys.phase ≠ .refWatch ∨ max s.clk t < s.sys.since + 100 * usT →
    exec (.lrefclkWatchEnd t q) s = .next (s.at t)) ∧
  (∀ (t : Time) (s : State), s.sys.phase = .crystal →
    (max s.clk t ≤ s.sys.since + 5100 * usT → exec (.crystalQualified t) s =
      .next { (s.at t).fset CLK_STAT_SRC 0 0 with sys.phase := .pllLocking }) ∧
    (s.sys.since + 5100 * usT ≤ max s.clk t →
      exec (.crystalQualifyTimeout t) s = .next { s.at t with sys.phase := .retryWait })) ∧
  (∀ (t : Time) (s : State), s.sys.phase = .crystal →
    (s.sys.since + 5100 * usT < max s.clk t → exec (.crystalQualified t) s = .next (s.at t)) ∧
    (max s.clk t < s.sys.since + 5100 * usT → exec (.crystalQualifyTimeout t) s = .next (s.at t))) ∧
  (∀ (t : Time) (s : State), s.sys.phase ≠ .crystal →
    exec (.crystalQualified t) s = .next (s.at t) ∧ exec (.crystalQualifyTimeout t) s = .next (s.at t)) ∧
  (∀ (t : Time) (s : State), s.sys.phase = .retryWait → s.sys.since + 10 * msT ≤ max s.clk t →
    exec (.referenceRetry t) s = .next { s.at t with sys.phase := .refWatch, sys.since := max s.clk t }) ∧
  (∀ (t : Time) (s : State), s.sys.phase ≠ .retryWait ∨ max s.clk t < s.sys.since + 10 * msT →
    exec (.referenceRetry t) s = .next (s.at t)) ∧
  (∀ (t : Time) (s : State), s.fget CLK_STAT_LOCK = 1 → s.sys.lostAt = none →
    exec (.referenceLoss t) s = .next (srcAssert { (s.at t).fsets [(CLK_STAT_HOLD, 0, 1), (CLK_STAT_LOCK, 0, 0)] with
      sys.lostAt := some (max s.clk t) } SRC_CLKLOSS)) ∧
  (∀ (t : Time) (s : State), s.fget CLK_STAT_LOCK ≠ 1 ∨ s.sys.lostAt ≠ none →
    exec (.referenceLoss t) s = .next (s.at t)) ∧
  (∀ (t : Time) (s : State) (l : Time), s.sys.lostAt = some l → max s.clk t < l + 100 * usT →
    exec (.referenceReturn t) s = .next (srcRelease { (s.at t).fsets [(CLK_STAT_HOLD, 0, 0), (CLK_STAT_LOCK, 0, 1),
      (CLK_STAT_LOSSCNT, 0, min (s.fget CLK_STAT_LOSSCNT + 1) 255)] with sys.lostAt := none } SRC_CLKLOSS)) ∧
  (∀ (t : Time) (s : State), (∀ l, s.sys.lostAt = some l → l + 100 * usT ≤ max s.clk t) →
    exec (.referenceReturn t) s = .next (s.at t))

/-- The straps are taken when three samples agree, at lock and at each later sampling, and fix role, stack identity and
SID_BAD (R1, R2, R29, R53). While they disagree the block waits. Rests on the model's choices of assumptions 3, 5. -/
def Obligations.StrapsAreSampled : Prop :=
  (∀ (t : Time) (p : Straps) (s : State), s.sys.phase = .pllLocking →
    Answers (exec (.pllLock t p p p) s) (fun u =>
      u.sys.phase = .otpLoad ∧ u.fget CLK_STAT_LOCK = 1 ∧ u.fget SYS_STRAP_ROLE = b2n p.role ∧
      u.fget SYS_STRAP_SID = 2 * b2n p.sid1 + b2n p.sid0 ∧
      u.fget SYS_STRAP_SID_BAD = b2n (p.role && p.sid1 && p.sid0) ∧ u.pins.straps = p ∧ s.SameMem u ∧
      s.SameRegsBut u [(CLK_STAT_LOCK, 0), (SYS_STRAP_ROLE, 0), (SYS_STRAP_SID, 0), (SYS_STRAP_SID_BAD, 0),
        (VOTE_LEASE_OWN, 0), (TIM_CFG_SRC, 0), (TIM_CFG_PORT, 0), (TIM_SERVO_BW, 0), (TIM_LOCKCFG_LOCKTH, 0)])) ∧
  (∀ (t : Time) (p : Straps) (s : State), s.sys.phase = .strapWait → s.sys.since + msT ≤ max s.clk t →
    Answers (exec (.strapResample t p p p) s) (fun u =>
      u.sys.phase = .otpLoad ∧ u.fget SYS_STRAP_ROLE = b2n p.role ∧
      u.fget SYS_STRAP_SID = 2 * b2n p.sid1 + b2n p.sid0 ∧
      u.fget SYS_STRAP_SID_BAD = b2n (p.role && p.sid1 && p.sid0) ∧ u.pins.straps = p ∧ s.SameMem u ∧
      s.SameRegsBut u [(SYS_STRAP_ROLE, 0), (SYS_STRAP_SID, 0), (SYS_STRAP_SID_BAD, 0),
        (VOTE_LEASE_OWN, 0), (TIM_CFG_SRC, 0), (TIM_CFG_PORT, 0), (TIM_SERVO_BW, 0), (TIM_LOCKCFG_LOCKTH, 0)])) ∧
  (∀ (t : Time) (a b c : Straps) (s : State), (a ≠ b ∨ b ≠ c) →
    (s.sys.phase = .pllLocking → exec (.pllLock t a b c) s =
      .next { (s.at t).fset CLK_STAT_LOCK 0 1 with
        pins.straps := c, sys.phase := .strapWait, sys.since := max s.clk t }) ∧
    (s.sys.phase = .strapWait → s.sys.since + msT ≤ max s.clk t → exec (.strapResample t a b c) s =
      .next { s.at t with pins.straps := c, sys.phase := .strapWait, sys.since := max s.clk t })) ∧
  (∀ (t : Time) (a b c : Straps) (s : State),
    (s.sys.phase ≠ .pllLocking → exec (.pllLock t a b c) s = .next (s.at t)) ∧
    (s.sys.phase ≠ .strapWait ∨ max s.clk t < s.sys.since + msT → exec (.strapResample t a b c) s = .next (s.at t)))

/-- Every source of Table 2.10 takes the reset of its scope: the loss of the reference after its hold, the watchdog, a
lockstep error, the debug port's reset (only while debug is unlocked), SYS_RSTCTL with its key (COLD before SYS), and
the RESET command when it fires (R47, R50, R54, R77). Rests on the model's choices of assumptions 1, 15. -/
def Obligations.ResetsAreTaken : Prop :=
  (∀ (t : Time) (also : List RstSrc) (s : State) (l : Time), s.sys.lostAt = some l → l + 100 * usT ≤ max s.clk t →
    exec (.referenceHoldExpiry t also) s = .next (coldReset (s.at t) (.clkloss :: also) .refWatch)) ∧
  (∀ (t : Time) (also : List RstSrc) (s : State), (∀ l, s.sys.lostAt = some l → max s.clk t < l + 100 * usT) →
    exec (.referenceHoldExpiry t also) s = .next (s.at t)) ∧
  (∀ (t : Time) (also : List RstSrc) (p : Straps) (s : State), running s = true → s.sys.halted = false →
    exec (.watchdogExpiry t also p) s = .next (systemReset (s.at t) (.wdog :: also) p)) ∧
  (∀ (t : Time) (also : List RstSrc) (p : Straps) (s : State), running s = false ∨ s.sys.halted = true →
    exec (.watchdogExpiry t also p) s = .next (s.at t)) ∧
  (∀ (t : Time) (also : List RstSrc) (p : Straps) (s : State), running s = true →
    exec (.lockstepError t also p) s = .next (systemReset (s.at t) (.lockstep :: also) p)) ∧
  (∀ (t : Time) (also : List RstSrc) (p : Straps) (s : State), running s = false →
    exec (.lockstepError t also p) s = .next (s.at t)) ∧
  (∀ (t : Time) (also : List RstSrc) (p : Straps) (s : State), running s = true → s.fget SEC_STAT_UNLOCKED = 1 →
    exec (.debugReset t also p) s = .next (systemReset (s.at t) (.debug :: also) p)) ∧
  (∀ (t : Time) (also : List RstSrc) (p : Straps) (s : State), running s = false ∨ s.fget SEC_STAT_UNLOCKED ≠ 1 →
    exec (.debugReset t also p) s = .next (s.at t)) ∧
  (∀ (m : Master) (w : Word) (also : List RstSrc) (p : Straps) (s : State), s.MayWrite m 0x14 w.toNat false →
    w.toNat / 65536 = 0xA55A → bit w.toNat 1 = false → bit w.toNat 0 = true →
    exec (.sysResetRequest m w also p) s =
      .next (systemReset (s.noted m 0x14 w.toNat (countRsvd s m 0x14 w.toNat)) (.swsys :: also) p)) ∧
  (∀ (m : Master) (w : Word) (also : List RstSrc) (p : Straps) (s : State), s.MayWrite m 0x14 w.toNat false →
    w.toNat / 65536 ≠ 0xA55A ∨ (bit w.toNat 1 = false ∧ bit w.toNat 0 = false) →
    exec (.sysResetRequest m w also p) s = .next (s.noted m 0x14 w.toNat (countRsvd s m 0x14 w.toNat)) ∧
    exec (.coldResetRequest m w also) s = .next (s.noted m 0x14 w.toNat (countRsvd s m 0x14 w.toNat))) ∧
  (∀ (m : Master) (w : Word) (also : List RstSrc) (s : State), s.MayWrite m 0x14 w.toNat false →
    w.toNat / 65536 = 0xA55A →
    let u := s.noted m 0x14 w.toNat (countRsvd s m 0x14 w.toNat)
    let r := coldReset u (.pin :: ((if bit w.toNat 0 = true then [.swsys] else []) ++ also)) .refWatch
    (bit w.toNat 1 = true → exec (.coldResetRequest m w also) s = .next r ∧
      ∀ p : Straps, exec (.sysResetRequest m w also p) s = .next r) ∧
    (bit w.toNat 1 = false → bit w.toNat 0 = true →
      let v := (drawFree s).2
      ∃ p : Straps, exec (.coldResetRequest m w also) s =
        .next (systemReset (v.noted m 0x14 w.toNat (countRsvd v m 0x14 w.toNat)) (.swsys :: also) p))) ∧
  (∀ (t : Time) (p : Straps) (s : State), max s.clk t < s.sys.resetAt →
    exec (.mailboxResetFire t p) s = .next (s.at t)) ∧
  (∀ (t : Time) (p : Straps) (s : State), s.sys.resetAt ≤ max s.clk t →
    (s.sys.resetPend = some true → exec (.mailboxResetFire t p) s = .next (coldReset (s.at t) [.pin] .refWatch)) ∧
    (s.sys.resetPend = some false → exec (.mailboxResetFire t p) s = .next (systemReset (s.at t) [.swsys] p)) ∧
    (s.sys.resetPend = none → exec (.mailboxResetFire t p) s = .next (s.at t)))

/-- A cold reset puts every register but SYS_RSTCAUSE and the journal's pointers back to its reset value, clears the
memories, and leaves one journal entry; the flash, the OTP, the waiting commands and the elapsed clock stand outside it
(R50, R54, R93). Rests on the model's choices of assumptions 3, 7, 15. -/
def Obligations.ColdResetClears : Prop :=
  ∀ (s : State) (srcs : List RstSrc) (ph : Phase),
    (∀ (F : Fld) (i : Nat), keyAddr (F.key i) ∉ [0x10, 0x20020, 0x20024] →
      (coldReset s srcs ph).fget F i = F.resetAt i ∧ (coldReset s srcs ph).eget F i = F.resetAt i) ∧
    (∀ a, (coldReset s srcs ph).byte a = 0#8) ∧
    (∀ x : RstSrc, (coldReset s srcs ph).fget (srcFld x) = if x ∈ srcs then 1 else 0) ∧
    (coldReset s srcs ph).fget SYS_RSTCAUSE_LAST = lastSrc srcs % 16 ∧
    (coldReset s srcs ph).fget SYS_RSTCAUSE_SYSCNT = 0 ∧
    (coldReset s srcs ph).fget ACC_JNLHEAD_HEAD = 1 ∧ (coldReset s srcs ph).fget ACC_JNLCNT_UNREAD = 1 ∧
    (coldReset s srcs ph).sys.phase = ph ∧ (coldReset s srcs ph).flash = s.flash ∧
    (coldReset s srcs ph).sec.otp = s.sec.otp ∧ (coldReset s srcs ph).pending = s.pending ∧
    (coldReset s srcs ph).clk = s.clk

/-- A system reset whose straps match and that no cold source joins keeps the registers that R50 names, the lane quads,
the flash, the OTP, the TAP and the queue, puts every other register back to its reset value and clears the memories;
it sets the bits of its own sources and clears no other. A difference of the straps makes it a cold reset with STRAPCHG
among its causes. What R50 does not name is placed by assumption 15. -/
def Obligations.SystemResetKeepsItsPart : Prop :=
  (∀ (s : State) (srcs : List RstSrc) (p : Straps), srcs.any srcCold = false →
    strapsMatch { s with pins.straps := p } p = true →
    (∀ (F : Fld) (i : Nat), keyAddr (F.key i) ∉ [0x10, 0x20020, 0x20024, 0x30000, 0x30004, 0x30008] →
      (systemReset s srcs p).fget F i = if sysKeeps (F.key i) then s.fget F i else F.resetAt i) ∧
    (∀ a, (systemReset s srcs p).byte a = 0#8) ∧
    (∀ x : RstSrc, (systemReset s srcs p).fget (srcFld x) = if x ∈ srcs then 1 else s.fget (srcFld x)) ∧
    (systemReset s srcs p).sys.phase = .selfTest ∧ (systemReset s srcs p).lanes = s.lanes ∧
    (systemReset s srcs p).flash = s.flash ∧ (systemReset s srcs p).sec.otp = s.sec.otp ∧
    (systemReset s srcs p).jtag = s.jtag ∧ (systemReset s srcs p).pending = s.pending) ∧
  (∀ (s : State) (srcs : List RstSrc) (p : Straps), srcs.any srcCold = false →
    strapsMatch { s with pins.straps := p } p = false →
    systemReset s srcs p = coldReset { s with pins.straps := p } (srcs ++ [.strapchg]) .refWatch)

/-- Two sources in one PD0 clock (R51): with a cold source among them the reset is the cold one; every source that
fired sets its bit; LAST is the source of the broadest scope, and among those of one scope the lowest code. -/
def Obligations.SourcesOfOneClockAreJoined : Prop :=
  (∀ (s : State) (srcs : List RstSrc) (p : Straps), srcs.any srcCold = true →
    systemReset s srcs p = coldReset { s with pins.straps := p } srcs .refWatch) ∧
  (∀ (s : State) (srcs : List RstSrc) (ph : Phase), srcs ≠ [] →
    (∀ x ∈ srcs, (coldReset s srcs ph).fget (srcFld x) = 1) ∧
    ∃ x ∈ srcs, (coldReset s srcs ph).fget SYS_RSTCAUSE_LAST = srcCode x ∧
      (∀ y ∈ srcs, srcCold y = true → srcCold x = true) ∧
      (∀ y ∈ srcs, srcCold y = srcCold x → srcCode x ≤ srcCode y)) ∧
  (∀ (s : State) (srcs : List RstSrc) (p : Straps), srcs ≠ [] → srcs.any srcCold = false →
    strapsMatch { s with pins.straps := p } p = true →
    (∀ x ∈ srcs, (systemReset s srcs p).fget (srcFld x) = 1) ∧
    ∃ x ∈ srcs, (systemReset s srcs p).fget SYS_RSTCAUSE_LAST = srcCode x ∧
      (∀ y ∈ srcs, srcCode x ≤ srcCode y))

/-! ### Power domains, boot, memory code and debug (R37 to R63, R378 to R382, R391 to R394, R409, R410) -/

/-- A write of PWR_DOMCTL that passes the access checks is judged one domain at a time (R41). A request to switch on is
rejected with NOT_IN_ROLE where the role does not use the domain and with ABSENT_UNIT where it is retired; a request to
switch off a domain that the role uses is rejected with CONFLICT while the device is in service. An accepted bit takes
effect, a rejected bit keeps its value, PWR_ERR records the lowest-numbered rejection with its status, and further ones
set MULTI. Nothing else changes but DOMBUSY, the count of reserved bits and the journal. -/
def Obligations.DomainRequestsAreJudgedAlone : Prop :=
  ∀ (m : Master) (w : Word) (s : State), s.MayWrite m 0x30000 w.toNat false →
    let rej (d : Nat) (st : Status) : Prop := 1 ≤ d ∧ d ≤ 16 ∧ bit w.toNat d ≠ domReq s d ∧
      ((bit w.toNat d = true ∧ roleUses s d = false ∧ st = .notInRole) ∨
       (bit w.toNat d = true ∧ roleUses s d = true ∧ domRetired s d = true ∧ st = .absentUnit) ∨
       (bit w.toNat d = false ∧ roleUses s d = true ∧ inService s = true ∧ st = .conflict))
    Answers (exec (.pwrDomctlWrite m w) s) (fun u =>
      (∀ d, 1 ≤ d → d ≤ 16 → (∀ st, ¬ rej d st) → domReq u d = bit w.toNat d) ∧
      (∀ d st, rej d st → domReq u d = domReq s d ∧ u.fget PWR_ERR_VALID = 1 ∧
        (s.fget PWR_ERR_VALID = 0 → (∀ e x, rej e x → d ≤ e) →
          u.fget PWR_ERR_DOM = d ∧ u.fget PWR_ERR_STATUS = st.code) ∧
        (s.fget PWR_ERR_VALID = 1 ∨ (∃ e x, rej e x ∧ e ≠ d) → u.fget PWR_ERR_MULTI = 1)) ∧
      ((∀ d st, ¬ rej d st) → u.fget PWR_ERR_VALID = s.fget PWR_ERR_VALID ∧
        u.fget PWR_ERR_MULTI = s.fget PWR_ERR_MULTI) ∧ s.SameMem u ∧
      s.SameRegsBut u [(PWR_DOMCTL_REQ, 0), (PWR_DOMBUSY_BUSY, 0), (PWR_ERR_VALID, 0), (PWR_ERR_MULTI, 0),
        (PWR_ERR_DOM, 0), (PWR_ERR_STATUS, 0), (SYS_ERRCNT_RSVD, 0), (ACC_JNLHEAD_HEAD, 0), (ACC_JNLCNT_LOST, 0),
        (ACC_JNLCNT_UNREAD, 0), (SEC_EINJ_ARM, 0)])

/-- Power transitions end (R37 to R39, R383): a domain switched on starts from reset and reports ON (said of every
domain but PD7, which takes its fault pins at the same time); one switched off reports OFF; a first self-test sets
SEC_BISTDONE, and a domain that fails it is retired and its request dropped. Rests on the model's choices of
assumptions 1, 41, 50. -/
def Obligations.DomainTransitionsEnd : Prop :=
  (∀ (t : Time) (d : Dom) (s : State), s.sys.domBusy = some (d.val, true) → d.val ≠ 0 →
    (bit (domainOn (s.at t) d).sys.testing d = true → exec (.domainOnComplete t d) s = .next (domainOn (s.at t) d)) ∧
    (bit (domainOn (s.at t) d).sys.testing d = false →
      exec (.domainOnComplete t d) s = .next (domReady (domainOn (s.at t) d) d)) ∧
    (d.val ≠ 7 → bit ((domainOn (s.at t) d).fget PWR_DOMSTAT_ON) d = true)) ∧
  (∀ (t : Time) (d : Dom) (s : State), s.sys.domBusy ≠ some (d.val, true) →
    exec (.domainOnComplete t d) s = .next (s.at t)) ∧
  (∀ (t : Time) (d : Dom) (s : State), s.sys.domBusy = some (d.val, false) →
    exec (.domainOffComplete t d) s = .next (serveDomains
      (let u := domClear (lanesDown (s.at t) d) d
       let v := u.fset PWR_DOMSTAT_ON 0 (putBit (u.fget PWR_DOMSTAT_ON) d false)
       let w := if 10 ≤ d.val then linkStatus v else v
       { w with sys.domBusy := none, sys.testing := putBit w.sys.testing d false }))) ∧
  (∀ (t : Time) (d : Dom) (s : State), s.sys.domBusy ≠ some (d.val, false) →
    exec (.domainOffComplete t d) s = .next (s.at t)) ∧
  (∀ (t : Time) (d : Dom) (s : State), bit s.sys.testing d = true → domRetired s d = false →
    exec (.domainSelftestDone t d true []) s = .next (domReady
      { (s.at t).fset SEC_BISTDONE_DONE 0 (putBit (s.fget SEC_BISTDONE_DONE) d true) with
        sys.testing := putBit s.sys.testing d false } d)) ∧
  (∀ (t : Time) (d : Dom) (s : State), bit s.sys.testing d = true → d.val ≠ 0 →
    let u := serveDomains ({ s.at t with sys.testing := putBit s.sys.testing d false }.fsets
      [(SEC_BISTDONE_DONE, 0, putBit (s.fget SEC_BISTDONE_DONE) d true),
       (SYS_RETIRED_RETIRED, 0, putBit (s.fget SYS_RETIRED_RETIRED) d true),
       (PWR_DOMCTL_REQ, 0, putBit (s.fget PWR_DOMCTL_REQ) (d - 1) false)])
    exec (.domainSelftestDone t d false []) s = .next (leaveBoot u)) ∧
  (∀ u : State,
    (devState u ≠ ST_BOOT ∨ u.sys.phase ≠ .firmware ∨ cfgInForce u = false ∨ usesUntested u = true → leaveBoot u = u) ∧
    (devState u = ST_BOOT → u.sys.phase = .firmware → cfgInForce u = true → usesUntested u = false →
      (usesRetired u = true → leaveBoot u = setCause u CA_CONFIG) ∧
      (usesRetired u = false → leaveBoot u = if isStack u = true then beginEnum u CA_NONE else tryJoin u))) ∧
  (∀ (t : Time) (d : Dom) (pass : Bool) (failed : List Nat) (s : State), bit s.sys.testing d = false →
    exec (.domainSelftestDone t d pass failed) s = .next (s.at t)) ∧
  (∀ (t : Time) (d : Dom) (diff : Int) (s : State), domOn s d = true →
    (d.val = 3 ∨ (5 ≤ d.val ∧ d.val ≤ 8) ∨ 10 ≤ d.val) → smGet 0 s.sys.replAt d + msT ≤ max s.clk t →
    exec (.replicaCheck t d diff) s = .next (replicaJudge
      { s.at t with sys.replAt := smSet 0 s.sys.replAt d (max s.clk t) } d (smGet 0 s.sys.repl d + diff))) ∧
  (∀ (d : Nat) (off : Int) (u : State),
    (off.natAbs * 1000 ≤ 50 * 65536 → replicaJudge u d off = { u with sys.repl := smSet 0 u.sys.repl d off }) ∧
    (50 * 65536 < off.natAbs * 1000 →
      (replicaJudge u d off).sys.realign = smMod 0 u.sys.realign d (· + 1) ∧
      (replicaJudge u d off).sys.repl = smErase u.sys.repl d ∧
      repTime (replicaJudge u d off) d = netTime u ∧ (replicaJudge u d off).regs = u.regs ∧
      (replicaJudge u d off).mem = u.mem)) ∧
  (∀ (t : Time) (d : Dom) (diff : Int) (s : State),
    domOn s d = false ∨ ¬(d.val = 3 ∨ (5 ≤ d.val ∧ d.val ≤ 8) ∨ 10 ≤ d.val) ∨
      max s.clk t < smGet 0 s.sys.replAt d + msT →
    exec (.replicaCheck t d diff) s = .next (s.at t))

/-- An access to a domain that is off or in transition (R40): a read gives 0, a write is discarded, and PWR_ERR records
the domain with its status: NOT_IN_ROLE off for the role, ABSENT_UNIT retired, BUSY in transition, CONFLICT switched
off by request (and, by the model's choice of assumption 50, where it was never requested or waits to be served). A
domain is OK exactly when it is on, in use, not retired, not in transition and past its first test; PD0 always is. That
it is still in transition while that test runs is assumption 50. That ACC_ERR may record the access as well is
assumption 16. -/
def Obligations.AccessesToADomainThatIsOff : Prop :=
  (∀ (s : State) (d : Nat), d ≠ 0 →
    (roleUses s d = false → domStatus s d = .notInRole) ∧
    (roleUses s d = true → domRetired s d = true → domStatus s d = .absentUnit) ∧
    (roleUses s d = true → domRetired s d = false → (domMoving s d = true ∨ bit s.sys.testing d = true) →
      domStatus s d = .busy) ∧
    (roleUses s d = true → domRetired s d = false → domMoving s d = false → bit s.sys.testing d = false →
      domOn s d = false → domStatus s d = .conflict) ∧
    (domStatus s d = .ok ↔ roleUses s d = true ∧ domRetired s d = false ∧ domMoving s d = false ∧
      bit s.sys.testing d = false ∧ domOn s d = true)) ∧
  (∀ s : State, domStatus s 0 = .ok) ∧
  (∀ (m : Master) (a width d : Nat) (w : Word) (s : State), a < 2 ^ 32 → (blkOf a).isSome = true →
    addrDom s m a = d → d ≤ 16 → domStatus s d ≠ .ok →
    let recorded (u : State) : Prop := u.fget PWR_ERR_VALID = 1 ∧
      (s.fget PWR_ERR_VALID = 0 → u.fget PWR_ERR_DOM = d ∧ u.fget PWR_ERR_STATUS = (domStatus s d).code) ∧
      (s.fget PWR_ERR_VALID = 1 → u.fget PWR_ERR_MULTI = 1 ∧ u.fget PWR_ERR_DOM = s.fget PWR_ERR_DOM ∧
        u.fget PWR_ERR_STATUS = s.fget PWR_ERR_STATUS) ∧ s.SameMem u
    let errs := [(PWR_ERR_VALID, 0), (PWR_ERR_MULTI, 0), (PWR_ERR_DOM, 0), (PWR_ERR_STATUS, 0), (ACC_ERR_VALID, 0),
      (ACC_ERR_MULTI, 0), (ACC_ERR_MASTER, 0), (ACC_ERR_STATUS, 0), (ACC_ERRADDR_ADDR, 0)]
    ((busRead s m a width).2.1 = 0 ∧ recorded (busRead s m a width).2.2 ∧
      s.SameRegsBut (busRead s m a width).2.2 errs) ∧
    Answers (exec (.registerWrite m a width w) s) (fun u => recorded u ∧ s.SameRegsBut u (errs ++
      [(SYS_ERRCNT_RSVD, 0), (ACC_JNLHEAD_HEAD, 0), (ACC_JNLCNT_LOST, 0), (ACC_JNLCNT_UNREAD, 0), (SEC_EINJ_ARM, 0)])))

/-- The boot steps (R55 to R63, R383): OTP load, PD0 self-test and its retry, slot verification, the checks of the
configuration slots, the key, and a netboot assembly that is abandoned 2 s after its first chunk. Rests on the model's
choices of assumptions 5, 6, 19, 40, 41. -/
def Obligations.BootStepsAreTaken : Prop :=
  (∀ (t : Time) (s : State), s.sys.phase = .otpLoad → s.sys.since + 100 * usT ≤ max s.clk t →
    Answers (exec (.otpLoadDone t) s) (fun u =>
      u.sys.phase = .selfTest ∧ u.fget SEC_SVN_FW_SVN = s.sec.otp.fwSvn % 64 ∧
      u.fget SEC_SVN_CFG_SVN = s.sec.otp.cfgSvn % 64 ∧ u.fget SEC_STAT_SLOTVALID = s.sec.otp.slotValid % 16 ∧
      u.fget SEC_STAT_SLOTREV = s.sec.otp.slotRev % 16 ∧ u.fget SEC_STAT_ENRLOCK = b2n s.sec.otp.enrLock ∧
      s.SameMem u ∧ u.flash = s.flash ∧ u.pins = { s.pins with fqRstN := true } ∧
      s.SameRegsBut u ([(SEC_SVN_FW_SVN, 0), (SEC_SVN_CFG_SVN, 0), (SEC_STAT_SLOTVALID, 0), (SEC_STAT_SLOTREV, 0),
        (SEC_STAT_VREV, 0), (SEC_STAT_ENRLOCK, 0), (SEC_STAT_OTPBUSY, 0)]
        ++ (List.range 8).map (fun i => (SEC_DBGCHAL_CHAL, i))))) ∧
  (∀ (t : Time) (s : State), s.sys.phase ≠ .otpLoad ∨ max s.clk t < s.sys.since + 100 * usT →
    exec (.otpLoadDone t) s = .next (s.at t)) ∧
  (∀ (t : Time) (s : State), s.sys.phase = .selfTest →
    exec (.pd0SelftestDone t false) s = .next { s.at t with sys.phase := .selfTestWait, sys.since := max s.clk t } ∧
    (s.fget SYS_STRAP_SID_BAD = 1 → exec (.pd0SelftestDone t true) s =
      .next { (s.at t).fset SYS_BOOT_STATUS 0 Status.conflict.code with sys.phase := .romIdle }) ∧
    (∀ (j : Nat) (l : List Nat), s.fget SYS_STRAP_SID_BAD ≠ 1 →
      slotOrder { s.at t with sys.phase := .romSelect } 0 = j :: l →
      ((slotOfDir (dirNow s.flash).2 j).trial = false ∨ s.fget SYS_BOOT_TRIES < 3) →
      exec (.pd0SelftestDone t true) s = .next { s.at t with sys.phase := .romSelect, sys.bootLeft := j :: l }) ∧
    (s.fget SYS_STRAP_SID_BAD ≠ 1 → slotOrder { s.at t with sys.phase := .romSelect } 0 = [] → isStack s = true →
      exec (.pd0SelftestDone t true) s = .next { s.at t with sys.phase := .recovery, sys.bootLeft := [] })) ∧
  (∀ (t : Time) (pass : Bool) (s : State), s.sys.phase ≠ .selfTest →
    exec (.pd0SelftestDone t pass) s = .next (s.at t)) ∧
  (∀ (t : Time) (s : State), s.sys.phase = .selfTestWait → s.sys.since + 10 * msT ≤ max s.clk t →
    exec (.pd0SelftestRetry t) s = .next { s.at t with sys.phase := .selfTest }) ∧
  (∀ (t : Time) (s : State), s.sys.phase ≠ .selfTestWait ∨ max s.clk t < s.sys.since + 10 * msT →
    exec (.pd0SelftestRetry t) s = .next (s.at t)) ∧
  (∀ (t : Time) (s : State) (j : Nat) (l : List Nat) (i : Image), s.sys.phase = .romSelect → s.sys.bootLeft = j :: l →
    s.flash.images.getD j none = some i →
    (verifySlot (s.at t) j = .ok → exec (.bootSlotVerify t) s =
      .next (startFirmware (s.at t) j 0 (slotOfDir (dirNow s.flash).2 j).trial i)) ∧
    (verifySlot (s.at t) j ≠ .ok → exec (.bootSlotVerify t) s =
      .next (bootNext ((s.at t).fset SYS_BOOT_STATUS 0 (verifySlot (s.at t) j).code) l))) ∧
  (∀ (t : Time) (s : State), s.sys.phase ≠ .romSelect → exec (.bootSlotVerify t) s = .next (s.at t)) ∧
  (∀ (t : Time) (s : State) (j : Nat) (l : List Nat) (i : Image), s.sys.phase = .firmware → s.sys.halted = false →
    s.sys.cfgLeft = j :: l → s.flash.images.getD j none = some i →
    let st := cfgSlotStatus (s.at t) j
    let u := if j = 2 then (s.at t).fsets [(SYS_CFGSTAT_TRIED0, 0, 1), (SYS_CFGSTAT_ST0, 0, st.code)]
      else (s.at t).fsets [(SYS_CFGSTAT_TRIED1, 0, 1), (SYS_CFGSTAT_ST1, 0, st.code)]
    (st = .ok → exec (.configSlotCheck t) s = .next (cfgForce { u with sys.cfgLeft := [] } (j - 2) i)) ∧
    (st ≠ .ok → l ≠ [] → exec (.configSlotCheck t) s = .next { u with sys.cfgLeft := l }) ∧
    (st ≠ .ok → l = [] → exec (.configSlotCheck t) s = .next (cfgNone { u with sys.cfgLeft := [] }))) ∧
  (∀ (t : Time) (s : State), s.sys.phase = .firmware →
    Answers (exec (.keyDerivationDone t) s) (fun u => u.fget SEC_STAT_KEYRDY = 1 ∧
      (∀ i, i < 8 → u.fget SEC_FPR_FPR i = identityFpr s.sec.otp / 2 ^ (32 * i) % 2 ^ 32) ∧
      s.SameRegsBut u ((SEC_STAT_KEYRDY, 0) :: (List.range 8).map (fun i => (SEC_FPR_FPR, i))) ∧ s.SameMem u)) ∧
  (∀ (t : Time) (s : State), s.sys.phase ≠ .firmware → exec (.keyDerivationDone t) s = .next (s.at t)) ∧
  (∀ (t : Time) (s : State) (a : Assembly), s.sys.load = some a → s.sys.phase = .netboot → a.complete = false →
    (a.first + 2 * secT ≤ max s.clk t →
      exec (.netbootTimeout t) s = .next { s.at t with sys.load := none, sys.netPort := none }) ∧
    (max s.clk t < a.first + 2 * secT → exec (.netbootTimeout t) s = .next (s.at t))) ∧
  (∀ (t : Time) (k : Fin 24) (q : Fin 8) (s : State) (slot : Nat), isStack s = true → s.sys.phase = .firmware →
    s.sys.halted = false → 2 ≤ devState s → usedChain s k = true → requests s k q = true →
    smGet none s.sys.offers (8 * k + q) = none → offerSlot (s.at t) (8 * k + q) = some slot →
    exec (.netbootOfferRetry t k q) s =
      .next (offerChunk { s.at t with
        sys.offers := smSet none s.sys.offers (8 * k + q)
          (some { slot, at_ := max s.clk t }) } k q { slot, at_ := max s.clk t }))

/-- A scrubbed word without errors, or with one symbol error, is stored whole, once in each pass; an uncorrectable
supervisor word takes a system reset with cause MEMERR; the end of PASS sets BEHIND where the pass is incomplete, once,
and the pass goes on, and begins the next pass where it is complete; EINJ is armed as written unless its values are out
of range or the device is in service (R379 to R382). Rests on the model's choices of assumptions 8, 57. -/
def Obligations.MemoryWordsAreScrubbed : Prop :=
  (∀ (t : Time) (mem : Fin 9) (word : Nat) (p : Straps) (s : State), s.fget SEC_SCRUBCFG_PASS ≠ 0 →
    domOn s (memDom mem) = true → word < memWords mem →
    let u := scrubRead (s.at t) mem word
    (scrubHas (scrubNow (s.at t) mem) word = true → exec (.scrubWord t mem word p) s = .next (s.at t)) ∧
    (scrubHas (scrubNow (s.at t) mem) word = false →
      (eccSyms s mem word = [] → exec (.scrubWord t mem word p) s = .next (eccStored u mem word)) ∧
      (∀ e, eccSyms s mem word = [e] →
        exec (.scrubWord t mem word p) s = .next (eccStored (eccCorr u mem) mem word)) ∧
      (∀ e f l, eccSyms s mem word = e :: f :: l → mem.val = 0 →
        exec (.scrubWord t mem word p) s = .next (systemReset (eccUncorr u mem word) [.memerr] p)) ∧
      (∀ e f l, eccSyms s mem word = e :: f :: l → mem.val ≠ 0 →
        exec (.scrubWord t mem word p) s = .next (eccHandle (eccUncorr u mem word) mem word)))) ∧
  (∀ (t : Time) (mem : Fin 9) (s : State), s.fget SEC_SCRUBCFG_PASS ≠ 0 → domOn s (memDom mem) = true →
    let x := scrubOf s mem
    let due := x.at_ + s.fget SEC_SCRUBCFG_PASS * 10 * msT
    (x.late = false → due ≤ max s.clk t → x.seen ≠ [(0, memWords mem)] → exec (.scrubPassDeadline t mem) s =
      .next ((scrubSet (s.at t) mem { x with late := true }).fset SEC_SCRUBSTAT_BEHIND 0
        (putBit (s.fget SEC_SCRUBSTAT_BEHIND) mem true))) ∧
    (x.late = false → due ≤ max s.clk t → x.seen = [(0, memWords mem)] →
      exec (.scrubPassDeadline t mem) s = .next (scrubSet (s.at t) mem { at_ := due })) ∧
    (x.late = true ∨ max s.clk t < due → exec (.scrubPassDeadline t mem) s = .next (s.at t))) ∧
  (∀ (t : Time) (mem : Fin 9) (word : Nat) (p : Straps) (s : State),
    s.fget SEC_SCRUBCFG_PASS = 0 ∨ domOn s (memDom mem) = false →
    exec (.scrubWord t mem word p) s = .next (s.at t) ∧ exec (.scrubPassDeadline t mem) s = .next (s.at t)) ∧
  (∀ (m : Master) (w : Word) (s : State), s.MayWrite m 0x60058 w.toNat false → bits w.toNat 24 4 ≤ 8 →
    bits w.toNat 16 6 ≤ 35 → bits w.toNat 10 6 ≤ 35 →
    (bit w.toNat 31 = true → w.toNat % 256 ≠ 0 ∧ inService s = false ∧
      (bit w.toNat 9 = true → bits w.toNat 16 6 ≠ bits w.toNat 10 6)) →
    exec (.errorInjectArm m w) s = .next (s.noted m 0x60058 w.toNat ((countRsvd s m 0x60058 w.toNat).fsets
      [(SEC_EINJ_ARM, 0, b2n (bit w.toNat 31)), (SEC_EINJ_MEM, 0, bits w.toNat 24 4),
       (SEC_EINJ_SYM, 0, bits w.toNat 16 6), (SEC_EINJ_SYM2, 0, bits w.toNat 10 6), (SEC_EINJ_TWO, 0, bits w.toNat 9 1),
       (SEC_EINJ_PAT, 0, w.toNat % 256)])))

/-- The TAP (R409, R410): an instruction is taken, or BYPASS with the refused mark where it is unknown, not granted, or
would touch a device in service; DBGACC accesses are M3's, DBGCORE halts and resumes the supervisor, EXTEST and
SAMPLE/PRELOAD load the boundary register, and under SAMPLE/PRELOAD no ball follows it. Debug unlock (R391 to R394): a
token that passes every check gives M3 its rights for its time; the third refusal in a row locks unlocking for one
second; unlocking ends with its time. Rests on the model's choices of assumptions 6, 33. -/
def Obligations.DebugAccessIsGranted : Prop :=
  (∀ (t : Time) (code : Fin 256) (s : State) (i : JtagIr) (n : Nat), running s = true →
    jtagCode code = some (i, n) →
    (jtagGuarded i = false ∨ (bit s.mbx.m3jtag n = true ∧ inService s = false) →
      exec (.jtagUpdateIr t code) s = .next { s.at t with jtag.ir := i, jtag.refused := false }) ∧
    (jtagGuarded i = true ∧ (bit s.mbx.m3jtag n = false ∨ inService s = true) →
      exec (.jtagUpdateIr t code) s = .next { s.at t with jtag.ir := .bypass, jtag.refused := true })) ∧
  (∀ (t : Time) (code : Fin 256) (s : State), running s = true → jtagCode code = none →
    exec (.jtagUpdateIr t code) s = .next { s.at t with jtag.ir := .bypass, jtag.refused := true }) ∧
  (∀ (t : Time) (s : State), exec (.tapReset t) s = .next { s.at t with jtag := {} }) ∧
  (∀ (t : Time) (a d : Word) (s : State), running s = true → s.jtag.ir = .dbgacc →
    (let r := busWrite (s.at t) 3 a.toNat d.toNat 4 true
     exec (.dbgaccUpdate t true a d) s =
       .next { r.2 with jtag.done := true, jtag.status := r.1.code, jtag.word := 0 }) ∧
    (let r := busRead (s.at t) 3 a.toNat 4
     exec (.dbgaccUpdate t false a d) s =
       .next { r.2.2 with jtag.done := true, jtag.status := r.1.code, jtag.word := r.2.1 })) ∧
  (∀ (t : Time) (b : Boundary) (s : State),
    (running s = true → s.jtag.ir = .extest ∨ s.jtag.ir = .sample →
      exec (.extestUpdate t b) s = .next { s.at t with jtag.bnd := b }) ∧
    (s.jtag.ir ≠ .extest → s.jtag.ir ≠ .sample → exec (.extestUpdate t b) s = .next (s.at t)) ∧
    (s.jtag.ir = .sample → ∀ x, ballState { s with jtag.bnd := b } x = ballState s x)) ∧
  (∀ (t : Time) (s : State), running s = true → s.jtag.ir = .dbgcore →
    exec (.dbgcoreHalt t .halt) s = .next { s.at t with sys.halted := true } ∧
    exec (.dbgcoreHalt t .step) s = .next (s.at t) ∧
    exec (.dbgcoreHalt t .resume) s = .next { s.at t with sys.halted := false }) ∧
  (∀ (t : Time) (w : Bool) (a d : Word) (op : DbgOp) (b : Boundary) (code : Fin 256) (s : State), running s = false →
    exec (.jtagUpdateIr t code) s = .next (s.at t) ∧ exec (.dbgaccUpdate t w a d) s = .next (s.at t) ∧
    exec (.extestUpdate t b) s = .next (s.at t) ∧ exec (.dbgcoreHalt t op) s = .next (s.at t)) ∧
  (∀ (t : Time) (m : Master) (n : Fin 8) (s : State), (s.at t).Serves (mbxNo m n) oDebugUnlock →
    let k := mbxNo m n
    firstStatus (tokenChecks (s.at t) k true) = .ok →
    exec (.debugUnlock t m n true) s = .next (cmdAnswer
      ({ s.at t with
          mbx.m3 := mbxNum s k 320 4 % 16, mbx.m3jtag := mbxNum s k 324 4, mbx.m3w := []
          sec.unlockEnd := some (max s.clk t + mbxNum s k 328 4 * secT), sec.refused := 0 }.fset SEC_STAT_UNLOCKED 0 1)
      k .ok [])) ∧
  (∀ (t : Time) (m : Master) (n : Fin 8) (ok : Bool) (s : State), (s.at t).Serves (mbxNo m n) oDebugUnlock →
    let k := mbxNo m n
    let st := firstStatus (tokenChecks (s.at t) k ok)
    st ≠ .ok →
    (s.sec.refused < 2 → exec (.debugUnlock t m n ok) s = .next (cmdAnswer
      { s.at t with sec.refused := s.sec.refused + 1, sec.lockout := none } k st [])) ∧
    (2 ≤ s.sec.refused → exec (.debugUnlock t m n ok) s = .next (cmdAnswer
      { s.at t with sec.refused := 0, sec.lockout := some (max s.clk t) } k st []))) ∧
  (∀ (t : Time) (s : State) (e : Time), s.sec.unlockEnd = some e →
    (e ≤ max s.clk t → exec (.debugUnlockExpiry t) s = .next
      ({ s.at t with mbx.m3 := 0, mbx.m3jtag := 0, mbx.m3w := [], sec.unlockEnd := none }.fset SEC_STAT_UNLOCKED 0 0)) ∧
    (max s.clk t < e → exec (.debugUnlockExpiry t) s = .next (s.at t))) ∧
  (∀ (t : Time) (s : State) (a : Time), s.sec.lockout = some a →
    (a + secT ≤ max s.clk t → exec (.debugLockoutEnd t) s = .next { s.at t with sec.lockout := none }) ∧
    (max s.clk t < a + secT → exec (.debugLockoutEnd t) s = .next (s.at t)))

/-! ### Register accesses, journal and statuses (R4, R6, R12, R66, R67, R90 to R95) -/

/-- An access outside the address map (R66): a read gives 0, a write is discarded; ACC_ERR records RANGE, UNMAP counts
the access, and nothing else changes: no other check applies. -/
def Obligations.UnmappedAccessesAreRefused : Prop :=
  ∀ (m : Master) (a width : Nat) (w : Word) (s : State), a < 2 ^ 32 → blkOf a = none →
    let refused (u : State) : Prop :=
      u.fget SYS_ERRCNT_UNMAP = min (s.fget SYS_ERRCNT_UNMAP + 1) (2 ^ SYS_ERRCNT_UNMAP.width - 1) ∧
      u.fget ACC_ERR_VALID = 1 ∧
      (s.fget ACC_ERR_VALID = 0 → u.fget ACC_ERR_MASTER = m.val ∧ u.fget ACC_ERR_STATUS = Status.range.code ∧
        u.fget ACC_ERRADDR_ADDR = a) ∧
      (s.fget ACC_ERR_VALID = 1 → u.fget ACC_ERR_MULTI = 1 ∧ u.fget ACC_ERRADDR_ADDR = s.fget ACC_ERRADDR_ADDR) ∧
      s.SameMem u ∧
      s.SameRegsBut u [(SYS_ERRCNT_UNMAP, 0), (ACC_ERR_VALID, 0), (ACC_ERR_MULTI, 0), (ACC_ERR_MASTER, 0),
        (ACC_ERR_STATUS, 0), (ACC_ERRADDR_ADDR, 0)]
    ((busRead s m a width).1 = .range ∧ (busRead s m a width).2.1 = 0 ∧ refused (busRead s m a width).2.2) ∧
    Answers (exec (.registerWrite m a width w) s) refused

/-- A write that a check refuses leaves every register but the error registers, the error counters and the journal, and
every byte of memory (R4, R12, R40, R67, R93). -/
def Obligations.RefusedWritesChangeNothingElse : Prop :=
  ∀ (m : Master) (a width : Nat) (w : Word) (s : State), a < 2 ^ 32 → a ≠ 0x14 → (blkOf a).isSome = true →
    writeStatus s m a width w.toNat (busNeedC s m a w.toNat) true ≠ .ok →
    Answers (exec (.registerWrite m a width w) s) (fun u => s.SameMem u ∧ u.pending = s.pending ∧
      s.SameRegsBut u [(SYS_ERRCNT_RSVD, 0), (PWR_ERR_VALID, 0), (PWR_ERR_MULTI, 0), (PWR_ERR_DOM, 0),
        (PWR_ERR_STATUS, 0), (ACC_ERR_VALID, 0), (ACC_ERR_MULTI, 0), (ACC_ERR_MASTER, 0), (ACC_ERR_STATUS, 0),
        (ACC_ERRADDR_ADDR, 0), (ACC_JNLHEAD_HEAD, 0), (ACC_JNLCNT_LOST, 0), (ACC_JNLCNT_UNREAD, 0),
        (SEC_EINJ_ARM, 0), (SEC_ERR_VALID, 0), (SEC_ERR_MULTI, 0), (SEC_ERR_MASTER, 0), (SEC_ERR_STATUS, 0)] ∧
      (blkOf a ≠ some .sec → u.fget SEC_ERR_VALID = s.fget SEC_ERR_VALID) ∧
      (blkOf a = some .sec → u.fget SEC_ERR_VALID = 1 ∧ (s.fget SEC_ERR_VALID = 0 → u.fget SEC_ERR_MASTER = m.val)))

/-- A write that is carried out has the effect of its register, with the reserved bits counted before it (R4) and the
journal entry after it (R93). -/
def Obligations.AcceptedWritesTakeTheirEffect : Prop :=
  ∀ (m : Master) (a : Nat) (w : Word) (s : State), a < 2 ^ 32 → a ≠ 0x14 →
    s.MayWrite m a w.toNat (busNeedC s m a w.toNat) →
    (busEff m a w.toNat (countRsvd s m a w.toNat)).1 = .ok →
    exec (.registerWrite m a 4 w) s =
      .next (s.noted m a w.toNat (busEff m a w.toNat (countRsvd s m a w.toNat)).2)

/-- A register without an effect of its own, for any list of its fields: an RW or RWS field takes the written bits, a
W1C field keeps the bits that are not written as 1, an RO, WO or ROL field keeps its value (R6), and nothing else
changes. -/
def Obligations.PlainFieldsFollowTheirAccessCode : Prop :=
  ∀ (r : Reg) (i w : Nat) (s : State), (r.flds.map (fun F => F.key i)).Nodup →
    let u := (plainEff r i w s).2
    (plainEff r i w s).1 = .ok ∧
    (∀ F ∈ r.flds, F.acc = .rw ∨ F.acc = .rws → u.fget F i = bits w F.lo F.width) ∧
    (∀ F ∈ r.flds, F.acc = .w1c →
      u.fget F i = (s.fget F i - (s.fget F i &&& bits w F.lo F.width)) % 2 ^ F.width) ∧
    (∀ F ∈ r.flds, F.acc = .ro ∨ F.acc = .wo ∨ F.acc = .rol → u.fget F i = s.fget F i) ∧
    s.SameRegsBut u (r.flds.map (fun F => (F, i))) ∧ s.SameMem u

/-- One journal entry (Table 3.22, R93, R94): the entry stands at HEAD, HEAD moves on, UNREAD counts it, and with 4,096
unread LOST counts instead; of two writes in one PD0 clock, the lower master's entry comes first. ACC_JNLFREE frees the
N oldest entries; more than are unread is refused with RANGE (R95). Rests on the model's choices of assumption 15. -/
def Obligations.JournalEntriesAreMadeAndFreed : Prop :=
  (∀ (s : State) (m kind st addr old new : Nat), s.fget SEC_EINJ_ARM = 0 →
     let u := jnlAdd s m kind st addr old new
     let h := s.fget ACC_JNLHEAD_HEAD
     let p := (h + 4095) % 4096
     let a := smGet [] s.mbx.jnl p
     (s.mbx.jnlClk ≠ pd0Clk s.clk + 1 ∨ 1 < kind ∨ s.mbx.jnlRun = 0 →
       (smGet [] u.mbx.jnl h).take 4 =
         [m * 2 ^ 28 + kind * 2 ^ 24 + st % 256 * 2 ^ 16 + s.mbx.jnlNum % 65536, addr, old, new] ∧
       (smGet [] u.mbx.jnl h).length = 8 ∧ (∀ i, i ≠ h → smGet [] u.mbx.jnl i = smGet [] s.mbx.jnl i)) ∧
     (s.mbx.jnlClk = pd0Clk s.clk + 1 → kind ≤ 1 → s.mbx.jnlRun = 1 →
       (m < a.getD 0 0 / 2 ^ 28 →
         (smGet [] u.mbx.jnl p).tail.take 3 = [addr, old, new] ∧ (smGet [] u.mbx.jnl p).getD 0 0 / 2 ^ 28 = m ∧
         (smGet [] u.mbx.jnl h).tail = a.tail) ∧
       (a.getD 0 0 / 2 ^ 28 ≤ m →
         (smGet [] u.mbx.jnl h).tail.take 3 = [addr, old, new] ∧ smGet [] u.mbx.jnl p = a)) ∧
     u.fget ACC_JNLHEAD_HEAD = (h + 1) % 4096 ∧
     (s.fget ACC_JNLCNT_UNREAD ≠ 4096 →
       u.fget ACC_JNLCNT_UNREAD = (s.fget ACC_JNLCNT_UNREAD + 1) % 8192 ∧
       u.fget ACC_JNLCNT_LOST = s.fget ACC_JNLCNT_LOST) ∧
     (s.fget ACC_JNLCNT_UNREAD = 4096 → u.fget ACC_JNLCNT_UNREAD = 4096 ∧
       u.fget ACC_JNLCNT_LOST = min (s.fget ACC_JNLCNT_LOST + 1) 65535) ∧
     s.SameMem u ∧ s.SameRegsBut u [(ACC_JNLHEAD_HEAD, 0), (ACC_JNLCNT_LOST, 0), (ACC_JNLCNT_UNREAD, 0)]) ∧
  (∀ (m : Master) (w : Word) (s : State), s.MayWrite m 0x2002c w.toNat false → w.toNat % 2 ^ 13 ≤ jnlUnread s →
    let b := countRsvd s m 0x2002c w.toNat
    exec (.accJnlfree m w) s = .next (s.noted m 0x2002c w.toNat
      (b.fset ACC_JNLCNT_UNREAD 0 (jnlUnread s - w.toNat % 2 ^ 13)))) ∧
  (∀ (m : Master) (w : Word) (s : State), s.MayWrite m 0x2002c w.toNat false → jnlUnread s < w.toNat % 2 ^ 13 →
    Answers (exec (.accJnlfree m w) s) (fun u => u.fget ACC_ERR_VALID = 1 ∧
      (s.fget ACC_ERR_VALID = 0 → u.fget ACC_ERR_STATUS = 9 ∧ u.fget ACC_ERR_MASTER = m.val ∧
        u.fget ACC_ERRADDR_ADDR = 0x2002c) ∧ s.SameMem u ∧
      s.SameRegsBut u [(ACC_ERR_VALID, 0), (ACC_ERR_MULTI, 0), (ACC_ERR_MASTER, 0), (ACC_ERR_STATUS, 0),
        (ACC_ERRADDR_ADDR, 0), (SYS_ERRCNT_RSVD, 0), (ACC_JNLHEAD_HEAD, 0), (ACC_JNLCNT_LOST, 0),
        (ACC_JNLCNT_UNREAD, 0), (SEC_EINJ_ARM, 0)]))

/-- A 1 in a reserved bit of a mapped register is counted once in SYS_ERRCNT.RSVD, and nothing else changes (R4). The
first error is recorded with its details and later ones only set MULTI (R67 and the error registers of every block). -/
def Obligations.ErrorsAreCountedAndTheFirstIsKept : Prop :=
  (∀ (s : State) (m a w : Nat),
     (countRsvd s m a w = s ∨ countRsvd s m a w = s.satAdd SYS_ERRCNT_RSVD 0) ∧
     (∀ b r i, blkOf a = some b → findReg s b m a (blkRegs b) = some (r, i) →
       (w &&& listedBits r = w → countRsvd s m a w = s) ∧
       (w &&& listedBits r ≠ w → countRsvd s m a w = s.satAdd SYS_ERRCNT_RSVD 0))) ∧
  (∀ (s : State) (m a : Nat) (st : Status), m < 16 → a < 2 ^ 32 →
     let t := accErr s m a st
     (s.fget ACC_ERR_VALID = 0 → t.fget ACC_ERR_VALID = 1 ∧ t.fget ACC_ERR_MASTER = m ∧
       t.fget ACC_ERR_STATUS = st.code ∧ t.fget ACC_ERRADDR_ADDR = a ∧ t.fget ACC_ERR_MULTI = s.fget ACC_ERR_MULTI) ∧
     (s.fget ACC_ERR_VALID = 1 → t.fget ACC_ERR_VALID = 1 ∧ t.fget ACC_ERR_MULTI = 1 ∧
       t.fget ACC_ERR_MASTER = s.fget ACC_ERR_MASTER ∧ t.fget ACC_ERR_STATUS = s.fget ACC_ERR_STATUS ∧
       t.fget ACC_ERRADDR_ADDR = s.fget ACC_ERRADDR_ADDR))

/-- M0 passes every right check; a master without the W right on an address has its write of an RW, WO, W1C or RWS
field refused with a status, without the C right its commit, and without the R right its read; only M0 writes to the
ACC block (R12, R90, R91). -/
def Obligations.RightsAreChecked : Prop :=
  (∀ (s : State) (a n : Nat), (blkOf a).isSome = true → n < 3 → hasRight s 0 a n = true) ∧
  (∀ (s : State) (m a width w : Nat) (c e : Bool), hasRight s m a 1 = false → writesField s m a = true →
    writeStatus s m a width w c e ≠ .ok) ∧
  (∀ (s : State) (m a width : Nat), hasRight s m a 0 = false → readStatus s m a width ≠ .ok) ∧
  (∀ (s : State) (m a width w : Nat) (e : Bool), hasRight s m a 2 = false → writeStatus s m a width w true e ≠ .ok) ∧
  (∀ (s : State) (m a w : Nat) (e : Bool), m ≠ 0 → 0x20000 ≤ a → a < 0x30000 → writeStatus s m a 4 w false e ≠ .ok)

/-- The status of a list of checks is one of the failures, none of them comes before it in the order of R12, and it is
OK only when every check is OK; the order is the list of R12. -/
def Obligations.TheFirstFailureIsReported : Prop :=
  ∀ l : List Status, (firstStatus l = .ok ∨ firstStatus l ∈ l) ∧ (∀ x ∈ l, (firstStatus l).rank ≤ x.rank) ∧
    (firstStatus l = .ok ↔ ∀ x ∈ l, x = .ok) ∧
    List.Pairwise (fun x y : Status => x.rank < y.rank) [.notInRole, .absentUnit, .denied, .leaseRequired, .badLength,
      .zeroNotAllowed, .range, .sigFail, .stale, .conflict, .busy]

/-! ### Mailboxes (R71 to R79, R96) -/

/-- A write of GO posts the mailbox of M1 and M3 (R72), behind those posted in earlier PD0 clocks and, within its
clock, by ascending master and mailbox number (R74); the firmware takes the first posted command that is served, with a
cell's lease check at that instant (R76); the command is then RUNNING, or is answered at once with the first status of
R12 that applies. Rests on the model's choices of assumption 13. -/
def Obligations.MailboxesPostAndTake : Prop :=
  (∀ (m : Master) (n : Fin 8) (w : Word) (s : State), s.MayWrite m (0x10108 + 16 * n) w.toNat false →
    mbxMaster m = true →
    exec (.mbxGo m n w) s = .next (s.noted m (0x10108 + 16 * n) w.toNat
      (let b := countRsvd s m (0x10108 + 16 * n) w.toNat
       if bit w.toNat 0 then mbxPost b (m.val * 8 + n.val) else b))) ∧
  (∀ (b : State) (k : Nat), ∃ front back, b.mbx.queue = front ++ back ∧
    (mbxPost b k).mbx.queue = front ++ k :: back ∧
    (∀ x ∈ front, smGet 0 b.mbx.postAt x ≠ pd0Clk b.clk + 1 ∨ x ≤ k) ∧
    (∀ x, back.head? = some x → smGet 0 b.mbx.postAt x = pd0Clk b.clk + 1 ∧ k < x) ∧
    (mbxPost b k).fget MBX_STAT_STATE k = 1 ∧ b.SameMem (mbxPost b k) ∧
    b.SameRegsBut (mbxPost b k) [(MBX_STAT_STATE, k)]) ∧
  (∀ (m : Master) (n : Fin 8) (w : Word) (s : State), s.MayWrite m (0x10108 + 16 * n) w.toNat false →
    mbxMaster m = false →
    exec (.mbxGo m n w) s = .next (s.noted m (0x10108 + 16 * n) w.toNat
      (countRsvd s m (0x10108 + 16 * n) w.toNat))) ∧
  (∀ (t : Time) (s : State) (k : Nat), s.mbx.queue.find? (servedNow (s.at t)) = some k →
    let q := { s.at t with mbx.queue := s.mbx.queue.filter (· != k) }
    let r := leaseTaken q k
    let taken (x : State) : State := { x with
      mbx.ret := smInsert k { retOf x k with lease := r.1 } (smErase x.mbx.ret k) }.fset MBX_STAT_STATE k 2
    (cmdStatus (taken q) k = .ok → exec (.mbxTake t) s = .next (taken r.2)) ∧
    (cmdStatus (taken q) k ≠ .ok →
      exec (.mbxTake t) s = .next (cmdAnswer (taken q) k (cmdStatus (taken q) k) []))) ∧
  (∀ (q : State) (k : Nat), (isStack q = true ∨ needsLease q k = false → leaseTaken q k = (true, q)) ∧
    (isStack q = false → needsLease q k = true → leaseTaken q k = leaseOk q (retOf q k).lane (retOf q k).epoch)) ∧
  (∀ (t : Time) (s : State), s.mbx.queue.find? (servedNow (s.at t)) = none → exec (.mbxTake t) s = .next (s.at t))

/-- The answer to a command of M1 or M3: the response header with bit 15 of the opcode set, the status, the bytes in
the buffer, STATE DONE and the master's IRQ bit (R72, R75, R76); a memory without errors. -/
def Obligations.AnAnswerStandsInTheMailbox : Prop :=
  ∀ (s : State) (m n : Nat) (st : Status) (bytes : List Nat), m = 1 ∨ m = 3 → n < 8 → bytes.length ≤ 4096 →
    s.sec.ecc = [] → s.fget SEC_EINJ_ARM = 0 →
    let t := cmdAnswer s (m * 8 + n) st bytes
    t.fget MBX_STAT_STATE (m * 8 + n) = 3 ∧ t.fget MBX_HDR1_STATUS (m * 8 + n) = st.code ∧
    t.fget MBX_HDR0_OPCODE (m * 8 + n) = 0x8000 + opOf s (m * 8 + n) % 0x8000 ∧
    t.fget MBX_HDR0_LENGTH (m * 8 + n) = bytes.length ∧
    bit (t.fget MBX_IRQ_DONE m) n = true ∧
    (∀ j, j < 8 → j ≠ n → bit (t.fget MBX_IRQ_DONE m) j = bit (s.fget MBX_IRQ_DONE m) j) ∧
    (∀ o, o < bytes.length → mbxByte t (m * 8 + n) o = bytes.getD o 0 % 256) ∧
    (∀ k o, o < 4096 → (k ≠ m * 8 + n ∨ bytes.length ≤ o) → mbxByte t k o = mbxByte s k o) ∧
    s.SameMem t

/-- Commands that read the device and answer at once (R79 and the opcode tables of Chapter 3). Commands that act on the
device and answer at once. Rests on the model's choices of assumptions 4, 14. -/
def Obligations.MailboxCommandsAreServed : Prop :=
  (∀ (t : Time) (m : Master) (n : Fin 8) (s : State),
     ((s.at t).Serves (mbxNo m n) oGetInfo →
       exec (.getInfo t m n) s = .next (cmdAnswer (s.at t) (mbxNo m n) .ok (infoBytes (s.at t)))) ∧
     ((s.at t).Serves (mbxNo m n) oGetStatus →
       exec (.getStatus t m n) s = .next (cmdAnswer (s.at t) (mbxNo m n) .ok
         (leBytes 4 (cycleNow s) ++ [holderByte (s.at t), 0, 0, 0] ++ leBytes 4 (knownEpoch (s.at t))
           ++ timeBytes (netTime (s.at t))))) ∧
     ((s.at t).Serves (mbxNo m n) oLeaseStatus →
       exec (.leaseStatus t m n) s = .next (cmdAnswer (s.at t) (mbxNo m n) .ok
         ([holderByte (s.at t), ownSid s, 0, 0] ++ leBytes 4 (knownEpoch (s.at t)) ++ leBytes 4 (leaseRem (s.at t))))) ∧
     ((s.at t).Serves (mbxNo m n) oCapStatus →
       let c := capSettle (s.at t)
       exec (.capStatus t m n) s = .next (cmdAnswer
         { c with cap.flags := smSet 0 c.cap.flags (mbxNo m n / 8) 0 } (mbxNo m n) .ok
         (leBytes 4 (c.fget CAP_ARMED_MASK 0) ++ leBytes 4 (c.fget CAP_ARMED_MASK 1) ++ leBytes 8 (runningMask c)
           ++ leBytes 4 (c.fget CAP_LAST_RID) ++ leBytes 4 (c.fget CAP_DEAD_NS)
           ++ leBytes 4 (smGet 0 c.cap.flags (mbxNo m n / 8)) ++ [0, 0, 0, 0]))) ∧
     ((s.at t).Serves (mbxNo m n) oJournalRead → s.sec.ecc = [] →
       exec (.journalRead t m n) s = .next (cmdAnswer (s.at t) (mbxNo m n) .ok
         ((List.range (mbxNum s (mbxNo m n) 2 2)).flatMap (fun j => (List.range 8).flatMap (fun w =>
           leBytes 4 ((smGet [] s.mbx.jnl ((mbxNum s (mbxNo m n) 0 2 + j) % 4096)).getD w 0)))))) ∧
     ((s.at t).Serves (mbxNo m n) oJournalFree → mbxNum s (mbxNo m n) 0 2 ≤ jnlUnread s →
       exec (.journalFree t m n) s =
         (let u := (s.at t).fset ACC_JNLCNT_UNREAD 0 (jnlUnread s - mbxNum s (mbxNo m n) 0 2)
          .next (cmdAnswer u (mbxNo m n) .ok (leBytes 2 (jnlUnread u) ++ leBytes 2 (s.fget ACC_JNLCNT_LOST))))) ∧
     ((s.at t).Serves (mbxNo m n) oPointRead → s.sec.ecc = [] →
       (∀ p ∈ cmdPoints (s.at t) (mbxNo m n), (slotOf (s.at t) p).isSome = true) →
       exec (.pointRead t m n) s = .next (cmdAnswer (s.at t) (mbxNo m n) .ok
         ((cmdPoints (s.at t) (mbxNo m n)).flatMap (fun p =>
           leBytes 8 (slotValue s ((slotOf (s.at t) p).getD 0)) ++ leBytes 4 (slotTag s ((slotOf (s.at t) p).getD 0))
             ++ leBytes 4 (slotMeta s ((slotOf (s.at t) p).getD 0)))))) ∧
     ((s.at t).Serves (mbxNo m n) oAttest →
       let nonce := mbxBytes (s.at t) (mbxNo m n) 0 32
       ∃ f : List Nat, f.length = 3 ∧
         let r := report (s.at t) nonce f
         let msg := signedMsg (headerBytes r ++ bodyBytes r)
         (∃ u : State, u = { s.at t with free := u.free } ∧ exec (.attest t m n) s = .next (cmdAnswer u (mbxNo m n) .ok
           (headerBytes r ++ bodyBytes r ++ (leBytes 64 (Config.edSign (s.sec.otp.idSeed.getD 0 0) msg)
             ++ leBytes 3309 (Config.mlSign (s.sec.otp.idSeed.getD 1 0) msg) ++ [0, 0, 0])))) ∧
         r.magic = 0x7a192001 ∧ r.format = 1 ∧ r.kind = 3 ∧ r.flags = 1 ∧ r.keySel = 0x20 ∧ r.length = 3952 ∧ r.bodyLen = 320 ∧
         r.version = (match s.sys.fw with | some i => i.version | none => 0) ∧ r.body = reportBody (s.at t) nonce)) ∧
  (∀ (t : Time) (m : Master) (n : Fin 8) (s : State),
     ((s.at t).Serves (mbxNo m n) oReset →
       exec (.reset t m n) s = .next (cmdAnswer
         { s.at t with sys.resetPend := some (mbxNum s (mbxNo m n) 0 4 == 1), sys.resetAt := max s.clk t + msT } (mbxNo m n) .ok [])) ∧
     ((s.at t).Serves (mbxNo m n) oCapArm →
       exec (.capArm t m n) s =
         (let k := mbxNo m n
          let r := capArm (s.at t) (mbxNum s k 0 8) (mbxNum s k 8 4) (mbxNum s k 12 4) (mbxNum s k 16 4) (mbxNum s k 20 4)
          .next (cmdAnswer r.2.2 k .ok (leBytes 4 r.2.1)))) ∧
     ((s.at t).Serves (mbxNo m n) oCapDisarm →
       exec (.capDisarm t m n) s =
         .next (cmdAnswer (capDisarm (s.at t) (mbxNum s (mbxNo m n) 0 8)).2 (mbxNo m n) .ok [])) ∧
     ((s.at t).Serves (mbxNo m n) oTraceStart →
       exec (.traceStart t m n) s = .next (cmdAnswer
         ((bitList 32 (mbxNum s (mbxNo m n) 0 4)).foldl trStart (s.at t)) (mbxNo m n) .ok [])) ∧
     ((s.at t).Serves (mbxNo m n) oTraceRead → s.sec.ecc = [] →
       exec (.traceRead t m n) s =
         (let k := mbxNo m n
          let c := mbxByte s k 0
          let i := mbxNum s k 4 4
          .next (cmdAnswer (s.at t) k .ok ((List.range (min 1024 (8192 - i))).flatMap (fun j => leBytes 4
            (if s.fget MASH_TRCFG1_LEN c ≤ i + j then 0
             else s.mread (0x03000000 + (0x8000 * c + 4 * ((s.fget MASH_TRSTAT_OLDEST c + (i + j)) % 8192))) 4)))))) ∧
     ((s.at t).Serves (mbxNo m n) oBillLoad →
       exec (.billLoad t m n) s =
         (let k := mbxNo m n
          .next (cmdAnswer ((List.range ((lenOf s k - 8) / 4)).foldl
            (fun u j => bankPut u (mbxByte s k 0) (mbxNum s k 4 4 + 4 * j) (mbxNum u k (8 + 4 * j) 4)) (s.at t)) k .ok []))) ∧
     ((s.at t).Serves (mbxNo m n) oStackWithdraw →
       exec (.stackWithdraw t m n) s = .next (cmdAnswer (stackSafe (s.at t) CA_COMMAND) (mbxNo m n) .ok [])) ∧
     ((s.at t).Serves (mbxNo m n) oCapRead → (isStack s = false ∨ mbxNum s (mbxNo m n) 0 4 / 2 ^ 24 = 0xff) →
       exec (.capRead t m n) s =
         (let k := mbxNo m n
          let r := capRead (s.at t) (mbxNum s k 0 4) (mbxNum s k 4 4) (mbxNum s k 8 4)
          .next (cmdAnswer r.2.2 k .ok r.2.1))) ∧
     (∀ l, (s.at t).Serves (mbxNo m n) oForward → peerLane (s.at t) (mbxByte s (mbxNo m n) 0) = some l →
       exec (.forward t m n) s =
         (let k := mbxNo m n
          let u := rraMailbox (s.at t) l (rspHdr (s.at t) l) 2 (mbxByte s k 1) (mbxNum s k 4 2) (mbxNum s k 8 2) 0
            (mbxBytes s k 12 (lenOf s k - 12))
          .next (jnlHold { u with
            mbx.remote := u.mbx.remote ++ [{ key := k, op := oForward, deadline := u.clk + 10 * msT,
                                               left := [(256 + mbxByte s k 0, mbxByte s k 1, mbxNum s k 8 2)] }] } k))))

/-- Images (R57, R61, R79): chunks are gathered, a complete image is verified, a slot's directory entry is empty while
an image is written to it and complete after; a confirmed image first raises its counters by OTP steps, each shown as
it is done, and stays a trial image until the last of them (R58). Rests on the model's choices of assumptions 6, 19,
40. -/
def Obligations.ImageCommandsAreTaken : Prop :=
  (∀ (t : Time) (m : Master) (n : Fin 8) (img : Option Image) (s : State), (s.at t).Serves (mbxNo m n) oImageLoad →
    let k := mbxNo m n
    let a := addChunk (s.at t) k 2 (mbxNum s k 0 4) (mbxNum s k 4 4) (lenOf s k - 8) s.sys.load
    let port := if inNetboot s then some (retOf s k).lane else none
    (covered a.got a.total = false →
      exec (.imageLoad t m n img) s =
        .next (cmdAnswer { s.at t with sys.load := some a, sys.netPort := port } k .ok [])) ∧
    (covered a.got a.total = true →
      exec (.imageLoad t m n img) s =
        .next (jnlHold { s.at t with sys.load := some { a with complete := true, img }, sys.netPort := port } k))) ∧
  (∀ (t : Time) (s : State) (a : Assembly) (i : Image), s.sys.load = some a → a.complete = true →
    romServes s = true → a.img = some i → verify (s.at t) false i a.total (2 ^ 28) = .ok →
    exec (.imageLoadVerifyDone t) s = .next (startFirmware (cmdAnswer (s.at t) (a.m * 8 + a.n) .ok [])
      2 (if inNetboot s then 1 else 2) false i)) ∧
  (∀ (t : Time) (s : State) (a : Assembly) (i : Image), s.sys.load = some a → a.complete = true →
    romServes s = true → a.img = some i → verify (s.at t) false i a.total (2 ^ 28) ≠ .ok →
    let st := verify (s.at t) false i a.total (2 ^ 28)
    exec (.imageLoadVerifyDone t) s = .next (cmdAnswer ({ s.at t with sys.load := none, sys.netPort := none }.fset
      SYS_BOOT_STATUS 0 st.code) (a.m * 8 + a.n) st [])) ∧
  (∀ (t : Time) (m : Master) (n : Fin 8) (img : Option Image) (s : State), (s.at t).Serves (mbxNo m n) oImageWrite →
    let k := mbxNo m n
    let slot := mbxByte s k 0
    let b := if s.sys.write = none then slotEmpty (s.at t) slot else s.at t
    let a := addChunk b k slot (mbxNum b k 4 4) (mbxNum b k 8 4) (lenOf b k - 12) s.sys.write
    (covered a.got a.total = false →
      exec (.imageWrite t m n img) s = .next (cmdAnswer { b with sys.write := some a } k .ok [])) ∧
    (∀ i : Image, covered a.got a.total = true → img = some i →
      let u := { b with sys.write := none, flash.images := b.flash.images.set slot img }
      let st := verify u (decide (2 ≤ slot)) i a.total (slotExtent u.flash (dirNow u.flash).2 slot)
      (st = .ok → exec (.imageWrite t m n img) s = .next (cmdAnswer (slotCommit u slot a.total) k .ok [])) ∧
      (st ≠ .ok → exec (.imageWrite t m n img) s = .next (cmdAnswer u k st [])))) ∧
  (∀ (t : Time) (s : State) (a : Assembly), s.sys.write = some a → a.last + 2 * secT ≤ max s.clk t →
    exec (.imageWriteAbandon t) s = .next { s.at t with sys.write := none }) ∧
  (∀ (t : Time) (m : Master) (n : Fin 8) (s : State), (s.at t).Serves (mbxNo m n) oImageConfirm → s.sys.fw = none →
    s.sec.otpQ = [] →
    let slot := s.fget SYS_BOOT_FWSLOT
    let u := (dirRewrite (otpShow (s.at t)) (fun d => setSlot d slot { slotOfDir d slot with trial := false })).fset
      SYS_BOOT_TRIAL 0 0
    exec (.imageConfirm t m n) s = .next (cmdAnswer u (mbxNo m n) .ok (confirmBytes s))) ∧
  (∀ (t : Time) (m : Master) (n : Fin 8) (s : State) (i : Image), (s.at t).Serves (mbxNo m n) oImageConfirm →
    s.sys.fw = some i → imgRevokeV0 i = false → s.sec.otp.fwSvn < i.svn → i.svn ≤ 63 →
    exec (.imageConfirm t m n) s = .next (jnlHold
      { otpPush (s.at t) (raiseSteps s.sec.otpQ .fwSvn s.sec.otp.fwSvn i.svn) with mbx.otpWait := some (mbxNo m n) }
      (mbxNo m n))) ∧
  (∀ (t : Time) (s : State) (x : OtpStep) (l : List OtpStep), s.sec.otpQ = x :: l →
    let u := otpLock { s.at t with sec.otp := otpDo s.sec.otp x, sec.otpQ := l }
    (s.mbx.otpWait = none ∨ u.sec.otpQ ≠ [] → exec (.otpStepDone t) s = .next u) ∧
    (∀ k, u.sec.otpQ = [] → s.mbx.otpWait = some k →
      let slot := u.fget SYS_BOOT_FWSLOT
      let v := (dirRewrite { u with mbx.otpWait := none } (fun d => setSlot d slot
        { slotOfDir d slot with trial := false })).fset SYS_BOOT_TRIAL 0 0
      exec (.otpStepDone t) s = .next (cmdAnswer v k .ok (confirmBytes v)))) ∧
  (∀ (t : Time) (s : State), s.sec.otpQ = [] → exec (.otpStepDone t) s = .next (s.at t))

/-- Commands that must be agreed under the lease are racked to every stack and wait (R76, R111, R144, R146, R329, R342
to R344); the ones whose peers or checks fail to answer in time end as their rules say. A journaled command that waits
keeps the room of its journal entry (R94). Rests on the model's choices of assumptions 12, 35, 42. -/
def Obligations.RackedCommandsAreSent : Prop :=
  (∀ (t : Time) (m : Master) (n : Fin 8) (s : State),
    ((s.at t).Serves (mbxNo m n) oStart → exec (.start t m n) s =
      .next (jnlHold (rackCommand (s.at t) (mbxNo m n) 0) (mbxNo m n))) ∧
    ((s.at t).Serves (mbxNo m n) oStop → exec (.stop t m n) s =
      .next (jnlHold (rackCommand (s.at t) (mbxNo m n) 0) (mbxNo m n))) ∧
    ((s.at t).Serves (mbxNo m n) oCellBypass →
      exec (.cellBypass t m n) s = .next (jnlHold (rackCommand (s.at t) (mbxNo m n) 0) (mbxNo m n))) ∧
    ((s.at t).Serves (mbxNo m n) oContactor →
      exec (.contactor t m n) s = .next (jnlHold (rackCommand (s.at t) (mbxNo m n) 0) (mbxNo m n))) ∧
    ((s.at t).Serves (mbxNo m n) oCellImagePush →
      exec (.cellImagePush t m n) s = .next (jnlHold (rackCommand (s.at t) (mbxNo m n) 0) (mbxNo m n))) ∧
    ((s.at t).Serves (mbxNo m n) oLeaseHandover →
      exec (.leaseHandover t m n) s = .next (jnlHold (rackCommand (s.at t) (mbxNo m n) 0) (mbxNo m n))) ∧
    ((s.at t).Serves (mbxNo m n) oSetRef →
      exec (.setRef t m n) s =
        .next (jnlHold (rackCommand (s.at t) (mbxNo m n) (mbxNum s (mbxNo m n) 0 4)) (mbxNo m n))) ∧
    ((s.at t).Serves (mbxNo m n) oPointWrite → isStack s = true → needsLease (s.at t) (mbxNo m n) = true →
      exec (.pointWrite t m n) s = .next (jnlHold (rackCommand (s.at t) (mbxNo m n) 0) (mbxNo m n))) ∧
    ((s.at t).Serves (mbxNo m n) oPointWrite → (isStack s = false ∨ needsLease (s.at t) (mbxNo m n) = false) →
      exec (.pointWrite t m n) s =
        (let k := mbxNo m n
         .next (cmdAnswer (((List.range (min 340 (mbxNum s k 0 2))).map
           (fun i => (mbxNum s k (4 + 12 * i) 4, mbxNum s k (8 + 12 * i) 8))).foldl (fun u e => pointCmd u e.1 e.2) (s.at t))
           k .ok []))) ∧
    ((s.at t).Serves (mbxNo m n) oBillSwap → swapBusy (s.at t) = false →
      exec (.billSwap t m n) s = .next (jnlHold { s.at t with
        mash.chk := some { cyc := mbxNum s (mbxNo m n) 0 4, master := mbxNo m n / 8, mbx := some (mbxNo m n) } }
        (mbxNo m n)))) ∧
  (∀ (u : State) (k : Nat), (waits u k = false ∨ cmdJournaled u k = false → jnlHold u k = u) ∧
    (waits u k = true → cmdJournaled u k = true →
      jnlHold u k = { u with mbx.jnlHeld := k :: u.mbx.jnlHeld.filter (· != k) })) ∧
  (∀ (t : Time) (s : State) (k : Nat), s.mbx.handWait = some k →
    (s.mbx.handAt + 2 * msT ≤ max s.clk t →
      exec (.handoverTimeout t) s =
        .next (cmdAnswer (dupAnswer { s.at t with mbx.handWait := none } k .ok) k .ok [])) ∧
    (max s.clk t < s.mbx.handAt + 2 * msT → exec (.handoverTimeout t) s = .next (s.at t))) ∧
  (∀ (t : Time) (s : State) (r : RackCmd), s.mbx.racks = [r] → ackedAll (s.at t) r = false →
    2 ≤ cycDiff (cycleNow s) r.at_ → exec (.leaseRackTimeout t) s = .next (rackVoid (s.at t) r)) ∧
  (∀ (t : Time) (s : State) (r : Remote), s.mbx.remote = [r] →
    (r.deadline ≤ max s.clk t → exec (.remoteReplyTimeout t) s =
      .next (remoteAnswer (s.at t) r (firstStatus [statusOf r.worst, .busy]) [])) ∧
    (max s.clk t < r.deadline → exec (.remoteReplyTimeout t) s = .next (s.at t))) ∧
  (∀ (t : Time) (s : State) (r : SwapReq) (k : Nat), s.mash.chk = some r → domOn s 1 = true → r.mbx = some k →
    let x := swapChecked (s.at t) r
    (x.1 ≠ .ok → exec (.bankCheckComplete t) s = .next (cmdAnswer x.2 k x.1 [])) ∧
    (x.1 = .ok → isStack x.2 = true → exec (.bankCheckComplete t) s = .next (rackCommand
      { x.2 with mash.pend := some (applyCycle x.2 r.cyc (if (livePeers x.2).isEmpty then 2 else 3)).2 } k r.cyc)) ∧
    (x.1 = .ok → isStack x.2 = false → exec (.bankCheckComplete t) s = .next (cmdAnswer x.2 k .ok []))) ∧
  (∀ (t : Time) (s : State) (r : SwapReq), s.mash.chk = some r → domOn s 1 = true → r.mbx = none → r.rack = none →
    exec (.bankCheckComplete t) s = .next (swapChecked (s.at t) r).2) ∧
  (∀ (t : Time) (s : State) (r : SwapReq) (x : Nat × Nat × Nat), s.mash.chk = some r → domOn s 1 = true →
    r.mbx = none → r.rack = some x → (swapChecked (s.at t) r).1 ≠ .ok →
    exec (.bankCheckComplete t) s = .next (swapChecked (s.at t) r).2)

/-- A command of a mailbox that fails a check of R12 is answered with the first status that applies, and has no other
effect. Rests on the model's choices of assumption 14. -/
def Obligations.RefusedMailboxCommands : Prop :=
  ∀ (t : Time) (m : Master) (n : Fin 8) (s : State),
    let k := mbxNo m n
    let no := Host.Outcome.next (cmdAnswer (s.at t) k (cmdStatus (s.at t) k) [])
    ((s.at t).Refuses k oGetInfo → exec (.getInfo t m n) s = no) ∧
    ((s.at t).Refuses k oGetStatus → exec (.getStatus t m n) s = no) ∧
    ((s.at t).Refuses k oReset → exec (.reset t m n) s = no) ∧
    ((s.at t).Refuses k oImageLoad → ∀ i, exec (.imageLoad t m n i) s = no) ∧
    ((s.at t).Refuses k oImageWrite → ∀ i, exec (.imageWrite t m n i) s = no) ∧
    ((s.at t).Refuses k oImageConfirm → exec (.imageConfirm t m n) s = no) ∧
    ((s.at t).Refuses k oPointRead → exec (.pointRead t m n) s = no) ∧
    ((s.at t).Refuses k oPointWrite → exec (.pointWrite t m n) s = no) ∧
    ((s.at t).Refuses k oSetRef → exec (.setRef t m n) s = no) ∧
    ((s.at t).Refuses k oCapArm → exec (.capArm t m n) s = no) ∧
    ((s.at t).Refuses k oCapDisarm → exec (.capDisarm t m n) s = no) ∧
    ((s.at t).Refuses k oCapStatus → exec (.capStatus t m n) s = no) ∧
    ((s.at t).Refuses k oCapRead → exec (.capRead t m n) s = no) ∧
    ((s.at t).Refuses k oTraceStart → exec (.traceStart t m n) s = no) ∧
    ((s.at t).Refuses k oTraceRead → exec (.traceRead t m n) s = no) ∧
    ((s.at t).Refuses k oBillLoad → exec (.billLoad t m n) s = no) ∧
    ((s.at t).Refuses k oBillSwap → exec (.billSwap t m n) s = no) ∧
    ((s.at t).Refuses k oLeaseStatus → exec (.leaseStatus t m n) s = no) ∧
    ((s.at t).Refuses k oLeaseHandover → exec (.leaseHandover t m n) s = no) ∧
    ((s.at t).Refuses k oStackWithdraw → exec (.stackWithdraw t m n) s = no) ∧
    ((s.at t).Refuses k oAttest → exec (.attest t m n) s = no) ∧
    ((s.at t).Refuses k oDebugUnlock → ∀ ok, exec (.debugUnlock t m n ok) s = no) ∧
    ((s.at t).Refuses k oJournalRead → exec (.journalRead t m n) s = no) ∧
    ((s.at t).Refuses k oJournalFree → exec (.journalFree t m n) s = no) ∧
    ((s.at t).Refuses k oForward → exec (.forward t m n) s = no) ∧
    ((s.at t).Refuses k oStart → exec (.start t m n) s = no) ∧
    ((s.at t).Refuses k oStop → exec (.stop t m n) s = no) ∧
    ((s.at t).Refuses k oCellBypass → exec (.cellBypass t m n) s = no) ∧
    ((s.at t).Refuses k oContactor → exec (.contactor t m n) s = no) ∧
    ((s.at t).Refuses k oCellImagePush → exec (.cellImagePush t m n) s = no)

/-! ### QSPI and Ethernet (R80 to R87) -/

/-- The QSPI target (R80 to R82): each whole word of a write is one bus write by M1 at the next address; a read returns
the marker and its words; RDSR returns the kept status and clears it; a refused word and a cut word are kept for RDSR;
chip select ends the transfer. Rests on the model's choices of assumption 31. -/
def Obligations.QspiTransfersAreServed : Prop :=
  (∀ (t : Time) (a x : Word) (part : Fin 4) (s : State), running s = true → s.qspi.phase = .idle →
    let u := { s.at t with qspi.phase := .write, qspi.addr := a.toNat, qspi.marker := 0, qspi.out := [] }
    let r := busWrite u 1 a.toNat x.toNat 4 true
    r.2.qspi = u.qspi →
    let v := { r.2 with
      qspi.addr := (a.toNat + 4) % 2 ^ 32, qspi.part := part.val,
      qspi.status := if s.qspi.status = 0 then r.1.code else s.qspi.status }
    exec (.qspiWrite t a [x] part) s = .next v ∧ exec (.qspiQwrite t a [x] part) s = .next v) ∧
  (∀ (t : Time) (a : Word) (part : Fin 4) (s : State), running s = true → s.qspi.phase = .idle →
    let u := { s.at t with
      qspi.phase := .write, qspi.addr := a.toNat, qspi.marker := 0, qspi.out := [],
      qspi.part := part.val }
    exec (.qspiWrite t a [] part) s = .next u ∧ exec (.qspiQwrite t a [] part) s = .next u) ∧
  (∀ (t : Time) (a : Word) (s : State), running s = true → s.qspi.phase = .idle → s.qspi.part = 0 →
    let u := { s.at t with qspi.phase := .read, qspi.addr := a.toNat, qspi.marker := 0xa5, qspi.out := [] }
    let r := busRead u 1 a.toNat 4
    r.2.2.qspi = u.qspi →
    let v := { r.2.2 with
      qspi.addr := (a.toNat + 4) % 2 ^ 32, qspi.out := [r.2.1],
      qspi.status := if s.qspi.status = 0 then r.1.code else s.qspi.status }
    exec (.qspiRead t a 1 0) s = .next v ∧ exec (.qspiQread t a 1 0) s = .next v) ∧
  (∀ (t : Time) (s : State), running s = true → s.qspi.phase = .idle →
    exec (.qspiRdsr t) s = .next { s.at t with
      qspi.phase := .rdsr, qspi.marker := 0,
      qspi.out := [s.qspi.status % 256, s.qspi.status / 256 % 256], qspi.status := 0 } ∧
    exec (.qspiUnknownInstruction t) s = .next { s.at t with qspi.phase := .ignored, qspi.marker := 0, qspi.out := [] }) ∧
  (∀ (t : Time) (a : Word) (n : Nat) (s : State), running s = true → s.qspi.phase = .idle → blkOf a.toNat = none →
    Answers (exec (.qspiReadTimeout t a n) s) (fun u => u.qspi.phase = .read ∧ u.qspi.marker = 0x5a ∧
      u.qspi.out = List.replicate n 0 ∧ u.qspi.status = (if s.qspi.status = 0 then 1 else s.qspi.status) ∧
      s.SameMem u ∧ s.SameRegsBut u [(SYS_ERRCNT_UNMAP, 0), (ACC_ERR_VALID, 0), (ACC_ERR_MULTI, 0),
        (ACC_ERR_MASTER, 0), (ACC_ERR_STATUS, 0), (ACC_ERRADDR_ADDR, 0)])) ∧
  (∀ (t : Time) (s : State),
    (s.qspi.part = 0 → exec (.qspiCsRise t) s = .next { s.at t with qspi.phase := .idle }) ∧
    (s.qspi.part ≠ 0 → exec (.qspiCsRise t) s = .next { s.at t with
      qspi.phase := .idle, qspi.part := 0,
      qspi.status := if s.qspi.status = 0 then 3 else s.qspi.status })) ∧
  (∀ (t : Time) (a : Word) (ws : List Word) (n : Nat) (part : Fin 4) (s : State),
    running s = false ∨ s.qspi.phase ≠ .idle →
    exec (.qspiWrite t a ws part) s = .next (s.at t) ∧ exec (.qspiQwrite t a ws part) s = .next (s.at t) ∧
    exec (.qspiRead t a n part) s = .next (s.at t) ∧ exec (.qspiQread t a n part) s = .next (s.at t) ∧
    exec (.qspiRdsr t) s = .next (s.at t) ∧ exec (.qspiReadTimeout t a n) s = .next (s.at t) ∧
    exec (.qspiUnknownInstruction t) s = .next (s.at t))

/-- Ethernet management (R83 to R87): a stack without the lease drops and counts every datagram, a holder drops and
counts those of unlisted sources and takes the others; fragments are gathered until they are whole or 10 ms old; ARP
and echo requests to this stack's addresses are answered, each port under its own MAC address; the second announcement
follows 1 ms after the first; a runt or a frame above the MTU is dropped (R293). Rests on the model's choices of
assumption 32. -/
def Obligations.EthernetMessagesAreServed : Prop :=
  (∀ (t : Time) (port : Fin 2) (src dst : Word) (sport : Fin 65536) (d : List Nat) (s : State),
    (macTakes s (28 + d.length) = false → exec (.mailboxDatagram t port src dst sport d) s = .next (s.at t))) ∧
  (∀ (t : Time) (port : Fin 2) (src dst : Word) (sport : Fin 65536) (d : List Nat) (s : State),
    ethServes s port = true → macTakes s (28 + d.length) = true →
    (holds (s.at t) = false → exec (.mailboxDatagram t port src dst sport d) s =
      .next ((s.at t).satAdd MBX_NETCNT_DROP_NOLEASE 0)) ∧
    (holds (s.at t) = true → src.toNat ∉ (cfgOf s).sources → exec (.mailboxDatagram t port src dst sport d) s =
      .next ((s.at t).satAdd MBX_NETCNT_DROP_SRC 0)) ∧
    (holds (s.at t) = true → src.toNat ∈ (cfgOf s).sources → mineIp (s.at t) dst.toNat = true →
      exec (.mailboxDatagram t port src dst sport d) s = .next (datagramPost (s.at t) port src.toNat sport d))) ∧
  (∀ (t : Time) (port : Fin 2) (src dst : Word) (id : Fin 65536) (hlen off : Nat) (last : Bool) (bytes : List Nat)
    (s : State), ethServes s port = true → s.mbx.frags = [] → hlen + off + bytes.length ≤ 4176 →
    macTakes s (hlen + bytes.length) = true →
    last = false ∨ (off ≠ 0 ∧ bytes ≠ []) →
    exec (.ipv4Fragment t port src dst id hlen off last bytes) s = .next { s.at t with
      mbx.frags := [{ port := port.val, src := src.toNat, id := id.val, first := max s.clk t,
                      got := [(off, bytes.length)], whole := if last then some (off + bytes.length) else none,
                      bytes := bytes.zipIdx.foldl (fun (m : SMap Nat) e => smSet 0 m (off + e.2) (e.1 % 256)) [] }] }) ∧
  (∀ (t : Time) (s : State), exec (.fragmentTimeout t) s =
    .next { s.at t with mbx.frags := s.mbx.frags.filter (fun f => max s.clk t < f.first + 10 * msT) }) ∧
  (∀ (t : Time) (port : Fin 2) (a : Word) (s : State),
    (ethServes s port = true → a.toNat = portIp s port ∨ (holds (s.at t) = true ∧ a.toNat = (cfgOf s).plantAddr) →
      exec (.arpRequest t port a) s = .next { s.at t with ethOut := s.ethOut ++ [.arpReply port a.toNat (portMac port)] }) ∧
    (ethServes s port = false → exec (.arpRequest t port a) s = .next (s.at t))) ∧
  (∀ (t : Time) (port : Fin 2) (src dst : Word) (data : List Nat) (s : State),
    (ethServes s port = true → macTakes s (28 + data.length) = true → mineIp (s.at t) dst.toNat = true →
      exec (.icmpEcho t port src dst data) s =
        .next { s.at t with ethOut := s.ethOut ++ [.echoReply port src.toNat data] }) ∧
    (ethServes s port = false ∨ macTakes s (28 + data.length) = false ∨ mineIp (s.at t) dst.toNat = false →
      exec (.icmpEcho t port src dst data) s = .next (s.at t))) ∧
  (∀ (t : Time) (s : State), holds (s.at t) = true → s.vote.arp2 = true → s.vote.gained + msT ≤ max s.clk t →
    exec (.gratuitousArpSecond t) s = .next { s.at t with
      vote.arp2 := false, ethOut := s.ethOut ++
      [.gratuitousArp 0 (cfgOf s).plantAddr (portMac 0), .gratuitousArp 1 (cfgOf s).plantAddr (portMac 1)] }) ∧
  portMac 0 ≠ portMac 1

/-! ### Network time (R49, R295 to R314) -/

/-- PTP in stack role (R299, R305): announced datasets, port selection, the peer delay of a link, the messages sent,
and the relay of a transparent clock. Rests on the model's choices of assumptions 4, 24. -/
def Obligations.PtpMessagesAreServed : Prop :=
  (∀ (t : Time) (port : Fin 2) (a : Announce) (s : State), portUp s port = true → usesPtp s = true →
    a.domain = s.fget TIM_CFG_DOMAIN →
    let takes := (ptpOf s port).best.any (fun b => b.sender == a.sender) || dsBetter (some a) (ptpOf s port).best
    let u := if takes then ptpMod (s.at t) port (fun x => { x with best := some a }) else s.at t
    let o := 1 - s.tim.port
    let moves := s.fget TIM_CFG_PORT == 2 && dsBetter (ptpOf u o).best (ptpOf u s.tim.port).best
    exec (.announceMessage t port a) s = .next (if moves then { u with tim.port := o } else u)) ∧
  (∀ (t : Time) (port : Fin 2) (a : Announce) (s : State),
    portUp s port = false ∨ usesPtp s = false ∨ a.domain ≠ s.fget TIM_CFG_DOMAIN →
    exec (.announceMessage t port a) s = .next (s.at t)) ∧
  (∀ (t : Time) (port : Fin 2) (s : State), usesPtp s = true →
    (timePort s ≠ port → exec (.announceTimeout t port) s =
      .next (ptpMod (s.at t) port (fun x => { x with best := none }))) ∧
    (timePort s = port → s.fget TIM_CFG_PORT ≠ 2 → exec (.announceTimeout t port) s =
      .next (enterHold (dropLock (ptpMod (s.at t) port (fun x => { x with best := none }))))) ∧
    (timePort s = port → s.fget TIM_CFG_PORT = 2 → exec (.announceTimeout t port) s =
      .next (enterHold (dropLock { ptpMod (s.at t) port (fun x => { x with best := none }) with
        tim.port := 1 - port.val })))) ∧
  (∀ (t : Time) (port : Fin 2) (domain sender : Nat) (rx : Time) (origin : Nat) (corr : Int) (b : Announce) (s : State),
    usesPtp s = true → portUp s port = true → timePort s = port → domain = s.fget TIM_CFG_DOMAIN →
    (ptpOf s port).best = some b → b.sender = sender →
    let e : Int := (stampAt (s.at t) (26 + port.val) rx : Nat) - ((origin : Int) + corr + (ptpOf s port).delay
      + toSigned 16 (s.fget TIM_ASYM_ASYM (3 + port.val)) * 256)
    let u := judgeLock (if s.fget TIM_STAT_HOLD = 1 then s.at t else servo (s.at t) e) e 16 4
    (u.fget TIM_STAT_LOCK = 1 →
      exec (.syncMessage t port domain sender rx origin corr) s = .next (u.fset TIM_STAT_HOLD 0 0)) ∧
    (u.fget TIM_STAT_LOCK ≠ 1 → s.fget TIM_STAT_LOCK = 1 → inService u = true →
      exec (.syncMessage t port domain sender rx origin corr) s = .next (enterHold u)) ∧
    (u.fget TIM_STAT_LOCK ≠ 1 → s.fget TIM_STAT_LOCK ≠ 1 ∨ inService u = false →
      exec (.syncMessage t port domain sender rx origin corr) s = .next u)) ∧
  (∀ (t : Time) (port : Fin 2) (domain sender : Nat) (rx : Time) (origin : Nat) (corr : Int) (s : State),
    usesPtp s = false ∨ portUp s port = false ∨ timePort s ≠ port ∨ domain ≠ s.fget TIM_CFG_DOMAIN ∨
      (∀ b, (ptpOf s port).best = some b → b.sender ≠ sender) →
    exec (.syncMessage t port domain sender rx origin corr) s = .next (s.at t)) ∧
  (∀ (t : Time) (h : PdelayIn) (s : State), portUp s h.port = true → h.domain = s.fget TIM_CFG_DOMAIN →
    Answers (exec (.pdelayRequest t h) s) (fun u => ∃ d : Nat, u = { s.at t with
      free := u.free,
      ethOut := s.ethOut ++ [.pdelayResp h.port h.domain (stampAt (s.at t) (26 + h.port.val) t),
        .pdelayFollowUp h.port h.domain (stampAt (s.at t) (26 + h.port.val) t + d)] })) ∧
  (∀ (t : Time) (port : Fin 2) (s : State), portUp s port = true →
    exec (.pdelayRequestTimer t port) s = .next { ptpMod (s.at t) port (fun x =>
      { x with t1 := some (stampAt (s.at t) (26 + port.val) (max s.clk t)) }) with
        ethOut := s.ethOut ++ [.pdelayReq port (s.fget TIM_CFG_DOMAIN)] }) ∧
  (∀ (t : Time) (h : PdelayIn) (rx : Time) (t1 t2 t3 : Nat) (corr : Int) (s : State), portUp s h.port = true →
    h.domain = s.fget TIM_CFG_DOMAIN → (ptpOf s h.port).t1 = some t1 →
    exec (.pdelayResponse t h rx t2 t3 corr) s = .next (ptpMod (s.at t) h.port (fun x => { x with
      t1 := none,
      delay := ((stampAt (s.at t) (26 + h.port.val) rx : Nat) - (t1 : Int) - ((t3 : Int) - t2) - corr) / 2 }))) ∧
  (∀ (t : Time) (port : Fin 2) (kind : Nat) (corr : Int) (res : Nat) (s : State), s.fget TIM_CFG_TC = 1 →
    portUp s port = true → portUp s (1 - port.val) = true →
    (kind = 0 → exec (.ptpTransparentRelay t port kind corr res) s = .next { s.at t with
      ethOut := s.ethOut ++
      [.ptpRelay (1 - port.val) kind (corr + (res + (ptpOf s port).delay
        + toSigned 16 (s.fget TIM_ASYM_ASYM (3 + port.val)) * 256))] }) ∧
    (kind ∉ [0, 2, 3, 10] → exec (.ptpTransparentRelay t port kind corr res) s = .next { s.at t with
      ethOut := s.ethOut ++ [.ptpRelay (1 - port.val) kind corr] }) ∧
    (kind ∈ [2, 3, 10] → exec (.ptpTransparentRelay t port kind corr res) s = .next (s.at t))) ∧
  (∀ (t : Time) (port : Fin 2) (domain : Nat) (rx : Time) (t2 t3 : Nat) (kind : Nat) (corr : Int) (res : Nat) (s : State),
    (portUp s port = false ∨ domain ≠ s.fget TIM_CFG_DOMAIN →
      exec (.pdelayRequest t ⟨port, domain⟩) s = .next (s.at t) ∧
      exec (.pdelayResponse t ⟨port, domain⟩ rx t2 t3 corr) s = .next (s.at t)) ∧
    (portUp s port = false → exec (.pdelayRequestTimer t port) s = .next (s.at t) ∧
    exec (.ptpTransparentRelay t port kind corr res) s = .next (s.at t)))

/-- A cell's time (R302 to R308), the feed-forward (R49), and the reading of network time (R314). Rests on the model's
choices of assumptions 1, 24. -/
def Obligations.CellTimeAndHoldover : Prop :=
  (∀ (t : Time) (s : State), recent s.tim.ffAt (10 * msT) (max s.clk t) = false →
    let sensor := s.fget KILN_COMPSEL_OSCSNS
    let ff := if cfgInForce s then ((tempPoly (s.at t) (cfgOf s).ff sensor).mul (Q.ofNat 256)).round else 0
    exec (.tempFeedforward t) s = .next (putRate { s.at t with sys.ffwd := ff, tim.ffAt := some (max s.clk t) })) ∧
  (∀ (t : Time) (s : State), recent s.tim.ffAt (10 * msT) (max s.clk t) = true →
    exec (.tempFeedforward t) s = .next (s.at t)) ∧
  (∀ (t : Time) (l : Lane) (rx : Time) (fr : Frame) (s u : State) (origin : Nat) (corr : Int) (cyc ts : Nat),
    rxCheck (s.at t) l fr = (true, u) → fr.body = .time origin corr cyc ts → isUpPort u l = true →
    let sid := fr.hdr.sid
    let hold := bit fr.hdr.xflags 0
    let k := if hold = true ∧ u.fget VOTE_CEPOCH_EPOCH < fr.hdr.epoch ∧ isStack u = false then
      { u with cell.holder := sid }.fset VOTE_CEPOCH_EPOCH 0 fr.hdr.epoch else u
    let ref : Prop := if k.cell.holder = 3 then k.tim.ref = none ∨ k.tim.ref = some sid
      else k.cell.holder = sid ∨ k.tim.ref = some sid
    let other : Prop := if k.cell.holder = 3 then k.tim.ref ≠ some sid ∧ ¬ (hold = true ∧ k.tim.ref = none)
      else k.cell.holder ≠ sid
    let good : Prop := hold = true ∧ ref ∧ k.fget VOTE_CEPOCH_EPOCH ≤ fr.hdr.epoch
    let stays := [ST_PRECHARGED, ST_CRUN, ST_COAST].contains (devState k)
    ∃ c, ((good ∧ cyc ≠ k.fget TIM_CYC_T ∧ cycOk cyc = true ∧ stays = false → c = syncCycle (k.fset TIM_CYC_T 0 cyc)) ∧
      (¬ (good ∧ cyc ≠ k.fget TIM_CYC_T ∧ cycOk cyc = true ∧ stays = false) → c = k)) ∧
    let e : Int := (stampAt c l rx : Nat) - ((origin : Int) + corr + ingress c l)
    ∃ p, (other → p = c.fset TIM_PEEROFS_OFS sid
        (ofSigned 32 (clampI (roundShift 14 e) (-(2 ^ 31 - 1 : Int)) (2 ^ 31 - 1)))) ∧ (¬ other → p = c) ∧
    let use : Prop := good ∧ bit fr.hdr.xflags 1 = false ∧ c.fget TIM_PDLY_VALID l = 1 ∧ cyc = p.fget TIM_CYC_T
    let v := judgeLock (servo ({ p with tim.used := true, tim.lastUse := p.clk, tim.ref := some sid }.fsets
      [(TIM_STAT_REFSID, 0, sid), (TIM_STAT_HOLD, 0, 0)]) e) e 256 16
    (¬ use → exec (.timeFrame t l rx fr) s = .next (p.satAdd TIM_CNT1_IGNORED 0)) ∧
    (use → exec (.timeFrame t l rx fr) s =
      .next (tryReady (if v.flag TIM_STAT_LOCK then srcRelease v SRC_TIMELOSS else v)))) ∧
  (∀ (t : Time) (l : Lane) (rx : Time) (fr : Frame) (s u : State), rxCheck (s.at t) l fr = (false, u) →
    exec (.timeFrame t l rx fr) s = .next u) ∧
  (∀ (t : Time) (s : State),
    (isStack s = true ∨ recent s.tim.dreqAt msT (max s.clk t) = true →
      exec (.delayRequestTimer t) s = .next (s.at t)) ∧
    (isStack s = false → recent s.tim.dreqAt msT (max s.clk t) = false → exec (.delayRequestTimer t) s =
      .next (sendAll { s.at t with tim.dreqAt := some (max s.clk t) } ([0, 1, 2].filter (laneActive (s.at t))) 6
        (fun l => idleFrame (s.at t) l 0x8000)))) ∧
  (∀ (t : Time) (port : Fin 3) (s : State),
    let due : Prop := ∃ t1, (lnOf s port).t1 = some t1 ∧ isUpPort s port = true ∧
      t1 + 10 * usT ≤ stampAt (s.at t) port (max s.clk t)
    (due → exec (.echolost t port) s =
      .next ((lnMod (s.at t) port (fun x => { x with t1 := none })).satAdd TIM_CNT2_ECHOLOST 0)) ∧
    (¬ due → exec (.echolost t port) s = .next (s.at t))) ∧
  (∀ (t : Time) (s : State),
    let due : Prop := isStack s = false ∧ s.tim.used = true ∧ s.fget TIM_STAT_HOLD ≠ 1 ∧
      s.tim.lastUse + 10 * cycT s ≤ max s.clk t
    let u := enterHold (s.at t)
    (due → u.fget TIM_HOLD_CELLHOLD ≠ 0 → exec (.cellHoldoverEntry t) s = .next u) ∧
    (due → u.fget TIM_HOLD_CELLHOLD = 0 → exec (.cellHoldoverEntry t) s = .next (srcAssert (dropLock u) SRC_TIMELOSS)) ∧
    (¬ due → exec (.cellHoldoverEntry t) s = .next (s.at t))) ∧
  (∀ (t : Time) (s : State),
    let due : Prop := isStack s = false ∧ s.tim.used = true ∧ s.fget TIM_STAT_HOLD = 1 ∧
      s.tim.holdAt + s.fget TIM_HOLD_CELLHOLD * msT ≤ max s.clk t
    (due → exec (.cellholdExpiry t) s = .next (srcAssert (dropLock (s.at t)) SRC_TIMELOSS)) ∧
    (¬ due → exec (.cellholdExpiry t) s = .next (s.at t))) ∧
  (∀ (m : Master) (s : State), s.MayRead m 0x40020 →
    exec (.timNowRead m) s = .next { s with
      tim.now := smSet 0 s.tim.now m (netTime s),
      rdata := smSet 0 s.rdata m (nsOf (netTime s)) })

/-! ### Points, cycle, mash and stack control (R30 to R33, R97 to R187) -/

/-- The point window and the directory (R101 to R108): a read of word 0 latches the record; word 1 of a write is staged
and goes with word 0; without it the value of a 32-bit type is extended; a 64-bit point without its word 1 is refused
with CONFLICT, an unlisted point with RANGE. Rests on the model's choices of assumption 7. -/
def Obligations.PointWindowAccesses : Prop :=
  (∀ (m : Master) (k : Nat) (s : State), s.MayRead m (winAddr k 0) → k < 262144 → slotValid s k = true →
    s.sec.ecc = [] →
    exec (.pointWord0Read m k) s = .next { s with
      grist.latch := smSet none s.grist.latch m (some { slot := k, hi := recW s k 1, tag := recW s k 2, ctl := recW s k 3 })
      rdata := smSet 0 s.rdata m (recW s k 0) }) ∧
  (∀ (m : Master) (k : Nat) (s : State), s.MayRead m (winAddr k 0) → k < 262144 → slotValid s k = false →
    s.sec.ecc = [] → Answers (exec (.pointWord0Read m k) s) (fun u => u.fget PT_ERR_VALID = 1 ∧ smGet 0 u.rdata m = 0 ∧
      (s.fget PT_ERR_VALID = 0 → u.fget PT_ERR_STATUS = 9) ∧ u.grist = s.grist ∧ s.SameMem u)) ∧
  (∀ (m : Master) (k : Nat) (w : Word) (s : State), s.MayWrite m (winAddr k 1) w.toNat false → k < 262144 →
    slotValid s k = true → s.sec.ecc = [] →
    let b := countRsvd s m (winAddr k 1) w.toNat
    exec (.pointWord1Write m k w) s = .next (s.noted m (winAddr k 1) w.toNat
      { b with grist.stage := smSet none b.grist.stage m (some (k, w.toNat)) })) ∧
  (∀ (m : Master) (k h : Nat) (w : Word) (s : State), s.MayWrite m (winAddr k 0) w.toNat false → k < 262144 →
    slotValid s k = true → s.sec.ecc = [] → srcTakes (dSrc (slotEnt s k)) m = true →
    smGet none s.grist.stage m = some (k, h) →
    let b := countRsvd s m (winAddr k 0) w.toNat
    exec (.pointWord0Write m k w) s = .next (s.noted m (winAddr k 0) w.toNat
      (ptWrite { b with grist.stage := smSet none b.grist.stage m none } k (w.toNat + h * 2 ^ 32) false
        (if dSrc (slotEnt s k) = SRC_REF then W_DIRECT m else W_OWN)))) ∧
  (∀ (m : Master) (k : Nat) (w : Word) (s : State), s.MayWrite m (winAddr k 0) w.toNat false → k < 262144 →
    slotValid s k = true → s.sec.ecc = [] → srcTakes (dSrc (slotEnt s k)) m = true →
    (∀ h, smGet none s.grist.stage m ≠ some (k, h)) → ty64 (dType (slotEnt s k)) = false →
    let b := countRsvd s m (winAddr k 0) w.toNat
    exec (.pointWord0Write m k w) s = .next (s.noted m (winAddr k 0) w.toNat
      (ptWrite { b with grist.stage := smSet none b.grist.stage m none } k
        (w.toNat + extendPt (dType (slotEnt s k)) w.toNat * 2 ^ 32) false
        (if dSrc (slotEnt s k) = SRC_REF then W_DIRECT m else W_OWN)))) ∧
  (∀ (m : Master) (k : Nat) (w : Word) (s : State), s.MayWrite m (winAddr k 0) w.toNat false → k < 262144 →
    s.sec.ecc = [] →
    slotValid s k = false ∨ srcTakes (dSrc (slotEnt s k)) m = false ∨
      ((∀ h, smGet none s.grist.stage m ≠ some (k, h)) ∧ ty64 (dType (slotEnt s k)) = true) →
    Answers (exec (.pointWord0Write m k w) s) (fun u => u.fget PT_ERR_VALID = 1 ∧
      (s.fget PT_ERR_VALID = 0 → u.fget PT_ERR_STATUS = (if slotValid s k then 8 else 9)) ∧
      smGet none u.grist.stage m = none ∧ s.SameMem u ∧
      s.SameRegsBut u [(PT_ERR_VALID, 0), (PT_ERR_MULTI, 0), (PT_ERR_MASTER, 0), (PT_ERR_STATUS, 0),
        (PT_ERRPT_POINT, 0), (SYS_ERRCNT_RSVD, 0), (ACC_JNLHEAD_HEAD, 0), (ACC_JNLCNT_LOST, 0),
        (ACC_JNLCNT_UNREAD, 0), (SEC_EINJ_ARM, 0)])) ∧
  (∀ (m : Master) (k : Nat) (w : Word) (s : State), s.MayWrite m (winAddr k 1) w.toNat false → k < 262144 →
    slotValid s k = false → s.sec.ecc = [] → Answers (exec (.pointWord1Write m k w) s) (fun u =>
      u.fget PT_ERR_VALID = 1 ∧ (s.fget PT_ERR_VALID = 0 → u.fget PT_ERR_STATUS = 9) ∧ u.grist = s.grist ∧ s.SameMem u)) ∧
  (∀ (m : Master) (w : Word) (s : State), s.MayWrite m 0x18000c w.toNat false → s.sec.ecc = [] →
    let b := countRsvd s m 0x18000c w.toNat
    let e := s.fget PT_DIRIDX_IDX m
    (bit w.toNat 0 = true → bit w.toNat 1 = false →
      exec (.dirRead m w) s = .next (s.noted m 0x18000c w.toNat
        (b.fsets [(PT_DIRLO_WORD, m, dirEnt s e % 2 ^ 32), (PT_DIRHI_WORD, m, dirEnt s e / 2 ^ 32)]))) ∧
    let x := s.fget PT_DIRHI_WORD m * 2 ^ 32 + s.fget PT_DIRLO_WORD m
    (bit w.toNat 1 = true → bit w.toNat 0 = false → dirCheck s e x = .ok →
      exec (.dirWrite m w) s = .next (s.noted m 0x18000c w.toNat (putEntry b m e x))) ∧
    (bit w.toNat 1 = true → bit w.toNat 0 = true ∨ dirCheck s e x ≠ .ok → Answers (exec (.dirWrite m w) s) (fun u =>
      u.fget PT_ERR_VALID = 1 ∧ u.grist = s.grist ∧ (s.fget PT_ERR_VALID = 0 → u.fget PT_ERR_STATUS =
        (if bit w.toNat 0 then Status.conflict else dirCheck s e x).code))) ∧
    exec (.dirWrite m w) s = exec (.dirRead m w) s)

/-- The cycle (R114, R115, R271, R288, R296): at a boundary TIM_CYCLE takes the cycle of network time and the device's
cycle work runs, and otherwise nothing moves but the clock; the fill is cut and closed at its offset; a TEL frame that
fails its checks is dropped; a good one is kept and its VOTE word taken, and one from a chain lane is also forwarded to
the live peers that ask for the chain (R287) and may begin an image offer to its cell. Rests on the model's choices of
assumptions 11, 43, 51. -/
def Obligations.TheCycleAndItsFill : Prop :=
  (∀ (t : Time) (s : State), s.tim.bound < boundAt (s.at t) (netTime (s.at t)) →
    netTime (s.at t) < boundAt (s.at t) (netTime (s.at t)) + 109227 →
    (isStack s = true → exec (.cycleBoundary t) s = .next (stackBoundary (syncCycle (s.at t)))) ∧
    (isStack s = false → exec (.cycleBoundary t) s = .next (cellBoundary (syncCycle (s.at t)))) ∧
    (syncCycle (s.at t)).fget TIM_CYCLE_CYCLE = cycleAt (s.at t) (netTime (s.at t)) ∧
    (syncCycle (s.at t)).tim.bound = boundAt (s.at t) (netTime (s.at t))) ∧
  (∀ (t : Time) (s : State), boundAt (s.at t) (netTime (s.at t)) ≤ s.tim.bound ∨
      boundAt (s.at t) (netTime (s.at t)) + 109227 ≤ netTime (s.at t) →
    exec (.cycleBoundary t) s = .next (s.at t)) ∧
  (∀ (t : Time) (s : State), isStack s = true → domOn s 2 = true →
    (s.tim.bound + s.eget PT_FILLCFG_OFS * 65536 ≤ netTime (s.at t) →
      exec (.fillCutoff t) s = .next { s.at t with grist.cut := true } ∧
      (s.grist.closed = false → s.sys.phase = .firmware → s.sys.halted = false →
        exec (.fillClose t) s = .next (fillFirmware (fillClose { s.at t with grist.cut := true })))) ∧
    (netTime (s.at t) < s.tim.bound + s.eget PT_FILLCFG_OFS * 65536 →
      exec (.fillCutoff t) s = .next (s.at t) ∧ exec (.fillClose t) s = .next (s.at t)) ∧
    (s.grist.closed = true → exec (.fillClose t) s = .next (s.at t))) ∧
  (∀ (t : Time) (s : State), isStack s = false ∨ domOn s 2 = false →
    exec (.fillCutoff t) s = .next (s.at t) ∧ exec (.fillClose t) s = .next (s.at t)) ∧
  (∀ (t : Time) (l : Lane) (fr : Frame) (s u : State) (b n st ca ap v f : Nat) (us : List Update),
    rxCheck (s.at t) l fr = (true, u) → fr.body = .tel b n st ca ap v f us → isStack u = true →
    let w := voteReport (telArrive (repTime (seenPut u fr) (10 + l.val / 4)) (seenPut u fr) fr) (fr.hdr.chain * 8 + fr.hdr.pos) v
    let ahead : Frame := { fr with hdr := { fr.hdr with fwd := true } }
    let forwarded := (livePeers w).foldl (fun (x : State) p => match peerLane x p with
      | some k => if bit (lnOf x k).far1 l = true then sendOn x k 4 ahead else x
      | none => x) w
    (isChainLane w l = true → exec (.telFrame t l fr) s = .next (offerStart forwarded l (fr.hdr.pos + 1))) ∧
    (isChainLane w l = false → exec (.telFrame t l fr) s = .next w)) ∧
  (∀ (t : Time) (l : Lane) (fr : Frame) (s u : State), rxCheck (s.at t) l fr = (true, u) →
    isStack u = false ∨ bodyTy fr.body ≠ 2 → exec (.telFrame t l fr) s = .next u) ∧
  (∀ (t : Time) (l : Lane) (fr : Frame) (s u : State), rxCheck (s.at t) l fr = (false, u) →
    exec (.telFrame t l fr) s = .next u)

/-- The tasks (R129, R147): the main task starts once in a cycle at its offset and after the fill; the fast task starts
on its tick, between two items of the main task; the ends update MASH_CYCLE, MASH_END and the overrun flags; a task
that is not done at its deadline overruns. Each command first brings a fast execution to the present. Rests on the
model's choices of assumptions 9, 10, 42, 51. -/
def Obligations.MashTasksRun : Prop :=
  (∀ s : State, (s.mash.fast = none → settleFast s = s) ∧ (s.mash.fast.isSome = true →
    let u := runTask s true (some s.clk)
    (taskDone u true = false → settleFast s = u) ∧ (taskDone u true = true → settleFast s = fastFinish u))) ∧
  (∀ (t : Time) (s : State), exec (.fastTaskEnd t) s = .next (settleFast (s.at t))) ∧
  (∀ (t : Time) (s : State),
    let v := settleFast (s.at t)
    let due : Prop := mashRuns v = true ∧ v.mash.main = none ∧ v.mash.ranCycle ≠ cycleNow v + 1 ∧
      (isStack v = true → v.grist.closed = true) ∧ (mainWindow v).1 ≤ netTime v ∧ netTime v < (mainWindow v).2
    (due → exec (.mainTaskStart t) s = .next (mainStart v)) ∧ (¬ due → exec (.mainTaskStart t) s = .next v)) ∧
  (∀ s : State, (mainWindow s).2 = (mainWindow s).1 + 2 * 65536 ∧
    (isStack s = false → (mainWindow s).1 = s.tim.bound + billStart s * 65536 + 2 * 65536) ∧
    (isStack s = true →
      (mainWindow s).1 = max (s.tim.bound + billStart s * 65536) s.grist.closedAt + 2 * 65536)) ∧
  (∀ (s : State) (fast : Bool), s.sec.ecc = [] → startRead s fast = { s with mash.ueNow := false }) ∧
  (∀ s : State,
    (s.mash.fast = none → mainStart s = runIntake (startRead { s with
      mash.ranCycle := cycleNow s + 1
      mash.main := some { cyc := cycleNow s, began := netTime s, next := s.clk + 20 * nsT } } false) false) ∧
    (s.mash.fast.isSome = true → mainStart s = startRead { s with
      mash.ranCycle := cycleNow s + 1
      mash.main := some { cyc := cycleNow s, began := netTime s, next := s.clk, held := 20 * nsT } } false)) ∧
  (∀ (t : Time) (s : State),
    let v := settleFast (s.at t)
    let due : Prop := mashRuns v = true ∧ billFast v ≠ 0 ∧ fastGrid v ≤ netTime v ∧ netTime v < fastGrid v + 65536 ∧
      v.mash.fastAt ≠ fastGrid v + 1
    (¬ due → exec (.fastTaskStart t) s = .next v) ∧
    (due → v.mash.fast = none →
      let w := runTask v false (some v.clk)
      (w.mash.main = none → exec (.fastTaskStart t) s = .next (fastStart w w.clk)) ∧
      (∀ m, w.mash.main = some m →
        (m.pos = 0 ∧ fastGrid w ≤ m.began → exec (.fastTaskStart t) s =
          .next (fastStart { w with mash.main := some { m with next := w.clk, held := 20 * nsT } } w.clk)) ∧
        (¬ (m.pos = 0 ∧ fastGrid w ≤ m.began) → exec (.fastTaskStart t) s =
          .next (fastStart w (max w.clk m.next))))) ∧
    (∀ x, due → v.mash.fast = some x →
      let w := runTask v true none
      ((inItems v true).length < x.pos → ∀ y, w.mash.fast = some y → exec (.fastTaskStart t) s =
        .next (fastStart (fastFinish w) (max w.clk y.next))) ∧
      (x.pos ≤ (inItems v true).length → exec (.fastTaskStart t) s =
        .next (fastStart (overrun (taskSamples { v with mash.fast := none } true x) true) (max v.clk x.next))))) ∧
  (∀ (s : State) (go : Time), fastStart s go = runIntake (startRead { s with
    mash.fastAt := fastGrid s + 1
    mash.main := s.mash.main.map (fun m => { m with next := max m.next go })
    mash.fast := some { cyc := cycleNow s, began := fastGrid s, next := go + 20 * nsT } } true) true) ∧
  (∀ (s : State) (r x : TaskRun), s.mash.fast = some r → (runTask s true none).mash.fast = some x →
    let u := { runTask s true none with mash.fast := none, mash.ovrF := 0 }.fset MASH_STAT_FOVR 0 0
    let v := { u with mash.main := u.mash.main.map (fun m =>
      { m with next := max m.next x.next + m.held, held := 0 }) }
    (x.ship = none → fastFinish s = runIntake (taskSamples v true r) false) ∧
    (∀ i, x.ship = some i → fastFinish s = runIntake (taskSamples (shipFast v i r.began) true r) false)) ∧
  (∀ (t : Time) (g : List Nat) (s : State),
    let x := settleFast (s.at t)
    (x.mash.main = none ∨ x.mash.fast.isSome = true → exec (.mainTaskEnd t g) s = .next x) ∧
    (x.mash.main.isSome = true → x.mash.fast = none →
      let u := runTask x false (some x.clk)
      (u.mash.main = none ∨ taskDone u false = false → exec (.mainTaskEnd t g) s = .next u) ∧
      (∀ r, u.mash.main = some r → taskDone u false = true →
        let ns := (netTime u - (u.clk - r.next) - u.tim.bound) / 65536
        let v := { u with mash.main := none, mash.ovrM := 0 }.fsets [(MASH_CYCLE_CYCLE, 0, r.cyc), (MASH_END_NS, 0, ns),
          (MASH_ENDMAX_NS, 0, max ns (u.fget MASH_ENDMAX_NS)), (MASH_QUALCNT_N, 0, r.qual), (MASH_STAT_OVR, 0, 0)]
        let outlet (x : State) : State := if isStack x then afterOutlet x else x
        (r.ship = none → exec (.mainTaskEnd t g) s = .next (outlet (taskSamples v false r))) ∧
        (∀ i, r.ship = some i → exec (.mainTaskEnd t g) s =
          .next (outlet (taskSamples (if isStack v then shipStackRun v i g else shipCell v i) false r)))))) ∧
  (∀ (t : Time) (s : State),
    let v := settleFast (s.at t)
    let u := if v.mash.fast.isSome then v else runTask v false (some v.clk)
    let due : Prop := mashRuns v = true ∧ v.tim.bound + billDeadline v * 65536 ≤ netTime v ∧
      netTime v < v.tim.bound + billDeadline v * 65536 + 65536
    (¬ due → exec (.mainDeadline t) s = .next v) ∧
    (due → u.mash.main = none →
      (u.mash.ranCycle = cycleNow u + 1 → exec (.mainDeadline t) s = .next u) ∧
      (u.mash.ranCycle ≠ cycleNow u + 1 → exec (.mainDeadline t) s =
        .next (overrun { u with mash.ranCycle := cycleNow u + 1 } false))) ∧
    (∀ r, due → u.mash.main = some r →
      (outletBegun u r = true → exec (.mainDeadline t) s = .next u) ∧
      (outletBegun u r = false → exec (.mainDeadline t) s =
        .next (overrun (taskSamples (shipCut { u with mash.main := none } r) false r) false))))

/-- The mash registers (R119, R144, R150 to R152): a bank swap is requested, tuning words are staged and committed,
bank words and node words are reached through their address registers, and trace channels are armed, started and
stopped. Rests on the model's choices of assumption 42. -/
def Obligations.MashRegistersActAsWritten : Prop :=
  (∀ (m : Master) (w : Word) (s : State), s.MayWrite m 0x171004 w.toNat (bit w.toNat 0 || bit w.toNat 1) →
    exec (.tuneCommit m w) s = exec (.bankSwapRequest m w) s ∧
    (bit w.toNat 0 = false ∨ swapBusy s = false →
      let b := countRsvd s m 0x171004 w.toNat
      let c := if bit w.toNat 1 then { b with mash.tuneGo := b.mash.tune.length } else b
      exec (.bankSwapRequest m w) s = .next (s.noted m 0x171004 w.toNat
        (if bit w.toNat 0 then { c with mash.chk := some { cyc := c.fget MASH_SWAPCYC_CYCLE, master := m.val } } else c))) ∧
    (bit w.toNat 0 = true → swapBusy s = true → Answers (exec (.bankSwapRequest m w) s) (fun u =>
      u.mash = s.mash ∧ u.fget MASH_ERR_VALID = 1))) ∧
  (∀ (m : Master) (w : Word) (s : State), s.MayWrite m 0x176004 w.toNat false →
    let i := s.fget MASH_TUNEIDX_IDX m
    let open_ : Prop := (isStack s = false ∨ stackCount s = 1) ∧ s.mash.tune.length < 64
    (open_ →
      let b := countRsvd s m 0x176004 w.toNat
      exec (.mashTunedataWrite m w) s = .next (s.noted m 0x176004 w.toNat
        ({ b with mash.tune := b.mash.tune ++ [(i, w.toNat)] }.fsets [(MASH_TUNEDATA_VALUE, 0, w.toNat),
          (MASH_TUNEIDX_IDX, m, i + 1), (MASH_STAT_TUNED, 0, b.mash.tune.length + 1)]))) ∧
    (¬ open_ → Answers (exec (.mashTunedataWrite m w) s) (fun u =>
      u.mash = s.mash ∧ u.fget MASH_ERR_VALID = 1 ∧ u.fget MASH_TUNEIDX_IDX m = i))) ∧
  (∀ (m : Master) (k : Fin 2) (w : Word) (s : State), s.MayWrite m (0x172004 + 0x1000 * k) w.toNat false →
    let x := s.fget (bankAddr k) m
    (x < 0x69000 → bankBusy s k = false →
      exec (.bankDataWrite m k w) s = .next (s.noted m (0x172004 + 0x1000 * k) w.toNat
        ((bankPut (countRsvd s m (0x172004 + 0x1000 * k) w.toNat) k x w.toNat).fset (bankAddr k) m (x + 4)))) ∧
    (0x69000 ≤ x ∨ bankBusy s k = true → Answers (exec (.bankDataWrite m k w) s) (fun u =>
      u.mash = s.mash ∧ u.fget MASH_ERR_VALID = 1 ∧ u.fget (bankAddr k) m = x))) ∧
  (∀ (s : State) (i : Nat), holdsShipped s (actBank s) = false ∨ i < 2 → shipNode s i = s) ∧
  (∀ (m : Master) (s : State), s.MayRead m 0x175004 → s.sec.ecc = [] →
    let i := s.fget MASH_NADDR_NODE m
    let r := shipNode s i
    let v := if i = 1 then F_ONE else smGet 0 r.mash.nodes i
    exec (.nodeDataRead m) s = .next { r.fsets [(MASH_NADDR_NODE, m, i + 1), (MASH_NFLAG_SUB, 0, bits v 33 1),
      (MASH_NFLAG_QUAL, 0, bits v 32 1)] with rdata := smSet 0 r.rdata m (v % 2 ^ 32) }) ∧
  (∀ (m : Master) (w : Word) (s : State), s.MayWrite m 0x171008 w.toNat false →
    let one (v : State) (c : Nat) : State :=
      if v.fget MASH_TRSTAT_STATE c = 0 ∨ v.fget MASH_TRSTAT_STATE c = 3 then
        (trMod v c (fun x => { x with skip := 0, left := 0, startAt := none })).fsets [(MASH_TRSTAT_STATE, c, 1),
          (MASH_TRSTAT_TAKEN, c, 0), (MASH_TRSTAT_OLDEST, c, (trOf v c).wr)]
      else v
    exec (.traceArm m w) s = .next (s.noted m 0x171008 w.toNat
      ((bitList 32 w.toNat).foldl one (capSettle (countRsvd s m 0x171008 w.toNat))))) ∧
  (∀ (m : Master) (w : Word) (s : State), s.MayWrite m 0x17100c w.toNat false →
    let one (v : State) (c : Nat) : State :=
      if v.fget MASH_TRSTAT_STATE c = 1 ∧ v.fget MASH_TRCFG1_PRE c ≤ v.fget MASH_TRSTAT_TAKEN c then
        (trMod v c (fun x => { x with left := 0, startAt := none })).fset MASH_TRSTAT_STATE c 2
      else trMod v c (fun x => { x with startAt := none })
    exec (.traceStartEvent m w) s = .next (s.noted m 0x17100c w.toNat
      ((bitList 32 w.toNat).foldl one (countRsvd s m 0x17100c w.toNat)))) ∧
  (∀ (m : Master) (w : Word) (s : State), s.MayWrite m 0x171010 w.toNat false →
    let one (v : State) (c : Nat) : State :=
      (trMod v c (fun x => { x with skip := 0, left := 0, startAt := none })).fset MASH_TRSTAT_STATE c 0
    exec (.traceStop m w) s = .next (s.noted m 0x171010 w.toNat
      ((bitList 32 w.toNat).foldl one (countRsvd s m 0x171010 w.toNat))))

/-- Enumeration ends complete or by its time; PITCH is entered; the precharge deadline, the breaker and its
confirmation, and the ends of pulses act as their rules say. Rests on the model's choices of assumptions 12, 44, 46. -/
def Obligations.StackControlEventsAct : Prop :=
  (∀ (t : Time) (s : State), isStack s = true → devState s = 2 →
    let l := heardCells (s.at t)
    (usedChains s).all (fun k => laneActive s k && l.contains (8 * k + chainLen s k - 1)) = true →
    armsFull (s.at t) l = true →
    exec (.enumComplete t) s = .next (setDev { s.at t with ctl.found := l } ST_TIME_LOCK CA_NONE)) ∧
  (∀ (t : Time) (s : State), isStack s = true → devState s = 2 →
    s.ctl.enumAt + (cfgOf s).topo.enumTimeout * msT ≤ max s.clk t →
    let l := heardCells (s.at t)
    (armsFull (s.at t) l = true →
      exec (.enumTimeout t) s = .next (setDev { s.at t with ctl.found := l } ST_TIME_LOCK CA_NONE)) ∧
    (armsFull (s.at t) l = false → exec (.enumTimeout t) s =
      .next (setCause { s.at t with ctl.enumAt := max s.clk t, ctl.cells := [], ctl.found := [] } CA_TOPOLOGY))) ∧
  (∀ (t : Time) (s : State), isStack s = false ∨ devState s ≠ 2 →
    exec (.enumComplete t) s = .next (s.at t) ∧ exec (.enumTimeout t) s = .next (s.at t)) ∧
  (∀ (t : Time) (s : State), isStack s = true → devState s = 3 → s.fget TIM_STAT_LOCK = 1 → s.ctl.startHeld = true →
    let rdy (c : Nat) : Bool := cellState s c == ST_READY || cellState s c == ST_PRECHARGED
    let rejoins := s.vote.rejoin && [0, 1, 2].any (fun sid => sid != ownSid s && peerRuns (s.at t) sid)
    (rejoins = true ∨ ∀ c ∈ s.ctl.found, rdy c = true) →
    let x := setDev (classReads (s.at t)) ST_PITCH CA_NONE
    let u := { x with ctl := { x.ctl with
      step := 1, pitchAt := x.clk, laggards := false, startHeld := false, ctlStop := false, stop := none, stopStep := 0 } }
    ((cfgOf u).ctrl.shipped = false → exec (.pitchEntry t) s = .next u) ∧
    ((cfgOf u).ctrl.shipped = true → exec (.pitchEntry t) s = .next (wordsPut ((cfgCells u).foldl (fun (v : State) c =>
      let n := if rejoins = true then classOf v c else if rdy c = true then C_JOINING else C_LOST
      sysPoint { v with ctl := { v.ctl with cls := smSet 0 v.ctl.cls c n, frozen := smErase v.ctl.frozen c } }
        (P_CLASS c) n) u)))) ∧
  (∀ (t : Time) (s : State), isStack s = false ∨ devState s ≠ 3 ∨ s.fget TIM_STAT_LOCK ≠ 1 ∨ s.ctl.startHeld = false →
    exec (.pitchEntry t) s = .next (s.at t)) ∧
  (∀ (t : Time) (s : State), isStack s = true → devState s = 4 → s.ctl.step = 1 → s.ctl.laggards = false → shippedCfg s = true →
    s.ctl.pitchAt + (cfgOf s).ctrl.prechgTmo * secT ≤ max s.clk t →
    let v := classReads (s.at t)
    let slow := v.ctl.found.filter (fun c => ! [ST_PRECHARGED, ST_BYPASSED, ST_CRUN, ST_COAST].contains (cellState v c))
    let u := { v with ctl.laggards := true }
    let w := if holds u = true then
      { u with ctl.sent := u.ctl.sent ++ slow.map (fun c => (c, false, knownEpoch u)) } else u
    exec (.prechargeTimeout t) s = .next (if armShort w slow then stopBegin w CA_TOPOLOGY else w)) ∧
  (∀ (t : Time) (s : State), isStack s = true → devState s = 5 → s.ctl.step = 3 → s.ctl.brk = 0 → s.ctl.stop = none →
    shippedCfg s = true →
    let v := eccSlots (s.at t) [0x30803]
    let p := breakerPulse v 0
    (devState v = 5 → ptWord v 0x30803 = F_ONE → exec (.breakerClose t) s =
      .next { p with ctl := { p.ctl with brk := 2, brkAt := p.clk } }) ∧
    (devState v ≠ 5 ∨ ptWord v 0x30803 ≠ F_ONE → exec (.breakerClose t) s = .next v)) ∧
  (∀ (t : Time) (s : State), shippedCfg s = false ∨ devState s ≠ 5 → exec (.breakerClose t) s = .next (s.at t)) ∧
  (∀ (t : Time) (s : State), shippedCfg s = false → exec (.prechargeTimeout t) s = .next (s.at t) ∧
    exec (.breakerTimeout t) s = .next (s.at t) ∧ exec (.stopBreakerOpen t) s = .next (s.at t)) ∧
  (∀ (t : Time) (s : State), isStack s = true →
    let seen (c : Bool) : State := { s.at t with pins.pi := putBit (putBit s.pins.pi 0 c) 1 (!c) }
    (∀ c, shippedCfg s = false → exec (.breakerConfirm t c) s = .next (seen c)) ∧
    (shippedCfg s = true →
      (s.ctl.step = 3 → s.ctl.brk ≠ 4 → s.ctl.stop = none → exec (.breakerConfirm t true) s =
        .next { seen true with ctl.step := 4, ctl.brk := 1 }) ∧
      (s.ctl.step ≠ 3 ∨ s.ctl.brk = 4 ∨ s.ctl.stop ≠ none → exec (.breakerConfirm t true) s = .next (seen true)) ∧
      (s.ctl.stop ≠ none → s.ctl.stopStep = 1 → inService s = true → exec (.breakerConfirm t false) s =
        .next (stopDone (seen false))) ∧
      (s.ctl.stop = none ∨ s.ctl.stopStep ≠ 1 ∨ inService s = false → exec (.breakerConfirm t false) s =
        .next (if s.ctl.brk = 4 then seen false else { seen false with ctl.brk := 0 })))) ∧
  (∀ (t : Time) (c : Bool) (s : State), isStack s = false →
    exec (.breakerConfirm t c) s = .next (s.at t) ∧ exec (.breakerTimeout t) s = .next (s.at t)) ∧
  (∀ (t : Time) (s : State), isStack s = true → shippedCfg s = true → s.ctl.brkAt + (cfgOf s).ctrl.brkTmo * msT ≤ max s.clk t →
    (s.ctl.brk = 2 → exec (.breakerTimeout t) s =
      .next (stopBegin { breakerPulse (s.at t) 1 with ctl.brk := 4 } CA_NONE)) ∧
    (s.ctl.brk = 3 → s.ctl.stopStep = 1 →
      exec (.breakerTimeout t) s = .next { s.at t with ctl.brk := 4, ctl.stopStep := 2 })) ∧
  (∀ (t : Time) (s : State), inService s = true → shippedCfg s = true → s.ctl.stop.isSome = true → s.ctl.stopStep = 0 →
    let due : Prop := (∃ x, s.ctl.lowSince = some x ∧ x + 10 * msT ≤ max s.clk t) ∨
      s.ctl.stopAt + (cfgOf s).ctrl.stopTmo * msT ≤ max s.clk t
    let u := breakerPulse (s.at t) 1
    let v := { u with ctl.stopStep := 1, ctl.brk := 3, ctl.brkAt := u.clk }
    (due → exec (.stopBreakerOpen t) s = .next (if piOf v 1 then stopDone v else v)) ∧
    (¬ due → exec (.stopBreakerOpen t) s = .next (s.at t))) ∧
  (∀ (t : Time) (n : Fin 8) (s : State) (e : Time), smGet 0 s.ctl.pulse n = e → e ≠ 0 →
    (e ≤ max s.clk t → exec (.plantPulseEnd t n) s = .next { s.at t with
      ctl.pulse := smErase s.ctl.pulse n,
      pins.po := putBit s.pins.po n (bit s.ctl.level n) }) ∧
    (max s.clk t < e → exec (.plantPulseEnd t n) s = .next (s.at t)))

/-! ### The cell (R25, R33, R34, R172 to R179, R289, R318 to R330, R342, R343) -/

/-- Command frames and votes (R289, R318 to R320, R330): a frame is counted as stale, counted as future, marked late,
or held for its cycle; at the vote instant (assumption 51) a cell without a usable stream counts a coast; the holder is
forgotten after 20 ms without streams. Rests on the model's choices of assumptions 38, 43, 51. -/
def Obligations.CommandFramesAndVotes : Prop :=
  (∀ (t : Time) (l : Lane) (fr : Frame) (s u : State) (ws : List Nat), rxCheck (s.at t) l fr = (true, u) →
    fr.body = .cmd ws → isUpPort u l = true → fr.hdr.pos = myPos u →
    let d := cycDiff (cycleNow u) fr.hdr.cycle
    let v := learnHolder u fr.hdr.sid fr.hdr.epoch (bit fr.hdr.xflags 0)
    (u.fget TIM_STAT_LOCK ≠ 1 ∨ 3 ≤ d → exec (.cmdFrame t l fr) s = .next (u.satAdd LNK_CNT1_STALE l)) ∧
    (u.fget TIM_STAT_LOCK = 1 → d < -16 → exec (.cmdFrame t l fr) s = .next (u.satAdd LNK_CNT3_FUTURE l)) ∧
    (u.fget TIM_STAT_LOCK = 1 → d = 1 ∨ d = 2 ∨ (d = 0 ∧ voteInst u ≤ stampAt u l u.clk) →
      exec (.cmdFrame t l fr) s = .next (markLate v fr.hdr.sid fr.hdr.cycle)) ∧
    (u.fget TIM_STAT_LOCK = 1 → -16 ≤ d → d < 0 ∨ (d = 0 ∧ stampAt u l u.clk < voteInst u) →
      exec (.cmdFrame t l fr) s = .next { v with
        cell.held := smSet [] v.cell.held l ((smGet [] v.cell.held l).filter (fun e => e.1 != fr.hdr.cycle)
          ++ [(fr.hdr.cycle, stampAt v l v.clk, ws)]) })) ∧
  (∀ (t : Time) (l : Lane) (fr : Frame) (s u : State), rxCheck (s.at t) l fr = (false, u) →
    exec (.cmdFrame t l fr) s = .next u) ∧
  (∀ (t : Time) (s : State), isStack s = true ∨ s.cell.voteCyc = cycleNow s + 1 ∨
      netTime (s.at t) < voteInst s + 5 * 65536 ∨ voteInst s + 5 * 65536 + 109227 ≤ netTime (s.at t) →
    exec (.voteInstant t) s = .next (s.at t)) ∧
  (∀ (t : Time) (s : State), isStack s = false → s.cell.voteCyc ≠ cycleNow s + 1 →
    voteInst s + 5 * 65536 ≤ netTime (s.at t) → netTime (s.at t) < voteInst s + 5 * 65536 + 109227 →
    let c := cycleNow s
    let l := [0, 1, 2].filter (fun sid => (present (s.at t) sid c).isSome)
    let ws (sid : Nat) := (present (s.at t) sid c).getD []
    let v := decideVote l (fun a b => (List.range 64).all (fun w =>
      !bit (s.fget VOTE_CMASK_MASK (w / 32)) (w % 32) || (ws a).getD w 0 == (ws b).getD w 0)) s.cell.holder (s.flag VOTE_CCFG_SOLO)
    let late := [0, 1, 2].filter (fun sid => smGet 0 s.cell.late sid == c + 1)
    let ok := v.used.isSome
    let cc := if ok then 0 else s.cell.cc + 1
    let word := min cc 255 * 2 ^ 24 + v.result * 2 ^ 20 + s.cell.holder * 2 ^ 16 +
      (match v.used with | some u => 2 ^ (12 + u) | none => 0) + maskOf v.dissent * 256 + maskOf late * 16 + maskOf l
    let applies := ok && (s.cell.rejoin || (devState s != 14 && devState s != 15))
    let k := v.dissent.foldl (fun (x : State) sid =>
      x.satAdd ([VOTE_CCNT0_DIS0, VOTE_CCNT0_DIS1].getD sid VOTE_CCNT1_DIS2) 0) (s.at t)
    let n := if ok then k else k.satAdd VOTE_CCNT1_COASTS 0
    ∃ x f, 2 * nsT ≤ x ∧ x ≤ 3 * nsT ∧
      let a := { n with
        free := f
        cell := { n.cell with
          cc, voteOk := ok, voteCyc := c + 1, voteAt := n.clk + x
          applyAt := if applies then s.tim.bound else s.cell.applyAt
          seenAt := if l = [] then s.cell.seenAt else n.clk
          held := s.cell.held.map (fun (e : Nat × List (Nat × Nat × List Nat)) =>
            (e.1, e.2.filter (fun y => cycDiff c y.1 < 0))) } }.fset VOTE_CSTAT_VOTE 0 word
      let b := if applies then
        (List.range 64).foldl (fun (y : State) w => y.fset VOTE_REF_WORD w ((ws (v.used.getD 0)).getD w 0)) a else a
      let z := sysSlot b 1 word
      let e := coast (if applies then sysSlot z 6 c else z)
      exec (.voteInstant t) s = .next
        (if applies && shippedCfg e && decide (10 ≤ devState e) && decide (devState e ≤ 13) then obeyCtl e else e)) ∧
  (∀ s : State,
    let lost : Prop := 0 < s.cell.cc ∧ s.fget VOTE_CCFG_COAST < s.cell.cc
    (s.cell.cc = 0 → devState s = 13 → coast s = setDev s 12 CA_NONE) ∧
    (s.cell.cc = 0 → devState s ≠ 13 → coast s = s) ∧
    (lost → devState s = 12 ∨ devState s = 13 → coast s = enterSafe s CA_STREAMS) ∧
    (0 < s.cell.cc → ¬ lost → devState s = 12 → coast s = causedDev s 13 CA_STREAMS) ∧
    (0 < s.cell.cc → devState s = 15 → s.fget SYS_STATE_PREV = 12 ∨ s.fget SYS_STATE_PREV = 13 →
      coast s = enterSafe s CA_STREAMS) ∧
    (devState s ≠ 12 → devState s ≠ 13 → devState s ≠ 15 → coast s = s)) ∧
  (∀ (t : Time) (s : State), isStack s = false → domOn s 2 = false → 5 ≤ devState s → devState s ≤ 11 →
    s.cell.voteCyc ≠ cycleNow s + 1 → voteInst s + 5 * 65536 ≤ netTime (s.at t) →
    netTime (s.at t) < voteInst s + 5 * 65536 + 109227 →
    (∀ sid, sid < 3 → present (s.at t) sid (cycleNow s) = none) →
    Answers (exec (.voteInstant t) s) (fun u => u.cell.cc = s.cell.cc + 1 ∧ u.cell.voteOk = false ∧
      max s.clk t + 2 * nsT ≤ u.cell.voteAt ∧ u.cell.voteAt ≤ max s.clk t + 3 * nsT ∧
      u.cell.voteCyc = cycleNow s + 1 ∧ u.fget VOTE_CCNT1_COASTS = min (s.fget VOTE_CCNT1_COASTS + 1) 65535 ∧
      s.SameMem u ∧ s.SameRegsBut u [(VOTE_CCNT1_COASTS, 0), (VOTE_CSTAT_VOTE, 0)])) ∧
  (∀ (t : Time) (s : State), isStack s = false → devState s = 12 → s.cell.cc + 1 ≤ s.fget VOTE_CCFG_COAST →
    s.cell.voteCyc ≠ cycleNow s + 1 → voteInst s + 5 * 65536 ≤ netTime (s.at t) →
    netTime (s.at t) < voteInst s + 5 * 65536 + 109227 →
    domOn s 2 = false → (∀ sid, sid < 3 → present (s.at t) sid (cycleNow s) = none) →
    Answers (exec (.voteInstant t) s) (fun u => devState u = 13 ∧ u.fget SYS_STATE_CAUSE = CA_STREAMS ∧
      u.fget SYS_STATE_PREV = 12 ∧ u.cell.cc = s.cell.cc + 1 ∧ s.SameMem u ∧
      s.SameRegsBut u [(VOTE_CCNT1_COASTS, 0), (VOTE_CSTAT_VOTE, 0), (SYS_STATE_TRANS_CNT, 0), (SYS_STATE_PREV, 0),
        (SYS_STATE_CAUSE, 0), (SYS_STATE_STATE, 0)])) ∧
  (∀ (t : Time) (s : State), isStack s = false →
    (s.cell.seenAt + 20 * msT ≤ max s.clk t →
      exec (.cellEpochClear t) s = .next ({ s.at t with cell.holder := 3 }.fset VOTE_CEPOCH_EPOCH 0 0)) ∧
    (max s.clk t < s.cell.seenAt + 20 * msT → exec (.cellEpochClear t) s = .next (s.at t)))

/-- Bypass and rejoin of a cell (R25, R330, R342, R343, R435): a command under the lease starts the bypass pulse or the
rejoin, or is refused with CONFLICT; each command is answered; the confirmations end the pulses and move the state; a
missing confirmation makes the cell SAFE with cause BYPASS_FAIL. Rests on the model's choices of assumption 17. -/
def Obligations.CellBypassAndRejoin : Prop :=
  (∀ (t : Time) (l : Fin 3) (epoch : Nat) (s u : State), isStack s = false → leaseOk (s.at t) l epoch = (true, u) →
    let told (v : State) (st : Status) : State := { v with cell.answers := v.cell.answers ++ [(l.val, st.code)] }
    ((devState u = 12 ∨ devState u = 13) → exec (.cellBypassCommand t l epoch) s =
      .next (told (bypassPulse (zeroOutput u) 1 true) .ok)) ∧
    ((devState u = 10 ∨ devState u = 11 ∨ devState u = 14) → exec (.cellBypassCommand t l epoch) s =
      .next (told (bypassPulse u 1 true) .ok)) ∧
    (devState u < 10 ∨ 14 < devState u → exec (.cellBypassCommand t l epoch) s = .next (told u .conflict)) ∧
    ((devState u = 10 ∨ devState u = 14 ∨ devState u = 15) →
      let v := clearFaults u
      let clean : Prop := (∀ g, g < 8 → v.fget FLT_GSTAT_LATCH g ≠ 1) ∧ v.fget KILN_STAT_TRIP ≠ 1 ∧
        v.fget TIM_STAT_LOCK = 1 ∧ v.cell.voteOk = true
      (clean → exec (.cellRejoinCommand t l epoch) s =
        .next (told { v with cell.cc := 0, cell.rejoin := true, cell.openDue := true, cell.cfgOk := false } .ok)) ∧
      (¬ clean → exec (.cellRejoinCommand t l epoch) s = .next (told v .conflict))) ∧
    (devState u < 10 ∨ devState u = 11 ∨ devState u = 12 ∨ devState u = 13 ∨ 15 < devState u →
      exec (.cellRejoinCommand t l epoch) s = .next (told u .conflict))) ∧
  (∀ (t : Time) (l : Fin 3) (epoch : Nat) (s u : State), isStack s = false → leaseOk (s.at t) l epoch = (false, u) →
    let v := { u with cell.answers := u.cell.answers ++ [(l.val, Status.leaseRequired.code)] }
    exec (.cellBypassCommand t l epoch) s = .next v ∧ exec (.cellRejoinCommand t l epoch) s = .next v) ∧
  (∀ (t : Time) (s : State), isStack s = false → s.cell.confirm = 1 →
    let p := safeStop { s.at t with cell.confirm := 0, pins.po := putBit s.pins.po 0 false }
    let u := { p with cell.zero := false, pins.pi := putBit p.pins.pi 0 true }
    ((10 ≤ devState u ∧ devState u ≤ 13) →
      let v := causedDev (switchesOff u) ST_BYPASSED (if devState u = 13 ∧ u.cell.safeCycle = cycleNow u
        then u.fget SYS_STATE_CAUSE else CA_COMMAND)
      exec (.bypassConfirm t) s = .next (syncStateSafe { v with cell.safeCycle := cycleNow u })) ∧
    (devState u = 14 → exec (.bypassConfirm t) s =
      .next (syncStateSafe { causedDev (switchesOff u) ST_BYPASSED (u.fget SYS_STATE_CAUSE) with
        cell.safeCycle := u.cell.safeCycle })) ∧
    (devState u < 10 ∨ 14 < devState u → exec (.bypassConfirm t) s = .next u)) ∧
  (∀ p : State, (p.cell.stopDue = false → safeStop p = p) ∧
    (p.cell.stopDue = true → domOn p 9 = false → safeStop p = { p with cell.stopDue := false }) ∧
    (p.cell.stopDue = true → domOn p 9 = true →
      safeStop p = fwReg { p with cell.stopDue := false } 0x120020 0 2 (sprCtlEff 0 2))) ∧
  (∀ (t : Time) (s : State), isStack s = false → s.cell.confirm ≠ 0 → s.cell.pulseAt + confirmT s ≤ max s.clk t →
    let u := { s.at t with cell.confirm := 0, pins.po := putBit s.pins.po (s.cell.confirm - 1) false }
    (devState s = 14 → exec (.bypassConfirmTimeout t) s = .next (syncStateSafe (setCause u CA_BYPASS_FAIL))) ∧
    (devState s ≠ 14 → exec (.bypassConfirmTimeout t) s = .next (enterSafe u CA_BYPASS_FAIL))) ∧
  (∀ (t : Time) (s : State), isStack s = false → s.cell.confirm = 2 →
    let u := { s.at t with
      cell.confirm := 0, cell.zero := false, pins.po := putBit s.pins.po 1 false
      pins.pi := putBit (putBit s.pins.pi 0 false) 1 true }
    (devState s = 11 → exec (.rejoinOpenConfirm t) s = .next (setDev u ST_CRUN CA_NONE)) ∧
    (devState s ≠ 11 → exec (.rejoinOpenConfirm t) s = .next u)) ∧
  (∀ (t : Time) (l : Fin 3) (epoch : Nat) (s : State),
    (isStack s = true ∨ s.cell.confirm ≠ 1 → exec (.bypassConfirm t) s = .next (s.at t)) ∧
    (isStack s = true ∨ s.cell.confirm = 0 ∨ max s.clk t < s.cell.pulseAt + confirmT s →
      exec (.bypassConfirmTimeout t) s = .next (s.at t)) ∧
    (isStack s = true ∨ s.cell.confirm ≠ 2 → exec (.rejoinOpenConfirm t) s = .next (s.at t)) ∧
    (isStack s = true → exec (.cellBypassCommand t l epoch) s = .next (s.at t) ∧
      exec (.cellRejoinCommand t l epoch) s = .next (s.at t)))

/-- Precharge, slots and measurements of a cell (R172, R173, R177 to R179): each contactor step, the end of precharge,
the adoption of a slot, the cell cycle's measurements and charge count, and the reset of the charge from the open
circuit voltage. Rests on the model's choices of assumptions 11, 25, 36. -/
def Obligations.CellPrechargeSlotsAndCharge : Prop :=
  (∀ (t : Time) (s : State), isStack s = false → devState s = 10 →
    (s.cell.step = 1 → exec (.prechargeContactorStep t) s = .next { s.at t with
      cell.step := 2, pins.pi := putBit s.pins.pi 4 true, pins.po := putBit s.pins.po 3 true }) ∧
    (s.cell.step = 2 → exec (.prechargeContactorStep t) s = .next { s.at t with
      cell.step := 3, pins.pi := putBit s.pins.pi 3 true, pins.po := putBit s.pins.po 4 false }) ∧
    (s.cell.step = 3 → exec (.prechargeContactorStep t) s =
      .next (steepStart { s.at t with pins.pi := putBit s.pins.pi 4 false })) ∧
    (s.cell.step = 4 → linkRaised s = true → exec (.prechargeComplete t) s =
      .next (setDev { s.at t with cell.step := 0 } ST_PRECHARGED CA_NONE)) ∧
    (s.cell.step ∉ [1, 2, 3] → exec (.prechargeContactorStep t) s = .next (s.at t)) ∧
    (s.cell.step ≠ 4 ∨ linkRaised s = false → exec (.prechargeComplete t) s = .next (s.at t))) ∧
  (∀ (t : Time) (s : State), isStack s = true ∨ devState s ≠ 10 →
    exec (.prechargeContactorStep t) s = .next (s.at t) ∧ exec (.prechargeComplete t) s = .next (s.at t)) ∧
  (∀ (t : Time) (s : State), isStack s = false → s.cell.slotDue = true → 0 ≤ cycDiff (cycleNow s) (refWord s 20) →
    carrierBoundary (s.at t) = true → exec (.slotAdopt t) s = .next (adoptSlot (s.at t))) ∧
  (∀ (t : Time) (s : State), isStack s = true ∨ s.cell.slotDue = false ∨ cycDiff (cycleNow s) (refWord s 20) < 0 ∨
      carrierBoundary (s.at t) = false → exec (.slotAdopt t) s = .next (s.at t)) ∧
  (∀ (t : Time) (x : CellMeas) (s : State), isStack s = true ∨ s.sys.phase ≠ .firmware →
    exec (.cellCycle t x) s = .next (s.at t) ∧ exec (.capUpdateOnPlim t) s = .next (s.at t)) ∧
  (∀ (t : Time) (x : CellMeas) (s : State), isStack s = false → s.sys.phase = .firmware →
    let u := { s.at t with
      cell.soc := if shippedCfg s = true then
        countSoc (s.at t) x.ibat (match s.cell.cycAt with | some c => max s.clk t - c | none => 0) else s.cell.soc
      cell.cycAt := some (max s.clk t)
      cell.meas := x
      cell.lowSince := if ibatLow s x.ibat then some (s.cell.lowSince.getD (max s.clk t)) else none }
    let v := linkRaise (safeStop u)
    let faults := (List.range 8).foldl (fun a g => a + v.fget FLT_GSTAT_LATCH g * 2 ^ g) 0
    let w := [(0, wordAt v .sys 8), (1, v.fget VOTE_CSTAT_VOTE), (2, faults), (3, throttle v), (5, activeMask v),
      (6, slotValue v 6), (7, wordAt v .sys 0x18)].foldl (fun (z : State) (e : Nat × Nat) => sysSlot z e.1 e.2) v
    let y := [(18, x.vdcMv), (19, x.vdcLv), (20, x.vbat), (21, x.ibat), (23, x.edc), (24, tmax w)].foldl
      (fun (z : State) (e : Nat × Nat) => sysSlot z e.1 e.2) w
    (shippedCfg y = true → exec (.cellCycle t x) s = .next (writeCaps (sysSlot y 22 (socWord y)))) ∧
    (shippedCfg y = false → ∃ a b c z, exec (.cellCycle t x) s =
      .next (sysSlot (sysSlot (sysSlot (phasePoint { y with free := z }) 22 a) 16 b) 17 c))) ∧
  (∀ u : State,
    (devState u = 10 ∧ u.cell.step = 4 ∧ sprState u = S_RUN → linkRaise u = dabEnable u) ∧
    (devState u ≠ 10 ∨ u.cell.step ≠ 4 ∨ sprState u ≠ S_RUN → linkRaise u = u)) ∧
  (∀ (t : Time) (s : State), isStack s = false → s.sys.phase = .firmware →
    (shippedCfg s = false → exec (.capUpdateOnPlim t) s = .next (s.at t)) ∧
    (shippedCfg s = true →
      let u := sysSlot (s.at t) 4 (s.fget SPR_STAT_ACTIVE + (s.fget SPR_PHFAIL_OPEN ||| s.fget SPR_PHFAIL_SENSE) * 16)
      let v := sysSlot u 16 (capOf u (cfgOf u).cell.iChgMax false)
      exec (.capUpdateOnPlim t) s = .next (sysSlot v 17 (capOf v (cfgOf u).cell.iDisMax true)))) ∧
  (∀ (t : Time) (s : State),
    let due : Prop := isStack s = false ∧ (∃ c, s.cell.lowSince = some c ∧ c + 600 * secT ≤ max s.clk t) ∧
      shippedCfg s = true ∧ (cfgOf s).cell.ocv ≠ [] ∧ f32fin s.cell.meas.vbat = true
    (due → exec (.socOcvReset t) s = .next { s.at t with
      cell.soc := (clampI ((ocvSoc (f32v s.cell.meas.vbat) (cfgOf s).cell.ocv).mul (Q.ofNat (2 ^ 48))).round 0
        (2 ^ 48)).toNat }) ∧
    (¬ due → exec (.socOcvReset t) s = .next (s.at t)))

/-! ### Lanes and frames (R264 to R294) -/

/-- A lane's states (R283 to R292): enable and disable, signal, training, lock, the timeouts of each state with
TRAINFAIL, the losses, and the PRBS checker. The high-BER monitor of an Ethernet lane is the model's reading of Clause
49 (assumption 53). Rests on the model's choices of assumptions 37, 41, 53. -/
def Obligations.LaneStatesFollowTheLine : Prop :=
  (∀ (m : Master) (w : Word) (s : State), s.MayWrite m 0x140100 w.toNat false →
    let l := chsel s .lnk m
    let was := s.fget LNK_CFG_EN l == 1
    let en := bit w.toNat 31
    let rate := bits w.toNat 16 3
    let refused : Prop := rate = 7 ∨
      (was = true ∧ (bits w.toNat 30 1 ≠ s.fget LNK_CFG_TXINV l ∨ bits w.toNat 29 1 ≠ s.fget LNK_CFG_RXINV l ∨
        rate ≠ s.fget LNK_CFG_RATE l)) ∨
      (en = true ∧ was = false ∧ rate ≠ 0 ∧ testNone s l = true) ∨ (en = false ∧ was = true ∧ laneKept s l = true)
    let c := (countRsvd s m 0x140100 w.toNat).fsets [(LNK_CFG_EN, l, b2n en), (LNK_CFG_TXINV, l, bits w.toNat 30 1),
      (LNK_CFG_RXINV, l, bits w.toNat 29 1), (LNK_CFG_RATE, l, rate)]
    (¬ refused → exec (.laneEnable m w) s = .next (s.noted m 0x140100 w.toNat
      (if en && !was then laneStart c l else if !en && was then laneStop c l else c))) ∧
    (refused → Answers (exec (.laneEnable m w) s) (fun u => u.fget LNK_ERR_VALID = 1 ∧
      (s.fget LNK_ERR_VALID = 0 → u.fget LNK_ERR_STATUS = (if rate = 7 then 9 else 8) ∧ u.fget LNK_ERR_LANE = l % 32) ∧
      u.fget LNK_CFG_EN l = s.fget LNK_CFG_EN l ∧ laneState u l = laneState s l))) ∧
  (∀ (m : Master) (w : Word) (s : State), s.MayWrite m 0x14010c w.toNat false →
    let l := chsel s .lnk m
    let b := countRsvd s m 0x14010c w.toNat
    let acts : Prop := bit w.toNat 0 = true ∧ s.fget LNK_CFG_EN l = 1 ∧ laneState s l ≠ L_OFF ∧ laneState s l ≠ L_TEST
    (acts → laneState s l = L_ACTIVE →
      exec (.laneRetrain m w) s = .next (s.noted m 0x14010c w.toNat (laneLoss b l 4))) ∧
    (acts → laneState s l ≠ L_ACTIVE →
      exec (.laneRetrain m w) s = .next (s.noted m 0x14010c w.toNat (enterTrain b l))) ∧
    (¬ acts → exec (.laneRetrain m w) s = .next (s.noted m 0x14010c w.toNat b))) ∧
  (∀ (t : Time) (l : Lane) (s : State),
    (laneState s l = L_DETECT →
      exec (.laneSignalDetect t l) s = .next (enterTrain ((s.at t).fset LNK_STAT_SIGDET l 1) l)) ∧
    (laneState s l ≠ L_OFF → laneState s l ≠ L_DETECT →
      exec (.laneSignalDetect t l) s = .next ((s.at t).fset LNK_STAT_SIGDET l 1)) ∧
    (laneState s l ≠ L_OFF → exec (.laneSignalLoss t l) s = .next ((s.at t).fset LNK_STAT_SIGDET l 0)) ∧
    (laneState s l = L_OFF →
      exec (.laneSignalDetect t l) s = .next (s.at t) ∧ exec (.laneSignalLoss t l) s = .next (s.at t)) ∧
    (laneState s l = L_TRAIN → (lnOf s l).since + 50 * usT ≤ max s.clk t →
      exec (.laneTrainDone t l) s = .next (laneTo ((s.at t).fset LNK_STAT_BLOCK l 1) l L_LOCK)) ∧
    (laneState s l ≠ L_TRAIN ∨ max s.clk t < (lnOf s l).since + 50 * usT →
      exec (.laneTrainDone t l) s = .next (s.at t)) ∧
    (laneState s l = L_LOCK → (lnOf s l).lockFrom + lockT ≤ max s.clk t → isEthLane s l = false →
      (capsHeld s l = false → exec (.laneLockDone t l) s = .next (laneTo (s.at t) l L_CAPS)) ∧
      (capsHeld s l = true → exec (.laneLockDone t l) s =
        .next (lnMod (s.at t) l (fun x => { x with lockDone := true })))) ∧
    (max s.clk t < (lnOf s l).lockFrom + (if isEthLane s l then berT else lockT) →
      exec (.laneLockDone t l) s = .next (s.at t)) ∧
    (laneState s l = L_LOCK → (lnOf s l).lockFrom + berT ≤ max s.clk t → isEthLane s l = true →
      exec (.laneLockDone t l) s = .next (linkStatus (laneTo (s.at t) l L_ACTIVE))) ∧
    (laneState s l ≠ L_LOCK →
      exec (.laneLockDone t l) s = .next (s.at t) ∧ exec (.laneCodeError t l) s = .next (s.at t)) ∧
    (laneState s l = L_LOCK → isEthLane s l = false → exec (.laneCodeError t l) s =
      .next (lnMod (s.at t) l (fun x => { x with lockFrom := max s.clk t, lockDone := false }))) ∧
    (laneState s l = L_LOCK → isEthLane s l = true →
      ((lnOf s l).ber + 1 < berMax → exec (.laneCodeError t l) s =
        .next (lnMod (s.at t) l (fun x => { x with ber := (lnOf s l).ber + 1 }))) ∧
      (berMax ≤ (lnOf s l).ber + 1 → exec (.laneCodeError t l) s =
        .next (lnMod (s.at t) l (fun x => { x with ber := 0, lockFrom := max s.clk t })))) ∧
    (laneState s l = 2 → (lnOf s l).since + 500 * usT ≤ max s.clk t →
      exec (.laneStateTimeout t l) s =
        .next (retrainPass (enterDetect ((s.at t).satAdd LNK_CNT2_TRAINFAIL l) l) l)) ∧
    (laneState s l = 3 → capsHeld s l = false → (lnOf s l).since + msT ≤ max s.clk t →
      exec (.laneStateTimeout t l) s =
        .next (retrainPass (enterTrain ((s.at t).satAdd LNK_CNT2_TRAINFAIL l) l) l)) ∧
    (laneState s l = 4 → (lnOf s l).lastCaps + 200 * usT ≤ max s.clk t →
      exec (.laneStateTimeout t l) s =
        .next (retrainPass (enterTrain ((s.at t).satAdd LNK_CNT2_TRAINFAIL l) l) l)) ∧
    ((laneState s l = 2 → max s.clk t < (lnOf s l).since + 500 * usT) →
      (laneState s l = 3 → capsHeld s l = true ∨ max s.clk t < (lnOf s l).since + msT) →
      (laneState s l = 4 → max s.clk t < (lnOf s l).lastCaps + 200 * usT) →
      exec (.laneStateTimeout t l) s = .next (s.at t)) ∧
    (laneState s l = L_ACTIVE → exec (.laneBlockLockLoss t l) s = .next (laneLoss (s.at t) l 1)) ∧
    (laneState s l = L_LOCK → exec (.laneBlockLockLoss t l) s = .next (enterTrain (s.at t) l)) ∧
    (laneState s l ≠ L_ACTIVE → laneState s l ≠ L_LOCK → exec (.laneBlockLockLoss t l) s =
      .next ((s.at t).fset LNK_STAT_BLOCK l 0)) ∧
    (laneState s l = L_ACTIVE → isYarid s l = true → (lnOf s l).lastGood + 10 * usT ≤ max s.clk t →
      exec (.laneFrameSilence t l) s = .next (laneLoss (s.at t) l 2)) ∧
    (laneState s l ≠ L_ACTIVE ∨ isYarid s l = false ∨ max s.clk t < (lnOf s l).lastGood + 10 * usT →
      exec (.laneFrameSilence t l) s = .next (s.at t)) ∧
    (∀ (sync : Bool) (n : Nat),
      (prbsReaches s l = true →
        exec (.prbsCheckerSync t l sync n) s =
          .next (((s.at t).fset LNK_PRBS_SYNC l (b2n sync)).satAdd LNK_PRBS_ERR l n)) ∧
      (prbsReaches s l = false → exec (.prbsCheckerSync t l sync n) s = .next (s.at t)) ∧
      (prbsReaches s l = true ↔ laneState s l = L_TEST ∧ s.fget LNK_TEST_CHK l = 1 ∧
        (s.fget LNK_TEST_LOOP l = 1 ∨ s.fget LNK_TEST_LOOP l = 2 → laneSends s l = .prbs))))

/-- What a lane sends and relays (R265, R278 to R283): a CAPS frame every microsecond in CAPS, the first waiting frame
of the lowest priority number with its next SEQ once no frame is being sent, IDLE frames after 5 µs of quiet, and
relayed frames with HOP one higher: downstream at once, upstream when the output is free; LNK_RES keeps the residence.
Rests on the model's choices of assumptions 21, 48, 54. -/
def Obligations.LanesSendTheirFrames : Prop :=
  (∀ (t : Time) (l : Lane) (s : State),
    (laneState s l = L_CAPS → ((lnOf s l).lastTx < (lnOf s l).since ∨ (lnOf s l).lastTx + usT ≤ max s.clk t) →
      let x := lnOf s l
      let ack := x.pass && capsWired (s.at t) l && capsSame (s.at t) l
      let f := capsOut (s.at t) l ack
      exec (.capsSend t l) s = .next (capsDone (lnMod (s.at t) l (fun x => { x with
        sent := some ⟨{ f.hdr with seq := smGet 0 x.seq 8 }, f.body⟩
        sentAt := stampAt (s.at t) l (max s.clk t)
        sentBad := false
        lastTx := max s.clk t
        seq := smSet 0 x.seq 8 ((smGet 0 x.seq 8 + 1) % 65536)
        ackTx := x.ackTx || ack })) l)) ∧
    (laneState s l ≠ L_CAPS ∨ ((lnOf s l).since ≤ (lnOf s l).lastTx ∧ max s.clk t < (lnOf s l).lastTx + usT) →
      exec (.capsSend t l) s = .next (s.at t)) ∧
    (let v := capSettle (s.at t)
     let go (q : List (Nat × Frame)) : State := lnMod v l (fun x => { x with txq := q })
     let out (f g : Frame) (q : List (Nat × Frame)) : State := lnMod (go q) l (fun x => { x with
       sent := some g, sentAt := stampAt v l v.clk, sentBad := false, lastTx := v.clk
       seq := smSet 0 x.seq f.hdr.ty ((smGet 0 x.seq f.hdr.ty + 1) % 65536) })
     (∀ (f : Frame) (q : List (Nat × Frame)) (r : Frame × Nat × Bool), laneActive v l = true →
       txBusy v l = false → takeTx (lnOf v l).txq = some (f, q) →
       (lnOf v l).relIn.find? (fun r => r.1 == f) = some r →
       exec (.laneTxReady t l) s = .next (relayStart (lnMod (go q) l
         (fun x => { x with relIn := (lnOf v l).relIn.erase r })) l f r.2.1 r.2.2)) ∧
     (∀ (f : Frame) (q : List (Nat × Frame)), laneActive v l = true → txBusy v l = false →
       takeTx (lnOf v l).txq = some (f, q) → (lnOf v l).relIn.find? (fun r => r.1 == f) = none → f.hdr.ty ≠ 0 →
       ((∀ a b, f.body ≠ .idle a b) → (∀ a b c d, f.body ≠ .time a b c d) →
         exec (.laneTxReady t l) s = .next (out f ⟨{ f.hdr with seq := smGet 0 (lnOf v l).seq f.hdr.ty }, f.body⟩ q)) ∧
       (∀ a corr cyc ts, f.body = .time a corr cyc ts → exec (.laneTxReady t l) s = .next (out f
         ⟨{ f.hdr with seq := smGet 0 (lnOf v l).seq f.hdr.ty, cycle := cycleNow v },
           .time (stampAt v l v.clk) corr cyc ts⟩ q))) ∧
     (∀ (f : Frame) (q : List (Nat × Frame)) (a b : Nat), laneActive v l = true → txBusy v l = false →
       takeTx (lnOf v l).txq = some (f, q) → (lnOf v l).relIn.find? (fun r => r.1 == f) = none → f.hdr.ty = 0 →
       f.body = .idle a b → bit f.hdr.xflags 14 = false → exec (.laneTxReady t l) s = .next (lnMod (out f
         ⟨{ f.hdr with seq := smGet 0 (lnOf v l).seq 0 }, .idle (activeMask v) (idleWord1 v l)⟩ q) l (fun x => { x with
           idle0 := activeMask v, idle1 := idleWord1 v l
           t1 := if bit f.hdr.xflags 15 = true then some (stampAt v l v.clk) else x.t1 }))) ∧
     (∀ (f : Frame) (q : List (Nat × Frame)) (a b : Nat), laneActive v l = true → txBusy v l = false →
       takeTx (lnOf v l).txq = some (f, q) → (lnOf v l).relIn.find? (fun r => r.1 == f) = none → f.hdr.ty = 0 →
       f.body = .idle a b → bit f.hdr.xflags 14 = true →
       ((lnOf v l).dreqIn = none → exec (.laneTxReady t l) s = .next (lnMod (go q) l (fun x => { x with dreqIn := none }))) ∧
       (∀ t2, (lnOf v l).dreqIn = some t2 →
         let turn := (stampAt v l v.clk - t2) / 16384
         (16383 < turn → exec (.laneTxReady t l) s = .next (lnMod (go q) l (fun x => { x with dreqIn := none }))) ∧
         (turn ≤ 16383 → exec (.laneTxReady t l) s = .next (lnMod (out f
           ⟨{ f.hdr with seq := smGet 0 (lnOf v l).seq 0, xflags := 0x4000 + turn }, .idle (activeMask v) (idleWord1 v l)⟩ q)
           l (fun x => { x with
             idle0 := activeMask v, idle1 := idleWord1 v l, dreqIn := none
             t1 := if bit f.hdr.xflags 15 = true then some (stampAt v l v.clk) else x.t1 }))))) ∧
     (laneActive v l = false ∨ txBusy v l = true ∨ takeTx (lnOf v l).txq = none →
       exec (.laneTxReady t l) s = .next v)) ∧
    (isYarid s l = true → laneActive s l = true → (lnOf s l).txq = [] → (lnOf s l).lastTx + 5 * usT ≤ max s.clk t →
      exec (.idleTimer t l) s = .next (lnMod (s.at t) l (fun x =>
        { x with txq := x.txq ++ [(6, idleFrame (s.at t) l 0)] }))) ∧
    (isYarid s l = false ∨ laneActive s l = false ∨ (lnOf s l).txq ≠ [] ∨ max s.clk t < (lnOf s l).lastTx + 5 * usT →
      exec (.idleTimer t l) s = .next (s.at t))) ∧
  (∀ (t : Time) (l : Lane) (fr : Frame) (res : Time) (s : State), relays (s.at t) l fr.hdr = true →
    let out := if l.val < 4 then l.val + 4 else l.val - 4
    let v := lnMod (s.at t) l (fun x => { x with lastGood := max s.clk t })
    let u := if fr.hdr.ty = 2 ∧ fr.hdr.pos = myPos v + 1 then lnMod v l (fun x => { x with bootReq := false }) else v
    (laneActive u out = false → exec (.frameRelay t l fr res) s = .next (u.satAdd LNK_CNT3_DISCARD l)) ∧
    (laneActive u out = true →
      let g := relayCopy u l fr res
      let inAt := stampAt u out u.clk - res
      let w := lnMod u out (fun x => { x with relLast := some g })
      (l.val < 4 → exec (.frameRelay t l fr res) s = .next (relayStart (abandon w out) out g inAt false)) ∧
      (4 ≤ l.val → txBusy w out = false → (lnOf w out).txq = [] →
        exec (.frameRelay t l fr res) s = .next (relayStart w out g inAt false)) ∧
      (4 ≤ l.val → txBusy w out = true ∨ (lnOf w out).txq ≠ [] →
        exec (.frameRelay t l fr res) s = .next (lnMod w out (fun x => { x with
          txq := x.txq ++ [(tyPrio fr.hdr.ty, g)], relIn := x.relIn ++ [(g, inAt, false)] }))))) ∧
  (∀ (l : Nat) (fr : Frame) (res : Time) (u : State),
    ((∀ a b c d, fr.body ≠ .time a b c d) →
      relayCopy u l fr res = ⟨{ fr.hdr with hop := fr.hdr.hop + 1 }, fr.body⟩) ∧
    (∀ o corr cyc ts, fr.body = .time o corr cyc ts → u.fget TIM_PDLY_VALID l = 1 →
      relayCopy u l fr res = ⟨{ fr.hdr with hop := fr.hdr.hop + 1 }, .time o (corr + res + ingress u l) cyc ts⟩) ∧
    (∀ o corr cyc ts, fr.body = .time o corr cyc ts → u.fget TIM_PDLY_VALID l ≠ 1 →
      relayCopy u l fr res = ⟨{ fr.hdr with hop := fr.hdr.hop + 1, xflags := putBit fr.hdr.xflags 1 true },
        .time o (corr + res) cyc ts⟩)) ∧
  (∀ (out : Nat) (g : Frame) (inAt : Nat) (bad : Bool) (u : State),
    relayStart u out g inAt bad = (lnMod u out (fun x => { x with
      sent := some g, sentAt := stampAt u out u.clk, sentBad := bad, lastTx := u.clk })).fsets
        [(LNK_RES_LAST, out, min ((stampAt u out u.clk - inAt) / 16384) 65535),
         (LNK_RES_MAX, out, max (min ((stampAt u out u.clk - inAt) / 16384) 65535) (u.fget LNK_RES_MAX out))]) ∧
  (∀ (t : Time) (l : Lane) (fr : Frame) (res : Time) (s : State), relays (s.at t) l fr.hdr = false →
    exec (.frameRelay t l fr res) s = .next (s.at t)) ∧
  (∀ (t : Time) (l : Lane) (s : State), isYarid s l = true → 3 ≤ laneState s l → laneState s l ≠ L_TEST →
    ∀ e ∈ [(BadEnd.cut, LNK_CNT0_PARTIAL), (.errorBlock, LNK_CNT1_RELAYBAD), (.badCrc, LNK_CNT0_CRC)],
      let u := (s.at t).satAdd e.2 l
      (∀ r : Bool, r = false ∨ (isUpPort s l = false ∧ isDownPort s l = false) →
        exec (.frameCutShort t l e.1 r) s = .next u) ∧
      ((isUpPort s l = true ∨ isDownPort s l = true) → exec (.frameCutShort t l e.1 true) s =
        .next (relayBad u (if l.val < 4 then l.val + 4 else l.val - 4)))) ∧
  (∀ (t : Time) (l : Lane) (k : BadEnd) (r : Bool) (s : State),
    isYarid s l = false ∨ laneState s l < 3 ∨ laneState s l = L_TEST → exec (.frameCutShort t l k r) s = .next (s.at t)) ∧
  (∀ (u : State) (out : Nat) (g : Frame), (lnOf u out).relLast = some g →
    ((∀ r ∈ (lnOf u out).relIn, r.1 ≠ g) → (lnOf u out).sent = some g →
      relayBad u out = lnMod u out (fun x => { x with sentBad := true })) ∧
    ((∃ r ∈ (lnOf u out).relIn, r.1 = g) → relayBad u out = lnMod u out (fun x => { x with
      relIn := x.relIn.map (fun r => if r.1 = g then (r.1, r.2.1, true) else r) })))

/-- What a frame that passes its checks does (R269 to R278, R288); one that fails them only counts, as the checks say.
Rests on the model's choices of assumptions 18, 22, 48. -/
def Obligations.FramesAreTaken : Prop :=
  (∀ (t : Time) (l : Lane) (fr : Frame) (s : State),
    let asks (u : State) : Prop := isChainLane u l = true ∧ (lnOf u l).bootReq = true
    (let u := capsRx (s.at t) l fr
     (¬ asks u → exec (.capsFrame t l fr) s = .next u) ∧ (asks u → exec (.capsFrame t l fr) s = .next (offerStart u l 0))) ∧
    (∀ rx, let u := idleRx (s.at t) l rx fr
     (¬ asks u → exec (.idleFrame t l rx fr) s = .next u) ∧
     (asks u → exec (.idleFrame t l rx fr) s = .next (offerStart u l 0)))) ∧
  (∀ (t : Time) (l : Lane) (fr : Frame) (s u : State), rxCheck (s.at t) l fr = (true, u) →
    (∀ t0 cause origin n, fr.body = .trig t0 cause origin n →
      let live := u.link.trigSeen.filter (fun e => decide (u.clk < e.2.2 + msT))
      ((∃ c, (origin, n, c) ∈ live) → exec (.trigFrame t l fr) s = .next { u with link.trigSeen := live }) ∧
      ((∀ c, (origin, n, c) ∉ live) → exec (.trigFrame t l fr) s =
        .next (captureLink (routeTrig { u with link.trigSeen := live ++ [(origin, n, u.clk)] } l t0 cause origin n)
          t0 cause origin n))) ∧
    (∀ ws, fr.body = .xchk ws → exec (.xchkFrame t l fr) s =
      .next (xchkRx u fr.hdr.sid (fr.hdr.chain * 8 + fr.hdr.pos) fr.hdr.cycle fr.hdr.xflags ws)) ∧
    (∀ rs, fr.body = .rack rs → exec (.rackFrame t l fr) s = .next (rackRecs u l (farSid u l) fr.hdr.cycle rs)) ∧
    (∀ op mbx last count st w1 w2 data, fr.body = .rra op mbx last count st w1 w2 data → forMe u l fr.hdr = true →
      isDownPort u l = false → (u.sys.phase = .firmware ∨ u.sys.phase = .netboot) → u.sys.halted = false →
      (laneServes u l = true → (op = 0 ∨ op = 1) → exec (.rraFrame t l fr none) s =
        .next (rraAccess u l fr.hdr (op == 1) mbx count w1 w2 data)) ∧
      (laneServes u l = true → op = 2 →
        exec (.rraFrame t l fr none) s = .next (rraPost u l fr.hdr mbx last w1 w2 data)) ∧
      (∀ b : CfgBody, laneServes u l = true → isStack u = false → u.sys.phase = .firmware → op < 3 →
        exec (.rraFrame t l fr (some b)) s = .next (rraAnswer (cellCfgTake u l fr.hdr.epoch b).2 l 9 mbx count
          (cellCfgTake u l fr.hdr.epoch b).1 w1 w2 [])) ∧
      (∀ b : CfgBody, laneServes u l = true → isStack u = true ∨ u.sys.phase ≠ .firmware → op < 3 →
        exec (.rraFrame t l fr (some b)) s = .next u) ∧
      (∀ c, laneServes u l = false → op < 3 → exec (.rraFrame t l fr c) s = .next u) ∧
      (∀ c, op = 8 ∨ op = 9 → (isPeerLane u l = true → exec (.rraFrame t l fr c) s =
          .next (billAnswer u (farSid u l) op st w1 data)) ∧
        (isPeerLane u l = false → exec (.rraFrame t l fr c) s = .next u)) ∧
      (∀ c, op = 10 → (isStack u = false → exec (.rraFrame t l fr c) s = .next u) ∧
        (isStack u = true →
          let d := if isChainLane u l = true then fr.hdr.chain * 8 + fr.hdr.pos else 256 + farSid u l
          let offer : Prop := isChainLane u l = true ∧ mbx = 0 ∧ w1 / 65536 % 0x8000 = 0x10
          (¬ offer → exec (.rraFrame t l fr c) s = .next
            (remoteRx u d mbx (w1 / 65536) (w2 / 65536) st (w1 % 65536) (w2 % 8192) last data)) ∧
          (offer → exec (.rraFrame t l fr c) s = .next (if last = true then offerAnswer u d st else u)))) ∧
      (∀ c, 3 ≤ op → op ≠ 8 → op ≠ 9 → op ≠ 10 → exec (.rraFrame t l fr c) s =
        .next (rraUnknown u l fr.hdr mbx count w1 w2)))) ∧
  (∀ (t : Time) (l : Lane) (fr : Frame) (cfg : Option CfgBody) (s u : State), rxCheck (s.at t) l fr = (true, u) →
    (forMe u l fr.hdr = false ∨ isDownPort u l = true ∨ (u.sys.phase ≠ .firmware ∧ u.sys.phase ≠ .netboot) ∨
      u.sys.halted = true) → exec (.rraFrame t l fr cfg) s = .next u) ∧
  (∀ (t : Time) (l : Lane) (fr : Frame) (cfg : Option CfgBody) (s u : State), rxCheck (s.at t) l fr = (true, u) →
    (bodyTy fr.body ≠ 4 → exec (.trigFrame t l fr) s = .next u) ∧
    (bodyTy fr.body ≠ 5 → exec (.rackFrame t l fr) s = .next u) ∧
    (bodyTy fr.body ≠ 6 → exec (.xchkFrame t l fr) s = .next u) ∧
    (bodyTy fr.body ≠ 7 → exec (.rraFrame t l fr cfg) s = .next u)) ∧
  (∀ (t : Time) (l : Lane) (fr : Frame) (cfg : Option CfgBody) (s u : State), rxCheck (s.at t) l fr = (false, u) →
    exec (.trigFrame t l fr) s = .next u ∧ exec (.xchkFrame t l fr) s = .next u ∧
    exec (.rackFrame t l fr) s = .next u ∧ exec (.rraFrame t l fr cfg) s = .next u)

/-! ### Pairs, gate channels and faults (R182 to R226) -/

/-- The registers of a pair (R190 to R197): a staged write, a commit and a cancel, alone and by mask, and enabling and
disabling. `p` is the pair that the master's PWM_CHSEL selects. Rests on the model's choices of assumptions 4, 26. -/
def Obligations.PairRegistersActAsWritten : Prop :=
  (∀ (m : Master) (w : Word) (s : State), s.MayWrite m 0x100118 w.toNat (bit w.toNat 0) →
    let p := chsel s .pwm m
    let b := countRsvd s m 0x100118 w.toNat
    (bit w.toNat 1 = false → bit w.toNat 0 = true → m.val ≠ 7 → stagedCheck b p (s.flag PWM_CFG_ALIGN p) = .ok →
      (pwmOf s p).rel = none →
      exec (.pwmCommit m w) s = .next (s.noted m 0x100118 w.toNat (pwmPend (pwmMod b p (fun x => { x with
        rel := some ⟨s.fget PWM_PER_PER p, s.fget PWM_CMPA_CMP p, s.fget PWM_CMPB_CMP p, s.fget PWM_OFS_OFS p,
          s.clk, false⟩
        rel2 := none })) p))) ∧
    (bit w.toNat 1 = true → bit w.toNat 0 = false →
      exec (.pwmCancel m w) s = .next (s.noted m 0x100118 w.toNat
        ((pwmMod b p (fun x => { x with rel := none, rel2 := none })).fsets
          [(PWM_PER_PER, p, s.fget PWM_EPER_PER p), (PWM_CMPA_CMP, p, s.fget PWM_ECMPA_CMP p),
           (PWM_CMPB_CMP, p, s.fget PWM_ECMPB_CMP p), (PWM_OFS_OFS, p, s.fget PWM_EOFS_OFS p), (PWM_STAT_PEND, p, 0)])))) ∧
  (∀ (m : Master) (w : Word) (s : State), s.MayWrite m 0x100118 w.toNat (bit w.toNat 0) →
    let p := chsel s .pwm m
    let b := countRsvd s m 0x100118 w.toNat
    let c := if bit w.toNat 1 then cancelSet b p else b
    let ok : Prop := stagedCheck c p (s.flag PWM_CFG_ALIGN p) = .ok
    exec (.pwmCancel m w) s = exec (.pwmCommit m w) s ∧
    (bit w.toNat 0 = false → exec (.pwmCommit m w) s = .next (s.noted m 0x100118 w.toNat c)) ∧
    (bit w.toNat 0 = true → ok → m.val ≠ 7 →
      exec (.pwmCommit m w) s = .next (s.noted m 0x100118 w.toNat (releaseSet c m p s.clk).2)) ∧
    (bit w.toNat 0 = true → ok → m.val = 7 → ∃ f x, 2 * clkT ≤ x ∧ x ≤ 3 * clkT ∧ exec (.pwmCommit m w) s =
      .next (s.noted m 0x100118 w.toNat (releaseSet { c with free := f } m p (s.clk + x)).2)) ∧
    (bit w.toNat 0 = true → ¬ ok → Answers (exec (.pwmCommit m w) s) (fun u => u.fget PWM_ERR_VALID = 1 ∧
      (∀ q, pwmOf u q = pwmOf c q) ∧ u.fget PWM_STAT_PEND p = c.fget PWM_STAT_PEND p))) ∧
  (∀ (s : State) (m p : Nat) (a : Time), stagedCheck s p (s.flag PWM_CFG_ALIGN p) = .ok →
    let r : RelSet := ⟨s.fget PWM_PER_PER p, s.fget PWM_CMPA_CMP p, s.fget PWM_CMPB_CMP p, s.fget PWM_OFS_OFS p, a, false⟩
    let takes (w : RelSet) : Prop := (s.fget PWM_STAT_RUN p = 1 ∨ (pwmOf s p).waiting = true) ∧
      w.at_ + 2 * clkT ≤ nextReload s p w ∧ nextReload s p w < a + 2 * clkT ∧ s.clk ≤ nextReload s p w
    ((∀ w, (pwmOf s p).rel = some w → ¬ takes w) →
      (releaseSet s m p a).2 = pwmPend (pwmMod s p (fun x => { x with rel := some r, rel2 := none })) p) ∧
    (∀ w, (pwmOf s p).rel = some w → takes w →
      (releaseSet s m p a).2 = pwmPend (pwmMod s p (fun x => { x with rel2 := some r })) p)) ∧
  (∀ (m : Master) (w : Word) (s : State), s.MayWrite m 0x101004 w.toNat false →
    exec (.pwmGcancel m w) s = .next (s.noted m 0x101004 w.toNat ((bitList 12 w.toNat).foldl (fun (x : State) p =>
      if instStatus x .pwm p = .ok then cancelSet x p else pwmErr x m p (instStatus x .pwm p))
        (countRsvd s m 0x101004 w.toNat)))) ∧
  (∀ (m : Master) (w : Word) (s : State), s.MayWrite m 0x101000 w.toNat true →
    let b := countRsvd s m 0x101000 w.toNat
    Answers (exec (.pwmGcommit m w) s) (fun u => s.SameMem u ∧
      (∀ q, q ∉ bitList 12 w.toNat → pwmOf u q = pwmOf s q) ∧
      (∀ p, p ∈ bitList 12 w.toNat → instStatus s .pwm p ≠ .ok ∨ stagedCheck b p (s.flag PWM_CFG_ALIGN p) ≠ .ok →
        u.fget PWM_ERR_VALID = 1 ∧ pwmOf u p = pwmOf s p) ∧
      (∀ p, p ∈ bitList 12 w.toNat → instStatus s .pwm p = .ok → stagedCheck b p (s.flag PWM_CFG_ALIGN p) = .ok →
        let n := (if m.val = 7 then 1 else 0) + (if p < 6 then 0 else 1)
        ∃ a : Time, s.clk + 2 * n * clkT ≤ a ∧ a ≤ s.clk + 3 * n * clkT ∧
          let r : RelSet := ⟨s.fget PWM_PER_PER p, s.fget PWM_CMPA_CMP p, s.fget PWM_CMPB_CMP p, s.fget PWM_OFS_OFS p, a, false⟩
          ((pwmOf u p).rel = some r ∨ (pwmOf u p).rel2 = some r) ∧ u.fget PWM_STAT_PEND p = 1))) ∧
  (∀ (m : Master) (w : Word) (p : Nat) (s : State), bitList 12 w.toNat = [p] → instStatus s .pwm p = .ok →
    (s.MayWrite m 0x101004 w.toNat false →
      exec (.pwmGcancel m w) s = .next (s.noted m 0x101004 w.toNat (cancelSet (countRsvd s m 0x101004 w.toNat) p))) ∧
    (s.MayWrite m 0x101000 w.toNat true → m.val ≠ 7 →
      let b := countRsvd s m 0x101000 w.toNat
      stagedCheck b p (s.flag PWM_CFG_ALIGN p) = .ok → (pwmOf s p).rel = none →
      Answers (exec (.pwmGcommit m w) s) (fun u => ∃ a : Time, s.clk ≤ a ∧ a ≤ s.clk + 3 * clkT ∧
        (pwmOf u p).rel = some ⟨s.fget PWM_PER_PER p, s.fget PWM_CMPA_CMP p, s.fget PWM_CMPB_CMP p,
          s.fget PWM_OFS_OFS p, a, false⟩ ∧
        u.fget PWM_STAT_PEND p = 1 ∧ (∀ q, q ≠ p → pwmOf u q = pwmOf s q) ∧ s.SameMem u ∧
        s.SameRegsBut u [(PWM_STAT_PEND, p), (SYS_ERRCNT_RSVD, 0), (ACC_JNLHEAD_HEAD, 0), (ACC_JNLCNT_LOST, 0),
          (ACC_JNLCNT_UNREAD, 0), (SEC_EINJ_ARM, 0)]))) ∧
  (∀ (m : Master) (r : Fin 4) (al : Option Pair) (w : Word) (s : State),
    let p := match al with | some q => if r.val = 0 then chsel s .pwm m else q.val | none => chsel s .pwm m
    let adr := stagedAddr r (al.map Fin.val)
    s.MayWrite m adr w.toNat (stagedNeedC s p r) →
    let b := (countRsvd s m adr w.toNat).fset (stagedFld r) p w.toNat
    (s.fget PWM_CFG_SRC p = 0 ∨ r.val = 0 ∨ r.val = 3 →
      (r.val ≠ 1 ∨ s.fget PWM_CFG_AUTO p = 0 → exec (.pwmCmpaWrite m r al w) s = .next (s.noted m adr w.toNat b)) ∧
      (r.val = 1 → s.fget PWM_CFG_AUTO p = 1 → m.val ≠ 7 → stagedCheck b p (s.flag PWM_CFG_ALIGN p) = .ok →
        exec (.pwmCmpaWrite m r al w) s = .next (s.noted m adr w.toNat (releaseSet b m p s.clk).2)) ∧
      (r.val = 1 → s.fget PWM_CFG_AUTO p = 1 → m.val = 7 → stagedCheck b p (s.flag PWM_CFG_ALIGN p) = .ok →
        ∃ f x, 2 * clkT ≤ x ∧ x ≤ 3 * clkT ∧ exec (.pwmCmpaWrite m r al w) s =
          .next (s.noted m adr w.toNat (releaseSet { b with free := f } m p (s.clk + x)).2)) ∧
      (r.val = 1 → s.fget PWM_CFG_AUTO p = 1 → stagedCheck b p (s.flag PWM_CFG_ALIGN p) ≠ .ok →
        Answers (exec (.pwmCmpaWrite m r al w) s) (fun u => u.fget PWM_ERR_VALID = 1 ∧ ∀ q, pwmOf u q = pwmOf s q))) ∧
    (s.fget PWM_CFG_SRC p = 1 → r.val = 1 ∨ r.val = 2 → Answers (exec (.pwmCmpaWrite m r al w) s) (fun u =>
      u.fget PWM_ERR_VALID = 1 ∧ u.fget (stagedFld r) p = s.fget (stagedFld r) p ∧ ∀ q, pwmOf u q = pwmOf s q))) ∧
  (∀ (m : Master) (w : Word) (s : State), s.MayWrite m 0x100100 w.toNat false →
    let p := chsel s .pwm m
    let b := countRsvd s m 0x100100 w.toNat
    let cfg := pwmCfgFlds.foldl (fun u F => u.fset F p (bits w.toNat F.lo F.width)) b
    let en := bit w.toNat 31
    let was := s.fget PWM_CFG_EN p == 1
    let stopping := (pwmOf s p).stop
    let refused : Prop := bits w.toNat 16 5 ∉ [0, 2, 4, 8, 16] ∨ (bit w.toNat 28 = true ∧ p < 8) ∨
      ((was = true ∨ stopping = true) ∧ ∃ F ∈ pwmCfgFlds, bits w.toNat F.lo F.width ≠ s.fget F p) ∨
      (en = true ∧ was = false ∧ (scanHolds s = true ∨ stagedCheck b p (bit w.toNat 30) ≠ .ok))
    exec (.pwmDisable m w) s = exec (.pwmEnable m w) s ∧
    (refused → Answers (exec (.pwmEnable m w) s) (fun u => u.fget PWM_ERR_VALID = 1 ∧
      u.fget PWM_CFG_EN p = s.fget PWM_CFG_EN p ∧ ∀ q, pwmOf u q = pwmOf s q)) ∧
    (¬ refused → en = true → was = false → stopping = false →
      let e := makeEff (cfg.fset PWM_CFG_EN p 1) p
        (s.fget PWM_PER_PER p) (s.fget PWM_CMPA_CMP p) (s.fget PWM_CMPB_CMP p) (s.fget PWM_OFS_OFS p)
      exec (.pwmEnable m w) s = .next (s.noted m 0x100100 w.toNat (pwmPend (pwmMod e p
        (fun _ => firstValley e p { waiting := true })) p))) ∧
    (let k := pwmMod (cfg.fset PWM_CFG_EN p 1) p (fun x => { x with stop := false })
     (¬ refused → en = true → was = false → stopping = true → m.val ≠ 7 →
       exec (.pwmEnable m w) s = .next (s.noted m 0x100100 w.toNat (releaseSet k m p s.clk).2)) ∧
     (¬ refused → en = true → was = false → stopping = true → m.val = 7 → ∃ f x, 2 * clkT ≤ x ∧ x ≤ 3 * clkT ∧
       exec (.pwmEnable m w) s = .next (s.noted m 0x100100 w.toNat (releaseSet { k with free := f } m p (s.clk + x)).2))) ∧
    (¬ refused → en = false → was = true →
      exec (.pwmEnable m w) s = .next (s.noted m 0x100100 w.toNat (pwmMod (cfg.fset PWM_CFG_EN p 0) p
        (fun x => { x with stop := true })))) ∧
    (¬ refused → en = was → exec (.pwmEnable m w) s =
      .next (s.noted m 0x100100 w.toNat (cfg.fset PWM_CFG_EN p (b2n en))))) ∧
  (∀ (e : State) (p : Nat) (x : PwmPair),
    let v := firstValley e p x
    let now := pairTime e p e.clk
    v.start = (e.clk / clkT + 1) * clkT ∧ v.waiting = x.waiting ∧ v.stop = x.stop ∧ v.rel = x.rel ∧
    (e.fget PWM_CFG_ALIGN p ≠ 1 → v.nextValley = v.start + finePos e p (e.fget PWM_EOFS_OFS p) * uT) ∧
    (e.fget PWM_CFG_ALIGN p = 1 → now + 2 * clkT ≤ v.target ∧ v.target < now + 2 * clkT + max 1 (pwmPeriod e p) ∧
      ((v.target : Int) - (finePos e p (e.fget PWM_EOFS_OFS p) * uT : Nat)) % (max 1 (pwmPeriod e p) : Nat) = 0))

/-- The events of a running pair (R184 to R197): the first valley starts the counter, valleys and peaks reload and
correct it, each in its counter clock (assumption 51); the compare edges command the gate channels at their placed
instants, and an interval that would be shorter than MINPW is dropped or filled and counted. Rests on the model's
choices of assumptions 26, 51. -/
def Obligations.PairEventsAct : Prop :=
  (∀ (t : Time) (p : Pair) (s : State),
    (∀ V, (pwmOf s p).waiting = true → firstIn (s.at t) p (pwmOf s p) = some V →
      let u := (pwmMod (s.at t) p (fun x => { x with waiting := false, nextValley := V })).fset PWM_STAT_RUN p 1
      ((pwmOf s p).stop = true → exec (.pwmCounterStart t p) s = .next (pwmHalt (s.at t) p)) ∧
      ((pwmOf s p).stop = false → exec (.pwmCounterStart t p) s =
        .next (pwmEdges (releaseHeld (phaseCorrect (reload u p false).2 p V true) p) p))) ∧
    ((pwmOf s p).waiting = false ∨ firstIn (s.at t) p (pwmOf s p) = none →
      exec (.pwmCounterStart t p) s = .next (s.at t)) ∧
    (s.fget PWM_CFG_ALIGN p ≠ 1 → firstIn (s.at t) p (pwmOf s p) =
      if inClk (s.at t) (pwmOf s p).nextValley then some (pwmOf s p).nextValley else none) ∧
    (s.fget PWM_STAT_RUN p = 1 → inClk (s.at t) (pwmOf s p).nextValley = true →
      exec (.pwmValley t p) s = .next (pairEvents (valleyWork (s.at t) p) p 0 0)) ∧
    (s.fget PWM_STAT_RUN p = 1 → s.fget PWM_STAT_DOWN p ≠ 1 → inClk (s.at t) (pwmOf s p).nextPeak = true →
      exec (.pwmPeak t p) s = .next (pairEvents (peakWork (s.at t) p) p 1 2)) ∧
    (let half := s.fget PWM_EPER_PER p / 2 * clkT
     (inClk (s.at t) ((pwmOf s p).nextPeak - half) = true →
       exec (.pwmHalfCount t p) s = .next (pairEvents (s.at t) p 2 1)) ∧
     (inClk (s.at t) ((pwmOf s p).nextPeak - half) = false → inClk (s.at t) ((pwmOf s p).nextPeak + half) = true →
       exec (.pwmHalfCount t p) s = .next (pairEvents (s.at t) p 2 3)) ∧
     (inClk (s.at t) ((pwmOf s p).nextPeak - half) = false → inClk (s.at t) ((pwmOf s p).nextPeak + half) = false →
       exec (.pwmHalfCount t p) s = .next (s.at t))) ∧
    (inClk (s.at t) (pwmOf s p).nextValley = false → exec (.pwmValley t p) s = .next (s.at t)) ∧
    (s.fget PWM_STAT_DOWN p = 1 ∨ inClk (s.at t) (pwmOf s p).nextPeak = false →
      exec (.pwmPeak t p) s = .next (s.at t)) ∧
    (s.fget PWM_STAT_RUN p ≠ 1 → ∀ b : Bool,
      exec (.pwmValley t p) s = .next (s.at t) ∧ exec (.pwmPeak t p) s = .next (s.at t) ∧
      exec (.pwmHalfCount t p) s = .next (s.at t) ∧ exec (.pwmCompareMatch t p b) s = .next (s.at t))) ∧
  (∀ (t : Time) (p : Pair) (b : Bool) (s : State) (at_ : Time) (on : Bool) (len : Option Nat),
    lastEdge (s.at t) p b = (at_, on, len) → s.fget PWM_STAT_RUN p = 1 →
    let u := s.at t
    let x := pwmOf s p
    let min := s.fget PWM_CFG_MINPW p
    let drop := if b then x.dropB else x.dropA
    let opened := if b then x.openB else x.openA
    let due := if opened = 0 then at_ else max at_ (opened + min * clkT)
    let tick := if s.fget PWM_CFG_HR p = 1 then tapT else clkT
    let still : Prop := (if b then x.judgedB else x.judgedA) = at_ + 1 ∨ len = some 0 ∨
      (at_ = x.valley ∧ (on = true ↔ s.fget (if b then PWM_CFG_INVB else PWM_CFG_INVA) p = 1) ∧ drop = true)
    let c := 2 * p.val + b2n b
    (still → exec (.pwmCompareMatch t p b) s = .next u) ∧
    (¬ still → (gdOf s c).cmd = on → exec (.pwmCompareMatch t p b) s = .next (pwmMod u p (fun y =>
      if b then { y with dropB := false } else { y with dropA := false }))) ∧
    (¬ still → (gdOf s c).cmd ≠ on → u.clk < due ∨ due + tick ≤ u.clk → exec (.pwmCompareMatch t p b) s = .next u) ∧
    (¬ still → (gdOf s c).cmd ≠ on → due ≤ u.clk → u.clk < due + tick →
      let short := len.any (fun l => decide (l < min * 1024))
      let v := pwmMod u p (fun y => if b then { y with judgedB := at_ + 1, dropB := short }
        else { y with judgedA := at_ + 1, dropA := short })
      let w := if short || decide (at_ < due) then v.satAdd PWM_CNT_DROP p else v
      exec (.pwmCompareMatch t p b) s = .next (if short then w else gdCommand (pwmMod w p (fun y =>
        if b then { y with openB := u.clk } else { y with openA := u.clk })) c on))) ∧
  (∀ (t : Time) (p : Pair) (b : Bool) (s : State),
    let u := s.at t
    let x := pwmOf s p
    let c := 2 * p.val + b2n b
    let full := 1024 * s.fget PWM_EPER_PER p
    let cmp := cmpOf s p b
    let min := s.fget PWM_CFG_MINPW p
    let up := placeEdge s p (upEdge s p b)
    let dn := placeEdge s p (downEdge s p b)
    let tick := if s.fget PWM_CFG_HR p = 1 then tapT else clkT
    let inv := s.fget (if b then PWM_CFG_INVB else PWM_CFG_INVA) p = 1
    let opened := if b then x.openB else x.openA
    let judged (drop : Bool) (e : Nat) := pwmMod u p (fun y => if b then { y with judgedB := e + 1, dropB := drop }
      else { y with judgedA := e + 1, dropA := drop })
    let turned (v : State) (on : Bool) := gdCommand (pwmMod v p (fun y =>
      if b then { y with openB := max s.clk t } else { y with openA := max s.clk t })) c on
    s.fget PWM_STAT_RUN p = 1 → x.rel = none → (if b then x.dropB else x.dropA) = false →
    (cmp < full → (gdOf s c).cmd = decide inv → up ≤ max s.clk t → max s.clk t < up + tick → max s.clk t < dn →
      (if b then x.judgedB else x.judgedA) ≠ up + 1 → opened = 0 ∨ opened + min * clkT ≤ up →
      (min * 1024 ≤ 2 * (full - cmp) → exec (.pwmCompareMatch t p b) s = .next (turned (judged false up) (!decide inv))) ∧
      (2 * (full - cmp) < min * 1024 →
        exec (.pwmCompareMatch t p b) s = .next ((judged true up).satAdd PWM_CNT_DROP p))) ∧
    (0 < cmp → cmp < full → (gdOf s c).cmd = !decide inv → dn ≤ max s.clk t → max s.clk t < dn + tick →
      (if b then x.judgedB else x.judgedA) ≠ dn + 1 → opened = 0 ∨ opened + min * clkT ≤ dn →
      (min * 1024 ≤ 2 * cmp → exec (.pwmCompareMatch t p b) s = .next (turned (judged false dn) (decide inv))) ∧
      (2 * cmp < min * 1024 →
        exec (.pwmCompareMatch t p b) s = .next ((judged true dn).satAdd PWM_CNT_DROP p))))

/-- The gate sequence (R209 to R222): GD_CFG turns a channel on and off duty; a waiting turn-on starts after its
partner's dead time and goes pre-pulse, on slope, on hold; a turn-off goes pre-discharge, off slope, off hold; the
timeouts of the slopes and of the feedback set their events and counters. Feedback and DIDT inputs (R213 to R221):
feedback is taken with its polarity; a comparator trip during blanking is counted as blanked and after it is a DIDT
event; the hard level is never blanked; the inputs release with their comparators. Rests on the model's choices of
assumption 25. -/
def Obligations.GateChannelsAct : Prop :=
  (∀ (m : Master) (w : Word) (s : State), s.MayWrite m 0x110100 w.toNat false →
    let c := chsel s .gd m
    let b := countRsvd s m 0x110100 w.toNat
    let en := bit w.toNat 31
    let was := s.fget GD_CFG_EN c == 1
    let fs := [GD_CFG_DIEN, GD_CFG_FBPOL, GD_CFG_THR, GD_CFG_TBLANK]
    let refused : Prop := (was = true ∧ ∃ F ∈ fs, bits w.toNat F.lo F.width ≠ s.fget F c) ∨
      (was = false ∧ en = true ∧ (scanHolds s = true ∨
        s.fget GD_TFB_TFBOFF c ≤ s.fget GD_TOFF_TPDIS c + s.fget GD_TOFF_TWOFF c))
    let u := fs.foldl (fun u F => u.fset F c (bits w.toNat F.lo F.width)) b
    let v := didtSync (gdFb u c (bit s.pins.gfb c != bit w.toNat 29)) c
    let e := (gdMod v c (fun x => { x with stopping := false })).fset GD_CFG_EN c 1
    let d := (v.fset GD_CFG_EN c 0).fset GD_STAT_WAIT c 0
    let ph := d.fget GD_STAT_PHASE c
    let stops := gdMod d c (fun x => { x with stopping := true })
    (refused → Answers (exec (.gdEnable m w) s) (fun u => u.fget GD_ERR_VALID = 1 ∧ u.gd = s.gd ∧
      u.fget GD_CFG_EN c = s.fget GD_CFG_EN c)) ∧
    (¬ refused → en = true → was = false → bit e.flt.forced c = false → bit e.flt.hold c = false →
      exec (.gdEnable m w) s = .next (s.noted m 0x110100 w.toNat (gdReturn e c))) ∧
    (¬ refused → en = true → was = false → bit e.flt.forced c = true ∨ bit e.flt.hold c = true →
      exec (.gdEnable m w) s = .next (s.noted m 0x110100 w.toNat (gdSteady e c))) ∧
    (¬ refused → en = false → was = true →
      (ph = 0 ∨ ph = 6 → exec (.gdEnable m w) s =
        .next (s.noted m 0x110100 w.toNat (ilFree (gdPhase d c 0 0) (partner c)))) ∧
      (ph = 4 ∨ ph = 5 → exec (.gdEnable m w) s = .next (s.noted m 0x110100 w.toNat stops)) ∧
      (ph ∉ [0, 4, 5, 6] → exec (.gdEnable m w) s = .next (s.noted m 0x110100 w.toNat (gdTurnOff stops c)))) ∧
    (¬ refused → en = was → exec (.gdEnable m w) s = .next (s.noted m 0x110100 w.toNat v))) ∧
  (∀ (t : Time) (c : Chan) (s : State),
    (let due : Prop := gdLive s c = true ∧ (gdOf s c).cmd = true ∧ s.fget GD_STAT_WAIT c = 1 ∧ s.fget GD_STAT_PHASE c = 0 ∧
       mayTurnOn (s.at t) c = true ∧ partnerFirst s c = false ∧ clockPassed (s.at t) c = true
     let both : Prop := roseTogether s c = true ∧ mayTurnOn (s.at t) (partner c) = true
     (due → ¬ both → exec (.gdTurnOnStart t c) s = .next (didtSync (gdMod (gdPhase ((s.at t).fset GD_STAT_WAIT c 0) c 1 1) c
        (fun x => { x with blank := s.fget GD_CFG_TBLANK c != 0, blankAt := max s.clk t })) c)) ∧
     (due → both → exec (.gdTurnOnStart t c) s = .next (interlock (s.at t) (c / 2))) ∧
     (¬ due → exec (.gdTurnOnStart t c) s = .next (s.at t))) ∧
    (s.fget GD_STAT_PHASE c = 1 → s.fget GD_STAT_FB c = 1 →
      (gdOf s c).blankAt + s.fget GD_TON_TPRE c * clkT ≤ max s.clk t →
      exec (.gdTpreExpiry t c) s = .next (gdPhase (s.at t) c 3 3)) ∧
    (s.fget GD_STAT_PHASE c = 1 → s.fget GD_STAT_FB c ≠ 1 →
      (gdOf s c).blankAt + s.fget GD_TON_TPRE c * clkT ≤ max s.clk t →
      exec (.gdTpreExpiry t c) s = .next
        (gdPhase (gdMod (s.at t) c (fun x => { x with slopeAt := max s.clk t })) c 2 2)) ∧
    (s.fget GD_STAT_PHASE c ≠ 1 ∨ max s.clk t < (gdOf s c).blankAt + s.fget GD_TON_TPRE c * clkT →
      exec (.gdTpreExpiry t c) s = .next (s.at t)) ∧
    (s.fget GD_STAT_PHASE c = 2 → (gdOf s c).slopeAt + s.fget GD_TON_TWON c * clkT ≤ max s.clk t →
      exec (.gdTwonTimeout t c) s = .next
        ((gdPhase ((s.at t).fset GD_EVT_WONTO c 1) c 3 3).satAdd GD_CNT1_SLOW c)) ∧
    (s.fget GD_STAT_PHASE c ≠ 2 ∨ max s.clk t < (gdOf s c).slopeAt + s.fget GD_TON_TWON c * clkT →
      exec (.gdTwonTimeout t c) s = .next (s.at t)) ∧
    (s.fget GD_STAT_PHASE c = 4 → (gdOf s c).offAt + max 1 (s.fget GD_TOFF_TPDIS c) * clkT ≤ max s.clk t →
      let u := gdPhase (gdMod (s.at t) c (fun x => { x with slopeAt := max s.clk t })) c 5 2
      (s.fget GD_STAT_FB c = 1 → exec (.gdTpdisExpiry t c) s = .next u) ∧
      (s.fget GD_STAT_FB c ≠ 1 → exec (.gdTpdisExpiry t c) s = .next (gdOffHold u c))) ∧
    (s.fget GD_STAT_PHASE c ≠ 4 ∨ max s.clk t < (gdOf s c).offAt + max 1 (s.fget GD_TOFF_TPDIS c) * clkT →
      exec (.gdTpdisExpiry t c) s = .next (s.at t)) ∧
    (s.fget GD_STAT_PHASE c = 5 → (gdOf s c).slopeAt + s.fget GD_TOFF_TWOFF c * clkT ≤ max s.clk t →
      exec (.gdTwoffTimeout t c) s =
      .next (gdOffHold (((s.at t).fset GD_EVT_WOFFTO c 1).satAdd GD_CNT1_SLOW c) c)) ∧
    (s.fget GD_STAT_PHASE c ≠ 5 ∨ max s.clk t < (gdOf s c).slopeAt + s.fget GD_TOFF_TWOFF c * clkT →
      exec (.gdTwoffTimeout t c) s = .next (s.at t)) ∧
    (s.fget GD_CFG_EN c = 1 → (gdOf s c).tfb = true → (gdOf s c).offAt + s.fget GD_TFB_TFBOFF c * clkT ≤ max s.clk t →
      exec (.gdTfboffExpiry t c) s = .next (syncGdFb (((gdMod (s.at t) c (fun x => { x with tfb := false })).fset
        GD_EVT_FBOFF c 1).satAdd GD_CNT1_FBERR c))) ∧
    (s.fget GD_CFG_EN c ≠ 1 ∨ (gdOf s c).tfb = false ∨ max s.clk t < (gdOf s c).offAt + s.fget GD_TFB_TFBOFF c * clkT →
      exec (.gdTfboffExpiry t c) s = .next (s.at t)) ∧
    (let ph := s.fget GD_STAT_PHASE c
     let due : Prop := s.fget GD_CFG_EN c = 1 ∧ bit s.flt.forced c = false ∧
       (((ph = 0 ∨ ph = 6) ∧ s.fget GD_STAT_FB c = 1) ∨ (ph = 3 ∧ s.fget GD_STAT_FB c = 0)) ∧
       (gdOf s c).mism = false ∧ (gdOf s c).steady + 8 * clkT ≤ max s.clk t
     (due → exec (.gdFbmis t c) s = .next (syncGdFb (((gdMod (s.at t) c (fun x => { x with mism := true })).fset
       GD_EVT_FBMIS c 1).satAdd GD_CNT1_FBERR c))) ∧
     (¬ due → exec (.gdFbmis t c) s = .next (s.at t)))) ∧
  (∀ (s : State) (c ph code : Nat), c < 24 → ph < 8 → code < 4 →
    (gdPhase s c ph code).fget GD_STAT_PHASE c = ph ∧ (gdPhase s c ph code).fget GD_STAT_CODE c = code ∧
    s.SameMem (gdPhase s c ph code) ∧ s.SameRegsBut (gdPhase s c ph code) [(GD_STAT_PHASE, c), (GD_STAT_CODE, c)]) ∧
  (∀ (t : Time) (c : Chan) (s : State),
     (∀ level : Bool, domOn s (instDom .gd c) = false → exec (.gdFeedbackChange t c level) s =
       .next { s.at t with pins.gfb := putBit s.pins.gfb c level }) ∧
     (∀ level : Bool, domOn s (instDom .gd c) = true → (level != s.flag GD_CFG_FBPOL c) = true →
       let b := { s.at t with pins.gfb := putBit s.pins.gfb c level }
       let u := gdMod (if s.fget GD_STAT_FB c = 1 then b else gdSteady (b.fset GD_STAT_FB c 1) c) c (fun x => x)
       (s.fget GD_STAT_PHASE c = 2 → exec (.gdFeedbackChange t c level) s = .next (gdPhase u c 3 3)) ∧
       (s.fget GD_STAT_PHASE c ≠ 2 → exec (.gdFeedbackChange t c level) s = .next u)) ∧
     (∀ level : Bool, domOn s (instDom .gd c) = true → (level != s.flag GD_CFG_FBPOL c) = false →
       let b := { s.at t with pins.gfb := putBit s.pins.gfb c level }
       let u := gdMod (if s.fget GD_STAT_FB c = 1 then gdSteady (b.fset GD_STAT_FB c 0) c else b) c
         (fun x => { x with tfb := false })
       let v := if s.fget GD_STAT_PHASE c = 5 then gdOffHold u c else u
       exec (.gdFeedbackChange t c level) s = .next (syncForced ((List.range 8).foldl (fun x g =>
         if grpLatched x g && x.flag FLT_GSTAT_STEP2 g then grpMove g x (partner c) else x) v))) ∧
     ((gdOf s c).blank = true → s.fget GD_EVT_BLANKED c = 0 →
       exec (.gdThresholdTrip t c) s = .next (((s.at t).fsets [(GD_STAT_DET, c, 1), (GD_EVT_BLANKED, c, 1),
         (GD_BLKNS_NS, c, nsOf (repTime (s.at t) (instDom .gd c)))]).satAdd GD_CNT0_BLK c)) ∧
     ((gdOf s c).blank = true → s.fget GD_EVT_BLANKED c = 1 →
       exec (.gdThresholdTrip t c) s = .next (((s.at t).fset GD_STAT_DET c 1).satAdd GD_CNT0_BLK c)) ∧
     ((gdOf s c).blank = false → s.fget GD_CFG_DIEN c = 1 →
       exec (.gdThresholdTrip t c) s = .next (didtRise ((s.at t).fset GD_STAT_DET c 1) c false)) ∧
     ((gdOf s c).blank = false → s.fget GD_CFG_DIEN c = 0 →
       exec (.gdThresholdTrip t c) s = .next ((s.at t).fset GD_STAT_DET c 1)) ∧
     (s.fget GD_CFG_DIEN c = 1 →
       exec (.gdHardTrip t c) s = .next (didtRise ((s.at t).fset GD_STAT_HARD c 1) c true)) ∧
     (s.fget GD_CFG_DIEN c = 0 → exec (.gdHardTrip t c) s = .next ((s.at t).fset GD_STAT_HARD c 1)) ∧
     (exec (.gdComparatorRelease t c true) s = .next (didtSync ((s.at t).fset GD_STAT_HARD c 0) c) ∧
       exec (.gdComparatorRelease t c false) s = .next (didtSync ((s.at t).fset GD_STAT_DET c 0) c)) ∧
     ((gdOf s c).blank = true → (gdOf s c).blankAt + s.fget GD_CFG_TBLANK c * clkT ≤ max s.clk t →
       let u := gdMod (s.at t) c (fun x => { x with blank := false })
       (s.fget GD_STAT_DET c = 1 ∧ s.fget GD_CFG_DIEN c = 1 →
         exec (.gdBlankingEnd t c) s = .next (didtRise u c false)) ∧
       (s.fget GD_STAT_DET c = 0 ∨ s.fget GD_CFG_DIEN c = 0 → exec (.gdBlankingEnd t c) s = .next u)) ∧
     ((gdOf s c).blank = false ∨ max s.clk t < (gdOf s c).blankAt + s.fget GD_CFG_TBLANK c * clkT →
       exec (.gdBlankingEnd t c) s = .next (s.at t)))

/-- Fault groups (R198 to R206): enabling, clearing a latch, the second step, the forced sequencers, the FLT pins with
their deglitch, and the software fault. Rests on the model's choices of assumption 25. -/
def Obligations.FaultGroupsAct : Prop :=
  (∀ (m : Master) (g : Grp) (w : Word) (s : State), s.MayWrite m (0x102100 + 0x40 * g) w.toNat false →
    let b := countRsvd s m (0x102100 + 0x40 * g) w.toNat
    let en := bit w.toNat 31
    let was := s.fget FLT_GCFG_EN g == 1
    let refused : Prop := (was = true ∧ (en = true ∨ b2n (bit w.toNat 30) ≠ s.fget FLT_GCFG_SAFE g ∨
        w.toNat % 65536 ≠ s.fget FLT_GCFG_SAFE_T g ∨ s.fget FLT_GSTAT_LATCH g = 1)) ∨
      (was = false ∧ en = true ∧ grpCheck b g (w.toNat % 65536) ≠ .ok)
    let u := pulsesEnd (b.fsets
      [(FLT_GCFG_EN, g, b2n en), (FLT_GCFG_SAFE, g, b2n (bit w.toNat 30)), (FLT_GCFG_SAFE_T, g, w.toNat % 65536)])
    let hit : Prop := en = true ∧ was = false ∧ ∃ n ∈ bitList 56 (grpMask u g), bit u.flt.live n = true
    (refused → Answers (exec (.faultGroupEnable m g w) s) (fun u => u.fget PWM_ERR_VALID = 1 ∧ u.flt = s.flt ∧
      u.fget FLT_GCFG_EN g = s.fget FLT_GCFG_EN g)) ∧
    (¬ refused → ¬ hit → exec (.faultGroupEnable m g w) s = .next (s.noted m (0x102100 + 0x40 * g) w.toNat u)) ∧
    (¬ refused → hit → exec (.faultGroupEnable m g w) s = .next (s.noted m (0x102100 + 0x40 * g) w.toNat
      (if (grpLatch u g).flag FLT_GCFG_SAFE g then enterSafe (grpLatch u g) CA_FAULT else grpLatch u g)))) ∧
  (∀ (m : Master) (g : Grp) (w : Word) (s : State), s.MayWrite m (0x102120 + 0x40 * g) w.toNat false →
    let b := countRsvd s m (0x102120 + 0x40 * g) w.toNat
    let clears : Prop := bit w.toNat 31 = true ∧ s.fget FLT_GSTAT_LATCH g = 1 ∧
      ∀ n ∈ bitList 56 (grpMask b g), bit (liveNow s) n = false
    let held := (bitList 24 (grpCover b g)).filter (fun c => bit s.flt.forced c)
    let u := syncForced
      { b.fsets [(FLT_GSTAT_LATCH, g, 0), (FLT_GSTAT_STEP2, g, 0)] with flt.moved := smSet 0 b.flt.moved g 0 }
    (clears → exec (.faultLatchClear m g w) s = .next (s.noted m (0x102120 + 0x40 * g) w.toNat
      (held.foldl (fun (x : State) c => if bit x.flt.forced c then x
        else if x.flag PWM_STAT_RUN (c / 2) then { x with flt.hold := putBit x.flt.hold c true } else gdReturn x c) u))) ∧
    (¬ clears → exec (.faultLatchClear m g w) s = .next (s.noted m (0x102120 + 0x40 * g) w.toNat b))) ∧
  (∀ (t : Time) (g : Grp) (s : State),
    let due : Prop := s.fget FLT_GCFG_EN g = 1 ∧ s.fget FLT_GSTAT_LATCH g = 1 ∧ s.fget FLT_GCFG_SAFE_T g ≠ 0 ∧
      s.fget FLT_GSTAT_STEP2 g = 0 ∧ smGet 0 s.flt.latchAt g + s.fget FLT_GCFG_SAFE_T g * 10 * nsT ≤ max s.clk t
    (due → exec (.faultGroupStep2 t g) s =
      .next (syncForced ((List.range 24).foldl (grpMove g) ((s.at t).fset FLT_GSTAT_STEP2 g 1)))) ∧
    (¬ due → exec (.faultGroupStep2 t g) s = .next (s.at t))) ∧
  (∀ (t : Time) (c : Chan) (s : State),
    ((gdOf s c).forceAt + 4 * nsT ≤ max s.clk t →
      exec (.forcePrefixEnd t c) s = .next (gdMod (s.at t) c (fun x => { x with pre := false }))) ∧
    (max s.clk t < (gdOf s c).forceAt + 4 * nsT → exec (.forcePrefixEnd t c) s = .next (s.at t)) ∧
    (bit s.flt.forced c = true → (gdOf s c).forceAt + 2 * clkT ≤ max s.clk t → exec (.forceSequencerSync t c) s =
      .next ((gdPhase (gdMod (s.at t) c (fun x => { x with offAt := max s.clk t, tfb := s.flag GD_STAT_FB c })) c 0 0).fset
        GD_STAT_WAIT c 0)) ∧
    (bit s.flt.forced c = false ∨ max s.clk t < (gdOf s c).forceAt + 2 * clkT → exec (.forceSequencerSync t c) s = .next (s.at t))) ∧
  (∀ (t : Time) (n : Fin 4) (level : Bool) (s : State),
    let u := { s.at t with flt.pin := putBit s.flt.pin n level }
    (domOn s 7 = false → exec (.fltPinChange t n level) s = .next u) ∧
    (domOn s 7 = true → fltActive u n = true → s.fget (FLT_PINCFG_DGL n) ≠ 0 → bit s.flt.dgl n = false →
      exec (.fltPinChange t n level) s = .next { u with
        flt.dgl := putBit s.flt.dgl n true, flt.dglAt := smSet 0 s.flt.dglAt n (max s.clk t) }) ∧
    (domOn s 7 = true → fltActive u n = true → s.fget (FLT_PINCFG_DGL n) ≠ 0 → bit s.flt.dgl n = true →
      exec (.fltPinChange t n level) s = .next u) ∧
    (domOn s 7 = true → fltActive u n = true → s.fget (FLT_PINCFG_DGL n) = 0 →
      exec (.fltPinChange t n level) s = .next (srcAssert u (24 + n))) ∧
    (domOn s 7 = true → fltActive u n = false →
      exec (.fltPinChange t n level) s = .next (srcRelease { u with flt.dgl := putBit s.flt.dgl n false } (24 + n))) ∧
    (bit s.flt.dgl n = true → fltActive s n = true → smGet 0 s.flt.dglAt n + dglTime s n ≤ max s.clk t →
      exec (.fltDeglitchExpiry t n) s =
        .next (srcAssert { s.at t with flt.dgl := putBit s.flt.dgl n false } (24 + n))) ∧
    (bit s.flt.dgl n = false ∨ fltActive s n = false ∨ max s.clk t < smGet 0 s.flt.dglAt n + dglTime s n → exec (.fltDeglitchExpiry t n) s = .next (s.at t))) ∧
  (∀ (m : Master) (w : Word) (s : State), s.MayWrite m 0x102024 w.toNat false →
    let u := (countRsvd s m 0x102024 w.toNat).fset FLT_SWFORCE_FORCE 0 (w.toNat % 2)
    (bit w.toNat 0 = true →
      exec (.faultSwforce m w) s = .next (s.noted m 0x102024 w.toNat (srcAssert u SRC_SWFORCE))) ∧
    (bit w.toNat 0 = false →
      exec (.faultSwforce m w) s = .next (s.noted m 0x102024 w.toNat (srcRelease u SRC_SWFORCE))))

/-! ### String port and converters (R227 to R263) -/

/-- SPR_CTL, SPR_EVT and SPR_PHFAIL as written, and the regulator's events (R225 to R245). Rests on the model's choices
of assumption 27. -/
def Obligations.StringPortActs : Prop :=
  (∀ (m : Master) (w : Word) (s : State), s.MayWrite m 0x120020 w.toNat (sprCtlNeedC w.toNat) →
    let b := countRsvd s m 0x120020 w.toNat
    let off := sprState s == S_OFF
    let begins := bit w.toNat 0 && off
    let commits := bit w.toNat 2 || begins
    let stopBad : Prop := bit w.toNat 1 = true ∧ (sprState s = S_OFF ∨ sprState s = S_STOP ∨ sprState s = S_TRIP)
    let commitOk : Prop := paramCheck b = .ok ∧ s.fget SPR_STAT_CPEND = 0
    let refused : Prop := stopBad ∨ (bit w.toNat 0 = true ∧ off = false) ∨ (commits = true ∧ ¬ commitOk) ∨
      (begins = true ∧ startCheck b ≠ .ok)
    let c := if commits then takeParams b else b
    exec (.sprStop m w) s = exec (.sprStart m w) s ∧ exec (.sprCommit m w) s = exec (.sprStart m w) s ∧
    (¬ refused →
      (begins = true → exec (.sprStart m w) s = .next (s.noted m 0x120020 w.toNat
        (offAll ((sprMod c (fun x => { x with startAt := s.clk, issued := 0 })).fset SPR_STAT_STATE 0 S_MEASURE)))) ∧
      (begins = false → bit w.toNat 1 = false → exec (.sprStart m w) s = .next (s.noted m 0x120020 w.toNat c)) ∧
      (begins = false → bit w.toNat 1 = true → sprState s = S_MEASURE →
        exec (.sprStart m w) s = .next (s.noted m 0x120020 w.toNat (sprOff c))) ∧
      (begins = false → bit w.toNat 1 = true → sprState s ≠ S_MEASURE →
        exec (.sprStart m w) s = .next (s.noted m 0x120020 w.toNat
          (syncPlim ((sprMod c (fun x => { x with stopAt := x.tick, low := [], itot := 0 })).fsets
            [(SPR_STAT_STATE, 0, S_STOP), (SPR_ITOT_I, 0, 0), (SPR_STAT_ILIM, 0, 0)]))))) ∧
    (refused → Answers (exec (.sprStart m w) s) (fun u => u.fget SPR_ERR_VALID = 1 ∧ sprState u = sprState s ∧
      (begins = true ∧ ¬ stopBad ∧ commitOk → u.spr = (takeParams b).spr) ∧
      (¬ (begins = true ∧ ¬ stopBad ∧ commitOk) → u.spr = s.spr)))) ∧
  (∀ (t : Time) (s : State) (x : SprSet), s.spr.wait = some x → x.ready = none →
    exec (.sprCoeffComputed t) s = .next { s.at t with spr.wait := some { x with ready := some (max s.clk t) } }) ∧
  (∀ (t : Time) (s : State), (∀ x, s.spr.wait = some x → x.ready ≠ none) →
    exec (.sprCoeffComputed t) s = .next (s.at t)) ∧
  (∀ (t : Time) (s : State),
    let due : Prop := (sprState s = S_MEASURE ∨ sprState s = S_STEEP) ∧
      s.spr.startAt + s.fget SPR_TIME_SSTMO * msT ≤ max s.clk t
    (due → exec (.sprSstmo t) s = .next (sprTrip (s.at t) 7)) ∧ (¬ due → exec (.sprSstmo t) s = .next (s.at t))) ∧
  (∀ (t : Time) (pos : Fin 4) (s : State),
    (∀ e, tickAtStage s 0 = some e → e.pos = pos.val → e.sent + 5 * nsT ≤ max s.clk t → domOn s 9 = true →
      exec (.sprTick t pos) s =
        .next (pffDue (paramsDue (sprMod (s.at t) (fun x => { x with ticks := moveTick 0 x.ticks }))))) ∧
    (∀ e, tickAtStage s 0 = some e → e.pos ≠ pos.val ∨ max s.clk t < e.sent + 5 * nsT ∨ domOn s 9 = false →
      exec (.sprTick t pos) s = .next (s.at t)) ∧
    (tickAtStage s 0 = none → exec (.sprTick t pos) s = .next (s.at t))) ∧
  (∀ (t : Time) (e : SprTick) (s : State), tickAtStage s 1 = some e →
    ((∀ i, i < 6 → (resultFor (s.at t) e.at_ i).isSome = true) ∨
        e.at_ + s.fget SPR_TIME_WAIT * 65536 ≤ repTime (s.at t) 8 →
      let u := takeTick (s.at t) e
      (sprState s = S_OFF ∨ e.no = 0 → exec (.sprCompute t) s = .next u) ∧
      (sprState s ≠ S_OFF → e.no ≠ 0 → sprState (sprComputeTick u) = S_OFF →
        exec (.sprCompute t) s = .next (sprComputeTick u)) ∧
      (sprState s ≠ S_OFF → e.no ≠ 0 → sprState (sprComputeTick u) ≠ S_OFF →
        exec (.sprCompute t) s = .next (nextTest (rotate (sprComputeTick u))))) ∧
    (∀ i, i < 6 → resultFor (s.at t) e.at_ i = none →
      repTime (s.at t) 8 < e.at_ + s.fget SPR_TIME_WAIT * 65536 → exec (.sprCompute t) s = .next (s.at t))) ∧
  (∀ (t : Time) (s : State), tickAtStage s 1 = none → exec (.sprCompute t) s = .next (s.at t)) ∧
  (∀ (m : Master) (w : Word) (s : State), s.MayWrite m 0x12002c w.toNat false →
    let b := countRsvd s m 0x12002c w.toNat
    let c := [(7, SPR_EVT_PLIM), (6, SPR_EVT_OPEN), (5, SPR_EVT_SENSEF), (4, SPR_EVT_SHED), (3, SPR_EVT_ABORT),
      (2, SPR_EVT_ADD), (0, SPR_EVT_SSDONE)].foldl (fun (x : State) (e : Nat × Fld) =>
        if bit w.toNat e.1 then x.fset e.2 0 0 else x) b
    let clears : Prop := bit w.toNat 1 = true ∧ s.fget SPR_EVT_TRIP = 1 ∧ tripLive s = false
    (clears → exec (.sprTripClear m w) s =
      .next (s.noted m 0x12002c w.toNat (srcRelease (sprOff (c.fset SPR_EVT_TRIP 0 0)) SRC_SPR_FAULT))) ∧
    (¬ clears → exec (.sprTripClear m w) s = .next (s.noted m 0x12002c w.toNat c))) ∧
  (∀ (m : Master) (w : Word) (s : State), s.MayWrite m 0x120028 w.toNat false →
    let b := countRsvd s m 0x120028 w.toNat
    let clear (l : List Nat) (v : Nat) : Nat := l.foldl (fun v k => putBit v k false) v
    let ok := (bitList 4 (w.toNat / 16)).filter (fun k =>
      s.spr.tested.getD (k + 2) 0 == 1 || !bit (s.fget SPR_PHFAIL_SENSE) k)
    let o := (b.fset SPR_PHFAIL_OPEN 0 (clear (bitList 4 w.toNat) (s.fget SPR_PHFAIL_OPEN))).fset SPR_PHFAIL_SENSE 0
      (clear ok (s.fget SPR_PHFAIL_SENSE))
    let v := sprMod o (fun x => { x with
      senseAt := ok.foldl smErase x.senseAt
      shed := ok.foldl (fun m k => if (smGet (0, false) m k).2 then smErase m k else m) x.shed })
    exec (.sprPhfailClear m w) s = .next (s.noted m 0x120028 w.toNat
      (syncPlim ((syncShed v).fset SPR_STAT_SUBST 0 (clear ok (s.fget SPR_STAT_SUBST))))))

/-- Converters (R247 to R256): enabling, injected requests, calibration, results, the timer, power-down and start-up,
routes, and a read of the low half, which latches the high half. `c` is the converter that the master's ADC_CHSEL
selects; every command first lets the regular starts up to its instant take effect (`adcSettle`). That the operands of
ADC_RESULT are readings, of which the model computes the codes, is assumption 52. Window comparators (R257 to R259):
the input is looked at against the levels, an assertion waits for its filter, and committed levels take effect together
at the switch. Rests on the model's choices of assumptions 28, 51, 52. -/
def Obligations.ConvertersAndWindowsAct : Prop :=
  (∀ (m : Master) (w : Word) (s : State), s.MayWrite m 0x130100 w.toNat false →
    let c := chsel s .adc m
    let v := adcSettle (countRsvd s m 0x130100 w.toNat) c
    let en := bit w.toNat 31
    let was := v.flag ADC_CFG_EN c
    let rest := bits w.toNat 30 1 * 2 ^ 30 + bits w.toNat 24 3 * 2 ^ 24 + bits w.toNat 16 5 * 2 ^ 16
      + bits w.toNat 12 2 * 2 ^ 12 + w.toNat % 32
    let st := firstStatus [chk (4 < bits w.toNat 24 3 || 16 < w.toNat % 32) .range,
      chk (was && rest != adcCfgRest v c) .conflict, if en && !was then adcEnCheck v c w.toNat else .ok]
    let u := v.fsets [(ADC_CFG_EN, c, b2n en), (ADC_CFG_AWAKE, c, bits w.toNat 30 1), (ADC_CFG_TRIG, c, bits w.toNat 24 3),
      (ADC_CFG_TSEL, c, bits w.toNat 16 5), (ADC_CFG_EVT, c, bits w.toNat 12 2), (ADC_CFG_SLOTS, c, w.toNat % 32)]
    (bits w.toNat 24 3 ≤ 4 → w.toNat % 32 ≤ 16 → was = false → (en = true → adcEnCheck v c w.toNat = .ok) → st = .ok) ∧
    (bits w.toNat 24 3 ≤ 4 → w.toNat % 32 ≤ 16 → was = true → rest = adcCfgRest v c → st = .ok) ∧
    (st = .ok → was = false → en = true → exec (.adcEnable m w) s = .next (s.noted m 0x130100 w.toNat (
      let x := adcMod u c (fun x => { x with timerAt := s.clk, freeAt := s.clk + acqT, down := false })
      if v.fget ADC_STAT_STATE c = A_OFF then x.fset ADC_STAT_STATE c A_IDLE else x))) ∧
    (st = .ok → was = true → en = false →
      exec (.adcEnable m w) s = .next (s.noted m 0x130100 w.toNat (adcStop u c))) ∧
    (st = .ok → was = en → exec (.adcEnable m w) s = .next (s.noted m 0x130100 w.toNat u)) ∧
    (st ≠ .ok → exec (.adcEnable m w) s = .next (s.notedBad m 0x130100 w.toNat st (adcErr v m c st)))) ∧
  (∀ (m : Master) (w : Word) (s : State), s.MayWrite m 0x130120 w.toNat false →
    let c := chsel s .adc m
    let v := adcSettle (countRsvd s m 0x130120 w.toNat) c
    let st := firstStatus [convArgs w.toNat,
      chk (bit w.toNat 31 && (!v.flag ADC_CFG_EN c || pullTaken v c w.toNat)) .conflict,
      chk (bit w.toNat 31 && v.flag ADC_STAT_INJP c) .busy]
    (st ≠ .ok → exec (.adcInjGo m w) s = .next (s.notedBad m 0x130120 w.toNat st (adcErr v m c st))) ∧
    (convArgs w.toNat = .ok → bit w.toNat 31 = false → exec (.adcInjGo m w) s = .next (s.noted m 0x130120 w.toNat v)) ∧
    (convArgs w.toNat = .ok → bit w.toNat 31 = true → v.fget ADC_CFG_EN c = 1 → pullTaken v c w.toNat = false → v.fget ADC_STAT_INJP c = 0 →
      let q := (w.toNat % 8, bits w.toNat 4 4, bits w.toNat 8 2)
      let i := v.fset ADC_STAT_INJP c 1
      (v.fget ADC_STAT_STATE c = A_IDLE → exec (.adcInjGo m w) s =
        .next (s.noted m 0x130120 w.toNat (beginInj i c q (s.clk + 819200) false))) ∧
      (v.fget ADC_STAT_STATE c = A_DOWN → exec (.adcInjGo m w) s =
        .next (s.noted m 0x130120 w.toNat (beginInj (i.satAdd ADC_CNT1_WAKE c) c q (s.clk + 819200) true))) ∧
      (v.fget ADC_STAT_STATE c ≠ A_IDLE → v.fget ADC_STAT_STATE c ≠ A_DOWN →
        (∀ j, (adcOf v c).job = some j → j.idle = true → j.first / adcClk = s.clk / adcClk →
          v.fget ADC_STAT_HELD c = 0 → exec (.adcInjGo m w) s = .next (s.noted m 0x130120 w.toNat
            ((beginInj (i.satAdd ADC_CNT0_HELD c) c q (s.clk + 819200) j.wake).fset ADC_STAT_HELD c 1))) ∧
        (∀ j, (adcOf v c).job = some j →
          j.idle = false ∨ j.first / adcClk ≠ s.clk / adcClk ∨ v.fget ADC_STAT_HELD c = 1 → exec (.adcInjGo m w) s = .next (s.noted m 0x130120 w.toNat (adcMod i c (fun x => { x with inj := some q })))) ∧
        ((adcOf v c).job = none →
          exec (.adcInjGo m w) s =
            .next (s.noted m 0x130120 w.toNat (adcMod i c (fun x => { x with inj := some q }))))))) ∧
  (∀ (m : Master) (w : Word) (s : State), s.MayWrite m 0x130124 w.toNat false →
    let c := chsel s .adc m
    let v := adcSettle (countRsvd s m 0x130124 w.toNat) c
    let h := if v.flag ADC_STAT_HELD c then (v.fset ADC_STAT_HELD c 0).satAdd ADC_CNT0_MISS c else v
    let st := firstStatus [chk (bit w.toNat 0 && sprOwnsConv v c) .conflict,
      chk (bit w.toNat 0 && (v.fget ADC_STAT_STATE c == A_CAL || v.flag ADC_STAT_CALP c)) .busy]
    (st ≠ .ok → exec (.adcCal m w) s = .next (s.notedBad m 0x130124 w.toNat st (adcErr v m c st))) ∧
    (bit w.toNat 0 = false → exec (.adcCal m w) s = .next (s.noted m 0x130124 w.toNat v)) ∧
    (bit w.toNat 0 = true → sprOwnsConv v c = false → v.fget ADC_STAT_STATE c ≠ A_CAL → v.fget ADC_STAT_CALP c = 0 →
      (v.fget ADC_STAT_STATE c = A_CONV →
        exec (.adcCal m w) s = .next (s.noted m 0x130124 w.toNat (h.fset ADC_STAT_CALP c 1))) ∧
      (v.fget ADC_STAT_STATE c ≠ A_CONV →
        exec (.adcCal m w) s = .next (s.noted m 0x130124 w.toNat (beginCal h c s.clk))))) ∧
  (∀ (t : Time) (c : Conv) (ofs gain : Word) (skews : List Int) (s : State),
    let v := adcSettle (s.at t) c
    let ends := (adcOf v c).calAt + 20 * usT
    (v.fget ADC_STAT_STATE c = A_CAL → ends ≤ max s.clk t →
      exec (.adcCalDone t c ofs gain skews) s = .next
        (let u := putSkews (v.fsets [(ADC_CALOFS_OFS, c, ofs.toNat), (ADC_CALGAIN_GAIN, c, gain.toNat)]) (some c.val) skews
         let u := adcMod u c (fun x => { x with calGain := refGain u c })
         adcNext (u.fset ADC_STAT_STATE c (if u.flag ADC_CFG_EN c then A_IDLE else A_OFF)) c (ends + acqT) none)) ∧
    (v.fget ADC_STAT_STATE c ≠ A_CAL ∨ max s.clk t < ends →
      exec (.adcCalDone t c ofs gain skews) s = .next v)) ∧
  (∀ (t : Time) (c : Conv) (levels : List Int) (vdda : Int) (s : State),
    let v := adcSettle (s.at t) c
    (∀ j, (adcOf v c).job = some j → v.fget ADC_STAT_STATE c = A_CONV → (adcOf v c).waking = false →
      jobEnd j ≤ max s.clk t → levels.length = 2 ^ j.k →
      let u := writeResult v c (if j.inj then 5 else j.pos) j (levels.map (adcCode v c)) (pullFlows v c j levels vdda)
      (j.inj = true → exec (.adcResult t c levels vdda) s = .next
        (adcNext (adcMod u c (fun x => { x with job := none, nextSlot := (adcOf u c).nextSlot })) c (jobEnd j) (some j.first))) ∧
      (j.inj = false → exec (.adcResult t c levels vdda) s = .next
        (adcNext (adcMod u c (fun x => { x with
          job := none, nextSlot := if j.slot + 1 < slotsOf u c then some (j.slot + 1) else none })) c (jobEnd j)
          (some (adcOf u c).seqAt)))) ∧
    (v.fget ADC_STAT_STATE c ≠ A_CONV ∨ (adcOf v c).waking = true ∨ (adcOf v c).job = none →
      exec (.adcResult t c levels vdda) s = .next v) ∧
    (∀ j, (adcOf v c).job = some j → max s.clk t < jobEnd j ∨ levels.length ≠ 2 ^ j.k →
      exec (.adcResult t c levels vdda) s = .next v)) ∧
  (∀ (t : Time) (c : Conv) (s : State),
    let due := (adcOf s c).timerAt + s.fget ADC_TIMER_PER c * 163840
    (s.fget ADC_CFG_EN c = 1 → s.fget ADC_CFG_TRIG c = 1 → domOn s (instDom .adc c) = true → due ≤ max s.clk t →
      exec (.adcTimerExpiry t c) s =
        .next (adcSettle (pendStart (adcMod (s.at t) c (fun x => { x with timerAt := due })) c due) c)) ∧
    (s.fget ADC_CFG_EN c ≠ 1 ∨ s.fget ADC_CFG_TRIG c ≠ 1 ∨ domOn s (instDom .adc c) = false ∨ max s.clk t < due →
      exec (.adcTimerExpiry t c) s = .next (s.at t))) ∧
  (∀ (t : Time) (c : Conv) (s : State),
    let v := adcSettle (s.at t) c
    (∀ j, (adcOf v c).job = some j →
      (j.first + 400 * nsT ≤ max s.clk t →
        exec (.adcStartupDone t c) s = .next (adcMod v c (fun x => { x with waking := false }))) ∧
      (max s.clk t < j.first + 400 * nsT → exec (.adcStartupDone t c) s = .next v)) ∧
    ((adcOf v c).job = none → exec (.adcStartupDone t c) s = .next v) ∧
    (v.fget ADC_STAT_STATE c = A_IDLE → (adcOf v c).down = true → v.fget ADC_CFG_AWAKE c = 0 → (adcOf v c).inj = none →
      (adcOf v c).starts = [] → v.fget ADC_STAT_HELD c = 0 → v.fget ADC_STAT_CALP c = 0 →
      exec (.adcPowerDown t c) s = .next (v.fset ADC_STAT_STATE c A_DOWN)) ∧
    (v.fget ADC_STAT_STATE c ≠ A_IDLE ∨ (adcOf v c).down = false ∨ v.fget ADC_CFG_AWAKE c = 1 ∨
        (adcOf v c).starts ≠ [] ∨ (adcOf v c).inj ≠ none ∨ v.fget ADC_STAT_HELD c = 1 ∨ v.fget ADC_STAT_CALP c = 1 →
      exec (.adcPowerDown t c) s = .next v)) ∧
  (∀ (m : Master) (n : Fin 6) (s : State), s.MayRead m (0x130180 + 8 * n) →
    let i := chsel s .adc m * 6 + n.val
    let e := smGet (0, false) s.adc.fresh (i * 16 + m)
    exec (.adcResloRead m n) s = .next { s with
      adc.fresh := smSet (0, false) s.adc.fresh (i * 16 + m) (0, false)
      adc.latch := smSet none s.adc.latch m (some (i, s.fget ADC_RESHI_WORD i))
      rdata := smSet 0 s.rdata m (s.fget ADC_RESLO_WORD i + (if 2 ≤ e.1 || e.2 then 2048 else 0)) }) ∧
  (∀ (m : Master) (n : Fin 5) (w : Word) (s : State), s.MayWrite m (0x1301d0 + 4 * n) w.toNat false →
    let c := chsel s .adc m
    let b := countRsvd s m (0x1301d0 + 4 * n) w.toNat
    (bit w.toNat 31 = true → routeOk b (w.toNat % 2 ^ 18) = false → exec (.adcRouteEnable m n w) s =
      .next (s.notedBad m (0x1301d0 + 4 * n) w.toNat .conflict (adcErr b m c .conflict))) ∧
    ((bit w.toNat 31 = true → routeOk b (w.toNat % 2 ^ 18) = true) → exec (.adcRouteEnable m n w) s = .next (s.noted m (0x1301d0 + 4 * n) w.toNat (b.fsets
      [(ADC_ROUTE_EN, c * 5 + n, b2n (bit w.toNat 31)), (ADC_ROUTE_POINT, c * 5 + n, w.toNat % 2 ^ 18)])))) ∧
  (∀ (t : Time) (k : Fin 16) (x : Int) (s : State),
    (domOn s 5 = true → exec (.windowCrossing t k x) s =
      .next (winLook { s.at t with adc.winIn := smSet 0 s.adc.winIn k x } k)) ∧
    (domOn s 5 = false → exec (.windowCrossing t k x) s = .next (s.at t)) ∧
    (s.fget ADC_WCFG_EN k = 1 → smGet 0 s.adc.winSince k ≠ 0 →
      smGet 0 s.adc.winSince k - 1 + s.fget ADC_WCFG_FILT k * 163840 ≤ max s.clk t →
      exec (.windowFilterExpiry t k) s = .next (winRise (s.at t) k)) ∧
    (s.fget ADC_WCFG_EN k = 0 ∨ smGet 0 s.adc.winSince k = 0 ∨
        max s.clk t < smGet 0 s.adc.winSince k - 1 + s.fget ADC_WCFG_FILT k * 163840 →
      exec (.windowFilterExpiry t k) s = .next (s.at t)) ∧
    (s.fget ADC_WSTAT_CPEND k = 1 → smGet 0 s.adc.commitAt k + 100 * nsT ≤ max s.clk t →
      exec (.windowLevelSwitch t k) s = .next (winLook ((s.at t).fsets
      [(ADC_WSTAT_CPEND, k, 0), (ADC_WEFF_ELO, k, s.eget ADC_WLO_LO k), (ADC_WEFF_EHI, k, s.eget ADC_WHI_HI k),
       (ADC_WEFF_EHYST, k, s.eget ADC_WHYST_HYST k)]) k)) ∧
    (s.fget ADC_WSTAT_CPEND k = 0 ∨ max s.clk t < smGet 0 s.adc.commitAt k + 100 * nsT →
      exec (.windowLevelSwitch t k) s = .next (s.at t))) ∧
  (∀ (m : Master) (k : Fin 16) (w : Word) (s : State), s.MayWrite m (0x131110 + 0x20 * k) w.toNat (bit w.toNat 0) →
    let b := countRsvd s m (0x131110 + 0x20 * k) w.toNat
    (bit w.toNat 0 = true → s.fget ADC_WSTAT_CPEND k = 0 →
      (if s.fget ADC_WCFG_MODE k = 1 then s.fget ADC_WLO_LO k < s.fget ADC_WHI_HI k
       else s.fget ADC_WLO_LO k + 2 * s.fget ADC_WHYST_HYST k < s.fget ADC_WHI_HI k) →
      exec (.windowCommit m k w) s = .next (s.noted m (0x131110 + 0x20 * k) w.toNat
        (let u := (((b.eset ADC_WLO_LO k (s.fget ADC_WLO_LO k)).eset ADC_WHI_HI k (s.fget ADC_WHI_HI k)).eset
          ADC_WHYST_HYST k (s.fget ADC_WHYST_HYST k)).fset ADC_WSTAT_CPEND k 1
         { u with adc.commitAt := smSet 0 u.adc.commitAt k s.clk }))) ∧
    (let st := firstStatus [chk (bit w.toNat 0 && (if s.flag ADC_WCFG_MODE k then
          decide (s.fget ADC_WHI_HI k ≤ s.fget ADC_WLO_LO k)
        else decide (s.fget ADC_WHI_HI k ≤ s.fget ADC_WLO_LO k + 2 * s.fget ADC_WHYST_HYST k))) .conflict,
        chk (bit w.toNat 0 && s.flag ADC_WSTAT_CPEND k) .busy]
     st ≠ .ok → exec (.windowCommit m k w) s =
       .next (s.notedBad m (0x131110 + 0x20 * k) w.toNat st (adcErr b m (0x20 + k) st))) ∧
    (bit w.toNat 0 = false → exec (.windowCommit m k w) s = .next (s.noted m (0x131110 + 0x20 * k) w.toNat b)))

/-! ### Capture, kiln and time triggers (R311 to R313, R345 to R377) -/

/-- Triggers, records and the skew calibration (R349 to R369). Rests on the model's choices of assumption 29. -/
def Obligations.CaptureActs : Prop :=
  (∀ (t : Time) (pin : Fin 3) (rising : Bool) (s : State), domOn s 3 = false →
    exec (.trigPinEdge t pin rising) s = .next (s.at t)) ∧
  (∀ (t : Time) (s : State),
    (∀ rising : Bool, (rising != s.flag CAP_TRIGCFG_APOL) = true → exec (.trigPinEdge t 0 rising) s =
      .next (localTrig (s.at t) 0 1 (repTime (s.at t) 3) (15 * nsT))) ∧
    (∀ rising : Bool, (rising != s.flag CAP_TRIGCFG_APOL) = false →
      exec (.trigPinEdge t 0 rising) s = .next (s.at t)) ∧
    (∀ rising : Bool, (rising != s.flag CAP_TRIGCFG_BPOL) = true → exec (.trigPinEdge t 1 rising) s =
      .next (localTrig (s.at t) 1 2 (repTime (s.at t) 3) (15 * nsT))) ∧
    (∀ rising : Bool, (rising != s.flag CAP_TRIGCFG_BPOL) = false →
      exec (.trigPinEdge t 1 rising) s = .next (s.at t)) ∧
    exec (.trigPinEdge t 2 false) s =
      .next (localTrig (s.at t) 2 3 (repTime (s.at t) 3) (15 * nsT)) ∧
    exec (.trigPinEdge t 2 true) s = .next (s.at t)) ∧
  (∀ (m : Master) (w : Word) (s : State), s.MayWrite m 0x161004 w.toNat false →
    let b := countRsvd s m 0x161004 w.toNat
    (bit w.toNat 0 = true → exec (.softTrigger m w) s = .next (s.noted m 0x161004 w.toNat
      (localTrig b 4 4 (repTime s 3 / 81920 * 81920) 0))) ∧
    (bit w.toNat 0 = false → exec (.softTrigger m w) s = .next (s.noted m 0x161004 w.toNat b))) ∧
  (∀ (t : Time) (s : State),
    let u := capSettle (s.at t)
    (u.cap.trigxEnd ≤ u.clk → exec (.trigxPulseEnd t) s = .next { u with pins.trigxLow := false }) ∧
    (u.clk < u.cap.trigxEnd → exec (.trigxPulseEnd t) s = .next u) ∧
    exec (.captureRearm t) s = .next (u.cap.rearms.foldl rearmOne { u with cap.rearms := [] }) ∧
    (domOn s 3 = false → u = s.at t) ∧
    (s.cap.arriving = [] → s.cap.coming = [] → s.cap.recs = [] → u = s.at t)) ∧
  (∀ (m : Master) (w : Word) (r : CapRec) (s : State), s.MayWrite m 0x161008 w.toNat false →
    let u := capSettle (countRsvd s m 0x161008 w.toNat)
    findRec u w.toNat = some r →
    (r.st = .closed → exec (.captureFree m w) s = .next (s.noted m 0x161008 w.toNat (dropRec u r))) ∧
    (r.st ≠ .closed → exec (.captureFree m w) s =
      .next (s.notedBad m 0x161008 w.toNat .conflict (capErr u m .conflict)))) ∧
  (∀ (m : Master) (w : Word) (s : State), s.MayWrite m 0x161008 w.toNat false →
    let u := capSettle (countRsvd s m 0x161008 w.toNat)
    findRec u w.toNat = none →
    exec (.captureFree m w) s = .next (s.notedBad m 0x161008 w.toNat .range (capErr u m .range))) ∧
  (∀ (m : Master) (w : Word) (s : State), s.MayWrite m 0x161020 w.toNat false →
    let b := countRsvd s m 0x161020 w.toNat
    (bit w.toNat 0 = true → s.fget CAP_SKEWCTL_BUSY = 0 →
      exec (.skewCal m w) s = .next (s.noted m 0x161020 w.toNat ({ b with cap.skewAt := s.clk }.fset CAP_SKEWCTL_BUSY 0 1))) ∧
    (bit w.toNat 0 = true → s.fget CAP_SKEWCTL_BUSY = 1 →
      exec (.skewCal m w) s = .next (s.notedBad m 0x161020 w.toNat .busy (capErr b m .busy))) ∧
    (bit w.toNat 0 = false → exec (.skewCal m w) s = .next (s.noted m 0x161020 w.toNat b))) ∧
  (∀ (t : Time) (skews : List Int) (s : State),
    (s.fget CAP_SKEWCTL_BUSY = 1 → s.cap.skewAt + 50 * usT ≤ max s.clk t →
      exec (.skewCalDone t skews) s = .next ((putSkews (s.at t) none skews).fset CAP_SKEWCTL_BUSY 0 0)) ∧
    (s.fget CAP_SKEWCTL_BUSY = 0 ∨ max s.clk t < s.cap.skewAt + 50 * usT → exec (.skewCalDone t skews) s = .next (s.at t))) ∧
  (∀ (m : Master) (w : Word) (s : State), s.MayWrite m 0x161114 w.toNat false →
    let b := countRsvd s m 0x161114 w.toNat
    let k := s.fget CAP_MTIDX_TAB m
    let pt := s.fget CAP_MTPT_PT m
    (tabBusy b (some k) = true → exec (.maskTableLoWrite m w) s =
      .next (s.notedBad m 0x161114 w.toNat .conflict (capErr b m .conflict))) ∧
    (tabBusy b (some k) = false →
    exec (.maskTableLoWrite m w) s = .next (s.noted m 0x161114 w.toNat
      ({ b with cap.lo := smSet 0xff800000 b.cap.lo (k * 1024 + pt) w.toNat }.fset CAP_MTPT_PT m
        (if s.fget CAP_MTCFG_N k ≤ pt + 1 then 0 else pt + 1)))))

/-- The kiln (R370 to R377): a scan is taken sensor by sensor and then group by group; a group is enabled with its
checks; a broken sensor is released by software only when its readings allow it. Rests on the model's choices of
assumptions 30, 56. -/
def Obligations.KilnActs : Prop :=
  (∀ (t : Time) (l : List Scan) (s : State), recent s.kiln.scanAt msT (max s.clk t) = true →
    exec (.kilnScanEnd t l) s = .next (s.at t)) ∧
  (∀ (t : Time) (l : List Scan) (s : State), scanWhole s l = false → exec (.kilnScanEnd t l) s = .next (s.at t)) ∧
  (∀ (t : Time) (l : List Scan) (s : State), recent s.kiln.scanAt msT (max s.clk t) = false →
    (∀ k, k < 44 → s.fget KILN_SCFG_EN k = 1 → ∃ x ∈ l, x.sensor = k) →
    exec (.kilnScanEnd t l) s = .next (kilnOutputs ((List.range 8).foldl scanGroup (showBroken
      ((l.filter (fun x => s.flag KILN_SCFG_EN x.sensor && decide (x.sensor < 44))).foldl scanSensor
        { s.at t with kiln.scanAt := some (max s.clk t) }))))) ∧
  (∀ (m : Master) (n : Fin 2) (w : Word) (s : State), s.MayWrite m (0x50018 + 4 * n) w.toNat false →
    let clear (b : State) (j : Nat) : State :=
      let k := 32 * n.val + j
      let why := b.fget KILN_T_WHY k
      if 44 ≤ k ∨ sBroken b k = false ∨ ((why = 1 ∨ why = 2) ∧ smGet 0 b.kiln.cond k = why) then b
      else
        let u := (putBroken b k false).fsets [(KILN_T_BROKEN, k, 0), (KILN_T_WHY, k, 0)]
        let v := if smGet 0 b.kiln.latest k = 0 then u else
          u.fset KILN_T_T k (ofSigned 16 (readT (smGet 0 b.kiln.latest k)))
        if why = 3 then { v with kiln.raw := smSet 0 v.kiln.raw k 0, kiln.same := smSet 0 v.kiln.same k 0 }
        else if why = 4 then { v with kiln.meas := smSet 0 v.kiln.meas k 0 } else v
    exec (.kilnBrokenClear m n w) s = .next (s.noted m (0x50018 + 4 * n) w.toNat
      ((bitList 32 w.toNat).foldl clear (countRsvd s m (0x50018 + 4 * n) w.toNat)))) ∧
  (∀ (m : Master) (g : Grp) (w : Word) (s : State), s.MayWrite m (0x50408 + 16 * g) w.toNat false →
    let b := countRsvd s m (0x50408 + 16 * g) w.toNat
    let en := bit w.toNat 31
    let was := s.flag KILN_GCFG_EN g
    let other := bits w.toNat 8 16 != s.fget KILN_GCFG_BT g || w.toNat % 256 != s.fget KILN_GCFG_HYST g
    let r := b.fsets [(KILN_GCFG_BT, g, bits w.toNat 8 16), (KILN_GCFG_HYST, g, w.toNat), (KILN_GCFG_EN, g, b2n en)]
    let st := firstStatus [chk (was && other) .conflict, chk (was && !en && groupTrips b g) .conflict,
      if en && !was then groupCheck r g else .ok]
    (was = false → (en = true → groupCheck r g = .ok) → st = .ok) ∧
    (was = true → other = false → (en = false → groupTrips b g = false) → st = .ok) ∧
    (st = .ok → exec (.kilnGroupEnable m g w) s = .next (s.noted m (0x50408 + 16 * g) w.toNat r)) ∧
    (st ≠ .ok → exec (.kilnGroupEnable m g w) s =
      .next (s.notedBad m (0x50408 + 16 * g) w.toNat st (kilnErr b m st))))

/-- A time trigger is enabled and disabled at its register, takes effect in the order of the writes, and fires at each
instant of its schedule once (R311 to R313). That TIME_TRIGGER_FIRE does nothing but at such an instant is assumption
51. Rests on the model's choices of assumptions 1, 51. -/
def Obligations.TimeTriggersAct : Prop :=
  (∀ (m : Master) (n : Fin 16) (w : Word) (s : State), s.MayWrite m (0x40100 + 16 * n) w.toNat false →
    let r := (countRsvd s m (0x40100 + 16 * n) w.toNat).fset TIM_TRGCFG_SEC_HI n w.toNat
    (s.fget TIM_TRGCFG_EN n = 1 → bit w.toNat 31 = true ∨ w.toNat % 65536 ≠ s.fget TIM_TRGCFG_SEC_HI n →
      exec (.timeTriggerEnable m n w) s = .next (s.notedBad m (0x40100 + 16 * n) w.toNat .conflict
        (timErr (countRsvd s m (0x40100 + 16 * n) w.toNat) m .conflict))) ∧
    (s.fget TIM_TRGCFG_EN n = 0 → bit w.toNat 31 = true → trigCheck r n ≠ .ok →
      exec (.timeTriggerEnable m n w) s = .next (s.notedBad m (0x40100 + 16 * n) w.toNat (trigCheck r n)
        (timErr (countRsvd s m (0x40100 + 16 * n) w.toNat) m (trigCheck r n)))) ∧
    (s.fget TIM_TRGCFG_EN n = 0 → bit w.toNat 31 = false →
      exec (.timeTriggerEnable m n w) s = .next (s.noted m (0x40100 + 16 * n) w.toNat r)) ∧
    (s.fget TIM_TRGCFG_EN n = 0 → bit w.toNat 31 = true → trigCheck r n = .ok →
      exec (.timeTriggerEnable m n w) s = .next (s.noted m (0x40100 + 16 * n) w.toNat
        ((trigMod (r.fset TIM_TRGCFG_EN n 1) n (fun x => { x with pend := x.pend ++ [(true, s.clk + 100 * nsT)] })).fset
          TIM_TRGCFG_FIRED n 0))) ∧
    (s.fget TIM_TRGCFG_EN n = 1 → bit w.toNat 31 = false → w.toNat % 65536 = s.fget TIM_TRGCFG_SEC_HI n →
      exec (.timeTriggerEnable m n w) s = .next (s.noted m (0x40100 + 16 * n) w.toNat
        (trigMod (r.fset TIM_TRGCFG_EN n 0) n (fun x => { x with pend := x.pend ++ [(false, s.clk + 100 * nsT)] }))))) ∧
  (∀ (t : Time) (n : Fin 16) (s : State),
    ((trigOf s n).pend = [] → exec (.timeTriggerEffect t n) s = .next (s.at t)) ∧
    (∀ b due l, (trigOf s n).pend = (b, due) :: l → max s.clk t < due →
      exec (.timeTriggerEffect t n) s = .next (s.at t)) ∧
    (∀ b due l, (trigOf s n).pend = (b, due) :: l → due ≤ max s.clk t →
      exec (.timeTriggerEffect t n) s = exec (.timeTriggerEffect t n) (trigMod s n (fun x =>
        { x with pend := l, on := b, from_ := if b then due else x.from_ }))) ∧
    (∀ due l, (trigOf s n).pend = (true, due) :: l → due ≤ max s.clk t → (∀ e ∈ l.head?, max s.clk t < e.2) →
      exec (.timeTriggerEffect t n) s = .next (trigMod (s.at t) n (fun x =>
        { x with pend := l, on := true, from_ := due }))) ∧
    (∀ due l, (trigOf s n).pend = (false, due) :: l → due ≤ max s.clk t → (∀ e ∈ l.head?, max s.clk t < e.2) →
      exec (.timeTriggerEffect t n) s = .next (trigMod (s.at t) n (fun x => { x with pend := l, on := false })))) ∧
  (∀ (t : Time) (n : Fin 16) (s : State), exec (.timeTriggerFire t n) s =
    .next ([0, 3, 5, 6].foldl (trigFire n) (trigSettle (s.at t) n))) ∧
  (∀ (n : Fin 16) (d i : Nat) (v : State),
    let met := v.clk - (repTime v d - i)
    lastInstant v n (repTime v d) = i + 1 →
    ((trigOf v n).on = false ∨ i + 65536 ≤ repTime v d ∨ met < (trigOf v n).from_ ∨ (d ≠ 0 ∧ domOn v d = false) →
      trigFire n v d = v) ∧
    ((trigOf v n).on = true → repTime v d < i + 65536 → (trigOf v n).from_ ≤ met → (d = 0 ∨ domOn v d = true) →
      (i < smGet 0 (trigOf v n).last d →
        (d ≠ 0 → trigFire n v d = v) ∧
        (d = 0 → (trigOf v n).seen + 65536 ≤ met →
          trigFire n v d = (trigMod v n (fun x => { x with seen := met })).satAdd TIM_CNT0_SKIP 0)) ∧
      (smGet 0 (trigOf v n).last d ≤ i →
        let u := trigMod v n (fun x => { x with last := smSet 0 x.last d (i + 1) })
        (d = 0 → trigFire n v d =
          (let w := trigMod u n (fun x => { x with seen := met })
           if v.fget TIM_TRGPER_PER n = 0 then w.fset TIM_TRGCFG_FIRED n 1 else w)) ∧
        (d = 3 → trigFire n v d = captureTime u n i) ∧
        (d ≠ 0 → d ≠ 3 → trigFire n v d = adcTimeTrig u d n i)))) ∧
  (∀ (n : Fin 16) (d : Nat) (v : State), lastInstant v n (repTime v d) = 0 → trigFire n v d = v)

/-! ### The lease, votes and device states (R30, R318, R324 to R341) -/

/-- The lease and the self-check (R324 to R330, R338 to R341): a stack alone takes the lease at once, one of several
claims it from its peers; an unanswered claim lapses after two cycles and the lease ends at its expiry; the self-check
window begins again; the bill of a rejoining stack is checked once. Rests on the model's choices of assumptions 20, 23,
34, 51. -/
def Obligations.LeaseEventsAct : Prop :=
  (∀ (t : Time) (s : State), isCand (s.at t) = true → holds (s.at t) = false → s.vote.claim = none →
    s.tim.bound ≤ netTime (s.at t) → netTime (s.at t) < s.tim.bound + 109227 →
    (handedTo (s.at t) = true ∨ ∀ sid, sid < ownSid s → sid < 3 → peerSeen (s.at t) sid = false) →
    reserved (s.at t) (ownSid s) = false →
    let e := s.fget VOTE_EPOCH_EPOCH + 1
    let exp := s.tim.bound + leaseT (s.at t)
    (stackCount (s.at t) = 1 → exec (.leaseClaim t) s = .next (gainLease (s.at t) e exp)) ∧
    (stackCount (s.at t) ≠ 1 → viewPassed (s.at t) = true → exec (.leaseClaim t) s =
      .next (rackPeers (raiseEpoch { s.at t with
          vote.claim := some (e, cycleNow s)
          vote.owed := (livePeers s).foldl (fun o p => putBit o p true) 0 } e)
        (leaseRec (ownSid s) true false 0 e exp)))) ∧
  (∀ (t : Time) (s : State), isCand (s.at t) = false ∨ holds (s.at t) = true ∨ s.vote.claim ≠ none ∨
      netTime (s.at t) < s.tim.bound ∨ s.tim.bound + 109227 ≤ netTime (s.at t) ∨
      (handedTo (s.at t) = false ∧ ∃ sid, sid < ownSid s ∧ sid < 3 ∧ peerSeen (s.at t) sid = true) ∨
      reserved (s.at t) (ownSid s) = true ∨ (viewPassed (s.at t) = false ∧ stackCount (s.at t) ≠ 1) →
    exec (.leaseClaim t) s = .next (s.at t)) ∧
  (∀ (t : Time) (s : State) (e c : Nat), s.vote.claim = some (e, c) →
    (2 ≤ (cycleNow s + 2 ^ 32 - c) % 2 ^ 32 → exec (.leaseClaimLapse t) s =
      .next ({ s.at t with vote.claim := none }.satAdd VOTE_LCNT_REFUSED 0)) ∧
    ((cycleNow s + 2 ^ 32 - c) % 2 ^ 32 < 2 → exec (.leaseClaimLapse t) s = .next (s.at t))) ∧
  (∀ (t : Time) (s : State), s.vote.claim = none → exec (.leaseClaimLapse t) s = .next (s.at t)) ∧
  (∀ (t : Time) (s : State), holds (s.at t) = false → exec (.leaseExpiry t) s = .next (s.at t)) ∧
  (∀ (t : Time) (s : State), holds (s.at t) = true →
    (s.vote.ownExp < netTime (s.at t) → exec (.leaseExpiry t) s =
      .next ((loseLease (s.at t) s.vote.ownExp).satAdd VOTE_LCNT_LAPSES 0)) ∧
    (netTime (s.at t) ≤ s.vote.ownExp → exec (.leaseExpiry t) s = .next (s.at t))) ∧
  (∀ (t : Time) (c : Nat) (s : State), s.vote.scAt = some c →
    (cycleNow s + 2 ^ 32 - c) % 2 ^ 32 < s.fget VOTE_XCFG_SC_WIN → exec (.selfcheckWindowEnd t) s = .next (s.at t)) ∧
  (∀ (t : Time) (s : State),
    (∀ c, s.vote.scAt = some c → s.fget VOTE_XCFG_SC_WIN ≤ (cycleNow s + 2 ^ 32 - c) % 2 ^ 32) →
    let u := { s.at t with vote.sc3 := 0, vote.scd := 0, vote.scAt := some (cycleNow s) }
    (s.fget VOTE_MODE_MODE ≠ 2 ∨ stackCount (s.at t) ≠ 3 ∨ s.vote.sc3 = 0 ∨
        100 * s.vote.scd < s.fget VOTE_XCFG_SC_PCT * s.vote.sc3 → exec (.selfcheckWindowEnd t) s = .next u) ∧
    (s.fget VOTE_MODE_MODE = 2 → stackCount (s.at t) = 3 → s.vote.sc3 ≠ 0 →
      s.fget VOTE_XCFG_SC_PCT * s.vote.sc3 ≤ 100 * s.vote.scd →
      exec (.selfcheckWindowEnd t) s = .next (stackSafe u CA_SELFCHECK))) ∧
  (∀ (t : Time) (crc : Word) (s : State), isStack s = true → s.vote.rejoin = true → s.vote.billSeen = false →
    s.vote.billCrc = some crc.toNat →
    (crc.toNat = bankW s (actBank s) 7 → exec (.rejoinBillCheck t crc) s =
      .next { s.at t with vote.billSeen := true, vote.billBad := false }) ∧
    (crc.toNat ≠ bankW s (actBank s) 7 → exec (.rejoinBillCheck t crc) s =
      .next (voteErr { s.at t with vote.billSeen := true, vote.billBad := true } 15 .conflict))) ∧
  (∀ (t : Time) (crc : Word) (s : State), isStack s = false ∨ s.vote.rejoin = false ∨ s.vote.billSeen = true ∨
      s.vote.billCrc ≠ some crc.toNat →
    exec (.rejoinBillCheck t crc) s = .next (s.at t))

/-- A change of state (R30): STATE and CAUSE take the new values, PREV the old state, TRANS_CNT counts it. -/
def Obligations.AStateChangeIsRecorded : Prop :=
  ∀ (s : State) (st cause : Nat), st < 16 → cause < 16 →
    let t := setDev s st cause
    devState t = st ∧ t.fget SYS_STATE_CAUSE = cause ∧ t.fget SYS_STATE_PREV = s.fget SYS_STATE_STATE % 2 ^ SYS_STATE_PREV.width ∧
    t.fget SYS_STATE_TRANS_CNT = (s.fget SYS_STATE_TRANS_CNT + 1) % 2 ^ SYS_STATE_TRANS_CNT.width ∧
    s.SameRegsBut t [(SYS_STATE_TRANS_CNT, 0), (SYS_STATE_PREV, 0), (SYS_STATE_CAUSE, 0), (SYS_STATE_STATE, 0)] ∧
    s.SameMem t

/-- The vote (R318): a stream that is used is one of those present; the streams that dissent are present and not the
one used; with three equal streams none dissents; with no stream, or one that is not the holder's, none is used. -/
def Obligations.TheVoteUsesAPresentStream : Prop :=
  ∀ (l : List Nat) (agree : Nat → Nat → Bool) (holder : Nat) (solo : Bool),
    let v := decideVote l agree holder solo
    (∀ u, v.used = some u → u ∈ l) ∧ (∀ d ∈ v.dissent, d ∈ l) ∧
    (l.Nodup → ∀ u, v.used = some u → u ∉ v.dissent) ∧
    (l = [] → v.used = none) ∧
    (∀ a, l = [a] → (v.used = some a ↔ a = holder ∧ solo = true)) ∧
    (∀ a b c, l = [a, b, c] → agree a b = true → agree b c = true → v.dissent = [] ∧ v.used.isSome = true)

/-! ### Invariants of every step -/

/-- Every step keeps the memory's canonical form (R37). -/
def Obligations.EveryStepKeepsTheMemoryForm : Prop :=
  ∀ s t : State, s.memOk → step s = .next t → t.memOk

/-- Every step keeps the register tables strictly rising in their keys, so that equal registers are equal data. The
tables are the model's way to hold the registers. -/
def Obligations.EveryStepKeepsTheRegisterTables : Prop :=
  ∀ s t : State, smRising s.regs = true → smRising s.eff = true → step s = .next t →
    smRising t.regs = true ∧ smRising t.eff = true

/-- Every step that answers a next state takes the front command and leaves the waiting ones in their order, so that no
command adds to or drops from the queue (assumption 2, a DESIGN CHOICE). -/
def Obligations.EveryStepTakesOneCommand : Prop :=
  ∀ s t : State, step s = .next t → t.pending = s.pending.tail

/-- In every step the elapsed clock stays or moves forward (assumption 1, a DESIGN CHOICE). -/
def Obligations.TimeNeverGoesBack : Prop :=
  ∀ s t : State, step s = .next t → s.clk ≤ t.clk
end

