-- ==== Sys2Proof/Laws/Store.lean ====
section
/-! SUPPORT. Laws of the sparse tables: a read after a write, and the canonical form kept by every operation. -/

namespace Sys2Proof.Machine

variable {β : Type}

theorem smGet_erase_same (d : β) (m : SMap β) (k : Nat) : smGet d (smErase m k) k = d := by
  induction m with
  | nil => rfl
  | cons e m ih =>
    by_cases h : e.1 = k
    · simp [smErase, h, ih]
    · simp [smErase, smGet, h, ih]

theorem smGet_erase_other (d : β) (m : SMap β) {k j : Nat} (h : j ≠ k) :
    smGet d (smErase m k) j = smGet d m j := by
  induction m with
  | nil => rfl
  | cons e m ih =>
    by_cases hk : e.1 = k
    · have hj : ¬ e.1 = j := fun hj => h (hj.symm.trans hk)
      have : ¬ k = j := fun hh => h hh.symm
      simp [smErase, smGet, hk, this, ih]
    · by_cases hj : e.1 = j
      · simp [smErase, smGet, hj, h]
      · simp [smErase, smGet, hk, hj, ih]

theorem smGet_insert_same (d : β) (m : SMap β) (k : Nat) (v : β) (hm : ∀ e ∈ m, e.1 ≠ k) :
    smGet d (smInsert k v m) k = v := by
  induction m with
  | nil => simp [smInsert, smGet]
  | cons e m ih =>
    have h1 : e.1 ≠ k := hm e (by simp)
    by_cases hk : k < e.1
    · simp [smInsert, hk, smGet]
    · simp [smInsert, hk, smGet, h1, ih (fun x hx => hm x (by simp [hx]))]

theorem smGet_insert_other (d : β) (m : SMap β) {k j : Nat} (v : β) (h : j ≠ k) :
    smGet d (smInsert k v m) j = smGet d m j := by
  induction m with
  | nil => simp [smInsert, smGet, Ne.symm h]
  | cons e m ih =>
    by_cases hk : k < e.1
    · simp [smInsert, hk, smGet, Ne.symm h]
    · simp [smInsert, hk, smGet, ih]

theorem smErase_ne (m : SMap β) (k : Nat) : ∀ e ∈ smErase m k, e.1 ≠ k := by
  induction m with
  | nil => intro e he; simp [smErase] at he
  | cons a m ih =>
    intro e he
    by_cases h : a.1 = k
    · simp only [smErase, h, if_true] at he; exact ih e he
    · simp only [smErase, h, if_false, List.mem_cons] at he
      rcases he with rfl | he
      · exact h
      · exact ih e he

/-- A read after a write to the same key. -/
theorem smGet_set_same [DecidableEq β] (d : β) (m : SMap β) (k : Nat) (v : β) : smGet d (smSet d m k v) k = v := by
  by_cases h : v = d
  · simp [smSet, h, smGet_erase_same]
  · simp [smSet, h, smGet_insert_same d _ k v (smErase_ne m k)]

/-- A write leaves every other key alone. -/
theorem smGet_set_other [DecidableEq β] (d d' : β) (m : SMap β) {k j : Nat} (v : β) (h : j ≠ k) :
    smGet d' (smSet d m k v) j = smGet d' m j := by
  by_cases hv : v = d
  · simp [smSet, hv, smGet_erase_other _ _ h]
  · simp [smSet, hv, smGet_insert_other _ _ _ h, smGet_erase_other _ _ h]

/-! ## The canonical form -/

/-- The first key of a table lies above a bound. -/
def smAbove (n : Nat) : SMap β → Bool
  | [] => true
  | e :: _ => decide (n < e.1)

theorem smRising_cons (e : Nat × β) (m : SMap β) : smRising (e :: m) = (smAbove e.1 m && smRising m) := by
  cases m with
  | nil => simp [smRising, smAbove]
  | cons f m => simp [smRising, smAbove]

theorem smAbove_of_rising {n : Nat} {m : SMap β} (h : smRising m = true) (ha : smAbove n m = true) :
    ∀ e ∈ m, n < e.1 := by
  induction m generalizing n with
  | nil => intro e he; simp at he
  | cons a m ih =>
    intro e he
    rw [smRising_cons, Bool.and_eq_true] at h
    simp only [smAbove, decide_eq_true_eq] at ha
    rcases List.mem_cons.1 he with rfl | he
    · exact ha
    · exact Nat.lt_trans ha (ih h.2 h.1 e he)

theorem smAbove_of_mem {n : Nat} {m : SMap β} (h : ∀ e ∈ m, n < e.1) : smAbove n m = true := by
  cases m with
  | nil => rfl
  | cons a m => simpa [smAbove] using h a (by simp)

theorem smErase_sub (m : SMap β) (k : Nat) : ∀ e ∈ smErase m k, e ∈ m := by
  induction m with
  | nil => intro e he; simp [smErase] at he
  | cons a m ih =>
    intro e he
    by_cases h : a.1 = k
    · simp only [smErase, h, if_true] at he; simp [ih e he]
    · simp only [smErase, h, if_false, List.mem_cons] at he
      rcases he with rfl | he
      · simp
      · simp [ih e he]

theorem smErase_rising {m : SMap β} (k : Nat) (h : smRising m = true) : smRising (smErase m k) = true := by
  induction m with
  | nil => rfl
  | cons a m ih =>
    have h' := h
    rw [smRising_cons, Bool.and_eq_true] at h
    by_cases hk : a.1 = k
    · simpa [smErase, hk] using ih h.2
    · simp only [smErase, hk, if_false]
      rw [smRising_cons, Bool.and_eq_true]
      exact ⟨smAbove_of_mem (fun e he => smAbove_of_rising h.2 h.1 e (smErase_sub m k e he)), ih h.2⟩

theorem smInsert_mem (k : Nat) (v : β) (m : SMap β) : ∀ e ∈ smInsert k v m, e = (k, v) ∨ e ∈ m := by
  induction m with
  | nil => intro e he; simpa [smInsert] using he
  | cons a m ih =>
    intro e he
    by_cases h : k < a.1
    · simp only [smInsert, h, if_true, List.mem_cons] at he
      rcases he with rfl | rfl | he <;> simp_all
    · simp only [smInsert, h, if_false, List.mem_cons] at he
      rcases he with rfl | he
      · simp
      · rcases ih e he with h1 | h1 <;> simp [h1]

theorem smInsert_rising {m : SMap β} (k : Nat) (v : β) (h : smRising m = true) (hm : ∀ e ∈ m, e.1 ≠ k) :
    smRising (smInsert k v m) = true := by
  induction m with
  | nil => rfl
  | cons a m ih =>
    by_cases hk : k < a.1
    · simp only [smInsert, hk, if_true]
      rw [smRising_cons]; simp [smAbove, hk, h]
    · have h1 := h
      rw [smRising_cons, Bool.and_eq_true] at h1
      simp only [smInsert, hk, if_false]
      rw [smRising_cons, Bool.and_eq_true]
      refine ⟨smAbove_of_mem ?_, ih h1.2 (fun e he => hm e (by simp [he]))⟩
      intro e he
      rcases smInsert_mem k v m e he with rfl | he
      · have : a.1 ≠ k := hm a (by simp)
        simp only; omega
      · exact smAbove_of_rising h1.2 h1.1 e he

/-- A write keeps the keys rising, whatever the default. -/
theorem smSet_rising [DecidableEq β] (d : β) {m : SMap β} (k : Nat) (v : β) (h : smRising m = true) :
    smRising (smSet d m k v) = true := by
  by_cases hv : v = d
  · simp [smSet, hv, smErase_rising k h]
  · simp [smSet, hv, smInsert_rising k v (smErase_rising k h) (smErase_ne m k)]

theorem smFilter_rising {m : SMap β} (p : Nat × β → Bool) (h : smRising m = true) :
    smRising (m.filter p) = true := by
  induction m with
  | nil => rfl
  | cons a m ih =>
    rw [smRising_cons, Bool.and_eq_true] at h
    by_cases hp : p a
    · rw [List.filter_cons_of_pos hp, smRising_cons, Bool.and_eq_true]
      exact ⟨smAbove_of_mem (fun e he => smAbove_of_rising h.2 h.1 e (List.mem_of_mem_filter he)), ih h.2⟩
    · rw [List.filter_cons_of_neg hp]; exact ih h.2

/-- A write keeps the canonical form. -/
theorem smSet_wf [DecidableEq β] (d : β) {m : SMap β} (k : Nat) (v : β) (h : smWf d m = true) :
    smWf d (smSet d m k v) = true := by
  simp only [smWf, Bool.and_eq_true, List.all_eq_true, decide_eq_true_eq] at *
  refine ⟨smSet_rising d k v h.1, ?_⟩
  intro e he
  by_cases hv : v = d
  · simp only [smSet, hv, if_true] at he; exact h.2 e (smErase_sub m k e he)
  · simp only [smSet, hv, if_false] at he
    rcases smInsert_mem k v _ e he with rfl | he
    · exact hv
    · exact h.2 e (smErase_sub m k e he)

theorem smFilter_wf [DecidableEq β] (d : β) {m : SMap β} (p : Nat × β → Bool) (h : smWf d m = true) :
    smWf d (m.filter p) = true := by
  simp only [smWf, Bool.and_eq_true, List.all_eq_true, decide_eq_true_eq] at *
  exact ⟨smFilter_rising p h.1, fun e he => h.2 e (List.mem_of_mem_filter he)⟩

end Sys2Proof.Machine
end

