-- ==== Sys2Proof/Laws/State.lean ====
section
/-! SUPPORT. What each update of the state leaves alone, and what it does to the registers and the memory. -/

namespace Sys2Proof.Machine

namespace State

variable (s : State)

/-! ### fset changes regs alone -/

@[simp] theorem fset_clk (F : Fld) (i v : Nat) : (s.fset F i v).clk = s.clk := rfl
@[simp] theorem fset_eff (F : Fld) (i v : Nat) : (s.fset F i v).eff = s.eff := rfl
@[simp] theorem fset_mem (F : Fld) (i v : Nat) : (s.fset F i v).mem = s.mem := rfl
@[simp] theorem fset_sys (F : Fld) (i v : Nat) : (s.fset F i v).sys = s.sys := rfl
@[simp] theorem fset_pins (F : Fld) (i v : Nat) : (s.fset F i v).pins = s.pins := rfl
@[simp] theorem fset_flash (F : Fld) (i v : Nat) : (s.fset F i v).flash = s.flash := rfl
@[simp] theorem fset_mbx (F : Fld) (i v : Nat) : (s.fset F i v).mbx = s.mbx := rfl
@[simp] theorem fset_sec (F : Fld) (i v : Nat) : (s.fset F i v).sec = s.sec := rfl
@[simp] theorem fset_tim (F : Fld) (i v : Nat) : (s.fset F i v).tim = s.tim := rfl
@[simp] theorem fset_flt (F : Fld) (i v : Nat) : (s.fset F i v).flt = s.flt := rfl
@[simp] theorem fset_gd (F : Fld) (i v : Nat) : (s.fset F i v).gd = s.gd := rfl
@[simp] theorem fset_pwm (F : Fld) (i v : Nat) : (s.fset F i v).pwm = s.pwm := rfl
@[simp] theorem fset_cell (F : Fld) (i v : Nat) : (s.fset F i v).cell = s.cell := rfl
@[simp] theorem fset_lanes (F : Fld) (i v : Nat) : (s.fset F i v).lanes = s.lanes := rfl
@[simp] theorem fset_link (F : Fld) (i v : Nat) : (s.fset F i v).link = s.link := rfl
@[simp] theorem fset_cap (F : Fld) (i v : Nat) : (s.fset F i v).cap = s.cap := rfl
@[simp] theorem fset_mash (F : Fld) (i v : Nat) : (s.fset F i v).mash = s.mash := rfl
@[simp] theorem fset_trace (F : Fld) (i v : Nat) : (s.fset F i v).trace = s.trace := rfl
@[simp] theorem fset_grist (F : Fld) (i v : Nat) : (s.fset F i v).grist = s.grist := rfl
@[simp] theorem fset_rdata (F : Fld) (i v : Nat) : (s.fset F i v).rdata = s.rdata := rfl
@[simp] theorem fset_adc (F : Fld) (i v : Nat) : (s.fset F i v).adc = s.adc := rfl
@[simp] theorem fset_spr (F : Fld) (i v : Nat) : (s.fset F i v).spr = s.spr := rfl
@[simp] theorem fset_kiln (F : Fld) (i v : Nat) : (s.fset F i v).kiln = s.kiln := rfl
@[simp] theorem fset_ethOut (F : Fld) (i v : Nat) : (s.fset F i v).ethOut = s.ethOut := rfl
@[simp] theorem fset_vote (F : Fld) (i v : Nat) : (s.fset F i v).vote = s.vote := rfl
@[simp] theorem fset_ctl (F : Fld) (i v : Nat) : (s.fset F i v).ctl = s.ctl := rfl
@[simp] theorem fset_qspi (F : Fld) (i v : Nat) : (s.fset F i v).qspi = s.qspi := rfl
@[simp] theorem fset_jtag (F : Fld) (i v : Nat) : (s.fset F i v).jtag = s.jtag := rfl
@[simp] theorem fset_free (F : Fld) (i v : Nat) : (s.fset F i v).free = s.free := rfl
@[simp] theorem fset_pending (F : Fld) (i v : Nat) : (s.fset F i v).pending = s.pending := rfl

/-! ### eset changes eff alone -/

@[simp] theorem eset_clk (F : Fld) (i v : Nat) : (s.eset F i v).clk = s.clk := rfl
@[simp] theorem eset_regs (F : Fld) (i v : Nat) : (s.eset F i v).regs = s.regs := rfl
@[simp] theorem eset_mem (F : Fld) (i v : Nat) : (s.eset F i v).mem = s.mem := rfl
@[simp] theorem eset_sys (F : Fld) (i v : Nat) : (s.eset F i v).sys = s.sys := rfl
@[simp] theorem eset_pins (F : Fld) (i v : Nat) : (s.eset F i v).pins = s.pins := rfl
@[simp] theorem eset_flash (F : Fld) (i v : Nat) : (s.eset F i v).flash = s.flash := rfl
@[simp] theorem eset_mbx (F : Fld) (i v : Nat) : (s.eset F i v).mbx = s.mbx := rfl
@[simp] theorem eset_sec (F : Fld) (i v : Nat) : (s.eset F i v).sec = s.sec := rfl
@[simp] theorem eset_tim (F : Fld) (i v : Nat) : (s.eset F i v).tim = s.tim := rfl
@[simp] theorem eset_flt (F : Fld) (i v : Nat) : (s.eset F i v).flt = s.flt := rfl
@[simp] theorem eset_gd (F : Fld) (i v : Nat) : (s.eset F i v).gd = s.gd := rfl
@[simp] theorem eset_pwm (F : Fld) (i v : Nat) : (s.eset F i v).pwm = s.pwm := rfl
@[simp] theorem eset_cell (F : Fld) (i v : Nat) : (s.eset F i v).cell = s.cell := rfl
@[simp] theorem eset_lanes (F : Fld) (i v : Nat) : (s.eset F i v).lanes = s.lanes := rfl
@[simp] theorem eset_link (F : Fld) (i v : Nat) : (s.eset F i v).link = s.link := rfl
@[simp] theorem eset_cap (F : Fld) (i v : Nat) : (s.eset F i v).cap = s.cap := rfl
@[simp] theorem eset_mash (F : Fld) (i v : Nat) : (s.eset F i v).mash = s.mash := rfl
@[simp] theorem eset_trace (F : Fld) (i v : Nat) : (s.eset F i v).trace = s.trace := rfl
@[simp] theorem eset_grist (F : Fld) (i v : Nat) : (s.eset F i v).grist = s.grist := rfl
@[simp] theorem eset_rdata (F : Fld) (i v : Nat) : (s.eset F i v).rdata = s.rdata := rfl
@[simp] theorem eset_adc (F : Fld) (i v : Nat) : (s.eset F i v).adc = s.adc := rfl
@[simp] theorem eset_spr (F : Fld) (i v : Nat) : (s.eset F i v).spr = s.spr := rfl
@[simp] theorem eset_kiln (F : Fld) (i v : Nat) : (s.eset F i v).kiln = s.kiln := rfl
@[simp] theorem eset_ethOut (F : Fld) (i v : Nat) : (s.eset F i v).ethOut = s.ethOut := rfl
@[simp] theorem eset_vote (F : Fld) (i v : Nat) : (s.eset F i v).vote = s.vote := rfl
@[simp] theorem eset_ctl (F : Fld) (i v : Nat) : (s.eset F i v).ctl = s.ctl := rfl
@[simp] theorem eset_qspi (F : Fld) (i v : Nat) : (s.eset F i v).qspi = s.qspi := rfl
@[simp] theorem eset_jtag (F : Fld) (i v : Nat) : (s.eset F i v).jtag = s.jtag := rfl
@[simp] theorem eset_free (F : Fld) (i v : Nat) : (s.eset F i v).free = s.free := rfl
@[simp] theorem eset_pending (F : Fld) (i v : Nat) : (s.eset F i v).pending = s.pending := rfl

/-! ### setByte changes mem alone -/

@[simp] theorem setByte_clk (a : Nat) (b : BitVec 8) : (s.setByte a b).clk = s.clk := rfl
@[simp] theorem setByte_regs (a : Nat) (b : BitVec 8) : (s.setByte a b).regs = s.regs := rfl
@[simp] theorem setByte_eff (a : Nat) (b : BitVec 8) : (s.setByte a b).eff = s.eff := rfl
@[simp] theorem setByte_sys (a : Nat) (b : BitVec 8) : (s.setByte a b).sys = s.sys := rfl
@[simp] theorem setByte_pins (a : Nat) (b : BitVec 8) : (s.setByte a b).pins = s.pins := rfl
@[simp] theorem setByte_flash (a : Nat) (b : BitVec 8) : (s.setByte a b).flash = s.flash := rfl
@[simp] theorem setByte_mbx (a : Nat) (b : BitVec 8) : (s.setByte a b).mbx = s.mbx := rfl
@[simp] theorem setByte_sec (a : Nat) (b : BitVec 8) : (s.setByte a b).sec = s.sec := rfl
@[simp] theorem setByte_tim (a : Nat) (b : BitVec 8) : (s.setByte a b).tim = s.tim := rfl
@[simp] theorem setByte_flt (a : Nat) (b : BitVec 8) : (s.setByte a b).flt = s.flt := rfl
@[simp] theorem setByte_gd (a : Nat) (b : BitVec 8) : (s.setByte a b).gd = s.gd := rfl
@[simp] theorem setByte_pwm (a : Nat) (b : BitVec 8) : (s.setByte a b).pwm = s.pwm := rfl
@[simp] theorem setByte_cell (a : Nat) (b : BitVec 8) : (s.setByte a b).cell = s.cell := rfl
@[simp] theorem setByte_lanes (a : Nat) (b : BitVec 8) : (s.setByte a b).lanes = s.lanes := rfl
@[simp] theorem setByte_link (a : Nat) (b : BitVec 8) : (s.setByte a b).link = s.link := rfl
@[simp] theorem setByte_cap (a : Nat) (b : BitVec 8) : (s.setByte a b).cap = s.cap := rfl
@[simp] theorem setByte_mash (a : Nat) (b : BitVec 8) : (s.setByte a b).mash = s.mash := rfl
@[simp] theorem setByte_trace (a : Nat) (b : BitVec 8) : (s.setByte a b).trace = s.trace := rfl
@[simp] theorem setByte_grist (a : Nat) (b : BitVec 8) : (s.setByte a b).grist = s.grist := rfl
@[simp] theorem setByte_rdata (a : Nat) (b : BitVec 8) : (s.setByte a b).rdata = s.rdata := rfl
@[simp] theorem setByte_adc (a : Nat) (b : BitVec 8) : (s.setByte a b).adc = s.adc := rfl
@[simp] theorem setByte_spr (a : Nat) (b : BitVec 8) : (s.setByte a b).spr = s.spr := rfl
@[simp] theorem setByte_kiln (a : Nat) (b : BitVec 8) : (s.setByte a b).kiln = s.kiln := rfl
@[simp] theorem setByte_ethOut (a : Nat) (b : BitVec 8) : (s.setByte a b).ethOut = s.ethOut := rfl
@[simp] theorem setByte_vote (a : Nat) (b : BitVec 8) : (s.setByte a b).vote = s.vote := rfl
@[simp] theorem setByte_ctl (a : Nat) (b : BitVec 8) : (s.setByte a b).ctl = s.ctl := rfl
@[simp] theorem setByte_qspi (a : Nat) (b : BitVec 8) : (s.setByte a b).qspi = s.qspi := rfl
@[simp] theorem setByte_jtag (a : Nat) (b : BitVec 8) : (s.setByte a b).jtag = s.jtag := rfl
@[simp] theorem setByte_free (a : Nat) (b : BitVec 8) : (s.setByte a b).free = s.free := rfl
@[simp] theorem setByte_pending (a : Nat) (b : BitVec 8) : (s.setByte a b).pending = s.pending := rfl

/-! ### clearMem changes mem alone -/

@[simp] theorem clearMem_clk (lo hi : Nat) : (s.clearMem lo hi).clk = s.clk := rfl
@[simp] theorem clearMem_regs (lo hi : Nat) : (s.clearMem lo hi).regs = s.regs := rfl
@[simp] theorem clearMem_eff (lo hi : Nat) : (s.clearMem lo hi).eff = s.eff := rfl
@[simp] theorem clearMem_sys (lo hi : Nat) : (s.clearMem lo hi).sys = s.sys := rfl
@[simp] theorem clearMem_pins (lo hi : Nat) : (s.clearMem lo hi).pins = s.pins := rfl
@[simp] theorem clearMem_flash (lo hi : Nat) : (s.clearMem lo hi).flash = s.flash := rfl
@[simp] theorem clearMem_mbx (lo hi : Nat) : (s.clearMem lo hi).mbx = s.mbx := rfl
@[simp] theorem clearMem_sec (lo hi : Nat) : (s.clearMem lo hi).sec = s.sec := rfl
@[simp] theorem clearMem_tim (lo hi : Nat) : (s.clearMem lo hi).tim = s.tim := rfl
@[simp] theorem clearMem_flt (lo hi : Nat) : (s.clearMem lo hi).flt = s.flt := rfl
@[simp] theorem clearMem_gd (lo hi : Nat) : (s.clearMem lo hi).gd = s.gd := rfl
@[simp] theorem clearMem_pwm (lo hi : Nat) : (s.clearMem lo hi).pwm = s.pwm := rfl
@[simp] theorem clearMem_cell (lo hi : Nat) : (s.clearMem lo hi).cell = s.cell := rfl
@[simp] theorem clearMem_lanes (lo hi : Nat) : (s.clearMem lo hi).lanes = s.lanes := rfl
@[simp] theorem clearMem_link (lo hi : Nat) : (s.clearMem lo hi).link = s.link := rfl
@[simp] theorem clearMem_cap (lo hi : Nat) : (s.clearMem lo hi).cap = s.cap := rfl
@[simp] theorem clearMem_mash (lo hi : Nat) : (s.clearMem lo hi).mash = s.mash := rfl
@[simp] theorem clearMem_trace (lo hi : Nat) : (s.clearMem lo hi).trace = s.trace := rfl
@[simp] theorem clearMem_grist (lo hi : Nat) : (s.clearMem lo hi).grist = s.grist := rfl
@[simp] theorem clearMem_rdata (lo hi : Nat) : (s.clearMem lo hi).rdata = s.rdata := rfl
@[simp] theorem clearMem_adc (lo hi : Nat) : (s.clearMem lo hi).adc = s.adc := rfl
@[simp] theorem clearMem_spr (lo hi : Nat) : (s.clearMem lo hi).spr = s.spr := rfl
@[simp] theorem clearMem_kiln (lo hi : Nat) : (s.clearMem lo hi).kiln = s.kiln := rfl
@[simp] theorem clearMem_ethOut (lo hi : Nat) : (s.clearMem lo hi).ethOut = s.ethOut := rfl
@[simp] theorem clearMem_vote (lo hi : Nat) : (s.clearMem lo hi).vote = s.vote := rfl
@[simp] theorem clearMem_ctl (lo hi : Nat) : (s.clearMem lo hi).ctl = s.ctl := rfl
@[simp] theorem clearMem_qspi (lo hi : Nat) : (s.clearMem lo hi).qspi = s.qspi := rfl
@[simp] theorem clearMem_jtag (lo hi : Nat) : (s.clearMem lo hi).jtag = s.jtag := rfl
@[simp] theorem clearMem_free (lo hi : Nat) : (s.clearMem lo hi).free = s.free := rfl
@[simp] theorem clearMem_pending (lo hi : Nat) : (s.clearMem lo hi).pending = s.pending := rfl

/-! ### at changes clk alone -/

@[simp] theorem at_regs (t : Time) : (s.at t).regs = s.regs := rfl
@[simp] theorem at_eff (t : Time) : (s.at t).eff = s.eff := rfl
@[simp] theorem at_mem (t : Time) : (s.at t).mem = s.mem := rfl
@[simp] theorem at_sys (t : Time) : (s.at t).sys = s.sys := rfl
@[simp] theorem at_pins (t : Time) : (s.at t).pins = s.pins := rfl
@[simp] theorem at_flash (t : Time) : (s.at t).flash = s.flash := rfl
@[simp] theorem at_mbx (t : Time) : (s.at t).mbx = s.mbx := rfl
@[simp] theorem at_sec (t : Time) : (s.at t).sec = s.sec := rfl
@[simp] theorem at_tim (t : Time) : (s.at t).tim = s.tim := rfl
@[simp] theorem at_flt (t : Time) : (s.at t).flt = s.flt := rfl
@[simp] theorem at_gd (t : Time) : (s.at t).gd = s.gd := rfl
@[simp] theorem at_pwm (t : Time) : (s.at t).pwm = s.pwm := rfl
@[simp] theorem at_cell (t : Time) : (s.at t).cell = s.cell := rfl
@[simp] theorem at_lanes (t : Time) : (s.at t).lanes = s.lanes := rfl
@[simp] theorem at_link (t : Time) : (s.at t).link = s.link := rfl
@[simp] theorem at_cap (t : Time) : (s.at t).cap = s.cap := rfl
@[simp] theorem at_mash (t : Time) : (s.at t).mash = s.mash := rfl
@[simp] theorem at_trace (t : Time) : (s.at t).trace = s.trace := rfl
@[simp] theorem at_grist (t : Time) : (s.at t).grist = s.grist := rfl
@[simp] theorem at_rdata (t : Time) : (s.at t).rdata = s.rdata := rfl
@[simp] theorem at_adc (t : Time) : (s.at t).adc = s.adc := rfl
@[simp] theorem at_spr (t : Time) : (s.at t).spr = s.spr := rfl
@[simp] theorem at_kiln (t : Time) : (s.at t).kiln = s.kiln := rfl
@[simp] theorem at_ethOut (t : Time) : (s.at t).ethOut = s.ethOut := rfl
@[simp] theorem at_vote (t : Time) : (s.at t).vote = s.vote := rfl
@[simp] theorem at_ctl (t : Time) : (s.at t).ctl = s.ctl := rfl
@[simp] theorem at_qspi (t : Time) : (s.at t).qspi = s.qspi := rfl
@[simp] theorem at_jtag (t : Time) : (s.at t).jtag = s.jtag := rfl
@[simp] theorem at_free (t : Time) : (s.at t).free = s.free := rfl
@[simp] theorem at_pending (t : Time) : (s.at t).pending = s.pending := rfl

/-! ### resetRegs changes regs and eff alone -/

@[simp] theorem resetRegs_clk (p : Nat → Nat → Bool) : (s.resetRegs p).clk = s.clk := rfl
@[simp] theorem resetRegs_mem (p : Nat → Nat → Bool) : (s.resetRegs p).mem = s.mem := rfl
@[simp] theorem resetRegs_sys (p : Nat → Nat → Bool) : (s.resetRegs p).sys = s.sys := rfl
@[simp] theorem resetRegs_pins (p : Nat → Nat → Bool) : (s.resetRegs p).pins = s.pins := rfl
@[simp] theorem resetRegs_flash (p : Nat → Nat → Bool) : (s.resetRegs p).flash = s.flash := rfl
@[simp] theorem resetRegs_mbx (p : Nat → Nat → Bool) : (s.resetRegs p).mbx = s.mbx := rfl
@[simp] theorem resetRegs_sec (p : Nat → Nat → Bool) : (s.resetRegs p).sec = s.sec := rfl
@[simp] theorem resetRegs_tim (p : Nat → Nat → Bool) : (s.resetRegs p).tim = s.tim := rfl
@[simp] theorem resetRegs_flt (p : Nat → Nat → Bool) : (s.resetRegs p).flt = s.flt := rfl
@[simp] theorem resetRegs_gd (p : Nat → Nat → Bool) : (s.resetRegs p).gd = s.gd := rfl
@[simp] theorem resetRegs_pwm (p : Nat → Nat → Bool) : (s.resetRegs p).pwm = s.pwm := rfl
@[simp] theorem resetRegs_cell (p : Nat → Nat → Bool) : (s.resetRegs p).cell = s.cell := rfl
@[simp] theorem resetRegs_lanes (p : Nat → Nat → Bool) : (s.resetRegs p).lanes = s.lanes := rfl
@[simp] theorem resetRegs_link (p : Nat → Nat → Bool) : (s.resetRegs p).link = s.link := rfl
@[simp] theorem resetRegs_cap (p : Nat → Nat → Bool) : (s.resetRegs p).cap = s.cap := rfl
@[simp] theorem resetRegs_mash (p : Nat → Nat → Bool) : (s.resetRegs p).mash = s.mash := rfl
@[simp] theorem resetRegs_trace (p : Nat → Nat → Bool) : (s.resetRegs p).trace = s.trace := rfl
@[simp] theorem resetRegs_grist (p : Nat → Nat → Bool) : (s.resetRegs p).grist = s.grist := rfl
@[simp] theorem resetRegs_rdata (p : Nat → Nat → Bool) : (s.resetRegs p).rdata = s.rdata := rfl
@[simp] theorem resetRegs_adc (p : Nat → Nat → Bool) : (s.resetRegs p).adc = s.adc := rfl
@[simp] theorem resetRegs_spr (p : Nat → Nat → Bool) : (s.resetRegs p).spr = s.spr := rfl
@[simp] theorem resetRegs_kiln (p : Nat → Nat → Bool) : (s.resetRegs p).kiln = s.kiln := rfl
@[simp] theorem resetRegs_ethOut (p : Nat → Nat → Bool) : (s.resetRegs p).ethOut = s.ethOut := rfl
@[simp] theorem resetRegs_vote (p : Nat → Nat → Bool) : (s.resetRegs p).vote = s.vote := rfl
@[simp] theorem resetRegs_ctl (p : Nat → Nat → Bool) : (s.resetRegs p).ctl = s.ctl := rfl
@[simp] theorem resetRegs_qspi (p : Nat → Nat → Bool) : (s.resetRegs p).qspi = s.qspi := rfl
@[simp] theorem resetRegs_jtag (p : Nat → Nat → Bool) : (s.resetRegs p).jtag = s.jtag := rfl
@[simp] theorem resetRegs_free (p : Nat → Nat → Bool) : (s.resetRegs p).free = s.free := rfl
@[simp] theorem resetRegs_pending (p : Nat → Nat → Bool) : (s.resetRegs p).pending = s.pending := rfl

/-! ### fsets and satAdd change regs alone, mwrite mem alone -/

@[simp] theorem fsets_clk (l : List (Fld × Nat × Nat)) : (s.fsets l).clk = s.clk := by
  induction l generalizing s with
  | nil => rfl
  | cons e l ih => exact ih _
@[simp] theorem satAdd_clk (F : Fld) (i n : Nat) : (s.satAdd F i n).clk = s.clk := rfl
@[simp] theorem mwrite_clk (a n v : Nat) : (s.mwrite a n v).clk = s.clk := by
  induction n generalizing s a v with
  | zero => rfl
  | succ n ih => exact ih _ _ _
@[simp] theorem mwrite_regs (a n v : Nat) : (s.mwrite a n v).regs = s.regs := by
  induction n generalizing s a v with
  | zero => rfl
  | succ n ih => exact ih _ _ _
@[simp] theorem fsets_eff (l : List (Fld × Nat × Nat)) : (s.fsets l).eff = s.eff := by
  induction l generalizing s with
  | nil => rfl
  | cons e l ih => exact ih _
@[simp] theorem satAdd_eff (F : Fld) (i n : Nat) : (s.satAdd F i n).eff = s.eff := rfl
@[simp] theorem mwrite_eff (a n v : Nat) : (s.mwrite a n v).eff = s.eff := by
  induction n generalizing s a v with
  | zero => rfl
  | succ n ih => exact ih _ _ _
@[simp] theorem fsets_mem (l : List (Fld × Nat × Nat)) : (s.fsets l).mem = s.mem := by
  induction l generalizing s with
  | nil => rfl
  | cons e l ih => exact ih _
@[simp] theorem satAdd_mem (F : Fld) (i n : Nat) : (s.satAdd F i n).mem = s.mem := rfl
@[simp] theorem fsets_sys (l : List (Fld × Nat × Nat)) : (s.fsets l).sys = s.sys := by
  induction l generalizing s with
  | nil => rfl
  | cons e l ih => exact ih _
@[simp] theorem satAdd_sys (F : Fld) (i n : Nat) : (s.satAdd F i n).sys = s.sys := rfl
@[simp] theorem mwrite_sys (a n v : Nat) : (s.mwrite a n v).sys = s.sys := by
  induction n generalizing s a v with
  | zero => rfl
  | succ n ih => exact ih _ _ _
@[simp] theorem fsets_pins (l : List (Fld × Nat × Nat)) : (s.fsets l).pins = s.pins := by
  induction l generalizing s with
  | nil => rfl
  | cons e l ih => exact ih _
@[simp] theorem satAdd_pins (F : Fld) (i n : Nat) : (s.satAdd F i n).pins = s.pins := rfl
@[simp] theorem mwrite_pins (a n v : Nat) : (s.mwrite a n v).pins = s.pins := by
  induction n generalizing s a v with
  | zero => rfl
  | succ n ih => exact ih _ _ _
@[simp] theorem fsets_flash (l : List (Fld × Nat × Nat)) : (s.fsets l).flash = s.flash := by
  induction l generalizing s with
  | nil => rfl
  | cons e l ih => exact ih _
@[simp] theorem satAdd_flash (F : Fld) (i n : Nat) : (s.satAdd F i n).flash = s.flash := rfl
@[simp] theorem mwrite_flash (a n v : Nat) : (s.mwrite a n v).flash = s.flash := by
  induction n generalizing s a v with
  | zero => rfl
  | succ n ih => exact ih _ _ _
@[simp] theorem fsets_mbx (l : List (Fld × Nat × Nat)) : (s.fsets l).mbx = s.mbx := by
  induction l generalizing s with
  | nil => rfl
  | cons e l ih => exact ih _
@[simp] theorem satAdd_mbx (F : Fld) (i n : Nat) : (s.satAdd F i n).mbx = s.mbx := rfl
@[simp] theorem mwrite_mbx (a n v : Nat) : (s.mwrite a n v).mbx = s.mbx := by
  induction n generalizing s a v with
  | zero => rfl
  | succ n ih => exact ih _ _ _
@[simp] theorem fsets_sec (l : List (Fld × Nat × Nat)) : (s.fsets l).sec = s.sec := by
  induction l generalizing s with
  | nil => rfl
  | cons e l ih => exact ih _
@[simp] theorem satAdd_sec (F : Fld) (i n : Nat) : (s.satAdd F i n).sec = s.sec := rfl
@[simp] theorem mwrite_sec (a n v : Nat) : (s.mwrite a n v).sec = s.sec := by
  induction n generalizing s a v with
  | zero => rfl
  | succ n ih => exact ih _ _ _
@[simp] theorem fsets_tim (l : List (Fld × Nat × Nat)) : (s.fsets l).tim = s.tim := by
  induction l generalizing s with
  | nil => rfl
  | cons e l ih => exact ih _
@[simp] theorem satAdd_tim (F : Fld) (i n : Nat) : (s.satAdd F i n).tim = s.tim := rfl
@[simp] theorem mwrite_tim (a n v : Nat) : (s.mwrite a n v).tim = s.tim := by
  induction n generalizing s a v with
  | zero => rfl
  | succ n ih => exact ih _ _ _
@[simp] theorem fsets_flt (l : List (Fld × Nat × Nat)) : (s.fsets l).flt = s.flt := by
  induction l generalizing s with
  | nil => rfl
  | cons e l ih => exact ih _
@[simp] theorem satAdd_flt (F : Fld) (i n : Nat) : (s.satAdd F i n).flt = s.flt := rfl
@[simp] theorem mwrite_flt (a n v : Nat) : (s.mwrite a n v).flt = s.flt := by
  induction n generalizing s a v with
  | zero => rfl
  | succ n ih => exact ih _ _ _
@[simp] theorem fsets_gd (l : List (Fld × Nat × Nat)) : (s.fsets l).gd = s.gd := by
  induction l generalizing s with
  | nil => rfl
  | cons e l ih => exact ih _
@[simp] theorem satAdd_gd (F : Fld) (i n : Nat) : (s.satAdd F i n).gd = s.gd := rfl
@[simp] theorem mwrite_gd (a n v : Nat) : (s.mwrite a n v).gd = s.gd := by
  induction n generalizing s a v with
  | zero => rfl
  | succ n ih => exact ih _ _ _
@[simp] theorem fsets_pwm (l : List (Fld × Nat × Nat)) : (s.fsets l).pwm = s.pwm := by
  induction l generalizing s with
  | nil => rfl
  | cons e l ih => exact ih _
@[simp] theorem satAdd_pwm (F : Fld) (i n : Nat) : (s.satAdd F i n).pwm = s.pwm := rfl
@[simp] theorem mwrite_pwm (a n v : Nat) : (s.mwrite a n v).pwm = s.pwm := by
  induction n generalizing s a v with
  | zero => rfl
  | succ n ih => exact ih _ _ _
@[simp] theorem fsets_cell (l : List (Fld × Nat × Nat)) : (s.fsets l).cell = s.cell := by
  induction l generalizing s with
  | nil => rfl
  | cons e l ih => exact ih _
@[simp] theorem satAdd_cell (F : Fld) (i n : Nat) : (s.satAdd F i n).cell = s.cell := rfl
@[simp] theorem mwrite_cell (a n v : Nat) : (s.mwrite a n v).cell = s.cell := by
  induction n generalizing s a v with
  | zero => rfl
  | succ n ih => exact ih _ _ _
@[simp] theorem fsets_lanes (l : List (Fld × Nat × Nat)) : (s.fsets l).lanes = s.lanes := by
  induction l generalizing s with
  | nil => rfl
  | cons e l ih => exact ih _
@[simp] theorem satAdd_lanes (F : Fld) (i n : Nat) : (s.satAdd F i n).lanes = s.lanes := rfl
@[simp] theorem mwrite_lanes (a n v : Nat) : (s.mwrite a n v).lanes = s.lanes := by
  induction n generalizing s a v with
  | zero => rfl
  | succ n ih => exact ih _ _ _
@[simp] theorem fsets_link (l : List (Fld × Nat × Nat)) : (s.fsets l).link = s.link := by
  induction l generalizing s with
  | nil => rfl
  | cons e l ih => exact ih _
@[simp] theorem satAdd_link (F : Fld) (i n : Nat) : (s.satAdd F i n).link = s.link := rfl
@[simp] theorem mwrite_link (a n v : Nat) : (s.mwrite a n v).link = s.link := by
  induction n generalizing s a v with
  | zero => rfl
  | succ n ih => exact ih _ _ _
@[simp] theorem fsets_cap (l : List (Fld × Nat × Nat)) : (s.fsets l).cap = s.cap := by
  induction l generalizing s with
  | nil => rfl
  | cons e l ih => exact ih _
@[simp] theorem satAdd_cap (F : Fld) (i n : Nat) : (s.satAdd F i n).cap = s.cap := rfl
@[simp] theorem mwrite_cap (a n v : Nat) : (s.mwrite a n v).cap = s.cap := by
  induction n generalizing s a v with
  | zero => rfl
  | succ n ih => exact ih _ _ _
@[simp] theorem fsets_mash (l : List (Fld × Nat × Nat)) : (s.fsets l).mash = s.mash := by
  induction l generalizing s with
  | nil => rfl
  | cons e l ih => exact ih _
@[simp] theorem satAdd_mash (F : Fld) (i n : Nat) : (s.satAdd F i n).mash = s.mash := rfl
@[simp] theorem mwrite_mash (a n v : Nat) : (s.mwrite a n v).mash = s.mash := by
  induction n generalizing s a v with
  | zero => rfl
  | succ n ih => exact ih _ _ _
@[simp] theorem fsets_trace (l : List (Fld × Nat × Nat)) : (s.fsets l).trace = s.trace := by
  induction l generalizing s with
  | nil => rfl
  | cons e l ih => exact ih _
@[simp] theorem satAdd_trace (F : Fld) (i n : Nat) : (s.satAdd F i n).trace = s.trace := rfl
@[simp] theorem mwrite_trace (a n v : Nat) : (s.mwrite a n v).trace = s.trace := by
  induction n generalizing s a v with
  | zero => rfl
  | succ n ih => exact ih _ _ _
@[simp] theorem fsets_grist (l : List (Fld × Nat × Nat)) : (s.fsets l).grist = s.grist := by
  induction l generalizing s with
  | nil => rfl
  | cons e l ih => exact ih _
@[simp] theorem satAdd_grist (F : Fld) (i n : Nat) : (s.satAdd F i n).grist = s.grist := rfl
@[simp] theorem mwrite_grist (a n v : Nat) : (s.mwrite a n v).grist = s.grist := by
  induction n generalizing s a v with
  | zero => rfl
  | succ n ih => exact ih _ _ _
@[simp] theorem fsets_rdata (l : List (Fld × Nat × Nat)) : (s.fsets l).rdata = s.rdata := by
  induction l generalizing s with
  | nil => rfl
  | cons e l ih => exact ih _
@[simp] theorem satAdd_rdata (F : Fld) (i n : Nat) : (s.satAdd F i n).rdata = s.rdata := rfl
@[simp] theorem mwrite_rdata (a n v : Nat) : (s.mwrite a n v).rdata = s.rdata := by
  induction n generalizing s a v with
  | zero => rfl
  | succ n ih => exact ih _ _ _
@[simp] theorem fsets_adc (l : List (Fld × Nat × Nat)) : (s.fsets l).adc = s.adc := by
  induction l generalizing s with
  | nil => rfl
  | cons e l ih => exact ih _
@[simp] theorem satAdd_adc (F : Fld) (i n : Nat) : (s.satAdd F i n).adc = s.adc := rfl
@[simp] theorem mwrite_adc (a n v : Nat) : (s.mwrite a n v).adc = s.adc := by
  induction n generalizing s a v with
  | zero => rfl
  | succ n ih => exact ih _ _ _
@[simp] theorem fsets_spr (l : List (Fld × Nat × Nat)) : (s.fsets l).spr = s.spr := by
  induction l generalizing s with
  | nil => rfl
  | cons e l ih => exact ih _
@[simp] theorem satAdd_spr (F : Fld) (i n : Nat) : (s.satAdd F i n).spr = s.spr := rfl
@[simp] theorem mwrite_spr (a n v : Nat) : (s.mwrite a n v).spr = s.spr := by
  induction n generalizing s a v with
  | zero => rfl
  | succ n ih => exact ih _ _ _
@[simp] theorem fsets_kiln (l : List (Fld × Nat × Nat)) : (s.fsets l).kiln = s.kiln := by
  induction l generalizing s with
  | nil => rfl
  | cons e l ih => exact ih _
@[simp] theorem satAdd_kiln (F : Fld) (i n : Nat) : (s.satAdd F i n).kiln = s.kiln := rfl
@[simp] theorem mwrite_kiln (a n v : Nat) : (s.mwrite a n v).kiln = s.kiln := by
  induction n generalizing s a v with
  | zero => rfl
  | succ n ih => exact ih _ _ _
@[simp] theorem fsets_ethOut (l : List (Fld × Nat × Nat)) : (s.fsets l).ethOut = s.ethOut := by
  induction l generalizing s with
  | nil => rfl
  | cons e l ih => exact ih _
@[simp] theorem satAdd_ethOut (F : Fld) (i n : Nat) : (s.satAdd F i n).ethOut = s.ethOut := rfl
@[simp] theorem mwrite_ethOut (a n v : Nat) : (s.mwrite a n v).ethOut = s.ethOut := by
  induction n generalizing s a v with
  | zero => rfl
  | succ n ih => exact ih _ _ _
@[simp] theorem fsets_vote (l : List (Fld × Nat × Nat)) : (s.fsets l).vote = s.vote := by
  induction l generalizing s with
  | nil => rfl
  | cons e l ih => exact ih _
@[simp] theorem satAdd_vote (F : Fld) (i n : Nat) : (s.satAdd F i n).vote = s.vote := rfl
@[simp] theorem mwrite_vote (a n v : Nat) : (s.mwrite a n v).vote = s.vote := by
  induction n generalizing s a v with
  | zero => rfl
  | succ n ih => exact ih _ _ _
@[simp] theorem fsets_ctl (l : List (Fld × Nat × Nat)) : (s.fsets l).ctl = s.ctl := by
  induction l generalizing s with
  | nil => rfl
  | cons e l ih => exact ih _
@[simp] theorem satAdd_ctl (F : Fld) (i n : Nat) : (s.satAdd F i n).ctl = s.ctl := rfl
@[simp] theorem mwrite_ctl (a n v : Nat) : (s.mwrite a n v).ctl = s.ctl := by
  induction n generalizing s a v with
  | zero => rfl
  | succ n ih => exact ih _ _ _
@[simp] theorem fsets_qspi (l : List (Fld × Nat × Nat)) : (s.fsets l).qspi = s.qspi := by
  induction l generalizing s with
  | nil => rfl
  | cons e l ih => exact ih _
@[simp] theorem satAdd_qspi (F : Fld) (i n : Nat) : (s.satAdd F i n).qspi = s.qspi := rfl
@[simp] theorem mwrite_qspi (a n v : Nat) : (s.mwrite a n v).qspi = s.qspi := by
  induction n generalizing s a v with
  | zero => rfl
  | succ n ih => exact ih _ _ _
@[simp] theorem fsets_jtag (l : List (Fld × Nat × Nat)) : (s.fsets l).jtag = s.jtag := by
  induction l generalizing s with
  | nil => rfl
  | cons e l ih => exact ih _
@[simp] theorem satAdd_jtag (F : Fld) (i n : Nat) : (s.satAdd F i n).jtag = s.jtag := rfl
@[simp] theorem mwrite_jtag (a n v : Nat) : (s.mwrite a n v).jtag = s.jtag := by
  induction n generalizing s a v with
  | zero => rfl
  | succ n ih => exact ih _ _ _
@[simp] theorem fsets_free (l : List (Fld × Nat × Nat)) : (s.fsets l).free = s.free := by
  induction l generalizing s with
  | nil => rfl
  | cons e l ih => exact ih _
@[simp] theorem satAdd_free (F : Fld) (i n : Nat) : (s.satAdd F i n).free = s.free := rfl
@[simp] theorem mwrite_free (a n v : Nat) : (s.mwrite a n v).free = s.free := by
  induction n generalizing s a v with
  | zero => rfl
  | succ n ih => exact ih _ _ _
@[simp] theorem fsets_pending (l : List (Fld × Nat × Nat)) : (s.fsets l).pending = s.pending := by
  induction l generalizing s with
  | nil => rfl
  | cons e l ih => exact ih _
@[simp] theorem satAdd_pending (F : Fld) (i n : Nat) : (s.satAdd F i n).pending = s.pending := rfl
@[simp] theorem mwrite_pending (a n v : Nat) : (s.mwrite a n v).pending = s.pending := by
  induction n generalizing s a v with
  | zero => rfl
  | succ n ih => exact ih _ _ _

end State

/-! ## Registers -/

/-- A field instance reads what was written to it, modulo its width. -/
@[simp] theorem fget_fset_same (s : State) (F : Fld) (i v : Nat) : (s.fset F i v).fget F i = v % 2 ^ F.width :=
  smGet_set_same _ _ _ _

/-- A write of one field instance leaves every other one alone. -/
theorem fget_fset_other (s : State) {F G : Fld} {i j : Nat} (v : Nat) (h : G.key j ≠ F.key i) :
    (s.fset F i v).fget G j = s.fget G j := smGet_set_other _ _ _ _ h

/-- The effective value likewise. -/
@[simp] theorem eget_eset_same (s : State) (F : Fld) (i v : Nat) : (s.eset F i v).eget F i = v % 2 ^ F.width :=
  smGet_set_same _ _ _ _
theorem eget_eset_other (s : State) {F G : Fld} {i j : Nat} (v : Nat) (h : G.key j ≠ F.key i) :
    (s.eset F i v).eget G j = s.eget G j := smGet_set_other _ _ _ _ h
@[simp] theorem eget_fset (s : State) (F G : Fld) (i j v : Nat) : (s.fset F i v).eget G j = s.eget G j := rfl
@[simp] theorem fget_eset (s : State) (F G : Fld) (i j v : Nat) : (s.eset F i v).fget G j = s.fget G j := rfl

/-- A field is read alike in two states with the same registers. -/
theorem fget_congr {s t : State} (h : t.regs = s.regs) (F : Fld) (i : Nat) : t.fget F i = s.fget F i := by
  simp [State.fget, h]

/-- Keys of different fields differ, for indexes that every instance has. -/
theorem Fld.key_ne {F G : Fld} {i j : Nat} (hi : i < 2048) (hj : j < 2048)
    (h : G.addr * 32 + G.lo ≠ F.addr * 32 + F.lo) : G.key j ≠ F.key i := by
  unfold Fld.key
  omega

theorem fget_fset_far (s : State) {F G : Fld} {i j : Nat} (v : Nat) (hi : i < 2048) (hj : j < 2048)
    (h : G.addr * 32 + G.lo ≠ F.addr * 32 + F.lo) : (s.fset F i v).fget G j = s.fget G j :=
  fget_fset_other s v (Fld.key_ne hi hj h)

theorem fget_fset_idx (s : State) (F : Fld) {i j : Nat} (v : Nat) (h : j ≠ i) :
    (s.fset F i v).fget F j = s.fget F j := by
  refine fget_fset_other s v ?_
  unfold Fld.key
  omega

@[simp] theorem fsets_nil (s : State) : s.fsets [] = s := rfl
@[simp] theorem fsets_cons (s : State) (F : Fld) (i v : Nat) (l : List (Fld × Nat × Nat)) :
    s.fsets ((F, i, v) :: l) = (s.fset F i v).fsets l := rfl

/-- Several writes leave a field instance alone that none of them names. -/
theorem fget_fsets_other (s : State) (l : List (Fld × Nat × Nat)) {G : Fld} {j : Nat}
    (h : ∀ e ∈ l, G.key j ≠ e.1.key e.2.1) : (s.fsets l).fget G j = s.fget G j := by
  induction l generalizing s with
  | nil => rfl
  | cons e l ih =>
    rw [State.fsets, ih _ (fun x hx => h x (by simp [hx])), fget_fset_other _ _ (h e (by simp))]

@[simp] theorem fget_at (s : State) (t : Time) (F : Fld) (i : Nat) : (s.at t).fget F i = s.fget F i := rfl
@[simp] theorem flag_at (s : State) (t : Time) (F : Fld) (i : Nat) : (s.at t).flag F i = s.flag F i := rfl

/-! ## The addressed memory -/

theorem byte_setByte_same (s : State) (a : Nat) (b : BitVec 8) : (s.setByte a b).byte a = b := smGet_set_same _ _ _ _
theorem byte_setByte_other (s : State) {a c : Nat} (b : BitVec 8) (h : c ≠ a) : (s.setByte a b).byte c = s.byte c :=
  smGet_set_other _ _ _ _ h

/-- A word write leaves every byte outside it alone. -/
theorem byte_mwrite_other (s : State) (a n v c : Nat) (h : c < a ∨ a + n ≤ c) :
    (s.mwrite a n v).byte c = s.byte c := by
  induction n generalizing s a v with
  | zero => rfl
  | succ n ih =>
    rw [State.mwrite, ih _ _ _ (by omega), byte_setByte_other _ _ (by omega)]

theorem mread_setByte_other (s : State) (a n c : Nat) (b : BitVec 8) (h : c < a ∨ a + n ≤ c) :
    (s.setByte c b).mread a n = s.mread a n := by
  induction n generalizing a with
  | zero => rfl
  | succ n ih => rw [State.mread, State.mread, byte_setByte_other _ _ (by omega), ih _ (by omega)]

/-- A read after a write of the same bytes. -/
theorem mread_mwrite (s : State) (a n v : Nat) : (s.mwrite a n v).mread a n = v % 256 ^ n := by
  induction n generalizing s a v with
  | zero => simp [State.mread, Nat.mod_one]
  | succ n ih =>
    rw [State.mwrite, State.mread, ih, byte_mwrite_other _ _ _ _ _ (by omega), byte_setByte_same]
    rw [Nat.pow_succ, Nat.mul_comm (256 ^ n) 256, Nat.mod_mul]
    simp

/-- Every operation of the memory keeps its canonical form. -/
theorem setByte_memWf {s : State} (a : Nat) (b : BitVec 8) (h : memWf s.mem = true) : memWf (s.setByte a b).mem = true :=
  smSet_wf _ _ _ h
theorem mwrite_memWf {s : State} (a n v : Nat) (h : memWf s.mem = true) : memWf (s.mwrite a n v).mem = true := by
  induction n generalizing s a v with
  | zero => exact h
  | succ n ih => exact ih _ _ (setByte_memWf a _ h)
theorem clearMem_memWf {s : State} (lo hi : Nat) (h : memWf s.mem = true) : memWf (s.clearMem lo hi).mem = true :=
  smFilter_wf _ _ h
theorem reset_memWf : memWf State.reset.mem = true := rfl

end Sys2Proof.Machine
end

