-- ==== Sys2Proof/Laws/Access.lean ====
section
/-! SUPPORT. What one access does: an accepted write, a refused one, and a read (R66, R67, R90, R93). -/

namespace Sys2Proof.Machine

/-- An accepted write whose register answers OK. -/
theorem regWrite_ok {s r : State} {m a w : Nat} {c : Bool} {eff : State → Status × State} (h : s.MayWrite m a w c)
    (he : eff (countRsvd s m a w) = (.ok, r)) : regWrite s m a w 4 c true eff = (.ok, s.noted m a w r) := by
  obtain ⟨h0, h1⟩ := h
  cases hb : blkOf a with
  | none => simp [hb] at h0
  | some b => simp [regWrite, hb, h1, he, State.noted, Status.code]

/-- The same for a register with a row of its own. -/
theorem rowWrite_ok {s r : State} {m : Master} {a : Nat} {w : Word} {c : Bool} {eff : State → Status × State}
    (h : s.MayWrite m a w.toNat c) (he : eff (countRsvd s m a w.toNat) = (.ok, r)) :
    rowWrite s m a w c eff = s.noted m a w.toNat r := by
  rw [rowWrite, regWrite_ok h he]

/-- An accepted write that the register itself refuses. -/
theorem rowWrite_bad {s r : State} {m : Master} {a : Nat} {w : Word} {c : Bool} {st : Status}
    {eff : State → Status × State} (h : s.MayWrite m a w.toNat c) (hs : st ≠ .ok)
    (he : eff (countRsvd s m a w.toNat) = (st, r)) : rowWrite s m a w c eff = s.notedBad m a w.toNat st r := by
  obtain ⟨h0, h1⟩ := h
  cases hb : blkOf a with
  | none => simp [hb] at h0
  | some b => simp [rowWrite, regWrite, hb, h1, he, State.notedBad, hs]

/-- A refused write: only the records of the refusal. -/
theorem regWrite_refused {s : State} {m a w width : Nat} {c e : Bool} {eff : State → Status × State}
    (h0 : (blkOf a).isSome = true) (h1 : writeStatus s m a width w c e ≠ .ok) :
    (regWrite s m a w width c e eff).2 =
      (let u := recWrite (countRsvd s m a w) m a (writeRest s m a width w c e) (writeStatus s m a width w c e)
       if (decide (m ≤ 6) && journaled s a) && !jnlFull u then
         jnlAdd u m 1 (writeStatus s m a width w c e).code a (jnlOld s m a) w else u) := by
  cases hb : blkOf a with
  | none => simp [hb] at h0
  | some b => simp [regWrite, hb, h1]

/-- A read that is carried out. -/
theorem readAccess_ok {s r : State} {m a v : Nat} {rd : State → Nat × State} (h : s.MayRead m a) (hr : rd s = (v, r)) :
    readAccess s m a rd = { r with rdata := smSet 0 r.rdata m v } := by
  obtain ⟨h0, h1⟩ := h
  cases hb : blkOf a with
  | none => simp [hb] at h0
  | some b => simp [readAccess, hb, h1, hr]

/-- Counting a reserved bit changes SYS_ERRCNT.RSVD at most (R4). -/
theorem countRsvd_cases (s : State) (m a w : Nat) :
    countRsvd s m a w = s ∨ countRsvd s m a w = s.satAdd SYS_ERRCNT_RSVD 0 := by
  unfold countRsvd
  split
  · exact .inl rfl
  · split
    · split
      · exact .inl rfl
      · exact .inr rfl
    · exact .inl rfl

@[simp] theorem countRsvd_clk (s : State) (m a w : Nat) : (countRsvd s m a w).clk = s.clk := by
  rcases countRsvd_cases s m a w with e | e <;> simp [e]
@[simp] theorem countRsvd_eff (s : State) (m a w : Nat) : (countRsvd s m a w).eff = s.eff := by
  rcases countRsvd_cases s m a w with e | e <;> simp [e]
@[simp] theorem countRsvd_mem (s : State) (m a w : Nat) : (countRsvd s m a w).mem = s.mem := by
  rcases countRsvd_cases s m a w with e | e <;> simp [e]
@[simp] theorem countRsvd_sys (s : State) (m a w : Nat) : (countRsvd s m a w).sys = s.sys := by
  rcases countRsvd_cases s m a w with e | e <;> simp [e]
@[simp] theorem countRsvd_pins (s : State) (m a w : Nat) : (countRsvd s m a w).pins = s.pins := by
  rcases countRsvd_cases s m a w with e | e <;> simp [e]
@[simp] theorem countRsvd_flash (s : State) (m a w : Nat) : (countRsvd s m a w).flash = s.flash := by
  rcases countRsvd_cases s m a w with e | e <;> simp [e]
@[simp] theorem countRsvd_mbx (s : State) (m a w : Nat) : (countRsvd s m a w).mbx = s.mbx := by
  rcases countRsvd_cases s m a w with e | e <;> simp [e]
@[simp] theorem countRsvd_sec (s : State) (m a w : Nat) : (countRsvd s m a w).sec = s.sec := by
  rcases countRsvd_cases s m a w with e | e <;> simp [e]
@[simp] theorem countRsvd_tim (s : State) (m a w : Nat) : (countRsvd s m a w).tim = s.tim := by
  rcases countRsvd_cases s m a w with e | e <;> simp [e]
@[simp] theorem countRsvd_flt (s : State) (m a w : Nat) : (countRsvd s m a w).flt = s.flt := by
  rcases countRsvd_cases s m a w with e | e <;> simp [e]
@[simp] theorem countRsvd_gd (s : State) (m a w : Nat) : (countRsvd s m a w).gd = s.gd := by
  rcases countRsvd_cases s m a w with e | e <;> simp [e]
@[simp] theorem countRsvd_pwm (s : State) (m a w : Nat) : (countRsvd s m a w).pwm = s.pwm := by
  rcases countRsvd_cases s m a w with e | e <;> simp [e]
@[simp] theorem countRsvd_cell (s : State) (m a w : Nat) : (countRsvd s m a w).cell = s.cell := by
  rcases countRsvd_cases s m a w with e | e <;> simp [e]
@[simp] theorem countRsvd_lanes (s : State) (m a w : Nat) : (countRsvd s m a w).lanes = s.lanes := by
  rcases countRsvd_cases s m a w with e | e <;> simp [e]
@[simp] theorem countRsvd_link (s : State) (m a w : Nat) : (countRsvd s m a w).link = s.link := by
  rcases countRsvd_cases s m a w with e | e <;> simp [e]
@[simp] theorem countRsvd_cap (s : State) (m a w : Nat) : (countRsvd s m a w).cap = s.cap := by
  rcases countRsvd_cases s m a w with e | e <;> simp [e]
@[simp] theorem countRsvd_mash (s : State) (m a w : Nat) : (countRsvd s m a w).mash = s.mash := by
  rcases countRsvd_cases s m a w with e | e <;> simp [e]
@[simp] theorem countRsvd_trace (s : State) (m a w : Nat) : (countRsvd s m a w).trace = s.trace := by
  rcases countRsvd_cases s m a w with e | e <;> simp [e]
@[simp] theorem countRsvd_grist (s : State) (m a w : Nat) : (countRsvd s m a w).grist = s.grist := by
  rcases countRsvd_cases s m a w with e | e <;> simp [e]
@[simp] theorem countRsvd_rdata (s : State) (m a w : Nat) : (countRsvd s m a w).rdata = s.rdata := by
  rcases countRsvd_cases s m a w with e | e <;> simp [e]
@[simp] theorem countRsvd_adc (s : State) (m a w : Nat) : (countRsvd s m a w).adc = s.adc := by
  rcases countRsvd_cases s m a w with e | e <;> simp [e]
@[simp] theorem countRsvd_spr (s : State) (m a w : Nat) : (countRsvd s m a w).spr = s.spr := by
  rcases countRsvd_cases s m a w with e | e <;> simp [e]
@[simp] theorem countRsvd_kiln (s : State) (m a w : Nat) : (countRsvd s m a w).kiln = s.kiln := by
  rcases countRsvd_cases s m a w with e | e <;> simp [e]
@[simp] theorem countRsvd_ethOut (s : State) (m a w : Nat) : (countRsvd s m a w).ethOut = s.ethOut := by
  rcases countRsvd_cases s m a w with e | e <;> simp [e]
@[simp] theorem countRsvd_vote (s : State) (m a w : Nat) : (countRsvd s m a w).vote = s.vote := by
  rcases countRsvd_cases s m a w with e | e <;> simp [e]
@[simp] theorem countRsvd_ctl (s : State) (m a w : Nat) : (countRsvd s m a w).ctl = s.ctl := by
  rcases countRsvd_cases s m a w with e | e <;> simp [e]
@[simp] theorem countRsvd_qspi (s : State) (m a w : Nat) : (countRsvd s m a w).qspi = s.qspi := by
  rcases countRsvd_cases s m a w with e | e <;> simp [e]
@[simp] theorem countRsvd_jtag (s : State) (m a w : Nat) : (countRsvd s m a w).jtag = s.jtag := by
  rcases countRsvd_cases s m a w with e | e <;> simp [e]
@[simp] theorem countRsvd_free (s : State) (m a w : Nat) : (countRsvd s m a w).free = s.free := by
  rcases countRsvd_cases s m a w with e | e <;> simp [e]
@[simp] theorem countRsvd_pending (s : State) (m a w : Nat) : (countRsvd s m a w).pending = s.pending := by
  rcases countRsvd_cases s m a w with e | e <;> simp [e]

theorem fget_satAdd_other (s : State) {F G : Fld} {i j : Nat} (n : Nat) (h : G.key j ≠ F.key i) :
    (s.satAdd F i n).fget G j = s.fget G j := fget_fset_other s _ h

theorem fget_countRsvd (s : State) (m a w : Nat) {G : Fld} {j : Nat} (h : G.key j ≠ SYS_ERRCNT_RSVD.key 0) :
    (countRsvd s m a w).fget G j = s.fget G j := by
  rcases countRsvd_cases s m a w with e | e <;> rw [e]
  exact fget_satAdd_other s 1 h

/-- No register above SYS_ERRCNT is touched. -/
theorem countRsvd_fget (s : State) (m a w : Nat) {G : Fld} (j : Nat) (h : 40 < G.addr) :
    (countRsvd s m a w).fget G j = s.fget G j := by
  refine fget_countRsvd s m a w ?_
  simp only [Fld.key, SYS_ERRCNT_RSVD]
  omega

theorem countRsvd_flag (s : State) (m a w : Nat) {G : Fld} (j : Nat) (h : 40 < G.addr) :
    (countRsvd s m a w).flag G j = s.flag G j := by
  rw [State.flag, countRsvd_fget s m a w j h, State.flag]

end Sys2Proof.Machine
end

