-- ==== Sys2Proof/Laws/Clock.lean ====
section
/-! SUPPORT. Advancing the elapsed clock (assumption 1) changes nothing that these functions read. -/

namespace Sys2Proof.Machine

@[simp] theorem State.byte_at (t : Time) (s : State) (b) : State.byte (s.at t) b = State.byte s b := rfl
@[simp] theorem State.eget_at (t : Time) (s : State) (b) (c) : State.eget (s.at t) b c = State.eget s b c := rfl
@[simp] theorem State.fget_at (t : Time) (s : State) (b) (c) : State.fget (s.at t) b c = State.fget s b c := rfl
@[simp] theorem State.flag_at (t : Time) (s : State) (b) (c) : State.flag (s.at t) b c = State.flag s b c := rfl
@[simp] theorem accWord_at (t : Time) (s : State) (b) : accWord (s.at t) b = accWord s b := rfl
@[simp] theorem accessDom_at (t : Time) (s : State) (b) (c) : accessDom (s.at t) b c = accessDom s b c := rfl
@[simp] theorem accessInst_at (t : Time) (s : State) (b) (c) : accessInst (s.at t) b c = accessInst s b c := rfl
@[simp] theorem ackedAll_at (t : Time) (s : State) (b) : ackedAll (s.at t) b = ackedAll s b := rfl
@[simp] theorem ackedBy_at (t : Time) (s : State) (b) (c) : ackedBy (s.at t) b c = ackedBy s b c := rfl
@[simp] theorem actBank_at (t : Time) (s : State) : actBank (s.at t) = actBank s := rfl
@[simp] theorem activeMask_at (t : Time) (s : State) : activeMask (s.at t) = activeMask s := rfl
@[simp] theorem activePhases_at (t : Time) (s : State) : activePhases (s.at t) = activePhases s := rfl
@[simp] theorem adcCfgRest_at (t : Time) (s : State) (b) : adcCfgRest (s.at t) b = adcCfgRest s b := rfl
@[simp] theorem adcEnCheck_at (t : Time) (s : State) (b) (c) : adcEnCheck (s.at t) b c = adcEnCheck s b c := rfl
@[simp] theorem adcOf_at (t : Time) (s : State) (b) : adcOf (s.at t) b = adcOf s b := rfl
@[simp] theorem addCond_at (t : Time) (s : State) : addCond (s.at t) = addCond s := rfl
@[simp] theorem addrDom_at (t : Time) (s : State) (b) (c) : addrDom (s.at t) b c = addrDom s b c := rfl
@[simp] theorem applyCycle_at (t : Time) (s : State) (b) (c) : applyCycle (s.at t) b c = applyCycle s b c := rfl
@[simp] theorem armCap_at (t : Time) (s : State) (b) (c) (d) : armCap (s.at t) b c d = armCap s b c d := rfl
@[simp] theorem armCells_at (t : Time) (s : State) (b) : armCells (s.at t) b = armCells s b := rfl
@[simp] theorem armCheck_at (t : Time) (s : State) (b) (c) (d) (e) (f) :
    armCheck (s.at t) b c d e f = armCheck s b c d e f := rfl
@[simp] theorem armCmds_at (t : Time) (s : State) (b) (c) (d) (e) (f) (g) (h) :
    armCmds (s.at t) b c d e f g h = armCmds s b c d e f g h := rfl
@[simp] theorem armPhase_at (t : Time) (s : State) (b) : armPhase (s.at t) b = armPhase s b := rfl
@[simp] theorem armShort_at (t : Time) (s : State) (b) : armShort (s.at t) b = armShort s b := rfl
@[simp] theorem armsFull_at (t : Time) (s : State) (b) : armsFull (s.at t) b = armsFull s b := rfl
@[simp] theorem bankBusy_at (t : Time) (s : State) (b) : bankBusy (s.at t) b = bankBusy s b := rfl
@[simp] theorem bankCheck_at (t : Time) (s : State) (b) : bankCheck (s.at t) b = bankCheck s b := rfl
@[simp] theorem bankCrc_at (t : Time) (s : State) (b) : bankCrc (s.at t) b = bankCrc s b := rfl
@[simp] theorem bankW_at (t : Time) (s : State) (b) (c) : bankW (s.at t) b c = bankW s b c := rfl
@[simp] theorem billClass_at (t : Time) (s : State) (b) : billClass (s.at t) b = billClass s b := rfl
@[simp] theorem billCost_at (t : Time) (s : State) (b) (c) : billCost (s.at t) b c = billCost s b c := rfl
@[simp] theorem billDeadline_at (t : Time) (s : State) : billDeadline (s.at t) = billDeadline s := rfl
@[simp] theorem billFast_at (t : Time) (s : State) : billFast (s.at t) = billFast s := rfl
@[simp] theorem billOvr_at (t : Time) (s : State) : billOvr (s.at t) = billOvr s := rfl
@[simp] theorem billStart_at (t : Time) (s : State) : billStart (s.at t) = billStart s := rfl
@[simp] theorem blkCheck_at (t : Time) (s : State) (b) (c) : blkCheck (s.at t) b c = blkCheck s b c := rfl
@[simp] theorem blkEnt_at (t : Time) (s : State) (b) (c) : blkEnt (s.at t) b c = blkEnt s b c := rfl
@[simp] theorem blockTs_at (t : Time) (s : State) (b) (c) : blockTs (s.at t) b c = blockTs s b c := rfl
@[simp] theorem boundAt_at (t : Time) (s : State) (b) : boundAt (s.at t) b = boundAt s b := rfl
@[simp] theorem brokenCount_at (t : Time) (s : State) (b) : brokenCount (s.at t) b = brokenCount s b := rfl
@[simp] theorem busNeedC_at (t : Time) (s : State) (b) (c) (d) : busNeedC (s.at t) b c d = busNeedC s b c d := rfl
@[simp] theorem capConvStatus_at (t : Time) (s : State) (b) : capConvStatus (s.at t) b = capConvStatus s b := rfl
@[simp] theorem capMcfgWord_at (t : Time) (s : State) (b) : capMcfgWord (s.at t) b = capMcfgWord s b := rfl
@[simp] theorem capOf_at (t : Time) (s : State) (b) (c) : capOf (s.at t) b c = capOf s b c := rfl
@[simp] theorem capRegions_at (t : Time) (s : State) (b) : capRegions (s.at t) b = capRegions s b := rfl
@[simp] theorem capSrcWord_at (t : Time) (s : State) (b) : capSrcWord (s.at t) b = capSrcWord s b := rfl
@[simp] theorem capsHeld_at (t : Time) (s : State) (b) : capsHeld (s.at t) b = capsHeld s b := rfl
@[simp] theorem capsOut_at (t : Time) (s : State) (b) (c) : capsOut (s.at t) b c = capsOut s b c := rfl
@[simp] theorem capsSame_at (t : Time) (s : State) (b) : capsSame (s.at t) b = capsSame s b := rfl
@[simp] theorem capsWired_at (t : Time) (s : State) (b) : capsWired (s.at t) b = capsWired s b := rfl
@[simp] theorem captureDbgacc_at (t : Time) (s : State) : captureDbgacc (s.at t) = captureDbgacc s := rfl
@[simp] theorem captureIr_at (t : Time) (s : State) : captureIr (s.at t) = captureIr s := rfl
@[simp] theorem carried_at (t : Time) (s : State) (b) (c) : carried (s.at t) b c = carried s b c := rfl
@[simp] theorem cellLoadOk_at (t : Time) (s : State) (b) (c) : cellLoadOk (s.at t) b c = cellLoadOk s b c := rfl
@[simp] theorem cellOwned_at (t : Time) (s : State) (b) : cellOwned (s.at t) b = cellOwned s b := rfl
@[simp] theorem cellQ_at (t : Time) (s : State) (b) (c) : cellQ (s.at t) b c = cellQ s b c := rfl
@[simp] theorem cellState_at (t : Time) (s : State) (b) : cellState (s.at t) b = cellState s b := rfl
@[simp] theorem cfgCells_at (t : Time) (s : State) : cfgCells (s.at t) = cfgCells s := rfl
@[simp] theorem cfgInForce_at (t : Time) (s : State) : cfgInForce (s.at t) = cfgInForce s := rfl
@[simp] theorem cfgOf_at (t : Time) (s : State) : cfgOf (s.at t) = cfgOf s := rfl
@[simp] theorem chainLen_at (t : Time) (s : State) (b) : chainLen (s.at t) b = chainLen s b := rfl
@[simp] theorem chanDesc_at (t : Time) (s : State) (b) (c) : chanDesc (s.at t) b c = chanDesc s b c := rfl
@[simp] theorem chsel_at (t : Time) (s : State) (b) (c) : chsel (s.at t) b c = chsel s b c := rfl
@[simp] theorem classOf_at (t : Time) (s : State) (b) : classOf (s.at t) b = classOf s b := rfl
@[simp] theorem cmdAccess_at (t : Time) (s : State) (b) : cmdAccess (s.at t) b = cmdAccess s b := rfl
@[simp] theorem cmdBadLength_at (t : Time) (s : State) (b) : cmdBadLength (s.at t) b = cmdBadLength s b := rfl
@[simp] theorem cmdDenied_at (t : Time) (s : State) (b) : cmdDenied (s.at t) b = cmdDenied s b := rfl
@[simp] theorem cmdJournaled_at (t : Time) (s : State) (b) : cmdJournaled (s.at t) b = cmdJournaled s b := rfl
@[simp] theorem cmdPoints_at (t : Time) (s : State) (b) : cmdPoints (s.at t) b = cmdPoints s b := rfl
@[simp] theorem cmdRegion_at (t : Time) (s : State) (b) : cmdRegion (s.at t) b = cmdRegion s b := rfl
@[simp] theorem cmdUnit_at (t : Time) (s : State) (b) : cmdUnit (s.at t) b = cmdUnit s b := rfl
@[simp] theorem cmdWords_at (t : Time) (s : State) (b) : cmdWords (s.at t) b = cmdWords s b := rfl
@[simp] theorem configured_at (t : Time) (s : State) (b) : configured (s.at t) b = configured s b := rfl
@[simp] theorem confirmBytes_at (t : Time) (s : State) : confirmBytes (s.at t) = confirmBytes s := rfl
@[simp] theorem confirmT_at (t : Time) (s : State) : confirmT (s.at t) = confirmT s := rfl
@[simp] theorem countSoc_at (t : Time) (s : State) (b) (c) : countSoc (s.at t) b c = countSoc s b c := rfl
@[simp] theorem ctlWord_at (t : Time) (s : State) (b) : ctlWord (s.at t) b = ctlWord s b := rfl
@[simp] theorem cycT_at (t : Time) (s : State) : cycT (s.at t) = cycT s := rfl
@[simp] theorem cycleAt_at (t : Time) (s : State) (b) : cycleAt (s.at t) b = cycleAt s b := rfl
@[simp] theorem cycleNow_at (t : Time) (s : State) : cycleNow (s.at t) = cycleNow s := rfl
@[simp] theorem devState_at (t : Time) (s : State) : devState (s.at t) = devState s := rfl
@[simp] theorem dirCheck_at (t : Time) (s : State) (b) (c) : dirCheck (s.at t) b c = dirCheck s b c := rfl
@[simp] theorem dirEnt_at (t : Time) (s : State) (b) : dirEnt (s.at t) b = dirEnt s b := rfl
@[simp] theorem dirEntAt_at (t : Time) (s : State) (b) : dirEntAt (s.at t) b = dirEntAt s b := rfl
@[simp] theorem dirWithSlot_at (t : Time) (s : State) (b) : dirWithSlot (s.at t) b = dirWithSlot s b := rfl
@[simp] theorem disturbed_at (t : Time) (s : State) (b) : disturbed (s.at t) b = disturbed s b := rfl
@[simp] theorem domMoving_at (t : Time) (s : State) (b) : domMoving (s.at t) b = domMoving s b := rfl
@[simp] theorem domOn_at (t : Time) (s : State) (b) : domOn (s.at t) b = domOn s b := rfl
@[simp] theorem domReq_at (t : Time) (s : State) (b) : domReq (s.at t) b = domReq s b := rfl
@[simp] theorem domRetired_at (t : Time) (s : State) (b) : domRetired (s.at t) b = domRetired s b := rfl
@[simp] theorem domStatus_at (t : Time) (s : State) (b) : domStatus (s.at t) b = domStatus s b := rfl
@[simp] theorem domWaiting_at (t : Time) (s : State) : domWaiting (s.at t) = domWaiting s := rfl
@[simp] theorem downHdr_at (t : Time) (s : State) (b) (c) (d) (e) : downHdr (s.at t) b c d e = downHdr s b c d e := rfl
@[simp] theorem dutyCmp_at (t : Time) (s : State) (b) (c) : dutyCmp (s.at t) b c = dutyCmp s b c := rfl
@[simp] theorem dutyInForce_at (t : Time) (s : State) (b) : dutyInForce (s.at t) b = dutyInForce s b := rfl
@[simp] theorem eccSyms_at (t : Time) (s : State) (b) (c) : eccSyms (s.at t) b c = eccSyms s b c := rfl
@[simp] theorem enabledSensors_at (t : Time) (s : State) : enabledSensors (s.at t) = enabledSensors s := rfl
@[simp] theorem entPar_at (t : Time) (s : State) (b) (c) (d) : entPar (s.at t) b c d = entPar s b c d := rfl
@[simp] theorem entPoints_at (t : Time) (s : State) (b) : entPoints (s.at t) b = entPoints s b := rfl
@[simp] theorem eqOk_at (t : Time) (s : State) (b) : eqOk (s.at t) b = eqOk s b := rfl
@[simp] theorem errV_at (t : Time) (s : State) : errV (s.at t) = errV s := rfl
@[simp] theorem ethServes_at (t : Time) (s : State) (b) : ethServes (s.at t) b = ethServes s b := rfl
@[simp] theorem executes_at (t : Time) (s : State) (b) (c) : executes (s.at t) b c = executes s b c := rfl
@[simp] theorem failedMask_at (t : Time) (s : State) : failedMask (s.at t) = failedMask s := rfl
@[simp] theorem farSid_at (t : Time) (s : State) (b) : farSid (s.at t) b = farSid s b := rfl
@[simp] theorem fetchAddr_at (t : Time) (s : State) (b) (c) : fetchAddr (s.at t) b c = fetchAddr s b c := rfl
@[simp] theorem findRec_at (t : Time) (s : State) (b) : findRec (s.at t) b = findRec s b := rfl
@[simp] theorem finePos_at (t : Time) (s : State) (b) (c) : finePos (s.at t) b c = finePos s b c := rfl
@[simp] theorem firstSource_at (t : Time) (s : State) (b) : firstSource (s.at t) b = firstSource s b := rfl
@[simp] theorem fitted_at (t : Time) (s : State) : fitted (s.at t) = fitted s := rfl
@[simp] theorem fltActive_at (t : Time) (s : State) (b) : fltActive (s.at t) b = fltActive s b := rfl
@[simp] theorem fltStamp_at (t : Time) (s : State) (b) : fltStamp (s.at t) b = fltStamp s b := rfl
@[simp] theorem forMe_at (t : Time) (s : State) (b) (c) : forMe (s.at t) b c = forMe s b c := rfl
@[simp] theorem forcedCode_at (t : Time) (s : State) (b) : forcedCode (s.at t) b = forcedCode s b := rfl
@[simp] theorem forcingGrp_at (t : Time) (s : State) (b) : forcingGrp (s.at t) b = forcingGrp s b := rfl
@[simp] theorem freeBlocks_at (t : Time) (s : State) : freeBlocks (s.at t) = freeBlocks s := rfl
@[simp] theorem frozen_at (t : Time) (s : State) (b) : frozen (s.at t) b = frozen s b := rfl
@[simp] theorem fwRuns_at (t : Time) (s : State) : fwRuns (s.at t) = fwRuns s := rfl
@[simp] theorem fwdServer_at (t : Time) (s : State) (b) : fwdServer (s.at t) b = fwdServer s b := rfl
@[simp] theorem gdLive_at (t : Time) (s : State) (b) : gdLive (s.at t) b = gdLive s b := rfl
@[simp] theorem gdOf_at (t : Time) (s : State) (b) : gdOf (s.at t) b = gdOf s b := rfl
@[simp] theorem goodPhases_at (t : Time) (s : State) : goodPhases (s.at t) = goodPhases s := rfl
@[simp] theorem groupCheck_at (t : Time) (s : State) (b) : groupCheck (s.at t) b = groupCheck s b := rfl
@[simp] theorem groupOf_at (t : Time) (s : State) (b) : groupOf (s.at t) b = groupOf s b := rfl
@[simp] theorem groupTrips_at (t : Time) (s : State) (b) : groupTrips (s.at t) b = groupTrips s b := rfl
@[simp] theorem groupValue_at (t : Time) (s : State) (b) : groupValue (s.at t) b = groupValue s b := rfl
@[simp] theorem grpCheck_at (t : Time) (s : State) (b) (c) : grpCheck (s.at t) b c = grpCheck s b c := rfl
@[simp] theorem grpCodes_at (t : Time) (s : State) (b) (c) (d) : grpCodes (s.at t) b c d = grpCodes s b c d := rfl
@[simp] theorem grpCover_at (t : Time) (s : State) (b) : grpCover (s.at t) b = grpCover s b := rfl
@[simp] theorem grpLatched_at (t : Time) (s : State) (b) : grpLatched (s.at t) b = grpLatched s b := rfl
@[simp] theorem grpMask_at (t : Time) (s : State) (b) : grpMask (s.at t) b = grpMask s b := rfl
@[simp] theorem grpSafe1_at (t : Time) (s : State) (b) (c) : grpSafe1 (s.at t) b c = grpSafe1 s b c := rfl
@[simp] theorem grpSafe2_at (t : Time) (s : State) (b) (c) : grpSafe2 (s.at t) b c = grpSafe2 s b c := rfl
@[simp] theorem hasRight_at (t : Time) (s : State) (b) (c) (d) : hasRight (s.at t) b c d = hasRight s b c d := rfl
@[simp] theorem hdrBlocks_at (t : Time) (s : State) (b) : hdrBlocks (s.at t) b = hdrBlocks s b := rfl
@[simp] theorem hdrCheck_at (t : Time) (s : State) (b) : hdrCheck (s.at t) b = hdrCheck s b := rfl
@[simp] theorem hdrDeadline_at (t : Time) (s : State) (b) : hdrDeadline (s.at t) b = hdrDeadline s b := rfl
@[simp] theorem hdrFast_at (t : Time) (s : State) (b) : hdrFast (s.at t) b = hdrFast s b := rfl
@[simp] theorem hdrIntake_at (t : Time) (s : State) (b) : hdrIntake (s.at t) b = hdrIntake s b := rfl
@[simp] theorem hdrOutlet_at (t : Time) (s : State) (b) : hdrOutlet (s.at t) b = hdrOutlet s b := rfl
@[simp] theorem hdrOvr_at (t : Time) (s : State) (b) : hdrOvr (s.at t) b = hdrOvr s b := rfl
@[simp] theorem hdrStart_at (t : Time) (s : State) (b) : hdrStart (s.at t) b = hdrStart s b := rfl
@[simp] theorem hdrT_at (t : Time) (s : State) (b) : hdrT (s.at t) b = hdrT s b := rfl
@[simp] theorem heardCells_at (t : Time) (s : State) : heardCells (s.at t) = heardCells s := rfl
@[simp] theorem holderByte_at (t : Time) (s : State) : holderByte (s.at t) = holderByte s := rfl
@[simp] theorem holds_at (t : Time) (s : State) : holds (s.at t) = holds s := rfl
@[simp] theorem holdsLease_at (t : Time) (s : State) : holdsLease (s.at t) = holdsLease s := rfl
@[simp] theorem ibatLow_at (t : Time) (s : State) (b) : ibatLow (s.at t) b = ibatLow s b := rfl
@[simp] theorem idleFrame_at (t : Time) (s : State) (b) (c) : idleFrame (s.at t) b c = idleFrame s b c := rfl
@[simp] theorem idleWord1_at (t : Time) (s : State) (b) : idleWord1 (s.at t) b = idleWord1 s b := rfl
@[simp] theorem imageLoadChecks_at (t : Time) (s : State) (b) : imageLoadChecks (s.at t) b = imageLoadChecks s b := rfl
@[simp] theorem imageWriteChecks_at (t : Time) (s : State) (b) :
    imageWriteChecks (s.at t) b = imageWriteChecks s b := rfl
@[simp] theorem inItems_at (t : Time) (s : State) (b) : inItems (s.at t) b = inItems s b := rfl
@[simp] theorem inNetboot_at (t : Time) (s : State) : inNetboot (s.at t) = inNetboot s := rfl
@[simp] theorem inService_at (t : Time) (s : State) : inService (s.at t) = inService s := rfl
@[simp] theorem ingress_at (t : Time) (s : State) (b) : ingress (s.at t) b = ingress s b := rfl
@[simp] theorem innerMax_at (t : Time) (s : State) (b) : innerMax (s.at t) b = innerMax s b := rfl
@[simp] theorem instRetired_at (t : Time) (s : State) (b) (c) : instRetired (s.at t) b c = instRetired s b c := rfl
@[simp] theorem instStatus_at (t : Time) (s : State) (b) (c) : instStatus (s.at t) b c = instStatus s b c := rfl
@[simp] theorem intakeCheck_at (t : Time) (s : State) (b) : intakeCheck (s.at t) b = intakeCheck s b := rfl
@[simp] theorem intakeEnt_at (t : Time) (s : State) (b) (c) : intakeEnt (s.at t) b c = intakeEnt s b c := rfl
@[simp] theorem ioEnt_at (t : Time) (s : State) (b) (c) (d) : ioEnt (s.at t) b c d = ioEnt s b c d := rfl
@[simp] theorem isCand_at (t : Time) (s : State) : isCand (s.at t) = isCand s := rfl
@[simp] theorem isChainLane_at (t : Time) (s : State) (b) : isChainLane (s.at t) b = isChainLane s b := rfl
@[simp] theorem isDownPort_at (t : Time) (s : State) (b) : isDownPort (s.at t) b = isDownPort s b := rfl
@[simp] theorem isEthLane_at (t : Time) (s : State) (b) : isEthLane (s.at t) b = isEthLane s b := rfl
@[simp] theorem isPeerLane_at (t : Time) (s : State) (b) : isPeerLane (s.at t) b = isPeerLane s b := rfl
@[simp] theorem isRacked_at (t : Time) (s : State) (b) : isRacked (s.at t) b = isRacked s b := rfl
@[simp] theorem isStack_at (t : Time) (s : State) : isStack (s.at t) = isStack s := rfl
@[simp] theorem isUpPort_at (t : Time) (s : State) (b) : isUpPort (s.at t) b = isUpPort s b := rfl
@[simp] theorem isYarid_at (t : Time) (s : State) (b) : isYarid (s.at t) b = isYarid s b := rfl
@[simp] theorem itemCost_at (t : Time) (s : State) (b) : itemCost (s.at t) b = itemCost s b := rfl
@[simp] theorem jnlFull_at (t : Time) (s : State) : jnlFull (s.at t) = jnlFull s := rfl
@[simp] theorem jnlUnread_at (t : Time) (s : State) : jnlUnread (s.at t) = jnlUnread s := rfl
@[simp] theorem journaled_at (t : Time) (s : State) (b) : journaled (s.at t) b = journaled s b := rfl
@[simp] theorem kilnFactor_at (t : Time) (s : State) : kilnFactor (s.at t) = kilnFactor s := rfl
@[simp] theorem knownEpoch_at (t : Time) (s : State) : knownEpoch (s.at t) = knownEpoch s := rfl
@[simp] theorem laneActive_at (t : Time) (s : State) (b) : laneActive (s.at t) b = laneActive s b := rfl
@[simp] theorem laneKept_at (t : Time) (s : State) (b) : laneKept (s.at t) b = laneKept s b := rfl
@[simp] theorem laneMaster_at (t : Time) (s : State) (b) : laneMaster (s.at t) b = laneMaster s b := rfl
@[simp] theorem laneState_at (t : Time) (s : State) (b) : laneState (s.at t) b = laneState s b := rfl
@[simp] theorem laneUsed_at (t : Time) (s : State) (b) : laneUsed (s.at t) b = laneUsed s b := rfl
@[simp] theorem laneWanted_at (t : Time) (s : State) (b) : laneWanted (s.at t) b = laneWanted s b := rfl
@[simp] theorem lastClosed_at (t : Time) (s : State) : lastClosed (s.at t) = lastClosed s := rfl
@[simp] theorem lastInstant_at (t : Time) (s : State) (b) (c) : lastInstant (s.at t) b c = lastInstant s b c := rfl
@[simp] theorem latchOf_at (t : Time) (s : State) (b) : latchOf (s.at t) b = latchOf s b := rfl
@[simp] theorem latchedSafe_at (t : Time) (s : State) (b) : latchedSafe (s.at t) b = latchedSafe s b := rfl
@[simp] theorem leaseT_at (t : Time) (s : State) : leaseT (s.at t) = leaseT s := rfl
@[simp] theorem lenOf_at (t : Time) (s : State) (b) : lenOf (s.at t) b = lenOf s b := rfl
@[simp] theorem liveChans_at (t : Time) (s : State) : liveChans (s.at t) = liveChans s := rfl
@[simp] theorem livePeers_at (t : Time) (s : State) : livePeers (s.at t) = livePeers s := rfl
@[simp] theorem lnOf_at (t : Time) (s : State) (b) : lnOf (s.at t) b = lnOf s b := rfl
@[simp] theorem loopT_at (t : Time) (s : State) : loopT (s.at t) = loopT s := rfl
@[simp] theorem m3Rights_at (t : Time) (s : State) (b) : m3Rights (s.at t) b = m3Rights s b := rfl
@[simp] theorem mainResponse_at (t : Time) (s : State) (b) : mainResponse (s.at t) b = mainResponse s b := rfl
@[simp] theorem mashRuns_at (t : Time) (s : State) : mashRuns (s.at t) = mashRuns s := rfl
@[simp] theorem maskIndex_at (t : Time) (s : State) (b) (c) (d) : maskIndex (s.at t) b c d = maskIndex s b c d := rfl
@[simp] theorem maskViol_at (t : Time) (s : State) (b) (c) (d) : maskViol (s.at t) b c d = maskViol s b c d := rfl
@[simp] theorem mayStep_at (t : Time) (s : State) : mayStep (s.at t) = mayStep s := rfl
@[simp] theorem mbxBusy_at (t : Time) (s : State) (b) (c) : mbxBusy (s.at t) b c = mbxBusy s b c := rfl
@[simp] theorem mbxByte_at (t : Time) (s : State) (b) (c) : mbxByte (s.at t) b c = mbxByte s b c := rfl
@[simp] theorem mbxBytes_at (t : Time) (s : State) (b) (c) (d) : mbxBytes (s.at t) b c d = mbxBytes s b c d := rfl
@[simp] theorem mbxNum_at (t : Time) (s : State) (b) (c) (d) : mbxNum (s.at t) b c d = mbxNum s b c d := rfl
@[simp] theorem members_at (t : Time) (s : State) (b) : members (s.at t) b = members s b := rfl
@[simp] theorem mineIp_at (t : Time) (s : State) (b) : mineIp (s.at t) b = mineIp s b := rfl
@[simp] theorem mirrorWords_at (t : Time) (s : State) : mirrorWords (s.at t) = mirrorWords s := rfl
@[simp] theorem myChain_at (t : Time) (s : State) : myChain (s.at t) = myChain s := rfl
@[simp] theorem myPos_at (t : Time) (s : State) : myPos (s.at t) = myPos s := rfl
@[simp] theorem needsLease_at (t : Time) (s : State) (b) : needsLease (s.at t) b = needsLease s b := rfl
@[simp] theorem netAt_at (t : Time) (s : State) (b) : netAt (s.at t) b = netAt s b := rfl
@[simp] theorem netbootTakes_at (t : Time) (s : State) (b) (c) : netbootTakes (s.at t) b c = netbootTakes s b c := rfl
@[simp] theorem nextClass_at (t : Time) (s : State) (b) : nextClass (s.at t) b = nextClass s b := rfl
@[simp] theorem nextLevel_at (t : Time) (s : State) (b) (c) (d) : nextLevel (s.at t) b c d = nextLevel s b c d := rfl
@[simp] theorem nextReload_at (t : Time) (s : State) (b) : nextReload (s.at t) b = nextReload s b := rfl
@[simp] theorem nodeAll_at (t : Time) (s : State) (b) : nodeAll (s.at t) b = nodeAll s b := rfl
@[simp] theorem nodeQ_at (t : Time) (s : State) (b) : nodeQ (s.at t) b = nodeQ s b := rfl
@[simp] theorem nodeS_at (t : Time) (s : State) (b) : nodeS (s.at t) b = nodeS s b := rfl
@[simp] theorem nodeW_at (t : Time) (s : State) (b) : nodeW (s.at t) b = nodeW s b := rfl
@[simp] theorem now1_at (t : Time) (s : State) (b) : now1 (s.at t) b = now1 s b := rfl
@[simp] theorem now2_at (t : Time) (s : State) (b) : now2 (s.at t) b = now2 s b := rfl
@[simp] theorem offerImage_at (t : Time) (s : State) (b) : offerImage (s.at t) b = offerImage s b := rfl
@[simp] theorem offerSlot_at (t : Time) (s : State) (b) : offerSlot (s.at t) b = offerSlot s b := rfl
@[simp] theorem oneShot_at (t : Time) (s : State) (b) : oneShot (s.at t) b = oneShot s b := rfl
@[simp] theorem opOf_at (t : Time) (s : State) (b) : opOf (s.at t) b = opOf s b := rfl
@[simp] theorem openCond_at (t : Time) (s : State) (b) (c) : openCond (s.at t) b c = openCond s b c := rfl
@[simp] theorem openShort_at (t : Time) (s : State) (b) : openShort (s.at t) b = openShort s b := rfl
@[simp] theorem optSkipped_at (t : Time) (s : State) (b) : optSkipped (s.at t) b = optSkipped s b := rfl
@[simp] theorem outItems_at (t : Time) (s : State) (b) : outItems (s.at t) b = outItems s b := rfl
@[simp] theorem outletCheck_at (t : Time) (s : State) (b) : outletCheck (s.at t) b = outletCheck s b := rfl
@[simp] theorem outletEnt_at (t : Time) (s : State) (b) (c) : outletEnt (s.at t) b c = outletEnt s b c := rfl
@[simp] theorem ownOrigin_at (t : Time) (s : State) : ownOrigin (s.at t) = ownOrigin s := rfl
@[simp] theorem ownSid_at (t : Time) (s : State) : ownSid (s.at t) = ownSid s := rfl
@[simp] theorem parW_at (t : Time) (s : State) (b) (c) : parW (s.at t) b c = parW s b c := rfl
@[simp] theorem paramCheck_at (t : Time) (s : State) : paramCheck (s.at t) = paramCheck s := rfl
@[simp] theorem pathOk_at (t : Time) (s : State) (b) (c) : pathOk (s.at t) b c = pathOk s b c := rfl
@[simp] theorem peerLane_at (t : Time) (s : State) (b) : peerLane (s.at t) b = peerLane s b := rfl
@[simp] theorem peerLoadStatus_at (t : Time) (s : State) (b) : peerLoadStatus (s.at t) b = peerLoadStatus s b := rfl
@[simp] theorem peerLost_at (t : Time) (s : State) : peerLost (s.at t) = peerLost s := rfl
@[simp] theorem peerRuns_at (t : Time) (s : State) (b) : peerRuns (s.at t) b = peerRuns s b := rfl
@[simp] theorem peerSeen_at (t : Time) (s : State) (b) : peerSeen (s.at t) b = peerSeen s b := rfl
@[simp] theorem periodOf_at (t : Time) (s : State) (b) : periodOf (s.at t) b = periodOf s b := rfl
@[simp] theorem phaseCells_at (t : Time) (s : State) (b) : phaseCells (s.at t) b = phaseCells s b := rfl
@[simp] theorem phaseLag_at (t : Time) (s : State) (b) : phaseLag (s.at t) b = phaseLag s b := rfl
@[simp] theorem phaseRef_at (t : Time) (s : State) (b) : phaseRef (s.at t) b = phaseRef s b := rfl
@[simp] theorem piOf_at (t : Time) (s : State) (b) : piOf (s.at t) b = piOf s b := rfl
@[simp] theorem pinCode_at (t : Time) (s : State) (b) : pinCode (s.at t) b = pinCode s b := rfl
@[simp] theorem poBalls_at (t : Time) (s : State) : poBalls (s.at t) = poBalls s := rfl
@[simp] theorem pointAddr_at (t : Time) (s : State) (b) : pointAddr (s.at t) b = pointAddr s b := rfl
@[simp] theorem pointChecks_at (t : Time) (s : State) (b) : pointChecks (s.at t) b = pointChecks s b := rfl
@[simp] theorem pointChecks.portsFixedOr_at (t : Time) (s : State) :
    pointChecks.portsFixedOr (s.at t) = pointChecks.portsFixedOr s := rfl
@[simp] theorem pointUpd_at (t : Time) (s : State) (b) : pointUpd (s.at t) b = pointUpd s b := rfl
@[simp] theorem portIp_at (t : Time) (s : State) (b) : portIp (s.at t) b = portIp s b := rfl
@[simp] theorem portUp_at (t : Time) (s : State) (b) : portUp (s.at t) b = portUp s b := rfl
@[simp] theorem portsFixed_at (t : Time) (s : State) : portsFixed (s.at t) = portsFixed s := rfl
@[simp] theorem postRoom_at (t : Time) (s : State) (b) : postRoom (s.at t) b = postRoom s b := rfl
@[simp] theorem predict_at (t : Time) (s : State) (b) : predict (s.at t) b = predict s b := rfl
@[simp] theorem present_at (t : Time) (s : State) (b) (c) : present (s.at t) b c = present s b c := rfl
@[simp] theorem presetState_at (t : Time) (s : State) : presetState (s.at t) = presetState s := rfl
@[simp] theorem prevQ_at (t : Time) (s : State) (b) (c) : prevQ (s.at t) b c = prevQ s b c := rfl
@[simp] theorem prm_at (t : Time) (s : State) (b) (c) : prm (s.at t) b c = prm s b c := rfl
@[simp] theorem profileBall_at (t : Time) (s : State) (b) : profileBall (s.at t) b = profileBall s b := rfl
@[simp] theorem ptOfSlot_at (t : Time) (s : State) (b) : ptOfSlot (s.at t) b = ptOfSlot s b := rfl
@[simp] theorem ptSlots_at (t : Time) (s : State) : ptSlots (s.at t) = ptSlots s := rfl
@[simp] theorem ptValid_at (t : Time) (s : State) (b) : ptValid (s.at t) b = ptValid s b := rfl
@[simp] theorem ptWord_at (t : Time) (s : State) (b) : ptWord (s.at t) b = ptWord s b := rfl
@[simp] theorem ptpOf_at (t : Time) (s : State) (b) : ptpOf (s.at t) b = ptpOf s b := rfl
@[simp] theorem published_at (t : Time) (s : State) (b) : published (s.at t) b = published s b := rfl
@[simp] theorem pullFlows_at (t : Time) (s : State) (b) (c) (d) : pullFlows (s.at t) b c d = pullFlows s b c d := rfl
@[simp] theorem pullTaken_at (t : Time) (s : State) (b) (c) : pullTaken (s.at t) b c = pullTaken s b c := rfl
@[simp] theorem pwmOf_at (t : Time) (s : State) (b) : pwmOf (s.at t) b = pwmOf s b := rfl
@[simp] theorem pwmPeriod_at (t : Time) (s : State) (b) : pwmPeriod (s.at t) b = pwmPeriod s b := rfl
@[simp] theorem qspiReady_at (t : Time) (s : State) : qspiReady (s.at t) = qspiReady s := rfl
@[simp] theorem qv_at (t : Time) (s : State) (b) : qv (s.at t) b = qv s b := rfl
@[simp] theorem rackedEnts_at (t : Time) (s : State) : rackedEnts (s.at t) = rackedEnts s := rfl
@[simp] theorem readStatus_at (t : Time) (s : State) (b) (c) (d) : readStatus (s.at t) b c d = readStatus s b c d := rfl
@[simp] theorem readyDomains_at (t : Time) (s : State) : readyDomains (s.at t) = readyDomains s := rfl
@[simp] theorem refWord_at (t : Time) (s : State) (b) : refWord (s.at t) b = refWord s b := rfl
@[simp] theorem regInst_at (t : Time) (s : State) (b) (c) (d) (e) : regInst (s.at t) b c d e = regInst s b c d e := rfl
@[simp] theorem regWord_at (t : Time) (s : State) (b) (c) : regWord (s.at t) b c = regWord s b c := rfl
@[simp] theorem relays_at (t : Time) (s : State) (b) (c) : relays (s.at t) b c = relays s b c := rfl
@[simp] theorem requests_at (t : Time) (s : State) (b) (c) : requests (s.at t) b c = requests s b c := rfl
@[simp] theorem retOf_at (t : Time) (s : State) (b) : retOf (s.at t) b = retOf s b := rfl
@[simp] theorem rightsOf_at (t : Time) (s : State) (b) (c) : rightsOf (s.at t) b c = rightsOf s b c := rfl
@[simp] theorem roleUses_at (t : Time) (s : State) (b) : roleUses (s.at t) b = roleUses s b := rfl
@[simp] theorem romServes_at (t : Time) (s : State) : romServes (s.at t) = romServes s := rfl
@[simp] theorem routeOk_at (t : Time) (s : State) (b) : routeOk (s.at t) b = routeOk s b := rfl
@[simp] theorem rspHdr_at (t : Time) (s : State) (b) : rspHdr (s.at t) b = rspHdr s b := rfl
@[simp] theorem rstCauseWord_at (t : Time) (s : State) : rstCauseWord (s.at t) = rstCauseWord s := rfl
@[simp] theorem running_at (t : Time) (s : State) : running (s.at t) = running s := rfl
@[simp] theorem runningMask_at (t : Time) (s : State) : runningMask (s.at t) = runningMask s := rfl
@[simp] theorem sBroken_at (t : Time) (s : State) (b) : sBroken (s.at t) b = sBroken s b := rfl
@[simp] theorem scanHolds_at (t : Time) (s : State) : scanHolds (s.at t) = scanHolds s := rfl
@[simp] theorem score_at (t : Time) (s : State) (b) : score (s.at t) b = score s b := rfl
@[simp] theorem seenOf_at (t : Time) (s : State) (b) : seenOf (s.at t) b = seenOf s b := rfl
@[simp] theorem segHdr_at (t : Time) (s : State) (b) (c) (d) : segHdr (s.at t) b c d = segHdr s b c d := rfl
@[simp] theorem sendsCmds_at (t : Time) (s : State) : sendsCmds (s.at t) = sendsCmds s := rfl
@[simp] theorem seqOf_at (t : Time) (s : State) (b) : seqOf (s.at t) b = seqOf s b := rfl
@[simp] theorem servedNow_at (t : Time) (s : State) (b) : servedNow (s.at t) b = servedNow s b := rfl
@[simp] theorem servoWn_at (t : Time) (s : State) : servoWn (s.at t) = servoWn s := rfl
@[simp] theorem shedCond_at (t : Time) (s : State) : shedCond (s.at t) = shedCond s := rfl
@[simp] theorem shedOrder_at (t : Time) (s : State) : shedOrder (s.at t) = shedOrder s := rfl
@[simp] theorem shipPll_at (t : Time) (s : State) (b) (c) (d) : shipPll (s.at t) b c d = shipPll s b c d := rfl
@[simp] theorem shippedOn_at (t : Time) (s : State) : shippedOn (s.at t) = shippedOn s := rfl
@[simp] theorem skipCount_at (t : Time) (s : State) (b) (c) (d) : skipCount (s.at t) b c d = skipCount s b c d := rfl
@[simp] theorem slotEnt_at (t : Time) (s : State) (b) : slotEnt (s.at t) b = slotEnt s b := rfl
@[simp] theorem slotMeta_at (t : Time) (s : State) (b) : slotMeta (s.at t) b = slotMeta s b := rfl
@[simp] theorem slotOf_at (t : Time) (s : State) (b) : slotOf (s.at t) b = slotOf s b := rfl
@[simp] theorem slotOrder_at (t : Time) (s : State) (b) : slotOrder (s.at t) b = slotOrder s b := rfl
@[simp] theorem slotTag_at (t : Time) (s : State) (b) : slotTag (s.at t) b = slotTag s b := rfl
@[simp] theorem slotValid_at (t : Time) (s : State) (b) : slotValid (s.at t) b = slotValid s b := rfl
@[simp] theorem slotValue_at (t : Time) (s : State) (b) : slotValue (s.at t) b = slotValue s b := rfl
@[simp] theorem slotsOf_at (t : Time) (s : State) (b) : slotsOf (s.at t) b = slotsOf s b := rfl
@[simp] theorem socWord_at (t : Time) (s : State) : socWord (s.at t) = socWord s := rfl
@[simp] theorem sprInputs_at (t : Time) (s : State) : sprInputs (s.at t) = sprInputs s := rfl
@[simp] theorem sprOwns_at (t : Time) (s : State) (b) : sprOwns (s.at t) b = sprOwns s b := rfl
@[simp] theorem sprOwnsConv_at (t : Time) (s : State) (b) : sprOwnsConv (s.at t) b = sprOwnsConv s b := rfl
@[simp] theorem sprState_at (t : Time) (s : State) : sprState (s.at t) = sprState s := rfl
@[simp] theorem srcFlag_at (t : Time) (s : State) (b) : srcFlag (s.at t) b = srcFlag s b := rfl
@[simp] theorem stQ_at (t : Time) (s : State) (b) : stQ (s.at t) b = stQ s b := rfl
@[simp] theorem stWords_at (t : Time) (s : State) (b) (c) : stWords (s.at t) b c = stWords s b c := rfl
@[simp] theorem stackCount_at (t : Time) (s : State) : stackCount (s.at t) = stackCount s := rfl
@[simp] theorem stagedCheck_at (t : Time) (s : State) (b) (c) : stagedCheck (s.at t) b c = stagedCheck s b c := rfl
@[simp] theorem stagedNeedC_at (t : Time) (s : State) (b) (c) : stagedNeedC (s.at t) b c = stagedNeedC s b c := rfl
@[simp] theorem stampAt_at (t : Time) (s : State) (b) : stampAt (s.at t) b = stampAt s b := rfl
@[simp] theorem startCheck_at (t : Time) (s : State) : startCheck (s.at t) = startCheck s := rfl
@[simp] theorem staticPull_at (t : Time) (s : State) (b) : staticPull (s.at t) b = staticPull s b := rfl
@[simp] theorem strapsMatch_at (t : Time) (s : State) (b) : strapsMatch (s.at t) b = strapsMatch s b := rfl
@[simp] theorem structBusy_at (t : Time) (s : State) : structBusy (s.at t) = structBusy s := rfl
@[simp] theorem sumI_at (t : Time) (s : State) : sumI (s.at t) = sumI s := rfl
@[simp] theorem swapBusy_at (t : Time) (s : State) : swapBusy (s.at t) = swapBusy s := rfl
@[simp] theorem tabBusy_at (t : Time) (s : State) (b) : tabBusy (s.at t) b = tabBusy s b := rfl
@[simp] theorem taskOf_at (t : Time) (s : State) (b) : taskOf (s.at t) b = taskOf s b := rfl
@[simp] theorem testNone_at (t : Time) (s : State) (b) : testNone (s.at t) b = testNone s b := rfl
@[simp] theorem thr_at (t : Time) (s : State) (b) (c) : thr (s.at t) b c = thr s b c := rfl
@[simp] theorem throttle_at (t : Time) (s : State) : throttle (s.at t) = throttle s := rfl
@[simp] theorem timePort_at (t : Time) (s : State) : timePort (s.at t) = timePort s := rfl
@[simp] theorem tmax_at (t : Time) (s : State) : tmax (s.at t) = tmax s := rfl
@[simp] theorem tokenChecks_at (t : Time) (s : State) (b) (c) : tokenChecks (s.at t) b c = tokenChecks s b c := rfl
@[simp] theorem trOf_at (t : Time) (s : State) (b) : trOf (s.at t) b = trOf s b := rfl
@[simp] theorem trigLanes_at (t : Time) (s : State) : trigLanes (s.at t) = trigLanes s := rfl
@[simp] theorem trigOf_at (t : Time) (s : State) (b) : trigOf (s.at t) b = trigOf s b := rfl
@[simp] theorem tripCause_at (t : Time) (s : State) (b) : tripCause (s.at t) b = tripCause s b := rfl
@[simp] theorem tripLive_at (t : Time) (s : State) : tripLive (s.at t) = tripLive s := rfl
@[simp] theorem upHdr_at (t : Time) (s : State) (b) (c) (d) : upHdr (s.at t) b c d = upHdr s b c d := rfl
@[simp] theorem updateOf_at (t : Time) (s : State) (b) : updateOf (s.at t) b = updateOf s b := rfl
@[simp] theorem used_at (t : Time) (s : State) (b) : used (s.at t) b = used s b := rfl
@[simp] theorem usedArms_at (t : Time) (s : State) : usedArms (s.at t) = usedArms s := rfl
@[simp] theorem usedChain_at (t : Time) (s : State) (b) : usedChain (s.at t) b = usedChain s b := rfl
@[simp] theorem usedChains_at (t : Time) (s : State) : usedChains (s.at t) = usedChains s := rfl
@[simp] theorem usesPtp_at (t : Time) (s : State) : usesPtp (s.at t) = usesPtp s := rfl
@[simp] theorem usesRetired_at (t : Time) (s : State) : usesRetired (s.at t) = usesRetired s := rfl
@[simp] theorem vBat_at (t : Time) (s : State) : vBat (s.at t) = vBat s := rfl
@[simp] theorem vLink_at (t : Time) (s : State) : vLink (s.at t) = vLink s := rfl
@[simp] theorem verify_at (t : Time) (s : State) (b) (c) (d) (e) : verify (s.at t) b c d e = verify s b c d e := rfl
@[simp] theorem verifySlot_at (t : Time) (s : State) (b) : verifySlot (s.at t) b = verifySlot s b := rfl
@[simp] theorem viewHolder_at (t : Time) (s : State) : viewHolder (s.at t) = viewHolder s := rfl
@[simp] theorem viewRec_at (t : Time) (s : State) : viewRec (s.at t) = viewRec s := rfl
@[simp] theorem voteInst_at (t : Time) (s : State) : voteInst (s.at t) = voteInst s := rfl
@[simp] theorem voteMode_at (t : Time) (s : State) : voteMode (s.at t) = voteMode s := rfl
@[simp] theorem waiting_at (t : Time) (s : State) (b) (c) : waiting (s.at t) b c = waiting s b c := rfl
@[simp] theorem waits_at (t : Time) (s : State) (b) : waits (s.at t) b = waits s b := rfl
@[simp] theorem weight_at (t : Time) (s : State) (b) : weight (s.at t) b = weight s b := rfl
@[simp] theorem winAssert_at (t : Time) (s : State) (b) : winAssert (s.at t) b = winAssert s b := rfl
@[simp] theorem winClear_at (t : Time) (s : State) (b) : winClear (s.at t) b = winClear s b := rfl
@[simp] theorem winSlot_at (t : Time) (s : State) (b) : winSlot (s.at t) b = winSlot s b := rfl
@[simp] theorem withdrawOk_at (t : Time) (s : State) : withdrawOk (s.at t) = withdrawOk s := rfl
@[simp] theorem wordsAgree_at (t : Time) (s : State) (b) (c) (d) : wordsAgree (s.at t) b c d = wordsAgree s b c d := rfl
@[simp] theorem findReg_at (t : Time) (s : State) (b) (c) (d) (e) : findReg (s.at t) b c d e = findReg s b c d e := by
  induction e with
  | nil => rfl
  | cons r l ih => simp only [findReg, ih]; rfl
@[simp] theorem writesField_at (t : Time) (s : State) (b) (c) : writesField (s.at t) b c = writesField s b c := by
  unfold writesField
  simp
@[simp] theorem secOpen_at (t : Time) (s : State) (b) (c) : secOpen (s.at t) b c = secOpen s b c := by simp [secOpen]
@[simp] theorem writeStatus_at (t : Time) (s : State) (b) (c) (d) (e) (f) (g) :
    writeStatus (s.at t) b c d e f g = writeStatus s b c d e f g := by
  unfold writeStatus writeRest
  simp

end Sys2Proof.Machine
end

