-- ==== Sys2Proof/Laws/Frames.lean ====
section
/-! SUPPORT. The frame of a state change, and what the shared operations of an access can change: one lemma for each
that says it once. -/

namespace Sys2Proof.Machine

/-! ## Frames -/

theorem sameRegs_refl (s : State) (l : List (Fld × Nat)) : s.SameRegsBut s l := fun _ _ _ => rfl

theorem sameRegs_trans {s t u : State} {l : List (Fld × Nat)} (h : s.SameRegsBut t l) (k : t.SameRegsBut u l) :
    s.SameRegsBut u l := fun G j hn => (k G j hn).trans (h G j hn)

theorem sameRegs_mono {s t : State} {l l' : List (Fld × Nat)} (h : s.SameRegsBut t l) (hl : ∀ e ∈ l, e ∈ l') :
    s.SameRegsBut t l' := fun G j hn => h G j (fun e he => hn e (hl e he))

theorem sameRegs_of_regs {s t : State} (l : List (Fld × Nat)) (h : t.regs = s.regs) : s.SameRegsBut t l :=
  fun G j _ => by unfold State.fget; rw [h]

/-- A write of a listed field instance. -/
theorem sameRegs_fset {s t : State} {l : List (Fld × Nat)} (F : Fld) (i v : Nat) (h : s.SameRegsBut t l)
    (hm : (F, i) ∈ l) : s.SameRegsBut (t.fset F i v) l := fun G j hn => by
  rw [fget_fset_other _ _ (hn _ hm)]; exact h G j hn

/-- Writes of listed field instances. -/
theorem sameRegs_fsets {s t : State} {l : List (Fld × Nat)} (w : List (Fld × Nat × Nat)) (h : s.SameRegsBut t l)
    (hm : ∀ e ∈ w, (e.1, e.2.1) ∈ l) : s.SameRegsBut (t.fsets w) l := by
  induction w generalizing t with
  | nil => exact h
  | cons e w ih =>
    exact ih (sameRegs_fset _ _ _ h (hm e (by simp))) (fun x hx => hm x (by simp [hx]))

theorem sameMem_refl (s : State) : s.SameMem s := fun _ => rfl
theorem sameMem_trans {s t u : State} (h : s.SameMem t) (k : t.SameMem u) : s.SameMem u := fun a => (k a).trans (h a)
theorem sameMem_of_mem {s t : State} (h : t.mem = s.mem) : s.SameMem t := fun a => by unfold State.byte; rw [h]

@[simp] theorem fsets_mem (s : State) (l : List (Fld × Nat × Nat)) : (s.fsets l).mem = s.mem := by
  induction l generalizing s with
  | nil => rfl
  | cons e l ih => exact ih _
@[simp] theorem fsets_pending (s : State) (l : List (Fld × Nat × Nat)) : (s.fsets l).pending = s.pending := by
  induction l generalizing s with
  | nil => rfl
  | cons e l ih => exact ih _

/-! ## The error registers -/

/-- The first error sets VALID and its details. -/
theorem recErr_first {s : State} {V M : Fld} {sets : List (Fld × Nat × Nat)} (h : s.fget V ≠ 1) :
    recErr s V M sets = (s.fset V 0 1).fsets sets := by
  unfold recErr State.flag
  have : (s.fget V == 1) = false := by simp [h]
  simp [this]

/-- A later one sets MULTI alone. -/
theorem recErr_again {s : State} {V M : Fld} {sets : List (Fld × Nat × Nat)} (h : s.fget V = 1) :
    recErr s V M sets = s.fset M 0 1 := by
  unfold recErr State.flag
  simp [h]

theorem recErr_frame (s : State) (V M : Fld) (sets : List (Fld × Nat × Nat)) :
    s.SameRegsBut (recErr s V M sets) ((V, 0) :: (M, 0) :: sets.map (fun e => (e.1, e.2.1))) := by
  by_cases h : s.fget V = 1
  · rw [recErr_again h]; exact sameRegs_fset _ _ _ (sameRegs_refl _ _) (by simp)
  · rw [recErr_first h]
    refine sameRegs_fsets _ (sameRegs_fset _ _ _ (sameRegs_refl _ _) (by simp)) ?_
    intro e he
    exact List.mem_cons_of_mem _ (List.mem_cons_of_mem _ (List.mem_map.mpr ⟨e, he, rfl⟩))

theorem recErr_mem (s : State) (V M : Fld) (sets : List (Fld × Nat × Nat)) : (recErr s V M sets).mem = s.mem := by
  by_cases h : s.fget V = 1
  · rw [recErr_again h]; rfl
  · rw [recErr_first h, fsets_mem]; rfl

/-- An error of an access changes the ACC error registers alone. -/
theorem accErr_frame (s : State) (m a : Nat) (st : Status) :
    s.SameRegsBut (accErr s m a st) [(ACC_ERR_VALID, 0), (ACC_ERR_MULTI, 0), (ACC_ERR_MASTER, 0), (ACC_ERR_STATUS, 0),
      (ACC_ERRADDR_ADDR, 0)] := recErr_frame _ _ _ _
theorem accErr_mem (s : State) (m a : Nat) (st : Status) : (accErr s m a st).mem = s.mem := recErr_mem _ _ _ _

/-- A rejection of a domain changes PWR_ERR alone. -/
theorem pwrErr_frame (s : State) (d : Nat) (st : Status) :
    s.SameRegsBut (pwrErr s d st) [(PWR_ERR_VALID, 0), (PWR_ERR_MULTI, 0), (PWR_ERR_DOM, 0), (PWR_ERR_STATUS, 0)] :=
  recErr_frame _ _ _ _
theorem pwrErr_mem (s : State) (d : Nat) (st : Status) : (pwrErr s d st).mem = s.mem := recErr_mem _ _ _ _

/-- A refused access changes the PWR and ACC error registers alone. -/
theorem recRefused_frame (s : State) (m a : Nat) (st : Status) :
    s.SameRegsBut (recRefused s m a st) [(PWR_ERR_VALID, 0), (PWR_ERR_MULTI, 0), (PWR_ERR_DOM, 0), (PWR_ERR_STATUS, 0),
      (ACC_ERR_VALID, 0), (ACC_ERR_MULTI, 0), (ACC_ERR_MASTER, 0), (ACC_ERR_STATUS, 0), (ACC_ERRADDR_ADDR, 0)] := by
  unfold recRefused
  have hp := sameRegs_mono (pwrErr_frame s (addrDom s m a) (accessDom s m a))
    (l' := [(PWR_ERR_VALID, 0), (PWR_ERR_MULTI, 0), (PWR_ERR_DOM, 0), (PWR_ERR_STATUS, 0),
      (ACC_ERR_VALID, 0), (ACC_ERR_MULTI, 0), (ACC_ERR_MASTER, 0), (ACC_ERR_STATUS, 0), (ACC_ERRADDR_ADDR, 0)])
    (fun e he => by simp only [List.mem_cons, List.not_mem_nil, or_false] at he ⊢; tauto)
  have ha (t : State) (x : Status) := sameRegs_mono (accErr_frame t m a x)
    (l' := [(PWR_ERR_VALID, 0), (PWR_ERR_MULTI, 0), (PWR_ERR_DOM, 0), (PWR_ERR_STATUS, 0),
      (ACC_ERR_VALID, 0), (ACC_ERR_MULTI, 0), (ACC_ERR_MASTER, 0), (ACC_ERR_STATUS, 0), (ACC_ERRADDR_ADDR, 0)])
    (fun e he => by simp only [List.mem_cons, List.not_mem_nil, or_false] at he ⊢; tauto)
  dsimp only
  split <;> split <;> first
    | exact sameRegs_refl _ _
    | exact ha _ _
    | exact hp
    | exact sameRegs_trans hp (ha _ _)

theorem recRefused_mem (s : State) (m a : Nat) (st : Status) : (recRefused s m a st).mem = s.mem := by
  unfold recRefused
  dsimp only
  split <;> split <;> simp [accErr_mem, pwrErr_mem]

/-- A refused write changes the PWR, ACC and SEC error registers alone; SEC_ERR only where the write is one of the SEC block
(R395). -/
theorem recWrite_frame (s : State) (m a : Nat) (rest st : Status) :
    s.SameRegsBut (recWrite s m a rest st) [(PWR_ERR_VALID, 0), (PWR_ERR_MULTI, 0), (PWR_ERR_DOM, 0), (PWR_ERR_STATUS, 0),
      (ACC_ERR_VALID, 0), (ACC_ERR_MULTI, 0), (ACC_ERR_MASTER, 0), (ACC_ERR_STATUS, 0), (ACC_ERRADDR_ADDR, 0),
      (SEC_ERR_VALID, 0), (SEC_ERR_MULTI, 0), (SEC_ERR_MASTER, 0), (SEC_ERR_STATUS, 0)] := by
  have hr := sameRegs_mono (recRefused_frame s m a rest)
    (l' := [(PWR_ERR_VALID, 0), (PWR_ERR_MULTI, 0), (PWR_ERR_DOM, 0), (PWR_ERR_STATUS, 0),
      (ACC_ERR_VALID, 0), (ACC_ERR_MULTI, 0), (ACC_ERR_MASTER, 0), (ACC_ERR_STATUS, 0), (ACC_ERRADDR_ADDR, 0),
      (SEC_ERR_VALID, 0), (SEC_ERR_MULTI, 0), (SEC_ERR_MASTER, 0), (SEC_ERR_STATUS, 0)])
    (fun e he => by simp only [List.mem_cons, List.not_mem_nil, or_false] at he ⊢; tauto)
  unfold recWrite
  dsimp only
  split
  · exact sameRegs_trans hr (sameRegs_mono (recErr_frame _ _ _ _)
      (fun e he => by simp only [List.map, List.mem_cons, List.not_mem_nil, or_false] at he ⊢; tauto))
  · exact hr

theorem recWrite_other {s : State} {m a : Nat} {rest st : Status} (h : blkOf a ≠ some .sec) :
    recWrite s m a rest st = recRefused s m a rest := by
  simp [recWrite, h]

theorem recWrite_mem (s : State) (m a : Nat) (rest st : Status) : (recWrite s m a rest st).mem = s.mem := by
  unfold recWrite
  dsimp only
  split <;> simp [secErr, recErr_mem, recRefused_mem]

/-! ## Reserved bits and the journal -/

theorem countRsvd_frame (s : State) (m a w : Nat) : s.SameRegsBut (countRsvd s m a w) [(SYS_ERRCNT_RSVD, 0)] := by
  rcases countRsvd_cases s m a w with h | h <;> rw [h]
  · exact sameRegs_refl _ _
  · exact sameRegs_fset _ _ _ (sameRegs_refl _ _) (by simp)

/-- A stored word uses up an armed injection and changes no other register. -/
theorem eccStored_frame (s : State) (mem word : Nat) : s.SameRegsBut (eccStored s mem word) [(SEC_EINJ_ARM, 0)] := by
  unfold eccStored
  dsimp only
  split
  · exact sameRegs_fset _ _ _ (sameRegs_of_regs _ rfl) (by simp)
  · exact sameRegs_of_regs _ rfl
theorem eccStored_mem (s : State) (mem word : Nat) : (eccStored s mem word).mem = s.mem := by
  unfold eccStored
  dsimp only
  split <;> rfl

/-- A journal entry changes the journal, its pointers and an armed injection alone. -/
theorem jnlAdd_frame (s : State) (m kind st addr old new : Nat) :
    s.SameRegsBut (jnlAdd s m kind st addr old new) [(ACC_JNLHEAD_HEAD, 0), (ACC_JNLCNT_LOST, 0),
      (ACC_JNLCNT_UNREAD, 0), (SEC_EINJ_ARM, 0)] := by
  unfold jnlAdd
  have h (t : State) (n k : Nat) (ht : t.regs = s.regs) := sameRegs_mono
    (sameRegs_trans (sameRegs_of_regs [(SEC_EINJ_ARM, 0)] ht) (eccStored_frame t n k))
    (l' := [(ACC_JNLHEAD_HEAD, 0), (ACC_JNLCNT_LOST, 0), (ACC_JNLCNT_UNREAD, 0), (SEC_EINJ_ARM, 0)])
    (fun e he => by simp only [List.mem_cons, List.not_mem_nil, or_false] at he ⊢; tauto)
  dsimp only
  generalize (if (decide (kind ≤ 1) && s.mbx.jnlClk == pd0Clk s.clk + 1) = true then s.mbx.jnlRun else 0) = run
  generalize (if kind ≤ 1 then run + 1 else 0) = run'
  split <;> refine sameRegs_fset _ _ _ (sameRegs_fset _ _ _ (h _ _ _ rfl) (by simp)) (by simp)
theorem jnlAdd_mem (s : State) (m kind st addr old new : Nat) : (jnlAdd s m kind st addr old new).mem = s.mem := by
  unfold jnlAdd
  dsimp only
  generalize (if (decide (kind ≤ 1) && s.mbx.jnlClk == pd0Clk s.clk + 1) = true then s.mbx.jnlRun else 0) = run
  generalize (if kind ≤ 1 then run + 1 else 0) = run'
  split <;> exact eccStored_mem _ _ _

theorem noted_frame {s r : State} (m a w : Nat) : r.SameRegsBut (s.noted m a w r) [(ACC_JNLHEAD_HEAD, 0),
    (ACC_JNLCNT_LOST, 0), (ACC_JNLCNT_UNREAD, 0), (SEC_EINJ_ARM, 0)] := by
  unfold State.noted
  split
  · exact jnlAdd_frame _ _ _ _ _ _ _
  · exact sameRegs_refl _ _
theorem noted_mem {s r : State} (m a w : Nat) : (s.noted m a w r).mem = r.mem := by
  unfold State.noted
  split
  · exact jnlAdd_mem _ _ _ _ _ _ _
  · rfl

/-! ## Registers under a frame -/

/-- A field instance that the frame does not list reads as before. -/
theorem sameRegs_fget {s t : State} {l : List (Fld × Nat)} (h : s.SameRegsBut t l) (G : Fld) (j : Nat) (hj : j < 2048)
    (hl : l.all (fun e => decide (e.2 < 2048) && (G.addr * 32 + G.lo != e.1.addr * 32 + e.1.lo)) = true) :
    t.fget G j = s.fget G j := by
  refine h G j (fun e he => ?_)
  have := List.all_eq_true.mp hl e he
  simp only [Bool.and_eq_true, decide_eq_true_eq, bne_iff_ne] at this
  exact Fld.key_ne this.1 hj this.2

/-- The first status of a list whose head is not OK is not OK. -/
theorem firstStatus_ne_ok {l : List Status} {x : Status} (hx : x ∈ l) (h : x ≠ .ok) : firstStatus l ≠ .ok := by
  induction l with
  | nil => cases hx
  | cons y l ih =>
    rcases List.mem_cons.mp hx with rfl | hx
    · unfold firstStatus
      generalize firstStatus l = b
      cases x <;> cases b <;> simp_all [Status.rank]
    · have hb := ih hx
      unfold firstStatus
      generalize firstStatus l = b at hb
      cases y <;> cases b <;> simp_all [Status.rank]

end Sys2Proof.Machine
end

