-- ==== Sys2Proof/Laws/Mailbox.lean ====
section
/-! SUPPORT. What the mailbox buffers hold after bytes are put there, and what becomes of a command that runs. -/

namespace Sys2Proof.Machine

/-- The bytes of a number spell it again. -/
theorem leNat_leBytes (n v : Nat) : leNat (leBytes n v) = v % 256 ^ n := by
  induction n generalizing v with
  | zero => simp [leBytes, leNat, Nat.mod_one]
  | succ n ih => simp [leBytes, leNat, ih, Nat.pow_succ, Nat.mul_comm _ 256, Nat.mod_mul]

@[simp] theorem leBytes_length (n v : Nat) : (leBytes n v).length = n := by
  induction n generalizing v with
  | zero => rfl
  | succ n ih => simp [leBytes, ih]

/-- Putting bytes into a mailbox changes nothing but the buffers. -/
theorem mbxPut_frame (s : State) (i o : Nat) (l : List Nat) :
    mbxPut s i o l = { s with mbx.buf := (mbxPut s i o l).mbx.buf } := by
  induction l generalizing s o with
  | nil => rfl
  | cons b bs ih => rw [mbxPut, ih]

/-- A byte of a mailbox after bytes are put into it. -/
theorem mbxByte_put (s : State) (i o : Nat) (l : List Nat) (p : Nat) :
    mbxByte (mbxPut s i o l) i p = if o ≤ p ∧ p < o + l.length then l.getD (p - o) 0 % 256 else mbxByte s i p := by
  induction l generalizing s o with
  | nil => simp [mbxPut]
  | cons b bs ih =>
    rw [mbxPut, ih]
    by_cases h : p = o
    · subst h; simp [mbxByte, smGet_set_same]
    · have e : i * 4096 + p ≠ i * 4096 + o := by omega
      by_cases g : o ≤ p ∧ p < o + (b :: bs).length
      · obtain ⟨k, rfl⟩ : ∃ k, p = o + 1 + k := ⟨p - (o + 1), by omega⟩
        have g' : o + 1 ≤ o + 1 + k ∧ o + 1 + k < o + 1 + bs.length := by simp at g; omega
        rw [if_pos g, if_pos g', show o + 1 + k - o = k + 1 by omega]; simp
      · have g' : ¬ (o + 1 ≤ p ∧ p < o + 1 + bs.length) := by simp at g; omega
        rw [if_neg g, if_neg g']; simp [mbxByte, smGet_set_other 0 0 s.mbx.buf (b % 256) e]

/-- The bytes that were put there are read back, as a number. -/
theorem mbxNum_put_same (s : State) (i o : Nat) (l : List Nat) :
    mbxNum (mbxPut s i o l) i o l.length = leNat (l.map (· % 256)) := by
  have : (List.range l.length).map (fun j => mbxByte (mbxPut s i o l) i (o + j)) = l.map (· % 256) := by
    apply List.ext_getElem
    · simp
    · intro k h1 h2
      have : k < l.length := by simpa using h1
      simp [mbxByte_put, this]
  rw [mbxNum, this]

/-- Bytes elsewhere in the mailbox are not changed. -/
theorem mbxNum_put_other (s : State) (i o n p : Nat) (l : List Nat) (h : o + n ≤ p ∨ p + l.length ≤ o) :
    mbxNum (mbxPut s i p l) i o n = mbxNum s i o n := by
  have : (List.range n).map (fun j => mbxByte (mbxPut s i p l) i (o + j)) = (List.range n).map (fun j => mbxByte s i (o + j)) := by
    apply List.map_congr_left
    intro j hj
    have := List.mem_range.mp hj
    rw [mbxByte_put, if_neg (by omega)]
  rw [mbxNum, this]; rfl

theorem leNat_mod (l : List Nat) : leNat (l.map (· % 256)) = leNat l := by
  induction l with
  | nil => rfl
  | cons b bs ih => simp [leNat, ih]

/-- A served command has its act's effect. -/
theorem serve_of_serves {s : State} {k op : Nat} (act : State → State) (h : s.Serves k op) :
    serve s k op act = act s := by
  obtain ⟨⟨h1, h2, h3, h4⟩, h5⟩ := h
  simp [serve, h1, h2, h3, h4, h5]

/-- One that runs and fails a check is answered with the first status of R12. -/
theorem serve_of_refused {s : State} {k op : Nat} (act : State → State) (h : s.Runs k op) (hs : cmdStatus s k ≠ .ok) :
    serve s k op act = cmdAnswer s k (cmdStatus s k) [] := by
  obtain ⟨h1, h2, h3, h4⟩ := h
  simp [serve, h1, h2, h3, h4, hs]

end Sys2Proof.Machine
end

