-- ==== Sys2Proof/Tests/Slice0.lean ====
section
/-! SUPPORT. Own tests: the well-formedness checks, a few steps with results worked out from the spec by hand, and for
every statement with hypotheses a witness that meets them, clause by clause. -/

namespace Sys2Proof.Tests
set_option Elab.async false
open Sys2Proof Sys2Proof.Machine

/-! ## Small states -/

/-- A device whose firmware runs with every domain on. `role` is 1 for a stack. -/
def tDev (role : Nat) : State :=
  { State.reset.fsets [(SYS_STRAP_ROLE, 0, role), (CLK_STAT_LOCK, 0, 1), (PWR_DOMCTL_REQ, 0, 0xffff),
      (PWR_DOMSTAT_ON, 0, 0x1ffff)] with sys.phase := .firmware }

/-- Straps of a cell and of a stack. -/
def tP0 : Straps := ⟨false, false, false⟩
def tP1 : Straps := ⟨true, false, false⟩

/-- A stack and a cell. -/
def tS : State := tDev 1
def tC : State := tDev 0

/-- The block in a boot phase. -/
def tPh (p : Phase) : State := { State.reset with sys.phase := p }

/-- A device with some register fields set. -/
def tSet (s : State) (l : List (Fld × Nat × Nat)) : State := s.fsets l

/-- Mailbox 0 of M1 is RUNNING a command. -/
def tCmd (s : State) (op len : Nat) (bytes : List (Nat × Nat)) : State :=
  { s.fsets [(MBX_STAT_STATE, 8, 2), (MBX_HDR0_OPCODE, 8, op), (MBX_HDR0_LENGTH, 8, len)] with
    mbx.buf := bytes.foldl (fun b e => smSet 0 b (8 * 4096 + e.1) e.2) s.mbx.buf
    mbx.accTab := [(0x60, 63), (0x150, 63), (0x151, 63), (0x161, 63), (0x171, 63), (0x172, 63), (0x173, 63), (0x1300, 63), (0x1000, 63), (0x3000, 63), (0x3001, 63)] }

/-- A configuration with two cells on chain 0, and the device with it in force in a state. -/
def tImg : Image := { kind := 2, cfg := { topo := { chainLen := 2 :: List.replicate 23 0 } } }
def tRun (s : State) (st : Nat) : State := { s.fset SYS_STATE_STATE 0 st with sys.cfg := some tImg }

/-- A stack that holds the lease, in RUN. -/
def tH : State := (tRun tS 5).fset VOTE_LEASE_HELD 0 1

/-- A firmware image and a configuration image that verify, one whose PART does not match, and a flash with them. -/
def tFw : Image :=
  { length := 6000, bodyLen := 384, keySel := 16, edPub := Config.vendorEd 0, mlPub := Config.vendorMl 0 }
def tCfg : Image := { kind := 2, length := 6000, bodyLen := 384 }
def tBad : Image := { tFw with part := 0 }
def tFlash (a c : Image) (trial : Bool) : Flash :=
  { present := true, size := 0x1000000
    dir0 := { crcOk := true, slots := [{ offset := 0x10000, length := 6000, trial := trial }, {},
      { offset := 0x20000, length := 6000 }, {}] }
    images := [some a, none, some c, none] }

/-- The device in a phase of its boot, with a flash. -/
def tBoot (p : Phase) (f : Flash) : State := { tS with
    sys.phase := p, flash := f, sec.otp.slotValid := 1, sec.otp.enrLock := true, sec.otp.slotFpr := [imgFpr tCfg, 0, 0, 0] }

/-- The vendor keys of set 0 are live for tFw, and those of owner slot 0 for tCfg, whatever they are, so that both verify. -/
theorem tFw_verifies : verifySlot (tBoot .romSelect (tFlash tFw tCfg false)) 0 = .ok := by
  have h : sigOk (tBoot .romSelect (tFlash tFw tCfg false)).sec.otp false tFw = true := by
    simp [sigOk, headMatch, keyLive, imgShort, imgCfg, imgRevokeV0, vendorFpr, imgFpr, tFw, tBoot, tS, tDev]
    decide +kernel
  have v : verifySlot (tBoot .romSelect (tFlash tFw tCfg false)) 0 =
      verify (tBoot .romSelect (tFlash tFw tCfg false)) false tFw 6000 0x10000 := by rfl
  rw [v]; unfold verify; dsimp only; rw [h]; decide +kernel
theorem tFw_passes : verify (tBoot .recovery {}) false tFw 6000 (2 ^ 28) = .ok := by
  have h : sigOk (tBoot .recovery {}).sec.otp false tFw = true := by
    simp [sigOk, headMatch, keyLive, imgShort, imgCfg, imgRevokeV0, vendorFpr, imgFpr, tFw, tBoot, tS, tDev]
    decide +kernel
  unfold verify; dsimp only; rw [h]; decide +kernel
theorem tFw_stored : (tBoot .romSelect (tFlash tFw tCfg false)).flash.images.getD 0 none = some tFw := rfl
theorem tCfg_checked : cfgSlotStatus ((tBoot .firmware (tFlash tFw tCfg false)).fset SYS_STRAP_ROLE 0 0) 2 = .ok := by
  let s := (tBoot .firmware (tFlash tFw tCfg false)).fset SYS_STRAP_ROLE 0 0
  have h : sigOk s.sec.otp true tCfg = true := by
    simp [s, sigOk, headMatch, keyLive, slotHolds, slotLive, imgShort, imgCfg, imgRevokeV0, tCfg, tBoot, bit]
    exact Or.inl (by decide +kernel)
  have v : verifySlot s 2 = .ok := by
    have e : verifySlot s 2 = verify s true tCfg (slotOfDir (dirNow s.flash).2 2).length
      (slotExtent s.flash (dirNow s.flash).2 2) := rfl
    rw [e]; unfold verify; dsimp only; rw [h]; decide +kernel
  show cfgSlotStatus s 2 = .ok
  unfold cfgSlotStatus; rw [v]; decide +kernel

/-- The bytes of a debug token that passes its checks on a device with identity 0 and challenge 0. -/
def tToken : List (Nat × Nat) :=
  [(0, 1), (1, 0x20), (2, 0x19), (3, 0x7a), (4, 1), (6, 4), (7, 1), (10, 16), (12, 0x90), (13, 0x0e), (16, 96), (20, 0x92),
    (21, 1), (22, 0x1a), (23, 0x6a), (328, 1)]

/-- A stack with one valid local point (0x30000, F32, source REF) and one valid cell point (0x40). -/
def tPts : State := { tS with grist.dir := [(4, mkEntry false 1 4 0 1 0 0 0), (0x3000, mkEntry false 1 4 0 1 0 0 0)] }
def tPtH : State := { tH with grist.dir := tPts.grist.dir }

/-- A record over channel 0. -/
def tRec : CapRec := { rid := 1, chans := [0], pre := 0, post := 16, tset := 16, flags := 0, blocks := [0] }

/-- A lease holder with a live peer on lane 24, heard in this cycle. -/
def tPeer : State :=
  { tH.fsets [(LNK_STAT_STATE, 24, 5), (LNK_STAT_FARSID, 24, 1), (LNK_CFG_EN, 24, 1)] with vote.seen := [(1, 1)] }

/-- A command racked to the peers. -/
def tRack : RackCmd := ⟨0, 1, 0, 0, oStart, 0, 3, [], [], 0, some 8, false, false⟩

/-- A stack whose plant ports and lane 0 are up and whose configuration is in force. -/
def tEth : State :=
  (tRun { tS with sys.cfg := some tImg } 5).fsets [(LNK_STAT_STATE, 26, 5), (LNK_STAT_STATE, 27, 5), (LNK_STAT_STATE, 0, 5),
    (LNK_CFG_EN, 26, 1), (LNK_CFG_EN, 0, 1), (TIM_CFG_PORT, 0, 0)]
def tEthH : State := tEth.fset VOTE_LEASE_HELD 0 1

/-- A cell at chain 0, position 0 with its upstream port 0 and downstream port 4 up, locked to time, in a state. -/
def tLk (st : Nat) : State :=
  tC.fsets [(LNK_STAT_STATE, 0, 5), (LNK_STAT_STATE, 4, 5), (LNK_CFG_EN, 0, 1), (TIM_STAT_LOCK, 0, 1), (LNK_PORTS_FIXED, 0, 1),
    (SYS_STATE_STATE, 0, st)]

/-- A stack with chain lane 0, its peer lane 24 and lane 26 up. -/
def tLs : State := tPeer.fsets [(LNK_STAT_STATE, 0, 5), (LNK_CFG_EN, 0, 1)]

/-- An announced dataset of sender 7. -/
def tAnn : Announce := ⟨0, 1, 6, 0x20, 0, 1, 99, 0, 7⟩

/-- Frames that pass their checks: TIME, CMD at the cell; TEL, TRIG at the stack; XCHK, RACK, RRA on the peer lane. -/
def tTime (x : Nat) : Frame := ⟨{ ty := 3, len := 32, xflags := x, epoch := 1 }, .time 0 0 40000 0⟩
def tCmdF (cyc pos : Nat) : Frame := ⟨{ ty := 1, len := 256, cycle := cyc, pos }, .cmd (List.replicate 64 0)⟩
def tTel : Frame := ⟨{ ty := 2, len := 16, up := true }, .tel 0 0 12 0 0 0 0 []⟩
def tTrig (l : Nat) : Frame := ⟨{ ty := 4, len := 16, up := l == 1 }, .trig 5 1 3 1⟩
def tXchk : Frame := ⟨{ ty := 6, len := 256, sid := 1 }, .xchk (List.replicate 64 0)⟩
def tRackF : Frame := ⟨{ ty := 5, len := 8, sid := 1 }, .rack [.unknown 9 4]⟩
def tRra (op : Nat) : Frame := ⟨{ ty := 7, len := 12, sid := 1 }, .rra op 0 true 0 0 0x10 0 []⟩

/-- The device with the shipped control configuration in force, and the shipped bill in both banks. -/
def tShip (s : State) (st : Nat) : State :=
  { s.fset SYS_STATE_STATE 0 st with
    sys.cfg := some { tImg with cfg := { tImg.cfg with ctrl := { shipped := true } } }, mash.shipBank := 3
    mash.shipSeed := [(0, (0, s.fget TIM_CYC_T)), (1, (1, s.fget TIM_CYC_T))] }

/-- A stack in a state whose configuration asks for a cell that it has not heard. -/
def tMin (st : Nat) : State :=
  { tRun tS st with sys.cfg := some { tImg with cfg := { tImg.cfg with topo := { tImg.cfg.topo with
      armPhase := [0, 3, 3, 3, 3, 3], armMin := [1, 0, 0, 0, 0, 0] } } } }

/-- Point 0x30803 holds 1.0 in the grist store. -/
def tF1 : SMap (BitVec 8) := (State.reset.mwrite (0x01000000 + 16 * 0x30803) 4 F_ONE).mem

/-- A cell with a regulator of one phase on pair 8, its parameters within their ranges, ready to start. -/
def tSpr : State :=
  ((tC.fsets [(SPR_CFG_PHEN, 0, 1), (SPR_CFG_TPP, 0, 1), (SPR_CFG_PHMIN, 0, 1), (SPR_CFG_ORDER, 0, 0xe4),
    (PWM_CFG_EN, 8, 1), (PWM_CFG_HR, 8, 1), (PWM_CFG_ALIGN, 8, 1), (PWM_CFG_SRC, 8, 1), (PWM_CFG_INVB, 8, 1),
    (PWM_EPER_PER, 8, 2000), (SPR_SEL0_VLINK, 0, 0), (SPR_SEL0_VBAT, 0, 1), (SPR_SEL0_IPH0, 0, 2), (SPR_SEL0_IPH1, 0, 3),
    (SPR_SEL1_IPH2, 0, 4), (SPR_SEL1_IPH3, 0, 5)]).fsets
  [(SPR_VREF_VREF, 0, 0x42c80000), (SPR_IPHMAX_IPH_MAX, 0, 0x41200000), (SPR_IPHTRIP_IPH_TRIP, 0, 0x41a00000),
    (SPR_VLINKOV_VLINK_OV, 0, 0x43480000), (SPR_VBATMIN_VBAT_MIN, 0, 0x41200000), (SPR_VBATMAX_VBAT_MAX, 0, 0x42480000),
    (SPR_KV_KV, 0, 0x3f800000), (SPR_FZ_FZ, 0, 0x42c80000), (SPR_FZ_FZ, 1, 0x42c80000), (SPR_FP_FP, 0, 0x447a0000),
    (SPR_FP_FP, 1, 0x447a0000), (SPR_DMAX_DMAX, 0, 0x3f000000), (SPR_LPH_LPH, 0, 0x3a83126f),
    (SPR_OPENDI_OPEN_DI, 0, 0x3f800000), (SPR_SSRATE_SS_RATE, 0, 0x3f800000), (SPR_SSILIM_SS_ILIM, 0, 0x3f800000),
    (SPR_SSBAND_SS_BAND, 0, 0x3f800000), (SPR_SHEDHI_SHED_HI, 0, 0x3f000000), (SPR_STEPI_STEP_I, 0, 0x3f800000),
    (SPR_SKIPBAND_SKIP_BAND, 0, 0x3f800000)]).fsets
  ((List.range 6).map (fun i => (SPR_GAIN_GAIN, i, 0x3f800000)))

/-- A cell with staged pair values within their ranges. -/
def tPwm : State := tC.fsets [(PWM_PER_PER, 0, 2000), (PWM_EPER_PER, 0, 2000)]


/-! ## Well-formedness: one ill-formed term for each check, and what is well formed -/

/-- A frame with a header, in a command that carries frames. -/
def tFr (h : Hdr) (b : Body) : Instr := .telFrame 0 0 ⟨h, b⟩

theorem test_wf_frame : (tFr { ty := 2 } .other).wf = true := by decide
theorem test_wf_type : (tFr { ty := 16 } .other).wf = false := by decide
theorem test_wf_sid : (tFr { sid := 4 } .other).wf = false := by decide
theorem test_wf_chain : (tFr { chain := 32 } .other).wf = false := by decide
theorem test_wf_pos : (tFr { pos := 8 } .other).wf = false := by decide
theorem test_wf_hop : (tFr { hop := 16 } .other).wf = false := by decide
theorem test_wf_len : (tFr { len := 2049 } .other).wf = false := by decide
theorem test_wf_cycle : (tFr { cycle := 0x100000000 } .other).wf = false := by decide
theorem test_wf_epoch : (tFr { epoch := 0x100000000 } .other).wf = false := by decide
theorem test_wf_seq : (tFr { seq := 65536 } .other).wf = false := by decide
theorem test_wf_xflags : (tFr { xflags := 65536 } .other).wf = false := by decide
theorem test_wf_idle : (tFr {} (.idle 0x100000000 0)).wf = false := by decide
theorem test_wf_cmd : (tFr {} (.cmd [0x100000000])).wf = false := by decide
theorem test_wf_tel_bootreq : (tFr {} (.tel 8 0 0 0 0 0 0 [])).wf = false := by decide
theorem test_wf_tel_nupd : (tFr {} (.tel 0 128 0 0 0 0 0 [])).wf = false := by decide
theorem test_wf_tel_state : (tFr {} (.tel 0 0 256 0 0 0 0 [])).wf = false := by decide
theorem test_wf_tel_cause : (tFr {} (.tel 0 0 0 256 0 0 0 [])).wf = false := by decide
theorem test_wf_tel_words : (tFr {} (.tel 0 0 0 0 0x100000000 0 0 [])).wf = false := by decide
theorem test_wf_update_point : (tFr {} (.tel 0 1 0 0 0 0 0 [{ point := 0x40000, lo := 0, hi := 0, tag := 0 }])).wf = false := by
  decide
theorem test_wf_update_words : (tFr {} (.tel 0 1 0 0 0 0 0 [{ point := 0, lo := 0x100000000, hi := 0, tag := 0 }])).wf = false := by
  decide
theorem test_wf_time_cycle : (tFr {} (.time 0 0 0x100000000 0)).wf = false := by decide
theorem test_wf_time_tstat : (tFr {} (.time 0 0 0 0x100000000)).wf = false := by decide
theorem test_wf_trig : (tFr {} (.trig 0 256 0 0)).wf = false := by decide
theorem test_wf_rack_points : (tFr {} (.rack [.points [{ point := 0x40000, lo := 0, hi := 0, tag := 0 }]])).wf = false := by
  decide
theorem test_wf_rack_holder : (tFr {} (.rack [.lease 4 false false 0 0 0])).wf = false := by decide
theorem test_wf_rack_target : (tFr {} (.rack [.lease 0 false false 4 0 0])).wf = false := by decide
theorem test_wf_rack_epoch : (tFr {} (.rack [.lease 0 false false 0 0x100000000 0])).wf = false := by decide
theorem test_wf_rack_src : (tFr {} (.rack [.command 16 0 0 0 0 0 true 0 []])).wf = false := by decide
theorem test_wf_rack_mbx : (tFr {} (.rack [.command 0 8 0 0 0 0 true 0 []])).wf = false := by decide
theorem test_wf_rack_seq : (tFr {} (.rack [.command 0 0 65536 0 0 0 true 0 []])).wf = false := by decide
theorem test_wf_rack_opcode : (tFr {} (.rack [.command 0 0 0 65536 0 0 true 0 []])).wf = false := by decide
theorem test_wf_rack_length : (tFr {} (.rack [.command 0 0 0 0 4097 0 true 0 []])).wf = false := by decide
theorem test_wf_rack_apply : (tFr {} (.rack [.command 0 0 0 0 0 0x100000000 true 0 []])).wf = false := by decide
theorem test_wf_rack_offset : (tFr {} (.rack [.command 0 0 0 0 0 0 true 8192 []])).wf = false := by decide
theorem test_wf_rack_bytes : (tFr {} (.rack [.command 0 0 0 0 1 0 true 0 [256]])).wf = false := by decide
theorem test_wf_rack_ack_src : (tFr {} (.rack [.ack 16 0 0 0])).wf = false := by decide
theorem test_wf_rack_ack_mbx : (tFr {} (.rack [.ack 0 8 0 0])).wf = false := by decide
theorem test_wf_rack_ack_seq : (tFr {} (.rack [.ack 0 0 65536 0])).wf = false := by decide
theorem test_wf_rack_ack_status : (tFr {} (.rack [.ack 0 0 0 65536])).wf = false := by decide
theorem test_wf_rack_unknown : (tFr {} (.rack [.unknown 256 4])).wf = false := by decide
theorem test_wf_rack_overrun : (tFr {} (.rack [.unknown 9 4, .overrun])).wf = true := by decide
theorem test_wf_xchk : (tFr {} (.xchk [0x100000000])).wf = false := by decide
theorem test_wf_rra_op : (tFr {} (.rra 16 0 true 0 0 0 0 [])).wf = false := by decide
theorem test_wf_rra_mbx : (tFr {} (.rra 0 8 true 0 0 0 0 [])).wf = false := by decide
theorem test_wf_rra_count : (tFr {} (.rra 0 0 true 256 0 0 0 [])).wf = false := by decide
theorem test_wf_rra_status : (tFr {} (.rra 0 0 true 0 65536 0 0 [])).wf = false := by decide
theorem test_wf_rra_words : (tFr {} (.rra 0 0 true 0 0 0x100000000 0 [])).wf = false := by decide
theorem test_wf_rra_bytes : (tFr {} (.rra 0 0 true 0 0 0 0 [256])).wf = false := by decide
theorem test_wf_caps : (tFr {} (.caps true false false false 1 0 0 0 28)).wf = false := by decide

theorem test_wf_boundary : (Instr.extestUpdate 0 {}).wf = true := by decide
theorem test_wf_boundary_length : (Instr.extestUpdate 0 { profile := [0] }).wf = false := by decide
theorem test_wf_boundary_code : (Instr.extestUpdate 0 { profile := List.replicate 24 4 }).wf = false := by decide
theorem test_wf_boundary_po : (Instr.extestUpdate 0 { po := 256 }).wf = false := by decide
theorem test_wf_boundary_od : (Instr.extestUpdate 0 { od := 4 }).wf = false := by decide
theorem test_wf_boundary_fq : (Instr.extestUpdate 0 { fq := 8 }).wf = false := by decide
theorem test_wf_boundary_io : (Instr.extestUpdate 0 { hqIo := 256 }).wf = false
    ∧ (Instr.extestUpdate 0 { fqIo := 256 }).wf = false := by decide
theorem test_wf_boundary_ins : (Instr.extestUpdate 0 { ins := 2 ^ 48 }).wf = false := by decide
theorem test_wf_scan : (Instr.kilnScanEnd 0 [⟨3, 100, 400, 0, 0, 0⟩, ⟨5, 100, 400, 0, 0, 0⟩]).wf = true := by decide
theorem test_wf_scan_sensor : (Instr.kilnScanEnd 0 [⟨44, 100, 400, 0, 0, 0⟩]).wf = false := by decide
theorem test_wf_scan_raw : (Instr.kilnScanEnd 0 [⟨3, 65536, 400, 0, 0, 0⟩]).wf = false := by decide
theorem test_wf_scan_twice : (Instr.kilnScanEnd 0 [⟨3, 100, 400, 0, 0, 0⟩, ⟨3, 100, 400, 0, 0, 0⟩]).wf = false := by decide
theorem test_wf_write : (Instr.registerWrite 1 0x10 4 0).wf = true := by decide
theorem test_wf_write_address : (Instr.registerWrite 1 0x100000000 4 0).wf = false := by decide
theorem test_wf_write_width : (Instr.registerWrite 1 0x10 3 0).wf = false := by decide
theorem test_wf_word0_read : (Instr.pointWord0Read 1 0x40000).wf = false := by decide
theorem test_wf_word1_write : (Instr.pointWord1Write 1 0x40000 0).wf = false := by decide
theorem test_wf_word0_write : (Instr.pointWord0Write 1 0x3ffff 0).wf = true
    ∧ (Instr.pointWord0Write 1 0x40000 0).wf = false := by decide
theorem test_wf_datagram : (Instr.mailboxDatagram 0 0 0 0 0 [256]).wf = false := by decide
theorem test_wf_fragment : (Instr.ipv4Fragment 0 0 0 0 0 20 8 true [1]).wf = true := by decide
theorem test_wf_fragment_header : (Instr.ipv4Fragment 0 0 0 0 0 19 8 true [1]).wf = false
    ∧ (Instr.ipv4Fragment 0 0 0 0 0 61 8 true [1]).wf = false := by decide
theorem test_wf_fragment_offset : (Instr.ipv4Fragment 0 0 0 0 0 20 4 true [1]).wf = false
    ∧ (Instr.ipv4Fragment 0 0 0 0 0 20 65536 true [1]).wf = false := by decide
theorem test_wf_fragment_bytes : (Instr.ipv4Fragment 0 0 0 0 0 20 8 true [256]).wf = false := by decide
theorem test_wf_fragment_last : (Instr.ipv4Fragment 0 0 0 0 0 20 8 false [1]).wf = false := by decide
theorem test_wf_echo : (Instr.icmpEcho 0 0 0 0 [256]).wf = false := by decide
theorem test_wf_grid : (Instr.mainTaskEnd 0 [0x100000000]).wf = false := by decide
theorem test_wf_cell : (Instr.cellCycle 0 ⟨0, 0, 0, 0x100000000, 0⟩).wf = false := by decide


/-! ## Results worked out by hand from the examples of the spec -/

/-- The next state of a command, or the state itself where the command has none. -/
def tNext (i : Instr) (s : State) : State := match exec i s with | .next t => t | _ => s

/-- Chain 4, position 5 is cell 37, and its arm position is 13 where arm 1 has chains 3, 4 and 5 of 8, 8 and 4 cells
(Chapter 1). -/
def tArm : State :=
  { tS with sys.cfg := some { tImg with cfg := { tImg.cfg with topo := { tImg.cfg.topo with
      chainLen := [0, 0, 0, 8, 8, 4] ++ List.replicate 18 0
      chainArm := [0, 0, 0, 1, 1, 1] ++ List.replicate 18 0 } } } }
theorem test_arm_position : (armCells tArm 1)[13]? = some 37 ∧ (armCells tArm 1).length = 20 := by decide +kernel

/-- C_main 2,000, C_fast 300 and FAST_PER 1,000 ns give a response time of 2,900 ns (Chapter 5). -/
theorem test_response_time : response 2000 300 1000 14000 16 2000 = some 2900 := by decide +kernel

/-- 12 channels with PRE 25,747 in 256 free blocks leave POST_max 149,002 (Chapter 14). -/
theorem test_post_room : postRoom tC 12 - 25747 = 149002 := by decide +kernel

/-- SLOT 12 of 31 with P_CAR 250,000 ns writes OFS 79,277,419 and PER 100,000 (Chapter 7). -/
theorem test_slot_offset : (placeCarrier tC 12 31 250000).fget PWM_OFS_OFS 0 = 79277419
    ∧ (placeCarrier tC 12 31 250000).fget PWM_PER_PER 1 = 100000 := by decide +kernel

/-- A gate event of the cell on group 0, which masks DIDT0 to DIDT11 and is enabled; the capture domain is off. -/
def tGrp : State := tC.fsets [(PWR_DOMSTAT_ON, 0, 0x1fff7), (FLT_GMASK0_MASK, 0, 0xfff), (FLT_GCFG_EN, 0, 1), (GD_CFG_DIEN, 5, 1), (GD_CFG_DIEN, 8, 1)]

/-- DIDT8 latches the group, and DIDT5 with the same stamp takes FIRST (Chapter 8). -/
theorem test_first_of_a_tie :
    let s := tNext (.gdThresholdTrip 100 5) (tNext (.gdThresholdTrip 0 8) tGrp)
    s.fget FLT_GSTAT_FIRST 0 = 5 ∧ s.fget FLT_GSTAT_SECOND 0 = 8 ∧ s.flag FLT_GSTAT_TIE 0 = true := by decide +kernel
/-- Two nanoseconds later it is SECOND (Chapter 8). -/
theorem test_second_is_later :
    let s := tNext (.gdThresholdTrip 131072 5) (tNext (.gdThresholdTrip 0 8) tGrp)
    s.fget FLT_GSTAT_FIRST 0 = 8 ∧ s.fget FLT_GSTAT_SECOND 0 = 5 ∧ s.flag FLT_GSTAT_TIE 0 = false := by decide +kernel

/-- The complementary transition (Chapter 8), instants a to d: the channel's off sequence, and the code 10 to 00. -/
def tOn : State := tC.fsets [(GD_STAT_PHASE, 3, 4), (GD_STAT_FB, 3, 1), (GD_CFG_EN, 3, 1), (GD_CFG_EN, 2, 1)]
theorem test_off_slope : (tNext (.gdTpdisExpiry clkT 3) tOn).fget GD_STAT_CODE 3 = 2 := by decide +kernel
theorem test_off_hold : (tNext (.gdFeedbackChange 0 3 false) (tNext (.gdTpdisExpiry clkT 3) tOn)).fget GD_STAT_CODE 3 = 0 := by
  decide +kernel

/-- Sensors 20 and 21, NTCs of group 2 with the example's thresholds (Chapter 15); their resistance at 25 °C is 500 Ω, so that
500 Ω reads 400. -/
def tKiln : State := tC.fsets [(KILN_SCFG_EN, 20, 1), (KILN_SCFG_KIND, 20, 2), (KILN_SCFG_GROUP, 20, 2), (KILN_SCFG_EN, 21, 1),
  (KILN_SCFG_KIND, 21, 2), (KILN_SCFG_GROUP, 21, 2), (KILN_GCFG_EN, 2, 1), (KILN_GTH0_TH1, 2, 2000), (KILN_GTH0_TH2, 2, 2160),
  (KILN_GTH1_TH3, 2, 2320), (KILN_GTH1_TRIP, 2, 2640), (KILN_GCFG_BT, 2, 2400), (KILN_GCFG_HYST, 2, 80),
  (KILN_SPAR_HI, 20, 3435), (KILN_SPAR_LO, 20, 50), (KILN_SPAR_HI, 21, 3435), (KILN_SPAR_LO, 21, 50)]
/-- The on-die sensors at 0 °C. -/
def tDie : List Scan := (List.range 12).map (fun i => { sensor := i, raw := 50, temp := 0 })
def tKilnA : State := tNext (.kilnScanEnd 0 (tDie ++ [⟨20, 100, 1859, 0, 0, 500⟩, ⟨21, 120, 1822, 0, 0, 500⟩])) tKiln
def tKilnB : State := tNext (.kilnScanEnd msT (tDie ++ [⟨20, 100, 1859, 0, 0, 1000000000⟩, ⟨21, 120, 1822, 0, 0, 500⟩])) tKilnA
def tKilnD : State := tNext (.kilnScanEnd (2 * msT) (tDie ++ [⟨20, 100, 1859, 0, 0, 1000000000⟩, ⟨21, 120, 1822, 0, 0, 0⟩])) tKilnB
theorem test_kiln_level : tKilnA.fget KILN_STAT_LEVEL = 2 ∧ tKilnA.flag KILN_STAT_TRIP = false := by decide +kernel
theorem test_kiln_open : tKilnB.fget KILN_T_WHY 20 = 1 ∧ tKilnB.fget KILN_STAT_LEVEL = 3 ∧ tKilnB.flag KILN_STAT_TRIP = false := by
  decide +kernel
theorem test_kiln_two_broken : tKilnD.fget KILN_T_WHY 21 = 2 ∧ tKilnD.fget KILN_STAT_TRIPG = 4 := by decide +kernel


/-- Half of the 1.6 V range is code 32,768; below 0 V the code is 0, above 1.6 V it is 65,535 (R247). -/
theorem test_codes : adcCode tC 3 0x800000 = 32768 ∧ adcCode tC 3 (-1) = 0 ∧ adcCode tC 3 0x1000000 = 65535 := by
  decide +kernel

/-- Three of eight periods carry the further tap of an edge whose sub-tap bits are 6 of 16, with DITH 8 (R188). -/
theorem test_dither : ((List.range 8).filter (fun j => ditherTap (pwmMod (tC.fset PWM_CFG_DITH 0 8) 0
    (fun x => { x with index := j })) 0 (6 * uT) == 1)).length = 3 := by decide +kernel

/-! ## Witnesses for the statements with hypotheses -/

/-! ## Witnesses: the block, supplies, straps, resets -/

theorem witness_StepRunsTheFrontCommand :
    ({ State.reset with pending := [.tapReset 1] } : State).pending = [.tapReset 1] ∧ State.reset.pending = [] := by
  decide +kernel

theorem witness_SupplyPinAndReferenceEvents :
    State.reset.sys.phase = .supplyHold ∧ (tPh .pinHold).sys.phase = .pinHold ∧ (tPh .pinHold).sys.phase ≠ .supplyHold ∧
    (tPh .refWatch).sys.phase = .refWatch ∧ (tPh .refWatch).sys.phase ≠ .pinHold ∧ (tPh .crystal).sys.phase = .crystal ∧
    (tPh .crystal).sys.phase ≠ .refWatch ∧ (tPh .retryWait).sys.phase = .retryWait ∧
    (tPh .retryWait).sys.phase ≠ .crystal ∧ (tPh .crystal).sys.phase ≠ .retryWait ∧
    (tS.fget CLK_STAT_LOCK = 1 ∧ tS.sys.lostAt = none) ∧ State.reset.fget CLK_STAT_LOCK ≠ 1 ∧
    (({ tS with sys.lostAt := some 0 } : State).sys.lostAt = some 0 ∧ max 0 1 < 0 + 100 * usT ∧
      0 + 100 * usT ≤ max 0 (100 * usT)) ∧
    ((tPh .refWatch).sys.since + 100 * usT ≤ max (tPh .refWatch).clk (100 * usT) ∧
      max (tPh .refWatch).clk 0 < (tPh .refWatch).sys.since + 100 * usT) ∧
    (max (tPh .crystal).clk 0 ≤ (tPh .crystal).sys.since + 5100 * usT ∧
      (tPh .crystal).sys.since + 5100 * usT ≤ max (tPh .crystal).clk (5100 * usT)) ∧
    ((tPh .retryWait).sys.since + 10 * msT ≤ max (tPh .retryWait).clk (10 * msT) ∧
      max (tPh .retryWait).clk 0 < (tPh .retryWait).sys.since + 10 * msT) := by
  decide +kernel

theorem witness_StrapsAreSampled :
    (tPh .pllLocking).sys.phase = .pllLocking ∧ (tPh .strapWait).sys.phase = .strapWait ∧
    (tPh .pllLocking).sys.phase ≠ .strapWait ∧ (tPh .strapWait).sys.phase ≠ .pllLocking ∧
    tP1 ≠ tP0 ∧ (tPh .strapWait).sys.since + msT ≤ max (tPh .strapWait).clk msT ∧
    max (tPh .strapWait).clk 0 < (tPh .strapWait).sys.since + msT := by
  decide +kernel

theorem witness_ResetsAreTaken :
    (({ tS with sys.lostAt := some 0 } : State).sys.lostAt = some 0 ∧ 0 + 100 * usT ≤ max tS.clk (100 * usT)) ∧
    (tS.sys.lostAt = none ∧ max tS.clk 0 < 0 + 100 * usT) ∧
    (running tS = true ∧ tS.sys.halted = false) ∧ running State.reset = false ∧
    (running tS = true ∧ (tS.fset SEC_STAT_UNLOCKED 0 1).fget SEC_STAT_UNLOCKED = 1) ∧
    (tS.MayWrite 0 0x14 0xa55a0001 false ∧ 0xa55a0001 / 65536 = 0xa55a ∧ bit 0xa55a0001 1 = false ∧
      bit 0xa55a0001 0 = true) ∧
    (tS.MayWrite 0 0x14 0xa55b0003 false ∧ 0xa55b0003 / 65536 ≠ 0xa55a) ∧
    (tS.MayWrite 0 0x14 0xa55a0003 false ∧ bit 0xa55a0003 1 = true) ∧
    (tS.MayWrite 0 0x14 0xa55a0000 false ∧ bit 0xa55a0000 1 = false ∧ bit 0xa55a0000 0 = false) ∧
    ({ tS with sys.resetPend := some true } : State).sys.resetPend = some true ∧
    ({ tS with sys.resetPend := some false } : State).sys.resetPend = some false ∧ tS.sys.resetPend = none ∧
    tS.sys.resetAt ≤ max tS.clk 0 ∧ max tS.clk 0 < ({ tS with sys.resetAt := msT } : State).sys.resetAt := by
  unfold State.MayWrite; decide +kernel

theorem witness_ResetsOfBothScopes :
    keyAddr (CLK_STAT_LOCK.key 0) ∉ [0x10, 0x20020, 0x20024, 0x30000, 0x30004, 0x30008] ∧
    ([RstSrc.wdog].any srcCold = false ∧ strapsMatch { tC with pins.straps := tP0 } tP0 = true) ∧
    strapsMatch { tC with pins.straps := tP1 } tP1 = false ∧
    [RstSrc.wdog, .pin].any srcCold = true ∧ [RstSrc.wdog] ≠ [] := by
  decide +kernel

theorem witness_DomainRequestsAreJudgedAlone :
    -- a switch-on that the role does not use, of a retired domain, an accepted one; switch-offs in and out of service
    (tS.MayWrite 0 0x30000 0x1fffe false ∧ (tS.fset PWR_DOMCTL_REQ 0 0).MayWrite 0 0x30000 0x1fffe false) ∧
    (bit 0x1fffe 7 = true ∧ domReq (tS.fset PWR_DOMCTL_REQ 0 0) 7 = false ∧ roleUses tS 7 = false) ∧
    (bit 0x1fffe 16 = true ∧ domReq (tS.fset PWR_DOMCTL_REQ 0 0) 16 = false ∧ roleUses tS 16 = true ∧
      domRetired (tS.fset SYS_RETIRED_RETIRED 0 0x10000) 16 = true) ∧
    (bit 0 1 = false ∧ domReq (tRun tS 5) 1 = true ∧ roleUses (tRun tS 5) 1 = true ∧ inService (tRun tS 5) = true) ∧
    inService tS = false := by
  unfold State.MayWrite; decide +kernel

theorem witness_DomainTransitionsEnd :
    ({ tC with sys.domBusy := some (3, true) } : State).sys.domBusy = some (3, true) ∧ (3 : Nat) ≠ 7 ∧
    ({ tC with sys.domBusy := some (3, true) } : State).sys.domBusy ≠ some (2, true) ∧
    bit (domainOn ({ tC with sys.domBusy := some (3, true) } : State) 3).sys.testing 3 = true ∧
    bit (domainOn ({ tC.fset SEC_BISTDONE_DONE 0 0x1ffff with sys.domBusy := some (3, true) } : State) 3).sys.testing 3
      = false ∧
    ({ tC with sys.domBusy := some (3, false) } : State).sys.domBusy = some (3, false) ∧
    (bit ({ tC with sys.testing := 8 } : State).sys.testing 3 = true ∧ domRetired tC 3 = false) ∧
    bit tC.sys.testing 3 = false ∧ ((3 : Nat) ≠ 0 ∧ domOn tC 3 = true ∧ 50 * 65536 < (smGet 0 tC.sys.repl 3 + 3277).natAbs * 1000) ∧
    (smGet 0 tC.sys.repl 3 + 3276).natAbs * 1000 ≤ 50 * 65536 ∧ domOn State.reset 3 = false ∧ domOn tC 10 = true ∧
    (5 : Nat) ≤ 8 ∧ ¬((4 : Nat) = 3 ∨ (5 ≤ 4 ∧ 4 ≤ 8) ∨ 10 ≤ 4) := by
  decide +kernel

theorem witness_AccessesToADomainThatIsOff :
    (roleUses tS 7 = false ∧ domRetired (tC.fset SYS_RETIRED_RETIRED 0 128) 7 = true ∧ roleUses tC 7 = true ∧
      domMoving ({ tC with sys.domBusy := some (7, false) } : State) 7 = true ∧
      domOn (tC.fset PWR_DOMSTAT_ON 0 1) 7 = false ∧ domMoving tC 7 = false ∧ domRetired tC 7 = false) ∧
    ((blkOf 0x102024).isSome = true ∧ addrDom tS 0 0x102024 = 7 ∧ domStatus tS 7 ≠ .ok) ∧
    ((blkOf 0x140100).isSome = true ∧ addrDom (tC.fset PWR_DOMSTAT_ON 0 1) 0 0x140100 = 10 ∧
      domStatus (tC.fset PWR_DOMSTAT_ON 0 1) 10 ≠ .ok) ∧
    (tS.fget PWR_ERR_VALID = 0 ∧ (tS.fset PWR_ERR_VALID 0 1).fget PWR_ERR_VALID = 1) := by
  decide +kernel
/-! ## Witnesses: boot, memory code, debug -/

theorem witness_BootStepsAreTaken :
    (tPh .otpLoad).sys.phase = .otpLoad ∧ tS.sys.phase ≠ .otpLoad ∧ tS.sys.phase ≠ .selfTest ∧
    tS.sys.phase ≠ .selfTestWait ∧ tS.sys.phase ≠ .romSelect ∧ State.reset.sys.phase ≠ .firmware ∧
    ((tPh .selfTest).sys.phase = .selfTest ∧ ((tPh .selfTest).fset SYS_STRAP_SID_BAD 0 1).fget SYS_STRAP_SID_BAD = 1) ∧
    ((tBoot .selfTest (tFlash tFw tCfg false)).fget SYS_STRAP_SID_BAD ≠ 1 ∧
      slotOrder { tBoot .selfTest (tFlash tFw tCfg false) with sys.phase := .romSelect } 0 = [0] ∧
      (slotOfDir (dirNow (tFlash tFw tCfg false)).2 0).trial = false) ∧
    ((slotOfDir (dirNow (tFlash tFw tCfg true)).2 0).trial = true ∧ tS.fget SYS_BOOT_TRIES < 3) ∧
    (slotOrder { tBoot .selfTest {} with sys.phase := .romSelect } 0 = [] ∧ isStack (tBoot .selfTest {}) = true) ∧
    (tPh .selfTestWait).sys.phase = .selfTestWait ∧
    ((tPh .otpLoad).sys.since + 100 * usT ≤ max (tPh .otpLoad).clk (100 * usT) ∧
      max (tPh .otpLoad).clk 0 < (tPh .otpLoad).sys.since + 100 * usT) ∧
    ((tPh .selfTestWait).sys.since + 10 * msT ≤ max (tPh .selfTestWait).clk (10 * msT) ∧
      max (tPh .selfTestWait).clk 0 < (tPh .selfTestWait).sys.since + 10 * msT) ∧
    ((tBoot .romSelect (tFlash tFw tCfg false)).flash.images.getD 0 none = some tFw ∧
      verifySlot (tBoot .romSelect (tFlash tFw tCfg false)) 0 = .ok) ∧
    verifySlot (tBoot .romSelect (tFlash tBad tCfg false)) 0 ≠ .ok ∧
    ((tBoot .firmware (tFlash tFw tCfg false)).flash.images.getD 2 none = some tCfg ∧
      cfgSlotStatus (tBoot .firmware (tFlash tFw tBad false)) 2 ≠ .ok) ∧
    cfgSlotStatus ((tBoot .firmware (tFlash tFw tCfg false)).fset SYS_STRAP_ROLE 0 0) 2 = .ok ∧
    (({ tBoot .romSelect (tFlash tFw tCfg false) with sys.bootLeft := [0, 1] } : State).sys.bootLeft = [0, 1] ∧
      ({ tS with sys.cfgLeft := [2, 3] } : State).sys.cfgLeft = [2, 3] ∧
      ({ tS with sys.cfgLeft := [3] } : State).sys.cfgLeft = [3] ∧ tS.sys.halted = false ∧
      (tBoot .firmware (tFlash tFw tCfg false)).sys.phase = .firmware) ∧
    ({ tPh .netboot with sys.load := some ⟨0, 4, 0, 6000, [], 0, 0, false, none⟩ } : State).sys.load =
      some ⟨0, 4, 0, 6000, [], 0, 0, false, none⟩ ∧ 0 + 2 * secT ≤ max 0 (2 * secT) ∧ max 0 0 < 0 + 2 * secT ∧
    (isStack (tRun tS 5) = true ∧ 2 ≤ devState (tRun tS 5) ∧ usedChain (tRun tS 5) 0 = true ∧
      requests (tRun { tS with lanes := [(0, { bootReq := true })], sys.fw := some tFw } 5) 0 0 = true ∧
      offerSlot (tRun { tS with lanes := [(0, { bootReq := true })], sys.fw := some tFw } 5) 0 = some 2 ∧
      smGet none tS.sys.offers (8 * 0 + 0) = none) := by
  simp only [tFw_verifies, tFw_stored, tCfg_checked]; decide +kernel

/-- Scrub passes: one that has read words 0 to 5 of memory 0, a complete one of memory 1, and one of memory 2 that is late. -/
def tScrub : State := { tS with sec.scrub := [(0, { seen := [(0, 6)] }), (1, { seen := [(0, 4096)] }), (2, { late := true })] }

theorem witness_MemoryWordsAreScrubbed :
    (tS.fget SEC_SCRUBCFG_PASS ≠ 0 ∧ domOn tS (memDom 0) = true ∧ 65535 < memWords 0 ∧ eccSyms tS 0 65535 = []) ∧
    (scrubHas (scrubNow tScrub 0) 5 = true ∧ scrubHas (scrubNow tScrub 0) 6 = false ∧ domOn tScrub (memDom 2) = true ∧
      tScrub.fget SEC_SCRUBCFG_PASS ≠ 0) ∧
    ((scrubOf tScrub 0).late = false ∧ (scrubOf tScrub 0).seen ≠ [(0, memWords 0)] ∧
      (scrubOf tScrub 0).at_ + tScrub.fget SEC_SCRUBCFG_PASS * 10 * msT ≤ max tScrub.clk (1000 * secT) ∧
      max tScrub.clk 0 < (scrubOf tScrub 0).at_ + tScrub.fget SEC_SCRUBCFG_PASS * 10 * msT) ∧
    ((scrubOf tScrub 1).late = false ∧ (scrubOf tScrub 1).seen = [(0, memWords 1)] ∧ (scrubOf tScrub 2).late = true) ∧
    eccSyms ({ tS with sec.ecc := [(eccKey 0 5, [(1, 2)])] } : State) 0 5 = [(1, 2)] ∧
    eccSyms ({ tS with sec.ecc := [(eccKey 0 5, [(1, 2), (3, 4)])] } : State) 0 5 = [(1, 2), (3, 4)] ∧
    eccSyms ({ tS with sec.ecc := [(eccKey 2 5, [(1, 2), (3, 4)])] } : State) 2 5 = [(1, 2), (3, 4)] ∧
    (tS.fset SEC_SCRUBCFG_PASS 0 0).fget SEC_SCRUBCFG_PASS = 0 ∧ domOn State.reset (memDom 8) = false ∧
    (tS.MayWrite 0 0x60058 0x88238a01 false ∧ bits 0x88238a01 24 4 ≤ 8 ∧ bits 0x88238a01 16 6 ≤ 35 ∧
      bits 0x88238a01 10 6 ≤ 35 ∧ bit 0x88238a01 31 = true ∧ 0x88238a01 % 256 ≠ 0 ∧ inService tS = false ∧
      bits 0x88238a01 16 6 ≠ bits 0x88238a01 10 6 ∧ bit 0x88238a01 9 = true) := by
  unfold State.MayWrite; decide +kernel

/-- A token with the device's identity, whatever that is. -/
def tUnlock : State := mbxPut (tCmd tS oDebugUnlock 3728 tToken) 8 288 (leBytes 32 (identityFpr tS.sec.otp))

theorem tUnlock_passes : firstStatus (tokenChecks tUnlock 8 true) = .ok := by
  have h : mbxNum tUnlock 8 288 32 = identityFpr tS.sec.otp := by
    have h := mbxNum_put_same (tCmd tS oDebugUnlock 3728 tToken) 8 288 (leBytes 32 (identityFpr tS.sec.otp))
    rw [leBytes_length, leNat_mod, leNat_leBytes] at h
    rw [tUnlock, h, show (256 : Nat) ^ 32 = 2 ^ 256 by norm_num, identityFpr, keyFpr, Nat.mod_mod]
  have o : tUnlock.sec = tS.sec := by rw [tUnlock, mbxPut_frame]; simp [tCmd, State.fsets, State.fset]
  have r : tUnlock.regs = (tCmd tS oDebugUnlock 3728 tToken).regs := by rw [tUnlock, mbxPut_frame]
  have n (a n : Nat) (h : a + n ≤ 288 ∨ 320 ≤ a) : mbxNum tUnlock 8 a n = mbxNum (tCmd tS oDebugUnlock 3728 tToken) 8 a n :=
    mbxNum_put_other _ _ _ _ _ _ (by simpa using h)
  have b (a : Nat) (h : a < 288) : mbxByte tUnlock 8 a = mbxByte (tCmd tS oDebugUnlock 3728 tToken) 8 a := by
    rw [tUnlock, mbxByte_put, if_neg (by omega)]
  unfold tokenChecks
  simp only [h, o, n 0 4 (by decide), n 4 2 (by decide), n 12 4 (by decide), n 16 4 (by decide), n 20 4 (by decide),
    n 256 32 (by decide), n 328 4 (by decide), b 6 (by decide), b 7 (by decide), b 10 (by decide)]
  simp only [bne_self_eq_false, lenOf, State.fget, r]
  decide +kernel

theorem tUnlock_unsigned : firstStatus (tokenChecks (tCmd tS oDebugUnlock 3728 tToken) 8 false) = .sigFail := by
  unfold tokenChecks
  simp only []
  generalize (mbxNum _ 8 (256 + 32) 32 != identityFpr _) = b
  revert b; decide +kernel

theorem tUnlock_serves : tUnlock.Serves 8 oDebugUnlock := by
  unfold State.Serves State.Runs; decide +kernel

theorem witness_DebugAccessIsGranted :
    (running tS = true ∧ jtagCode 0xff = some (.bypass, 0) ∧ jtagGuarded .bypass = false) ∧
    (jtagCode 0 = some (.extest, 3) ∧ jtagGuarded .extest = true ∧ bit tS.mbx.m3jtag 3 = false) ∧
    (bit ({ tS with mbx.m3jtag := 8 } : State).mbx.m3jtag 3 = true ∧ inService tS = false) ∧
    inService (tRun tS 5) = true ∧ jtagCode 3 = none ∧
    ({ tS with jtag.ir := .dbgacc } : State).jtag.ir = .dbgacc ∧ ({ tS with jtag.ir := .extest } : State).jtag.ir = .extest ∧
    ({ tS with jtag.ir := .sample } : State).jtag.ir = .sample ∧ tS.jtag.ir ≠ .extest ∧ tS.jtag.ir ≠ .sample ∧
    ({ tS with jtag.ir := .dbgcore } : State).jtag.ir = .dbgcore ∧ running State.reset = false ∧
    (tCmd (tS.fset SEC_STAT_UNLOCKED 0 0) oDebugUnlock 3728 tToken).Serves 8 oDebugUnlock ∧
    (tS.sec.refused < 2 ∧ 2 ≤ ({ tS with sec.refused := 2 } : State).sec.refused) ∧
    ({ tS with sec.unlockEnd := some 5, sec.lockout := some 5 } : State).sec.unlockEnd = some 5 ∧
    5 ≤ max 0 5 ∧ max 0 4 < 5 ∧ 5 + secT ≤ max 0 (5 + secT) ∧ max 0 5 < 5 + secT := by
  unfold State.Serves State.Runs; decide +kernel

/-- The token that is taken and the one that is turned away. -/
theorem witness_DebugAccessIsGranted_token :
    (tUnlock.Serves 8 oDebugUnlock ∧ firstStatus (tokenChecks tUnlock 8 true) = .ok) ∧
    firstStatus (tokenChecks (tCmd tS oDebugUnlock 3728 tToken) 8 false) = .sigFail :=
  ⟨⟨tUnlock_serves, tUnlock_passes⟩, tUnlock_unsigned⟩

/-! ## Witnesses: accesses, journal, statuses -/

theorem witness_UnmappedAccessesAreRefused :
    (blkOf 0xffffffff = none ∧ 0xffffffff < 2 ^ 32) ∧ blkOf 0x70000 = none ∧ tS.fget ACC_ERR_VALID = 0 ∧
    (tS.fset ACC_ERR_VALID 0 1).fget ACC_ERR_VALID = 1 := by
  decide +kernel

theorem witness_AccessChecks :
    ((blkOf 0x10).isSome = true ∧ writeStatus tS 3 0x10 4 0 (busNeedC tS 3 0x10 0) true ≠ .ok) ∧
    ((blkOf 0x10).isSome = true ∧ writeStatus tS 0 0x10 2 0 (busNeedC tS 0 0x10 0) true = .badLength) ∧
    (tS.MayWrite 0 0x10 0 (busNeedC tS 0 0x10 0) ∧ (busEff 0 0x10 0 (countRsvd tS 0 0x10 0)).1 = .ok) ∧
    ((blkRegs .sys).all (fun r => decide (r.flds.map (fun F => F.key 0)).Nodup) = true ∧
      (blkRegs .sys).any (fun r => r.flds.any (fun F => decide (F.acc = .w1c))) = true ∧
      (blkRegs .sys).any (fun r => r.flds.any (fun F => decide (F.acc = .ro))) = true ∧
      (blkRegs .sec).any (fun r => r.flds.any (fun F => decide (F.acc = .rw))) = true) ∧
    (tS.fget SEC_EINJ_ARM = 0 ∧ tS.fget ACC_JNLCNT_UNREAD ≠ 4096 ∧
      (tS.fset ACC_JNLCNT_UNREAD 0 4096).fget ACC_JNLCNT_UNREAD = 4096) ∧
    (tS.MayWrite 0 0x2002c 1 false ∧ 1 % 2 ^ 13 ≤ jnlUnread tS) ∧
    (tS.MayWrite 0 0x2002c 0x1fff false ∧ jnlUnread tS < 0x1fff % 2 ^ 13) ∧
    ((8 : Nat) < 16 ∧ (0xffffffff : Nat) < 2 ^ 32 ∧ (tS.fset ACC_ERR_VALID 0 1).fget ACC_ERR_VALID = 1 ∧
      tS.fget ACC_ERR_VALID = 0) ∧
    (hasRight tS 3 0x10 1 = false ∧ hasRight tS 8 0x10000 0 = false ∧ hasRight tS 1 0x20000 2 = false ∧
      (blkOf 0x200ff).isSome = true ∧ writesField tS 3 0x14 = true ∧ hasRight tS 3 0x14 1 = false) ∧
    -- the journal: a first entry, and one of a lower and of a higher master in the clock of the entry before it
    (tS.mbx.jnlRun = 0 ∧ (1 : Nat) < 2 ∧
      (let s : State := { tS with mbx.jnlClk := pd0Clk tS.clk + 1, mbx.jnlRun := 1, mbx.jnl := [(0, [8 * 2 ^ 28])] }
       s.mbx.jnlClk = pd0Clk s.clk + 1 ∧ s.fget SEC_EINJ_ARM = 0 ∧
       (smGet [] s.mbx.jnl ((s.fget ACC_JNLHEAD_HEAD + 4095) % 4096)).getD 0 0 / 2 ^ 28 = 8)) := by
  unfold State.MayWrite; decide +kernel
/-! ## Witnesses: mailboxes -/

theorem witness_MailboxesPostAndTake :
    (tS.MayWrite 1 0x10178 1 false ∧ mbxMaster 1 = true) ∧ (tS.MayWrite 0 0x10108 1 false ∧ mbxMaster 0 = false) ∧
    (({ tCmd tS oGetInfo 0 [] with mbx.queue := [8] } : State).mbx.queue.find? (servedNow tS) = some 8 ∧
      cmdStatus (tCmd tS oGetInfo 0 []) 8 = .ok) ∧
    cmdStatus (tCmd tS oGetInfo 1 []) 8 ≠ .ok ∧ tS.mbx.queue.find? (servedNow tS) = none := by
  unfold State.MayWrite; decide +kernel

theorem witness_AnAnswerStandsInTheMailbox :
    [0xff].length ≤ 4096 ∧ tS.sec.ecc = [] ∧ tS.fget SEC_EINJ_ARM = 0 := by decide +kernel

theorem witness_MailboxCommandsAreServed :
    (tCmd tS oGetInfo 0 []).Serves 8 oGetInfo ∧ (tCmd tS oGetStatus 0 []).Serves 8 oGetStatus ∧
    (tCmd tS oLeaseStatus 0 []).Serves 8 oLeaseStatus ∧ (tCmd tS oCapStatus 0 []).Serves 8 oCapStatus ∧
    ((tCmd tS oJournalRead 4 [(2, 128)]).Serves 8 oJournalRead ∧ tS.sec.ecc = []) ∧
    ((tCmd tS oJournalFree 4 [(0, 1)]).Serves 8 oJournalFree ∧
      mbxNum (tCmd tS oJournalFree 4 [(0, 1)]) 8 0 2 ≤ jnlUnread tS) ∧
    ((tCmd tPts oPointRead 8 [(0, 1), (5, 0), (6, 3)]).Serves 8 oPointRead ∧
      ∀ p ∈ cmdPoints (tCmd tPts oPointRead 8 [(0, 1), (5, 0), (6, 3)]) 8, (slotOf tPts p).isSome = true) ∧
    (tCmd (tS.fset SEC_STAT_KEYRDY 0 1) oAttest 32 []).Serves 8 oAttest ∧
    (tCmd tS oReset 4 [(0, 1)]).Serves 8 oReset ∧
    (tCmd tS oCapArm 24 [(0, 1), (12, 16), (16, 16)]).Serves 8 oCapArm ∧
    (tCmd { tS with cap.recs := [tRec] } oCapDisarm 8 [(0, 1)]).Serves 8 oCapDisarm ∧
    (tCmd (tS.fset MASH_TRSTAT_STATE 31 1) oTraceStart 4 [(3, 128)]).Serves 8 oTraceStart ∧
    (tCmd (tS.fset MASH_TRSTAT_STATE 31 3) oTraceRead 8 [(0, 31), (4, 255), (5, 31)]).Serves 8 oTraceRead ∧
    (tCmd tS oBillLoad 12 [(0, 1), (4, 0xfc), (5, 0x8f), (6, 6)]).Serves 8 oBillLoad ∧
    (tCmd { tPeer with vote.runs := 2 } oStackWithdraw 0 []).Serves 8 oStackWithdraw ∧
    ((tCmd { tC with cap.recs := [{ tRec with st := .closed }] } oCapRead 12 [(0, 1), (3, 255), (8, 64)]).Serves 8 oCapRead
      ∧ isStack tC = false) ∧
    ((tCmd tPeer oForward 12 [(0, 1), (4, 1)]).Serves 8 oForward ∧ peerLane tPeer 1 = some 24) := by
  unfold State.Serves State.Runs; repeat' apply And.intro
  all_goals decide +kernel

theorem witness_ImageCommandsAreTaken :
    ((tCmd (tPh .recovery) oImageLoad 108 [(0, 200)]).Serves 8 oImageLoad ∧ covered [(0, 100)] 200 = false) ∧
    covered [(100, 100), (0, 100)] 200 = true ∧
    (romServes (tPh .recovery) = true ∧ verify (tBoot .recovery {}) false tFw 6000 (2 ^ 28) = .ok ∧
      verify (tBoot .recovery {}) false tBad 6000 (2 ^ 28) ≠ .ok) ∧
    ((tCmd { tS with flash := tFlash tFw tCfg false } oImageWrite 112 [(0, 1), (4, 200)]).Serves 8 oImageWrite ∧
      tS.sys.write = none) ∧
    (verify tS true tCfg 6000 6000 = .ok ∧ verify tS true tBad 6000 6000 ≠ .ok) ∧
    (0 + 2 * secT ≤ max 0 (2 * secT)) ∧
    ((tCmd (tS.fset SYS_BOOT_TRIAL 0 1) oImageConfirm 0 []).Serves 8 oImageConfirm ∧ tS.sys.fw = none ∧ tS.sec.otpQ = []) ∧
    ((tCmd { tS.fset SYS_BOOT_TRIAL 0 1 with sys.fw := some { tFw with svn := 63 } } oImageConfirm 0 []).Serves 8
      oImageConfirm ∧ tS.sec.otp.fwSvn < 63) ∧
    (({ tS with sec.otpQ := [.fwSvn] } : State).sec.otpQ = [.fwSvn] ∧ tS.mbx.otpWait = none ∧
      ({ tS with mbx.otpWait := some 8 } : State).mbx.otpWait = some 8) := by
  unfold State.Serves State.Runs; repeat' apply And.intro
  all_goals first | decide +kernel | exact tFw_passes

theorem witness_RackedCommandsAreSent :
    (tCmd (tH.fset SYS_STATE_STATE 0 2) oStart 0 []).Serves 8 oStart ∧ (tCmd tH oStop 4 []).Serves 8 oStop ∧
    (tCmd tH oCellBypass 4 [(0, 1)]).Serves 8 oCellBypass ∧ (tCmd tH oContactor 4 [(2, 232), (3, 3)]).Serves 8 oContactor ∧
    (tCmd { tH with ctl.cells := [(1, { state := 15 })], flash := tFlash tFw tCfg false } oCellImagePush 4 [(0, 1)]).Serves 8
      oCellImagePush ∧
    (tCmd tPeer oLeaseHandover 4 [(0, 1)]).Serves 8 oLeaseHandover ∧
    (tCmd tPtH oSetRef 16 [(4, 1), (9, 0), (10, 3)]).Serves 8 oSetRef ∧
    ((tCmd tPtH oPointWrite 16 [(0, 1), (4, 64)]).Serves 8 oPointWrite ∧
      needsLease (tCmd tPtH oPointWrite 16 [(0, 1), (4, 64)]) 8 = true) ∧
    ((tCmd tPtH oPointWrite 16 [(0, 1), (5, 0), (6, 3)]).Serves 8 oPointWrite ∧
      needsLease (tCmd tPtH oPointWrite 16 [(0, 1), (5, 0), (6, 3)]) 8 = false) ∧
    ((tCmd tH oBillSwap 4 []).Serves 8 oBillSwap ∧ swapBusy tH = false) ∧
    (({ tS with mbx.handWait := some 8 } : State).mbx.handWait = some 8 ∧ 0 + 2 * msT ≤ max 0 (2 * msT) ∧
      max 0 0 < 0 + 2 * msT) ∧
    (tRack.sid = ownSid tPeer ∧ ackedAll { tPeer with mbx.racks := [tRack] } tRack = false ∧
      2 ≤ cycDiff (cycleNow (tPeer.fset TIM_CYCLE_CYCLE 0 2)) tRack.at_) ∧
    (({ tS with mbx.remote := [{ key := 8, op := oForward, deadline := 5, left := [] }] } : State).mbx.remote.length = 1 ∧
      5 ≤ max 0 5 ∧ max 0 4 < 5) ∧
    -- the check of a swap: a stack's empty bank fails it; the shipped bill of a stack and of a cell passes
    (({ tS with mash.chk := some { cyc := 0, mbx := some 8 } } : State).mash.chk = some { cyc := 0, mbx := some 8 } ∧
      domOn tS 1 = true ∧ (swapChecked tS { cyc := 0, mbx := some 8 }).1 ≠ .ok ∧
      ({ tS with mash.chk := some { cyc := 0, rack := some (0, 1, 7) } } : State).mash.chk =
        some { cyc := 0, rack := some (0, 1, 7) } ∧
      (let x := swapChecked (tShip tS 5) { cyc := 5, mbx := some 8 }; x.1 == .ok && isStack x.2) = true ∧
      (let x := swapChecked (tShip tC 12) { cyc := 5, mbx := some 8 }; x.1 == .ok && !isStack x.2) = true) := by
  unfold State.Serves State.Runs; repeat' apply And.intro
  all_goals decide +kernel

theorem witness_RefusedMailboxCommands :
    -- a length that fits no opcode refuses every one of them
    ∀ op ∈ [oGetInfo, oGetStatus, oReset, oImageLoad, oImageWrite, oImageConfirm, oPointRead, oPointWrite, oSetRef, oCapArm,
      oCapDisarm, oCapStatus, oCapRead, oTraceStart, oTraceRead, oBillLoad, oBillSwap, oLeaseStatus, oLeaseHandover,
      oStackWithdraw, oAttest, oDebugUnlock, oJournalRead, oJournalFree, oForward, oStart, oStop, oCellBypass, oContactor,
      oCellImagePush], (tCmd tH op 4097 []).Refuses 8 op := by
  unfold State.Refuses State.Runs; decide +kernel
/-! ## Witnesses: QSPI, Ethernet, time -/

theorem witness_QspiTransfersAreServed :
    running tS = true ∧ tS.qspi.phase = .idle ∧ tS.qspi.part = 0 ∧
    (busWrite { tS with qspi.phase := .write, qspi.addr := 0x30000 } 1 0x30000 0 4 true).2.qspi =
      ({ tS with qspi.phase := .write, qspi.addr := 0x30000 } : State).qspi ∧
    (busRead { tS with qspi.phase := .read, qspi.addr := 0xfffffffc } 1 0xfffffffc 4).2.2.qspi =
      ({ tS with qspi.phase := .read, qspi.addr := 0xfffffffc } : State).qspi ∧
    blkOf 0xfffffffc = none ∧ ({ tS with qspi.part := 3 } : State).qspi.part ≠ 0 ∧ running State.reset = false ∧
    ({ tS with qspi.phase := .read } : State).qspi.phase ≠ .idle := by
  repeat' apply And.intro
  all_goals decide +kernel

theorem witness_EthernetMessagesAreServed :
    ethServes tEth 1 = true ∧ holds tEth = false ∧ holds tEthH = true ∧ 2 ∉ (cfgOf tEthH).sources ∧
    (1 ∈ (cfgOf tEthH).sources ∧ mineIp tEthH 0 = true) ∧
    (macTakes tEth (28 + 1472) = true ∧ macTakes tEth (28 + 1473) = false ∧ macTakes tEth (20 + 1) = true) ∧
    (tEth.mbx.frags = [] ∧ 20 + 4155 + [1].length ≤ 4176 ∧ (4155 ≠ 0 ∧ [1] ≠ [])) ∧
    (portIp tEth 0 = 0 ∧ (cfgOf tEthH).plantAddr = 0) ∧ ethServes tC 0 = false ∧ mineIp tEth 5 = false ∧
    (holds { tEthH with vote.arp2 := true } = true ∧ tEthH.vote.gained + msT ≤ max 0 msT) := by
  repeat' apply And.intro
  all_goals decide +kernel

theorem witness_PtpMessagesAreServed :
    (portUp tEth 1 = true ∧ usesPtp tEth = true ∧ tAnn.domain = tEth.fget TIM_CFG_DOMAIN ∧ (ptpOf tEth 1).best = none ∧
      tEth.fget TIM_CFG_PORT ≠ 2 ∧ dsBetter (some tAnn) none = true ∧ dsBetter (some tAnn) (some tAnn) = false) ∧
    (let s := tEth.fset TIM_CFG_PORT 0 2
     let u := ptpMod s 1 (fun x => { x with best := some tAnn })
     (ptpOf s 1).best = none ∧ s.tim.port = 0 ∧ dsBetter (ptpOf u 1).best (ptpOf u 0).best = true ∧
       dsBetter (ptpOf (ptpMod u 0 (fun x => { x with best := some tAnn })) 1).best (some tAnn) = false) ∧
    (portUp tS 0 = false ∧ usesPtp tC = false ∧ 1 ≠ tEth.fget TIM_CFG_DOMAIN) ∧
    (timePort tEth ≠ 1 ∧ timePort tEth = 0 ∧ (tEth.fset TIM_CFG_PORT 0 2).fget TIM_CFG_PORT = 2 ∧
      timePort (tEth.fset TIM_CFG_PORT 0 2) = 0) ∧
    ((ptpOf (ptpMod tEth 0 (fun x => { x with best := some tAnn })) 0).best = some tAnn ∧ tAnn.sender = 7) ∧
    ((judgeLock (servo tEth 0) 0 16 4).fget TIM_STAT_LOCK ≠ 1 ∧
      (judgeLock (servo { tEth with tim.good := 15 } 0) 0 16 4).fget TIM_STAT_LOCK = 1) ∧
    ((tEth.fset TIM_STAT_LOCK 0 1).fget TIM_STAT_LOCK = 1 ∧ (judgeLock (servo { tEth.fset TIM_STAT_LOCK 0 1 with
        tim.bad := 3 } (10 ^ 12)) (10 ^ 12) 16 4).fget TIM_STAT_LOCK ≠ 1 ∧
      inService (judgeLock (servo { tEth.fset TIM_STAT_LOCK 0 1 with tim.bad := 3 } (10 ^ 12)) (10 ^ 12) 16 4) = true) ∧
    ((ptpOf (ptpMod tEth 0 (fun x => { x with t1 := some 4 })) 0).t1 = some 4 ∧ portUp tEth 0 = true ∧
      tEth.fget TIM_CFG_DOMAIN = 0) ∧
    ((tEth.fset TIM_CFG_TC 0 1).fget TIM_CFG_TC = 1 ∧ portUp (tEth.fset TIM_CFG_TC 0 1) 0 = true ∧
      portUp (tEth.fset TIM_CFG_TC 0 1) (1 - 0) = true) := by
  repeat' apply And.intro
  all_goals decide +kernel

/-- A cell whose known holder is stack 1. -/
def tTm : State :=
  { (tLk 10).fsets [(TIM_PDLY_VALID, 0, 1), (VOTE_CEPOCH_EPOCH, 0, 1)] with cell.holder := 1 }

theorem witness_CellTimeAndHoldover :
    (cfgInForce tC = false ∧ cfgInForce (tRun tC 10) = true ∧ (cfgOf (tRun tC 10)).ff = [0, 0, 0]) ∧
    ((rxCheck (tLk 10) 0 (tTime 2)).1 = true ∧ isUpPort (tLk 10) 0 = true ∧ bit 2 0 = false ∧ bit 2 1 = true) ∧
    ((rxCheck { (tLk 10).fsets [(TIM_PDLY_VALID, 0, 1), (VOTE_CEPOCH_EPOCH, 0, 1), (TIM_CYC_T, 0, 40000)] with
        cell.holder := 0 } 0 (tTime 1)).1 = true ∧ bit 1 0 = true ∧ bit 1 1 = false ∧
      ((tLk 10).fset TIM_CYC_T 0 40000).fget TIM_CYC_T = 40000) ∧
    ((rxCheck tTm 0 (tTime 1)).1 = true ∧ tTm.cell.holder = 1 ∧ cycOk 40000 = true ∧
      (tTm.fset VOTE_CEPOCH_EPOCH 0 0).fget VOTE_CEPOCH_EPOCH < 1) ∧
    (rxCheck tC 0 (tTime 2)).1 = false ∧ isStack tS = true ∧ isStack tC = false ∧
    ((lnOf ({ tLk 10 with lanes := [(0, { t1 := some 4 })] } : State) 0).t1 = some 4 ∧ (lnOf (tLk 10) 2).t1 = none ∧
      4 + 10 * usT ≤ stampAt ((tLk 10).at (20 * usT)) 0 (20 * usT) ∧ stampAt ((tLk 10).at 0) 0 0 < 4 + 10 * usT ∧
      isUpPort (tLk 10) 0 = true) ∧
    (recent tC.tim.ffAt (10 * msT) (max tC.clk 0) = false ∧ recent tC.tim.dreqAt msT (max tC.clk 0) = false ∧
      recent ({ tC with tim.ffAt := some 0 } : State).tim.ffAt (10 * msT) (max tC.clk 0) = true ∧
      recent ({ tC with tim.dreqAt := some 0 } : State).tim.dreqAt msT (max tC.clk 0) = true) ∧
    (({ tLk 10 with tim.used := true } : State).tim.used = true ∧ (tLk 10).fget TIM_STAT_HOLD ≠ 1 ∧
      (tLk 10).tim.lastUse + 10 * cycT (tLk 10) ≤ max 0 (10 * cycT (tLk 10)) ∧ (tLk 10).fget TIM_HOLD_CELLHOLD ≠ 0 ∧
      max 0 0 < (tLk 10).tim.lastUse + 10 * cycT (tLk 10)) ∧
    (((tLk 10).fset TIM_STAT_HOLD 0 1).fget TIM_STAT_HOLD = 1 ∧
      (tLk 10).tim.holdAt + (tLk 10).fget TIM_HOLD_CELLHOLD * msT ≤ max 0 ((tLk 10).fget TIM_HOLD_CELLHOLD * msT) ∧
      max 0 0 < (tLk 10).tim.holdAt + (tLk 10).fget TIM_HOLD_CELLHOLD * msT) ∧
    (tC.MayRead 8 0x40020 ∨ tC.MayRead 0 0x40020) := by
  unfold State.MayRead; repeat' apply And.intro
  all_goals decide +kernel
/-! ## Witnesses: points, cycle, mash, stack control -/

theorem witness_PointWindowAccesses :
    (tPts.MayRead 0 (winAddr 0x30000 0) ∧ slotValid tPts 0x30000 = true ∧ tPts.sec.ecc = []) ∧
    tPts.MayWrite 0 (winAddr 0x30000 1) 7 false ∧
    (tPts.MayWrite 0 (winAddr 0x30000 0) 7 false ∧ srcTakes (dSrc (slotEnt tPts 0x30000)) 0 = true ∧
      smGet none ({ tPts with grist.stage := [(0, some (0x30000, 9))] } : State).grist.stage 0 = some (0x30000, 9)) ∧
    (smGet none tPts.grist.stage 0 = none ∧ ty64 (dType (slotEnt tPts 0x30000)) = false) ∧
    (ty64 (dType (slotEnt { tPts with grist.dir := [(0x3000, mkEntry false 1 7 0 1 0 0 0)] } 0x30000)) = true ∧
      slotValid { tPts with grist.dir := [(0x3000, mkEntry false 1 7 0 1 0 0 0)] } 0x30000 = true ∧
      ({ tPts with grist.dir := [(0x3000, mkEntry false 1 7 0 1 0 0 0)] } : State).MayWrite 0 (winAddr 0x30000 0) 7 false) ∧
    (tPts.MayWrite 0 0x18000c 1 false ∧ bit 1 0 = true ∧ bit 1 1 = false ∧ tPts.MayWrite 0 0x18000c 2 false) ∧
    (tPts.MayWrite 0 (winAddr 0x3ffff 0) 7 false ∧ slotValid tPts 0x3ffff = false) ∧
    (tPts.MayRead 0 (winAddr 0x3ffff 0) ∧ tPts.MayWrite 0 (winAddr 0x3ffff 1) 7 false ∧
      srcTakes (dSrc (slotEnt { tPts with grist.dir := [(0x3000, mkEntry false 1 4 1 1 0 0 0)] } 0x30000)) 0 = false) ∧
    (tPts.MayWrite 0 0x18000c 3 false ∧ bit 3 0 = true ∧ bit 3 1 = true ∧ dirCheck tPts 0x3fff (2 ^ 59 + 2 ^ 57 + 2 ^ 56) ≠ .ok) ∧
    dirCheck tPts 0x3fff (mkEntry false 1 4 0 1 0 0 0 / 2 ^ 32 * 2 ^ 32 + mkEntry false 1 4 0 1 0 0 0 % 2 ^ 32) = .ok := by
  unfold State.MayRead State.MayWrite; repeat' apply And.intro
  all_goals decide +kernel

theorem witness_TheCycleAndItsFill :
    (let s := tS.at (80000 * nsT)
     s.tim.bound < boundAt s (netTime s) ∧ netTime s < boundAt s (netTime s) + 109227 ∧
      isStack tS = true ∧ isStack tC = false) ∧
    boundAt tS (netTime tS) ≤ tS.tim.bound ∧
    (let s := tS.at (80002 * nsT); boundAt s (netTime s) + 109227 ≤ netTime s) ∧
    (domOn tS 2 = true ∧ tS.tim.bound + tS.eget PT_FILLCFG_OFS * 65536 ≤ netTime { tS with clk := 10 ^ 6 * nsT } ∧
      ({ tS with grist.closed := false } : State).grist.closed = false ∧ tS.sys.phase = .firmware ∧ tS.sys.halted = false) ∧
    netTime tS < tS.tim.bound + tS.eget PT_FILLCFG_OFS * 65536 ∧
    (({ tS with grist.closed := true } : State).grist.closed = true ∧ domOn (tS.fset PWR_DOMSTAT_ON 0 0) 2 = false ∧
      (tPh .selfTest).sys.phase ≠ .firmware) ∧
    ((rxCheck tLs 0 tTel).1 = true ∧ isStack tLs = true ∧ isChainLane tLs 0 = true ∧ livePeers tLs = [1] ∧
      (peerLane tLs 1).isSome = true ∧ isChainLane tS 24 = false ∧
      bit (lnOf { tLs with lanes := [(24, { far1 := 1 })] } 24).far1 0 = true ∧
      (rxCheck (tLk 12) 4 ⟨{ ty := 2, len := 16, up := true, pos := 1 }, tTel.body⟩).1 = true ∧ isStack (tLk 12) = false ∧
      (rxCheck tLs 24 ⟨{ ty := 2, len := 16, up := true, fwd := true }, tTel.body⟩).1 = true) ∧
    (rxCheck tS 0 tTel).1 = false := by
  repeat' apply And.intro
  all_goals decide +kernel

/-- A task whose intake has read a shipped bill's inputs. -/
def tIn : TaskRun := { ship := some { recs := [], refs := [], step := 0, stop := false, dev := 5, applyAt := 0 } }

theorem witness_MashTasksRun :
    (let s : State := { tShip tS 5 with grist.closed := true, grist.closedAt := 3001 * 65536 }
     let due (v : State) : Bool := decide ((mainWindow v).1 ≤ netTime v) && decide (netTime v < (mainWindow v).2)
     mashRuns s = true ∧ s.mash.main = none ∧ s.mash.fast = none ∧ s.sec.ecc = [] ∧ s.mash.ranCycle ≠ cycleNow s + 1 ∧
      s.grist.closed = true ∧ due (settleFast (s.at (3003 * nsT))) = true ∧ due (settleFast (s.at (3002 * nsT))) = false ∧
      due (settleFast (s.at (3005 * nsT))) = false) ∧
    mashRuns tS = false ∧
    (let s := settleFast ((tShip tC 12).at (5000 * nsT))
     mashRuns s = true ∧ billFast s ≠ 0 ∧ s.mash.fast = none ∧ fastGrid s ≤ netTime s ∧ netTime s < fastGrid s + 65536 ∧
      s.mash.fastAt ≠ fastGrid s + 1 ∧
      (let v := (tShip tC 12).at (5001 * nsT); fastGrid v + 65536 ≤ netTime v) ∧
      -- the main task at rest, one that starts in this instant and one that is under way
      (runTask s false (some s.clk)).mash.main = none ∧
      (runTask { s with mash.main := some { began := netTime s, next := s.clk + 1 } } false (some s.clk)).mash.main.any (fun m => m.pos == 0 &&
        decide (fastGrid s ≤ m.began)) = true ∧
      (runTask { s with mash.main := some { pos := 1, next := s.clk + 1 } } false (some s.clk)).mash.main.any (fun m => m.pos != 0) = true ∧
      -- a fast execution in its outlet and one in its intake
      (let v : State := { s with mash.fast := some { tIn with pos := (inItems s true).length + 1 } }
       (inItems v true).length < (inItems s true).length + 1 ∧ (runTask v true none).mash.fast.isSome = true)) ∧
    -- a fast and a main task of a shipped bill and of a bill without one, at their end and before it
    ((runTask { tShip tC 12 with mash.fast := some tIn } true none).mash.fast.any (fun x => x.ship.isSome) = true ∧
      (runTask { tC with mash.fast := some {} } true none).mash.fast.any (fun x => x.ship.isNone) = true ∧
      taskDone (runTask { tC with mash.fast := some {} } true (some 0)) true = true ∧
      taskDone (runTask { tShip tC 12 with mash.fast := some tIn } true (some 0)) true = false) ∧
    ((runTask { tShip tS 5 with mash.main := some { tIn with pos := 3 } } false (some 0)).mash.main.any
        (fun x => x.ship.isSome) = true ∧
      taskDone (runTask { tShip tS 5 with mash.main := some { tIn with pos := 3 } } false (some 0)) false = true ∧
      taskDone (runTask { tShip tS 5 with mash.main := some tIn } false (some 0)) false = false ∧
      (runTask { tS with mash.main := some {} } false (some 0)).mash.main.any (fun x => x.ship.isNone) = true ∧
      taskDone (runTask { tS with mash.main := some {} } false (some 0)) false = true ∧
      (settleFast ((tShip tS 5).at 0)).mash.fast = none ∧ (settleFast ((tShip tS 5).at 0)).mash.main = none) ∧
    (let v := settleFast ((tShip tS 5).at (billDeadline (tShip tS 5) * nsT))
     mashRuns v = true ∧ v.tim.bound + billDeadline v * 65536 ≤ netTime v ∧
      netTime v < v.tim.bound + billDeadline v * 65536 + 65536 ∧ v.mash.main = none ∧ v.mash.ranCycle ≠ cycleNow v + 1) ∧
    (∀ x ∈ (runTask { tShip tS 5 with mash.main := some { pos := 3 } } false (some 0)).mash.main,
      outletBegun (tShip tS 5) x = true) ∧
    (let s : State := runTask { tShip tS 5 with mash.main := some { next := 9 } } false (some 0)
     s.mash.main.isSome = true ∧ ∀ x ∈ s.mash.main, outletBegun s x = false) := by
  repeat' apply And.intro
  all_goals decide +kernel

theorem witness_MashRegistersActAsWritten :
    (tS.MayWrite 0 0x171004 3 true ∧ bit 3 0 = true ∧ bit 3 1 = true ∧ swapBusy tS = false) ∧
    (tS.MayWrite 0 0x171004 2 true ∧ bit 2 0 = false ∧
      ({ tS with mash.tune := [(0, 1)] } : State).mash.tune ≠ [] ∧ tS.mash.tune = []) ∧
    swapBusy { tS with mash.chk := some { cyc := 5 } } = true ∧
    (tC.MayWrite 0 0x176004 1 false ∧ isStack tC = false ∧ tC.mash.tune.length < 64 ∧
      isStack tS = true ∧ tS.MayWrite 0 0x176004 1 false ∧ stackCount tS = 1 ∧ stackCount { tS with sys.cfg := some { tImg with cfg.topo.nStacks := 2 } } ≠ 1) ∧
    (tS.MayWrite 0 (0x172004 + 0x1000 * 1) 1 false ∧ (tS.fset (bankAddr 1) 0 0x68ffc).fget (bankAddr 1) 0 < 0x69000 ∧
      0x69000 ≤ (tS.fset (bankAddr 1) 0 0x69000).fget (bankAddr 1) 0 ∧ bankBusy tS 1 = false ∧ bankBusy tS 0 = true) ∧
    (tS.MayRead 0 0x175004 ∧ tS.sec.ecc = [] ∧ holdsShipped tS (actBank tS) = false ∧
      holdsShipped (tShip tC 12) (actBank (tShip tC 12)) = true) ∧
    (tS.MayWrite 0 0x171008 0x80000001 false ∧ bitList 32 0x80000001 = [0, 31] ∧
      (tS.fset MASH_TRSTAT_STATE 0 2).fget MASH_TRSTAT_STATE 0 = 2 ∧ tS.fget MASH_TRSTAT_STATE 31 = 0) ∧
    (tS.MayWrite 0 0x17100c 3 false ∧ bitList 32 3 = [0, 1] ∧ (tS.fset MASH_TRSTAT_STATE 0 1).fget MASH_TRSTAT_STATE 0 = 1 ∧
      tS.fget MASH_TRCFG1_PRE 0 ≤ tS.fget MASH_TRSTAT_TAKEN 0 ∧ tS.fget MASH_TRSTAT_STATE 1 ≠ 1) ∧
    tS.MayWrite 0 0x171010 1 false := by
  unfold State.MayRead State.MayWrite; repeat' apply And.intro
  all_goals decide +kernel

theorem witness_StackControlEventsAct :
    (isStack (tRun tS 2) = true ∧ devState (tRun tS 2) = 2 ∧
      (usedChains { tRun tLs 2 with ctl.cells := [(0, { state := 9 }), (1, { state := 9 })] }).all (fun k =>
        laneActive tLs k && (heardCells { tRun tLs 2 with ctl.cells := [(0, { state := 9 }), (1, { state := 9 })] }).contains
          (8 * k + chainLen (tRun tLs 2) k - 1)) = true ∧
      armsFull (tRun tS 2) [0, 1] = true) ∧
    ((tRun tS 2).ctl.enumAt + (cfgOf (tRun tS 2)).topo.enumTimeout * msT ≤ max 0 (500 * msT) ∧
      armsFull (tMin 2) (heardCells (tMin 2)) = false) ∧
    (isStack tC = false ∧ devState (tRun tS 3) = 3) ∧
    (((tRun tS 3).fset TIM_STAT_LOCK 0 1).fget TIM_STAT_LOCK = 1 ∧ ({ tS with ctl.startHeld := true } : State).ctl.startHeld = true ∧
      tS.ctl.found = [] ∧ tS.vote.rejoin = false ∧ (cfgOf (tRun tS 3)).ctrl.shipped = false ∧ tS.fget TIM_STAT_LOCK ≠ 1) ∧
    (devState (tRun tS 4) = 4 ∧ ({ tS with ctl.step := 1 } : State).ctl.step = 1 ∧ tS.ctl.laggards = false ∧
      tS.ctl.pitchAt + (cfgOf (tRun tS 4)).ctrl.prechgTmo * secT ≤ max 0 (600 * secT) ∧ holds (tRun tS 4) = false) ∧
    (devState (tShip tS 5) = 5 ∧ devState (tShip tS 6) ≠ 5 ∧ shippedCfg (tShip tS 5) = true ∧ shippedCfg (tRun tS 5) = false ∧
      shippedCfg (tShip tS 4) = true ∧ ({ tShip tS 4 with ctl.step := 1 } : State).ctl.step = 1 ∧
      ({ tShip tS 5 with ctl.step := 3 } : State).ctl.step = 3 ∧ tS.ctl.brk = 0 ∧ tS.ctl.stop = none ∧
      (cfgOf (tShip tS 5)).ctrl.shipped = true ∧
      ptWord { tShip tS 5 with mem := tF1, grist.dir := [(0x3080, mkEntry false 1 4 0 8 0 0 0)] } 0x30803 = F_ONE) ∧
    (({ tS with ctl.step := 3 } : State).ctl.step = 3 ∧ tS.ctl.brk ≠ 4) ∧
    (let s : State := { (tRun tPeer 3).fset TIM_STAT_LOCK 0 1 with ctl.startHeld := true, vote.rejoin := true, vote.runs := 2 }
     devState s = 3 ∧ s.vote.rejoin = true ∧ [0, 1, 2].any (fun sid => sid != ownSid s && peerRuns s sid) = true ∧
      (cfgOf (tShip tS 3)).ctrl.shipped = true ∧ devState (tShip tS 3) = 3) ∧
    (holds ((tShip tS 4).fset VOTE_LEASE_HELD 0 1) = true ∧ holds (tShip tS 4) = false) ∧
    (let s : State := { tShip tS 5 with ctl.stop := some 0, ctl.stopStep := 1, ctl.step := 3, ctl.brk := 4 }
     shippedCfg s = true ∧ s.ctl.stop ≠ none ∧ s.ctl.stopStep = 1 ∧ inService s = true ∧ s.ctl.brk = 4 ∧
      inService (tShip tS 3) = false) ∧
    (let s : State := { tShip tS 5 with ctl.stop := some 0, ctl.lowSince := some 0 }
     inService s = true ∧ shippedCfg s = true ∧ s.ctl.stop.isSome = true ∧ s.ctl.stopStep = 0 ∧ 0 + 10 * msT ≤ max s.clk (10 * msT) ∧
      (tShip tS 5).ctl.lowSince = none ∧ max s.clk 0 < s.ctl.stopAt + (cfgOf s).ctrl.stopTmo * msT) ∧
    ((tRun tS 5).ctl.brkAt + (cfgOf (tRun tS 5)).ctrl.brkTmo * msT ≤ max 0 (2000 * msT) ∧
      ({ tS with ctl.brk := 2 } : State).ctl.brk = 2 ∧ ({ tS with ctl.brk := 3, ctl.stopStep := 1 } : State).ctl.brk = 3) ∧
    (inService (tRun tS 5) = true ∧ ({ tS with ctl.stop := some 0 } : State).ctl.stop.isSome = true ∧ tS.ctl.stopStep = 0 ∧
      tS.ctl.stopAt + (cfgOf (tRun tS 5)).ctrl.stopTmo * msT ≤ max 0 (60000 * msT)) ∧
    (smGet 0 ({ tS with ctl.pulse := [(7, 5)] } : State).ctl.pulse 7 = 5 ∧ (5 : Nat) ≠ 0 ∧ 5 ≤ max 0 5 ∧ max 0 4 < 5) := by
  repeat' apply And.intro
  all_goals decide +kernel
/-! ## Witnesses: the cell, lanes and frames -/

theorem witness_CommandFramesAndVotes :
    ((rxCheck (tLk 12) 0 (tCmdF 0 0)).1 = true ∧ isUpPort (tLk 12) 0 = true ∧ (tCmdF 0 0).hdr.pos = myPos (tLk 12)) ∧
    (3 ≤ cycDiff 3 0 ∧ cycDiff 0 17 < -16 ∧ cycDiff 1 0 = 1 ∧ cycDiff 2 0 = 2 ∧ -16 ≤ cycDiff 0 16 ∧ cycDiff 0 16 < 0) ∧
    ((tLk 12).fget TIM_STAT_LOCK = 1 ∧ tC.fget TIM_STAT_LOCK ≠ 1 ∧ stampAt (tLk 12) 0 0 < voteInst (tLk 12) ∧
      voteInst (tLk 12) ≤ stampAt (tLk 12) 0 (voteInst (tLk 12))) ∧
    (let s := tLk 12
     let d := voteInst s + 5 * 65536
     s.cell.voteCyc ≠ cycleNow s + 1 ∧ ({ s with cell.voteCyc := 1 } : State).cell.voteCyc = cycleNow s + 1 ∧
      d ≤ netTime (s.at d) ∧ netTime (s.at d) < d + 109227 ∧ netTime (s.at (d - 1)) < d ∧
      d + 109227 ≤ netTime (s.at (d + 109227)) ∧
      ∀ sid, sid < 3 → present (s.at d) sid (cycleNow s) = none) ∧
    (let s : State := { tLk 12 with cell.held := [(0, [(0, 0, List.replicate 64 0)])] }
     (present s 0 (cycleNow s)).isSome = true ∧ (decideVote [0] (fun _ _ => true) 0 true).used.isSome = true) ∧
    (({ tLk 12 with cell.cc := 1 } : State).fget VOTE_CCFG_COAST ≥ 1 ∧ ({ tLk 12 with cell.cc := 9 } : State).fget VOTE_CCFG_COAST < 9 ∧
      (tLk 13).cell.cc = 0 ∧ devState (tLk 13) = 13 ∧ devState (tLk 15) = 15 ∧
      ((tLk 15).fset SYS_STATE_PREV 0 12).fget SYS_STATE_PREV = 12 ∧ devState (tLk 10) ≠ 12) ∧
    (rxCheck tC 0 (tCmdF 0 0)).1 = false ∧ isStack tS = true ∧
    (isStack (tRun tC 5) = false ∧ domOn ((tLk 11).fset PWR_DOMSTAT_ON 0 1) 2 = false ∧ 5 ≤ devState (tLk 11) ∧
      devState (tLk 11) ≤ 11 ∧ ∀ sid, sid < 3 → present (tLk 11) sid (cycleNow (tLk 11)) = none) ∧
    (devState (tLk 12) = 12 ∧ domOn ((tLk 12).fset PWR_DOMSTAT_ON 0 1) 2 = false ∧ (tLk 12).cell.cc + 1 ≤ ((tLk 12).fset VOTE_CCFG_COAST 0 1).fget VOTE_CCFG_COAST) ∧
    (tC.cell.seenAt + 20 * msT ≤ max 0 (20 * msT) ∧ max 0 0 < tC.cell.seenAt + 20 * msT) := by
  repeat' apply And.intro
  all_goals decide +kernel

theorem witness_CellBypassAndRejoin :
    ((leaseOk (tLk 12) 0 1).1 = true ∧ devState (leaseOk (tLk 12) 0 1).2 = 12 ∧ devState (leaseOk (tLk 13) 2 1).2 = 13 ∧
      devState (leaseOk (tLk 10) 0 1).2 = 10 ∧ devState (leaseOk (tLk 9) 0 1).2 = 9 ∧ devState (leaseOk (tLk 15) 0 1).2 = 15) ∧
    ((∀ g, g < 8 → (clearFaults (leaseOk (tLk 14) 0 1).2).fget FLT_GSTAT_LATCH g ≠ 1) ∧
      (clearFaults (leaseOk (tLk 14) 0 1).2).fget KILN_STAT_TRIP ≠ 1 ∧
      (clearFaults (leaseOk (tLk 14) 0 1).2).fget TIM_STAT_LOCK = 1 ∧
      (clearFaults (leaseOk { tLk 14 with cell.voteOk := true } 0 1).2).cell.voteOk = true ∧
      (clearFaults (leaseOk (tLk 14) 0 1).2).cell.voteOk ≠ true ∧ devState (leaseOk (tLk 11) 0 1).2 = 11) ∧
    (({ tLk 13 with cell.stopDue := true } : State).cell.stopDue = true ∧ domOn { tLk 13 with cell.stopDue := true } 9 = true ∧
      domOn ((tLk 13).fset PWR_DOMSTAT_ON 0 1) 9 = false ∧ (tLk 13).cell.stopDue = false ∧
      ({ tLk 13 with cell.safeCycle := 7 } : State).cell.safeCycle ≠ cycleNow (tLk 13)) ∧
    (leaseOk (tLk 12) 0 0).1 = false ∧
    (({ tLk 10 with cell.confirm := 1 } : State).cell.confirm = 1 ∧ 10 ≤ devState (tLk 10) ∧ devState (tLk 13) ≤ 13 ∧
      devState (tLk 14) = 14 ∧ devState (tLk 9) < 10 ∧ 14 < devState (tLk 15)) ∧
    ((tLk 14).cell.pulseAt + confirmT (tLk 14) ≤ max 0 (60 * msT) ∧ ({ tLk 14 with cell.confirm := 2 } : State).cell.confirm ≠ 0 ∧
      isStack (tLk 14) = false ∧ isStack tS = true ∧ devState (tLk 13) ≠ 14 ∧ (tLk 14).cell.confirm = 0 ∧
      max 0 0 < (tLk 14).cell.pulseAt + confirmT (tLk 14)) ∧
    (({ tLk 11 with cell.confirm := 2 } : State).cell.confirm = 2 ∧ devState (tLk 11) = 11 ∧ devState (tLk 10) ≠ 11) := by
  repeat' apply And.intro
  all_goals decide +kernel

theorem witness_CellPrechargeSlotsAndCharge :
    (isStack (tLk 10) = false ∧ devState (tLk 10) = 10 ∧ ({ tLk 10 with cell.step := 1 } : State).cell.step = 1 ∧
      ({ tLk 10 with cell.step := 4 } : State).cell.step = 4 ∧ devState tC ≠ 10 ∧ linkRaised (tLk 10) = true ∧
      linkRaised { tLk 10 with cell.meas := { (tLk 10).cell.meas with vdcMv := 0x7fc00000 } } = false) ∧
    (let s : State := { (tLk 10).fset SPR_STAT_STATE 0 S_RUN with cell.step := 4 }
     devState s = 10 ∧ s.cell.step = 4 ∧ sprState s = S_RUN ∧ sprState (tLk 10) ≠ S_RUN) ∧
    (carrierBoundary (tLk 12) = true ∧
      carrierBoundary { (tLk 12).fset PWM_STAT_RUN 0 1 with clk := 10 * clkT } = false) ∧
    (({ tLk 10 with cell.slotDue := true } : State).cell.slotDue = true ∧
      0 ≤ cycDiff (cycleNow (tLk 10)) (refWord (tLk 10) 20) ∧ (tLk 10).cell.slotDue = false) ∧
    State.reset.sys.phase ≠ .firmware ∧
    ((tLk 12).sys.phase = .firmware ∧ domOn ((tLk 12).fset PWR_DOMSTAT_ON 0 1) 2 = false ∧ devState (tLk 12) ≠ 14) ∧
    (domOn (tLk 12) 2 = true ∧ domOn (tLk 14) 9 = true ∧ sprState ((tLk 14).fset SPR_STAT_STATE 0 S_RUN) ≠ S_OFF ∧
      shippedCfg (tLk 12) = false ∧ shippedCfg (tShip tC 12) = true) ∧
    (({ tLk 12 with cell.lowSince := some 0 } : State).cell.lowSince = some 0 ∧ 0 + 600 * secT ≤ max 0 (600 * secT) ∧
      ({ ocv := [(0, 1)] } : CellRec).ocv ≠ [] ∧ f32fin (tLk 12).cell.meas.vbat = true ∧ tC.cell.lowSince = none ∧ tC.cell.step ∉ [1, 2, 3]) := by
  repeat' apply And.intro
  all_goals decide +kernel

theorem witness_LaneStatesFollowTheLine :
    (tS.MayWrite 0 0x140100 0x80000000 false ∧ laneUsed tS (chsel tS .lnk 0) = true ∧ bits 0x80000000 16 3 ≠ 7 ∧
      tS.fget LNK_CFG_EN (chsel tS .lnk 0) = 0 ∧ bit 0x80000000 31 = true ∧ bits 0x80000000 16 3 = 0 ∧
      testNone (tS.fset LNK_TEST_GEN 0 1) 0 = false ∧ bits 0x70000 16 3 = 7 ∧ tS.MayWrite 0 0x140100 0x70000 false ∧
      laneKept (tRun tLs 5) 0 = true ∧ laneKept tS 0 = false ∧ bit 0 31 = false ∧ (tLs.fget LNK_CFG_EN 0 == 1) = true) ∧
    (tLs.MayWrite 0 0x14010c 1 false ∧ tLs.fget LNK_CFG_EN (chsel tLs .lnk 0) = 1 ∧ laneState tLs (chsel tLs .lnk 0) = L_ACTIVE ∧
      laneState (tLs.fset LNK_STAT_STATE 0 1) 0 = L_DETECT ∧ L_DETECT ≠ L_ACTIVE ∧ L_DETECT ≠ L_OFF ∧ L_DETECT ≠ L_TEST ∧
      bit 0 0 = false) ∧
    (laneState (tLs.fset LNK_STAT_STATE 27 1) 27 = L_DETECT ∧ laneState tLs 0 ≠ L_OFF ∧ laneState tLs 0 ≠ L_DETECT ∧
      laneState tLs 27 = L_OFF ∧ laneState (tLs.fset LNK_STAT_STATE 1 2) 1 = L_TRAIN ∧
      (lnOf tLs 1).since + 50 * usT ≤ max 0 (50 * usT) ∧ laneState (tLs.fset LNK_STAT_STATE 1 3) 1 = L_LOCK ∧
      (lnOf tLs 1).lockFrom + lockT ≤ max 0 lockT ∧ isEthLane tLs 1 = false ∧ capsHeld tLs 1 = false ∧
      isEthLane tLs 26 = true ∧ (lnOf tLs 1).since + 500 * usT ≤ max 0 (500 * usT) ∧
      (lnOf tLs 1).since + msT ≤ max 0 msT ∧ laneState (tLs.fset LNK_STAT_STATE 1 4) 1 = 4 ∧
      (lnOf tLs 1).lastCaps + 200 * usT ≤ max 0 (200 * usT) ∧ isYarid tLs 0 = true ∧
      (lnOf tLs 0).lastGood + 10 * usT ≤ max 0 (10 * usT) ∧
      laneState (tLs.fset LNK_STAT_STATE 1 L_TEST) 1 = L_TEST ∧ (tLs.fset LNK_TEST_CHK 1 1).fget LNK_TEST_CHK 1 = 1 ∧
      laneState tLs 0 ≠ L_TEST ∧ prbsReaches (tLs.fsets [(LNK_STAT_STATE, 1, L_TEST), (LNK_TEST_CHK, 1, 1)]) 1 = true ∧
      prbsReaches tLs 1 = false ∧ max 0 0 < (lnOf tLs 1).since + 50 * usT ∧ max 0 0 < (lnOf tLs 1).lockFrom + lockT ∧
      max 0 0 < (lnOf tLs 0).lastGood + 10 * usT ∧ capsHeld ((tLk 12).fsets [(LNK_STAT_STATE, 4, 3), (LNK_PORTS_FIXED, 0, 0)]) 4 = true ∧
      laneState (tLs.fset LNK_STAT_STATE 26 3) 26 = L_LOCK ∧ (lnOf tLs 26).lockFrom + berT ≤ max 0 berT ∧
      (lnOf tLs 26).ber + 1 < berMax ∧ berMax ≤ (lnOf (lnMod tLs 26 (fun x => { x with ber := 15 })) 26).ber + 1) := by
  unfold State.MayWrite; repeat' apply And.intro
  all_goals decide +kernel

theorem witness_LanesSendTheirFrames :
    (laneState (tLs.fset LNK_STAT_STATE 1 4) 1 = L_CAPS ∧ (lnOf tLs 1).lastTx + usT ≤ max 0 usT ∧
      (lnOf ({ tLs with lanes := [(1, { since := 5 })] } : State) 1).lastTx <
        (lnOf ({ tLs with lanes := [(1, { since := 5 })] } : State) 1).since ∧ laneState tLs 0 ≠ L_CAPS) ∧
    (laneActive tLs 0 = true ∧ takeTx [(3, tTel), (1, tCmdF 0 0)] = some (tCmdF 0 0, [(3, tTel)]) ∧ (tCmdF 0 0).hdr.ty ≠ 0 ∧
      takeTx (lnOf tLs 0).txq = none) ∧
    (txBusy tLs 0 = false ∧ txBusy (lnMod tLs 0 (fun x => { x with sent := some tTel })) 0 = true ∧
      (lnOf tLs 0).relIn.find? (fun r => r.1 == tTel) = none ∧
      (lnOf (lnMod tLs 0 (fun x => { x with relIn := [(tTel, 5, false)] })) 0).relIn.find? (fun r => r.1 == tTel) =
        some (tTel, 5, false)) ∧
    (isYarid tLs 0 = true ∧ (lnOf tLs 0).txq = [] ∧ (lnOf tLs 0).lastTx + 5 * usT ≤ max 0 (5 * usT) ∧ isYarid tLs 27 = false ∧
      laneActive tLs 1 = false) ∧
    (takeTx [(6, ⟨{}, .idle 0 0⟩)] = some (⟨{}, .idle 0 0⟩, []) ∧ bit 0 14 = false ∧
      takeTx [(2, tTime 0)] = some (tTime 0, []) ∧ (tTime 0).hdr.ty ≠ 0 ∧ tTel.hdr.ty ≠ 0) ∧
    (let u := lnMod (tLk 12) 4 (fun x => { x with relLast := some tTel, sent := some tTel })
     let v := lnMod u 4 (fun x => { x with relIn := [(tTel, 5, false)] })
     (lnOf u 4).relLast = some tTel ∧ (∀ r ∈ (lnOf u 4).relIn, r.1 ≠ tTel) ∧ (lnOf u 4).sent = some tTel ∧
      (∃ r ∈ (lnOf v 4).relIn, r.1 = tTel)) ∧
    (relays (tLk 12) 0 (tCmdF 0 7).hdr = true ∧ laneActive (tLk 12) 4 = true ∧
      laneActive ((tLk 12).fset LNK_STAT_STATE 4 0) 4 = false ∧ (lnOf (tLk 12) 4).sent = none ∧
      relays (tLk 12) 0 (tCmdF 0 0).hdr = false ∧
      (let h : Hdr := { ty := 5, up := true, pos := 1, hop := 0 }
       relays (tLk 12) 4 h = true ∧ h.ty ≠ 2 ∧ laneActive (tLk 12) 0 = true ∧ txBusy (tLk 12) 0 = false ∧
        (lnOf (tLk 12) 0).txq = [] ∧ txBusy (lnMod (tLk 12) 0 (fun x => { x with sent := some tTel })) 0 = true) ∧
      (tLk 12).fget TIM_PDLY_VALID 0 = 0 ∧ ((tLk 12).fset TIM_PDLY_VALID 0 1).fget TIM_PDLY_VALID 0 = 1) ∧
    (takeTx [(6, ⟨{ xflags := 0x4000 }, .idle 0 0⟩)] = some (⟨{ xflags := 0x4000 }, .idle 0 0⟩, []) ∧ bit 0x4000 14 = true ∧
      (lnOf (lnMod tLs 0 (fun x => { x with dreqIn := some 0 })) 0).dreqIn = some 0 ∧
      (stampAt tLs 0 tLs.clk - 0) / 16384 ≤ 16383 ∧ 16383 < (stampAt tLs 0 (20 * usT) - 0) / 16384) ∧
    ((lnOf tLs 0).since ≤ (lnOf tLs 0).lastTx ∧ max 0 0 < (lnOf tLs 0).lastTx + usT ∧
      max 0 0 < (lnOf tLs 0).lastTx + 5 * usT ∧ laneState tLs 1 < 3) ∧
    (3 ≤ laneState tLs 0 ∧ laneState tLs 0 ≠ L_TEST) := by
  repeat' apply And.intro
  all_goals decide +kernel

theorem witness_FramesAreTaken :
    (isChainLane (capsRx tLs 24 tXchk) 24 = false ∧ isChainLane (idleRx tLs 24 0 tXchk) 24 = false) ∧
    ((rxCheck tLs 24 (tTrig 0)).1 = true ∧ tLs.link.trigSeen.filter (fun e => decide (tLs.clk < e.2.2 + msT)) = [] ∧
      ({ tLs with link.trigSeen := [(3, 1, 0)] } : State).link.trigSeen.filter (fun e => decide (tLs.clk < e.2.2 + msT)) =
        [(3, 1, 0)]) ∧
    (rxCheck tLs 24 tXchk).1 = true ∧ (rxCheck tLs 24 tRackF).1 = true ∧
    ((rxCheck tLs 24 (tRra 0)).1 = true ∧ forMe tLs 24 (tRra 2).hdr = true ∧ tLs.sys.phase = .firmware ∧
      tLs.sys.halted = false ∧ laneServes tLs 24 = true) ∧
    ((rxCheck tLs 24 (tRra 2)).1 = true ∧ (rxCheck tLs 24 (tRra 7)).1 = true ∧ (rxCheck tLs 24 (tRra 11)).1 = true ∧
      3 ≤ 7 ∧ 7 ≠ 8 ∧ 11 ≠ 10) ∧
    ((rxCheck tLs 24 (tRra 8)).1 = true ∧ (rxCheck tLs 24 (tRra 9)).1 = true ∧ (rxCheck tLs 24 (tRra 10)).1 = true ∧
      isPeerLane tLs 24 = true ∧ isDownPort tLs 24 = false ∧ isStack tLs = true ∧ isChainLane tLs 24 = false) ∧
    (let h : Hdr := { ty := 7, len := 12, up := true }
     let f : Frame := ⟨h, .rra 10 0 true 0 0 0x100000 0 []⟩
     (rxCheck tLs 0 f).1 = true ∧ forMe tLs 0 h = true ∧ isChainLane tLs 0 = true ∧ isPeerLane tLs 0 = false ∧
      0x100000 / 65536 % 0x8000 = 0x10) ∧
    (let h : Hdr := { ty := 7, len := 12 }
     (rxCheck (tLk 12) 0 ⟨h, .rra 10 0 true 0 0 0 0 []⟩).1 = true ∧ forMe (tLk 12) 0 h = true ∧ isStack (tLk 12) = false ∧
      laneServes (tLk 12) 0 = true ∧ isDownPort (tLk 12) 0 = false ∧ (tLk 12).sys.phase = .firmware) ∧
    (let u : State := { tLs with lanes := [(0, { bootReq := true })] }
     isChainLane u 0 = true ∧ (lnOf u 0).bootReq = true) ∧
    (let f : Frame := ⟨{ (tRra 0).hdr with up := true, pos := 0 }, (tRra 0).body⟩
     laneServes tLs 0 = false ∧ forMe tLs 0 f.hdr = true ∧ (rxCheck tLs 0 f).1 = true) ∧
    ((rxCheck tLs 1 (tRra 0)).1 = false) := by
  repeat' apply And.intro
  all_goals decide +kernel
/-! ## Witnesses: pairs, gates, faults, regulator -/

theorem witness_PairRegistersActAsWritten :
    (tPwm.MayWrite 0 0x100118 1 true ∧ chsel tPwm .pwm 0 = 0 ∧ bit 1 1 = false ∧ bit 1 0 = true ∧
      stagedCheck tPwm 0 (tPwm.flag PWM_CFG_ALIGN 0) = .ok ∧ (pwmOf tPwm 0).rel = none) ∧
    (tPwm.MayWrite 0 0x100118 2 false ∧ bit 2 1 = true ∧ bit 2 0 = false) ∧
    -- both bits, a refused set, a set of M7, a waiting set before and at its reload instant
    (tPwm.MayWrite 0 0x100118 3 true ∧ stagedCheck (cancelSet tPwm 0) 0 false = .ok ∧
      stagedCheck (tPwm.fset PWM_PER_PER 0 0) 0 false ≠ .ok ∧ tPwm.MayWrite 7 0x100118 1 true ∧ chsel tPwm .pwm 7 = 0) ∧
    (let v := pwmMod (tPwm.fset PWM_STAT_RUN 0 1) 0 (fun x => { x with rel := some ⟨2000, 0, 0, 0, 0, false⟩, nextValley := 3 * clkT })
     (pwmOf v 0).rel = some ⟨2000, 0, 0, 0, 0, false⟩ ∧ v.fget PWM_STAT_RUN 0 = 1 ∧
      0 + 2 * clkT ≤ nextReload v 0 ⟨2000, 0, 0, 0, 0, false⟩ ∧ nextReload v 0 ⟨2000, 0, 0, 0, 0, false⟩ < 2 * clkT + 2 * clkT ∧
      ¬ nextReload v 0 ⟨2000, 0, 0, 0, 0, false⟩ < 0 + 2 * clkT ∧ v.clk ≤ nextReload v 0 ⟨2000, 0, 0, 0, 0, false⟩) ∧
    (bitList 12 0x801 = [0, 11] ∧ instStatus tPwm .pwm 11 = .ok ∧ instStatus (tPwm.fset PWR_DOMSTAT_ON 0 1) .pwm 11 ≠ .ok ∧
      tPwm.MayWrite 0 0x101004 0x801 false ∧ tPwm.MayWrite 0 0x101000 0x801 true ∧
      bitList 12 0x800 = [11] ∧ tPwm.MayWrite 0 0x101004 0x800 false ∧
      tPwm.MayWrite 0 0x101000 1 true ∧ bitList 12 1 = [0] ∧ instStatus tPwm .pwm 0 = .ok ∧
      tPwm.fget PWM_CFG_ALIGN 0 ≠ 1 ∧ (tPwm.fset PWM_CFG_ALIGN 0 1).fget PWM_CFG_ALIGN 0 = 1) ∧
    (tPwm.MayWrite 0 (stagedAddr 0 none) 2000 (stagedNeedC tPwm 0 0) ∧ tPwm.MayWrite 0 (stagedAddr 3 none) 0 (stagedNeedC tPwm 0 3) ∧
      tPwm.MayWrite 0 (stagedAddr 1 (some 3)) 0 (stagedNeedC tPwm 3 1) ∧
      tPwm.fget PWM_CFG_SRC 0 = 0 ∧ tPwm.fget PWM_CFG_AUTO 0 = 0 ∧ (tPwm.fset PWM_CFG_SRC 8 1).fget PWM_CFG_SRC 8 = 1) ∧
    (let a := tPwm.fset PWM_CFG_AUTO 0 1
     a.fget PWM_CFG_AUTO 0 = 1 ∧ a.MayWrite 0 (stagedAddr 1 none) 5 (stagedNeedC a 0 1) ∧
      stagedCheck (a.fset (stagedFld 1) 0 5) 0 false = .ok ∧ a.MayWrite 7 (stagedAddr 1 (some 0)) 5 (stagedNeedC a 0 1) ∧
      stagedCheck (a.fset (stagedFld 1) 0 0x7fffffff) 0 false ≠ .ok) ∧
    (tPwm.MayWrite 0 0x100100 0x80000000 false ∧ bits 0x80000000 16 5 ∈ [0, 2, 4, 8, 16] ∧ bit 0x80000000 28 = false ∧
      bit 0x80000000 31 = true ∧ tPwm.fget PWM_CFG_EN 0 = 0 ∧ (pwmOf tPwm 0).stop = false ∧ scanHolds tPwm = false ∧
      stagedCheck tPwm 0 (bit 0x80000000 30) = .ok ∧ tPwm.MayWrite 0 0x100100 0x10000 false ∧ bits 0x10000 16 5 ∉ [0, 2, 4, 8, 16] ∧
      (pwmOf (pwmMod tPwm 0 (fun x => { x with stop := true })) 0).stop = true ∧
      tPwm.MayWrite 7 0x100100 0x80000000 false) ∧
    (tPwm.MayWrite 0 0x100100 0 false ∧ bit 0 31 = false ∧ (tPwm.fset PWM_CFG_EN 0 1).fget PWM_CFG_EN 0 = 1 ∧
      ∀ F ∈ pwmCfgFlds, bits 0 F.lo F.width = tPwm.fget F 0) ∧
    (tPwm.fget PWM_CFG_ALIGN 0 ≠ 1 ∧ (tPwm.fset PWM_CFG_ALIGN 0 1).fget PWM_CFG_ALIGN 0 = 1) := by
  unfold State.MayWrite; repeat' apply And.intro
  all_goals decide +kernel

/-- Pair 0 counts; its A output is off, or on; with MINPW 100 and one compare value. -/
def tRunP (cmp minpw : Nat) (on : Bool) : State :=
  gdMod (tPwm.fsets [(PWM_STAT_RUN, 0, 1), (PWM_ECMPA_CMP, 0, cmp), (PWM_CFG_MINPW, 0, minpw)]) 0 (fun x => { x with cmd := on })

theorem witness_PairEventsAct :
    (let w := pwmMod tPwm 0 (fun x => { x with waiting := true, nextValley := 5 * clkT })
     (pwmOf w 0).waiting = true ∧ (pwmOf w 0).stop = false ∧ w.fget PWM_CFG_ALIGN 0 ≠ 1 ∧
      firstIn (w.at (5 * clkT)) 0 (pwmOf w 0) = some (5 * clkT) ∧ inClk (w.at (5 * clkT)) (pwmOf w 0).nextValley = true ∧
      firstIn (w.at (6 * clkT)) 0 (pwmOf w 0) = none ∧ inClk (w.at (6 * clkT)) (pwmOf w 0).nextValley = false ∧
      firstIn (w.at (5 * clkT - 1)) 0 (pwmOf w 0) = none ∧
      (pwmOf (pwmMod w 0 (fun x => { x with stop := true })) 0).stop = true ∧ (pwmOf tPwm 0).waiting = false) ∧
    (let w := pwmMod (tPwm.fset PWM_CFG_ALIGN 0 1) 0 (fun x => { x with waiting := true, target := 5 * clkT })
     (pwmOf w 0).waiting = true ∧ firstIn (w.at (5 * clkT)) 0 (pwmOf w 0) = some (5 * clkT) ∧
      firstIn (w.at (6 * clkT)) 0 (pwmOf w 0) = none) ∧
    (let w := pwmMod (tPwm.fset PWM_STAT_RUN 0 1) 0 (fun x => { x with nextPeak := 2000 * clkT, nextValley := 4000 * clkT })
     w.fget PWM_STAT_RUN 0 = 1 ∧ tPwm.fget PWM_STAT_RUN 0 ≠ 1 ∧ w.fget PWM_STAT_DOWN 0 ≠ 1 ∧
      (w.fset PWM_STAT_DOWN 0 1).fget PWM_STAT_DOWN 0 = 1 ∧ w.fget PWM_EPER_PER 0 / 2 = 1000 ∧
      inClk (w.at (4000 * clkT)) (pwmOf w 0).nextValley = true ∧ inClk (w.at (2000 * clkT)) (pwmOf w 0).nextPeak = true ∧
      inClk (w.at (1000 * clkT)) ((pwmOf w 0).nextPeak - 1000 * clkT) = true ∧
      inClk (w.at (3000 * clkT)) ((pwmOf w 0).nextPeak - 1000 * clkT) = false ∧
      inClk (w.at (3000 * clkT)) ((pwmOf w 0).nextPeak + 1000 * clkT) = true ∧
      inClk (w.at (3001 * clkT)) ((pwmOf w 0).nextPeak + 1000 * clkT) = false) ∧
    (let s := tRunP 1024000 0 false
     lastEdge (s.at 0) 0 false = ((pwmOf s 0).valley, false, some 1024000) ∧ (gdOf s 0).cmd = false ∧
      lastEdge (s.at (1000 * clkT)) 0 false = (1000 * clkT, true, some 2048000)) ∧
    -- an edge on the way up at compare 0, and a minimum pulse that drops it; the same on the way down
    (let s := tRunP 0 0 false
     s.fget PWM_STAT_RUN 0 = 1 ∧ (pwmOf s 0).rel = none ∧ (pwmOf s 0).dropA = false ∧ (pwmOf s 0).openA = 0 ∧
      cmpOf s 0 false < 1024 * s.fget PWM_EPER_PER 0 ∧ (gdOf s 0).cmd = decide (s.fget PWM_CFG_INVA 0 = 1) ∧
      placeEdge s 0 (upEdge s 0 false) ≤ max s.clk 0 ∧ max s.clk 0 < placeEdge s 0 (upEdge s 0 false) + clkT ∧
      max s.clk 0 < placeEdge s 0 (downEdge s 0 false) ∧ (pwmOf s 0).judgedA ≠ placeEdge s 0 (upEdge s 0 false) + 1 ∧
      s.fget PWM_CFG_MINPW 0 * 1024 ≤ 2 * (1024 * s.fget PWM_EPER_PER 0 - cmpOf s 0 false) ∧ s.fget PWM_CFG_HR 0 ≠ 1) ∧
    (let s := tRunP 2047000 100 false
     cmpOf s 0 false < 1024 * s.fget PWM_EPER_PER 0 ∧
      2 * (1024 * s.fget PWM_EPER_PER 0 - cmpOf s 0 false) < s.fget PWM_CFG_MINPW 0 * 1024 ∧
      placeEdge s 0 (upEdge s 0 false) ≤ max s.clk (1999 * clkT) ∧
      max s.clk (1999 * clkT) < placeEdge s 0 (upEdge s 0 false) + clkT ∧
      max s.clk (1999 * clkT) < placeEdge s 0 (downEdge s 0 false) ∧
      (pwmOf s 0).judgedA ≠ placeEdge s 0 (upEdge s 0 false) + 1) ∧
    (let s := tRunP 1024000 0 true
     0 < cmpOf s 0 false ∧ cmpOf s 0 false < 1024 * s.fget PWM_EPER_PER 0 ∧
      (gdOf s 0).cmd = !decide (s.fget PWM_CFG_INVA 0 = 1) ∧ placeEdge s 0 (downEdge s 0 false) ≤ max s.clk (3000 * clkT) ∧
      max s.clk (3000 * clkT) < placeEdge s 0 (downEdge s 0 false) + clkT ∧
      (pwmOf s 0).judgedA ≠ placeEdge s 0 (downEdge s 0 false) + 1 ∧ s.fget PWM_CFG_MINPW 0 * 1024 ≤ 2 * cmpOf s 0 false) ∧
    (let s := tRunP 1024 100 true
     0 < cmpOf s 0 false ∧ cmpOf s 0 false < 1024 * s.fget PWM_EPER_PER 0 ∧
      placeEdge s 0 (downEdge s 0 false) ≤ max s.clk (3999 * clkT) ∧
      max s.clk (3999 * clkT) < placeEdge s 0 (downEdge s 0 false) + clkT ∧
      2 * cmpOf s 0 false < s.fget PWM_CFG_MINPW 0 * 1024) := by
  repeat' apply And.intro
  all_goals decide +kernel

theorem witness_GateChannelsAct :
    ((tC.fset GD_TFB_TFBOFF 0 4000).MayWrite 0 0x110100 0x80000000 false ∧ chsel tC .gd 0 = 0 ∧ bit 0x80000000 31 = true ∧
      tC.fget GD_CFG_EN 0 = 0 ∧ scanHolds tC = false ∧ (tC.fset GD_TFB_TFBOFF 0 4000).fget GD_TOFF_TPDIS 0 +
        (tC.fset GD_TFB_TFBOFF 0 4000).fget GD_TOFF_TWOFF 0 < (tC.fset GD_TFB_TFBOFF 0 4000).fget GD_TFB_TFBOFF 0 ∧
      (let u := [GD_CFG_DIEN, GD_CFG_FBPOL, GD_CFG_THR, GD_CFG_TBLANK].foldl
          (fun u F => u.fset F 0 (bits 0x80000000 F.lo F.width)) (countRsvd (tC.fset GD_TFB_TFBOFF 0 4000) 0 0x110100 0x80000000)
        let v := didtSync (gdFb u 0 (bit tC.pins.gfb 0 != bit 0x80000000 29)) 0
        bit v.flt.forced 0 = false ∧ bit v.flt.hold 0 = false)) ∧
    -- refused, forced, disabled in a phase of each kind, written with nothing changed
    ((tC.fset GD_TFB_TFBOFF 0 1).MayWrite 0 0x110100 0x80000000 false ∧ (tC.fset GD_TFB_TFBOFF 0 1).fget GD_TFB_TFBOFF 0 ≤
        tC.fget GD_TOFF_TPDIS 0 + tC.fget GD_TOFF_TWOFF 0 ∧
      bit ({ tC with flt.forced := 1 } : State).flt.forced 0 = true ∧
      (let s := tC.fset GD_CFG_EN 0 1
       s.MayWrite 0 0x110100 0xf000320 false ∧ (s.fget GD_CFG_EN 0 == 1) = true ∧ bit 0xf000320 31 = false ∧
        (∀ F ∈ [GD_CFG_DIEN, GD_CFG_FBPOL, GD_CFG_THR, GD_CFG_TBLANK], bits 0xf000320 F.lo F.width = s.fget F 0) ∧
        (s.fset GD_STAT_PHASE 0 6).fget GD_STAT_PHASE 0 = 6 ∧ (s.fset GD_STAT_PHASE 0 5).fget GD_STAT_PHASE 0 = 5 ∧
        (s.fset GD_STAT_PHASE 0 3).fget GD_STAT_PHASE 0 ∉ [0, 4, 5, 6]) ∧
      tC.MayWrite 0 0x110100 0 false) ∧
    ((tC.fset GD_STAT_WAIT 23 1).fget GD_STAT_WAIT 23 = 1 ∧ tC.fget GD_STAT_PHASE 23 = 0 ∧
      gdLive (tC.fset GD_CFG_EN 23 1) 23 = true ∧ mayTurnOn (tC.fset GD_CFG_EN 23 1) 23 = true ∧
      tC.fget GD_STAT_WAIT (partner 23) = 0 ∧ (gdOf (gdMod tC 23 (fun x => { x with cmd := true })) 23).cmd = true ∧
      clockPassed (tC.at clkT) 23 = true ∧ clockPassed (tC.at (clkT - 1)) 23 = false) ∧
    (let s := gdMod (gdMod (tC.fsets [(GD_CFG_EN, 2, 1), (GD_CFG_EN, 3, 1), (GD_STAT_WAIT, 2, 1), (GD_STAT_WAIT, 3, 1)]) 2
       (fun x => { x with cmd := true })) 3 (fun x => { x with cmd := true })
     let r := gdMod s 3 (fun x => { x with riseAt := clkT })
     partnerFirst r 3 = true ∧ roseTogether s 3 = true ∧ mayTurnOn s 2 = true ∧ mayTurnOn s 3 = true ∧
      partnerFirst s 3 = false ∧ clockPassed (s.at clkT) 3 = true ∧ roseTogether tC 3 = false ∧ partnerFirst tC 3 = false) ∧
    ((gdOf tC 0).mism = false ∧ (gdOf tC 0).steady + 8 * clkT ≤ max tC.clk (8 * clkT) ∧
      max tC.clk (8 * clkT - 1) < (gdOf tC 0).steady + 8 * clkT ∧ bit tC.flt.forced 0 = false ∧
      bit ({ tC with flt.forced := 1 } : State).flt.forced 0 = true ∧
      (gdOf (gdMod tC 0 (fun x => { x with mism := true })) 0).mism = true) ∧
    ((tC.fset GD_STAT_PHASE 0 1).fget GD_STAT_PHASE 0 = 1 ∧ (tC.fset GD_STAT_FB 0 1).fget GD_STAT_FB 0 = 1 ∧
      tC.fget GD_STAT_FB 0 ≠ 1 ∧ (tC.fset GD_STAT_PHASE 0 2).fget GD_STAT_PHASE 0 = 2 ∧
      (tC.fset GD_STAT_PHASE 0 4).fget GD_STAT_PHASE 0 = 4 ∧ (tC.fset GD_STAT_PHASE 0 5).fget GD_STAT_PHASE 0 = 5 ∧
      (tC.fset GD_STAT_PHASE 0 3).fget GD_STAT_PHASE 0 = 3 ∧ (tC.fset GD_STAT_PHASE 0 6).fget GD_STAT_PHASE 0 = 6) ∧
    ((gdOf tC 0).blankAt + tC.fget GD_TON_TPRE 0 * clkT ≤ max tC.clk usT ∧
      max tC.clk 0 < (gdOf tC 0).blankAt + tC.fget GD_TON_TPRE 0 * clkT ∧
      (gdOf tC 0).slopeAt + tC.fget GD_TON_TWON 0 * clkT ≤ max tC.clk usT ∧
      max tC.clk 0 < (gdOf tC 0).slopeAt + tC.fget GD_TON_TWON 0 * clkT ∧
      (gdOf tC 0).offAt + max 1 (tC.fget GD_TOFF_TPDIS 0) * clkT ≤ max tC.clk usT ∧
      max tC.clk 0 < (gdOf tC 0).offAt + max 1 (tC.fget GD_TOFF_TPDIS 0) * clkT ∧
      (gdOf tC 0).slopeAt + tC.fget GD_TOFF_TWOFF 0 * clkT ≤ max tC.clk usT ∧
      max tC.clk 0 < (gdOf tC 0).slopeAt + tC.fget GD_TOFF_TWOFF 0 * clkT) ∧
    ((tC.fset GD_CFG_EN 0 1).fget GD_CFG_EN 0 = 1 ∧ (gdOf (gdMod tC 0 (fun x => { x with tfb := true })) 0).tfb = true ∧
      (gdOf tC 0).offAt + tC.fget GD_TFB_TFBOFF 0 * clkT ≤ max 0 (tC.fget GD_TFB_TFBOFF 0 * clkT) ∧ (gdOf tC 0).tfb = false) ∧
    (domOn tC (instDom .gd 0) = true ∧ domOn State.reset (instDom .gd 0) = false ∧ (true != tC.flag GD_CFG_FBPOL 0) = true ∧
      (false != tC.flag GD_CFG_FBPOL 0) = false) ∧
    ((gdOf (gdMod tC 0 (fun x => { x with blank := true })) 0).blank = true ∧
      (gdOf tC 0).blankAt + tC.fget GD_CFG_TBLANK 0 * clkT ≤ max 0 (tC.fget GD_CFG_TBLANK 0 * clkT) ∧
      max 0 0 < (gdOf tC 0).blankAt + (tC.fset GD_CFG_TBLANK 0 1).fget GD_CFG_TBLANK 0 * clkT ∧ tC.fget GD_EVT_BLANKED 0 = 0 ∧
      (tC.fset GD_EVT_BLANKED 0 1).fget GD_EVT_BLANKED 0 = 1 ∧ (gdOf tC 0).blank = false ∧
      (tC.fset GD_CFG_DIEN 0 1).fget GD_CFG_DIEN 0 = 1 ∧ tC.fget GD_CFG_DIEN 0 = 0 ∧
      (tC.fset GD_STAT_DET 0 1).fget GD_STAT_DET 0 = 1 ∧ tC.fget GD_STAT_DET 0 = 0) := by
  unfold State.MayWrite; repeat' apply And.intro
  all_goals decide +kernel

theorem witness_FaultGroupsAct :
    ((tC.fset FLT_GMASK0_MASK 7 1).MayWrite 0 (0x102100 + 0x40 * 7) 0x80000000 false ∧ bit 0x80000000 31 = true ∧
      tC.fget FLT_GCFG_EN 7 = 0 ∧ grpCheck (tC.fset FLT_GMASK0_MASK 7 1) 7 (0x80000000 % 65536) = .ok ∧
      ∀ n ∈ List.range 56, bit (grpMask (tC.fset FLT_GMASK0_MASK 7 1) 7) n = true → bit (liveNow tC) n = false) ∧
    (tC.MayWrite 0 (0x102120 + 0x40 * 7) 0x80000000 false ∧ (tC.fset FLT_GSTAT_LATCH 7 1).fget FLT_GSTAT_LATCH 7 = 1 ∧
      grpCover tC 7 = 0 ∧ tC.fget FLT_GSTAT_LATCH 7 = 0 ∧ tC.MayWrite 0 (0x102100 + 0x40 * 7) 0x80000000 false ∧
      grpCheck tC 7 0 ≠ .ok ∧ (tC.fset FLT_GCFG_EN 7 1).MayWrite 0 (0x102100 + 0x40 * 7) 0 false) ∧
    (let b := (countRsvd (tC.fset FLT_GMASK0_MASK 7 1) 0 (0x102100 + 0x40 * 7) 0x80000000).fset FLT_GCFG_EN 7 1
     bit (pulsesEnd { b with flt.live := 1 }).flt.live 0 = true ∧ bit (pulsesEnd b).flt.live 0 = false ∧
      bitList 56 (grpMask (pulsesEnd b) 7) = [0]) ∧
    (((tC.fset FLT_GCFG_EN 0 1).fset FLT_GCFG_SAFE_T 0 5).fget FLT_GCFG_SAFE_T 0 ≠ 0 ∧
      (tC.fset FLT_GCFG_EN 0 1).fget FLT_GCFG_EN 0 = 1 ∧ (tC.fset FLT_GSTAT_LATCH 0 1).fget FLT_GSTAT_LATCH 0 = 1 ∧ tC.fget FLT_GSTAT_STEP2 0 = 0 ∧
      smGet 0 tC.flt.latchAt 0 + 5 * 10 * nsT ≤ max 0 (50 * nsT) ∧ max 0 0 < smGet 0 tC.flt.latchAt 0 + 5 * 10 * nsT) ∧
    (bit ({ tC with flt.forced := 1 } : State).flt.forced 0 = true ∧ bit tC.flt.forced 0 = false ∧
      (gdOf tC 0).forceAt + 4 * nsT ≤ max tC.clk (4 * nsT) ∧ max tC.clk 0 < (gdOf tC 0).forceAt + 4 * nsT ∧
      (gdOf tC 0).forceAt + 2 * clkT ≤ max tC.clk (2 * clkT) ∧ max tC.clk 0 < (gdOf tC 0).forceAt + 2 * clkT) ∧
    (domOn tS 7 = true ∧ domOn State.reset 7 = false ∧
      fltActive { tC with flt.pin := putBit tC.flt.pin 3 (tC.flag (FLT_PINCFG_POL 3)) } 3 = true ∧
      fltActive { tC with flt.pin := putBit tC.flt.pin 3 (!tC.flag (FLT_PINCFG_POL 3)) } 3 = false ∧
      (tC.fset (FLT_PINCFG_DGL 3) 0 2).fget (FLT_PINCFG_DGL 3) ≠ 0 ∧ (tC.fset (FLT_PINCFG_DGL 3) 0 0).fget (FLT_PINCFG_DGL 3) = 0 ∧
      bit ({ tC with flt.dgl := 8 } : State).flt.dgl 3 = true ∧ bit tC.flt.dgl 3 = false ∧
      smGet 0 tC.flt.dglAt 3 + dglTime (tC.fset (FLT_PINCFG_DGL 3) 0 2) 3 ≤ max tC.clk (20 * nsT) ∧
      max tC.clk (19 * nsT) < smGet 0 tC.flt.dglAt 3 + dglTime (tC.fset (FLT_PINCFG_DGL 3) 0 2) 3) ∧
    (tC.MayWrite 0 0x102024 1 false ∧ bit 1 0 = true ∧ tC.MayWrite 0 0x102024 0 false ∧ bit 0 0 = false) := by
  unfold State.MayWrite; repeat' apply And.intro
  all_goals decide +kernel

theorem witness_StringPortActs :
    (tSpr.MayWrite 0 0x120020 1 (sprCtlNeedC 1) ∧ 1 % 8 = 1 ∧ sprState tSpr = S_OFF ∧ startCheck tSpr = .ok ∧
      tSpr.fget SPR_STAT_CPEND = 0) ∧
    (tSpr.MayWrite 0 0x120020 2 (sprCtlNeedC 2) ∧ sprState (tSpr.fset SPR_STAT_STATE 0 S_MEASURE) = S_MEASURE ∧
      sprState (tSpr.fset SPR_STAT_STATE 0 S_RUN) ≠ S_OFF ∧ sprState (tSpr.fset SPR_STAT_STATE 0 S_RUN) ≠ S_STOP ∧
      sprState (tSpr.fset SPR_STAT_STATE 0 S_RUN) ≠ S_TRIP ∧ sprState (tSpr.fset SPR_STAT_STATE 0 S_RUN) ≠ S_MEASURE) ∧
    (tSpr.MayWrite 0 0x120020 4 (sprCtlNeedC 4) ∧ paramCheck tSpr = .ok) ∧
    -- STOP in OFF, START out of OFF, a commit that waits, a START that fails its checks with parameters that pass
    (sprState tSpr = S_OFF ∧ bit 2 1 = true ∧ bit 1 0 = true ∧ sprState (tSpr.fset SPR_STAT_STATE 0 S_RUN) ≠ S_OFF ∧
      (tSpr.fset SPR_STAT_CPEND 0 1).fget SPR_STAT_CPEND = 1 ∧ startCheck (tSpr.fset SPR_CFG_TPP 0 0) ≠ .ok ∧
      paramCheck (tSpr.fset PWM_CFG_HR 8 0) = .ok ∧ startCheck (tSpr.fset PWM_CFG_HR 8 0) ≠ .ok) ∧
    (({ vals := [], coef := [], ready := some 4 } : SprSet).ready ≠ none ∧ sprState tC ≠ S_MEASURE ∧ sprState tC ≠ S_STEEP) ∧
    (({ tC with spr.wait := some { vals := [], coef := [] } } : State).spr.wait = some { vals := [], coef := [] } ∧ tC.spr.wait = none ∧ tC.spr.pffQ = []) ∧
    (tC.spr.startAt + tC.fget SPR_TIME_SSTMO * msT ≤ max 0 (tC.fget SPR_TIME_SSTMO * msT) ∧
      max 0 0 < tC.spr.startAt + (tC.fset SPR_TIME_SSTMO 0 1).fget SPR_TIME_SSTMO * msT) ∧
    (let e : SprTick := { at_ := 7, pos := 3, no := 1, sent := 0 }
     let s : State := { tC with spr.ticks := [e] }
     tickAtStage s 0 = some e ∧ tickAtStage s 1 = none ∧ e.pos ≠ 2 ∧ e.sent + 5 * nsT ≤ max s.clk (5 * nsT) ∧
      max s.clk (5 * nsT - 1) < e.sent + 5 * nsT ∧ domOn s 9 = true ∧ domOn State.reset 9 = false) ∧
    (let e : SprTick := { at_ := 7, pos := 0, no := 1, sent := 0, stage := 1 }
     let s : State := { tC.fset SPR_TIME_WAIT 0 400 with spr.ticks := [e] }
     tickAtStage s 1 = some e ∧ tickAtStage s 0 = none ∧ e.no ≠ 0 ∧
      e.at_ + s.fget SPR_TIME_WAIT * 65536 ≤ repTime (s.at (401 * nsT)) 8 ∧
      repTime (s.at 0) 8 < e.at_ + s.fget SPR_TIME_WAIT * 65536 ∧ (∀ i, i < 6 → resultFor (s.at 0) e.at_ i = none) ∧
      sprState s = S_OFF ∧ sprState (s.fset SPR_STAT_STATE 0 S_STEEP) ≠ S_OFF ∧
      sprState (sprComputeTick (takeTick (s.fset SPR_STAT_STATE 0 S_MEASURE) e)) ≠ S_OFF) ∧
    (let s : State := { tC with
        spr.inbox := (List.range 6).map (fun i => { q := i, code := 5, tag := 0, arrive := 0 }) }
     ∀ i, i < 6 → (resultFor s 0 i).isSome = true) ∧
    (tC.MayWrite 0 0x12002c 2 false ∧ (tC.fset SPR_EVT_TRIP 0 1).fget SPR_EVT_TRIP = 1 ∧ tripLive tC = false ∧
      tC.fget SPR_EVT_TRIP = 0) ∧
    (tC.MayWrite 0 0x120028 0xf false ∧ bits 0xf 4 4 = 0) ∧
    (tC.MayWrite 0 0x120028 0x80 false ∧ bits 0x80 4 4 = 2 ^ 3 ∧ bit ((tC.fset SPR_PHFAIL_SENSE 0 8).fget SPR_PHFAIL_SENSE) 3 = true ∧
      tC.spr.tested.getD (3 + 2) 0 ≠ 1 ∧ ({ tC with spr.tested := [0, 0, 0, 0, 0, 1] } : State).spr.tested.getD (3 + 2) 0 = 1) := by
  unfold State.MayWrite; repeat' apply And.intro
  all_goals decide +kernel
/-! ## Witnesses: converters, capture, kiln, triggers, lease -/

theorem witness_ConvertersAndWindowsAct :
    (tC.MayWrite 0 0x130100 0x80000010 false ∧ bits 0x80000010 24 3 ≤ 4 ∧ 0x80000010 % 32 ≤ 16 ∧
      tC.fget ADC_CFG_EN (chsel tC .adc 0) = 0 ∧ bit 0x80000010 31 = true ∧
      adcEnCheck tC (chsel tC .adc 0) 0x80000010 = .ok ∧ tC.fget ADC_STAT_STATE 0 ≠ A_CAL) ∧
    -- cleared again, left as it is, and refused: 17 slots, and 17 slots for 16 while enabled
    (let e := adcSettle (countRsvd (tC.fsets [(ADC_CFG_EN, 0, 1), (ADC_CFG_SLOTS, 0, 16)]) 0 0x130100 0x10) 0
     tC.MayWrite 0 0x130100 0x10 false ∧ tC.MayWrite 0 0x130100 0x11 false ∧ bit 0x10 31 = false ∧ e.flag ADC_CFG_EN 0 = true ∧
      0x10 = adcCfgRest e 0 ∧ 0x11 ≠ adcCfgRest e 0 ∧ ¬ 0x11 % 32 ≤ 16) ∧
    -- an injected request: of an idle and of a sleeping converter, beside a regular start of its clock, behind one, alone
    (let v (st : Nat) := adcSettle (countRsvd (tC.fsets [(ADC_CFG_EN, 0, 1), (ADC_STAT_STATE, 0, st)]) 0 0x130120 0x80000004) 0
     let j : AdcJob := { inj := false, pos := 0, k := 0, pull := 0, first := 0, idle := true }
     let w := adcMod (tC.fset ADC_STAT_STATE 0 A_CONV) 0 (fun x => { x with job := some j })
     tC.MayWrite 0 0x130120 0x80000004 false ∧ convArgs 0x80000004 = .ok ∧ bit 0x80000004 31 = true ∧
      (v A_IDLE).fget ADC_CFG_EN 0 = 1 ∧ pullTaken (v A_IDLE) 0 0x80000004 = false ∧ (v A_IDLE).fget ADC_STAT_INJP 0 = 0 ∧
      (v A_IDLE).fget ADC_STAT_STATE 0 = A_IDLE ∧ (v A_DOWN).fget ADC_STAT_STATE 0 = A_DOWN ∧
      (v A_CONV).fget ADC_STAT_STATE 0 ≠ A_IDLE ∧ (v A_CONV).fget ADC_STAT_STATE 0 ≠ A_DOWN ∧ (adcOf (v A_CONV) 0).job = none ∧
      (adcOf (adcSettle w 0) 0).job = some j ∧ j.first / adcClk = w.clk / adcClk ∧
      ({ j with first := 5 * adcClk } : AdcJob).first / adcClk ≠ w.clk / adcClk ∧ (adcSettle w 0).fget ADC_STAT_HELD 0 = 0 ∧
      convArgs 4 = .ok ∧ bit 4 31 = false ∧ tC.MayWrite 0 0x130120 4 false ∧
      (adcSettle (w.fset ADC_STAT_HELD 0 1) 0).fget ADC_STAT_HELD 0 = 1 ∧ (adcOf (adcSettle (w.fset ADC_STAT_HELD 0 1) 0) 0).job = some j ∧
      convArgs 5 ≠ .ok ∧ tC.MayWrite 0 0x130120 5 false ∧
      firstStatus [convArgs 0x80000004, chk (!tC.flag ADC_CFG_EN 0) .conflict] ≠ .ok) ∧
    (let v (st : Nat) := adcSettle (countRsvd (tC.fset ADC_STAT_STATE 0 st) 0 0x130124 1) 0
     tC.MayWrite 0 0x130124 1 false ∧ bit 1 0 = true ∧ sprOwnsConv (v A_CONV) 0 = false ∧ (v A_CONV).fget ADC_STAT_CALP 0 = 0 ∧
      (v A_CONV).fget ADC_STAT_STATE 0 = A_CONV ∧ (v A_IDLE).fget ADC_STAT_STATE 0 ≠ A_CONV ∧
      (v A_IDLE).fget ADC_STAT_STATE 0 ≠ A_CAL ∧ tC.MayWrite 0 0x130124 0 false ∧ bit 0 0 = false ∧
      firstStatus [chk (sprOwnsConv (v A_CAL) 0) .conflict, chk ((v A_CAL).fget ADC_STAT_STATE 0 == A_CAL) .busy] ≠ .ok) ∧
    (let v (t : Time) := adcSettle ((tC.fset ADC_STAT_STATE 15 A_CAL).at t) 15
     (v (20 * usT)).fget ADC_STAT_STATE 15 = A_CAL ∧ (adcOf (v (20 * usT)) 15).calAt + 20 * usT ≤ max tC.clk (20 * usT) ∧
      max tC.clk 0 < (adcOf (v 0) 15).calAt + 20 * usT) ∧
    -- a result of an injected conversion of 16 samples, of a regular one, of one that still starts up; too early; no power
    (let a : AdcJob := { inj := true, pos := 0, k := 4, pull := 0, first := 0 }
     let b : AdcJob := { inj := false, pos := 0, k := 0, pull := 0, first := 0 }
     let w (j : AdcJob) := adcMod (tC.fset ADC_STAT_STATE 15 A_CONV) 15 (fun x => { x with job := some j })
     (adcOf (adcSettle ((w a).at usT) 15) 15).job = some a ∧ (adcOf (adcSettle ((w b).at usT) 15) 15).job = some b ∧
      (adcSettle ((w a).at usT) 15).fget ADC_STAT_STATE 15 = A_CONV ∧ (adcOf (adcSettle ((w a).at usT) 15) 15).waking = false ∧
      jobEnd a ≤ max tC.clk (2 * usT) ∧ jobEnd b ≤ max tC.clk usT ∧ max tC.clk 0 < jobEnd b ∧
      (List.replicate 16 (5 : Int)).length = 2 ^ a.k ∧ [(5 : Int)].length = 2 ^ b.k ∧ [(5 : Int)].length ≠ 2 ^ a.k ∧
      b.first + 400 * nsT ≤ max tC.clk (400 * nsT) ∧ max tC.clk (399 * nsT) < b.first + 400 * nsT ∧
      (adcOf (adcSettle (tC.at 0) 15) 15).job = none) ∧
    (let due := (adcOf (tC.fset ADC_TIMER_PER 15 16) 15).timerAt + (tC.fset ADC_TIMER_PER 15 16).fget ADC_TIMER_PER 15 * 163840
     (tC.fset ADC_CFG_EN 15 1).fget ADC_CFG_EN 15 = 1 ∧ tC.fget ADC_CFG_EN 15 ≠ 1 ∧ due ≤ max tC.clk (16 * 163840) ∧
      max tC.clk 0 < due) ∧
    ((tC.fset ADC_CFG_TRIG 15 1).fget ADC_CFG_TRIG 15 = 1 ∧ domOn tC (instDom .adc 15) = true ∧ tC.fget ADC_CFG_TRIG 15 ≠ 1) ∧
    (let v := adcSettle ((adcMod (tC.fset ADC_STAT_STATE 0 A_IDLE) 0 (fun x => { x with down := true })).at 0) 0
     v.fget ADC_STAT_STATE 0 = A_IDLE ∧ (adcOf v 0).down = true ∧ v.fget ADC_CFG_AWAKE 0 = 0 ∧ (adcOf v 0).inj = none ∧
      (adcOf v 0).starts = [] ∧ v.fget ADC_STAT_HELD 0 = 0 ∧ v.fget ADC_STAT_CALP 0 = 0 ∧
      (adcSettle ((tC.fset ADC_CFG_AWAKE 0 1).at 0) 0).fget ADC_CFG_AWAKE 0 = 1 ∧ (adcOf (adcSettle (tC.at 0) 0) 0).down = false ∧
      (adcOf (adcSettle ((adcMod tC 0 (fun x => { x with inj := some (0, 0, 0) })).at 0) 0) 0).inj ≠ none ∧
      (adcSettle ((tC.fset ADC_STAT_HELD 0 1).at 0) 0).fget ADC_STAT_HELD 0 = 1 ∧
      (adcSettle ((tC.fset ADC_STAT_CALP 0 1).at 0) 0).fget ADC_STAT_CALP 0 = 1) ∧
    tC.MayRead 0 (0x130180 + 8 * 5) ∧
    (tC.MayWrite 0 (0x1301d0 + 4 * 4) 0x80000003 false ∧ tC.MayWrite 0 (0x1301d0 + 4 * 4) 3 false ∧ bit 3 31 = false ∧
      routeOk tC 3 = false ∧ bit 0x80000003 31 = true ∧ routeOk { tS with grist.dir := [(0x3000, mkEntry false 1 2 SRC_ADC 1 0 0 0)] } 0x30000 = true) ∧
    (domOn tC 5 = true ∧ domOn State.reset 5 = false ∧ (tC.fset ADC_WCFG_EN 15 1).fget ADC_WCFG_EN 15 = 1 ∧
      smGet 0 ({ tC with adc.winSince := [(15, 1)] } : State).adc.winSince 15 ≠ 0 ∧
      1 - 1 + tC.fget ADC_WCFG_FILT 15 * 163840 ≤ max 0 (tC.fget ADC_WCFG_FILT 15 * 163840) ∧ smGet 0 tC.adc.winSince 15 = 0 ∧
      tC.fget ADC_WCFG_EN 15 = 0 ∧ max 0 0 < 1 - 1 + (tC.fset ADC_WCFG_FILT 15 1).fget ADC_WCFG_FILT 15 * 163840 ∧
      (tC.fset ADC_WSTAT_CPEND 15 1).fget ADC_WSTAT_CPEND 15 = 1 ∧ tC.fget ADC_WSTAT_CPEND 15 = 0 ∧
      smGet 0 tC.adc.commitAt 15 + 100 * nsT ≤ max tC.clk (100 * nsT) ∧ max tC.clk 0 < smGet 0 tC.adc.commitAt 15 + 100 * nsT) ∧
    (tC.MayWrite 0 (0x131110 + 0x20 * 15) 1 (bit 1 0) ∧ (tC.fset ADC_WCFG_MODE 15 1).fget ADC_WCFG_MODE 15 = 1 ∧
      tC.fget ADC_WLO_LO 15 < (tC.fset ADC_WHI_HI 15 1).fget ADC_WHI_HI 15 ∧ tC.fget ADC_WCFG_MODE 15 ≠ 1 ∧
      tC.fget ADC_WLO_LO 15 + 2 * tC.fget ADC_WHYST_HYST 15 < (tC.fset ADC_WHI_HI 15 1).fget ADC_WHI_HI 15 ∧
      firstStatus [chk (decide (tC.fget ADC_WHI_HI 15 ≤ (tC.fset ADC_WLO_LO 15 65535).fget ADC_WLO_LO 15)) .conflict] ≠ .ok ∧
      tC.MayWrite 0 (0x131110 + 0x20 * 15) 0 (bit 0 0)) := by
  unfold State.MayRead State.MayWrite; repeat' apply And.intro
  all_goals decide +kernel

theorem witness_CaptureActs :
    (domOn State.reset 3 = false ∧ (true != tC.flag CAP_TRIGCFG_APOL) = (!tC.flag CAP_TRIGCFG_APOL) ∧
      ((!tC.flag CAP_TRIGCFG_APOL) != tC.flag CAP_TRIGCFG_APOL) = true ∧ (tC.flag CAP_TRIGCFG_BPOL != tC.flag CAP_TRIGCFG_BPOL) = false) ∧
    (tC.MayWrite 0 0x161004 1 false ∧ bit 1 0 = true ∧ tC.MayWrite 0 0x161004 0 false ∧ bit 0 0 = false) ∧
    (let u := capSettle (({ tC with cap.trigxEnd := 5 } : State).at 5)
     let v := capSettle (({ tC with cap.trigxEnd := 5 } : State).at 4)
     let r : Rearm := { rid := 1, chans := [0], pre := 0, post := 16, tset := 16, flags := 0 }
     u.cap.trigxEnd ≤ u.clk ∧ v.clk < v.cap.trigxEnd ∧ (capSettle (tC.at 0)).cap.rearms = [] ∧
      (capSettle (({ tC with cap.rearms := [r] } : State).at 0)).cap.rearms = [r] ∧
      tC.cap.arriving = [] ∧ tC.cap.coming = [] ∧ tC.cap.recs = []) ∧
    (({ tC with cap.recs := [{ tRec with st := .closed }] } : State).MayWrite 0 0x161008 1 false ∧
      findRec (capSettle (countRsvd { tC with cap.recs := [{ tRec with st := .closed }] } 0 0x161008 1)) 1 =
        some { tRec with st := .closed } ∧
      ({ tRec with st := .closed } : CapRec).st = .closed ∧ ({ tRec with st := .armed } : CapRec).st ≠ .closed ∧
      findRec (capSettle (countRsvd { tC with cap.recs := [{ tRec with st := .armed }] } 0 0x161008 1)) 1 =
        some { tRec with st := .armed } ∧ findRec (capSettle (countRsvd tC 0 0x161008 1)) 1 = none) ∧
    (tC.MayWrite 0 0x161020 1 false ∧ tC.fget CAP_SKEWCTL_BUSY = 0 ∧ (tC.fset CAP_SKEWCTL_BUSY 0 1).fget CAP_SKEWCTL_BUSY = 1 ∧
      tC.cap.skewAt + 50 * usT ≤ max tC.clk (50 * usT) ∧ max tC.clk 0 < tC.cap.skewAt + 50 * usT ∧
      tC.MayWrite 0 0x161020 0 false) ∧
    (tC.MayWrite 0 0x161114 0x7f800000 false ∧ tabBusy (countRsvd tC 0 0x161114 0x7f800000) (some (tC.fget CAP_MTIDX_TAB 0)) = false ∧
      tabBusy (tC.fsets [(CAP_ARMED_MASK, 1, 0x80000000), (CAP_MCFG_MEN, 63, 1)]) (some 0) = true ∧
      tC.fget CAP_MTCFG_N (tC.fget CAP_MTIDX_TAB 0) ≤ tC.fget CAP_MTPT_PT 0 + 1) := by
  unfold State.MayWrite; repeat' apply And.intro
  all_goals decide +kernel

theorem witness_KilnActs :
    (scanWhole (tS.fset KILN_SCFG_EN 43 1) [] = false ∧
      (∀ k ∈ List.range 44, (tS.fset KILN_SCFG_EN 43 1).fget KILN_SCFG_EN k = 1 →
        ∃ x ∈ (List.range 44).map (fun j => ({ sensor := j, raw := 400, temp := 20 } : Scan)), x.sensor = k) ∧
      recent tS.kiln.scanAt msT (max tS.clk 0) = false ∧
      recent ({ tS with kiln.scanAt := some 0 } : State).kiln.scanAt msT (max tS.clk 0) = true) ∧
    (tS.MayWrite 0 (0x50018 + 4 * 1) 0x800 false ∧ bitList 32 0x800 = [11] ∧ 32 * 1 + 11 < 44 ∧
      sBroken (tS.fset KILN_SBROKEN1_B 0 0x800) 43 = true ∧ 2 < (tS.fset KILN_T_WHY 43 3).fget KILN_T_WHY 43 ∧
      2 < (tS.fset KILN_T_WHY 43 4).fget KILN_T_WHY 43 ∧ tS.fget KILN_T_WHY 43 = 0 ∧
      smGet 0 tS.kiln.latest 43 = 0 ∧ smGet 0 ({ tS with kiln.latest := [(43, 5)] } : State).kiln.latest 43 ≠ 0 ∧
      (tS.fset KILN_T_WHY 43 2).fget KILN_T_WHY 43 = 2 ∧
      smGet 0 ({ tS with kiln.cond := [(43, 1)] } : State).kiln.cond 43 ≠ 2 ∧
      smGet 0 ({ tS with kiln.cond := [(43, 2)] } : State).kiln.cond 43 = 2 ∧ sBroken tS 43 = false) ∧
    -- a group is left as it stands, and refused: a changed BT while enabled, thresholds out of order
    (tS.fget KILN_GCFG_EN 7 ≠ 1 ∧ (tS.fset KILN_GCFG_EN 7 1).flag KILN_GCFG_EN 7 = true ∧
      (let x := tS.fsets [(KILN_GCFG_BT, 7, 0), (KILN_GCFG_HYST, 7, 0)]
       (bits 0 8 16 != x.fget KILN_GCFG_BT 7 || 0 % 256 != x.fget KILN_GCFG_HYST 7) = false) ∧ groupTrips tS 7 = false ∧
      (bits 0x80000100 8 16 != tS.fget KILN_GCFG_BT 7) = true ∧ groupCheck (tS.fset KILN_GTH0_TH2 7 0) 7 ≠ .ok) ∧
    (tS.MayWrite 0 (0x50408 + 16 * 7) 0 false ∧ tS.fget KILN_GCFG_EN 7 = 0 ∧ bit 0 31 = false ∧
      (tS.fsets [(KILN_GTH0_TH1, 7, 160), (KILN_GTH0_TH2, 7, 320), (KILN_GTH1_TH3, 7, 480), (KILN_GTH1_TRIP, 7, 800)]).MayWrite 0
        (0x50408 + 16 * 7) (0x80000000 + 640 * 256 + 8) false ∧
      groupCheck ((countRsvd (tS.fsets [(KILN_GTH0_TH1, 7, 160), (KILN_GTH0_TH2, 7, 320), (KILN_GTH1_TH3, 7, 480),
        (KILN_GTH1_TRIP, 7, 800)]) 0 (0x50408 + 16 * 7) (0x80000000 + 640 * 256 + 8)).fsets [(KILN_GCFG_BT, 7, 640),
        (KILN_GCFG_HYST, 7, 8), (KILN_GCFG_EN, 7, 1)]) 7 = .ok ∧ bits (0x80000000 + 640 * 256 + 8) 8 16 = 640) := by
  unfold State.MayWrite; repeat' apply And.intro
  all_goals decide +kernel

theorem witness_TimeTriggersAct :
    (tS.MayWrite 0 (0x40100 + 16 * 15) 0x8000ffff false ∧ tS.fget TIM_TRGCFG_EN 15 = 0 ∧ bit 0x8000ffff 31 = true ∧
      trigCheck (tS.fsets [(TIM_TRGPER_PER, 15, 40), (TIM_TRGNS_NS, 15, 39)]) 15 = .ok ∧ trigCheck (tS.fset TIM_TRGCFG_SEC_HI 15 0xffff) 15 = .ok) ∧
    (tS.MayWrite 0 (0x40100 + 16 * 15) 0 false ∧ bit 0 31 = false ∧ (tS.fset TIM_TRGCFG_EN 15 1).fget TIM_TRGCFG_EN 15 = 1 ∧
      0 % 65536 = tS.fget TIM_TRGCFG_SEC_HI 15 ∧ 0xffff % 65536 ≠ tS.fget TIM_TRGCFG_SEC_HI 15 ∧
      trigCheck (tS.fset TIM_TRGPER_PER 15 39) 15 ≠ .ok) ∧
    ((trigOf tS 15).pend = [] ∧ (trigOf (trigMod tS 15 (fun x => { x with pend := [(true, 9)] })) 15).pend = [(true, 9)] ∧
      (trigOf (trigMod tS 15 (fun x => { x with pend := [(false, 9)] })) 15).pend = [(false, 9)] ∧ 9 ≤ max tS.clk 9 ∧
      max tS.clk 0 < 9) ∧
    (let e : List (Bool × Time) := [(true, 9), (false, 20)]
     (trigOf (trigMod tS 15 (fun x => { x with pend := e })) 15).pend = (true, 9) :: [(false, 20)] ∧
      ∀ e ∈ ([(false, 20)] : List (Bool × Time)).head?, max tS.clk 9 < e.2) ∧
    -- a periodic trigger at its instant 40 ns, after it was shown there, past it, and enabled too late for it; TIM's
    -- own time, the capture domain and a conversion domain; a one-shot; no instant yet
    (let s := trigMod (tS.fset TIM_TRGPER_PER 15 40) 15 (fun x => { x with on := true })
     let v := trigSettle (s.at (40 * nsT)) 15
     let i := 40 * 65536
     let met := v.clk - (repTime v 0 - i)
     let l := trigMod v 15 (fun x => { x with last := [(0, i + 1), (3, i + 1)] })
     let w := trigSettle (s.at (42 * nsT)) 15
     lastInstant v 15 (repTime v 0) = i + 1 ∧ lastInstant v 15 (repTime v 3) = i + 1 ∧ lastInstant v 15 (repTime v 5) = i + 1 ∧
      (trigOf v 15).on = true ∧ repTime v 3 < i + 65536 ∧ (trigOf v 15).from_ ≤ met ∧ domOn v 3 = true ∧
      domOn v 5 = true ∧ smGet 0 (trigOf v 15).last 3 ≤ i ∧ smGet 0 (trigOf v 15).last 0 ≤ i ∧
      v.fget TIM_TRGPER_PER 15 ≠ 0 ∧ i < smGet 0 (trigOf l 15).last 3 ∧ i < smGet 0 (trigOf l 15).last 0 ∧
      lastInstant l 15 (repTime l 0) = i + 1 ∧ (trigOf l 15).seen + 65536 ≤ met ∧
      lastInstant w 15 (repTime w 0) = i + 1 ∧ i + 65536 ≤ repTime w 0 ∧
      met < (trigOf (trigMod v 15 (fun x => { x with from_ := met + 1 })) 15).from_ ∧
      domOn State.reset 3 = false ∧ (trigOf tS 15).on = false) ∧
    (let v := trigSettle ((trigMod tS 15 (fun x => { x with on := true })).at 0) 15
     v.fget TIM_TRGPER_PER 15 = 0 ∧ lastInstant v 15 (repTime v 0) = 0 + 1 ∧ (trigOf v 15).on = true ∧
      repTime v 0 < 65536 ∧ smGet 0 (trigOf v 15).last 0 ≤ 0) ∧
    (let v := trigSettle ((tS.fset TIM_TRGNS_NS 15 7).at 0) 15
     lastInstant v 15 (repTime v 0) = 0) := by
  unfold State.MayWrite; repeat' apply And.intro
  all_goals decide +kernel

theorem witness_LeaseEventsAct :
    (let s := ((tRun tS 5).fset TIM_STAT_LOCK 0 1).at 0
     isCand s = true ∧ holds s = false ∧ s.vote.claim = none ∧ s.tim.bound ≤ netTime s ∧ netTime s < s.tim.bound + 109227 ∧
      handedTo s = false ∧ (∀ sid ∈ List.range (ownSid s), peerSeen s sid = false) ∧ reserved s (ownSid s) = false ∧
      stackCount s = 1 ∧ s.tim.bound + 109227 ≤ netTime (s.at 109227)) ∧
    viewPassed { tRun tS 5 with vote.viewExp := 10 ^ 15 } = false ∧
    (tS.fget VOTE_MODE_MODE = 0 ∧ stackCount tS ≠ 3 ∧ 100 * 0 < tS.fget VOTE_XCFG_SC_PCT * 10) ∧
    -- three stacks: the claim goes to the peers; a handover names this one, or another; a lower stack runs
    (let s := { tRun tS 5 with
        clk := 2 * cycT tS, tim.bound := 2 * cycT tS
        sys.cfg := some { tImg with cfg := { tImg.cfg with topo := { nStacks := 3 } } } }
     stackCount s ≠ 1 ∧ viewPassed s = true ∧ s.tim.bound ≤ netTime s ∧ netTime s < s.tim.bound + 109227 ∧
      handedTo { s with vote.resv := some (0, s.tim.bound) } = true ∧
      reserved { s with vote.resv := some (1, s.tim.bound) } (ownSid s) = true ∧
      (let u : State := { s.fset SYS_STRAP_SID 0 2 with vote.seen := [(1, 1)] }
       1 < ownSid u ∧ peerSeen u 1 = true ∧ handedTo u = false)) ∧
    (isCand tC = false ∧ holds tH = true ∧ ({ tS with vote.claim := some (1, 0) } : State).vote.claim ≠ none) ∧
    (2 ≤ (cycleNow (tS.fset TIM_CYCLE_CYCLE 0 2) + 2 ^ 32 - 0) % 2 ^ 32 ∧ (cycleNow tS + 2 ^ 32 - 0) % 2 ^ 32 < 2) ∧
    (tH.vote.ownExp < netTime { tH with clk := 10 ^ 9 * nsT } ∧ netTime tH ≤ tH.vote.ownExp) ∧
    stackCount { tRun tS 5 with sys.cfg := some { tImg with cfg := { tImg.cfg with topo := { nStacks := 3 } } } } = 3 ∧
    (tS.fget VOTE_MODE_MODE ≠ 2 ∧ tS.vote.sc3 = 0 ∧ (tS.fset VOTE_MODE_MODE 0 2).fget VOTE_MODE_MODE = 2 ∧
      ({ tS with vote.sc3 := 10, vote.scd := 10 } : State).vote.sc3 ≠ 0 ∧ tS.fget VOTE_XCFG_SC_PCT * 10 ≤ 100 * 10 ∧
      tS.vote.scAt = none ∧ ({ tS with vote.scAt := some 0 } : State).vote.scAt = some 0 ∧
      (cycleNow tS + 2 ^ 32 - 0) % 2 ^ 32 < tS.fget VOTE_XCFG_SC_WIN) ∧
    (isStack tS = true ∧ ({ tS with vote.rejoin := true } : State).vote.rejoin = true ∧ tS.vote.billSeen = false ∧
      ({ tS with vote.billCrc := some 0 } : State).vote.billCrc = some (0 : Word).toNat ∧
      ({ tS with vote.billCrc := some 1 } : State).vote.billCrc = some (1 : Word).toNat ∧
      (0 : Word).toNat = bankW tS (actBank tS) 7 ∧ (1 : Word).toNat ≠ bankW tS (actBank tS) 7 ∧
      tS.vote.billCrc ≠ some (0 : Word).toNat ∧ tS.vote.rejoin = false ∧ isStack tC = false) := by
  repeat' apply And.intro
  all_goals decide +kernel

theorem witness_StatesVotesAndForms :
    ((14 : Nat) < 16) ∧ ([1, 2].Nodup ∧ decideVote [1, 2] (fun _ _ => true) 1 true = decideVote [1, 2] (fun _ _ => true) 1 true) ∧
    ([] : List Nat) = [] ∧ (memWf State.reset.mem = true ∧ smRising State.reset.regs = true ∧ smRising State.reset.eff = true ∧
      smRising tS.regs = true) := by
  repeat' apply And.intro
  all_goals decide +kernel

end Sys2Proof.Tests
end

section
/-! What a command keeps: one lemma for each function that leads from a state to a state, in the order of the model's files.
A proof follows its function: `s₁`, `s₂`, … are the states that the function names, and `h₁`, `h₂`, … say that they are
kept from the state `s₀` that the command began in. What a function takes as an argument is kept by a premise. -/
namespace Sys2Proof.Machine

/-- What a command keeps from a state `s` to the state `t` that it leads to: register tables with rising keys, the memory's
canonical form, the waiting commands, and the order of instants. -/
structure State.Keeps (s t : State) : Prop where
  regs : smRising s.regs = true → smRising t.regs = true
  eff : smRising s.eff = true → smRising t.eff = true
  mem : s.memOk → t.memOk
  pending : t.pending = s.pending
  clk : s.clk ≤ t.clk

/-- The same of an outcome: of the next state, where there is one. -/
def State.KeepsIn (s : State) (o : Host.Outcome State Fault Refusal) : Prop := ∀ t, o = .next t → s.Keeps t

variable {α β γ : Type} {s₀ s u : State}

theorem keeps_refl (s : State) : s.Keeps s := ⟨id, id, id, rfl, le_rfl⟩

/-! ### The writes of the store -/

theorem keeps_fset {F i v} (hs : s₀.Keeps s) : s₀.Keeps (s.fset F i v) :=
  ⟨fun h => smSet_rising _ _ _ (hs.regs h), hs.eff, hs.mem, hs.pending, hs.clk⟩
theorem keeps_eset {F i v} (hs : s₀.Keeps s) : s₀.Keeps (s.eset F i v) :=
  ⟨hs.regs, fun h => smSet_rising _ _ _ (hs.eff h), hs.mem, hs.pending, hs.clk⟩
theorem keeps_setByte {a b} (hs : s₀.Keeps s) : s₀.Keeps (s.setByte a b) :=
  ⟨hs.regs, hs.eff, fun h => setByte_memWf _ _ (hs.mem h), hs.pending, hs.clk⟩
theorem keeps_clearMem {lo hi} (hs : s₀.Keeps s) : s₀.Keeps (s.clearMem lo hi) :=
  ⟨hs.regs, hs.eff, fun h => clearMem_memWf _ _ (hs.mem h), hs.pending, hs.clk⟩
theorem keeps_resetRegs {p} (hs : s₀.Keeps s) : s₀.Keeps (s.resetRegs p) :=
  ⟨fun h => smFilter_rising _ (hs.regs h), fun h => smFilter_rising _ (hs.eff h), hs.mem, hs.pending, hs.clk⟩
theorem keeps_at {t} (hs : s₀.Keeps s) : s₀.Keeps (s.at t) :=
  ⟨hs.regs, hs.eff, hs.mem, hs.pending, le_trans hs.clk (le_max_left _ _)⟩
theorem keeps_satAdd {F i n} (hs : s₀.Keeps s) : s₀.Keeps (s.satAdd F i n) := keeps_fset hs
theorem keeps_fsets {l} (hs : s₀.Keeps s) : s₀.Keeps (s.fsets l) := by
  induction l generalizing s with
  | nil => exact hs
  | cons e l ih => exact ih (keeps_fset hs)
theorem keeps_mwrite {a n v} (hs : s₀.Keeps s) : s₀.Keeps (s.mwrite a n v) := by
  induction n generalizing s a v with
  | zero => exact hs
  | succ n ih => exact ih (keeps_setByte hs)

/-- An update of any of the other components. -/
theorem keeps_rec {sys pins flash mbx sec tim flt gd pwm cell lanes link cap mash trace grist rdata adc spr kiln ethOut vote
    ctl qspi jtag free} (hs : s₀.Keeps s) :
    s₀.Keeps ⟨s.clk, s.regs, s.eff, s.mem, sys, pins, flash, mbx, sec, tim, flt, gd, pwm, cell, lanes, link, cap, mash, trace,
      grist, rdata, adc, spr, kiln, ethOut, vote, ctl, qspi, jtag, free, s.pending⟩ :=
  ⟨hs.regs, hs.eff, hs.mem, hs.pending, hs.clk⟩

/-! ### Choices and folds -/

section
variable {c : Prop} [Decidable c]

theorem keeps_ite {a b : State} (ha : s₀.Keeps a) (hb : s₀.Keeps b) : s₀.Keeps (if c then a else b) := by
  split <;> assumption
theorem keeps_ite_snd {a b : α × State} (ha : s₀.Keeps a.2) (hb : s₀.Keeps b.2) : s₀.Keeps (if c then a else b).2 := by
  split <;> assumption
theorem keeps_ite_snd_snd {a b : α × β × State} (ha : s₀.Keeps a.2.2) (hb : s₀.Keeps b.2.2) :
    s₀.Keeps (if c then a else b).2.2 := by
  split <;> assumption
end

theorem keepsIn_next (hs : s₀.Keeps s) : s₀.KeepsIn (.next s) := fun t h => by cases h; exact hs

theorem keeps_foldl {f : State → α → State} {l : List α} (hf : ∀ {u x}, s₀.Keeps u → s₀.Keeps (f u x))
    (hs : s₀.Keeps s) : s₀.Keeps (l.foldl f s) := by
  induction l generalizing s with
  | nil => exact hs
  | cons x l ih => exact ih (hf hs)
theorem keeps_foldl_snd {f : α × State → β → α × State} {l : List β} {p : α × State}
    (hf : ∀ {p x}, s₀.Keeps p.2 → s₀.Keeps (f p x).2) (hs : s₀.Keeps p.2) : s₀.Keeps (l.foldl f p).2 := by
  induction l generalizing p with
  | nil => exact hs
  | cons x l ih => exact ih (hf hs)
theorem keeps_foldl_snd_snd {f : α × β × State → γ → α × β × State} {l : List γ} {p : α × β × State}
    (hf : ∀ {p x}, s₀.Keeps p.2.2 → s₀.Keeps (f p x).2.2) (hs : s₀.Keeps p.2.2) : s₀.Keeps (l.foldl f p).2.2 := by
  induction l generalizing p with
  | nil => exact hs
  | cons x l ih => exact ih (hf hs)

/-! ### Results put together and taken apart -/

theorem keeps_snd {a : α} (hs : s₀.Keeps s) : s₀.Keeps (a, s).2 := hs
theorem keeps_snd_snd {a : α} {b : β} (hs : s₀.Keeps s) : s₀.Keeps (a, b, s).2.2 := hs

theorem keeps_of_snd {p : α × State} {a : α} (hp : s₀.Keeps p.2) (e : p = (a, u)) : s₀.Keeps u := by
  subst e; exact hp
theorem keeps_of_snd_snd {p : α × β × State} {a : α} {b : β} (hp : s₀.Keeps p.2.2) (e : p = (a, b, u)) : s₀.Keeps u := by
  subst e; exact hp

/-! ### The functions of `Ops` -/

theorem keeps_setDev {st cause} (hs : s₀.Keeps s) : s₀.Keeps (setDev s st cause) := keeps_fsets hs
theorem keeps_setCause {cause} (hs : s₀.Keeps s) : s₀.Keeps (setCause s cause) := keeps_fset hs
theorem keeps_recErr {V M sets} (hs : s₀.Keeps s) : s₀.Keeps (recErr s V M sets) :=
  keeps_ite (keeps_fset hs) (keeps_fsets (keeps_fset hs))
theorem keeps_pwrErr {d st} (hs : s₀.Keeps s) : s₀.Keeps (pwrErr s d st) := keeps_recErr hs
theorem keeps_accErr {m a st} (hs : s₀.Keeps s) : s₀.Keeps (accErr s m a st) := keeps_recErr hs
theorem keeps_drawFree (hs : s₀.Keeps s) : s₀.Keeps (drawFree s).2 := keeps_snd (keeps_rec hs)
theorem keeps_drawBetween {lo hi} (hs : s₀.Keeps s) : s₀.Keeps (drawBetween s lo hi).2 :=
  keeps_snd (keeps_drawFree hs)
theorem keeps_eccStored {mem word} (hs : s₀.Keeps s) : s₀.Keeps (eccStored s mem word) := by
  unfold eccStored
  extract_lets _ _ _ _ s₁
  have h₁ : s₀.Keeps s₁ := keeps_rec hs
  exact keeps_ite (keeps_fset h₁) h₁
theorem keeps_eccCorr {mem} (hs : s₀.Keeps s) : s₀.Keeps (eccCorr s mem) := by
  unfold eccCorr
  extract_lets s₁
  have h₁ : s₀.Keeps s₁ := keeps_satAdd hs
  exact keeps_ite (keeps_satAdd h₁) (keeps_ite (keeps_satAdd h₁) h₁)
theorem keeps_eccUncorr {mem word} (hs : s₀.Keeps s) : s₀.Keeps (eccUncorr s mem word) := by
  unfold eccUncorr
  extract_lets s₁ s₂ f₁ s₃
  have h₁ : s₀.Keeps s₁ := keeps_satAdd hs
  have h₂ : s₀.Keeps s₂ := keeps_ite (keeps_satAdd h₁) (keeps_ite (keeps_satAdd h₁) h₁)
  have hf₁ {u} (hu : s₀.Keeps u) : s₀.Keeps (f₁ u) := keeps_rec (keeps_fsets hu)
  have h₃ : s₀.Keeps s₃ := keeps_fset h₂
  exact keeps_ite (hf₁ (keeps_fset h₂)) (keeps_ite (hf₁ h₃) h₃)
theorem keeps_eccFetch {mem word} (hs : s₀.Keeps s) : s₀.Keeps (eccFetch s mem word).2 := by
  unfold eccFetch
  split
  · exact keeps_snd hs
  · exact keeps_snd (keeps_eccStored (keeps_eccCorr hs))
  · exact keeps_snd (keeps_eccUncorr hs)
theorem keeps_jnlAdd {m kind st addr old new} (hs : s₀.Keeps s) : s₀.Keeps (jnlAdd s m kind st addr old new) := by
  unfold jnlAdd
  extract_lets _ _ _ _ _ _ _ s₁ s₂ s₃
  have h₁ : s₀.Keeps s₁ := keeps_rec hs
  have h₂ : s₀.Keeps s₂ := keeps_eccStored h₁
  have h₃ : s₀.Keeps s₃ := keeps_fset h₂
  exact keeps_ite (keeps_satAdd h₃) (keeps_fset h₃)
theorem keeps_jnlFree {n} (hs : s₀.Keeps s) : s₀.Keeps (jnlFree s n).2 :=
  keeps_ite_snd (keeps_snd hs) (keeps_snd (keeps_fset hs))

/-! ### The functions of `View` -/

theorem keeps_trigMod {n f} (hs : s₀.Keeps s) : s₀.Keeps (trigMod s n f) := keeps_rec hs
theorem keeps_passOver {d a b n} (hs : s₀.Keeps s) : s₀.Keeps (passOver d a b s n) := keeps_ite (keeps_trigMod hs) hs
theorem keeps_syncRoutes {m} (hs : s₀.Keeps s) : s₀.Keeps (syncRoutes s m) :=
  keeps_foldl (fun hu => keeps_ite (keeps_recErr (keeps_fset hu)) hu) hs

/-! ### The functions of `Access` -/

theorem keeps_recRefused {m a rest} (hs : s₀.Keeps s) : s₀.Keeps (recRefused s m a rest) := by
  unfold recRefused
  extract_lets _ s₁
  have h₁ : s₀.Keeps s₁ := keeps_ite hs (keeps_pwrErr hs)
  exact keeps_ite h₁ (keeps_accErr h₁)
theorem keeps_secErr {m st} (hs : s₀.Keeps s) : s₀.Keeps (secErr s m st) := keeps_recErr hs
theorem keeps_recWrite {m a rest st} (hs : s₀.Keeps s) : s₀.Keeps (recWrite s m a rest st) := by
  unfold recWrite
  extract_lets s₁
  have h₁ : s₀.Keeps s₁ := keeps_recRefused hs
  exact keeps_ite (keeps_secErr h₁) h₁
theorem keeps_countRsvd {m a w} (hs : s₀.Keeps s) : s₀.Keeps (countRsvd s m a w) := by
  unfold countRsvd
  split
  · exact hs
  · split
    · exact keeps_ite hs (keeps_satAdd hs)
    · exact hs
theorem keeps_unmapped {m a} (hs : s₀.Keeps s) : s₀.Keeps (unmapped s m a) := keeps_satAdd (keeps_accErr hs)
theorem keeps_jnlRefused {m a w st} (hs : s₀.Keeps s) : s₀.Keeps (jnlRefused s m a w st) :=
  keeps_ite (keeps_jnlAdd hs) hs
theorem keeps_regWrite {m a w width needC epochOk eff} (heff : ∀ {u}, s₀.Keeps u → s₀.Keeps (eff u).2)
    (hs : s₀.Keeps s) :
    s₀.Keeps (regWrite s m a w width needC epochOk eff).2 := by
  unfold regWrite
  refine keeps_ite_snd (keeps_snd (keeps_unmapped hs)) ?_
  extract_lets _ _ _ _ s₁ s₂
  have h₁ : s₀.Keeps s₁ := keeps_countRsvd hs
  have h₂ : s₀.Keeps s₂ := keeps_recWrite h₁
  refine keeps_ite_snd (keeps_snd (keeps_ite (keeps_jnlAdd h₂) h₂)) ?_
  split
  rename_i s₃ e₃
  have h₃ : s₀.Keeps s₃ := keeps_of_snd (heff h₁) e₃
  exact keeps_snd (keeps_ite (keeps_jnlAdd h₃) h₃)
theorem keeps_fwSelect {a i} (hs : s₀.Keeps s) : s₀.Keeps (fwSelect s a i) := by
  unfold fwSelect
  split
  · exact hs
  · split
    · exact hs
    · exact keeps_ite hs (keeps_regWrite (fun hu => keeps_snd (keeps_fset hu)) hs)
theorem keeps_fwReg {a i w eff} (heff : ∀ {u}, s₀.Keeps u → s₀.Keeps (eff u).2) (hs : s₀.Keeps s) :
    s₀.Keeps (fwReg s a i w eff) :=
  keeps_regWrite heff (keeps_fwSelect hs)
theorem keeps_rowWrite {m a w needC eff} (heff : ∀ {u}, s₀.Keeps u → s₀.Keeps (eff u).2) (hs : s₀.Keeps s) :
    s₀.Keeps (rowWrite s m a w needC eff) :=
  keeps_regWrite heff hs

/-! ### The functions of `LinkOps` -/

theorem keeps_lnMod {l f} (hs : s₀.Keeps s) : s₀.Keeps (lnMod s l f) := keeps_rec hs
theorem keeps_lnkErr {m l st} (hs : s₀.Keeps s) : s₀.Keeps (lnkErr s m l st) := keeps_recErr hs
theorem keeps_syncChstat (hs : s₀.Keeps s) : s₀.Keeps (syncChstat s) := keeps_ite (keeps_fsets hs) hs
theorem keeps_sendOn {l prio f} (hs : s₀.Keeps s) : s₀.Keeps (sendOn s l prio f) :=
  keeps_ite (keeps_lnMod hs) (keeps_ite (keeps_satAdd hs) hs)
theorem keeps_sendAll {ls prio f} (hs : s₀.Keeps s) : s₀.Keeps (sendAll s ls prio f) := keeps_foldl keeps_sendOn hs
theorem keeps_refreshIdle (hs : s₀.Keeps s) : s₀.Keeps (refreshIdle s) :=
  keeps_foldl (fun hu => keeps_ite (keeps_lnMod hu) hu) hs
theorem keeps_linkStatus (hs : s₀.Keeps s) : s₀.Keeps (linkStatus s) := keeps_refreshIdle (keeps_syncChstat hs)
theorem keeps_rackOn {l r cyc} (hs : s₀.Keeps s) : s₀.Keeps (rackOn s l r cyc) := by
  unfold rackOn
  split
  · exact keeps_lnMod hs
  · exact keeps_sendOn hs
theorem keeps_rackLost (hs : s₀.Keeps s) : s₀.Keeps (rackLost s) := keeps_foldl keeps_satAdd hs
theorem keeps_rackPeersOf {cyc r} (hs : s₀.Keeps s) : s₀.Keeps (rackPeersOf s cyc r) := by
  unfold rackPeersOf
  refine keeps_rackLost (keeps_foldl (fun hu => ?_) hs)
  split
  · exact keeps_rackOn hu
  · exact hu
theorem keeps_rackPeers {r} (hs : s₀.Keeps s) : s₀.Keeps (rackPeers s r) := keeps_rackPeersOf hs
theorem keeps_rackLanes {r} (hs : s₀.Keeps s) : s₀.Keeps (rackLanes s r) :=
  keeps_rackLost (keeps_foldl keeps_rackOn hs)
theorem keeps_rxCheck {l f} (hs : s₀.Keeps s) : s₀.Keeps (rxCheck s l f).2 := by
  unfold rxCheck
  refine keeps_ite_snd (keeps_snd hs) ?_
  extract_lets s₁ s₂ s₃
  have h₁ : s₀.Keeps s₁ := keeps_satAdd hs
  have h₂ : s₀.Keeps s₂ := keeps_lnMod hs
  have h₃ : s₀.Keeps s₃ := keeps_satAdd h₂
  exact keeps_ite_snd (keeps_snd h₁) (keeps_ite_snd (keeps_ite_snd (keeps_snd hs) (keeps_snd h₁))
    (keeps_ite_snd (keeps_snd h₃) (keeps_snd h₂)))
theorem keeps_laneTo {l st} (hs : s₀.Keeps s) : s₀.Keeps (laneTo s l st) := by
  unfold laneTo
  extract_lets s₁ s₂
  have h₁ : s₀.Keeps s₁ := keeps_lnMod hs
  have h₂ : s₀.Keeps s₂ := keeps_ite (keeps_fset h₁) h₁
  exact keeps_syncChstat (keeps_fset h₂)
theorem keeps_enterTrain {l} (hs : s₀.Keeps s) : s₀.Keeps (enterTrain s l) := by
  unfold enterTrain
  extract_lets s₁
  have h₁ : s₀.Keeps s₁ := keeps_fset (keeps_laneTo hs)
  exact keeps_ite (keeps_fsets h₁) (keeps_lnkErr (keeps_fset h₁))
theorem keeps_enterDetect {l} (hs : s₀.Keeps s) : s₀.Keeps (enterDetect s l) := keeps_fset (keeps_laneTo hs)
theorem keeps_leaveLock {l} (hs : s₀.Keeps s) : s₀.Keeps (leaveLock s l) :=
  keeps_ite (keeps_laneTo hs) (keeps_ite (keeps_lnMod hs) (keeps_laneTo hs))
theorem keeps_releaseDown (hs : s₀.Keeps s) : s₀.Keeps (releaseDown s) :=
  keeps_foldl (fun hu => keeps_ite (keeps_ite (keeps_laneTo hu) (keeps_lnMod hu)) hu) hs
theorem keeps_laneQuiet {l} (hs : s₀.Keeps s) : s₀.Keeps (laneQuiet s l) := by
  unfold laneQuiet
  extract_lets _ _ s₁ s₂ _ s₃
  have h₁ : s₀.Keeps s₁ := keeps_ite hs (keeps_satAdd hs)
  have h₂ : s₀.Keeps s₂ := keeps_ite h₁ (keeps_satAdd h₁)
  have h₃ : s₀.Keeps s₃ := keeps_lnMod h₂
  exact keeps_ite (keeps_fset (keeps_fset h₃)) h₃
theorem keeps_laneLoss {l code} (hs : s₀.Keeps s) : s₀.Keeps (laneLoss s l code) := by
  unfold laneLoss
  extract_lets s₁ _ s₂
  have h₁ : s₀.Keeps s₁ := keeps_fset (keeps_satAdd hs)
  have h₂ : s₀.Keeps s₂ := keeps_laneQuiet h₁
  exact keeps_linkStatus (keeps_ite (keeps_enterTrain h₂) (keeps_enterDetect h₂))

/-! ### The functions of `Trigger` -/

theorem keeps_recPut {r ws off} (hs : s₀.Keeps s) : s₀.Keeps (recPut r ws off s) := by
  induction ws generalizing off s with
  | nil => exact hs
  | cons w ws ih => exact ih (keeps_mwrite hs)
theorem keeps_caskBad {word} (hs : s₀.Keeps s) : s₀.Keeps (caskBad s word) := by
  unfold caskBad
  extract_lets _ _ s₁ s₂
  have h₁ : s₀.Keeps s₁ := keeps_rec hs
  have h₂ : s₀.Keeps s₂ := by
    unfold s₂
    split
    · exact keeps_foldl (fun hu => keeps_ite (keeps_mwrite (keeps_mwrite hu)) hu) (keeps_recPut h₁)
    · unfold s₁
      exact keeps_rec hs
  exact keeps_eccStored h₂
theorem keeps_caskRead {word} (hs : s₀.Keeps s) : s₀.Keeps (caskRead s word) := by
  unfold caskRead
  split
  rename_i s₁ e₁
  have h₁ : s₀.Keeps s₁ := keeps_of_snd (keeps_eccFetch hs) e₁
  exact keeps_ite (keeps_caskBad h₁) h₁
theorem keeps_caskPart {word} (hs : s₀.Keeps s) : s₀.Keeps (caskPart s word) := by
  unfold caskPart
  split
  · exact keeps_eccStored hs
  · exact keeps_eccStored (keeps_eccCorr hs)
  · exact keeps_eccStored (keeps_caskBad (keeps_eccUncorr hs))
theorem keeps_recWords {r ws off} (hs : s₀.Keeps s) : s₀.Keeps (recWords r ws off s) :=
  keeps_recPut (keeps_foldl keeps_caskPart hs)
theorem keeps_setRec {r} (hs : s₀.Keeps s) : s₀.Keeps (setRec s r) := keeps_rec hs
theorem keeps_writeHead {r} (hs : s₀.Keeps s) : s₀.Keeps (writeHead s r) :=
  keeps_foldl keeps_recWords (keeps_recWords (keeps_recWords hs))
theorem keeps_syncRec {r} (hs : s₀.Keeps s) : s₀.Keeps (syncRec s r) :=
  keeps_fset (keeps_foldl (fun hu => keeps_fset (keeps_fsets hu)) (keeps_setRec hs))
theorem keeps_capFlag {n} (hs : s₀.Keeps s) : s₀.Keeps (capFlag s n) := keeps_rec hs
theorem keeps_closeRec {r e} (hs : s₀.Keeps s) : s₀.Keeps (closeRec s r e) :=
  keeps_writeHead (keeps_rec (keeps_fset (keeps_syncRec (keeps_rec hs))))
theorem keeps_closeIfDone {r} (hs : s₀.Keeps s) : s₀.Keeps (closeIfDone s r) :=
  keeps_ite (keeps_closeRec hs) (keeps_syncRec hs)
theorem keeps_traceOnCapture {r} (hs : s₀.Keeps s) : s₀.Keeps (traceOnCapture s r) := by
  unfold traceOnCapture
  refine keeps_foldl (fun hu => keeps_ite ?_ hu) hs
  split
  rename_i s₁ e₁
  have h₁ : s₀.Keeps s₁ := keeps_of_snd (keeps_drawBetween hu) e₁
  exact keeps_rec h₁
theorem keeps_trigRec {g r} (hs : s₀.Keeps s) : s₀.Keeps (trigRec g s r) := by
  unfold trigRec
  split
  · exact hs
  · exact keeps_ite (keeps_syncRec hs) hs
  · exact keeps_ite (keeps_traceOnCapture (keeps_syncRec hs)) (keeps_capFlag (keeps_satAdd hs))
theorem keeps_capTrig {g} (hs : s₀.Keeps s) : s₀.Keeps (capTrig s g) := keeps_foldl keeps_trigRec hs
theorem keeps_sendTrig {lanes s₁ cause origin tseq} (hs : s₀.Keeps s) :
    s₀.Keeps (sendTrig s lanes s₁ cause origin tseq) :=
  keeps_sendAll hs
theorem keeps_trigOut {e} (hs : s₀.Keeps s) : s₀.Keeps (trigOut s e) := by
  unfold trigOut
  split
  extract_lets _ _ _ _ _ s₁ s₂ s₃
  have h₁ : s₀.Keeps s₁ := keeps_rec hs
  have h₂ : s₀.Keeps s₂ := keeps_foldl (fun hu => keeps_ite (keeps_recWords hu) hu) h₁
  have h₃ : s₀.Keeps s₃ := keeps_ite (keeps_sendTrig h₂) h₂
  exact keeps_ite h₂ (keeps_ite (keeps_rec h₃) h₃)
theorem keeps_deliver {now} (hs : s₀.Keeps s) : s₀.Keeps (deliver s now) := keeps_foldl keeps_capTrig (keeps_rec hs)
theorem keeps_trigComes {g} (hs : s₀.Keeps s) : s₀.Keeps (trigComes s g) := keeps_rec hs
theorem keeps_ownTrig {cls cause s₁ span rid} (hs : s₀.Keeps s) : s₀.Keeps (ownTrig s cls cause s₁ span rid) :=
  keeps_ite hs (keeps_trigComes (keeps_ite_snd (keeps_snd hs) (keeps_drawBetween hs)))
theorem keeps_drainCask (hs : s₀.Keeps s) : s₀.Keeps (drainCask s) := keeps_rec hs
theorem keeps_maskHit {r tag} (hs : s₀.Keeps s) : s₀.Keeps (maskHit s r tag) :=
  keeps_ite hs (keeps_ite (keeps_ownTrig hs) (keeps_satAdd hs))
theorem keeps_overflow {r c tag} (hs : s₀.Keeps s) : s₀.Keeps (overflow s r c tag) :=
  keeps_closeRec (keeps_capFlag (keeps_satAdd hs))
theorem keeps_storeSample {r c word tag v} (hs : s₀.Keeps s) : s₀.Keeps (storeSample s r c word tag v) := by
  unfold storeSample
  refine keeps_ite (keeps_overflow hs) ?_
  extract_lets _ _ s₁ _ s₂ _ _ _ _ _ _ _ s₃
  have h₁ : s₀.Keeps s₁ := keeps_foldl keeps_caskPart hs
  have h₂ : s₀.Keeps s₂ := keeps_mwrite (keeps_mwrite h₁)
  have h₃ : s₀.Keeps s₃ := keeps_closeIfDone h₂
  refine keeps_ite ?_ h₃
  split
  · exact keeps_maskHit h₃
  · exact h₃
theorem keeps_dmaFetch {kind sel word v} (hs : s₀.Keeps s) : s₀.Keeps (dmaFetch s kind sel word v).2.2 :=
  keeps_ite_snd_snd (keeps_snd_snd hs) (keeps_snd_snd (keeps_accErr hs))
theorem keeps_chanFeed {kind sel word tag v} (hs : s₀.Keeps s) : s₀.Keeps (chanFeed s kind sel word tag v) := by
  unfold chanFeed
  refine keeps_foldl (fun hu => keeps_foldl (fun hv => ?_) hu) hs
  split
  · exact hv
  · refine keeps_ite hv ?_
    extract_lets _ _ _ _ s₁
    have h₁ : s₀.Keeps s₁ := keeps_setRec (keeps_drainCask hv)
    exact keeps_ite h₁ (keeps_storeSample (keeps_dmaFetch h₁))
theorem keeps_inFeed {x} (hs : s₀.Keeps s) : s₀.Keeps (inFeed s x) := keeps_chanFeed hs
theorem keeps_capSettle (hs : s₀.Keeps s) : s₀.Keeps (capSettle s) :=
  keeps_ite hs (keeps_foldl keeps_trigOut (keeps_deliver
    (keeps_foldl (fun hu => keeps_inFeed (keeps_deliver hu)) (keeps_rec hs))))
theorem keeps_localTrig {cls cause s₁ span} (hs : s₀.Keeps s) : s₀.Keeps (localTrig s cls cause s₁ span) :=
  keeps_capSettle (keeps_ownTrig hs)
theorem keeps_captureFault {g} (hs : s₀.Keeps s) : s₀.Keeps (captureFault s g) := keeps_localTrig hs
theorem keeps_captureSafe (hs : s₀.Keeps s) : s₀.Keeps (captureSafe s) := keeps_localTrig hs
theorem keeps_captureTime {n s₁} (hs : s₀.Keeps s) : s₀.Keeps (captureTime s n s₁) := keeps_localTrig hs
theorem keeps_captureLink {s₁ cause origin tseq} (hs : s₀.Keeps s) :
    s₀.Keeps (captureLink s s₁ cause origin tseq) := by
  unfold captureLink
  refine keeps_ite hs ?_
  split
  rename_i s₂ e₂
  have h₂ : s₀.Keeps s₂ := keeps_of_snd (keeps_drawBetween hs) e₂
  exact keeps_capSettle (keeps_trigComes h₂)
theorem keeps_capFeed {kind sel word tag v} (hs : s₀.Keeps s) : s₀.Keeps (capFeed s kind sel word tag v) :=
  keeps_ite hs (keeps_capSettle (keeps_chanFeed (keeps_capSettle hs)))
theorem keeps_capResult {sel word tag} (hs : s₀.Keeps s) : s₀.Keeps (capResult s sel word tag) := by
  unfold capResult
  refine keeps_ite hs ?_
  split
  rename_i s₁ e₁
  have h₁ : s₀.Keeps s₁ := keeps_of_snd (keeps_drawBetween hs) e₁
  extract_lets s₂
  have h₂ : s₀.Keeps s₂ := keeps_capSettle h₁
  exact keeps_rec h₂

/-! ### The functions of `Fault` -/

theorem keeps_gdMod {c f} (hs : s₀.Keeps s) : s₀.Keeps (gdMod s c f) := keeps_rec hs
theorem keeps_gdSteady {c} (hs : s₀.Keeps s) : s₀.Keeps (gdSteady s c) := keeps_gdMod hs
theorem keeps_gdPhase {c ph code} (hs : s₀.Keeps s) : s₀.Keeps (gdPhase s c ph code) := by
  unfold gdPhase
  extract_lets _ s₁
  have h₁ : s₀.Keeps s₁ := keeps_fsets hs
  exact keeps_ite h₁ (keeps_gdSteady h₁)
theorem keeps_pwmMod {p f} (hs : s₀.Keeps s) : s₀.Keeps (pwmMod s p f) := keeps_rec hs
theorem keeps_syncForced (hs : s₀.Keeps s) : s₀.Keeps (syncForced s) :=
  keeps_foldl (fun hu => keeps_fset (keeps_rec
    (keeps_fset (keeps_ite (keeps_gdMod (keeps_rec hu))
    (keeps_ite hu (keeps_gdMod (keeps_ite (keeps_gdSteady hu) hu))))))) hs
theorem keeps_grpLatch {g} (hs : s₀.Keeps s) : s₀.Keeps (grpLatch s g) :=
  keeps_captureFault (keeps_syncForced (keeps_rec (keeps_satAdd (keeps_fsets hs))))
theorem keeps_grpSecond {g n} (hs : s₀.Keeps s) : s₀.Keeps (grpSecond s g n) :=
  keeps_ite hs (keeps_ite (keeps_fsets hs) (keeps_ite (keeps_fsets hs) hs))
theorem keeps_grpSee {n stamped g} (hs : s₀.Keeps s) : s₀.Keeps (grpSee n stamped s g) :=
  keeps_ite (keeps_ite (keeps_grpLatch hs) (keeps_ite (keeps_grpSecond hs) hs)) hs
theorem keeps_putLive {n b} (hs : s₀.Keeps s) : s₀.Keeps (putLive s n b) := by
  unfold putLive
  extract_lets _ s₁
  have h₁ : s₀.Keeps s₁ := keeps_rec hs
  exact keeps_ite (keeps_fset h₁) (keeps_fset h₁)
theorem keeps_putFlag {n b} (hs : s₀.Keeps s) : s₀.Keeps (putFlag s n b) := keeps_ite (keeps_fset hs) (keeps_fset hs)
theorem keeps_pulsesEnd (hs : s₀.Keeps s) : s₀.Keeps (pulsesEnd s) :=
  keeps_foldl (fun hu => keeps_ite (keeps_rec (keeps_putLive hu)) hu) hs
theorem keeps_srcAssertCore {n} (hs : s₀.Keeps s) : s₀.Keeps (srcAssertCore s n) := by
  unfold srcAssertCore
  extract_lets s₁ _ s₂ _ _ s₃
  have h₁ : s₀.Keeps s₁ := keeps_pulsesEnd hs
  have h₂ : s₀.Keeps s₂ := keeps_putLive h₁
  have h₃ : s₀.Keeps s₃ := keeps_ite (keeps_putFlag (keeps_rec h₂)) h₂
  exact keeps_ite h₁ (keeps_ite (keeps_rec h₁) (keeps_foldl keeps_grpSee h₃))
theorem keeps_srcRelease {n} (hs : s₀.Keeps s) : s₀.Keeps (srcRelease s n) :=
  keeps_ite (keeps_rec (keeps_putLive hs)) hs
theorem keeps_syncStateSafe (hs : s₀.Keeps s) : s₀.Keeps (syncStateSafe s) := by
  unfold syncStateSafe
  refine keeps_ite ?_ (keeps_srcRelease hs)
  extract_lets s₁
  have h₁ : s₀.Keeps s₁ := keeps_srcAssertCore hs
  exact keeps_ite (keeps_srcRelease (keeps_setCause h₁)) h₁
theorem keeps_causedDev {st cause} (hs : s₀.Keeps s) : s₀.Keeps (causedDev s st cause) := by
  unfold causedDev
  extract_lets _ _ _ s₁
  have h₁ : s₀.Keeps s₁ := keeps_rec hs
  exact keeps_ite (keeps_fsets h₁) (keeps_setDev h₁)
theorem keeps_pulseEnd (hs : s₀.Keeps s) : s₀.Keeps (pulseEnd s) := keeps_ite hs (keeps_rec hs)
theorem keeps_bypassPulse {k byCmd} (hs : s₀.Keeps s) : s₀.Keeps (bypassPulse s k byCmd) :=
  keeps_rec (keeps_pulseEnd hs)
theorem keeps_enterSafe {cause} (hs : s₀.Keeps s) : s₀.Keeps (enterSafe s cause) := by
  unfold enterSafe
  refine keeps_ite hs (keeps_ite ?_ (keeps_ite (keeps_syncStateSafe (keeps_setCause hs)) hs))
  extract_lets s₁ _ s₂ s₃
  have h₁ : s₀.Keeps s₁ := keeps_causedDev hs
  have h₂ : s₀.Keeps s₂ := keeps_rec h₁
  have h₃ : s₀.Keeps s₃ := keeps_ite (keeps_bypassPulse h₂) h₂
  exact keeps_captureSafe (keeps_syncStateSafe h₃)
theorem keeps_srcAssert {n} (hs : s₀.Keeps s) : s₀.Keeps (srcAssert s n) := by
  unfold srcAssert
  extract_lets s₁
  have h₁ : s₀.Keeps s₁ := keeps_srcAssertCore hs
  exact keeps_ite (keeps_enterSafe h₁) h₁
theorem keeps_stackSafe {cause} (hs : s₀.Keeps s) : s₀.Keeps (stackSafe s cause) :=
  keeps_ite hs (keeps_ite (keeps_ite (keeps_setCause hs) hs) (keeps_captureSafe (keeps_rec (keeps_causedDev hs))))
theorem keeps_srcPulse {n} (hs : s₀.Keeps s) : s₀.Keeps (srcPulse s n) := keeps_rec (keeps_srcAssert hs)
theorem keeps_srcLevel {n b} (hs : s₀.Keeps s) : s₀.Keeps (srcLevel s n b) :=
  keeps_ite (keeps_srcAssert hs) (keeps_srcRelease hs)
theorem keeps_interlock {p} (hs : s₀.Keeps s) : s₀.Keeps (interlock s p) :=
  keeps_srcPulse (keeps_satAdd (keeps_fsets (keeps_gdPhase (keeps_gdPhase hs))))
theorem keeps_gdServeRise {c} (hs : s₀.Keeps s) : s₀.Keeps (gdServeRise s c) := by
  unfold gdServeRise
  refine keeps_ite ?_ hs
  extract_lets s₁
  have h₁ : s₀.Keeps s₁ := keeps_fset hs
  exact keeps_ite (keeps_interlock h₁) h₁
theorem keeps_gdReturn {c} (hs : s₀.Keeps s) : s₀.Keeps (gdReturn s c) := by
  unfold gdReturn
  extract_lets _ s₁ s₂
  have h₁ : s₀.Keeps s₁ := keeps_rec hs
  have h₂ : s₀.Keeps s₂ := keeps_fset (keeps_gdSteady (keeps_gdPhase h₁))
  exact keeps_ite (keeps_gdServeRise (keeps_gdMod h₂)) h₂
theorem keeps_syncGdFb (hs : s₀.Keeps s) : s₀.Keeps (syncGdFb s) := keeps_srcLevel hs
theorem keeps_gdOffHold {c} (hs : s₀.Keeps s) : s₀.Keeps (gdOffHold s c) := by
  unfold gdOffHold
  extract_lets s₁ s₂
  have h₁ : s₀.Keeps s₁ := keeps_gdPhase hs
  have h₂ : s₀.Keeps s₂ := keeps_fset h₁
  exact keeps_ite (keeps_fset (keeps_gdMod h₁)) (keeps_ite (keeps_ite (keeps_interlock h₂) h₂) (keeps_fset h₁))
theorem keeps_gdOffSlope {c} (hs : s₀.Keeps s) : s₀.Keeps (gdOffSlope s c) := by
  unfold gdOffSlope
  extract_lets s₁
  have h₁ : s₀.Keeps s₁ := keeps_gdPhase (keeps_gdMod hs)
  exact keeps_ite h₁ (keeps_gdOffHold h₁)
theorem keeps_gdTurnOff {c} (hs : s₀.Keeps s) : s₀.Keeps (gdTurnOff s c) := by
  unfold gdTurnOff
  extract_lets _ s₁ s₂
  have h₁ : s₀.Keeps s₁ := keeps_gdMod hs
  have h₂ : s₀.Keeps s₂ := keeps_fset h₁
  exact keeps_ite (keeps_gdOffSlope h₂) (keeps_gdPhase h₂)
theorem keeps_ilFree {c} (hs : s₀.Keeps s) : s₀.Keeps (ilFree s c) :=
  keeps_ite (keeps_fset (keeps_gdPhase (keeps_gdMod hs))) hs
theorem keeps_gdCommand {c on} (hs : s₀.Keeps s) : s₀.Keeps (gdCommand s c on) := by
  unfold gdCommand
  refine keeps_ite hs ?_
  extract_lets s₁ s₂
  have h₁ : s₀.Keeps s₁ := keeps_gdMod hs
  have h₂ : s₀.Keeps s₂ := keeps_ite h₁ (keeps_ilFree h₁)
  exact keeps_ite h₂ (keeps_ite (keeps_gdServeRise h₂)
    (keeps_ite (keeps_gdTurnOff h₂) (keeps_ite (keeps_gdPhase h₂) (keeps_fset h₂))))
theorem keeps_pwmErr {m p st} (hs : s₀.Keeps s) : s₀.Keeps (pwmErr s m p st) := keeps_recErr hs
theorem keeps_guarded {st err eff} (herr : ∀ {u}, s₀.Keeps u → s₀.Keeps (err u))
    (heff : ∀ {u}, s₀.Keeps u → s₀.Keeps (eff u)) (hs : s₀.Keeps s) :
    s₀.Keeps (guarded st s err eff).2 :=
  keeps_ite_snd (keeps_snd (heff hs)) (keeps_snd (herr hs))
theorem keeps_gcfgEff {m g w} (hs : s₀.Keeps s) : s₀.Keeps (gcfgEff m g w s).2 := by
  unfold gcfgEff
  refine keeps_guarded keeps_pwmErr (fun hu => ?_) hs
  extract_lets s₁ s₂ s₃
  have h₁ : s₀.Keeps s₁ := keeps_fsets hu
  have h₂ : s₀.Keeps s₂ := keeps_pulsesEnd h₁
  have h₃ : s₀.Keeps s₃ := keeps_grpLatch h₂
  exact keeps_ite (keeps_ite (keeps_enterSafe h₃) h₃) h₂
theorem keeps_execFaultGroupEnable {m g w} (hs : s₀.Keeps s) : s₀.KeepsIn (execFaultGroupEnable m g w s) :=
  keepsIn_next (keeps_rowWrite keeps_gcfgEff hs)
theorem keeps_gstatEff {g w} (hs : s₀.Keeps s) : s₀.Keeps (gstatEff g w s).2 :=
  keeps_ite_snd (keeps_snd (keeps_foldl (fun hu => keeps_ite hu (keeps_ite (keeps_rec hu) (keeps_gdReturn hu)))
    (keeps_syncForced (keeps_rec (keeps_fsets hs))))) (keeps_snd hs)
theorem keeps_execFaultLatchClear {m g w} (hs : s₀.Keeps s) : s₀.KeepsIn (execFaultLatchClear m g w s) :=
  keepsIn_next (keeps_rowWrite keeps_gstatEff hs)
theorem keeps_grpMove {g c} (hs : s₀.Keeps s) : s₀.Keeps (grpMove g s c) := keeps_ite (keeps_rec hs) hs
theorem keeps_execFaultGroupStep2 {t g} (hs : s₀.Keeps s) : s₀.KeepsIn (execFaultGroupStep2 t g s) := by
  unfold execFaultGroupStep2
  extract_lets s₁
  have h₁ : s₀.Keeps s₁ := keeps_at hs
  exact keepsIn_next (keeps_ite (keeps_syncForced (keeps_foldl keeps_grpMove (keeps_fset h₁))) h₁)
theorem keeps_execForcePrefixEnd {t c} (hs : s₀.Keeps s) : s₀.KeepsIn (execForcePrefixEnd t c s) := by
  unfold execForcePrefixEnd
  extract_lets s₁
  have h₁ : s₀.Keeps s₁ := keeps_at hs
  exact keepsIn_next (keeps_ite (keeps_gdMod h₁) h₁)
theorem keeps_execForceSequencerSync {t c} (hs : s₀.Keeps s) : s₀.KeepsIn (execForceSequencerSync t c s) := by
  unfold execForceSequencerSync
  extract_lets s₁ s₂
  have h₁ : s₀.Keeps s₁ := keeps_at hs
  have h₂ : s₀.Keeps s₂ := keeps_gdMod h₁
  exact keepsIn_next (keeps_ite (keeps_fset (keeps_gdPhase h₂)) h₁)
theorem keeps_fltTake {n} (hs : s₀.Keeps s) : s₀.Keeps (fltTake s n) :=
  keeps_ite (keeps_ite (keeps_srcAssert hs) (keeps_ite hs (keeps_rec hs))) (keeps_srcRelease (keeps_rec hs))
theorem keeps_execFltPinChange {t n level} (hs : s₀.Keeps s) : s₀.KeepsIn (execFltPinChange t n level s) := by
  unfold execFltPinChange
  extract_lets s₁ _ s₂
  have h₁ : s₀.Keeps s₁ := keeps_at hs
  have h₂ : s₀.Keeps s₂ := keeps_rec h₁
  exact keepsIn_next (keeps_ite (keeps_fltTake h₂) h₂)
theorem keeps_execFltDeglitchExpiry {t n} (hs : s₀.Keeps s) : s₀.KeepsIn (execFltDeglitchExpiry t n s) := by
  unfold execFltDeglitchExpiry
  extract_lets s₁
  have h₁ : s₀.Keeps s₁ := keeps_at hs
  exact keepsIn_next (keeps_ite (keeps_srcAssert (keeps_rec h₁)) h₁)
theorem keeps_swforceEff {w} (hs : s₀.Keeps s) : s₀.Keeps (swforceEff w s).2 :=
  keeps_snd (keeps_srcLevel (keeps_fset hs))
theorem keeps_execFaultSwforce {m w} (hs : s₀.Keeps s) : s₀.KeepsIn (execFaultSwforce m w s) :=
  keepsIn_next (keeps_rowWrite keeps_swforceEff hs)
theorem keeps_srcstatEff {lo w} (hs : s₀.Keeps s) : s₀.Keeps (srcstatEff lo w s).2 :=
  keeps_snd (keeps_foldl (fun hu => keeps_ite hu (keeps_putFlag (keeps_rec hu))) hs)
theorem keeps_grpRegEff {m g F w} (hs : s₀.Keeps s) : s₀.Keeps (grpRegEff m g F w s).2 :=
  keeps_guarded keeps_pwmErr (fun hu => keeps_foldl keeps_fset hu) hs
theorem keeps_tsidxEff {m i w} (hs : s₀.Keeps s) : s₀.Keeps (tsidxEff m i w s).2 :=
  keeps_guarded keeps_pwmErr keeps_fset hs
theorem keeps_pincfgEff {w} (hs : s₀.Keeps s) : s₀.Keeps (pincfgEff w s).2 :=
  keeps_snd (keeps_foldl (fun hu => keeps_fltTake (keeps_fsets hu)) hs)

/-! ### The functions of `Reset` -/

theorem keeps_setCauses {l} (hs : s₀.Keeps s) : s₀.Keeps (setCauses s l) := keeps_fset (keeps_foldl keeps_fset hs)
theorem keeps_jnlReset (hs : s₀.Keeps s) : s₀.Keeps (jnlReset s) := keeps_jnlAdd hs
theorem keeps_serveDomains (hs : s₀.Keeps s) : s₀.Keeps (serveDomains s) := by
  unfold serveDomains
  extract_lets _ s₁
  have h₁ : s₀.Keeps s₁ := by
    unfold s₁
    split
    · exact hs
    · split
      · exact keeps_rec hs
      · exact hs
  exact keeps_fset h₁
theorem keeps_coldReset {srcs ph} (hs : s₀.Keeps s) : s₀.Keeps (coldReset s srcs ph) :=
  keeps_jnlReset (keeps_setCauses ⟨fun _ => rfl, fun _ => rfl, fun _ => rfl, hs.pending, hs.clk⟩)
theorem keeps_sysResetCore (hs : s₀.Keeps s) : s₀.Keeps (sysResetCore s) :=
  keeps_fsets ⟨fun h => smFilter_rising _ (hs.regs h), fun h => smFilter_rising _ (hs.eff h), fun _ =>
    rfl, hs.pending,
    hs.clk⟩
theorem keeps_systemReset {srcs p} (hs : s₀.Keeps s) : s₀.Keeps (systemReset s srcs p) := by
  unfold systemReset
  extract_lets _ s₁ _ s₂ s₃
  have h₁ : s₀.Keeps s₁ := keeps_rec hs
  have h₂ : s₀.Keeps s₂ := keeps_sysResetCore h₁
  have h₃ : s₀.Keeps s₃ := keeps_fset (keeps_foldl keeps_fset h₂)
  exact keeps_ite (keeps_coldReset h₁) (keeps_ite (keeps_coldReset h₁)
    (keeps_serveDomains (keeps_jnlReset (keeps_satAdd h₃))))
theorem keeps_strapSample {p} (hs : s₀.Keeps s) : s₀.Keeps (strapSample s p) := keeps_fsets hs

/-! ### The functions of `Ecc` -/

theorem keeps_memFault {src} (hs : s₀.Keeps s) : s₀.Keeps (memFault s src) :=
  keeps_ite (keeps_stackSafe (keeps_srcPulse hs)) (keeps_srcPulse hs)
theorem keeps_shipRestart (hs : s₀.Keeps s) : s₀.Keeps (shipRestart s) := keeps_rec (keeps_drawFree hs)
theorem keeps_eccHandle {mem word} (hs : s₀.Keeps s) : s₀.Keeps (eccHandle s mem word) := by
  unfold eccHandle
  extract_lets _ f₁ _ _ _ s₁ _ _ _ _ _ s₂ s₃ _ s₄
  have hf₁ {u} (hu : s₀.Keeps u) : s₀.Keeps (f₁ u) := keeps_eccStored hu
  have h₁ : s₀.Keeps s₁ := keeps_rec hs
  have h₂ : s₀.Keeps s₂ := keeps_foldl (fun hu => keeps_mwrite (keeps_mwrite (keeps_mwrite hu))) hs
  have h₃ : s₀.Keeps s₃ := keeps_foldl keeps_rec hs
  have h₄ : s₀.Keeps s₄ := keeps_rec h₃
  split
  · exact hf₁ (keeps_rec hs)
  · exact keeps_ite (keeps_memFault (keeps_rec h₁)) h₁
  · exact hf₁ (keeps_foldl (fun hu => keeps_ite hu (keeps_rec hu)) hs)
  · exact keeps_ite (keeps_memFault (hf₁ (keeps_shipRestart hs))) (keeps_memFault (hf₁ (keeps_rec hs)))
  · exact keeps_memFault (hf₁ h₂)
  · exact keeps_memFault (hf₁ (keeps_syncRoutes h₄))
  · exact keeps_caskBad hs
  · exact hf₁ (keeps_foldl keeps_mwrite hs)
  · exact hs
theorem keeps_eccRead {mem word} (hs : s₀.Keeps s) : s₀.Keeps (eccRead s mem word) := by
  unfold eccRead
  refine keeps_ite hs ?_
  split
  rename_i s₁ e₁
  have h₁ : s₀.Keeps s₁ := keeps_of_snd (keeps_eccFetch hs) e₁
  exact keeps_ite (keeps_eccHandle h₁) h₁
theorem keeps_eccPart {mem word} (hs : s₀.Keeps s) : s₀.Keeps (eccPart s mem word) := by
  unfold eccPart
  split
  · exact keeps_eccStored hs
  · exact keeps_eccStored (keeps_eccCorr hs)
  · exact keeps_eccStored (keeps_eccHandle (keeps_eccUncorr hs))
theorem keeps_eccSupReset {words} (hs : s₀.Keeps s) (e : eccSupReset s words = some u) : s₀.Keeps u := by
  unfold eccSupReset at e
  split at e
  · cases e
  · obtain ⟨w, _, rfl⟩ := Option.map_eq_some_iff.mp e
    exact keeps_systemReset (keeps_eccUncorr hs)
theorem keeps_eccSupGet {words eff} (heff : ∀ {u}, s₀.Keeps u → s₀.Keeps (eff u)) (hs : s₀.Keeps s) :
    s₀.Keeps (eccSupGet s words eff) := by
  unfold eccSupGet
  split
  · rename_i s₁ e₁
    have h₁ : s₀.Keeps s₁ := keeps_eccSupReset hs e₁
    exact h₁
  · exact heff (keeps_ite hs (keeps_foldl keeps_eccFetch hs))
theorem keeps_eccSupPut {words eff} (heff : ∀ {u}, s₀.Keeps u → s₀.Keeps (eff u)) (hs : s₀.Keeps s) :
    s₀.Keeps (eccSupPut s words eff) := by
  unfold eccSupPut
  split
  · rename_i s₁ e₁
    have h₁ : s₀.Keeps s₁ := keeps_eccSupReset hs e₁
    exact h₁
  · exact keeps_foldl (fun hu => keeps_eccStored (keeps_ite hu (keeps_eccCorr hu))) (heff hs)
theorem keeps_scrubSet {mem x} (hs : s₀.Keeps s) : s₀.Keeps (scrubSet s mem x) := keeps_rec hs
theorem keeps_scrubBegin {mems} (hs : s₀.Keeps s) : s₀.Keeps (scrubBegin s mems) := keeps_foldl keeps_scrubSet hs
theorem keeps_scrubRead {mem w} (hs : s₀.Keeps s) : s₀.Keeps (scrubRead s mem w) := keeps_scrubSet hs
theorem keeps_execScrubWord {t mem word straps} (hs : s₀.Keeps s) :
    s₀.KeepsIn (execScrubWord t mem word straps s) := by
  unfold execScrubWord
  extract_lets s₁ s₂
  have h₁ : s₀.Keeps s₁ := keeps_at hs
  have h₂ : s₀.Keeps s₂ := keeps_scrubRead h₁
  refine keepsIn_next (keeps_ite h₁ ?_)
  split
  rename_i s₃ e₃
  have h₃ : s₀.Keeps s₃ := keeps_of_snd (keeps_eccFetch h₂) e₃
  exact keeps_ite (keeps_ite (keeps_systemReset h₃) (keeps_eccHandle h₃)) (keeps_ite (keeps_eccStored h₃) h₃)
theorem keeps_execScrubPassDeadline {t mem} (hs : s₀.Keeps s) : s₀.KeepsIn (execScrubPassDeadline t mem s) := by
  unfold execScrubPassDeadline
  extract_lets s₁
  have h₁ : s₀.Keeps s₁ := keeps_at hs
  exact keepsIn_next (keeps_ite h₁ (keeps_ite (keeps_scrubSet h₁) (keeps_fset (keeps_scrubSet h₁))))
theorem keeps_scrubCfgEff {w} (hs : s₀.Keeps s) : s₀.Keeps (scrubCfgEff w s).2 := by
  unfold scrubCfgEff
  extract_lets s₁
  have h₁ : s₀.Keeps s₁ := keeps_fset hs
  exact keeps_snd (keeps_ite (keeps_scrubBegin h₁) h₁)
theorem keeps_einjEff {m w} (hs : s₀.Keeps s) : s₀.Keeps (einjEff m w s).2 :=
  keeps_guarded keeps_secErr keeps_fsets hs
theorem keeps_execErrorInjectArm {m w} (hs : s₀.Keeps s) : s₀.KeepsIn (execErrorInjectArm m w s) :=
  keepsIn_next (keeps_rowWrite keeps_einjEff hs)

/-! ### The functions of `Grist` -/

theorem keeps_ptErr {m st p} (hs : s₀.Keeps s) : s₀.Keeps (ptErr s m st p) := keeps_recErr hs
theorem keeps_putW {k i w} (hs : s₀.Keeps s) : s₀.Keeps (putW s k i w) := keeps_mwrite hs
theorem keeps_ptStore {k v tag late subst bad place} (hs : s₀.Keeps s) :
    s₀.Keeps (ptStore s k v tag late subst bad place) := by
  unfold ptStore
  extract_lets s₁ _ _ _ _ s₂ _ s₃ _ s₄
  have h₁ : s₀.Keeps s₁ := keeps_eccPart hs
  have h₂ : s₀.Keeps s₂ := keeps_putW (keeps_putW (keeps_putW (keeps_putW h₁)))
  have h₃ : s₀.Keeps s₃ := keeps_ite (keeps_putW h₁) (keeps_rec h₂)
  have h₄ : s₀.Keeps s₄ := keeps_rec h₃
  exact keeps_capFeed h₄
theorem keeps_ptWrite {k v subst place} (hs : s₀.Keeps s) : s₀.Keeps (ptWrite s k v subst place) := by
  unfold ptWrite
  refine keeps_ite (keeps_satAdd hs) ?_
  extract_lets _ s₁
  have h₁ : s₀.Keeps s₁ := keeps_ptStore hs
  exact keeps_ite (keeps_rackPeers h₁) h₁
theorem keeps_sysPoint {p v} (hs : s₀.Keeps s) : s₀.Keeps (sysPoint s p v) := by
  unfold sysPoint
  split
  · exact keeps_ite (keeps_ptWrite hs) hs
  · exact hs
theorem keeps_sysSlot {k v} (hs : s₀.Keeps s) : s₀.Keeps (sysSlot s k v) := keeps_ite (keeps_ptWrite hs) hs
theorem keeps_putEntry {m e w} (hs : s₀.Keeps s) : s₀.Keeps (putEntry s m e w) :=
  keeps_syncRoutes (keeps_rec (keeps_foldl (fun hu => keeps_rec (keeps_foldl keeps_putW (keeps_eccPart hu)))
    (keeps_eccPart hs)))
theorem keeps_restoreDir (hs : s₀.Keeps s) : s₀.Keeps (restoreDir s) :=
  keeps_ite hs (keeps_foldl (fun hu => keeps_ite (keeps_putEntry hu) hu) (keeps_rec hs))
theorem keeps_dirWrite {m e w} (hs : s₀.Keeps s) : s₀.Keeps (dirWrite s m e w).2 :=
  keeps_ite_snd (keeps_snd (keeps_putEntry hs)) (keeps_snd (keeps_ptErr hs))
theorem keeps_dirctlEff {m w} (hs : s₀.Keeps s) : s₀.Keeps (dirctlEff m w s).2 :=
  keeps_ite_snd (keeps_snd (keeps_ptErr hs))
    (keeps_ite_snd (keeps_dirWrite hs) (keeps_ite_snd (keeps_snd (keeps_fsets (keeps_eccRead hs))) (keeps_snd hs)))
theorem keeps_execDirRead {m w} (hs : s₀.Keeps s) : s₀.KeepsIn (execDirRead m w s) :=
  keepsIn_next (keeps_rowWrite keeps_dirctlEff hs)
theorem keeps_execDirWrite {m w} (hs : s₀.Keeps s) : s₀.KeepsIn (execDirWrite m w s) :=
  keepsIn_next (keeps_rowWrite keeps_dirctlEff hs)
theorem keeps_diridxEff {m w} (hs : s₀.Keeps s) : s₀.Keeps (diridxEff m w s).2 :=
  keeps_ite_snd (keeps_snd (keeps_ptErr hs)) (keeps_snd (keeps_fset hs))
theorem keeps_fillcfgEff {m w} (hs : s₀.Keeps s) : s₀.Keeps (fillcfgEff m w s).2 :=
  keeps_ite_snd (keeps_snd (keeps_fset hs)) (keeps_snd (keeps_ptErr hs))
theorem keeps_winRead {m a} (hs : s₀.Keeps s) : s₀.Keeps (winRead s m a).2 := by
  -- the body stands in an equation, with `winSlot` a variable: the kernel would unfold its subtraction of a long numeral
  have e : winRead = winRead := rfl
  conv_rhs at e => delta winRead
  generalize winSlot = slot at e
  rw [congrFun (congrFun (congrFun e s) m) a]
  cases slot s a with
  | none => exact keeps_snd (keeps_ptErr hs)
  | some k =>
    have h₁ : s₀.Keeps (eccRead s 6 (k / 64)) := keeps_eccRead hs
    exact keeps_ite_snd (keeps_snd (keeps_ptErr h₁)) (keeps_ite_snd (keeps_snd (keeps_rec (keeps_eccRead h₁)))
      (keeps_snd (keeps_ite h₁ (keeps_eccRead h₁))))
theorem keeps_winWrite {m a w} (hs : s₀.Keeps s) : s₀.Keeps (winWrite m a w s).2 := by
  -- the body stands in an equation, with `winSlot` a variable: the kernel would unfold its subtraction of a long numeral
  have e : winWrite = winWrite := rfl
  conv_rhs at e => delta winWrite
  generalize winSlot = slot at e
  generalize h : winWrite m a w s = p
  rw [congrFun (congrFun (congrFun (congrFun e m) a) w) s] at h
  have h₁ : s₀.Keeps (if a % 16 / 4 == 0 then { s with grist.stage := smSet none s.grist.stage m none } else s) :=
    keeps_ite (keeps_rec hs) hs
  generalize (if a % 16 / 4 == 0 then { s with grist.stage := smSet none s.grist.stage m none } else s) = s₁ at h₁ h
  clear e
  extract_lets -underBinder -lift staged s' at h
  subst s'
  generalize slot s₁ a = o at h
  cases o with
  | none => subst h; exact keeps_snd (keeps_ptErr h₁)
  | some k =>
    have h₂ : s₀.Keeps (eccRead s₁ 6 (k / 64)) := keeps_eccRead h₁
    subst h
    refine keeps_ite_snd (keeps_snd (keeps_ptErr h₂)) (keeps_ite_snd (keeps_snd (keeps_rec h₂))
      (keeps_ite_snd (keeps_snd h₂) ?_))
    extract_lets hi
    clear_value hi
    cases hi with
    | none => exact keeps_snd (keeps_ptErr h₂)
    | some h => exact keeps_ite_snd (keeps_snd (keeps_ptErr h₂)) (keeps_snd (keeps_ptWrite h₂))
theorem keeps_readAccess {m a rd} (hrd : ∀ {u}, s₀.Keeps u → s₀.Keeps (rd u).2) (hs : s₀.Keeps s) :
    s₀.Keeps (readAccess s m a rd) :=
  keeps_ite (keeps_rec (keeps_unmapped hs)) (keeps_ite (keeps_rec (keeps_recRefused hs)) (keeps_rec (hrd hs)))
theorem keeps_execPointWord0Read {m k} (hs : s₀.Keeps s) : s₀.KeepsIn (execPointWord0Read m k s) := by
  unfold execPointWord0Read
  obtain ⟨rd, e⟩ : ∃ rd, rd = fun s => winRead s m (winAddr k 0) := ⟨_, rfl⟩
  rw [← e]
  refine keepsIn_next (keeps_readAccess (fun {u} hu => ?_) hs)
  rw [congrFun e u]
  exact keeps_winRead hu
theorem keeps_execPointWord1Write {m k w} (hs : s₀.Keeps s) : s₀.KeepsIn (execPointWord1Write m k w s) :=
  keepsIn_next (keeps_rowWrite keeps_winWrite hs)
theorem keeps_execPointWord0Write {m k w} (hs : s₀.Keeps s) : s₀.KeepsIn (execPointWord0Write m k w s) :=
  keepsIn_next (keeps_rowWrite keeps_winWrite hs)
theorem keeps_eccSlots {l} (hs : s₀.Keeps s) : s₀.Keeps (eccSlots s l) :=
  keeps_ite hs (keeps_foldl (fun hu => keeps_eccRead (keeps_eccRead hu)) hs)
theorem keeps_publishReads {c} (hs : s₀.Keeps s) : s₀.Keeps (publishReads s c) :=
  keeps_foldl (fun hu => keeps_foldl keeps_eccRead hu) (keeps_foldl keeps_eccRead hs)
theorem keeps_telUpdate {owner late u'} (hs : s₀.Keeps s) : s₀.Keeps (telUpdate owner late s u') := by
  unfold telUpdate
  extract_lets _ s₁
  have h₁ : s₀.Keeps s₁ := keeps_eccRead (keeps_eccRead hs)
  exact keeps_ite (keeps_satAdd h₁) (keeps_ite (keeps_satAdd h₁) (keeps_ptStore h₁))
theorem keeps_telWrite {late f} (hs : s₀.Keeps s) : s₀.Keeps (telWrite late s f) := by
  unfold telWrite
  split
  · exact keeps_foldl keeps_telUpdate hs
  · exact hs
theorem keeps_telArrive {stamp f} (hs : s₀.Keeps s) : s₀.Keeps (telArrive stamp s f) := by
  unfold telArrive
  refine keeps_ite hs (keeps_ite (keeps_rec hs)
    (keeps_ite (keeps_satAdd hs) (keeps_ite (keeps_telWrite (keeps_rec hs)) ?_)))
  extract_lets s₁
  have h₁ : s₀.Keeps s₁ := keeps_satAdd hs
  exact keeps_ite (keeps_telWrite h₁) (keeps_rec h₁)
theorem keeps_fillBegin (hs : s₀.Keeps s) : s₀.Keeps (fillBegin s) :=
  keeps_foldl keeps_telArrive (keeps_foldl keeps_telWrite (keeps_rec (keeps_eset (keeps_restoreDir hs))))
theorem keeps_fillClose (hs : s₀.Keeps s) : s₀.Keeps (fillClose s) :=
  keeps_rec (keeps_foldl (fun hu => keeps_ite hu
    (keeps_foldl (fun hv => keeps_ite (keeps_putW (keeps_eccPart hv)) hv) hu))
    (keeps_foldl keeps_fset (keeps_fsets hs)))

/-! ### The functions of `Capture` -/

theorem keeps_capErr {m st} (hs : s₀.Keeps s) : s₀.Keeps (capErr s m st) := keeps_recErr hs
theorem keeps_armRec {ch pre post tset flags rearmed} (hs : s₀.Keeps s) :
    s₀.Keeps (armRec s ch pre post tset flags rearmed).2 :=
  keeps_snd (keeps_fset (keeps_writeHead (keeps_syncRec
    (keeps_foldl keeps_recWords (keeps_recWords (keeps_rec hs))))))
theorem keeps_capArm {mask pre post tset flags} (hs : s₀.Keeps s) :
    s₀.Keeps (capArm s mask pre post tset flags).2.2 := by
  unfold capArm
  extract_lets s₁
  have h₁ : s₀.Keeps s₁ := keeps_capSettle hs
  exact keeps_ite_snd_snd (keeps_snd_snd (keeps_armRec h₁)) (keeps_snd_snd h₁)
theorem keeps_chansIdle {rid ch} (hs : s₀.Keeps s) : s₀.Keeps (chansIdle s rid ch) :=
  keeps_foldl (fun hu => keeps_ite hu (keeps_fset (keeps_fsets hu))) hs
theorem keeps_dropRec {r} (hs : s₀.Keeps s) : s₀.Keeps (dropRec s r) :=
  keeps_fset (keeps_foldl (fun hu => keeps_ite (keeps_recWords hu) hu) (keeps_rec (keeps_chansIdle hs)))
theorem keeps_capDisarm {mask} (hs : s₀.Keeps s) : s₀.Keeps (capDisarm s mask).2 := by
  unfold capDisarm
  extract_lets s₁
  have h₁ : s₀.Keeps s₁ := keeps_capSettle hs
  exact keeps_ite_snd (keeps_snd h₁) (keeps_snd
    (keeps_foldl (fun hu => keeps_ite (keeps_dropRec hu) (keeps_closeRec hu)) h₁))
theorem keeps_capRead {rid off len} (hs : s₀.Keeps s) : s₀.Keeps (capRead s rid off len).2.2 := by
  unfold capRead
  extract_lets s₁
  have h₁ : s₀.Keeps s₁ := keeps_capSettle hs
  split
  · exact keeps_snd_snd h₁
  · exact keeps_ite_snd_snd (keeps_snd_snd h₁)
      (keeps_snd_snd (keeps_foldl keeps_caskRead (keeps_ite h₁ (keeps_writeHead h₁))))
theorem keeps_capFreeEff {m rid} (hs : s₀.Keeps s) : s₀.Keeps (capFreeEff m rid s).2 := by
  unfold capFreeEff
  extract_lets s₁
  have h₁ : s₀.Keeps s₁ := keeps_capSettle hs
  split
  · exact keeps_snd (keeps_capErr h₁)
  · exact keeps_ite_snd (keeps_snd (keeps_dropRec h₁)) (keeps_snd (keeps_capErr h₁))
theorem keeps_execCaptureFree {m w} (hs : s₀.Keeps s) : s₀.KeepsIn (execCaptureFree m w s) :=
  keepsIn_next (keeps_rowWrite keeps_capFreeEff hs)
theorem keeps_rearmOne {a} (hs : s₀.Keeps s) : s₀.Keeps (rearmOne s a) :=
  keeps_ite (keeps_armRec hs) (keeps_capFlag (keeps_capErr (keeps_chansIdle hs)))
theorem keeps_execCaptureRearm {t} (hs : s₀.Keeps s) : s₀.KeepsIn (execCaptureRearm t s) :=
  keepsIn_next (keeps_foldl keeps_rearmOne (keeps_rec (keeps_capSettle (keeps_at hs))))
theorem keeps_execTrigPinEdge {t pin rising} (hs : s₀.Keeps s) : s₀.KeepsIn (execTrigPinEdge t pin rising s) := by
  unfold execTrigPinEdge
  extract_lets s₁
  have h₁ : s₀.Keeps s₁ := keeps_at hs
  exact keepsIn_next (keeps_ite (keeps_localTrig h₁) h₁)
theorem keeps_swtrigEff {w} (hs : s₀.Keeps s) : s₀.Keeps (swtrigEff w s).2 :=
  keeps_snd (keeps_ite (keeps_localTrig hs) hs)
theorem keeps_execSoftTrigger {m w} (hs : s₀.Keeps s) : s₀.KeepsIn (execSoftTrigger m w s) :=
  keepsIn_next (keeps_rowWrite keeps_swtrigEff hs)
theorem keeps_execTrigxPulseEnd {t} (hs : s₀.Keeps s) : s₀.KeepsIn (execTrigxPulseEnd t s) := by
  unfold execTrigxPulseEnd
  extract_lets s₁
  have h₁ : s₀.Keeps s₁ := keeps_capSettle (keeps_at hs)
  exact keepsIn_next (keeps_ite (keeps_rec h₁) h₁)
theorem keeps_skewctlEff {m w} (hs : s₀.Keeps s) : s₀.Keeps (skewctlEff m w s).2 :=
  keeps_ite_snd (keeps_ite_snd (keeps_snd (keeps_capErr hs)) (keeps_snd (keeps_fset (keeps_rec hs)))) (keeps_snd hs)
theorem keeps_execSkewCal {m w} (hs : s₀.Keeps s) : s₀.KeepsIn (execSkewCal m w s) :=
  keepsIn_next (keeps_rowWrite keeps_skewctlEff hs)
theorem keeps_putSkews {conv skews} (hs : s₀.Keeps s) : s₀.Keeps (putSkews s conv skews) :=
  keeps_foldl (fun hu => keeps_ite (keeps_fset hu) hu) hs
theorem keeps_execSkewCalDone {t skews} (hs : s₀.Keeps s) : s₀.KeepsIn (execSkewCalDone t skews s) := by
  unfold execSkewCalDone
  extract_lets s₁
  have h₁ : s₀.Keeps s₁ := keeps_at hs
  exact keepsIn_next (keeps_ite (keeps_fset (keeps_putSkews h₁)) h₁)
theorem keeps_capGuard {m st eff} (heff : ∀ {u}, s₀.Keeps u → s₀.Keeps (eff u)) (hs : s₀.Keeps s) :
    s₀.Keeps (capGuard s m st eff).2 :=
  keeps_ite_snd (keeps_snd (heff hs)) (keeps_snd (keeps_capErr hs))
theorem keeps_capSrcEff {m i w} (hs : s₀.Keeps s) : s₀.Keeps (capSrcEff m i w s).2 := keeps_capGuard keeps_fsets hs
theorem keeps_capMcfgEff {m i w} (hs : s₀.Keeps s) : s₀.Keeps (capMcfgEff m i w s).2 := keeps_capGuard keeps_fsets hs
theorem keeps_trigcfgEff {m w} (hs : s₀.Keeps s) : s₀.Keeps (trigcfgEff m w s).2 := keeps_capGuard keeps_fsets hs
theorem keeps_mphaseEff {m w} (hs : s₀.Keeps s) : s₀.Keeps (mphaseEff m w s).2 := keeps_capGuard keeps_fsets hs
theorem keeps_mtcfgEff {m w} (hs : s₀.Keeps s) : s₀.Keeps (mtcfgEff m w s).2 := keeps_capGuard keeps_fsets hs
theorem keeps_mtstepEff {m w} (hs : s₀.Keeps s) : s₀.Keeps (mtstepEff m w s).2 := keeps_capGuard keeps_fset hs
theorem keeps_mtptEff {m w} (hs : s₀.Keeps s) : s₀.Keeps (mtptEff m w s).2 := keeps_capGuard keeps_fset hs
theorem keeps_mtupEff {m w} (hs : s₀.Keeps s) : s₀.Keeps (mtupEff m w s).2 := keeps_capGuard keeps_rec hs
theorem keeps_mtloEff {m w} (hs : s₀.Keeps s) : s₀.Keeps (mtloEff m w s).2 :=
  keeps_capGuard (fun hu => keeps_fset (keeps_rec hu)) hs
theorem keeps_execMaskTableLoWrite {m w} (hs : s₀.Keeps s) : s₀.KeepsIn (execMaskTableLoWrite m w s) :=
  keepsIn_next (keeps_rowWrite keeps_mtloEff hs)

/-! ### The functions of `Adc` -/

theorem keeps_adcMod {c f} (hs : s₀.Keeps s) : s₀.Keeps (adcMod s c f) := keeps_rec hs
theorem keeps_adcErr {m conv st} (hs : s₀.Keeps s) : s₀.Keeps (adcErr s m conv st) := keeps_recErr hs
theorem keeps_adcGuard {m conv st eff} (heff : ∀ {u}, s₀.Keeps u → s₀.Keeps (eff u)) (hs : s₀.Keeps s) :
    s₀.Keeps (adcGuard s m conv st eff).2 :=
  keeps_ite_snd (keeps_snd (heff hs)) (keeps_snd (keeps_adcErr hs))
theorem keeps_beginSlot {c slot first wake idle} (hs : s₀.Keeps s) : s₀.Keeps (beginSlot s c slot first wake idle) :=
  keeps_fsets (keeps_adcMod hs)
theorem keeps_beginInj {c q first wake} (hs : s₀.Keeps s) : s₀.Keeps (beginInj s c q first wake) :=
  keeps_fset (keeps_adcMod hs)
theorem keeps_takeHeld {c lim} (hs : s₀.Keeps s) : s₀.Keeps (takeHeld s c lim) :=
  keeps_ite (keeps_beginSlot (keeps_fset hs)) hs
theorem keeps_regStart {c a} (hs : s₀.Keeps s) : s₀.Keeps (regStart s c a) :=
  keeps_ite hs (keeps_ite (keeps_satAdd hs)
    (keeps_ite (keeps_ite (keeps_beginSlot (keeps_satAdd hs)) (keeps_beginSlot hs))
    (keeps_ite (keeps_satAdd hs) (keeps_fset (keeps_satAdd hs)))))
theorem keeps_pendStart {c a} (hs : s₀.Keeps s) : s₀.Keeps (pendStart s c a) := keeps_adcMod hs
theorem keeps_startDue {c a} (hs : s₀.Keeps s) : s₀.Keeps (startDue c s a) := by
  unfold startDue
  extract_lets s₁
  have h₁ : s₀.Keeps s₁ := keeps_takeHeld hs
  exact keeps_ite (keeps_pendStart h₁) (keeps_regStart h₁)
theorem keeps_adcSettle {c} (hs : s₀.Keeps s) : s₀.Keeps (adcSettle s c) :=
  keeps_takeHeld (keeps_foldl keeps_startDue (keeps_adcMod hs))
theorem keeps_beginCal {c at_} (hs : s₀.Keeps s) : s₀.Keeps (beginCal s c at_) :=
  keeps_fsets (keeps_adcMod (keeps_ite hs (keeps_satAdd hs)))
theorem keeps_adcNext {c free ref} (hs : s₀.Keeps s) : s₀.Keeps (adcNext s c free ref) := by
  unfold adcNext
  split
  · exact keeps_beginInj hs
  · extract_lets s₁ s₂
    have h₁ : s₀.Keeps s₁ := keeps_fset hs
    have h₂ : s₀.Keeps s₂ := keeps_fsets h₁
    refine keeps_ite (keeps_beginCal h₁) ?_
    split
    · exact keeps_beginSlot h₁
    · exact keeps_adcSettle (keeps_adcMod h₂)
theorem keeps_execAdcTimerExpiry {t c} (hs : s₀.Keeps s) : s₀.KeepsIn (execAdcTimerExpiry t c s) := by
  unfold execAdcTimerExpiry
  extract_lets s₁
  have h₁ : s₀.Keeps s₁ := keeps_at hs
  exact keepsIn_next (keeps_ite (keeps_adcSettle (keeps_pendStart (keeps_adcMod h₁))) h₁)
theorem keeps_startOn {trig tsel at_ lo hi p} (hs : s₀.Keeps s) : s₀.Keeps (startOn s trig tsel at_ lo hi p) := by
  unfold startOn
  refine keeps_foldl (fun hu => keeps_ite ?_ hu) hs
  split
  rename_i s₁ e₁
  have h₁ : s₀.Keeps s₁ := keeps_of_snd (keeps_drawBetween (keeps_adcSettle hu)) e₁
  exact keeps_pendStart h₁
theorem keeps_adcPairEvent {p kind} (hs : s₀.Keeps s) : s₀.Keeps (adcPairEvent s p kind) := keeps_startOn hs
theorem keeps_adcTick (hs : s₀.Keeps s) : s₀.Keeps (adcTick s) := keeps_startOn hs
theorem keeps_adcTimeTrig {d n i} (hs : s₀.Keeps s) : s₀.Keeps (adcTimeTrig s d n i) := keeps_startOn hs
theorem keeps_adcWindow {w} (hs : s₀.Keeps s) : s₀.Keeps (adcWindow s w) := keeps_startOn hs
theorem keeps_execAdcStartupDone {t c} (hs : s₀.Keeps s) : s₀.KeepsIn (execAdcStartupDone t c s) := by
  unfold execAdcStartupDone
  extract_lets s₁
  have h₁ : s₀.Keeps s₁ := keeps_adcSettle (keeps_at hs)
  refine keepsIn_next ?_
  split
  · exact keeps_ite (keeps_adcMod h₁) h₁
  · exact h₁
theorem keeps_execAdcPowerDown {t c} (hs : s₀.Keeps s) : s₀.KeepsIn (execAdcPowerDown t c s) := by
  unfold execAdcPowerDown
  extract_lets s₁
  have h₁ : s₀.Keeps s₁ := keeps_adcSettle (keeps_at hs)
  exact keepsIn_next (keeps_ite (keeps_fset h₁) h₁)
theorem keeps_sprSend {ain code tag} (hs : s₀.Keeps s) : s₀.Keeps (sprSend s ain code tag) := by
  unfold sprSend
  refine keeps_ite hs ?_
  split
  rename_i s₁ e₁
  have h₁ : s₀.Keeps s₁ := keeps_of_snd (keeps_drawBetween hs) e₁
  exact keeps_rec h₁
theorem keeps_writeResult {c n j codes pull} (hs : s₀.Keeps s) : s₀.Keeps (writeResult s c n j codes pull) := by
  unfold writeResult
  extract_lets _ _ _ _ _ _ _ _ _ s₁ s₂ _ _ s₃ s₄ s₅
  have h₁ : s₀.Keeps s₁ := keeps_rec hs
  have h₂ : s₀.Keeps s₂ := keeps_fsets h₁
  have h₃ : s₀.Keeps s₃ := keeps_rec h₂
  have h₄ : s₀.Keeps s₄ := keeps_ite h₃ (keeps_sprSend h₃)
  have h₅ : s₀.Keeps s₅ := keeps_capResult h₄
  refine keeps_ite ?_ h₅
  split
  · extract_lets s₆
    have h₆ : s₀.Keeps s₆ := keeps_eccRead h₅
    exact keeps_ite (keeps_ptWrite h₆) h₆
  · exact h₅
theorem keeps_execAdcResult {t c levels vdda} (hs : s₀.Keeps s) : s₀.KeepsIn (execAdcResult t c levels vdda s) := by
  unfold execAdcResult
  extract_lets s₁
  have h₁ : s₀.Keeps s₁ := keeps_adcSettle (keeps_at hs)
  refine keepsIn_next ?_
  split
  · exact keeps_ite h₁ (keeps_adcNext (keeps_adcMod (keeps_writeResult h₁)))
  · exact h₁
theorem keeps_resloRead {m i} (hs : s₀.Keeps s) : s₀.Keeps (resloRead s m i).2 := keeps_snd (keeps_rec hs)
theorem keeps_reshiRead {m i} (hs : s₀.Keeps s) : s₀.Keeps (reshiRead s m i).2 :=
  keeps_snd (keeps_ite (keeps_rec hs) hs)
theorem keeps_execAdcResloRead {m n} (hs : s₀.Keeps s) : s₀.KeepsIn (execAdcResloRead m n s) :=
  keepsIn_next (keeps_readAccess keeps_resloRead hs)
theorem keeps_injTake {c q} (hs : s₀.Keeps s) : s₀.Keeps (injTake s c q) := by
  unfold injTake
  extract_lets _ _ s₁
  have h₁ : s₀.Keeps s₁ := keeps_fset hs
  refine keeps_ite (keeps_beginInj h₁) (keeps_ite (keeps_beginInj (keeps_satAdd h₁)) ?_)
  split
  · exact keeps_ite (keeps_fset (keeps_beginInj (keeps_satAdd h₁))) (keeps_adcMod h₁)
  · exact keeps_adcMod h₁
theorem keeps_injEff {m c w} (hs : s₀.Keeps s) : s₀.Keeps (injEff m c w s).2 := by
  unfold injEff
  exact keeps_adcGuard (fun hu => keeps_ite (keeps_injTake hu) hu) (keeps_adcSettle hs)
theorem keeps_execAdcInjGo {m w} (hs : s₀.Keeps s) : s₀.KeepsIn (execAdcInjGo m w s) :=
  keepsIn_next (keeps_rowWrite keeps_injEff hs)
theorem keeps_adcCtlEff {m c w} (hs : s₀.Keeps s) : s₀.Keeps (adcCtlEff m c w s).2 := by
  unfold adcCtlEff
  extract_lets s₁
  have h₁ : s₀.Keeps s₁ := keeps_adcSettle hs
  refine keeps_adcGuard (fun hu => keeps_ite hu ?_) h₁
  extract_lets s₂
  have h₂ : s₀.Keeps s₂ := keeps_ite (keeps_satAdd (keeps_fset hu)) hu
  exact keeps_ite (keeps_fset h₂) (keeps_beginCal h₂)
theorem keeps_execAdcCal {m w} (hs : s₀.Keeps s) : s₀.KeepsIn (execAdcCal m w s) :=
  keepsIn_next (keeps_rowWrite keeps_adcCtlEff hs)
theorem keeps_execAdcCalDone {t c ofs gain skews} (hs : s₀.Keeps s) :
    s₀.KeepsIn (execAdcCalDone t c ofs gain skews s) := by
  unfold execAdcCalDone
  extract_lets s₁ _ s₂ s₃
  have h₁ : s₀.Keeps s₁ := keeps_adcSettle (keeps_at hs)
  have h₂ : s₀.Keeps s₂ := keeps_putSkews (keeps_fsets h₁)
  have h₃ : s₀.Keeps s₃ := keeps_adcMod h₂
  exact keepsIn_next (keeps_ite (keeps_adcNext (keeps_fset h₃)) h₁)
theorem keeps_adcStop {c} (hs : s₀.Keeps s) : s₀.Keeps (adcStop s c) := by
  unfold adcStop
  extract_lets s₁
  have h₁ : s₀.Keeps s₁ := keeps_fset (keeps_adcMod hs)
  exact keeps_ite h₁ (keeps_fsets (keeps_adcMod h₁))
theorem keeps_adcCfgEff {m c w} (hs : s₀.Keeps s) : s₀.Keeps (adcCfgEff m c w s).2 := by
  unfold adcCfgEff
  extract_lets s₁
  have h₁ : s₀.Keeps s₁ := keeps_adcSettle hs
  refine keeps_adcGuard (fun hu => ?_) h₁
  extract_lets s₂ s₃
  have h₂ : s₀.Keeps s₂ := keeps_fsets hu
  have h₃ : s₀.Keeps s₃ := keeps_adcMod h₂
  exact keeps_ite (keeps_ite (keeps_fset h₃) h₃) (keeps_ite (keeps_adcStop h₂) h₂)
theorem keeps_execAdcEnable {m w} (hs : s₀.Keeps s) : s₀.KeepsIn (execAdcEnable m w s) :=
  keepsIn_next (keeps_rowWrite keeps_adcCfgEff hs)
theorem keeps_adcTimerEff {m c w} (hs : s₀.Keeps s) : s₀.Keeps (adcTimerEff m c w s).2 := keeps_adcGuard keeps_fset hs
theorem keeps_adcSlotEff {m c j w} (hs : s₀.Keeps s) : s₀.Keeps (adcSlotEff m c j w s).2 :=
  keeps_adcGuard keeps_fsets hs
theorem keeps_pullPut {ain v} (hs : s₀.Keeps s) : s₀.Keeps (pullPut s ain v) :=
  keeps_ite hs (keeps_fset (keeps_rec hs))
theorem keeps_adcPullEff {m j w} (hs : s₀.Keeps s) : s₀.Keeps (adcPullEff m j w s).2 := by
  unfold adcPullEff
  exact keeps_adcGuard (fun hu => keeps_foldl keeps_pullPut hu) hs
theorem keeps_routeEff {m c n w} (hs : s₀.Keeps s) : s₀.Keeps (routeEff m c n w s).2 := keeps_adcGuard keeps_fsets hs
theorem keeps_execAdcRouteEnable {m n w} (hs : s₀.Keeps s) : s₀.KeepsIn (execAdcRouteEnable m n w s) :=
  keepsIn_next (keeps_rowWrite keeps_routeEff hs)
theorem keeps_winRise {w} (hs : s₀.Keeps s) : s₀.Keeps (winRise s w) :=
  keeps_ite hs (keeps_adcWindow (keeps_srcAssert (keeps_rec (keeps_satAdd (keeps_fsets hs)))))
theorem keeps_winFall {w} (hs : s₀.Keeps s) : s₀.Keeps (winFall s w) := keeps_srcRelease (keeps_fset hs)
theorem keeps_winLook {w} (hs : s₀.Keeps s) : s₀.Keeps (winLook s w) :=
  keeps_ite hs (keeps_ite (keeps_ite (keeps_winFall hs) hs)
    (keeps_ite (keeps_ite (keeps_winRise hs) (keeps_ite (keeps_rec hs) hs)) (keeps_rec hs)))
theorem keeps_execWindowCrossing {t w x} (hs : s₀.Keeps s) : s₀.KeepsIn (execWindowCrossing t w x s) := by
  unfold execWindowCrossing
  extract_lets s₁
  have h₁ : s₀.Keeps s₁ := keeps_at hs
  exact keepsIn_next (keeps_ite (keeps_winLook (keeps_rec h₁)) h₁)
theorem keeps_execWindowFilterExpiry {t w} (hs : s₀.Keeps s) : s₀.KeepsIn (execWindowFilterExpiry t w s) := by
  unfold execWindowFilterExpiry
  extract_lets s₁
  have h₁ : s₀.Keeps s₁ := keeps_at hs
  exact keepsIn_next (keeps_ite (keeps_winRise h₁) h₁)
theorem keeps_wctlEff {m w v} (hs : s₀.Keeps s) : s₀.Keeps (wctlEff m w v s).2 := by
  unfold wctlEff
  exact keeps_adcGuard (fun hu => keeps_ite (keeps_rec (keeps_fset (keeps_eset (keeps_eset (keeps_eset hu))))) hu) hs
theorem keeps_execWindowCommit {m win w} (hs : s₀.Keeps s) : s₀.KeepsIn (execWindowCommit m win w s) :=
  keepsIn_next (keeps_rowWrite keeps_wctlEff hs)
theorem keeps_execWindowLevelSwitch {t w} (hs : s₀.Keeps s) : s₀.KeepsIn (execWindowLevelSwitch t w s) := by
  unfold execWindowLevelSwitch
  extract_lets s₁
  have h₁ : s₀.Keeps s₁ := keeps_at hs
  exact keepsIn_next (keeps_ite (keeps_winLook (keeps_fsets h₁)) h₁)
theorem keeps_wcfgEff {m w v} (hs : s₀.Keeps s) : s₀.Keeps (wcfgEff m w v s).2 := by
  unfold wcfgEff
  refine keeps_adcGuard (fun hu => ?_) hs
  extract_lets s₁
  have h₁ : s₀.Keeps s₁ := keeps_fsets hu
  exact keeps_ite (keeps_winLook h₁) (keeps_winFall (keeps_rec h₁))
theorem keeps_wstatEff {w v} (hs : s₀.Keeps s) : s₀.Keeps (wstatEff w v s).2 :=
  keeps_snd (keeps_ite (keeps_fset hs) hs)

/-! ### The functions of `Time` -/

theorem keeps_syncCycle (hs : s₀.Keeps s) : s₀.Keeps (syncCycle s) := keeps_fset (keeps_rec hs)
theorem keeps_putRate (hs : s₀.Keeps s) : s₀.Keeps (putRate s) := keeps_fset (keeps_rec hs)
theorem keeps_trigSettle {n} (hs : s₀.Keeps s) : s₀.Keeps (trigSettle s n) := keeps_foldl keeps_trigMod hs
theorem keeps_setTime {t} (hs : s₀.Keeps s) : s₀.Keeps (setTime s t) := by
  unfold setTime
  extract_lets s₁ _ _ s₂
  have h₁ : s₀.Keeps s₁ := keeps_foldl keeps_trigSettle hs
  have h₂ : s₀.Keeps s₂ := keeps_foldl keeps_passOver (keeps_ite h₁ (keeps_satAdd h₁))
  exact keeps_syncCycle (keeps_rec h₂)
theorem keeps_servoPi {e} (hs : s₀.Keeps s) : s₀.Keeps (servoPi s e) := keeps_putRate (keeps_rec (keeps_fset hs))
theorem keeps_holdRate (hs : s₀.Keeps s) : s₀.Keeps (holdRate s) := keeps_putRate (keeps_rec hs)
theorem keeps_servo {e} (hs : s₀.Keeps s) : s₀.Keeps (servo s e) := by
  unfold servo
  extract_lets _ s₁ _ s₂ s₃
  have h₁ : s₀.Keeps s₁ := keeps_fset hs
  have h₂ : s₀.Keeps s₂ := keeps_setTime h₁
  have h₃ : s₀.Keeps s₃ := keeps_ite (keeps_fsets (keeps_satAdd (keeps_holdRate h₂))) (keeps_servoPi h₁)
  exact keeps_rec h₃
theorem keeps_judgeLock {e n k} (hs : s₀.Keeps s) : s₀.Keeps (judgeLock s e n k) := by
  unfold judgeLock
  extract_lets _ _ _ _ s₁
  have h₁ : s₀.Keeps s₁ := keeps_rec hs
  exact keeps_ite (keeps_fset h₁) (keeps_ite (keeps_fset h₁) h₁)
theorem keeps_dropLock (hs : s₀.Keeps s) : s₀.Keeps (dropLock s) := keeps_fset (keeps_rec hs)
theorem keeps_enterHold (hs : s₀.Keeps s) : s₀.Keeps (enterHold s) :=
  keeps_ite hs (keeps_holdRate (keeps_rec (keeps_satAdd (keeps_fsets hs))))
theorem keeps_execTempFeedforward {t} (hs : s₀.Keeps s) : s₀.KeepsIn (execTempFeedforward t s) := by
  unfold execTempFeedforward
  extract_lets s₁
  have h₁ : s₀.Keeps s₁ := keeps_at hs
  exact keepsIn_next (keeps_ite h₁ (keeps_putRate (keeps_rec h₁)))
theorem keeps_ptpMod {p f} (hs : s₀.Keeps s) : s₀.Keeps (ptpMod s p f) := keeps_rec hs
theorem keeps_execAnnounceMessage {t port a} (hs : s₀.Keeps s) : s₀.KeepsIn (execAnnounceMessage t port a s) := by
  unfold execAnnounceMessage
  extract_lets s₁ _ _ s₂
  have h₁ : s₀.Keeps s₁ := keeps_at hs
  have h₂ : s₀.Keeps s₂ := keeps_ite (keeps_ptpMod h₁) h₁
  exact keepsIn_next (keeps_ite h₁ (keeps_ite (keeps_rec h₂) h₂))
theorem keeps_execAnnounceTimeout {t port} (hs : s₀.Keeps s) : s₀.KeepsIn (execAnnounceTimeout t port s) := by
  unfold execAnnounceTimeout
  extract_lets s₁ _ s₂ _ s₃
  have h₁ : s₀.Keeps s₁ := keeps_at hs
  have h₂ : s₀.Keeps s₂ := keeps_ptpMod h₁
  have h₃ : s₀.Keeps s₃ := keeps_ite (keeps_rec h₂) h₂
  exact keepsIn_next (keeps_ite h₁ (keeps_ite h₂ (keeps_enterHold (keeps_dropLock h₃))))
theorem keeps_execSyncMessage {t port domain sender rx origin corr} (hs : s₀.Keeps s) :
    s₀.KeepsIn (execSyncMessage t port domain sender rx origin corr s) := by
  unfold execSyncMessage
  extract_lets s₁ _ _ _ _ s₂
  have h₁ : s₀.Keeps s₁ := keeps_at hs
  have h₂ : s₀.Keeps s₂ := keeps_judgeLock (keeps_ite h₁ (keeps_servo h₁))
  exact keepsIn_next (keeps_ite h₁ (keeps_ite (keeps_fset h₂) (keeps_ite (keeps_enterHold h₂) h₂)))
theorem keeps_execPdelayRequest {t h} (hs : s₀.Keeps s) : s₀.KeepsIn (execPdelayRequest t h s) := by
  unfold execPdelayRequest
  extract_lets s₁
  have h₁ : s₀.Keeps s₁ := keeps_at hs
  exact keepsIn_next (keeps_ite h₁ (keeps_rec (keeps_drawFree h₁)))
theorem keeps_execPdelayRequestTimer {t port} (hs : s₀.Keeps s) : s₀.KeepsIn (execPdelayRequestTimer t port s) := by
  unfold execPdelayRequestTimer
  extract_lets s₁ s₂
  have h₁ : s₀.Keeps s₁ := keeps_at hs
  have h₂ : s₀.Keeps s₂ := keeps_ptpMod h₁
  exact keepsIn_next (keeps_ite h₁ (keeps_rec h₂))
theorem keeps_execPdelayResponse {t h rx s₁ s₂ corr} (hs : s₀.Keeps s) :
    s₀.KeepsIn (execPdelayResponse t h rx s₁ s₂ corr s) := by
  unfold execPdelayResponse
  extract_lets s₁
  have h₁ : s₀.Keeps s₁ := keeps_at hs
  refine keepsIn_next ?_
  split
  · exact keeps_ite h₁ (keeps_ptpMod h₁)
  · exact h₁
theorem keeps_execPtpTransparentRelay {t port kind corr residence} (hs : s₀.Keeps s) :
    s₀.KeepsIn (execPtpTransparentRelay t port kind corr residence s) := by
  unfold execPtpTransparentRelay
  extract_lets s₁
  have h₁ : s₀.Keeps s₁ := keeps_at hs
  exact keepsIn_next (keeps_ite h₁ (keeps_rec h₁))
theorem keeps_startFree (hs : s₀.Keeps s) : s₀.Keeps (startFree s) := keeps_ite (keeps_fsets (keeps_setTime hs)) hs
theorem keeps_learnHolder {sid epoch holder} (hs : s₀.Keeps s) : s₀.Keeps (learnHolder s sid epoch holder) :=
  keeps_ite (keeps_fset (keeps_rec hs)) hs
theorem keeps_delayTake {p d} (hs : s₀.Keeps s) : s₀.Keeps (delayTake s p d) :=
  keeps_ite (keeps_satAdd hs) (keeps_fsets (keeps_lnMod hs))
theorem keeps_tryReady (hs : s₀.Keeps s) : s₀.Keeps (tryReady s) := keeps_ite (keeps_setDev (keeps_rec hs)) hs
theorem keeps_timeLoss (hs : s₀.Keeps s) : s₀.Keeps (timeLoss s) := keeps_srcAssert (keeps_dropLock hs)
theorem keeps_execTimeFrame {t l rx fr} (hs : s₀.Keeps s) : s₀.KeepsIn (execTimeFrame t l rx fr s) := by
  unfold execTimeFrame
  split
  rename_i s₁ e₁
  have h₁ : s₀.Keeps s₁ := keeps_of_snd (keeps_rxCheck (keeps_at hs)) e₁
  refine keepsIn_next ?_
  split
  · refine keeps_ite h₁ ?_
    extract_lets _ _ s₂ _ _ _ s₃ _ _ _ s₄ _ s₅ s₆ s₇
    have h₂ : s₀.Keeps s₂ := keeps_learnHolder h₁
    have h₃ : s₀.Keeps s₃ := keeps_ite (keeps_syncCycle (keeps_fset h₂)) h₂
    have h₄ : s₀.Keeps s₄ := keeps_ite (keeps_fset h₃) h₃
    have h₅ : s₀.Keeps s₅ := keeps_rec h₄
    have h₆ : s₀.Keeps s₆ := keeps_fsets h₅
    have h₇ : s₀.Keeps s₇ := keeps_judgeLock (keeps_servo h₆)
    exact keeps_ite (keeps_satAdd h₄) (keeps_tryReady (keeps_ite (keeps_srcRelease h₇) h₇))
  · exact h₁
theorem keeps_execDelayRequestTimer {t} (hs : s₀.Keeps s) : s₀.KeepsIn (execDelayRequestTimer t s) := by
  unfold execDelayRequestTimer
  extract_lets s₁
  have h₁ : s₀.Keeps s₁ := keeps_at hs
  exact keepsIn_next (keeps_ite h₁ (keeps_sendAll (keeps_rec h₁)))
theorem keeps_execEcholost {t port} (hs : s₀.Keeps s) : s₀.KeepsIn (execEcholost t port s) := by
  unfold execEcholost
  extract_lets s₁
  have h₁ : s₀.Keeps s₁ := keeps_at hs
  refine keepsIn_next ?_
  split
  · exact keeps_ite (keeps_satAdd (keeps_lnMod h₁)) h₁
  · exact h₁
theorem keeps_execCellHoldoverEntry {t} (hs : s₀.Keeps s) : s₀.KeepsIn (execCellHoldoverEntry t s) := by
  unfold execCellHoldoverEntry
  extract_lets s₁ s₂
  have h₁ : s₀.Keeps s₁ := keeps_at hs
  have h₂ : s₀.Keeps s₂ := keeps_enterHold h₁
  exact keepsIn_next (keeps_ite h₁ (keeps_ite (keeps_timeLoss h₂) h₂))
theorem keeps_execCellholdExpiry {t} (hs : s₀.Keeps s) : s₀.KeepsIn (execCellholdExpiry t s) := by
  unfold execCellholdExpiry
  extract_lets s₁
  have h₁ : s₀.Keeps s₁ := keeps_at hs
  exact keepsIn_next (keeps_ite h₁ (keeps_timeLoss h₁))
theorem keeps_timErr {m st} (hs : s₀.Keeps s) : s₀.Keeps (timErr s m st) := keeps_recErr hs
theorem keeps_trgcfgEff {m n w} (hs : s₀.Keeps s) : s₀.Keeps (trgcfgEff m n w s).2 := by
  unfold trgcfgEff
  refine keeps_ite_snd (keeps_snd (keeps_timErr hs)) ?_
  extract_lets s₁ _ s₂
  have h₁ : s₀.Keeps s₁ := keeps_fset hs
  have h₂ : s₀.Keeps s₂ := keeps_trigMod (keeps_fset h₁)
  exact keeps_ite_snd (keeps_snd h₁) (keeps_ite_snd (keeps_snd (keeps_timErr hs))
    (keeps_snd (keeps_ite (keeps_fset h₂) h₂)))
theorem keeps_trgFldEff {m n F w} (hs : s₀.Keeps s) : s₀.Keeps (trgFldEff m n F w s).2 :=
  keeps_ite_snd (keeps_snd (keeps_timErr hs)) (keeps_snd (keeps_fset hs))
theorem keeps_execTimeTriggerEnable {m n w} (hs : s₀.Keeps s) : s₀.KeepsIn (execTimeTriggerEnable m n w s) :=
  keepsIn_next (keeps_rowWrite keeps_trgcfgEff hs)
theorem keeps_execTimeTriggerEffect {t n} (hs : s₀.Keeps s) : s₀.KeepsIn (execTimeTriggerEffect t n s) :=
  keepsIn_next (keeps_trigSettle (keeps_at hs))
theorem keeps_trigFire {n d} (hs : s₀.Keeps s) : s₀.Keeps (trigFire n s d) := by
  unfold trigFire
  extract_lets
  split
  · exact hs
  · refine keeps_ite hs (keeps_ite (keeps_ite (keeps_satAdd (keeps_trigMod hs)) hs) ?_)
    extract_lets s₁ s₂
    have h₁ : s₀.Keeps s₁ := keeps_trigMod hs
    have h₂ : s₀.Keeps s₂ := keeps_trigMod h₁
    exact keeps_ite (keeps_ite (keeps_fset h₂) h₂) (keeps_ite (keeps_captureTime h₁) (keeps_adcTimeTrig h₁))
theorem keeps_execTimeTriggerFire {t n} (hs : s₀.Keeps s) : s₀.KeepsIn (execTimeTriggerFire t n s) :=
  keepsIn_next (keeps_foldl keeps_trigFire (keeps_trigSettle (keeps_at hs)))
theorem keeps_nowRead {m} (hs : s₀.Keeps s) : s₀.Keeps (nowRead s m).2 := keeps_snd (keeps_rec hs)
theorem keeps_execTimNowRead {m} (hs : s₀.Keeps s) : s₀.KeepsIn (execTimNowRead m s) :=
  keepsIn_next (keeps_readAccess keeps_nowRead hs)
theorem keeps_timGuard {m st eff} (heff : ∀ {u}, s₀.Keeps u → s₀.Keeps (eff u)) (hs : s₀.Keeps s) :
    s₀.Keeps (timGuard m st eff s).2 :=
  keeps_ite_snd (keeps_snd (heff hs)) (keeps_snd (keeps_timErr hs))
theorem keeps_timCfgEff {m w} (hs : s₀.Keeps s) : s₀.Keeps (timCfgEff m w s).2 := by
  unfold timCfgEff
  refine keeps_timGuard (fun hu => ?_) hs
  extract_lets _ s₁
  have h₁ : s₀.Keeps s₁ := keeps_fsets hu
  exact keeps_ite (keeps_fsets h₁) (keeps_ite (keeps_fset (keeps_dropLock h₁)) h₁)
theorem keeps_timCycEff {m w} (hs : s₀.Keeps s) : s₀.Keeps (timCycEff m w s).2 :=
  keeps_timGuard (fun hu => keeps_syncCycle (keeps_fset hu)) hs
theorem keeps_timServoEff {m w} (hs : s₀.Keeps s) : s₀.Keeps (timServoEff m w s).2 := keeps_timGuard keeps_fsets hs
theorem keeps_timLockcfgEff {m w} (hs : s₀.Keeps s) : s₀.Keeps (timLockcfgEff m w s).2 :=
  keeps_timGuard keeps_fsets hs
theorem keeps_timHoldEff {m w} (hs : s₀.Keeps s) : s₀.Keeps (timHoldEff m w s).2 := keeps_timGuard keeps_fset hs
theorem keeps_timAsymEff {m i w} (hs : s₀.Keeps s) : s₀.Keeps (timAsymEff m i w s).2 := keeps_timGuard keeps_fset hs

/-! ### The functions of `Lease` -/

theorem keeps_voteErr {m st} (hs : s₀.Keeps s) : s₀.Keeps (voteErr s m st) := keeps_recErr hs
theorem keeps_syncCand (hs : s₀.Keeps s) : s₀.Keeps (syncCand s) := keeps_fset hs
theorem keeps_setView {holder epoch exp} (hs : s₀.Keeps s) : s₀.Keeps (setView s holder epoch exp) :=
  keeps_fset (keeps_rec hs)
theorem keeps_raiseEpoch {e} (hs : s₀.Keeps s) : s₀.Keeps (raiseEpoch s e) := keeps_fset hs
theorem keeps_loseLease {exp} (hs : s₀.Keeps s) : s₀.Keeps (loseLease s exp) := keeps_fset (keeps_setView hs)
theorem keeps_gainLease {epoch exp} (hs : s₀.Keeps s) : s₀.Keeps (gainLease s epoch exp) :=
  keeps_rec (keeps_satAdd (keeps_fset (keeps_setView (keeps_raiseEpoch hs))))
theorem keeps_leaseRx {p holder claim hand target epoch tag} (hs : s₀.Keeps s) :
    s₀.Keeps (leaseRx s p holder claim hand target epoch tag) := by
  unfold leaseRx
  extract_lets exp known answer s₁ _ _ s₂ ends s₃ _ s₄ s₅ _ s₆ _ s₇ s₈
  have ha {u r} (hu : s₀.Keeps u) : s₀.Keeps (answer u r) := by
    unfold answer
    split
    · exact keeps_rackOn hu
    · exact hu
  have h₁ : s₀.Keeps s₁ := keeps_setView (keeps_raiseEpoch hs)
  have h₂ : s₀.Keeps s₂ := keeps_rec hs
  have h₃ : s₀.Keeps s₃ := keeps_ite hs (keeps_rec hs)
  have h₄ : s₀.Keeps s₄ := keeps_raiseEpoch (keeps_ite h₃ (keeps_rec h₃))
  have h₅ : s₀.Keeps s₅ := keeps_setView h₄
  have h₆ : s₀.Keeps s₆ := keeps_ite (keeps_loseLease h₄) h₄
  have h₇ : s₀.Keeps s₇ := keeps_ite h₆ (keeps_rec h₆)
  have h₈ : s₀.Keeps s₈ := keeps_setView h₇
  refine keeps_ite (keeps_ite ?_ (keeps_ite (keeps_gainLease h₂) (keeps_raiseEpoch h₂)))
    (keeps_ite ?_ (keeps_ite ?_ ?_))
  · exact keeps_ite (ha (keeps_rec h₁)) (ha (keeps_satAdd (keeps_raiseEpoch hs)))
  · exact keeps_ite (keeps_rec h₅) h₄
  · exact keeps_ite (keeps_ite (ha h₈) h₈) h₄
  · exact keeps_ite (keeps_rec h₄) h₄
theorem keeps_leaseBoundary (hs : s₀.Keeps s) : s₀.Keeps (leaseBoundary s) := by
  unfold leaseBoundary
  extract_lets _ s₁ _ s₂ s₃ _ s₄ _ _ s₅ s₆
  have h₁ : s₀.Keeps s₁ := keeps_syncCand hs
  have h₂ : s₀.Keeps s₂ := keeps_rackPeers h₁
  have h₃ : s₀.Keeps s₃ := keeps_satAdd (keeps_loseLease h₂)
  have h₄ : s₀.Keeps s₄ := keeps_rackLanes h₁
  have h₅ : s₀.Keeps s₅ := keeps_rec h₁
  have h₆ : s₀.Keeps s₆ := keeps_ite (keeps_fset h₅) h₅
  refine keeps_ite ?_ (keeps_ite (keeps_rackPeers h₆) h₆)
  split
  · exact keeps_rec h₃
  · exact keeps_rec (keeps_satAdd (keeps_loseLease (keeps_rackPeers h₁)))
  · exact keeps_ite (keeps_rec h₄) h₄
theorem keeps_execLeaseClaim {t} (hs : s₀.Keeps s) : s₀.KeepsIn (execLeaseClaim t s) := by
  unfold execLeaseClaim
  extract_lets s₁ _ _ _ _ _ s₂
  have h₁ : s₀.Keeps s₁ := keeps_at hs
  have h₂ : s₀.Keeps s₂ := keeps_raiseEpoch (keeps_rec h₁)
  exact keepsIn_next (keeps_ite h₁ (keeps_ite (keeps_gainLease h₁) (keeps_rackPeers h₂)))
theorem keeps_execLeaseClaimLapse {t} (hs : s₀.Keeps s) : s₀.KeepsIn (execLeaseClaimLapse t s) := by
  unfold execLeaseClaimLapse
  extract_lets s₁
  have h₁ : s₀.Keeps s₁ := keeps_at hs
  refine keepsIn_next ?_
  split
  · exact keeps_ite h₁ (keeps_satAdd (keeps_rec h₁))
  · exact h₁
theorem keeps_execLeaseExpiry {t} (hs : s₀.Keeps s) : s₀.KeepsIn (execLeaseExpiry t s) := by
  unfold execLeaseExpiry
  extract_lets s₁
  have h₁ : s₀.Keeps s₁ := keeps_at hs
  exact keepsIn_next (keeps_ite (keeps_satAdd (keeps_loseLease h₁)) h₁)
theorem keeps_cellWitness (hs : s₀.Keeps s) : s₀.Keeps (cellWitness s) := by
  unfold cellWitness
  split
  · exact keeps_ite (keeps_gainLease hs) hs
  · exact hs
theorem keeps_enterEnumerate {cause} (hs : s₀.Keeps s) : s₀.Keeps (enterEnumerate s cause) := by
  unfold enterEnumerate
  extract_lets s₁
  have h₁ : s₀.Keeps s₁ := keeps_setDev hs
  exact keeps_ite (keeps_rec h₁) h₁
theorem keeps_rackRefresh (hs : s₀.Keeps s) : s₀.Keeps (rackRefresh s) := by
  unfold rackRefresh
  refine keeps_ite hs (keeps_foldl (fun hu => ?_) (keeps_foldl keeps_eccRead hs))
  split
  · exact hu
  · exact keeps_foldl keeps_rackPeersOf (keeps_foldl keeps_eccRead hu)
theorem keeps_sendMirror (hs : s₀.Keeps s) : s₀.Keeps (sendMirror s) :=
  keeps_ite hs (keeps_foldl keeps_rackPeers (keeps_foldl (fun hu => keeps_ite (keeps_ptStore hu) hu) hs))
theorem keeps_pointsRx {p cyc l} (hs : s₀.Keeps s) : s₀.Keeps (pointsRx s p cyc l) := by
  unfold pointsRx
  refine keeps_ite (keeps_satAdd hs) (keeps_ite hs (keeps_foldl (fun hu => keeps_ite (keeps_satAdd hu) ?_) hs))
  extract_lets s₁ _ _ s₂
  have h₁ : s₀.Keeps s₁ := keeps_ptStore hu
  have h₂ : s₀.Keeps s₂ := keeps_rec h₁
  exact keeps_ite (keeps_rec h₂) h₂
theorem keeps_mirrorApply (hs : s₀.Keeps s) : s₀.Keeps (mirrorApply s) := by
  unfold mirrorApply
  refine keeps_ite hs ?_
  extract_lets _ s₁
  have h₁ : s₀.Keeps s₁ := keeps_eccSlots hs
  exact keeps_ite (keeps_satAdd (keeps_rec h₁)) (keeps_satAdd h₁)
theorem keeps_syncRacked (hs : s₀.Keeps s) : s₀.Keeps (syncRacked s) := keeps_ite hs (keeps_ite (keeps_fset hs) hs)
theorem keeps_xchkCompare {p c i} (hs : s₀.Keeps s) : s₀.Keeps (xchkCompare p c s i) :=
  keeps_ite hs (keeps_rec (keeps_ite hs (keeps_satAdd hs)))
theorem keeps_xchkStreak {k} (hs : s₀.Keeps s) : s₀.Keeps (xchkStreak s k) := by
  unfold xchkStreak
  refine keeps_ite hs ?_
  extract_lets _ _ s₁
  have h₁ : s₀.Keeps s₁ := keeps_fset (keeps_rec hs)
  exact keeps_ite (keeps_stackSafe h₁) h₁
theorem keeps_xchkRx {p i cyc flags ws} (hs : s₀.Keeps s) : s₀.Keeps (xchkRx s p i cyc flags ws) :=
  keeps_xchkStreak (keeps_xchkStreak (keeps_xchkCompare (keeps_rec hs)))
theorem keeps_xchkClose (hs : s₀.Keeps s) : s₀.Keeps (xchkClose s) := by
  unfold xchkClose
  refine keeps_ite hs ?_
  extract_lets _ s₁ s₂
  have h₁ : s₀.Keeps s₁ := keeps_foldl (fun hu => keeps_ite hu (keeps_satAdd hu)) hs
  have h₂ : s₀.Keeps s₂ := keeps_fset h₁
  exact keeps_ite h₂ (keeps_fset h₂)
theorem keeps_xchkOpen (hs : s₀.Keeps s) : s₀.Keeps (xchkOpen s) :=
  keeps_xchkStreak (keeps_foldl (fun hu => keeps_foldl keeps_xchkCompare hu) (keeps_rec hs))
theorem keeps_voteReport {i v} (hs : s₀.Keeps s) : s₀.Keeps (voteReport s i v) := by
  unfold voteReport
  extract_lets _ s₁ s₂ s₃
  have h₁ : s₀.Keeps s₁ := keeps_fset hs
  have h₂ : s₀.Keeps s₂ := keeps_ite (keeps_satAdd h₁) h₁
  have h₃ : s₀.Keeps s₃ := keeps_ite (keeps_satAdd h₂) h₂
  exact keeps_ite (keeps_rec h₃) h₃
theorem keeps_execSelfcheckWindowEnd {t} (hs : s₀.Keeps s) : s₀.KeepsIn (execSelfcheckWindowEnd t s) := by
  unfold execSelfcheckWindowEnd
  extract_lets s₁ _ _ _ s₂
  have h₁ : s₀.Keeps s₁ := keeps_at hs
  have h₂ : s₀.Keeps s₂ := keeps_rec h₁
  exact keepsIn_next (keeps_ite h₁ (keeps_ite (keeps_stackSafe h₂) h₂))
theorem keeps_voteGuard {m stack st eff} (heff : ∀ {u}, s₀.Keeps u → s₀.Keeps (eff u)) (hs : s₀.Keeps s) :
    s₀.Keeps (voteGuard m stack st eff s).2 :=
  keeps_ite_snd (keeps_snd (heff hs)) (keeps_snd (keeps_voteErr hs))
theorem keeps_lcfgEff {m w} (hs : s₀.Keeps s) : s₀.Keeps (lcfgEff m w s).2 := keeps_voteGuard keeps_fset hs
theorem keeps_xcfgEff {m w} (hs : s₀.Keeps s) : s₀.Keeps (xcfgEff m w s).2 := keeps_voteGuard keeps_fsets hs
theorem keeps_xmaskEff {m i w} (hs : s₀.Keeps s) : s₀.Keeps (xmaskEff m i w s).2 := keeps_voteGuard keeps_fset hs
theorem keeps_slistEff {m i w} (hs : s₀.Keeps s) : s₀.Keeps (slistEff m i w s).2 := keeps_voteGuard keeps_fsets hs
theorem keeps_ccfgEff {m w} (hs : s₀.Keeps s) : s₀.Keeps (ccfgEff m w s).2 := keeps_voteGuard keeps_fsets hs
theorem keeps_cmaskEff {m i w} (hs : s₀.Keeps s) : s₀.Keeps (cmaskEff m i w s).2 := keeps_voteGuard keeps_fset hs

/-! ### The functions of `Gate` -/

theorem keeps_gdErr {m c st} (hs : s₀.Keeps s) : s₀.Keeps (gdErr s m c st) := keeps_recErr hs
theorem keeps_didtRise {c hard} (hs : s₀.Keeps s) : s₀.Keeps (didtRise s c hard) :=
  keeps_ite (keeps_ite (keeps_fset hs) hs) (keeps_srcAssert (keeps_satAdd (keeps_fset (keeps_gdMod hs))))
theorem keeps_didtSync {c} (hs : s₀.Keeps s) : s₀.Keeps (didtSync s c) := by
  unfold didtSync
  refine keeps_ite (keeps_ite hs (keeps_srcRelease (keeps_gdMod hs))) ?_
  extract_lets s₁
  have h₁ : s₀.Keeps s₁ := keeps_ite (keeps_didtRise hs) hs
  exact keeps_ite (keeps_didtRise h₁) h₁
theorem keeps_execGdTurnOnStart {t c} (hs : s₀.Keeps s) : s₀.KeepsIn (execGdTurnOnStart t c s) := by
  unfold execGdTurnOnStart
  extract_lets s₁ s₂
  have h₁ : s₀.Keeps s₁ := keeps_at hs
  have h₂ : s₀.Keeps s₂ := keeps_gdPhase (keeps_fset h₁)
  exact keepsIn_next (keeps_ite (keeps_ite (keeps_interlock h₁) (keeps_didtSync (keeps_gdMod h₂))) h₁)
theorem keeps_execGdTpreExpiry {t c} (hs : s₀.Keeps s) : s₀.KeepsIn (execGdTpreExpiry t c s) := by
  unfold execGdTpreExpiry
  extract_lets s₁
  have h₁ : s₀.Keeps s₁ := keeps_at hs
  exact keepsIn_next (keeps_ite (keeps_ite (keeps_gdPhase h₁) (keeps_gdPhase (keeps_gdMod h₁))) h₁)
theorem keeps_execGdTwonTimeout {t c} (hs : s₀.Keeps s) : s₀.KeepsIn (execGdTwonTimeout t c s) := by
  unfold execGdTwonTimeout
  extract_lets s₁
  have h₁ : s₀.Keeps s₁ := keeps_at hs
  exact keepsIn_next (keeps_ite (keeps_satAdd (keeps_gdPhase (keeps_fset h₁))) h₁)
theorem keeps_execGdTpdisExpiry {t c} (hs : s₀.Keeps s) : s₀.KeepsIn (execGdTpdisExpiry t c s) := by
  unfold execGdTpdisExpiry
  extract_lets s₁
  have h₁ : s₀.Keeps s₁ := keeps_at hs
  exact keepsIn_next (keeps_ite (keeps_gdOffSlope h₁) h₁)
theorem keeps_execGdTwoffTimeout {t c} (hs : s₀.Keeps s) : s₀.KeepsIn (execGdTwoffTimeout t c s) := by
  unfold execGdTwoffTimeout
  extract_lets s₁
  have h₁ : s₀.Keeps s₁ := keeps_at hs
  exact keepsIn_next (keeps_ite (keeps_gdOffHold (keeps_satAdd (keeps_fset h₁))) h₁)
theorem keeps_gdFb {c fb} (hs : s₀.Keeps s) : s₀.Keeps (gdFb s c fb) := by
  unfold gdFb
  extract_lets s₁ s₂ _ s₃ s₄
  have h₁ : s₀.Keeps s₁ := keeps_ite hs (keeps_gdSteady (keeps_fset hs))
  have h₂ : s₀.Keeps s₂ := keeps_gdMod h₁
  have h₃ : s₀.Keeps s₃ := keeps_ite (keeps_gdOffHold h₂) h₂
  have h₄ : s₀.Keeps s₄ := keeps_foldl (fun hu => keeps_ite (keeps_grpMove hu) hu) h₃
  exact keeps_ite (keeps_ite (keeps_gdPhase h₂) h₂) (keeps_syncForced h₄)
theorem keeps_gdLine {c} (hs : s₀.Keeps s) : s₀.Keeps (gdLine s c) := keeps_gdFb hs
theorem keeps_execGdFeedbackChange {t c level} (hs : s₀.Keeps s) : s₀.KeepsIn (execGdFeedbackChange t c level s) := by
  unfold execGdFeedbackChange
  extract_lets s₁ _ s₂
  have h₁ : s₀.Keeps s₁ := keeps_at hs
  have h₂ : s₀.Keeps s₂ := keeps_rec h₁
  exact keepsIn_next (keeps_ite (keeps_gdLine h₂) h₂)
theorem keeps_execGdTfboffExpiry {t c} (hs : s₀.Keeps s) : s₀.KeepsIn (execGdTfboffExpiry t c s) := by
  unfold execGdTfboffExpiry
  extract_lets s₁ s₂
  have h₁ : s₀.Keeps s₁ := keeps_at hs
  have h₂ : s₀.Keeps s₂ := keeps_gdMod h₁
  exact keepsIn_next (keeps_ite (keeps_syncGdFb (keeps_satAdd (keeps_fset h₂))) h₁)
theorem keeps_execGdFbmis {t c} (hs : s₀.Keeps s) : s₀.KeepsIn (execGdFbmis t c s) := by
  unfold execGdFbmis
  extract_lets s₁ s₂
  have h₁ : s₀.Keeps s₁ := keeps_at hs
  have h₂ : s₀.Keeps s₂ := keeps_gdMod h₁
  exact keepsIn_next (keeps_ite (keeps_syncGdFb (keeps_satAdd (keeps_fset h₂))) h₁)
theorem keeps_execGdThresholdTrip {t c} (hs : s₀.Keeps s) : s₀.KeepsIn (execGdThresholdTrip t c s) := by
  unfold execGdThresholdTrip
  extract_lets s₁ s₂ s₃
  have h₁ : s₀.Keeps s₁ := keeps_at hs
  have h₂ : s₀.Keeps s₂ := keeps_fset h₁
  have h₃ : s₀.Keeps s₃ := keeps_ite h₂ (keeps_fsets h₂)
  exact keepsIn_next (keeps_ite (keeps_satAdd h₃) (keeps_ite (keeps_didtRise h₂) h₂))
theorem keeps_execGdHardTrip {t c} (hs : s₀.Keeps s) : s₀.KeepsIn (execGdHardTrip t c s) := by
  unfold execGdHardTrip
  extract_lets s₁ s₂
  have h₁ : s₀.Keeps s₁ := keeps_at hs
  have h₂ : s₀.Keeps s₂ := keeps_fset h₁
  exact keepsIn_next (keeps_ite (keeps_didtRise h₂) h₂)
theorem keeps_execGdComparatorRelease {t c hard} (hs : s₀.Keeps s) :
    s₀.KeepsIn (execGdComparatorRelease t c hard s) :=
  keepsIn_next (keeps_didtSync (keeps_fset (keeps_at hs)))
theorem keeps_execGdBlankingEnd {t c} (hs : s₀.Keeps s) : s₀.KeepsIn (execGdBlankingEnd t c s) := by
  unfold execGdBlankingEnd
  extract_lets s₁ s₂
  have h₁ : s₀.Keeps s₁ := keeps_at hs
  have h₂ : s₀.Keeps s₂ := keeps_gdMod h₁
  exact keepsIn_next (keeps_ite (keeps_ite (keeps_didtRise h₂) h₂) h₁)
theorem keeps_gdCfgEff {m c w} (hs : s₀.Keeps s) : s₀.Keeps (gdCfgEff m c w s).2 := by
  unfold gdCfgEff
  refine keeps_guarded keeps_gdErr (fun hu => ?_) hs
  extract_lets s₁ s₂ s₃ s₄ _ s₅
  have h₁ : s₀.Keeps s₁ := keeps_foldl keeps_fset hu
  have h₂ : s₀.Keeps s₂ := keeps_didtSync (keeps_gdLine h₁)
  have h₃ : s₀.Keeps s₃ := keeps_fset (keeps_gdMod h₂)
  have h₄ : s₀.Keeps s₄ := keeps_fset (keeps_fset h₂)
  have h₅ : s₀.Keeps s₅ := keeps_gdMod h₄
  exact keeps_ite (keeps_ite (keeps_gdSteady h₃) (keeps_gdReturn h₃))
    (keeps_ite (keeps_ite (keeps_ilFree (keeps_gdPhase h₄)) (keeps_ite h₅ (keeps_gdTurnOff h₅))) h₂)
theorem keeps_execGdEnable {m w} (hs : s₀.Keeps s) : s₀.KeepsIn (execGdEnable m w s) :=
  keepsIn_next (keeps_rowWrite keeps_gdCfgEff hs)
theorem keeps_gdTimeEff {m c fs zero w} (hs : s₀.Keeps s) : s₀.Keeps (gdTimeEff m c fs zero w s).2 :=
  keeps_guarded keeps_gdErr (fun hu => keeps_foldl keeps_fset hu) hs
theorem keeps_gdDtEff {m p w} (hs : s₀.Keeps s) : s₀.Keeps (gdDtEff m p w s).2 :=
  keeps_guarded keeps_gdErr keeps_fset hs
theorem keeps_gdEvtEff {c w} (hs : s₀.Keeps s) : s₀.Keeps (gdEvtEff c w s).2 := by
  unfold gdEvtEff
  extract_lets _ f₁ s₁ s₂ s₃ s₄ s₅ s₆ s₇
  have hf₁ {u x₁ x₂ x₃} (hu : s₀.Keeps u) : s₀.Keeps (f₁ u x₁ x₂ x₃) := keeps_ite (keeps_fset hu) hu
  have h₁ : s₀.Keeps s₁ := hf₁ hs
  have h₂ : s₀.Keeps s₂ := hf₁ h₁
  have h₃ : s₀.Keeps s₃ := hf₁ h₂
  have h₄ : s₀.Keeps s₄ := hf₁ h₃
  have h₅ : s₀.Keeps s₅ := hf₁ h₄
  have h₆ : s₀.Keeps s₆ := hf₁ h₅
  have h₇ : s₀.Keeps s₇ := hf₁ h₆
  exact keeps_snd (keeps_syncGdFb (keeps_ite (keeps_fset h₇) h₇))
theorem keeps_gdFbsrcEff {w} (hs : s₀.Keeps s) : s₀.Keeps (gdFbsrcEff w s).2 :=
  keeps_snd (keeps_syncGdFb (keeps_fset hs))

/-! ### The functions of `Pwm` -/

theorem keeps_crossPwm (hs : s₀.Keeps s) : s₀.Keeps (crossPwm s).2 := keeps_drawBetween hs
theorem keeps_pwmPend {p} (hs : s₀.Keeps s) : s₀.Keeps (pwmPend s p) := keeps_fset hs
theorem keeps_makeEff {p per cmpa cmpb ofs} (hs : s₀.Keeps s) : s₀.Keeps (makeEff s p per cmpa cmpb ofs) :=
  keeps_fsets hs
theorem keeps_releaseSet {m p at_} (hs : s₀.Keeps s) : s₀.Keeps (releaseSet s m p at_).2 :=
  keeps_guarded keeps_pwmErr (fun hu => keeps_pwmPend (keeps_pwmMod hu)) hs
theorem keeps_releaseAt {m} (hs : s₀.Keeps s) : s₀.Keeps (releaseAt s m).2 :=
  keeps_ite_snd (keeps_snd (keeps_crossPwm hs)) (keeps_snd hs)
theorem keeps_masterRelease {m p} (hs : s₀.Keeps s) : s₀.Keeps (masterRelease s m p).2 :=
  keeps_releaseSet (keeps_releaseAt hs)
theorem keeps_cancelSet {p} (hs : s₀.Keeps s) : s₀.Keeps (cancelSet s p) := keeps_fsets (keeps_pwmMod hs)
theorem keeps_pwmCtlEff {m p w} (hs : s₀.Keeps s) : s₀.Keeps (pwmCtlEff m p w s).2 := by
  unfold pwmCtlEff
  extract_lets s₁
  have h₁ : s₀.Keeps s₁ := keeps_ite (keeps_cancelSet hs) hs
  exact keeps_ite_snd (keeps_masterRelease h₁) (keeps_snd h₁)
theorem keeps_execPwmCommit {m w} (hs : s₀.Keeps s) : s₀.KeepsIn (execPwmCommit m w s) :=
  keepsIn_next (keeps_rowWrite keeps_pwmCtlEff hs)
theorem keeps_execPwmCancel {m w} (hs : s₀.Keeps s) : s₀.KeepsIn (execPwmCancel m w s) :=
  keepsIn_next (keeps_rowWrite keeps_pwmCtlEff hs)
theorem keeps_pwmMask {m eff l} (heff : ∀ {u p}, s₀.Keeps u → s₀.Keeps (eff u p).2) (hs : s₀.Keeps s) :
    s₀.Keeps (pwmMask m eff l s).2 := by
  induction l generalizing s with
  | nil => exact hs
  | cons p ps ih => exact keeps_ite_snd (ih (keeps_pwmErr hs)) (ih (heff hs))
theorem keeps_gcommitEff {m w} (hs : s₀.Keeps s) : s₀.Keeps (gcommitEff m w s).2 :=
  keeps_pwmMask keeps_releaseSet (keeps_crossPwm (keeps_releaseAt hs))
theorem keeps_gcancelEff {m w} (hs : s₀.Keeps s) : s₀.Keeps (gcancelEff m w s).2 :=
  keeps_pwmMask (fun hu => keeps_snd (keeps_cancelSet hu)) hs
theorem keeps_execPwmGcommit {m w} (hs : s₀.Keeps s) : s₀.KeepsIn (execPwmGcommit m w s) :=
  keepsIn_next (keeps_rowWrite keeps_gcommitEff hs)
theorem keeps_execPwmGcancel {m w} (hs : s₀.Keeps s) : s₀.KeepsIn (execPwmGcancel m w s) :=
  keepsIn_next (keeps_rowWrite keeps_gcancelEff hs)
theorem keeps_stagedEff {m p reg w} (hs : s₀.Keeps s) : s₀.Keeps (stagedEff m p reg w s).2 := by
  unfold stagedEff
  refine keeps_ite_snd (keeps_snd (keeps_pwmErr hs)) ?_
  extract_lets s₁
  have h₁ : s₀.Keeps s₁ := keeps_fset hs
  exact keeps_ite_snd (keeps_masterRelease h₁) (keeps_snd h₁)
theorem keeps_execPwmCmpaWrite {m reg al w} (hs : s₀.Keeps s) : s₀.KeepsIn (execPwmCmpaWrite m reg al w s) :=
  keepsIn_next (keeps_rowWrite keeps_stagedEff hs)
theorem keeps_pwmCfgEff {m p w} (hs : s₀.Keeps s) : s₀.Keeps (pwmCfgEff m p w s).2 := by
  unfold pwmCfgEff
  refine keeps_ite_snd (keeps_snd (keeps_pwmErr hs)) ?_
  extract_lets s₁ s₂ s₃
  have h₁ : s₀.Keeps s₁ := keeps_foldl keeps_fset hs
  have h₂ : s₀.Keeps s₂ := keeps_fset h₁
  have h₃ : s₀.Keeps s₃ := keeps_makeEff h₂
  exact keeps_ite_snd (keeps_ite_snd (keeps_masterRelease (keeps_pwmMod h₂))
    (keeps_snd (keeps_pwmPend (keeps_pwmMod h₃)))) (keeps_ite_snd (keeps_snd (keeps_pwmMod h₂)) (keeps_snd h₂))
theorem keeps_execPwmEnable {m w} (hs : s₀.Keeps s) : s₀.KeepsIn (execPwmEnable m w s) :=
  keepsIn_next (keeps_rowWrite keeps_pwmCfgEff hs)
theorem keeps_execPwmDisable {m w} (hs : s₀.Keeps s) : s₀.KeepsIn (execPwmDisable m w s) :=
  keepsIn_next (keeps_rowWrite keeps_pwmCfgEff hs)
theorem keeps_phstepEff {m p w} (hs : s₀.Keeps s) : s₀.Keeps (phstepEff m p w s).2 :=
  keeps_guarded keeps_pwmErr keeps_fset hs
theorem keeps_lateMark {p peak} (hs : s₀.Keeps s) : s₀.Keeps (lateMark s p peak) := by
  unfold lateMark
  split
  · exact hs
  · exact keeps_ite hs (keeps_pwmMod (keeps_satAdd (keeps_fset hs)))
theorem keeps_reload {p peak} (hs : s₀.Keeps s) : s₀.Keeps (reload s p peak).2 := by
  unfold reload
  split
  · exact keeps_snd hs
  · exact keeps_ite_snd (keeps_snd hs) (keeps_ite_snd
      (keeps_snd (keeps_lateMark (keeps_pwmPend (keeps_pwmMod (keeps_fset (keeps_makeEff hs))))))
      (keeps_snd (keeps_lateMark hs)))
theorem keeps_phaseCorrect {p V whole} (hs : s₀.Keeps s) : s₀.Keeps (phaseCorrect s p V whole) :=
  keeps_pwmMod (keeps_fsets hs)
theorem keeps_releaseHeld {p} (hs : s₀.Keeps s) : s₀.Keeps (releaseHeld s p) := by
  unfold releaseHeld
  extract_lets s₁
  have h₁ : s₀.Keeps s₁ := keeps_ite (keeps_gdReturn hs) hs
  exact keeps_ite (keeps_gdReturn h₁) h₁
theorem keeps_pwmHalt {p} (hs : s₀.Keeps s) : s₀.Keeps (pwmHalt s p) :=
  keeps_releaseHeld (keeps_pwmMod (keeps_fsets (keeps_gdCommand (keeps_gdCommand hs))))
theorem keeps_pwmEdge {p outB} (hs : s₀.Keeps s) : s₀.Keeps (pwmEdge s p outB) := by
  unfold pwmEdge
  extract_lets
  split
  refine keeps_ite hs (keeps_ite (keeps_pwmMod hs) (keeps_ite hs ?_))
  extract_lets s₁ s₂
  have h₁ : s₀.Keeps s₁ := keeps_pwmMod hs
  have h₂ : s₀.Keeps s₂ := keeps_ite (keeps_satAdd h₁) h₁
  exact keeps_ite h₂ (keeps_gdCommand (keeps_pwmMod h₂))
theorem keeps_pwmEdges {p} (hs : s₀.Keeps s) : s₀.Keeps (pwmEdges s p) := keeps_pwmEdge (keeps_pwmEdge hs)
theorem keeps_execPwmCompareMatch {t p outB} (hs : s₀.Keeps s) : s₀.KeepsIn (execPwmCompareMatch t p outB s) :=
  keepsIn_next (keeps_pwmEdge (keeps_at hs))
theorem keeps_execPwmCounterStart {t p} (hs : s₀.Keeps s) : s₀.KeepsIn (execPwmCounterStart t p s) := by
  unfold execPwmCounterStart
  extract_lets s₁
  have h₁ : s₀.Keeps s₁ := keeps_at hs
  split
  · exact keepsIn_next h₁
  · exact keepsIn_next (keeps_ite h₁ (keeps_ite (keeps_pwmHalt h₁)
      (keeps_pwmEdges (keeps_releaseHeld (keeps_phaseCorrect (keeps_reload (keeps_fset (keeps_pwmMod h₁))))))))
theorem keeps_valleyWork {p} (hs : s₀.Keeps s) : s₀.Keeps (valleyWork s p) :=
  keeps_ite (keeps_pwmHalt hs) (keeps_pwmEdges (keeps_releaseHeld (keeps_phaseCorrect (keeps_reload hs))))
theorem keeps_peakWork {p} (hs : s₀.Keeps s) : s₀.Keeps (peakWork s p) := by
  unfold peakWork
  extract_lets s₁
  have h₁ : s₀.Keeps s₁ := keeps_fset hs
  exact keeps_pwmEdges (keeps_ite (keeps_reload h₁) h₁)
theorem keeps_sprRelease {p cmpa cmpb} (hs : s₀.Keeps s) : s₀.Keeps (sprRelease s p cmpa cmpb) :=
  keeps_ite hs (keeps_releaseSet (keeps_fsets (keeps_crossPwm hs)))

/-! ### The functions of `Spr` -/

theorem keeps_sprMod {f} (hs : s₀.Keeps s) : s₀.Keeps (sprMod s f) := keeps_rec hs
theorem keeps_sprErr {m st} (hs : s₀.Keeps s) : s₀.Keeps (sprErr s m st) := keeps_recErr hs
theorem keeps_sprGuard {m st eff} (heff : ∀ {u}, s₀.Keeps u → s₀.Keeps (eff u)) (hs : s₀.Keeps s) :
    s₀.Keeps (sprGuard s m st eff).2 :=
  keeps_ite_snd (keeps_snd (heff hs)) (keeps_snd (keeps_sprErr hs))
theorem keeps_takeParams (hs : s₀.Keeps s) : s₀.Keeps (takeParams s) := keeps_fsets (keeps_sprMod hs)
theorem keeps_applyParams {w} (hs : s₀.Keeps s) : s₀.Keeps (applyParams s w) := by
  unfold applyParams
  extract_lets s₁
  have h₁ : s₀.Keeps s₁ := by
    refine keeps_foldl (fun hu => ?_) hs
    split
    · exact hu
    · exact keeps_eset hu
  exact keeps_fset (keeps_sprMod h₁)
theorem keeps_execSprCoeffComputed {t} (hs : s₀.Keeps s) : s₀.KeepsIn (execSprCoeffComputed t s) :=
  keepsIn_next (keeps_sprMod (keeps_at hs))
theorem keeps_offSet {k} (hs : s₀.Keeps s) : s₀.Keeps (offSet s k) := keeps_ite (keeps_sprRelease hs) hs
theorem keeps_offAll (hs : s₀.Keeps s) : s₀.Keeps (offAll s) := keeps_foldl keeps_offSet hs
theorem keeps_syncPlim (hs : s₀.Keeps s) : s₀.Keeps (syncPlim s) :=
  keeps_fset (keeps_sprMod (keeps_ite (keeps_fset hs) hs))
theorem keeps_putActive {k b} (hs : s₀.Keeps s) : s₀.Keeps (putActive s k b) := keeps_fset hs
theorem keeps_syncShed (hs : s₀.Keeps s) : s₀.Keeps (syncShed s) := keeps_fset hs
theorem keeps_phaseOut {k} (hs : s₀.Keeps s) : s₀.Keeps (phaseOut s k) :=
  keeps_offSet (keeps_syncShed (keeps_putActive (keeps_fset (keeps_sprMod hs))))
theorem keeps_sprOff (hs : s₀.Keeps s) : s₀.Keeps (sprOff s) :=
  keeps_syncPlim (keeps_sprMod (keeps_fsets (keeps_offAll hs)))
theorem keeps_sprTrip {cause} (hs : s₀.Keeps s) : s₀.Keeps (sprTrip s cause) :=
  keeps_ite hs (keeps_syncPlim (keeps_srcAssert (keeps_sprMod (keeps_fsets (keeps_offAll hs)))))
theorem keeps_sprStop (hs : s₀.Keeps s) : s₀.Keeps (sprStop s) :=
  keeps_ite (keeps_sprOff hs) (keeps_syncPlim (keeps_fsets (keeps_sprMod hs)))
theorem keeps_sprStart (hs : s₀.Keeps s) : s₀.Keeps (sprStart s) := keeps_offAll (keeps_fset (keeps_sprMod hs))
theorem keeps_sprCtlEff {m w} (hs : s₀.Keeps s) : s₀.Keeps (sprCtlEff m w s).2 :=
  keeps_sprGuard (fun hu => keeps_ite (keeps_sprStart hu) (keeps_ite (keeps_sprStop hu) hu))
    (keeps_ite (keeps_takeParams hs) hs)
theorem keeps_execSprStart {m w} (hs : s₀.Keeps s) : s₀.KeepsIn (execSprStart m w s) :=
  keepsIn_next (keeps_rowWrite keeps_sprCtlEff hs)
theorem keeps_execSprStop {m w} (hs : s₀.Keeps s) : s₀.KeepsIn (execSprStop m w s) :=
  keepsIn_next (keeps_rowWrite keeps_sprCtlEff hs)
theorem keeps_execSprCommit {m w} (hs : s₀.Keeps s) : s₀.KeepsIn (execSprCommit m w s) :=
  keepsIn_next (keeps_rowWrite keeps_sprCtlEff hs)
theorem keeps_execSprSstmo {t} (hs : s₀.Keeps s) : s₀.KeepsIn (execSprSstmo t s) := by
  unfold execSprSstmo
  extract_lets s₁
  have h₁ : s₀.Keeps s₁ := keeps_at hs
  exact keepsIn_next (keeps_ite (keeps_sprTrip h₁) h₁)
theorem keeps_nextTest (hs : s₀.Keeps s) : s₀.Keeps (nextTest s) := by
  unfold nextTest
  exact keeps_sprMod hs
theorem keeps_rotate (hs : s₀.Keeps s) : s₀.Keeps (rotate s) :=
  keeps_ite hs (keeps_ite (keeps_sprMod hs) (keeps_sprMod hs))
theorem keeps_enterSteep (hs : s₀.Keeps s) : s₀.Keeps (enterSteep s) := keeps_fsets (keeps_sprMod hs)
theorem keeps_paramsDue (hs : s₀.Keeps s) : s₀.Keeps (paramsDue s) := by
  unfold paramsDue
  split
  · split
    · exact keeps_ite (keeps_applyParams hs) (keeps_ite hs (keeps_satAdd (keeps_fset (keeps_sprMod hs))))
    · exact hs
  · exact hs
theorem keeps_pffDue (hs : s₀.Keeps s) : s₀.Keeps (pffDue s) := by
  unfold pffDue
  split
  · exact keeps_sprMod hs
  · exact hs
theorem keeps_execSprTick {t pos} (hs : s₀.Keeps s) : s₀.KeepsIn (execSprTick t pos s) := by
  unfold execSprTick
  extract_lets s₁
  have h₁ : s₀.Keeps s₁ := keeps_at hs
  refine keepsIn_next ?_
  split
  · exact keeps_ite h₁ (keeps_pffDue (keeps_paramsDue (keeps_sprMod h₁)))
  · exact h₁
theorem keeps_takeResults (hs : s₀.Keeps s) : s₀.Keeps (takeResults s) := by
  unfold takeResults
  refine keeps_foldl (fun hu => ?_) hs
  split
  · exact keeps_sprMod hu
  · exact keeps_sprMod (keeps_satAdd hu)
theorem keeps_senseFail {k} (hs : s₀.Keeps s) : s₀.Keeps (senseFail s k) := by
  unfold senseFail
  refine keeps_ite hs ?_
  extract_lets s₁ s₂ s₃
  have h₁ : s₀.Keeps s₁ := keeps_fsets hs
  have h₂ : s₀.Keeps s₂ := keeps_ite (keeps_phaseOut h₁) h₁
  have h₃ : s₀.Keeps s₃ := keeps_fset h₂
  exact keeps_sprMod h₃
theorem keeps_runTest {x} (hs : s₀.Keeps s) : s₀.Keeps (runTest s x) := by
  unfold runTest
  refine keeps_ite (keeps_sprMod hs) (keeps_ite ?_ (keeps_sprMod hs))
  extract_lets _ s₁ s₂
  have h₁ : s₀.Keeps s₁ := keeps_sprMod hs
  have h₂ : s₀.Keeps s₂ := keeps_ite (keeps_satAdd h₁) h₁
  exact keeps_ite h₂ (keeps_ite (keeps_sprMod h₂) (keeps_ite (keeps_senseFail h₂) h₂))
theorem keeps_runTests (hs : s₀.Keeps s) : s₀.Keeps (runTests s) := keeps_foldl keeps_runTest (keeps_sprMod hs)
theorem keeps_openWatch {k pred} (hs : s₀.Keeps s) : s₀.Keeps (openWatch s k pred) := by
  unfold openWatch
  refine keeps_ite (keeps_ite hs (keeps_sprMod hs)) ?_
  extract_lets _ s₁
  have h₁ : s₀.Keeps s₁ := keeps_sprMod hs
  exact keeps_ite (keeps_senseFail h₁) h₁
theorem keeps_openJudge {k} (hs : s₀.Keeps s) : s₀.Keeps (openJudge s k) := by
  unfold openJudge
  refine keeps_ite hs ?_
  extract_lets s₁
  have h₁ : s₀.Keeps s₁ := keeps_sprMod hs
  exact keeps_ite (keeps_senseFail h₁) (keeps_ite (keeps_phaseOut (keeps_fsets h₁)) h₁)
theorem keeps_useCurrent {k} (hs : s₀.Keeps s) : s₀.Keeps (useCurrent s k) :=
  keeps_fsets (keeps_sprMod (keeps_openWatch hs))
theorem keeps_substNow {k} (hs : s₀.Keeps s) : s₀.Keeps (substNow s k) := keeps_ite (keeps_fset hs) hs
theorem keeps_sprEvtEff {w} (hs : s₀.Keeps s) : s₀.Keeps (sprEvtEff w s).2 := by
  unfold sprEvtEff
  extract_lets f₁ s₁
  have hf₁ {u x₁ x₂} (hu : s₀.Keeps u) : s₀.Keeps (f₁ u x₁ x₂) := keeps_ite (keeps_fset hu) hu
  have h₁ : s₀.Keeps s₁ := hf₁ (hf₁ (hf₁ (hf₁ (hf₁ (hf₁ (hf₁ hs))))))
  exact keeps_snd (keeps_ite (keeps_srcRelease (keeps_sprOff (keeps_fset h₁))) h₁)
theorem keeps_execSprTripClear {m w} (hs : s₀.Keeps s) : s₀.KeepsIn (execSprTripClear m w s) :=
  keepsIn_next (keeps_rowWrite keeps_sprEvtEff hs)
theorem keeps_phfailEff {w} (hs : s₀.Keeps s) : s₀.Keeps (phfailEff w s).2 :=
  keeps_snd (keeps_syncPlim (keeps_fset (keeps_syncShed (keeps_sprMod (keeps_fset (keeps_fset hs))))))
theorem keeps_execSprPhfailClear {m w} (hs : s₀.Keeps s) : s₀.KeepsIn (execSprPhfailClear m w s) :=
  keepsIn_next (keeps_rowWrite keeps_phfailEff hs)
theorem keeps_stepVref (hs : s₀.Keeps s) : s₀.Keeps (stepVref s) := keeps_ite hs (keeps_sprMod hs)
theorem keeps_voltageLoop (hs : s₀.Keeps s) : s₀.Keeps (voltageLoop s) := by
  unfold voltageLoop
  extract_lets _ _ s₁ _ _ _ _ _ _ _ _ _ _ s₂
  have h₁ : s₀.Keeps s₁ := keeps_sprMod hs
  have h₂ : s₀.Keeps s₂ := keeps_ite h₁ (keeps_sprMod h₁)
  exact keeps_ite (keeps_fsets (keeps_sprMod h₂)) (keeps_ite (keeps_fsets (keeps_sprMod h₁)) h₁)
theorem keeps_currentLoop {k} (hs : s₀.Keeps s) : s₀.Keeps (currentLoop s k) := by
  unfold currentLoop
  extract_lets _ _ s₁ _ _ _ _ _ _ _ _ _ _ _ s₂ s₃
  have h₁ : s₀.Keeps s₁ := keeps_ite (keeps_sprMod hs) hs
  have h₂ : s₀.Keeps s₂ := keeps_sprMod h₁
  have h₃ : s₀.Keeps s₃ := keeps_fsets h₂
  exact keeps_ite (keeps_offSet h₃) (keeps_sprRelease h₃)
theorem keeps_phaseIn {k} (hs : s₀.Keeps s) : s₀.Keeps (phaseIn s k) := keeps_fset (keeps_sprMod (keeps_putActive hs))
theorem keeps_forcedSheds (hs : s₀.Keeps s) : s₀.Keeps (forcedSheds s) := by
  unfold forcedSheds
  refine keeps_foldl (fun hu => ?_) hs
  split
  · exact hu
  · exact keeps_ite hu (keeps_ite (keeps_phaseOut hu) (keeps_ite (keeps_syncShed (keeps_sprMod hu)) hu))
theorem keeps_endSheds (hs : s₀.Keeps s) : s₀.Keeps (endSheds s) := by
  unfold endSheds
  extract_lets s₁ s₂
  have h₁ : s₀.Keeps s₁ := keeps_foldl keeps_sprMod hs
  have h₂ : s₀.Keeps s₂ := keeps_sprMod h₁
  refine keeps_foldl (fun hu => ?_) (keeps_syncShed h₂)
  split
  · exact keeps_ite (keeps_fset (keeps_phaseOut hu)) hu
  · exact hu
theorem keeps_abortSheds {failed} (hs : s₀.Keeps s) : s₀.Keeps (abortSheds s failed) :=
  keeps_ite hs (keeps_fset (keeps_sprMod (keeps_fset (keeps_satAdd hs))))
theorem keeps_holdStep (hs : s₀.Keeps s) : s₀.Keeps (holdStep s) := keeps_ite hs (keeps_fset (keeps_sprMod hs))
theorem keeps_shedAdd (hs : s₀.Keeps s) : s₀.Keeps (shedAdd s) := by
  unfold shedAdd
  extract_lets _ _ s₁ s₂
  have h₁ : s₀.Keeps s₁ := keeps_foldl keeps_phaseIn hs
  have h₂ : s₀.Keeps s₂ := by
    refine keeps_ite ?_ h₁
    split
    · exact keeps_phaseIn h₁
    · unfold s₁
      exact keeps_foldl keeps_phaseIn hs
  refine keeps_ite (keeps_sprMod h₂) (keeps_ite (keeps_sprMod h₂) (keeps_ite (keeps_sprMod h₂) ?_))
  split
  · exact keeps_syncShed (keeps_sprMod h₂)
  · exact h₂
theorem keeps_skipStep (hs : s₀.Keeps s) : s₀.Keeps (skipStep s) := by
  unfold skipStep
  extract_lets _ _ _ s₁
  have h₁ : s₀.Keeps s₁ := keeps_sprMod hs
  exact keeps_ite (keeps_ite (keeps_fset (keeps_sprMod h₁)) h₁)
    (keeps_ite (keeps_fset (keeps_satAdd (keeps_sprMod h₁))) h₁)
theorem keeps_settleStep (hs : s₀.Keeps s) : s₀.Keeps (settleStep s) :=
  keeps_ite hs (keeps_ite (keeps_ite (keeps_sprMod hs) (keeps_fsets hs)) (keeps_sprMod hs))
theorem keeps_stopStep {ran} (hs : s₀.Keeps s) : s₀.Keeps (stopStep s ran) := by
  unfold stopStep
  refine keeps_ite hs ?_
  extract_lets _ s₁
  have h₁ : s₀.Keeps s₁ := keeps_foldl keeps_sprMod hs
  exact keeps_ite (keeps_sprOff h₁) h₁
theorem keeps_measureStep (hs : s₀.Keeps s) : s₀.Keeps (measureStep s) := by
  unfold measureStep
  extract_lets _ s₁ _ _ _ s₂
  have h₁ : s₀.Keeps s₁ := keeps_sprMod hs
  have h₂ : s₀.Keeps s₂ := keeps_sprMod h₁
  exact keeps_ite h₁ (keeps_ite (keeps_sprTrip h₂) (keeps_ite (keeps_sprTrip h₂) h₂))
theorem keeps_phaseWork {ran} (hs : s₀.Keeps s) : s₀.Keeps (phaseWork s ran) :=
  keeps_foldl keeps_substNow (keeps_foldl keeps_openJudge (keeps_foldl keeps_useCurrent (keeps_sprMod hs)))
theorem keeps_loopWork {failed} (hs : s₀.Keeps s) : s₀.Keeps (loopWork s failed) := by
  unfold loopWork
  extract_lets s₁ _ s₂
  have h₁ : s₀.Keeps s₁ := keeps_skipStep (keeps_voltageLoop
    (keeps_stepVref (keeps_endSheds (keeps_forcedSheds (keeps_holdStep hs)))))
  have h₂ : s₀.Keeps s₂ := keeps_abortSheds (keeps_foldl keeps_currentLoop h₁)
  exact keeps_stopStep (keeps_settleStep (keeps_ite h₂ (keeps_shedAdd h₂)))
theorem keeps_sprComputeTick (hs : s₀.Keeps s) : s₀.Keeps (sprComputeTick s) := by
  unfold sprComputeTick
  extract_lets _ s₁ s₂ s₃ _ s₄
  have h₁ : s₀.Keeps s₁ := keeps_ite (keeps_enterSteep hs) hs
  have h₂ : s₀.Keeps s₂ := keeps_runTests (keeps_takeResults h₁)
  have h₃ : s₀.Keeps s₃ := keeps_foldl (fun hu => keeps_ite (keeps_senseFail hu) hu) h₂
  have h₄ : s₀.Keeps s₄ := keeps_ite h₃ (keeps_phaseWork h₃)
  refine keeps_syncPlim (keeps_ite h₄ ?_)
  split
  · exact keeps_sprTrip h₄
  · exact keeps_ite (keeps_measureStep h₄) (keeps_loopWork h₄)
theorem keeps_takeTick {e} (hs : s₀.Keeps s) : s₀.Keeps (takeTick s e) := keeps_sprMod hs
theorem keeps_execSprCompute {t} (hs : s₀.Keeps s) : s₀.KeepsIn (execSprCompute t s) := by
  unfold execSprCompute
  extract_lets s₁
  have h₁ : s₀.Keeps s₁ := keeps_at hs
  refine keepsIn_next ?_
  split
  · refine keeps_ite ?_ h₁
    extract_lets s₂ s₃
    have h₂ : s₀.Keeps s₂ := keeps_takeTick h₁
    have h₃ : s₀.Keeps s₃ := keeps_sprComputeTick h₂
    exact keeps_ite h₂ (keeps_ite h₃ (keeps_nextTest (keeps_rotate h₃)))
  · exact h₁
theorem keeps_sprCfgEff {m w} (hs : s₀.Keeps s) : s₀.Keeps (sprCfgEff m w s).2 :=
  keeps_sprGuard (fun hu => keeps_syncPlim (keeps_fsets hu)) hs
theorem keeps_sprSelEff {m F w} (hs : s₀.Keeps s) : s₀.Keeps (sprSelEff m F w s).2 :=
  keeps_sprGuard (fun hu => keeps_foldl keeps_fset hu) hs
theorem keeps_sprTimeEff {m w} (hs : s₀.Keeps s) : s₀.Keeps (sprTimeEff m w s).2 := keeps_sprGuard keeps_fsets hs
theorem keeps_sprShedcfgEff {m w} (hs : s₀.Keeps s) : s₀.Keeps (sprShedcfgEff m w s).2 :=
  keeps_sprGuard keeps_fsets hs
theorem keeps_sprSenseEff {m w} (hs : s₀.Keeps s) : s₀.Keeps (sprSenseEff m w s).2 := keeps_sprGuard keeps_fset hs
theorem keeps_sprSensedvEff {m w} (hs : s₀.Keeps s) : s₀.Keeps (sprSensedvEff m w s).2 := keeps_sprGuard keeps_fset hs
theorem keeps_sprPffEff {m w} (hs : s₀.Keeps s) : s₀.Keeps (sprPffEff m w s).2 :=
  keeps_sprGuard (fun hu => keeps_fset (keeps_sprMod (keeps_ite_snd (keeps_drawBetween hu) (keeps_snd hu)))) hs

/-! ### The functions of `CellFw` -/

theorem keeps_markLate {sid cyc} (hs : s₀.Keeps s) : s₀.Keeps (markLate s sid cyc) := by
  unfold markLate
  extract_lets _ s₁
  have h₁ : s₀.Keeps s₁ := keeps_satAdd (keeps_rec hs)
  exact keeps_ite (keeps_sysSlot (keeps_fset h₁)) h₁
theorem keeps_execCmdFrame {t l fr} (hs : s₀.Keeps s) : s₀.KeepsIn (execCmdFrame t l fr s) := by
  unfold execCmdFrame
  split
  rename_i s₁ e₁
  have h₁ : s₀.Keeps s₁ := keeps_of_snd (keeps_rxCheck (keeps_at hs)) e₁
  refine keepsIn_next ?_
  split
  · exact keeps_ite h₁ (keeps_ite (keeps_satAdd h₁)
      (keeps_ite (keeps_satAdd h₁) (keeps_ite (keeps_markLate (keeps_learnHolder h₁))
      (keeps_rec (keeps_learnHolder h₁)))))
  · exact h₁
theorem keeps_zeroOutput (hs : s₀.Keeps s) : s₀.Keeps (zeroOutput s) := by
  unfold zeroOutput
  extract_lets _ s₁
  have h₁ : s₀.Keeps s₁ := keeps_rec hs
  exact keeps_ite h₁ (keeps_foldl (fun hu => keeps_fwReg keeps_pwmCtlEff
    (keeps_fwReg keeps_stagedEff (keeps_fwReg keeps_stagedEff hu))) h₁)
theorem keeps_switchesOff (hs : s₀.Keeps s) : s₀.Keeps (switchesOff s) :=
  keeps_foldl (fun hu => keeps_ite (keeps_fwReg (fun hv => keeps_snd (keeps_pwmHalt (keeps_fset hv))) hu) hu) hs
theorem keeps_pairsEnable {ps align on} (hs : s₀.Keeps s) : s₀.Keeps (pairsEnable s ps align on) :=
  keeps_ite hs (keeps_foldl (fun hu => keeps_ite hu (keeps_fwReg keeps_pwmCfgEff hu)) hs)
theorem keeps_bridgeEnable {on} (hs : s₀.Keeps s) : s₀.Keeps (bridgeEnable s on) := keeps_pairsEnable hs
theorem keeps_dabEnable (hs : s₀.Keeps s) : s₀.Keeps (dabEnable s) := keeps_pairsEnable hs
theorem keeps_poSet {n b} (hs : s₀.Keeps s) : s₀.Keeps (poSet s n b) := keeps_rec hs
theorem keeps_leaseOk {l epoch} (hs : s₀.Keeps s) : s₀.Keeps (leaseOk s l epoch).2 :=
  keeps_ite_snd (keeps_snd (keeps_fset (keeps_rec hs))) (keeps_snd hs)
theorem keeps_cellBypass (hs : s₀.Keeps s) : s₀.Keeps (cellBypass s).2 :=
  keeps_ite_snd (keeps_snd (keeps_bypassPulse (keeps_zeroOutput hs)))
    (keeps_ite_snd (keeps_snd (keeps_bypassPulse hs)) (keeps_snd hs))
theorem keeps_clearFaults (hs : s₀.Keeps s) : s₀.Keeps (clearFaults s) :=
  keeps_ite hs (keeps_fwReg keeps_srcstatEff
    (keeps_fwReg keeps_srcstatEff (keeps_foldl (fun hu => keeps_fwReg keeps_gstatEff hu) hs)))
theorem keeps_cellRejoin (hs : s₀.Keeps s) : s₀.Keeps (cellRejoin s).2 := by
  unfold cellRejoin
  refine keeps_ite_snd (keeps_snd hs) ?_
  extract_lets s₁
  have h₁ : s₀.Keeps s₁ := keeps_clearFaults hs
  exact keeps_ite_snd (keeps_snd h₁) (keeps_snd (keeps_rec h₁))
theorem keeps_leaseOnly {l epoch act} (hact : ∀ {u}, s₀.Keeps u → s₀.Keeps (act u).2) (hs : s₀.Keeps s) :
    s₀.Keeps (leaseOnly s l epoch act) := by
  unfold leaseOnly
  split
  rename_i s₁ e₁
  have h₁ : s₀.Keeps s₁ := keeps_of_snd (keeps_leaseOk hs) e₁
  exact keeps_rec (keeps_ite_snd (hact h₁) (keeps_snd h₁))
theorem keeps_execCellBypassCommand {t l epoch} (hs : s₀.Keeps s) :
    s₀.KeepsIn (execCellBypassCommand t l epoch s) := by
  unfold execCellBypassCommand
  extract_lets s₁
  have h₁ : s₀.Keeps s₁ := keeps_at hs
  exact keepsIn_next (keeps_ite h₁ (keeps_leaseOnly keeps_cellBypass h₁))
theorem keeps_execCellRejoinCommand {t l epoch} (hs : s₀.Keeps s) :
    s₀.KeepsIn (execCellRejoinCommand t l epoch s) := by
  unfold execCellRejoinCommand
  extract_lets s₁
  have h₁ : s₀.Keeps s₁ := keeps_at hs
  exact keepsIn_next (keeps_ite h₁ (keeps_leaseOnly keeps_cellRejoin h₁))
theorem keeps_cfgAccepted (hs : s₀.Keeps s) : s₀.Keeps (cfgAccepted s) := by
  unfold cfgAccepted
  extract_lets _ s₁ _ s₂
  have h₁ : s₀.Keeps s₁ := keeps_rec hs
  have h₂ : s₀.Keeps s₂ := keeps_pulseEnd (keeps_rec h₁)
  exact keeps_ite (keeps_syncStateSafe (keeps_ite h₂ (keeps_setDev h₂))) (keeps_tryReady h₁)
theorem keeps_safeStop (hs : s₀.Keeps s) : s₀.Keeps (safeStop s) := by
  unfold safeStop
  refine keeps_ite hs ?_
  extract_lets _ s₁
  have h₁ : s₀.Keeps s₁ := keeps_rec hs
  exact keeps_ite (keeps_fwReg keeps_sprCtlEff h₁) h₁
theorem keeps_execBypassConfirm {t} (hs : s₀.Keeps s) : s₀.KeepsIn (execBypassConfirm t s) := by
  unfold execBypassConfirm
  extract_lets s₁ s₂ _ s₃ _ s₄ _ _ s₅
  have h₁ : s₀.Keeps s₁ := keeps_at hs
  have h₂ : s₀.Keeps s₂ := keeps_safeStop (keeps_pulseEnd h₁)
  have h₃ : s₀.Keeps s₃ := keeps_rec h₂
  have h₄ : s₀.Keeps s₄ := keeps_rec h₃
  have h₅ : s₀.Keeps s₅ := keeps_causedDev (keeps_switchesOff h₄)
  exact keepsIn_next (keeps_ite h₁ (keeps_ite h₄ (keeps_syncStateSafe (keeps_rec h₅))))
theorem keeps_execBypassConfirmTimeout {t} (hs : s₀.Keeps s) : s₀.KeepsIn (execBypassConfirmTimeout t s) := by
  unfold execBypassConfirmTimeout
  extract_lets s₁ s₂
  have h₁ : s₀.Keeps s₁ := keeps_at hs
  have h₂ : s₀.Keeps s₂ := keeps_pulseEnd h₁
  exact keepsIn_next (keeps_ite h₁ (keeps_ite (keeps_syncStateSafe (keeps_setCause h₂)) (keeps_enterSafe h₂)))
theorem keeps_execRejoinOpenConfirm {t} (hs : s₀.Keeps s) : s₀.KeepsIn (execRejoinOpenConfirm t s) := by
  unfold execRejoinOpenConfirm
  extract_lets s₁ s₂ _ _ s₃
  have h₁ : s₀.Keeps s₁ := keeps_at hs
  have h₂ : s₀.Keeps s₂ := keeps_pulseEnd h₁
  have h₃ : s₀.Keeps s₃ := keeps_rec h₂
  exact keepsIn_next (keeps_ite h₁ (keeps_ite (keeps_setDev h₃) h₃))
theorem keeps_steepStart (hs : s₀.Keeps s) : s₀.Keeps (steepStart s) := by
  unfold steepStart
  extract_lets _ s₁
  have h₁ : s₀.Keeps s₁ := keeps_rec hs
  exact keeps_ite (keeps_fwReg keeps_sprCtlEff h₁) h₁
theorem keeps_startPrecharge (hs : s₀.Keeps s) : s₀.Keeps (startPrecharge s) :=
  keeps_ite hs (keeps_ite (keeps_steepStart hs) (keeps_poSet (keeps_rec hs)))
theorem keeps_execPrechargeContactorStep {t} (hs : s₀.Keeps s) : s₀.KeepsIn (execPrechargeContactorStep t s) := by
  unfold execPrechargeContactorStep
  extract_lets s₁
  have h₁ : s₀.Keeps s₁ := keeps_at hs
  exact keepsIn_next (keeps_ite h₁ (keeps_ite (keeps_poSet (keeps_rec h₁))
    (keeps_ite (keeps_poSet (keeps_rec h₁)) (keeps_ite (keeps_steepStart (keeps_rec h₁)) h₁))))
theorem keeps_execPrechargeComplete {t} (hs : s₀.Keeps s) : s₀.KeepsIn (execPrechargeComplete t s) := by
  unfold execPrechargeComplete
  extract_lets s₁
  have h₁ : s₀.Keeps s₁ := keeps_at hs
  exact keepsIn_next (keeps_ite (keeps_setDev (keeps_rec h₁)) h₁)
theorem keeps_slotWords (hs : s₀.Keeps s) : s₀.Keeps (slotWords s) := by
  unfold slotWords
  refine keeps_ite ?_ (keeps_ite (keeps_rec hs) (keeps_rec hs))
  extract_lets _ s₁
  have h₁ : s₀.Keeps s₁ := keeps_rec hs
  exact keeps_ite (keeps_sysSlot h₁) h₁
theorem keeps_placeCarrier {k n car} (hs : s₀.Keeps s) : s₀.Keeps (placeCarrier s k n car) := by
  unfold placeCarrier
  refine keeps_ite hs ?_
  extract_lets _ _ s₁
  have h₁ : s₀.Keeps s₁ := by
    refine keeps_foldl (fun hu => ?_) hs
    extract_lets s₂ s₃
    have h₂ : s₀.Keeps s₂ := keeps_fwReg keeps_stagedEff hu
    have h₃ : s₀.Keeps s₃ := keeps_fwReg keeps_stagedEff h₂
    exact keeps_ite (keeps_fwReg keeps_releaseSet h₃) (keeps_ite h₃ (keeps_fwReg keeps_pwmCfgEff h₃))
  refine keeps_foldl (fun hu => keeps_ite ?_ hu) h₁
  split
  rename_i s₄ e₄
  have h₄ : s₀.Keeps s₄ := keeps_of_snd (keeps_reload hu) e₄
  exact keeps_pwmEdges (keeps_ite (keeps_phaseCorrect h₄) h₄)
theorem keeps_adoptSlot (hs : s₀.Keeps s) : s₀.Keeps (adoptSlot s) :=
  keeps_placeCarrier (keeps_sysSlot (keeps_sysSlot (keeps_rec hs)))
theorem keeps_execSlotAdopt {t} (hs : s₀.Keeps s) : s₀.KeepsIn (execSlotAdopt t s) := by
  unfold execSlotAdopt
  extract_lets s₁
  have h₁ : s₀.Keeps s₁ := keeps_at hs
  exact keepsIn_next (keeps_ite h₁ (keeps_adoptSlot h₁))
theorem keeps_obeyCtl (hs : s₀.Keeps s) : s₀.Keeps (obeyCtl s) := by
  unfold obeyCtl
  extract_lets _ _ s₁ s₂ s₃
  have h₁ : s₀.Keeps s₁ := keeps_slotWords hs
  have h₂ : s₀.Keeps s₂ := keeps_bridgeEnable h₁
  have h₃ : s₀.Keeps s₃ := keeps_zeroOutput h₂
  exact keeps_ite (keeps_startPrecharge h₁)
    (keeps_ite (keeps_ite (keeps_ite h₂ (keeps_bypassPulse (keeps_rec h₃)))
    (keeps_ite h₂ (keeps_setDev (keeps_rec h₂)))) (keeps_ite (keeps_setDev (keeps_bridgeEnable h₁)) h₁))
theorem keeps_coast (hs : s₀.Keeps s) : s₀.Keeps (coast s) :=
  keeps_ite (keeps_ite (keeps_setDev hs) hs)
    (keeps_ite (keeps_enterSafe hs) (keeps_ite (keeps_causedDev hs) (keeps_ite (keeps_enterSafe hs) hs)))
theorem keeps_execVoteInstant {t} (hs : s₀.Keeps s) : s₀.KeepsIn (execVoteInstant t s) := by
  unfold execVoteInstant
  extract_lets s₁
  have h₁ : s₀.Keeps s₁ := keeps_at hs
  refine keepsIn_next (keeps_ite h₁ ?_)
  split
  rename_i s₂ e₂
  have h₂ : s₀.Keeps s₂ := keeps_of_snd (keeps_drawBetween h₁) e₂
  extract_lets _ _ _ _ _ s₃ _ s₄ _ _ _ _ _ _ s₅ s₆ s₇ s₈ s₉
  have h₃ : s₀.Keeps s₃ := keeps_foldl keeps_satAdd h₂
  have h₄ : s₀.Keeps s₄ := keeps_ite h₃ (keeps_satAdd h₃)
  have h₅ : s₀.Keeps s₅ := keeps_rec h₄
  have h₆ : s₀.Keeps s₆ := keeps_fset h₅
  have h₇ : s₀.Keeps s₇ := keeps_ite (keeps_foldl keeps_fset h₆) h₆
  have h₈ : s₀.Keeps s₈ := keeps_sysSlot h₇
  have h₉ : s₀.Keeps s₉ := keeps_coast (keeps_ite (keeps_sysSlot h₈) h₈)
  exact keeps_ite (keeps_obeyCtl h₉) h₉
theorem keeps_execCellEpochClear {t} (hs : s₀.Keeps s) : s₀.KeepsIn (execCellEpochClear t s) := by
  unfold execCellEpochClear
  extract_lets s₁
  have h₁ : s₀.Keeps s₁ := keeps_at hs
  exact keepsIn_next (keeps_ite h₁ (keeps_fset (keeps_rec h₁)))
theorem keeps_phasePoint (hs : s₀.Keeps s) : s₀.Keeps (phasePoint s) := keeps_sysSlot hs
theorem keeps_writeCaps (hs : s₀.Keeps s) : s₀.Keeps (writeCaps s) :=
  keeps_sysSlot (keeps_sysSlot (keeps_phasePoint hs))
theorem keeps_drawWords {n} (hs : s₀.Keeps s) : s₀.Keeps (drawWords s n).2 := by
  induction n generalizing s with
  | zero => exact hs
  | succ n ih => exact ih (keeps_drawFree hs)
theorem keeps_linkRaise (hs : s₀.Keeps s) : s₀.Keeps (linkRaise s) := keeps_ite (keeps_dabEnable hs) hs
theorem keeps_execCellCycle {t x} (hs : s₀.Keeps s) : s₀.KeepsIn (execCellCycle t x s) := by
  unfold execCellCycle
  extract_lets s₁ _ _ _ s₂ s₃ _ s₄ s₅
  have h₁ : s₀.Keeps s₁ := keeps_at hs
  have h₂ : s₀.Keeps s₂ := keeps_rec h₁
  have h₃ : s₀.Keeps s₃ := keeps_linkRaise (keeps_safeStop h₂)
  have h₄ : s₀.Keeps s₄ := keeps_foldl keeps_sysSlot h₃
  have h₅ : s₀.Keeps s₅ := keeps_foldl keeps_sysSlot h₄
  refine keepsIn_next (keeps_ite h₁ (keeps_ite (keeps_writeCaps (keeps_sysSlot h₅)) ?_))
  split
  rename_i s₆ e₆
  have h₆ : s₀.Keeps s₆ := keeps_of_snd (keeps_drawWords h₅) e₆
  exact keeps_foldl keeps_sysSlot (keeps_phasePoint h₆)
theorem keeps_execSocOcvReset {t} (hs : s₀.Keeps s) : s₀.KeepsIn (execSocOcvReset t s) := by
  unfold execSocOcvReset
  extract_lets s₁
  have h₁ : s₀.Keeps s₁ := keeps_at hs
  refine keepsIn_next ?_
  split
  · exact keeps_ite h₁ (keeps_rec h₁)
  · exact h₁
theorem keeps_execCapUpdateOnPlim {t} (hs : s₀.Keeps s) : s₀.KeepsIn (execCapUpdateOnPlim t s) := by
  unfold execCapUpdateOnPlim
  extract_lets s₁
  have h₁ : s₀.Keeps s₁ := keeps_at hs
  exact keepsIn_next (keeps_ite h₁ (keeps_writeCaps h₁))

/-! ### The functions of `Lanes` -/

theorem keeps_lnkGuard {m l st eff} (heff : ∀ {u}, s₀.Keeps u → s₀.Keeps (eff u)) (hs : s₀.Keeps s) :
    s₀.Keeps (lnkGuard m l st eff s).2 :=
  keeps_ite_snd (keeps_snd (heff hs)) (keeps_snd (keeps_lnkErr hs))
theorem keeps_laneStart {l} (hs : s₀.Keeps s) : s₀.Keeps (laneStart s l) :=
  keeps_ite hs (keeps_ite (keeps_enterDetect hs) (keeps_laneTo hs))
theorem keeps_laneStop {l} (hs : s₀.Keeps s) : s₀.Keeps (laneStop s l) :=
  keeps_linkStatus (keeps_fsets (keeps_laneTo (keeps_laneQuiet hs)))
theorem keeps_lnkCfgEff {m l w} (hs : s₀.Keeps s) : s₀.Keeps (lnkCfgEff m l w s).2 := by
  unfold lnkCfgEff
  refine keeps_lnkGuard (fun hu => ?_) hs
  extract_lets s₁
  have h₁ : s₀.Keeps s₁ := keeps_fsets hu
  exact keeps_ite (keeps_laneStart h₁) (keeps_ite (keeps_laneStop h₁) h₁)
theorem keeps_execLaneEnable {m w} (hs : s₀.Keeps s) : s₀.KeepsIn (execLaneEnable m w s) :=
  keepsIn_next (keeps_rowWrite keeps_lnkCfgEff hs)
theorem keeps_lnkCtlEff {l w} (hs : s₀.Keeps s) : s₀.Keeps (lnkCtlEff l w s).2 :=
  keeps_ite_snd (keeps_snd hs) (keeps_ite_snd (keeps_snd (keeps_laneLoss hs)) (keeps_snd (keeps_enterTrain hs)))
theorem keeps_execLaneRetrain {m w} (hs : s₀.Keeps s) : s₀.KeepsIn (execLaneRetrain m w s) :=
  keepsIn_next (keeps_rowWrite keeps_lnkCtlEff hs)
theorem keeps_lnkTestEff {m l w} (hs : s₀.Keeps s) : s₀.Keeps (lnkTestEff m l w s).2 := keeps_lnkGuard keeps_fsets hs
theorem keeps_execLaneSignalDetect {t l} (hs : s₀.Keeps s) : s₀.KeepsIn (execLaneSignalDetect t l s) := by
  unfold execLaneSignalDetect
  extract_lets s₁ s₂
  have h₁ : s₀.Keeps s₁ := keeps_at hs
  have h₂ : s₀.Keeps s₂ := keeps_fset h₁
  exact keepsIn_next (keeps_ite h₁ (keeps_ite (keeps_enterTrain h₂) h₂))
theorem keeps_execLaneSignalLoss {t l} (hs : s₀.Keeps s) : s₀.KeepsIn (execLaneSignalLoss t l s) := by
  unfold execLaneSignalLoss
  extract_lets s₁
  have h₁ : s₀.Keeps s₁ := keeps_at hs
  exact keepsIn_next (keeps_ite h₁ (keeps_fset h₁))
theorem keeps_execLaneTrainDone {t l} (hs : s₀.Keeps s) : s₀.KeepsIn (execLaneTrainDone t l s) := by
  unfold execLaneTrainDone
  extract_lets s₁
  have h₁ : s₀.Keeps s₁ := keeps_at hs
  exact keepsIn_next (keeps_ite h₁ (keeps_laneTo (keeps_fset h₁)))
theorem keeps_execLaneLockDone {t l} (hs : s₀.Keeps s) : s₀.KeepsIn (execLaneLockDone t l s) := by
  unfold execLaneLockDone
  extract_lets s₁ s₂
  have h₁ : s₀.Keeps s₁ := keeps_at hs
  have h₂ : s₀.Keeps s₂ := keeps_leaveLock h₁
  exact keepsIn_next (keeps_ite h₁ (keeps_ite (keeps_linkStatus h₂) h₂))
theorem keeps_execLaneCodeError {t l} (hs : s₀.Keeps s) : s₀.KeepsIn (execLaneCodeError t l s) := by
  unfold execLaneCodeError
  extract_lets s₁
  have h₁ : s₀.Keeps s₁ := keeps_at hs
  exact keepsIn_next (keeps_ite h₁ (keeps_ite (keeps_lnMod h₁) (keeps_lnMod h₁)))
theorem keeps_execLaneBlockLockLoss {t l} (hs : s₀.Keeps s) : s₀.KeepsIn (execLaneBlockLockLoss t l s) := by
  unfold execLaneBlockLockLoss
  extract_lets s₁
  have h₁ : s₀.Keeps s₁ := keeps_at hs
  exact keepsIn_next (keeps_ite (keeps_laneLoss h₁) (keeps_ite (keeps_enterTrain h₁) (keeps_fset h₁)))
theorem keeps_execLaneFrameSilence {t l} (hs : s₀.Keeps s) : s₀.KeepsIn (execLaneFrameSilence t l s) := by
  unfold execLaneFrameSilence
  extract_lets s₁
  have h₁ : s₀.Keeps s₁ := keeps_at hs
  exact keepsIn_next (keeps_ite (keeps_laneLoss h₁) h₁)
theorem keeps_execPrbsCheckerSync {t l sync errs} (hs : s₀.Keeps s) :
    s₀.KeepsIn (execPrbsCheckerSync t l sync errs s) := by
  unfold execPrbsCheckerSync
  extract_lets s₁
  have h₁ : s₀.Keeps s₁ := keeps_at hs
  exact keepsIn_next (keeps_ite (keeps_satAdd (keeps_fset h₁)) h₁)
theorem keeps_tryJoin (hs : s₀.Keeps s) : s₀.Keeps (tryJoin s) := keeps_ite (keeps_setDev hs) hs
theorem keeps_retrainNext (hs : s₀.Keeps s) : s₀.Keeps (retrainNext s) := by
  unfold retrainNext
  extract_lets y _ s₁
  have h₁ : s₀.Keeps s₁ := keeps_rec hs
  clear_value y
  split
  · exact keeps_ite (keeps_laneLoss h₁) (keeps_enterTrain h₁)
  · exact h₁
theorem keeps_retrainPorts {ls} (hs : s₀.Keeps s) : s₀.Keeps (retrainPorts s ls) := keeps_retrainNext (keeps_rec hs)
theorem keeps_retrainPass {l} (hs : s₀.Keeps s) : s₀.Keeps (retrainPass s l) := by
  unfold retrainPass
  split
  · exact keeps_ite (keeps_tryReady (keeps_tryJoin (keeps_retrainNext (keeps_rec hs)))) hs
  · exact hs
theorem keeps_execLaneStateTimeout {t l} (hs : s₀.Keeps s) : s₀.KeepsIn (execLaneStateTimeout t l s) := by
  unfold execLaneStateTimeout
  extract_lets s₁ _ s₂
  have h₁ : s₀.Keeps s₁ := keeps_at hs
  have h₂ : s₀.Keeps s₂ := keeps_satAdd h₁
  refine keepsIn_next ?_
  split
  · exact keeps_ite (keeps_retrainPass (keeps_enterDetect h₂)) h₁
  · exact keeps_ite (keeps_retrainPass (keeps_enterTrain h₂)) h₁
  · exact keeps_ite (keeps_retrainPass (keeps_enterTrain h₂)) h₁
  · exact h₁
theorem keeps_enterActive {l} (hs : s₀.Keeps s) : s₀.Keeps (enterActive s l) := by
  unfold enterActive
  extract_lets s₁ s₂
  have h₁ : s₀.Keeps s₁ := keeps_laneTo hs
  have h₂ : s₀.Keeps s₂ := keeps_ite (keeps_releaseDown (keeps_fsets h₁)) h₁
  exact keeps_tryReady (keeps_tryJoin (keeps_retrainPass (keeps_linkStatus h₂)))
theorem keeps_capsDone {l} (hs : s₀.Keeps s) : s₀.Keeps (capsDone s l) := keeps_ite (keeps_enterActive hs) hs
theorem keeps_execCapsSend {t l} (hs : s₀.Keeps s) : s₀.KeepsIn (execCapsSend t l s) := by
  unfold execCapsSend
  extract_lets s₁ _ _ _ _ _ s₂
  have h₁ : s₀.Keeps s₁ := keeps_at hs
  have h₂ : s₀.Keeps s₂ := keeps_lnMod h₁
  exact keepsIn_next (keeps_ite h₁ (keeps_capsDone h₂))
theorem keeps_capsRx {l fr} (hs : s₀.Keeps s) : s₀.Keeps (capsRx s l fr) := by
  unfold capsRx
  split
  rename_i s₁ e₁
  have h₁ : s₀.Keeps s₁ := keeps_of_snd (keeps_rxCheck hs) e₁
  split
  · refine keeps_ite h₁ (keeps_ite (keeps_laneLoss h₁) ?_)
    extract_lets s₂ _ _ s₃ _ s₄ s₅
    have h₂ : s₀.Keeps s₂ := keeps_fsets h₁
    have h₃ : s₀.Keeps s₃ := keeps_ite (keeps_fset h₂) h₂
    have h₄ : s₀.Keeps s₄ := keeps_ite (keeps_satAdd h₃) h₃
    have h₅ : s₀.Keeps s₅ := keeps_lnMod h₄
    exact keeps_capsDone h₅
  · exact h₁
theorem keeps_relayStart {out g inAt bad} (hs : s₀.Keeps s) : s₀.Keeps (relayStart s out g inAt bad) :=
  keeps_fsets (keeps_lnMod hs)
theorem keeps_execLaneTxReady {t l} (hs : s₀.Keeps s) : s₀.KeepsIn (execLaneTxReady t l s) := by
  unfold execLaneTxReady
  extract_lets s₁
  have h₁ : s₀.Keeps s₁ := keeps_capSettle (keeps_at hs)
  refine keepsIn_next (keeps_ite h₁ ?_)
  split
  · exact h₁
  · extract_lets s₂
    have h₂ : s₀.Keeps s₂ := keeps_lnMod h₁
    split
    · exact keeps_relayStart (keeps_lnMod h₂)
    · exact keeps_ite (keeps_lnMod h₂) (keeps_lnMod h₂)
theorem keeps_execIdleTimer {t l} (hs : s₀.Keeps s) : s₀.KeepsIn (execIdleTimer t l s) := by
  unfold execIdleTimer
  extract_lets s₁
  have h₁ : s₀.Keeps s₁ := keeps_at hs
  exact keepsIn_next (keeps_ite (keeps_sendOn h₁) h₁)
theorem keeps_idleRx {l rx fr} (hs : s₀.Keeps s) : s₀.Keeps (idleRx s l rx fr) := by
  unfold idleRx
  split
  rename_i s₁ e₁
  have h₁ : s₀.Keeps s₁ := keeps_of_snd (keeps_rxCheck hs) e₁
  split
  · refine keeps_ite h₁ ?_
    extract_lets _ _ s₂ s₃ _ s₄
    have h₂ : s₀.Keeps s₂ := keeps_lnMod h₁
    have h₃ : s₀.Keeps s₃ := keeps_ite (keeps_sendOn (keeps_lnMod h₂)) h₂
    have h₄ : s₀.Keeps s₄ := by
      unfold s₄
      split
      · exact keeps_ite (keeps_delayTake (keeps_lnMod h₃)) h₃
      · unfold s₃
        exact keeps_ite (keeps_sendOn (keeps_lnMod h₂)) h₂
    exact keeps_linkStatus h₄
  · exact h₁
theorem keeps_abandon {out} (hs : s₀.Keeps s) : s₀.Keeps (abandon s out) := by
  unfold abandon
  split
  · exact keeps_ite (keeps_lnMod hs) hs
  · exact hs
theorem keeps_execFrameRelay {t l fr res} (hs : s₀.Keeps s) : s₀.KeepsIn (execFrameRelay t l fr res s) := by
  unfold execFrameRelay
  extract_lets s₁ _ s₂ s₃ _ _ s₄
  have h₁ : s₀.Keeps s₁ := keeps_at hs
  have h₂ : s₀.Keeps s₂ := keeps_lnMod h₁
  have h₃ : s₀.Keeps s₃ := keeps_ite (keeps_lnMod h₂) h₂
  have h₄ : s₀.Keeps s₄ := keeps_lnMod h₃
  exact keepsIn_next (keeps_ite h₁ (keeps_ite (keeps_satAdd h₃)
    (keeps_ite (keeps_lnMod h₄) (keeps_relayStart (keeps_ite (keeps_abandon h₄) h₄)))))
theorem keeps_relayBad {out} (hs : s₀.Keeps s) : s₀.Keeps (relayBad s out) := keeps_lnMod hs
theorem keeps_execFrameCutShort {t l kind relayed} (hs : s₀.Keeps s) :
    s₀.KeepsIn (execFrameCutShort t l kind relayed s) := by
  unfold execFrameCutShort
  extract_lets s₁ _ _ s₂
  have h₁ : s₀.Keeps s₁ := keeps_at hs
  have h₂ : s₀.Keeps s₂ := keeps_satAdd h₁
  exact keepsIn_next (keeps_ite h₁ (keeps_ite (keeps_relayBad h₂) h₂))
theorem keeps_routeTrig {l s₁ cause origin tseq} (hs : s₀.Keeps s) : s₀.Keeps (routeTrig s l s₁ cause origin tseq) :=
  keeps_ite hs (keeps_sendTrig hs)
theorem keeps_execTrigFrame {t l fr} (hs : s₀.Keeps s) : s₀.KeepsIn (execTrigFrame t l fr s) := by
  unfold execTrigFrame
  split
  rename_i s₁ e₁
  have h₁ : s₀.Keeps s₁ := keeps_of_snd (keeps_rxCheck (keeps_at hs)) e₁
  refine keepsIn_next ?_
  split
  · exact keeps_ite h₁ (keeps_ite (keeps_rec h₁) (keeps_captureLink (keeps_routeTrig (keeps_rec h₁))))
  · exact h₁
theorem keeps_execXchkFrame {t l fr} (hs : s₀.Keeps s) : s₀.KeepsIn (execXchkFrame t l fr s) := by
  unfold execXchkFrame
  split
  rename_i s₁ e₁
  have h₁ : s₀.Keeps s₁ := keeps_of_snd (keeps_rxCheck (keeps_at hs)) e₁
  refine keepsIn_next ?_
  split
  · exact keeps_ite (keeps_xchkRx h₁) h₁
  · exact h₁

/-! ### The functions of `Kiln` -/

theorem keeps_kilnErr {m st} (hs : s₀.Keeps s) : s₀.Keeps (kilnErr s m st) := keeps_recErr hs
theorem keeps_kilnGuard {m st eff} (heff : ∀ {u}, s₀.Keeps u → s₀.Keeps (eff u)) (hs : s₀.Keeps s) :
    s₀.Keeps (kilnGuard m st eff s).2 :=
  keeps_ite_snd (keeps_snd (heff hs)) (keeps_snd (keeps_kilnErr hs))
theorem keeps_putBroken {n b} (hs : s₀.Keeps s) : s₀.Keeps (putBroken s n b) :=
  keeps_ite (keeps_fset hs) (keeps_fset hs)
theorem keeps_scanSensor {x} (hs : s₀.Keeps s) : s₀.Keeps (scanSensor s x) := by
  unfold scanSensor
  extract_lets _ _ _ _ _ _ _ _ _ _ _ s₁ s₂
  have h₁ : s₀.Keeps s₁ := keeps_rec hs
  have h₂ : s₀.Keeps s₂ := keeps_fsets (keeps_putBroken h₁)
  exact keeps_ite h₁ (keeps_ite (keeps_satAdd h₂) (keeps_fset h₁))
theorem keeps_showBroken (hs : s₀.Keeps s) : s₀.Keeps (showBroken s) :=
  keeps_foldl (fun hu => keeps_ite (keeps_fset hu) hu) hs
theorem keeps_scanGroup {g} (hs : s₀.Keeps s) : s₀.Keeps (scanGroup s g) := by
  unfold scanGroup
  extract_lets
  split
  · exact keeps_fset (keeps_rec hs)
  · exact keeps_fset (keeps_rec hs)
theorem keeps_kilnOutputs (hs : s₀.Keeps s) : s₀.Keeps (kilnOutputs s) := by
  unfold kilnOutputs
  extract_lets _ _ _ _ s₁ s₂ s₃ s₄ s₅
  have h₁ : s₀.Keeps s₁ := keeps_fsets hs
  have h₂ : s₀.Keeps s₂ := keeps_ite (keeps_satAdd h₁) h₁
  have h₃ : s₀.Keeps s₃ := by
    refine keeps_ite h₂ ?_
    split
    rename_i s₆ e₆
    have h₆ : s₀.Keeps s₆ := keeps_of_snd (keeps_drawBetween h₂) e₆
    exact keeps_rec h₆
  have h₄ : s₀.Keeps s₄ := keeps_fsets h₃
  have h₅ : s₀.Keeps s₅ := keeps_srcAssert h₄
  exact keeps_ite (keeps_ite (keeps_stackSafe h₅) (keeps_enterSafe h₅)) (keeps_srcRelease (keeps_fset h₃))
theorem keeps_execKilnScanEnd {t scan} (hs : s₀.Keeps s) : s₀.KeepsIn (execKilnScanEnd t scan s) := by
  unfold execKilnScanEnd
  extract_lets s₁ _ s₂ s₃
  have h₁ : s₀.Keeps s₁ := keeps_at hs
  have h₂ : s₀.Keeps s₂ := keeps_rec h₁
  have h₃ : s₀.Keeps s₃ := keeps_foldl keeps_scanSensor h₂
  exact keepsIn_next (keeps_ite h₁ (keeps_kilnOutputs (keeps_foldl keeps_scanGroup (keeps_showBroken h₃))))
theorem keeps_sbrokenEff {i w} (hs : s₀.Keeps s) : s₀.Keeps (sbrokenEff i w s).2 := by
  unfold sbrokenEff
  refine keeps_snd (keeps_foldl (fun hu => keeps_ite hu (keeps_ite hu ?_)) hs)
  extract_lets _ s₁ s₂
  have h₁ : s₀.Keeps s₁ := keeps_fsets (keeps_putBroken hu)
  have h₂ : s₀.Keeps s₂ := keeps_ite h₁ (keeps_fset h₁)
  exact keeps_rec h₂
theorem keeps_execKilnBrokenClear {m n w} (hs : s₀.Keeps s) : s₀.KeepsIn (execKilnBrokenClear m n w s) :=
  keepsIn_next (keeps_rowWrite keeps_sbrokenEff hs)
theorem keeps_kilnEvtEff {w} (hs : s₀.Keeps s) : s₀.Keeps (kilnEvtEff w s).2 := by
  unfold kilnEvtEff
  extract_lets s₁
  have h₁ : s₀.Keeps s₁ := keeps_ite (keeps_fset hs) hs
  exact keeps_snd (keeps_ite (keeps_fset h₁) h₁)
theorem keeps_kilnGcfgEff {m g w} (hs : s₀.Keeps s) : s₀.Keeps (kilnGcfgEff m g w s).2 :=
  keeps_kilnGuard (fun _ => keeps_fsets hs) hs
theorem keeps_execKilnGroupEnable {m g w} (hs : s₀.Keeps s) : s₀.KeepsIn (execKilnGroupEnable m g w s) :=
  keepsIn_next (keeps_rowWrite keeps_kilnGcfgEff hs)
theorem keeps_gthEff {m g hi lo w} (hs : s₀.Keeps s) : s₀.Keeps (gthEff m g hi lo w s).2 :=
  keeps_kilnGuard keeps_fsets hs
theorem keeps_scfgEff {m n w} (hs : s₀.Keeps s) : s₀.Keeps (scfgEff m n w s).2 := by
  unfold scfgEff
  refine keeps_kilnGuard (fun hu => ?_) hs
  extract_lets s₁
  have h₁ : s₀.Keeps s₁ := keeps_fsets hu
  exact keeps_ite h₁ (keeps_rec h₁)
theorem keeps_sparEff {m n w} (hs : s₀.Keeps s) : s₀.Keeps (sparEff m n w s).2 := keeps_kilnGuard keeps_fsets hs
theorem keeps_kilnCfgEff {m w} (hs : s₀.Keeps s) : s₀.Keeps (kilnCfgEff m w s).2 := keeps_kilnGuard keeps_fsets hs
theorem keeps_compselEff {m w} (hs : s₀.Keeps s) : s₀.Keeps (compselEff m w s).2 := keeps_kilnGuard keeps_fsets hs

/-! ### The functions of `MashBank` -/

theorem keeps_setBankW {b i w} (hs : s₀.Keeps s) : s₀.Keeps (setBankW s b i w) :=
  keeps_ite (keeps_rec hs) (keeps_rec hs)
theorem keeps_bankPut {b off w} (hs : s₀.Keeps s) : s₀.Keeps (bankPut s b off w) :=
  keeps_setBankW (keeps_rec (keeps_eccPart hs))
theorem keeps_tunePut {b i w} (hs : s₀.Keeps s) : s₀.Keeps (tunePut s b i w) := keeps_setBankW (keeps_eccPart hs)
theorem keeps_bankRewrite {b n} (hs : s₀.Keeps s) : s₀.Keeps (bankRewrite s b n) := keeps_foldl keeps_eccPart hs
theorem keeps_bankLoad {b ws T} (hs : s₀.Keeps s) : s₀.Keeps (bankLoad s b ws T) := by
  unfold bankLoad
  extract_lets s₁
  have h₁ : s₀.Keeps s₁ := keeps_bankRewrite hs
  exact keeps_ite (keeps_rec (keeps_drawFree h₁)) (keeps_foldl keeps_setBankW (keeps_rec h₁))
theorem keeps_mashErr {m st} (hs : s₀.Keeps s) : s₀.Keeps (mashErr s m st) := keeps_recErr hs
theorem keeps_swapRequest {r} (hs : s₀.Keeps s) : s₀.Keeps (swapRequest s r).2 :=
  keeps_ite_snd (keeps_snd hs) (keeps_snd (keeps_rec hs))
theorem keeps_eccBank {b} (hs : s₀.Keeps s) : s₀.Keeps (eccBank s b) := keeps_foldl keeps_eccRead hs
theorem keeps_swapChecked {r} (hs : s₀.Keeps s) : s₀.Keeps (swapChecked s r).2 := by
  unfold swapChecked
  extract_lets _ s₁ _ s₂
  have h₁ : s₀.Keeps s₁ := keeps_eccBank hs
  have h₂ : s₀.Keeps s₂ := keeps_rec h₁
  exact keeps_ite_snd (keeps_snd (keeps_mashErr (keeps_fset h₂)))
    (keeps_ite_snd (keeps_snd (keeps_fset (keeps_rec h₂))) (keeps_snd (keeps_mashErr h₂)))
theorem keeps_drawNat {a b} (hs : s₀.Keeps s) : s₀.Keeps (drawNat s a b).2 := keeps_snd (keeps_drawFree hs)
theorem keeps_shipParts {b} (hs : s₀.Keeps s) : s₀.Keeps (shipParts s b).2 := by
  unfold shipParts
  split
  rename_i s₁ e₁
  have h₁ : s₀.Keeps s₁ := keeps_of_snd (keeps_drawNat hs) e₁
  split
  rename_i s₂ e₂
  have h₂ : s₀.Keeps s₂ := keeps_of_snd (keeps_drawNat h₁) e₂
  extract_lets f₁
  have hf₁ {u x} (hu : s₀.Keeps u) : s₀.Keeps (f₁ u x).2 := by
    unfold f₁
    split
    rename_i s₃ e₃
    have h₃ : s₀.Keeps s₃ := keeps_of_snd (keeps_drawNat hu) e₃
    split
    rename_i s₄ e₄
    have h₄ : s₀.Keeps s₄ := keeps_of_snd (keeps_drawNat h₃) e₄
    exact keeps_snd h₄
  split
  rename_i s₅ e₅
  have h₅ : s₀.Keeps s₅ := keeps_of_snd (hf₁ h₂) e₅
  split
  rename_i s₆ e₆
  have h₆ : s₀.Keeps s₆ := keeps_of_snd (hf₁ h₅) e₆
  exact keeps_snd h₆
theorem keeps_swapCosts {b} (hs : s₀.Keeps s) : s₀.Keeps (swapCosts s b).2.2 := by
  unfold swapCosts
  refine keeps_ite_snd_snd ?_ (keeps_snd_snd hs)
  split
  rename_i s₁ e₁
  have h₁ : s₀.Keeps s₁ := keeps_of_snd (keeps_shipParts hs) e₁
  extract_lets
  exact keeps_snd_snd (keeps_rec h₁)
theorem keeps_bankSwap (hs : s₀.Keeps s) : s₀.Keeps (bankSwap s) :=
  keeps_fsets (keeps_swapCosts (keeps_rec (keeps_ite hs (keeps_mashErr hs))))
theorem keeps_mashBoundary (hs : s₀.Keeps s) : s₀.Keeps (mashBoundary s) := by
  unfold mashBoundary
  refine keeps_ite hs ?_
  extract_lets s₁ _ _ _ s₂
  have h₁ : s₀.Keeps s₁ := keeps_fset hs
  have h₂ : s₀.Keeps s₂ := keeps_foldl keeps_tunePut h₁
  exact keeps_ite (keeps_bankSwap h₁) (keeps_ite (keeps_fset (keeps_rec h₂)) h₁)
theorem keeps_mashGuard {m st eff} (heff : ∀ {u}, s₀.Keeps u → s₀.Keeps (eff u)) (hs : s₀.Keeps s) :
    s₀.Keeps (mashGuard m st eff s).2 :=
  keeps_ite_snd (keeps_snd (heff hs)) (keeps_snd (keeps_mashErr hs))
theorem keeps_swapctlEff {m w} (hs : s₀.Keeps s) : s₀.Keeps (swapctlEff m w s).2 := by
  unfold swapctlEff
  refine keeps_mashGuard (fun hu => ?_) hs
  extract_lets _ s₁
  have h₁ : s₀.Keeps s₁ := keeps_ite (keeps_rec hu) hu
  exact keeps_ite (keeps_swapRequest h₁) h₁
theorem keeps_execBankSwapRequest {m w} (hs : s₀.Keeps s) : s₀.KeepsIn (execBankSwapRequest m w s) :=
  keepsIn_next (keeps_rowWrite keeps_swapctlEff hs)
theorem keeps_execTuneCommit {m w} (hs : s₀.Keeps s) : s₀.KeepsIn (execTuneCommit m w s) :=
  keepsIn_next (keeps_rowWrite keeps_swapctlEff hs)
theorem keeps_tunedataEff {m w} (hs : s₀.Keeps s) : s₀.Keeps (tunedataEff m w s).2 :=
  keeps_mashGuard (fun hu => keeps_fsets (keeps_rec hu)) hs
theorem keeps_execMashTunedataWrite {m w} (hs : s₀.Keeps s) : s₀.KeepsIn (execMashTunedataWrite m w s) :=
  keepsIn_next (keeps_rowWrite keeps_tunedataEff hs)
theorem keeps_bankAddrEff {m b w} (hs : s₀.Keeps s) : s₀.Keeps (bankAddrEff m b w s).2 :=
  keeps_mashGuard keeps_fset hs
theorem keeps_bankDataEff {m b w} (hs : s₀.Keeps s) : s₀.Keeps (bankDataEff m b w s).2 :=
  keeps_mashGuard (fun hu => keeps_fset (keeps_bankPut hu)) hs
theorem keeps_execBankDataWrite {m b w} (hs : s₀.Keeps s) : s₀.KeepsIn (execBankDataWrite m b w s) :=
  keepsIn_next (keeps_rowWrite keeps_bankDataEff hs)
theorem keeps_bankDataRead {m b} (hs : s₀.Keeps s) : s₀.Keeps (bankDataRead m b s).2 :=
  keeps_ite_snd (keeps_snd (keeps_mashErr hs)) (keeps_snd (keeps_fset (keeps_eccRead hs)))
theorem keeps_shipNode {i} (hs : s₀.Keeps s) : s₀.Keeps (shipNode s i) := keeps_ite hs (keeps_rec (keeps_drawFree hs))
theorem keeps_ndataRead {m} (hs : s₀.Keeps s) : s₀.Keeps (ndataRead m s).2 :=
  keeps_snd (keeps_fsets (keeps_shipNode (keeps_eccRead hs)))
theorem keeps_tunedataRead {m} (hs : s₀.Keeps s) : s₀.Keeps (tunedataRead m s).2 :=
  keeps_snd (keeps_fset (keeps_ite hs (keeps_eccRead hs)))
theorem keeps_execNodeDataRead {m} (hs : s₀.Keeps s) : s₀.KeepsIn (execNodeDataRead m s) :=
  keepsIn_next (keeps_readAccess keeps_ndataRead hs)
theorem keeps_trMod {c f} (hs : s₀.Keeps s) : s₀.Keeps (trMod s c f) := keeps_rec hs
theorem keeps_trarmEff {w} (hs : s₀.Keeps s) : s₀.Keeps (trarmEff w s).2 :=
  keeps_snd (keeps_foldl (fun hu => keeps_ite (keeps_fsets (keeps_trMod hu)) hu) (keeps_capSettle hs))
theorem keeps_trStart {c} (hs : s₀.Keeps s) : s₀.Keeps (trStart s c) :=
  keeps_ite (keeps_fset (keeps_trMod hs)) (keeps_trMod hs)
theorem keeps_trstartEff {w} (hs : s₀.Keeps s) : s₀.Keeps (trstartEff w s).2 :=
  keeps_snd (keeps_foldl keeps_trStart hs)
theorem keeps_trstopEff {w} (hs : s₀.Keeps s) : s₀.Keeps (trstopEff w s).2 :=
  keeps_snd (keeps_foldl (fun hu => keeps_fset (keeps_trMod hu)) hs)
theorem keeps_execTraceArm {m w} (hs : s₀.Keeps s) : s₀.KeepsIn (execTraceArm m w s) :=
  keepsIn_next (keeps_rowWrite keeps_trarmEff hs)
theorem keeps_execTraceStartEvent {m w} (hs : s₀.Keeps s) : s₀.KeepsIn (execTraceStartEvent m w s) :=
  keepsIn_next (keeps_rowWrite keeps_trstartEff hs)
theorem keeps_execTraceStop {m w} (hs : s₀.Keeps s) : s₀.KeepsIn (execTraceStop m w s) :=
  keepsIn_next (keeps_rowWrite keeps_trstopEff hs)
theorem keeps_trcfgRegEff {m c k w} (hs : s₀.Keeps s) : s₀.Keeps (trcfgRegEff m c k w s).2 :=
  keeps_mashGuard (fun hu => keeps_ite (keeps_fsets hu) (keeps_ite (keeps_fsets hu) (keeps_fset hu))) hs
theorem keeps_trSample {began c} (hs : s₀.Keeps s) : s₀.Keeps (trSample s began c) := by
  unfold trSample
  extract_lets s₁ _ _ s₂ _ _ _ s₃ _ _ s₄ _ _ _ _ _ _ s₅ s₆ _ s₇ _ s₈
  have h₁ : s₀.Keeps s₁ := keeps_capSettle hs
  have h₂ : s₀.Keeps s₂ := by
    unfold s₂
    split
    · exact keeps_ite (keeps_trStart h₁) h₁
    · unfold s₁
      exact keeps_capSettle hs
  have h₃ : s₀.Keeps s₃ := keeps_shipNode (keeps_eccRead h₂)
  have h₄ : s₀.Keeps s₄ := keeps_ite (keeps_mwrite (keeps_eccPart h₃)) h₃
  have h₅ : s₀.Keeps s₅ := keeps_trMod h₄
  have h₆ : s₀.Keeps s₆ := keeps_fset h₅
  have h₇ : s₀.Keeps s₇ := keeps_ite (keeps_fsets h₆) h₆
  have h₈ : s₀.Keeps s₈ := keeps_trMod h₇
  exact keeps_ite h₁ (keeps_ite h₂ (keeps_ite (keeps_trMod h₂)
    (keeps_ite (keeps_fset h₆) (keeps_ite (keeps_fset h₈) h₈))))

/-! ### The functions of `Domains` -/

theorem keeps_domClear {d} (hs : s₀.Keeps s) : s₀.Keeps (domClear s d) := by
  unfold domClear
  extract_lets s₁ _ s₂ s₃ s₄ _ _ s₅ s₆ _ s₇
  have h₁ : s₀.Keeps s₁ := keeps_resetRegs hs
  have h₂ : s₀.Keeps s₂ := keeps_rec h₁
  have h₃ : s₀.Keeps s₃ := keeps_clearMem h₂
  have h₄ : s₀.Keeps s₄ := keeps_clearMem h₂
  have h₅ : s₀.Keeps s₅ := keeps_rec h₂
  have h₆ : s₀.Keeps s₆ := keeps_rec h₂
  have h₇ : s₀.Keeps s₇ := keeps_rec h₂
  exact keeps_ite (keeps_rec h₂) (keeps_ite (keeps_syncRoutes (keeps_rec h₃))
    (keeps_ite (keeps_rec h₄) (keeps_ite (keeps_clearMem h₂)
    (keeps_ite (keeps_foldl keeps_srcRelease h₅)
    (keeps_ite (keeps_rec h₂) (keeps_ite (keeps_srcRelease (keeps_rec h₂))
    (keeps_ite (keeps_syncForced (keeps_foldl (fun hu => keeps_ite (keeps_putLive hu) hu) h₆))
    (keeps_ite (keeps_rec h₂) (keeps_ite (keeps_syncGdFb (keeps_foldl keeps_srcRelease h₇)) h₂)))))))))

/-! ### The functions of `Power` -/

theorem keeps_execSupplyRelease {t} (hs : s₀.Keeps s) : s₀.KeepsIn (execSupplyRelease t s) := by
  unfold execSupplyRelease
  extract_lets s₁
  have h₁ : s₀.Keeps s₁ := keeps_at hs
  exact keepsIn_next (keeps_ite (keeps_rec h₁) h₁)
theorem keeps_execBrownOut {t also} (hs : s₀.Keeps s) : s₀.KeepsIn (execBrownOut t also s) := by
  unfold execBrownOut
  extract_lets s₁
  have h₁ : s₀.Keeps s₁ := keeps_at hs
  exact keepsIn_next (keeps_ite h₁ (keeps_coldReset h₁))
theorem keeps_execPinReset {t also} (hs : s₀.Keeps s) : s₀.KeepsIn (execPinReset t also s) := by
  unfold execPinReset
  extract_lets s₁ _ s₂
  have h₁ : s₀.Keeps s₁ := keeps_at hs
  have h₂ : s₀.Keeps s₂ := keeps_rec h₁
  exact keepsIn_next (keeps_ite h₂ (keeps_coldReset h₂))
theorem keeps_execResetPinRelease {t} (hs : s₀.Keeps s) : s₀.KeepsIn (execResetPinRelease t s) := by
  unfold execResetPinRelease
  extract_lets s₁ _ s₂
  have h₁ : s₀.Keeps s₁ := keeps_at hs
  have h₂ : s₀.Keeps s₂ := keeps_rec h₁
  exact keepsIn_next (keeps_ite (keeps_rec h₂) h₂)
theorem keeps_execVddioBankPower {t bank up} (hs : s₀.Keeps s) : s₀.KeepsIn (execVddioBankPower t bank up s) :=
  keepsIn_next (keeps_rec (keeps_at hs))
theorem keeps_execLrefclkWatchEnd {t qualifies} (hs : s₀.Keeps s) :
    s₀.KeepsIn (execLrefclkWatchEnd t qualifies s) := by
  unfold execLrefclkWatchEnd
  extract_lets s₁ s₂
  have h₁ : s₀.Keeps s₁ := keeps_at hs
  have h₂ : s₀.Keeps s₂ := keeps_fset h₁
  exact keepsIn_next (keeps_ite (keeps_ite (keeps_rec h₂) (keeps_rec h₁)) h₁)
theorem keeps_execCrystalQualified {t} (hs : s₀.Keeps s) : s₀.KeepsIn (execCrystalQualified t s) := by
  unfold execCrystalQualified
  extract_lets s₁ s₂
  have h₁ : s₀.Keeps s₁ := keeps_at hs
  have h₂ : s₀.Keeps s₂ := keeps_fset h₁
  exact keepsIn_next (keeps_ite (keeps_rec h₂) h₁)
theorem keeps_execCrystalQualifyTimeout {t} (hs : s₀.Keeps s) : s₀.KeepsIn (execCrystalQualifyTimeout t s) := by
  unfold execCrystalQualifyTimeout
  extract_lets s₁
  have h₁ : s₀.Keeps s₁ := keeps_at hs
  exact keepsIn_next (keeps_ite (keeps_rec h₁) h₁)
theorem keeps_execReferenceRetry {t} (hs : s₀.Keeps s) : s₀.KeepsIn (execReferenceRetry t s) := by
  unfold execReferenceRetry
  extract_lets s₁
  have h₁ : s₀.Keeps s₁ := keeps_at hs
  exact keepsIn_next (keeps_ite (keeps_rec h₁) h₁)
theorem keeps_takeSamples {s0 s1 s2} (hs : s₀.Keeps s) : s₀.Keeps (takeSamples s s0 s1 s2) := by
  unfold takeSamples
  extract_lets _ _ s₁ s₂
  have h₁ : s₀.Keeps s₁ := keeps_rec hs
  have h₂ : s₀.Keeps s₂ := keeps_strapSample h₁
  exact keeps_ite (keeps_rec h₂) (keeps_rec h₁)
theorem keeps_execPllLock {t s0 s1 s2} (hs : s₀.Keeps s) : s₀.KeepsIn (execPllLock t s0 s1 s2 s) := by
  unfold execPllLock
  extract_lets s₁
  have h₁ : s₀.Keeps s₁ := keeps_at hs
  exact keepsIn_next (keeps_ite (keeps_takeSamples (keeps_fset h₁)) h₁)
theorem keeps_execStrapResample {t s0 s1 s2} (hs : s₀.Keeps s) : s₀.KeepsIn (execStrapResample t s0 s1 s2 s) := by
  unfold execStrapResample
  extract_lets s₁
  have h₁ : s₀.Keeps s₁ := keeps_at hs
  exact keepsIn_next (keeps_ite (keeps_takeSamples h₁) h₁)
theorem keeps_execReferenceLoss {t} (hs : s₀.Keeps s) : s₀.KeepsIn (execReferenceLoss t s) := by
  unfold execReferenceLoss
  extract_lets s₁ s₂
  have h₁ : s₀.Keeps s₁ := keeps_at hs
  have h₂ : s₀.Keeps s₂ := keeps_fsets h₁
  exact keepsIn_next (keeps_ite (keeps_srcAssert (keeps_rec h₂)) h₁)
theorem keeps_execReferenceHoldExpiry {t also} (hs : s₀.Keeps s) : s₀.KeepsIn (execReferenceHoldExpiry t also s) := by
  unfold execReferenceHoldExpiry
  extract_lets s₁
  have h₁ : s₀.Keeps s₁ := keeps_at hs
  exact keepsIn_next (keeps_ite (keeps_coldReset h₁) h₁)
theorem keeps_execReferenceReturn {t} (hs : s₀.Keeps s) : s₀.KeepsIn (execReferenceReturn t s) := by
  unfold execReferenceReturn
  extract_lets s₁ s₂ s₃
  have h₁ : s₀.Keeps s₁ := keeps_at hs
  have h₂ : s₀.Keeps s₂ := keeps_fsets h₁
  have h₃ : s₀.Keeps s₃ := keeps_satAdd h₂
  exact keepsIn_next (keeps_ite (keeps_srcRelease (keeps_rec h₃)) h₁)
theorem keeps_execWatchdogExpiry {t also straps} (hs : s₀.Keeps s) :
    s₀.KeepsIn (execWatchdogExpiry t also straps s) := by
  unfold execWatchdogExpiry
  extract_lets s₁
  have h₁ : s₀.Keeps s₁ := keeps_at hs
  exact keepsIn_next (keeps_ite (keeps_systemReset h₁) h₁)
theorem keeps_execLockstepError {t also straps} (hs : s₀.Keeps s) :
    s₀.KeepsIn (execLockstepError t also straps s) := by
  unfold execLockstepError
  extract_lets s₁
  have h₁ : s₀.Keeps s₁ := keeps_at hs
  exact keepsIn_next (keeps_ite (keeps_systemReset h₁) h₁)
theorem keeps_execDebugReset {t also straps} (hs : s₀.Keeps s) : s₀.KeepsIn (execDebugReset t also straps s) := by
  unfold execDebugReset
  extract_lets s₁
  have h₁ : s₀.Keeps s₁ := keeps_at hs
  exact keepsIn_next (keeps_ite (keeps_systemReset h₁) h₁)
theorem keeps_rstctlWrite {m w width epochOk also straps} (hs : s₀.Keeps s) :
    s₀.Keeps (rstctlWrite s m w width epochOk also straps).2 := by
  unfold rstctlWrite
  split
  rename_i s₁ e₁
  have h₁ : s₀.Keeps s₁ := keeps_of_snd (keeps_regWrite keeps_snd hs) e₁
  exact keeps_ite_snd (keeps_ite_snd (keeps_snd (keeps_coldReset h₁))
    (keeps_ite_snd (keeps_snd (keeps_systemReset h₁)) (keeps_snd h₁))) (keeps_snd h₁)
theorem keeps_execSysResetRequest {m w also straps} (hs : s₀.Keeps s) :
    s₀.KeepsIn (execSysResetRequest m w also straps s) :=
  keepsIn_next (keeps_rstctlWrite hs)
theorem keeps_execColdResetRequest {m w also} (hs : s₀.Keeps s) : s₀.KeepsIn (execColdResetRequest m w also s) :=
  keepsIn_next (keeps_ite (keeps_rstctlWrite (keeps_drawFree hs)) (keeps_rstctlWrite hs))
theorem keeps_execMailboxResetFire {t straps} (hs : s₀.Keeps s) : s₀.KeepsIn (execMailboxResetFire t straps s) := by
  unfold execMailboxResetFire
  extract_lets s₁
  have h₁ : s₀.Keeps s₁ := keeps_at hs
  refine keepsIn_next (keeps_ite h₁ ?_)
  split
  · exact h₁
  · exact keeps_coldReset h₁
  · exact keeps_systemReset h₁
theorem keeps_domctlJudge {w ds} (hs : s₀.Keeps s) : s₀.Keeps (domctlJudge s w ds).2.2 := by
  induction ds generalizing s with
  | nil => exact hs
  | cons d ds ih =>
    exact keeps_ite_snd_snd (ih hs) (keeps_ite_snd_snd (ih (keeps_fset hs)) (ih (keeps_pwrErr hs)))
theorem keeps_domctlEff {w} (hs : s₀.Keeps s) : s₀.Keeps (domctlEff w s).2 := by
  unfold domctlEff
  split
  rename_i s₁ e₁
  have h₁ : s₀.Keeps s₁ := keeps_of_snd_snd (keeps_domctlJudge hs) e₁
  exact keeps_snd (keeps_serveDomains h₁)
theorem keeps_execPwrDomctlWrite {m w} (hs : s₀.Keeps s) : s₀.KeepsIn (execPwrDomctlWrite m w s) :=
  keepsIn_next (keeps_rowWrite keeps_domctlEff hs)
theorem keeps_domainOn {d} (hs : s₀.Keeps s) : s₀.Keeps (domainOn s d) := by
  unfold domainOn
  extract_lets _ s₁ s₂ _ s₃ s₄ _ s₅ s₆
  have h₁ : s₀.Keeps s₁ := keeps_domClear (keeps_rec hs)
  have h₂ : s₀.Keeps s₂ := keeps_fset h₁
  have h₃ : s₀.Keeps s₃ := keeps_ite (keeps_foldl keeps_fltTake h₂) h₂
  have h₄ : s₀.Keeps s₄ := keeps_ite (keeps_foldl keeps_fset h₃) h₃
  have h₅ : s₀.Keeps s₅ := keeps_ite (keeps_foldl keeps_fset (keeps_rec h₄)) h₄
  have h₆ : s₀.Keeps s₆ := keeps_scrubBegin h₅
  exact keeps_serveDomains (keeps_rec h₆)
theorem keeps_retireInst {d i} (hs : s₀.Keeps s) : s₀.Keeps (retireInst d s i) :=
  keeps_ite (keeps_fset hs) (keeps_ite (keeps_fset hs) (keeps_ite (keeps_fset hs) (keeps_fset hs)))
theorem keeps_domainTested {d pass failed} (hs : s₀.Keeps s) : s₀.Keeps (domainTested s d pass failed) := by
  unfold domainTested
  extract_lets s₁ _ s₂ _ _ s₃ s₄
  have h₁ : s₀.Keeps s₁ := keeps_fset hs
  have h₂ : s₀.Keeps s₂ := keeps_rec h₁
  have h₃ : s₀.Keeps s₃ := keeps_foldl keeps_retireInst h₂
  have h₄ : s₀.Keeps s₄ := keeps_fset h₃
  exact keeps_ite (keeps_serveDomains (keeps_fset h₄)) h₃

/-! ### The functions of `Bus` -/

theorem keeps_mbxPut {i o l} (hs : s₀.Keeps s) : s₀.Keeps (mbxPut s i o l) := by
  induction l generalizing o s with
  | nil => exact hs
  | cons b bs ih => exact ih (keeps_rec hs)
theorem keeps_mbxPost {i} (hs : s₀.Keeps s) : s₀.Keeps (mbxPost s i) := keeps_rec (keeps_fset hs)
theorem keeps_mbxEff {m a w} (hs : s₀.Keeps s) : s₀.Keeps (mbxEff m a w s).2 := by
  unfold mbxEff
  extract_lets o k i
  refine keeps_ite_snd (keeps_snd (keeps_fset hs))
    (keeps_ite_snd (keeps_snd (keeps_fset hs)) (keeps_ite_snd (keeps_snd hs)
    (keeps_ite_snd (keeps_snd (keeps_eccSupPut (fun hu => keeps_mbxPut hu) hs)) (keeps_ite_snd ?_ (keeps_snd hs)))))
  split
  · exact keeps_snd (keeps_fsets hs)
  · exact keeps_snd (keeps_fset hs)
  · exact keeps_snd (keeps_ite (keeps_mbxPost hs) hs)
  · exact keeps_snd hs
theorem keeps_execMbxGo {m n w} (hs : s₀.Keeps s) : s₀.KeepsIn (execMbxGo m n w s) :=
  keepsIn_next (keeps_rowWrite keeps_mbxEff hs)
theorem keeps_accEff {m a w} (hs : s₀.Keeps s) : s₀.Keeps (accEff m a w s).2 := by
  unfold accEff
  split
  · exact keeps_snd (keeps_fset hs)
  · exact keeps_ite_snd (keeps_snd (keeps_accErr hs)) (keeps_snd (keeps_rec hs))
  · extract_lets s₁
    have h₁ : s₀.Keeps s₁ := keeps_ite (keeps_fset hs) hs
    exact keeps_snd (keeps_ite (keeps_fset h₁) h₁)
  · exact keeps_snd (keeps_fset hs)
  · exact keeps_ite_snd (keeps_snd (keeps_jnlFree hs)) (keeps_snd (keeps_accErr hs))
  · exact keeps_snd (keeps_fset hs)
  · exact keeps_snd hs
theorem keeps_execAccJnlfree {m w} (hs : s₀.Keeps s) : s₀.KeepsIn (execAccJnlfree m w s) :=
  keepsIn_next (keeps_rowWrite keeps_accEff hs)
theorem keeps_plainEff {r i w} (hs : s₀.Keeps s) : s₀.Keeps (plainEff r i w s).2 := by
  unfold plainEff
  refine keeps_snd (keeps_foldl (fun hu => ?_) hs)
  extract_lets
  split
  · exact keeps_fset hu
  · exact keeps_fset hu
  · exact keeps_fset hu
  · exact hu
theorem keeps_secEff {m a w r} (hs : s₀.Keeps s) : s₀.Keeps (secEff m a w r s).2 :=
  keeps_ite_snd (keeps_einjEff hs) (keeps_ite_snd (keeps_scrubCfgEff hs) (keeps_plainEff hs))
theorem keeps_pwmRegEff {m a w r i} (hs : s₀.Keeps s) : s₀.Keeps (pwmRegEff m a w r i s).2 := by
  unfold pwmRegEff
  split
  · exact keeps_pwmCfgEff hs
  · exact keeps_stagedEff hs
  · exact keeps_stagedEff hs
  · exact keeps_stagedEff hs
  · exact keeps_stagedEff hs
  · exact keeps_phstepEff hs
  · exact keeps_pwmCtlEff hs
  · exact keeps_gcommitEff hs
  · exact keeps_gcancelEff hs
  · exact keeps_srcstatEff hs
  · exact keeps_srcstatEff hs
  · exact keeps_tsidxEff hs
  · exact keeps_pincfgEff hs
  · exact keeps_swforceEff hs
  · exact keeps_gcfgEff hs
  · exact keeps_gstatEff hs
  · exact keeps_grpRegEff hs
  · exact keeps_ite_snd (keeps_grpRegEff hs) (keeps_plainEff hs)
theorem keeps_gdRegEff {m w r i} (hs : s₀.Keeps s) : s₀.Keeps (gdRegEff m w r i s).2 := by
  unfold gdRegEff
  split
  · exact keeps_gdCfgEff hs
  · exact keeps_gdTimeEff hs
  · exact keeps_gdTimeEff hs
  · exact keeps_gdTimeEff hs
  · exact keeps_gdEvtEff hs
  · exact keeps_gdFbsrcEff hs
  · exact keeps_gdDtEff hs
  · exact keeps_plainEff hs
theorem keeps_sprRegEff {m w r i} (hs : s₀.Keeps s) : s₀.Keeps (sprRegEff m w r i s).2 := by
  unfold sprRegEff
  split
  · exact keeps_sprCfgEff hs
  · exact keeps_sprSelEff hs
  · exact keeps_sprSelEff hs
  · exact keeps_sprTimeEff hs
  · exact keeps_sprShedcfgEff hs
  · exact keeps_sprSenseEff hs
  · exact keeps_sprSensedvEff hs
  · exact keeps_sprCtlEff hs
  · exact keeps_phfailEff hs
  · exact keeps_sprEvtEff hs
  · exact keeps_sprPffEff hs
  · exact keeps_plainEff hs
theorem keeps_adcRegEff {m a w r i} (hs : s₀.Keeps s) : s₀.Keeps (adcRegEff m a w r i s).2 := by
  unfold adcRegEff
  split
  · exact keeps_adcCfgEff hs
  · exact keeps_adcTimerEff hs
  · exact keeps_injEff hs
  · exact keeps_adcCtlEff hs
  · exact keeps_adcSlotEff hs
  · exact keeps_routeEff hs
  · exact keeps_adcPullEff hs
  · exact keeps_wcfgEff hs
  · exact keeps_wctlEff hs
  · exact keeps_wstatEff hs
  · exact keeps_plainEff hs
theorem keeps_timRegEff {m w r i} (hs : s₀.Keeps s) : s₀.Keeps (timRegEff m w r i s).2 := by
  unfold timRegEff
  split
  · exact keeps_timCfgEff hs
  · exact keeps_timCycEff hs
  · exact keeps_timServoEff hs
  · exact keeps_timLockcfgEff hs
  · exact keeps_timHoldEff hs
  · exact keeps_timAsymEff hs
  · exact keeps_trgcfgEff hs
  · exact keeps_trgFldEff hs
  · exact keeps_trgFldEff hs
  · exact keeps_trgFldEff hs
  · exact keeps_plainEff hs
theorem keeps_voteRegEff {m w r i} (hs : s₀.Keeps s) : s₀.Keeps (voteRegEff m w r i s).2 := by
  unfold voteRegEff
  split
  · exact keeps_lcfgEff hs
  · exact keeps_xcfgEff hs
  · exact keeps_xmaskEff hs
  · exact keeps_slistEff hs
  · exact keeps_ccfgEff hs
  · exact keeps_cmaskEff hs
  · exact keeps_ite_snd (keeps_snd (keeps_voteErr hs)) (keeps_plainEff hs)
theorem keeps_capRegEff {m w r i} (hs : s₀.Keeps s) : s₀.Keeps (capRegEff m w r i s).2 := by
  unfold capRegEff
  extract_lets s₁
  have h₁ : s₀.Keeps s₁ := keeps_capSettle hs
  split
  · exact keeps_capSrcEff h₁
  · exact keeps_capMcfgEff h₁
  · exact keeps_trigcfgEff h₁
  · exact keeps_swtrigEff h₁
  · exact keeps_capFreeEff h₁
  · exact keeps_skewctlEff h₁
  · exact keeps_mphaseEff h₁
  · exact keeps_mtcfgEff h₁
  · exact keeps_mtstepEff h₁
  · exact keeps_mtptEff h₁
  · exact keeps_mtupEff h₁
  · exact keeps_mtloEff h₁
  · exact keeps_plainEff h₁
theorem keeps_mashRegEff {m w r i} (hs : s₀.Keeps s) : s₀.Keeps (mashRegEff m w r i s).2 := by
  unfold mashRegEff
  split
  · exact keeps_swapctlEff hs
  · exact keeps_trarmEff hs
  · exact keeps_trstartEff hs
  · exact keeps_trstopEff hs
  · exact keeps_bankAddrEff hs
  · exact keeps_bankDataEff hs
  · exact keeps_bankAddrEff hs
  · exact keeps_bankDataEff hs
  · exact keeps_trcfgRegEff hs
  · exact keeps_trcfgRegEff hs
  · exact keeps_trcfgRegEff hs
  · exact keeps_tunedataEff hs
  · exact keeps_plainEff hs
theorem keeps_kilnRegEff {m w r i} (hs : s₀.Keeps s) : s₀.Keeps (kilnRegEff m w r i s).2 := by
  unfold kilnRegEff
  split
  · exact keeps_kilnCfgEff hs
  · exact keeps_compselEff hs
  · exact keeps_kilnEvtEff hs
  · exact keeps_sbrokenEff hs
  · exact keeps_sbrokenEff hs
  · exact keeps_scfgEff hs
  · exact keeps_sparEff hs
  · exact keeps_gthEff hs
  · exact keeps_gthEff hs
  · exact keeps_kilnGcfgEff hs
  · exact keeps_plainEff hs
theorem keeps_busEff {m a w} (hs : s₀.Keeps s) : s₀.Keeps (busEff m a w s).2 := by
  unfold busEff
  split
  · exact keeps_snd hs
  · exact keeps_winWrite hs
  · exact keeps_snd (keeps_capErr hs)
  · exact keeps_snd (keeps_mwrite (keeps_eccPart hs))
  · exact keeps_mbxEff hs
  · exact keeps_accEff hs
  · split
    · exact keeps_snd hs
    · split
      · exact keeps_pwmRegEff hs
      · exact keeps_gdRegEff hs
      · exact keeps_sprRegEff hs
      · exact keeps_adcRegEff hs
      · exact keeps_ite_snd (keeps_lnkCfgEff hs)
          (keeps_ite_snd (keeps_lnkCtlEff hs) (keeps_ite_snd (keeps_lnkTestEff hs) (keeps_plainEff hs)))
      · exact keeps_timRegEff hs
      · exact keeps_voteRegEff hs
      · exact keeps_capRegEff hs
      · exact keeps_mashRegEff hs
      · exact keeps_kilnRegEff hs
      · exact keeps_secEff hs
      · exact keeps_ite_snd (keeps_dirctlEff hs)
          (keeps_ite_snd (keeps_diridxEff hs)
          (keeps_ite_snd (keeps_fillcfgEff hs) (keeps_ite_snd (keeps_snd (keeps_ptErr hs)) (keeps_plainEff hs))))
      · exact keeps_ite_snd (keeps_domctlEff hs) (keeps_plainEff hs)
      · exact keeps_plainEff hs
theorem keeps_busWrite {m a w width epochOk} (hs : s₀.Keeps s) : s₀.Keeps (busWrite s m a w width epochOk).2 :=
  keeps_ite_snd (keeps_rstctlWrite (keeps_drawFree hs)) (keeps_regWrite keeps_busEff hs)
theorem keeps_execRegisterWrite {m a width w} (hs : s₀.Keeps s) : s₀.KeepsIn (execRegisterWrite m a width w s) :=
  keepsIn_next (keeps_busWrite hs)
theorem keeps_busReadEff {m a} (hs : s₀.Keeps s) : s₀.Keeps (busReadEff m a s).2 := by
  unfold busReadEff
  split
  · exact keeps_snd hs
  · exact keeps_winRead hs
  · exact keeps_snd (keeps_caskRead (keeps_capSettle hs))
  · exact keeps_snd (keeps_eccRead hs)
  · exact keeps_ite_snd (keeps_snd (keeps_eccSupGet (fun hu => hu) hs)) (keeps_snd hs)
  · split
    · exact keeps_snd hs
    · extract_lets s₁ s₂
      have h₁ : s₀.Keeps s₁ := keeps_ite (keeps_adcSettle hs) (keeps_ite (keeps_capSettle hs) hs)
      have h₂ : s₀.Keeps s₂ := keeps_eccRead h₁
      split
      · exact keeps_nowRead h₁
      · exact keeps_resloRead h₁
      · exact keeps_reshiRead h₁
      · exact keeps_bankDataRead h₁
      · exact keeps_bankDataRead h₁
      · exact keeps_ndataRead h₁
      · exact keeps_tunedataRead h₁
      · exact keeps_snd h₂
      · exact keeps_snd h₁
theorem keeps_busRead {m a width} (hs : s₀.Keeps s) : s₀.Keeps (busRead s m a width).2.2 :=
  keeps_ite_snd_snd (keeps_snd_snd (keeps_unmapped hs))
    (keeps_ite_snd_snd (keeps_snd_snd (keeps_recRefused hs)) (keeps_snd_snd (keeps_busReadEff hs)))

/-! ### The functions of `MashIo` -/

theorem keeps_pointIn {p} (hs : s₀.Keeps s) : s₀.Keeps (pointIn s p).2 := by
  unfold pointIn
  split
  · exact keeps_snd (keeps_ptErr hs)
  · refine keeps_ite_snd (keeps_snd (keeps_recRefused hs)) ?_
    extract_lets s₁
    have h₁ : s₀.Keeps s₁ := keeps_eccRead (keeps_eccRead hs)
    exact keeps_ite_snd (keeps_snd (keeps_ptErr h₁)) (keeps_snd h₁)
theorem keeps_m7Read {a at_} (hs : s₀.Keeps s) : s₀.Keeps (m7Read s a at_).2.2 := by
  unfold m7Read
  extract_lets y
  split
  rename_i s₁ e₁
  have h₁ : s₀.Keeps s₁ := keeps_of_snd_snd (keeps_busRead hs) e₁
  clear_value y
  split
  · refine keeps_ite_snd_snd (keeps_snd_snd h₁) ?_
    split
    rename_i s₂ e₂
    have h₂ : s₀.Keeps s₂ := keeps_of_snd (keeps_drawBetween h₁) e₂
    exact keeps_snd_snd h₂
  · exact keeps_snd_snd h₁
theorem keeps_m7Write {a v} (hs : s₀.Keeps s) : s₀.Keeps (m7Write s a v) := by
  unfold m7Write
  split
  rename_i s₁ e₁
  have h₁ : s₀.Keeps s₁ := keeps_of_snd (keeps_busWrite hs) e₁
  exact keeps_ite h₁ (keeps_mashErr h₁)
theorem keeps_clampCnt {x lo hi} (hs : s₀.Keeps s) : s₀.Keeps (clampCnt s x lo hi).2 :=
  keeps_ite_snd (keeps_snd (keeps_satAdd hs)) (keeps_ite_snd (keeps_snd (keeps_satAdd hs)) (keeps_snd hs))
theorem keeps_toType {ty w} (hs : s₀.Keeps s) : s₀.Keeps (toType s ty w).2 := by
  unfold toType
  refine keeps_ite_snd (keeps_snd (keeps_drawFree hs)) ?_
  split
  · exact keeps_snd hs
  · exact keeps_snd (keeps_clampCnt hs)
  · exact keeps_snd hs
  · exact keeps_snd (keeps_clampCnt hs)
  · exact keeps_snd (keeps_clampCnt hs)
  · exact keeps_snd hs
  · exact keeps_snd (keeps_drawFree hs)
  · exact keeps_snd (keeps_clampCnt hs)
theorem keeps_outPut {p w sub} (hs : s₀.Keeps s) : s₀.Keeps (outPut s p w sub) := by
  unfold outPut
  split
  · exact keeps_ptErr (keeps_mashErr hs)
  · refine keeps_ite ?_ (keeps_ptWrite (keeps_toType hs))
    extract_lets s₁
    have h₁ : s₀.Keeps s₁ := keeps_mashErr hs
    exact keeps_ite (keeps_ptErr h₁) (keeps_recRefused h₁)

/-! ### The functions of `Ship` -/

theorem keeps_classReads (hs : s₀.Keeps s) : s₀.Keeps (classReads s) := keeps_ite (keeps_eccSlots hs) hs
theorem keeps_shipPut {p v} (hs : s₀.Keeps s) : s₀.Keeps (shipPut s p v) := keeps_outPut hs
theorem keeps_shipIntake {fast} (hs : s₀.Keeps s) : s₀.Keeps (shipIntake s fast).2.2 := by
  unfold shipIntake
  extract_lets
  split
  rename_i s₁ e₁
  have h₁ : s₀.Keeps s₁ := by
    refine keeps_of_snd_snd ?_ e₁
    refine keeps_foldl_snd_snd (fun hu => ?_) (keeps_snd_snd hs)
    split
    rename_i s₂ e₂
    have h₂ : s₀.Keeps s₂ := by
      refine keeps_of_snd_snd ?_ e₂
      refine keeps_foldl_snd_snd (fun hv => ?_) (keeps_snd_snd hu)
      split
      rename_i s₃ e₃
      have h₃ : s₀.Keeps s₃ := keeps_of_snd (keeps_pointIn hv) e₃
      split
      · exact keeps_snd_snd h₃
      · exact keeps_snd_snd h₃
    exact keeps_snd_snd h₂
  exact keeps_snd_snd h₁
theorem keeps_shipStackRun {x grid} (hs : s₀.Keeps s) : s₀.Keeps (shipStackRun s x grid) := by
  unfold shipStackRun
  split
  · exact keeps_satAdd hs
  · exact keeps_rec (keeps_foldl keeps_shipPut (keeps_foldl (fun hu => keeps_foldl keeps_shipPut hu) (keeps_rec hs)))
theorem keeps_shipFast {x began} (hs : s₀.Keeps s) : s₀.Keeps (shipFast s x began) := by
  unfold shipFast
  extract_lets _ _ _ y _ f₁
  have hf₁ {u x₁ x₂} (hu : s₀.Keeps u) : s₀.Keeps (f₁ u x₁ x₂) := keeps_foldl keeps_m7Write hu
  clear_value y
  split
  · exact keeps_satAdd hs
  · extract_lets s₁
    have h₁ : s₀.Keeps s₁ := keeps_rec hs
    exact keeps_ite h₁ (keeps_m7Write (hf₁ (hf₁ h₁)))
theorem keeps_shipCell {x} (hs : s₀.Keeps s) : s₀.Keeps (shipCell s x) := by
  unfold shipCell
  split
  · exact keeps_satAdd hs
  · exact keeps_m7Write (keeps_m7Write (keeps_foldl keeps_m7Write
      (keeps_rec (keeps_shipPut (keeps_shipPut (keeps_shipPut (keeps_rec hs)))))))
theorem keeps_shipStates {x} (hs : s₀.Keeps s) : s₀.Keeps (shipStates s x).2 := by
  unfold shipStates
  refine keeps_ite_snd ?_ (keeps_snd hs)
  split
  rename_i s₁ e₁
  have h₁ : s₀.Keeps s₁ := by
    refine keeps_of_snd ?_ e₁
    refine keeps_foldl_snd (fun hu => ?_) (keeps_snd hs)
    split
    rename_i s₂ e₂
    have h₂ : s₀.Keeps s₂ := keeps_of_snd (keeps_drawFree hu) e₂
    exact keeps_snd h₂
  exact keeps_snd h₁

/-! ### The functions of `MashRun` -/

theorem keeps_putNode {i w q sub} (hs : s₀.Keeps s) : s₀.Keeps (putNode s i w q sub) := keeps_rec (keeps_eccPart hs)
theorem keeps_setTask {fast r} (hs : s₀.Keeps s) : s₀.Keeps (setTask s fast r) :=
  keeps_ite (keeps_rec hs) (keeps_rec hs)
theorem keeps_intakePut {e n g} (hs : s₀.Keeps s) : s₀.Keeps (intakePut s e n g) := keeps_putNode hs
theorem keeps_intakeRun {e} (hs : s₀.Keeps s) : s₀.Keeps (intakeRun s e).2 := by
  unfold intakeRun
  refine keeps_ite_snd (keeps_foldl_snd (fun hu => keeps_snd (keeps_intakePut (keeps_pointIn hu))) (keeps_snd hs)) ?_
  split
  rename_i s₁ e₁
  have h₁ : s₀.Keeps s₁ := by
    have hp := congrArg (fun p => s₀.Keeps p.2.2.2) e₁
    refine hp.mp ?_
    split
    · exact keeps_m7Read hs
    · exact hs
  exact keeps_snd (keeps_intakePut h₁)
theorem keeps_eccReads {l} (hs : s₀.Keeps s) : s₀.Keeps (eccReads s l) := keeps_ite hs (keeps_foldl keeps_eccRead hs)
theorem keeps_putOuts {o sub k l} (hs : s₀.Keeps s) : s₀.Keeps (putOuts s o sub k l) := by
  induction l generalizing k s with
  | nil => exact hs
  | cons e l ih => exact ih (keeps_putNode hs)
theorem keeps_putState {a k l} (hs : s₀.Keeps s) : s₀.Keeps (putState s a k l) := by
  induction l generalizing k s with
  | nil => exact hs
  | cons w l ih => exact ih (keeps_rec (keeps_eccPart hs))
theorem keeps_blockRun {fast i} (hs : s₀.Keeps s) : s₀.Keeps (blockRun s fast i) := by
  unfold blockRun
  extract_lets _ _ _ _ s₁ s₂ _ _ _ _ s₃ _ _ _ _ _ _ _ _ _ _ s₄ f₁
  have h₁ : s₀.Keeps s₁ := keeps_eccReads hs
  have h₂ : s₀.Keeps s₂ := keeps_ite h₁ (keeps_eccReads h₁)
  have h₃ : s₀.Keeps s₃ := keeps_eccReads h₂
  have h₄ : s₀.Keeps s₄ := keeps_rec h₃
  have hf₁ {u} (hu : s₀.Keeps u) : s₀.Keeps (f₁ u) := keeps_putOuts hu
  refine keeps_ite (hf₁ h₄) ?_
  split
  · exact hf₁ (keeps_satAdd h₄)
  · refine keeps_ite (hf₁ h₄) ?_
    extract_lets s₅ s₆ s₇
    have h₅ : s₀.Keeps s₅ := keeps_ite h₄ (keeps_putState h₄)
    have h₆ : s₀.Keeps s₆ := by
      unfold s₆
      split
      · exact h₅
      · exact keeps_putOuts (keeps_putNode h₅)
    have h₇ : s₀.Keeps s₇ := keeps_ite (keeps_satAdd h₆) h₆
    exact keeps_ite (keeps_memFault (keeps_satAdd h₇)) h₇
theorem keeps_pointOut {e p n} (hs : s₀.Keeps s) : s₀.Keeps (pointOut s e p n) := by
  unfold pointOut
  extract_lets s₁
  have h₁ : s₀.Keeps s₁ := keeps_eccReads hs
  exact keeps_ite h₁ (keeps_outPut h₁)
theorem keeps_outletRun {e} (hs : s₀.Keeps s) : s₀.Keeps (outletRun s e) := by
  unfold outletRun
  refine keeps_ite (keeps_foldl keeps_pointOut hs) ?_
  extract_lets s₁
  have h₁ : s₀.Keeps s₁ := keeps_eccReads hs
  exact keeps_ite h₁ (keeps_m7Write (keeps_ite_snd (keeps_toType h₁)
    (keeps_ite_snd (keeps_toType h₁) (keeps_snd h₁))))
theorem keeps_itemWork {fast r a} (hs : s₀.Keeps s) : s₀.Keeps (itemWork s fast r a).2 := by
  unfold itemWork
  split
  · exact keeps_snd (keeps_intakeRun (keeps_eccReads hs))
  · exact keeps_snd (keeps_ite hs (keeps_blockRun hs))
  · exact keeps_snd (keeps_outletRun (keeps_eccReads hs))
  · exact keeps_snd (keeps_shipIntake hs)
  · exact keeps_snd (keeps_eccBank hs)
  · exact keeps_snd hs
theorem keeps_itemStep {fast r it} (hs : s₀.Keeps s) : s₀.Keeps (itemStep s fast r it) := by
  unfold itemStep
  extract_lets
  split
  rename_i s₁ e₁
  have h₁ : s₀.Keeps s₁ := keeps_of_snd (keeps_itemWork (keeps_rec hs)) e₁
  split
  rename_i s₂ e₂
  have h₂ : s₀.Keeps s₂ := keeps_of_snd (keeps_drawBetween h₁) e₂
  exact keeps_setTask h₂
theorem keeps_advance {fast limit l} (hs : s₀.Keeps s) : s₀.Keeps (advance fast limit l s) := by
  induction l generalizing s with
  | nil => exact hs
  | cons it l ih =>
    unfold advance
    split
    · exact hs
    · exact keeps_ite hs (keeps_ite hs (ih (keeps_itemStep hs)))
theorem keeps_runItems {fast limit l} (hs : s₀.Keeps s) : s₀.Keeps (runItems s fast limit l) := by
  unfold runItems
  split
  · exact hs
  · extract_lets s₁
    have h₁ : s₀.Keeps s₁ := keeps_advance hs
    split
    · exact keeps_ite (keeps_setTask h₁) h₁
    · exact h₁
theorem keeps_runTask {fast limit} (hs : s₀.Keeps s) : s₀.Keeps (runTask s fast limit) := keeps_runItems hs
theorem keeps_runIntake {fast} (hs : s₀.Keeps s) : s₀.Keeps (runIntake s fast) := keeps_runItems hs
theorem keeps_mainUpTo {t} (hs : s₀.Keeps s) : s₀.Keeps (mainUpTo s t) := keeps_ite hs (keeps_runTask hs)
theorem keeps_taskWrites {fast n} (hs : s₀.Keeps s) : s₀.Keeps (taskWrites s fast n).2 :=
  keeps_ite_snd (keeps_snd (keeps_drawFree hs)) (keeps_snd hs)
theorem keeps_taskSamples {fast r} (hs : s₀.Keeps s) : s₀.Keeps (taskSamples s fast r) := by
  unfold taskSamples
  extract_lets _ s₁
  have h₁ : s₀.Keeps s₁ := by
    refine keeps_foldl (fun hu => ?_) hs
    split
    rename_i s₂ e₂
    have h₂ : s₀.Keeps s₂ := keeps_of_snd (keeps_taskWrites hu) e₂
    exact keeps_ite (keeps_capFeed (keeps_shipNode (keeps_eccReads h₂))) h₂
  exact keeps_foldl (fun hu => keeps_ite (keeps_trSample hu) hu) h₁
theorem keeps_overrun {fast} (hs : s₀.Keeps s) : s₀.Keeps (overrun s fast) := by
  unfold overrun
  extract_lets _ _ s₁ s₂
  have h₁ : s₀.Keeps s₁ := keeps_ite (keeps_rec hs) (keeps_rec hs)
  have h₂ : s₀.Keeps s₂ := keeps_ite (keeps_satAdd (keeps_fset h₁)) (keeps_satAdd (keeps_fset h₁))
  exact keeps_ite (keeps_memFault h₂) h₂
theorem keeps_startRead {fast} (hs : s₀.Keeps s) : s₀.Keeps (startRead s fast) := by
  unfold startRead
  extract_lets _ s₁
  have h₁ : s₀.Keeps s₁ := keeps_eccReads (keeps_rec hs)
  exact keeps_ite (keeps_setTask h₁) h₁
theorem keeps_mainStart (hs : s₀.Keeps s) : s₀.Keeps (mainStart s) := by
  unfold mainStart
  extract_lets _ s₁ _ _ s₂
  have h₁ : s₀.Keeps s₁ := keeps_rec hs
  have h₂ : s₀.Keeps s₂ := keeps_startRead (keeps_setTask h₁)
  exact keeps_ite h₂ (keeps_runIntake h₂)
theorem keeps_fastFinish (hs : s₀.Keeps s) : s₀.Keeps (fastFinish s) := by
  unfold fastFinish
  split
  · exact hs
  · extract_lets s₁ _ s₂
    have h₁ : s₀.Keeps s₁ := keeps_runTask hs
    have h₂ : s₀.Keeps s₂ := keeps_fset (keeps_rec h₁)
    split
    · exact h₁
    · extract_lets s₃ s₄
      have h₃ : s₀.Keeps s₃ := keeps_rec h₂
      have h₄ : s₀.Keeps s₄ := by
        unfold s₄
        split
        · exact keeps_shipFast h₃
        · exact h₃
      exact keeps_runIntake (keeps_taskSamples h₄)
theorem keeps_settleFast (hs : s₀.Keeps s) : s₀.Keeps (settleFast s) := by
  unfold settleFast
  refine keeps_ite hs ?_
  extract_lets s₁
  have h₁ : s₀.Keeps s₁ := keeps_runTask hs
  exact keeps_ite (keeps_fastFinish h₁) h₁
theorem keeps_execMainTaskStart {t} (hs : s₀.Keeps s) : s₀.KeepsIn (execMainTaskStart t s) := by
  unfold execMainTaskStart
  extract_lets s₁
  have h₁ : s₀.Keeps s₁ := keeps_settleFast (keeps_at hs)
  exact keepsIn_next (keeps_ite h₁ (keeps_mainStart h₁))
theorem keeps_fastStart {go} (hs : s₀.Keeps s) : s₀.Keeps (fastStart s go) :=
  keeps_runIntake (keeps_startRead (keeps_setTask (keeps_rec hs)))
theorem keeps_preempt (hs : s₀.Keeps s) : s₀.Keeps (preempt s).2 := by
  unfold preempt
  extract_lets s₁
  have h₁ : s₀.Keeps s₁ := keeps_mainUpTo hs
  split
  · exact keeps_snd h₁
  · exact keeps_ite_snd (keeps_snd (keeps_rec h₁)) (keeps_snd h₁)
theorem keeps_fastOver (hs : s₀.Keeps s) : s₀.Keeps (fastOver s).2 := by
  unfold fastOver
  split
  · exact keeps_snd hs
  · exact keeps_ite_snd (keeps_snd (keeps_fastFinish (keeps_runTask hs)))
      (keeps_snd (keeps_overrun (keeps_taskSamples (keeps_rec hs))))
theorem keeps_execFastTaskStart {t} (hs : s₀.Keeps s) : s₀.KeepsIn (execFastTaskStart t s) := by
  unfold execFastTaskStart
  extract_lets s₁
  have h₁ : s₀.Keeps s₁ := keeps_settleFast (keeps_at hs)
  exact keepsIn_next (keeps_ite h₁ (keeps_fastStart (keeps_ite_snd (keeps_preempt h₁) (keeps_fastOver h₁))))
theorem keeps_execFastTaskEnd {t} (hs : s₀.Keeps s) : s₀.KeepsIn (execFastTaskEnd t s) :=
  keepsIn_next (keeps_settleFast (keeps_at hs))
theorem keeps_shipCut {r} (hs : s₀.Keeps s) : s₀.Keeps (shipCut s r) := by
  unfold shipCut
  split
  · exact hs
  · exact keeps_ite hs (keeps_rec (keeps_shipStates (keeps_drawFree hs)))
theorem keeps_execMainDeadline {t} (hs : s₀.Keeps s) : s₀.KeepsIn (execMainDeadline t s) := by
  unfold execMainDeadline
  extract_lets s₁ s₂
  have h₁ : s₀.Keeps s₁ := keeps_settleFast (keeps_at hs)
  have h₂ : s₀.Keeps s₂ := keeps_mainUpTo h₁
  refine keepsIn_next (keeps_ite h₁ ?_)
  split
  · exact keeps_ite h₂ (keeps_overrun (keeps_taskSamples (keeps_shipCut (keeps_rec h₂))))
  · exact keeps_ite h₂ (keeps_overrun (keeps_rec h₂))

/-! ### The functions of `StackCtl` -/

theorem keeps_seenPut {f} (hs : s₀.Keeps s) : s₀.Keeps (seenPut s f) := by
  unfold seenPut
  split
  · exact keeps_rec hs
  · exact hs
theorem keeps_beginEnum {cause} (hs : s₀.Keeps s) : s₀.Keeps (beginEnum s cause) :=
  keeps_rec (keeps_enterEnumerate hs)
theorem keeps_execEnumComplete {t} (hs : s₀.Keeps s) : s₀.KeepsIn (execEnumComplete t s) := by
  unfold execEnumComplete
  extract_lets s₁
  have h₁ : s₀.Keeps s₁ := keeps_at hs
  exact keepsIn_next (keeps_ite (keeps_setDev (keeps_rec h₁)) h₁)
theorem keeps_execEnumTimeout {t} (hs : s₀.Keeps s) : s₀.KeepsIn (execEnumTimeout t s) := by
  unfold execEnumTimeout
  extract_lets s₁
  have h₁ : s₀.Keeps s₁ := keeps_at hs
  exact keepsIn_next (keeps_ite h₁ (keeps_ite (keeps_setDev (keeps_rec h₁)) (keeps_setCause (keeps_rec h₁))))
theorem keeps_plantLevel {n b} (hs : s₀.Keeps s) : s₀.Keeps (plantLevel s n b) := keeps_poSet (keeps_rec hs)
theorem keeps_plantPulse {n len} (hs : s₀.Keeps s) : s₀.Keeps (plantPulse s n len) := keeps_poSet (keeps_rec hs)
theorem keeps_execPlantPulseEnd {t n} (hs : s₀.Keeps s) : s₀.KeepsIn (execPlantPulseEnd t n s) := by
  unfold execPlantPulseEnd
  extract_lets s₁
  have h₁ : s₀.Keeps s₁ := keeps_at hs
  exact keepsIn_next (keeps_ite h₁ (keeps_poSet (keeps_rec h₁)))
theorem keeps_breakerPulse {n} (hs : s₀.Keeps s) : s₀.Keeps (breakerPulse s n) := keeps_ite (keeps_plantPulse hs) hs
theorem keeps_stopBegin {cause} (hs : s₀.Keeps s) : s₀.Keeps (stopBegin s cause) := keeps_ite hs (keeps_rec hs)
theorem keeps_stopDone (hs : s₀.Keeps s) : s₀.Keeps (stopDone s) := keeps_causedDev (keeps_rec hs)
theorem keeps_execStopBreakerOpen {t} (hs : s₀.Keeps s) : s₀.KeepsIn (execStopBreakerOpen t s) := by
  unfold execStopBreakerOpen
  extract_lets s₁ _ _ s₂ _ s₃
  have h₁ : s₀.Keeps s₁ := keeps_at hs
  have h₂ : s₀.Keeps s₂ := keeps_breakerPulse h₁
  have h₃ : s₀.Keeps s₃ := keeps_rec h₂
  exact keepsIn_next (keeps_ite h₁ (keeps_ite (keeps_stopDone h₃) h₃))
theorem keeps_classDecide (hs : s₀.Keeps s) : s₀.Keeps (classDecide s) :=
  keeps_foldl (fun hu => keeps_sysPoint (keeps_rec hu)) hs
theorem keeps_slotAssign (hs : s₀.Keeps s) : s₀.Keeps (slotAssign s) :=
  keeps_foldl (fun hu => keeps_ite hu (keeps_rec hu)) hs
theorem keeps_wordsPut (hs : s₀.Keeps s) : s₀.Keeps (wordsPut s) := by
  unfold wordsPut
  refine keeps_foldl (fun hu => ?_) hs
  split
  exact keeps_foldl keeps_sysPoint hu
theorem keeps_stackPoints (hs : s₀.Keeps s) : s₀.Keeps (stackPoints s) := keeps_foldl keeps_sysPoint hs
theorem keeps_peersFollow (hs : s₀.Keeps s) : s₀.Keeps (peersFollow s) := keeps_rec hs
theorem keeps_execPitchEntry {t} (hs : s₀.Keeps s) : s₀.KeepsIn (execPitchEntry t s) := by
  unfold execPitchEntry
  extract_lets s₁ _ _ s₂ _ s₃ _ s₄ s₅
  have h₁ : s₀.Keeps s₁ := keeps_at hs
  have h₂ : s₀.Keeps s₂ := keeps_setDev (keeps_classReads h₁)
  have h₃ : s₀.Keeps s₃ := keeps_rec h₂
  have h₄ : s₀.Keeps s₄ := keeps_rec h₃
  have h₅ : s₀.Keeps s₅ := keeps_foldl (fun hu => keeps_sysPoint (keeps_rec hu)) h₄
  exact keepsIn_next (keeps_ite (keeps_ite (keeps_wordsPut h₅) h₄) h₁)
theorem keeps_pitchProgress (hs : s₀.Keeps s) : s₀.Keeps (pitchProgress s) := by
  unfold pitchProgress
  refine keeps_ite (keeps_ite (keeps_setDev hs) hs) ?_
  extract_lets _ s₁ s₂
  have h₁ : s₀.Keeps s₁ := keeps_ite (keeps_rec hs) hs
  have h₂ : s₀.Keeps s₂ := keeps_setDev h₁
  exact keeps_ite (keeps_ite (keeps_rec h₂) (keeps_rec h₂)) h₁
theorem keeps_execPrechargeTimeout {t} (hs : s₀.Keeps s) : s₀.KeepsIn (execPrechargeTimeout t s) := by
  unfold execPrechargeTimeout
  extract_lets s₁ s₂ _ _ s₃ _ s₄
  have h₁ : s₀.Keeps s₁ := keeps_at hs
  have h₂ : s₀.Keeps s₂ := keeps_classReads h₁
  have h₃ : s₀.Keeps s₃ := keeps_rec h₂
  have h₄ : s₀.Keeps s₄ := keeps_ite (keeps_rec h₃) h₃
  exact keepsIn_next (keeps_ite h₁ (keeps_ite (keeps_stopBegin h₄) h₄))
theorem keeps_execBreakerClose {t} (hs : s₀.Keeps s) : s₀.KeepsIn (execBreakerClose t s) := by
  unfold execBreakerClose
  extract_lets s₁ s₂ s₃
  have h₁ : s₀.Keeps s₁ := keeps_at hs
  have h₂ : s₀.Keeps s₂ := keeps_eccSlots h₁
  have h₃ : s₀.Keeps s₃ := keeps_breakerPulse h₂
  exact keepsIn_next (keeps_ite (keeps_ite (keeps_rec h₃) h₂) h₁)
theorem keeps_execBreakerConfirm {t closed} (hs : s₀.Keeps s) : s₀.KeepsIn (execBreakerConfirm t closed s) := by
  unfold execBreakerConfirm
  extract_lets s₁ _ s₂
  have h₁ : s₀.Keeps s₁ := keeps_at hs
  have h₂ : s₀.Keeps s₂ := keeps_rec h₁
  exact keepsIn_next (keeps_ite h₁ (keeps_ite h₂
    (keeps_ite (keeps_ite (keeps_rec h₂) h₂) (keeps_ite (keeps_stopDone h₂) (keeps_ite h₂ (keeps_rec h₂))))))
theorem keeps_execBreakerTimeout {t} (hs : s₀.Keeps s) : s₀.KeepsIn (execBreakerTimeout t s) := by
  unfold execBreakerTimeout
  extract_lets s₁ s₂
  have h₁ : s₀.Keeps s₁ := keeps_at hs
  have h₂ : s₀.Keeps s₂ := keeps_breakerPulse h₁
  exact keepsIn_next (keeps_ite h₁ (keeps_ite (keeps_stopBegin (keeps_rec h₂)) (keeps_ite (keeps_rec h₁) h₁)))
theorem keeps_execFillCutoff {t} (hs : s₀.Keeps s) : s₀.KeepsIn (execFillCutoff t s) := by
  unfold execFillCutoff
  extract_lets s₁
  have h₁ : s₀.Keeps s₁ := keeps_at hs
  exact keepsIn_next (keeps_ite (keeps_rec h₁) h₁)
theorem keeps_fillFirmware (hs : s₀.Keeps s) : s₀.Keeps (fillFirmware s) := by
  unfold fillFirmware
  extract_lets s₁ _ _ s₂ _ s₃ s₄ _ s₅ s₆ s₇
  have h₁ : s₀.Keeps s₁ := keeps_classReads hs
  have h₂ : s₀.Keeps s₂ := keeps_rec h₁
  have h₃ : s₀.Keeps s₃ := keeps_ite (keeps_rec h₂) h₂
  have h₄ : s₀.Keeps s₄ := keeps_cellWitness h₃
  have h₅ : s₀.Keeps s₅ := keeps_ite (keeps_classDecide h₄) h₄
  have h₆ : s₀.Keeps s₆ := keeps_pitchProgress h₅
  have h₇ : s₀.Keeps s₇ := keeps_ite (keeps_stopBegin h₆) h₆
  exact keeps_ite (keeps_stackPoints (keeps_wordsPut (keeps_slotAssign h₇))) h₇
theorem keeps_execFillClose {t} (hs : s₀.Keeps s) : s₀.KeepsIn (execFillClose t s) := by
  unfold execFillClose
  extract_lets s₁ _ s₂
  have h₁ : s₀.Keeps s₁ := keeps_at hs
  have h₂ : s₀.Keeps s₂ := keeps_fillClose (keeps_rec h₁)
  exact keepsIn_next (keeps_ite h₁ (keeps_ite (keeps_fillFirmware h₂) h₂))

/-! ### The functions of `TaskEnd` -/

theorem keeps_sendCmds (hs : s₀.Keeps s) : s₀.Keeps (sendCmds s) :=
  keeps_rec (keeps_foldl (fun hu => keeps_foldl keeps_sendOn hu) hs)
theorem keeps_sendXchk (hs : s₀.Keeps s) : s₀.Keeps (sendXchk s) :=
  keeps_foldl (fun hu => keeps_foldl keeps_sendOn hu) hs
theorem keeps_afterOutlet (hs : s₀.Keeps s) : s₀.Keeps (afterOutlet s) := by
  unfold afterOutlet
  extract_lets s₁ _ s₂
  have h₁ : s₀.Keeps s₁ := keeps_sendMirror hs
  have h₂ : s₀.Keeps s₂ := keeps_ite (keeps_syncCand (keeps_rec h₁)) h₁
  exact keeps_ite h₂ (keeps_ite (keeps_sendXchk (keeps_xchkOpen (keeps_sendCmds (keeps_xchkClose h₂))))
    (keeps_sendCmds h₂))
theorem keeps_execMainTaskEnd {t grid} (hs : s₀.Keeps s) : s₀.KeepsIn (execMainTaskEnd t grid s) := by
  unfold execMainTaskEnd
  extract_lets s₁ s₂ _ s₃
  have h₁ : s₀.Keeps s₁ := keeps_settleFast (keeps_at hs)
  have h₂ : s₀.Keeps s₂ := keeps_runTask h₁
  have h₃ : s₀.Keeps s₃ := keeps_rec h₂
  refine keepsIn_next (keeps_ite h₁ ?_)
  split
  · exact h₂
  · refine keeps_ite h₂ ?_
    extract_lets _ s₄ s₅ s₆
    have h₄ : s₀.Keeps s₄ := keeps_fsets h₃
    have h₅ : s₀.Keeps s₅ := by
      unfold s₅
      split
      · exact keeps_ite (keeps_shipStackRun h₄) (keeps_shipCell h₄)
      · exact h₄
    have h₆ : s₀.Keeps s₆ := keeps_taskSamples h₅
    exact keeps_ite (keeps_afterOutlet h₆) h₆

/-! ### The functions of `ConfigCheck` -/

theorem keeps_dirRewrite {g} (hs : s₀.Keeps s) : s₀.Keeps (dirRewrite s g) := keeps_ite (keeps_rec hs) (keeps_rec hs)

/-! ### The functions of `Boot` -/

theorem keeps_otpShow (hs : s₀.Keeps s) : s₀.Keeps (otpShow s) := keeps_fset (keeps_fsets hs)
theorem keeps_newChallenge (hs : s₀.Keeps s) : s₀.Keeps (newChallenge s) :=
  keeps_foldl (fun hu => keeps_fset (keeps_drawFree hu)) hs
theorem keeps_otpPush {l} (hs : s₀.Keeps s) : s₀.Keeps (otpPush s l) := keeps_otpShow (keeps_rec hs)
theorem keeps_otpLock (hs : s₀.Keeps s) : s₀.Keeps (otpLock s) := keeps_otpPush hs
theorem keeps_execOtpLoadDone {t} (hs : s₀.Keeps s) : s₀.KeepsIn (execOtpLoadDone t s) := by
  unfold execOtpLoadDone
  extract_lets s₁
  have h₁ : s₀.Keeps s₁ := keeps_at hs
  exact keepsIn_next (keeps_ite (keeps_newChallenge (keeps_otpLock (keeps_scrubBegin (keeps_rec h₁)))) h₁)
theorem keeps_powerOn {l} (hs : s₀.Keeps s) : s₀.Keeps (powerOn s l) := keeps_busWrite hs
theorem keeps_fwWrite {e} (hs : s₀.Keeps s) : s₀.Keeps (fwWrite s e) := keeps_busWrite (keeps_fwSelect hs)
theorem keeps_laneSettings {l} (hs : s₀.Keeps s) : s₀.Keeps (laneSettings s l) := by
  unfold laneSettings
  split
  · exact hs
  · split
    · exact hs
    · exact keeps_fsets hs
theorem keeps_romPreset {l} (hs : s₀.Keeps s) : s₀.Keeps (romPreset s l) := keeps_fsets hs
theorem keeps_lanesUp {d} (hs : s₀.Keeps s) : s₀.Keeps (lanesUp s d) :=
  keeps_foldl (fun hu => keeps_ite hu (keeps_ite
    (keeps_ite (keeps_enterTrain (keeps_ite (keeps_romPreset hu) (keeps_laneSettings hu)))
    (keeps_ite (keeps_ite (keeps_romPreset hu) (keeps_laneSettings hu)) hu))
    (keeps_fwWrite (keeps_ite (keeps_romPreset hu) (keeps_laneSettings hu))))) hs
theorem keeps_cfgDomain {d} (hs : s₀.Keeps s) : s₀.Keeps (cfgDomain s d) := by
  unfold cfgDomain
  refine keeps_ite hs ?_
  extract_lets _ s₁ s₂ s₃
  have h₁ : s₀.Keeps s₁ := keeps_foldl (fun hu => keeps_ite (keeps_fwWrite hu) hu) hs
  have h₂ : s₀.Keeps s₂ := keeps_ite (keeps_foldl keeps_putEntry h₁) h₁
  have h₃ : s₀.Keeps s₃ := keeps_bankLoad h₂
  exact keeps_ite (keeps_swapRequest h₃) h₂
theorem keeps_leaveBoot (hs : s₀.Keeps s) : s₀.Keeps (leaveBoot s) :=
  keeps_ite hs (keeps_ite (keeps_setCause hs) (keeps_ite (keeps_beginEnum hs) (keeps_tryJoin hs)))
theorem keeps_domReady {d} (hs : s₀.Keeps s) : s₀.Keeps (domReady s d) := by
  unfold domReady
  refine keeps_ite ?_ hs
  extract_lets s₁ s₂
  have h₁ : s₀.Keeps s₁ := keeps_ite (keeps_cfgDomain hs) hs
  have h₂ : s₀.Keeps s₂ := keeps_ite (keeps_linkStatus (keeps_lanesUp h₁)) h₁
  exact keeps_tryReady (keeps_leaveBoot h₂)
theorem keeps_execDomainOnComplete {t d} (hs : s₀.Keeps s) : s₀.KeepsIn (execDomainOnComplete t d s) := by
  unfold execDomainOnComplete
  extract_lets s₁ s₂
  have h₁ : s₀.Keeps s₁ := keeps_at hs
  have h₂ : s₀.Keeps s₂ := keeps_domainOn h₁
  exact keepsIn_next (keeps_ite (keeps_ite h₂ (keeps_domReady h₂)) h₁)
theorem keeps_lanesDown {d} (hs : s₀.Keeps s) : s₀.Keeps (lanesDown s d) :=
  keeps_ite hs (keeps_foldl keeps_laneQuiet hs)
theorem keeps_execDomainOffComplete {t d} (hs : s₀.Keeps s) : s₀.KeepsIn (execDomainOffComplete t d s) := by
  unfold execDomainOffComplete
  extract_lets s₁ s₂ s₃ s₄
  have h₁ : s₀.Keeps s₁ := keeps_at hs
  have h₂ : s₀.Keeps s₂ := keeps_domClear (keeps_lanesDown h₁)
  have h₃ : s₀.Keeps s₃ := keeps_fset h₂
  have h₄ : s₀.Keeps s₄ := keeps_ite (keeps_linkStatus h₃) h₃
  exact keepsIn_next (keeps_ite (keeps_serveDomains (keeps_rec h₄)) h₁)
theorem keeps_execDomainSelftestDone {t d pass failed} (hs : s₀.Keeps s) :
    s₀.KeepsIn (execDomainSelftestDone t d pass failed s) := by
  unfold execDomainSelftestDone
  extract_lets s₁ s₂
  have h₁ : s₀.Keeps s₁ := keeps_at hs
  have h₂ : s₀.Keeps s₂ := keeps_domainTested h₁
  exact keepsIn_next (keeps_ite (keeps_ite (keeps_leaveBoot h₂) (keeps_domReady h₂)) h₁)
theorem keeps_cfgForce {slot i} (hs : s₀.Keeps s) : s₀.Keeps (cfgForce s slot i) := by
  unfold cfgForce
  extract_lets _ _ s₁ _ _ s₂ _ s₃ s₄ s₅ s₆ s₇ s₈ s₉ _ s₁₀ s₁₁
  have h₁ : s₀.Keeps s₁ := keeps_fset (keeps_rec hs)
  have h₂ : s₀.Keeps s₂ := keeps_rec h₁
  have h₃ : s₀.Keeps s₃ := keeps_otpPush h₂
  have h₄ : s₀.Keeps s₄ := keeps_fset h₃
  have h₅ : s₀.Keeps s₅ := keeps_foldl keeps_cfgDomain h₄
  have h₆ : s₀.Keeps s₆ := keeps_startFree h₅
  have h₇ : s₀.Keeps s₇ := keeps_foldl keeps_laneSettings h₆
  have h₈ : s₀.Keeps s₈ := keeps_powerOn h₇
  have h₉ : s₀.Keeps s₉ := keeps_linkStatus (keeps_foldl keeps_lanesUp h₈)
  have h₁₀ : s₀.Keeps s₁₀ := keeps_foldl keeps_laneSettings h₆
  have h₁₁ : s₀.Keeps s₁₁ := keeps_retrainPorts h₁₀
  exact keeps_ite (keeps_leaveBoot h₉) (keeps_leaveBoot h₁₁)
theorem keeps_cfgNone (hs : s₀.Keeps s) : s₀.Keeps (cfgNone s) := by
  unfold cfgNone
  extract_lets s₁
  have h₁ : s₀.Keeps s₁ := keeps_setCause hs
  exact keeps_ite h₁ (keeps_tryJoin h₁)
theorem keeps_execConfigSlotCheck {t} (hs : s₀.Keeps s) : s₀.KeepsIn (execConfigSlotCheck t s) := by
  unfold execConfigSlotCheck
  extract_lets s₁
  have h₁ : s₀.Keeps s₁ := keeps_at hs
  refine keepsIn_next (keeps_ite h₁ ?_)
  split
  · exact h₁
  · extract_lets y s₂
    have h₂ : s₀.Keeps s₂ := keeps_ite (keeps_fsets h₁) (keeps_fsets h₁)
    clear_value y
    split
    · exact keeps_cfgForce (keeps_rec h₂)
    · exact keeps_ite (keeps_cfgNone (keeps_rec h₂)) (keeps_rec h₂)
theorem keeps_startFirmware {slot src trial i} (hs : s₀.Keeps s) : s₀.Keeps (startFirmware s slot src trial i) := by
  unfold startFirmware
  extract_lets s₁ _ _ s₂ s₃ s₄ s₅
  have h₁ : s₀.Keeps s₁ := keeps_fsets hs
  have h₂ : s₀.Keeps s₂ := keeps_rec h₁
  have h₃ : s₀.Keeps s₃ := keeps_linkStatus (keeps_releaseDown h₂)
  have h₄ : s₀.Keeps s₄ := keeps_powerOn h₃
  have h₅ : s₀.Keeps s₅ := keeps_ite h₄ (keeps_foldl keeps_lanesUp h₄)
  exact keeps_ite (keeps_cfgNone h₅) h₅
theorem keeps_noFirmware (hs : s₀.Keeps s) : s₀.Keeps (noFirmware s) :=
  keeps_ite (keeps_rec hs) (keeps_linkStatus (keeps_foldl keeps_lanesUp (keeps_powerOn (keeps_rec hs))))
theorem keeps_bootNext {l} (hs : s₀.Keeps s) : s₀.Keeps (bootNext s l) := by
  unfold bootNext
  split
  · exact keeps_noFirmware hs
  · exact keeps_rec hs
theorem keeps_execPd0SelftestDone {t pass} (hs : s₀.Keeps s) : s₀.KeepsIn (execPd0SelftestDone t pass s) := by
  unfold execPd0SelftestDone
  extract_lets s₁ _ s₂
  have h₁ : s₀.Keeps s₁ := keeps_at hs
  have h₂ : s₀.Keeps s₂ := keeps_fset h₁
  exact keepsIn_next (keeps_ite h₁ (keeps_ite (keeps_rec h₁)
    (keeps_ite (keeps_rec h₂) (keeps_bootNext (keeps_rec h₁)))))
theorem keeps_execPd0SelftestRetry {t} (hs : s₀.Keeps s) : s₀.KeepsIn (execPd0SelftestRetry t s) := by
  unfold execPd0SelftestRetry
  extract_lets s₁
  have h₁ : s₀.Keeps s₁ := keeps_at hs
  exact keepsIn_next (keeps_ite (keeps_rec h₁) h₁)
theorem keeps_execBootSlotVerify {t} (hs : s₀.Keeps s) : s₀.KeepsIn (execBootSlotVerify t s) := by
  unfold execBootSlotVerify
  extract_lets s₁
  have h₁ : s₀.Keeps s₁ := keeps_at hs
  refine keepsIn_next (keeps_ite h₁ ?_)
  split
  · exact h₁
  · split
    extract_lets y
    clear_value y
    split
    · exact keeps_startFirmware h₁
    · exact keeps_bootNext (keeps_fset h₁)
theorem keeps_execKeyDerivationDone {t} (hs : s₀.Keeps s) : s₀.KeepsIn (execKeyDerivationDone t s) := by
  unfold execKeyDerivationDone
  extract_lets s₁ _ s₂
  have h₁ : s₀.Keeps s₁ := keeps_at hs
  have h₂ : s₀.Keeps s₂ := keeps_fset (keeps_rec h₁)
  exact keepsIn_next (keeps_ite (keeps_foldl keeps_fset h₂) h₁)
theorem keeps_execNetbootTimeout {t} (hs : s₀.Keeps s) : s₀.KeepsIn (execNetbootTimeout t s) := by
  unfold execNetbootTimeout
  extract_lets s₁
  have h₁ : s₀.Keeps s₁ := keeps_at hs
  refine keepsIn_next ?_
  split
  · exact keeps_ite (keeps_rec h₁) h₁
  · exact h₁

/-! ### The functions of `Netboot` -/

theorem keeps_rraMailbox {l h op mbx opcode seq status bytes} (hs : s₀.Keeps s) :
    s₀.Keeps (rraMailbox s l h op mbx opcode seq status bytes) :=
  keeps_foldl keeps_sendOn hs
theorem keeps_offerChunk {k q o} (hs : s₀.Keeps s) : s₀.Keeps (offerChunk s k q o) := by
  unfold offerChunk
  split
  · exact hs
  · exact keeps_rraMailbox hs
theorem keeps_offerStart {k q} (hs : s₀.Keeps s) : s₀.Keeps (offerStart s k q) := by
  unfold offerStart
  refine keeps_ite hs ?_
  split
  · exact keeps_ite hs (keeps_lnkErr hs)
  · exact keeps_offerChunk (keeps_rec hs)
theorem keeps_offerAnswer {c status} (hs : s₀.Keeps s) : s₀.Keeps (offerAnswer s c status) := by
  unfold offerAnswer
  split
  · exact hs
  · exact keeps_ite hs (keeps_ite (keeps_rec hs) (keeps_ite (keeps_rec hs) (keeps_offerChunk (keeps_rec hs))))
theorem keeps_execNetbootOfferRetry {t k q} (hs : s₀.Keeps s) : s₀.KeepsIn (execNetbootOfferRetry t k q s) :=
  keepsIn_next (keeps_offerStart (keeps_at hs))
theorem keeps_execCapsFrame {t l fr} (hs : s₀.Keeps s) : s₀.KeepsIn (execCapsFrame t l fr s) := by
  unfold execCapsFrame
  extract_lets s₁
  have h₁ : s₀.Keeps s₁ := keeps_capsRx (keeps_at hs)
  exact keepsIn_next (keeps_ite (keeps_offerStart h₁) h₁)
theorem keeps_execIdleFrame {t l rx fr} (hs : s₀.Keeps s) : s₀.KeepsIn (execIdleFrame t l rx fr s) := by
  unfold execIdleFrame
  extract_lets s₁
  have h₁ : s₀.Keeps s₁ := keeps_idleRx (keeps_at hs)
  exact keepsIn_next (keeps_ite (keeps_offerStart h₁) h₁)
theorem keeps_execTelFrame {t l fr} (hs : s₀.Keeps s) : s₀.KeepsIn (execTelFrame t l fr s) := by
  unfold execTelFrame
  split
  rename_i s₁ e₁
  have h₁ : s₀.Keeps s₁ := keeps_of_snd (keeps_rxCheck (keeps_at hs)) e₁
  refine keepsIn_next ?_
  split
  · refine keeps_ite h₁ ?_
    extract_lets s₂ s₃ s₄ s₅
    have h₂ : s₀.Keeps s₂ := keeps_seenPut h₁
    have h₃ : s₀.Keeps s₃ := keeps_telArrive h₂
    have h₄ : s₀.Keeps s₄ := keeps_voteReport h₃
    have h₅ : s₀.Keeps s₅ := by
      refine keeps_foldl (fun hu => ?_) h₄
      split
      · exact keeps_ite (keeps_sendOn hu) hu
      · exact hu
    exact keeps_ite (keeps_offerStart h₅) h₄
  · exact h₁

/-! ### The functions of `Mailbox` -/

theorem keeps_cmdJournal {k st} (hs : s₀.Keeps s) : s₀.Keeps (cmdJournal s k st) := by
  unfold cmdJournal
  extract_lets _ _ s₁
  have h₁ : s₀.Keeps s₁ := keeps_rec hs
  exact keeps_ite h₁ (keeps_ite (keeps_accErr h₁) (keeps_jnlAdd h₁))
theorem keeps_sendDatagram {n r op seq status bytes} (hs : s₀.Keeps s) :
    s₀.Keeps (sendDatagram s n r op seq status bytes) :=
  keeps_rec hs
theorem keeps_cmdAnswer {k st bytes} (hs : s₀.Keeps s) : s₀.Keeps (cmdAnswer s k st bytes) := by
  unfold cmdAnswer
  extract_lets _ _ _ s₁ _ _ s₂ s₃ _ _ s₄
  have h₁ : s₀.Keeps s₁ := keeps_cmdJournal hs
  have h₂ : s₀.Keeps s₂ := keeps_ite (keeps_rec h₁) h₁
  have h₃ : s₀.Keeps s₃ := keeps_ite (keeps_newChallenge h₂) h₂
  have h₄ : s₀.Keeps s₄ := keeps_fsets (keeps_eccSupPut keeps_mbxPut h₃)
  split
  · rename_i s₅ e₅
    have h₅ : s₀.Keeps s₅ := keeps_eccSupReset h₃ e₅
    exact h₅
  · exact keeps_ite (keeps_ite h₄ (keeps_sendDatagram h₄)) (keeps_ite (keeps_rraMailbox h₄) h₄)
theorem keeps_leaseTaken {k} (hs : s₀.Keeps s) : s₀.Keeps (leaseTaken s k).2 :=
  keeps_ite_snd (keeps_leaseOk hs) (keeps_snd hs)
theorem keeps_execMbxTake {t} (hs : s₀.Keeps s) : s₀.KeepsIn (execMbxTake t s) := by
  unfold execMbxTake
  extract_lets s₁
  have h₁ : s₀.Keeps s₁ := keeps_at hs
  refine keepsIn_next ?_
  split
  · exact h₁
  · extract_lets s₂
    have h₂ : s₀.Keeps s₂ := keeps_rec h₁
    exact keeps_ite (keeps_fset (keeps_rec (keeps_leaseTaken h₂))) (keeps_cmdAnswer (keeps_fset (keeps_rec h₂)))
theorem keeps_jnlHold {k} (hs : s₀.Keeps s) : s₀.Keeps (jnlHold s k) := keeps_ite (keeps_rec hs) hs
theorem keeps_serve {k op act} (hact : ∀ {u}, s₀.Keeps u → s₀.Keeps (act u)) (hs : s₀.Keeps s) :
    s₀.Keeps (serve s k op act) :=
  keeps_ite hs (keeps_ite (hact hs) (keeps_cmdAnswer hs))

/-! ### The functions of `MailboxOps` -/

theorem keeps_serveNow {t m n op act} (hact : ∀ {u x}, s₀.Keeps u → s₀.Keeps (act u x).2) (hs : s₀.Keeps s) :
    s₀.KeepsIn (serveNow t m n op act s) :=
  keepsIn_next (keeps_serve (fun hu => keeps_cmdAnswer (hact hu)) (keeps_at hs))
theorem keeps_execGetInfo {t m n} (hs : s₀.Keeps s) : s₀.KeepsIn (execGetInfo t m n s) := keeps_serveNow keeps_snd hs
theorem keeps_execGetStatus {t m n} (hs : s₀.Keeps s) : s₀.KeepsIn (execGetStatus t m n s) :=
  keeps_serveNow keeps_snd hs
theorem keeps_execReset {t m n} (hs : s₀.Keeps s) : s₀.KeepsIn (execReset t m n s) :=
  keeps_serveNow (fun hu => keeps_snd (keeps_rec hu)) hs
theorem keeps_execImageLoad {t m n img} (hs : s₀.Keeps s) : s₀.KeepsIn (execImageLoad t m n img s) := by
  unfold execImageLoad
  refine keepsIn_next (keeps_serve (fun hu => ?_) (keeps_at hs))
  extract_lets _ _ _ _ _ s₁
  have h₁ : s₀.Keeps s₁ := keeps_rec hu
  exact keeps_ite (keeps_jnlHold h₁) (keeps_cmdAnswer h₁)
theorem keeps_execImageLoadVerifyDone {t} (hs : s₀.Keeps s) : s₀.KeepsIn (execImageLoadVerifyDone t s) := by
  unfold execImageLoadVerifyDone
  extract_lets s₁
  have h₁ : s₀.Keeps s₁ := keeps_at hs
  refine keepsIn_next ?_
  split
  · exact h₁
  · refine keeps_ite h₁ ?_
    extract_lets _ y
    clear_value y
    split
    · exact keeps_startFirmware (keeps_cmdAnswer h₁)
    · exact keeps_cmdAnswer (keeps_fset (keeps_rec h₁))
theorem keeps_slotEmpty {slot} (hs : s₀.Keeps s) : s₀.Keeps (slotEmpty s slot) := keeps_rec (keeps_dirRewrite hs)
theorem keeps_slotCommit {slot total} (hs : s₀.Keeps s) : s₀.Keeps (slotCommit s slot total) := keeps_dirRewrite hs
theorem keeps_execImageWrite {t m n img} (hs : s₀.Keeps s) : s₀.KeepsIn (execImageWrite t m n img s) := by
  unfold execImageWrite
  refine keepsIn_next (keeps_serve (fun hu => ?_) (keeps_at hs))
  extract_lets _ s₁ _ _ _ s₂
  have h₁ : s₀.Keeps s₁ := keeps_ite (keeps_slotEmpty hu) hu
  have h₂ : s₀.Keeps s₂ := keeps_rec h₁
  exact keeps_ite (keeps_cmdAnswer (keeps_rec h₁)) (keeps_cmdAnswer (keeps_ite (keeps_slotCommit h₂) h₂))
theorem keeps_execImageWriteAbandon {t} (hs : s₀.Keeps s) : s₀.KeepsIn (execImageWriteAbandon t s) := by
  unfold execImageWriteAbandon
  extract_lets s₁
  have h₁ : s₀.Keeps s₁ := keeps_at hs
  refine keepsIn_next ?_
  split
  · exact keeps_ite (keeps_rec h₁) h₁
  · exact h₁
theorem keeps_confirmDone {k} (hs : s₀.Keeps s) : s₀.Keeps (confirmDone s k) :=
  keeps_cmdAnswer (keeps_fset (keeps_dirRewrite hs))
theorem keeps_execImageConfirm {t m n} (hs : s₀.Keeps s) : s₀.KeepsIn (execImageConfirm t m n s) := by
  unfold execImageConfirm
  refine keepsIn_next (keeps_serve (fun hu => ?_) (keeps_at hs))
  extract_lets _ s₁
  have h₁ : s₀.Keeps s₁ := keeps_otpPush hu
  exact keeps_ite (keeps_confirmDone h₁) (keeps_jnlHold (keeps_rec h₁))
theorem keeps_execOtpStepDone {t} (hs : s₀.Keeps s) : s₀.KeepsIn (execOtpStepDone t s) := by
  unfold execOtpStepDone
  extract_lets s₁
  have h₁ : s₀.Keeps s₁ := keeps_at hs
  refine keepsIn_next ?_
  split
  · exact h₁
  · extract_lets s₂
    have h₂ : s₀.Keeps s₂ := keeps_otpLock (keeps_rec h₁)
    split
    · exact keeps_confirmDone (keeps_rec h₂)
    · exact h₂
theorem keeps_pointCmd {p v} (hs : s₀.Keeps s) : s₀.Keeps (pointCmd s p v) := by
  unfold pointCmd
  split
  · exact hs
  · exact keeps_ite hs (keeps_ite (keeps_ptStore hs) (keeps_ptWrite hs))
theorem keeps_pointBytes {p} (hs : s₀.Keeps s) : s₀.Keeps (pointBytes s p).2 := by
  unfold pointBytes
  split
  · exact keeps_snd hs
  · exact keeps_snd (keeps_eccRead (keeps_eccRead hs))
theorem keeps_execPointRead {t m n} (hs : s₀.Keeps s) : s₀.KeepsIn (execPointRead t m n s) :=
  keeps_serveNow (fun hu => keeps_foldl_snd (fun hv => keeps_snd (keeps_pointBytes hv)) (keeps_snd hu)) hs
theorem keeps_execCapArm {t m n} (hs : s₀.Keeps s) : s₀.KeepsIn (execCapArm t m n s) :=
  keeps_serveNow (fun hu => keeps_snd (keeps_capArm hu)) hs
theorem keeps_execCapDisarm {t m n} (hs : s₀.Keeps s) : s₀.KeepsIn (execCapDisarm t m n s) :=
  keeps_serveNow (fun hu => keeps_snd (keeps_capDisarm hu)) hs
theorem keeps_execCapStatus {t m n} (hs : s₀.Keeps s) : s₀.KeepsIn (execCapStatus t m n s) :=
  keeps_serveNow (fun hu => keeps_snd (keeps_rec (keeps_capSettle hu))) hs
theorem keeps_execTraceStart {t m n} (hs : s₀.Keeps s) : s₀.KeepsIn (execTraceStart t m n s) :=
  keeps_serveNow (fun hu => keeps_snd (keeps_trstartEff hu)) hs
theorem keeps_execTraceRead {t m n} (hs : s₀.Keeps s) : s₀.KeepsIn (execTraceRead t m n s) :=
  keeps_serveNow (fun hu => keeps_foldl_snd
    (fun hv => keeps_snd (keeps_ite_snd (keeps_snd hv) (keeps_snd (keeps_eccRead hv)))) (keeps_snd hu)) hs
theorem keeps_execBillLoad {t m n} (hs : s₀.Keeps s) : s₀.KeepsIn (execBillLoad t m n s) :=
  keeps_serveNow (fun hu => keeps_snd (keeps_foldl keeps_bankPut hu)) hs
theorem keeps_execLeaseStatus {t m n} (hs : s₀.Keeps s) : s₀.KeepsIn (execLeaseStatus t m n s) :=
  keeps_serveNow keeps_snd hs
theorem keeps_execStackWithdraw {t m n} (hs : s₀.Keeps s) : s₀.KeepsIn (execStackWithdraw t m n s) :=
  keeps_serveNow (fun hu => keeps_snd (keeps_stackSafe hu)) hs
theorem keeps_execJournalRead {t m n} (hs : s₀.Keeps s) : s₀.KeepsIn (execJournalRead t m n s) :=
  keeps_serveNow (fun hu => keeps_foldl_snd (fun hv => keeps_snd (keeps_eccRead hv)) (keeps_snd hu)) hs
theorem keeps_execJournalFree {t m n} (hs : s₀.Keeps s) : s₀.KeepsIn (execJournalFree t m n s) :=
  keeps_serveNow (fun hu => keeps_snd (keeps_jnlFree hu)) hs
theorem keeps_execAttest {t m n} (hs : s₀.Keeps s) : s₀.KeepsIn (execAttest t m n s) :=
  keeps_serveNow (fun hu => keeps_snd (keeps_drawFree (keeps_drawFree (keeps_drawFree hu)))) hs
theorem keeps_debugLock (hs : s₀.Keeps s) : s₀.Keeps (debugLock s) := keeps_fset (keeps_rec hs)
theorem keeps_execDebugUnlock {t m n sigOk} (hs : s₀.Keeps s) : s₀.KeepsIn (execDebugUnlock t m n sigOk s) :=
  keepsIn_next (keeps_serve (fun hu => keeps_ite (keeps_cmdAnswer (keeps_fset (keeps_rec hu)))
    (keeps_cmdAnswer (keeps_rec hu))) (keeps_at hs))
theorem keeps_execDebugUnlockExpiry {t} (hs : s₀.Keeps s) : s₀.KeepsIn (execDebugUnlockExpiry t s) := by
  unfold execDebugUnlockExpiry
  extract_lets s₁
  have h₁ : s₀.Keeps s₁ := keeps_at hs
  refine keepsIn_next ?_
  split
  · exact keeps_ite (keeps_debugLock h₁) h₁
  · exact h₁
theorem keeps_execDebugLockoutEnd {t} (hs : s₀.Keeps s) : s₀.KeepsIn (execDebugLockoutEnd t s) := by
  unfold execDebugLockoutEnd
  extract_lets s₁
  have h₁ : s₀.Keeps s₁ := keeps_at hs
  refine keepsIn_next ?_
  split
  · exact keeps_ite (keeps_rec h₁) h₁
  · exact h₁

/-! ### The functions of `Rack` -/

theorem keeps_toCell {c mbx op seq bytes} (hs : s₀.Keeps s) : s₀.Keeps (toCell s c mbx op seq bytes) :=
  keeps_rraMailbox hs
theorem keeps_remoteAdd {r} (hs : s₀.Keeps s) : s₀.Keeps (remoteAdd s r) := keeps_rec hs
theorem keeps_remoteDrop {k} (hs : s₀.Keeps s) : s₀.Keeps (remoteDrop s k) := keeps_rec hs
theorem keeps_remotePut {r} (hs : s₀.Keeps s) : s₀.Keeps (remotePut s r) := keeps_rec hs
theorem keeps_dupAnswer {k st} (hs : s₀.Keeps s) : s₀.Keeps (dupAnswer s k st) := by
  unfold dupAnswer
  extract_lets s₁
  have h₁ : s₀.Keeps s₁ := keeps_ite (keeps_rackPeers hs) hs
  exact keeps_ite (keeps_rec h₁) h₁
theorem keeps_remoteAnswer {r st bytes} (hs : s₀.Keeps s) : s₀.Keeps (remoteAnswer s r st bytes) := by
  unfold remoteAnswer
  extract_lets s₁ _ s₂
  have h₁ : s₀.Keeps s₁ := keeps_remoteDrop hs
  have h₂ : s₀.Keeps s₂ := keeps_ite (keeps_rec h₁) h₁
  exact keeps_ite h₂ (keeps_cmdAnswer (keeps_dupAnswer h₂))
theorem keeps_execRemoteReplyTimeout {t} (hs : s₀.Keeps s) : s₀.KeepsIn (execRemoteReplyTimeout t s) :=
  keepsIn_next (keeps_foldl keeps_remoteAnswer (keeps_at hs))
theorem keeps_pushChunk {r} (hs : s₀.Keeps s) : s₀.Keeps (pushChunk s r) := by
  unfold pushChunk
  split
  · exact hs
  · exact keeps_toCell (keeps_eccSlots hs)
theorem keeps_pushAnswer {r st} (hs : s₀.Keeps s) : s₀.Keeps (pushAnswer s r st) := by
  unfold pushAnswer
  refine keeps_ite (keeps_remoteAnswer hs) (keeps_ite (keeps_pushChunk (keeps_remotePut hs)) ?_)
  extract_lets _ s₁ _ s₂ _ s₃
  have h₁ : s₀.Keeps s₁ := keeps_ite (keeps_toCell hs) hs
  have h₂ : s₀.Keeps s₂ := keeps_ite (keeps_rec h₁) h₁
  have h₃ : s₀.Keeps s₃ := keeps_ite h₂ (keeps_rec h₂)
  exact keeps_remoteAnswer h₃
theorem keeps_cellWrites {r far} (hs : s₀.Keeps s) : s₀.Keeps (cellWrites s r far) := by
  unfold cellWrites
  extract_lets _ s₁
  have h₁ : s₀.Keeps s₁ := keeps_ite hs (keeps_foldl keeps_toCell hs)
  split
  · exact keeps_remoteAdd h₁
  · exact h₁
theorem keeps_contactorSet {mask levels pulse} (hs : s₀.Keeps s) : s₀.Keeps (contactorSet s mask levels pulse) :=
  keeps_foldl (fun hu => keeps_ite (keeps_plantLevel hu) (keeps_poSet (keeps_rec hu))) hs
theorem keeps_rackEffect {r} (hs : s₀.Keeps s) : s₀.Keeps (rackEffect s r) := by
  unfold rackEffect
  refine keeps_ite ?_ (keeps_ite ?_ (keeps_ite (keeps_foldl keeps_pointCmd hs)
    (keeps_ite ?_ (keeps_ite ?_ (keeps_ite (keeps_contactorSet hs) (keeps_ite ?_ (keeps_ite ?_ hs)))))))
  · extract_lets _ s₁
    have h₁ : s₀.Keeps s₁ := keeps_rec hs
    exact keeps_ite (keeps_rec h₁) h₁
  · extract_lets _ s₂
    have h₂ : s₀.Keeps s₂ := keeps_rec hs
    exact keeps_ite (keeps_stackSafe h₂) (keeps_ite (keeps_stopBegin h₂) h₂)
  · split
    extract_lets s₃
    have h₃ : s₀.Keeps s₃ := keeps_foldl keeps_pointCmd hs
    exact keeps_ite h₃ (keeps_cellWrites h₃)
  · extract_lets _ _ _ s₄
    have h₄ : s₀.Keeps s₄ := keeps_ite (keeps_rec hs) hs
    exact keeps_ite (keeps_rec h₄) h₄
  · extract_lets _ _ s₅
    have h₅ : s₀.Keeps s₅ := keeps_rec hs
    exact keeps_ite (keeps_pushChunk (keeps_remoteAdd h₅)) (keeps_ite (keeps_remoteAdd h₅) h₅)
  · extract_lets _ s₆
    have h₆ : s₀.Keeps s₆ := keeps_ite (keeps_rec hs) hs
    exact keeps_ite (keeps_rec h₆) h₆
theorem keeps_dupPut {r st} (hs : s₀.Keeps s) : s₀.Keeps (dupPut s r st) := keeps_ite (keeps_rec hs) hs
theorem keeps_answerKey {key st} (hs : s₀.Keeps s) : s₀.Keeps (answerKey s key st) := by
  unfold answerKey
  split
  · exact keeps_cmdAnswer (keeps_dupAnswer hs)
  · exact hs
theorem keeps_rackSend {r} (hs : s₀.Keeps s) : s₀.Keeps (rackSend s r) := keeps_foldl keeps_rackPeers hs
theorem keeps_rackAnswer (hs : s₀.Keeps s) : s₀.Keeps (rackAnswer s) := by
  unfold rackAnswer
  refine keeps_foldl (fun hu => ?_) hs
  extract_lets _ _ _ s₁
  have h₁ : s₀.Keeps s₁ := keeps_rec hu
  exact keeps_ite (keeps_answerKey h₁) h₁
theorem keeps_rackCommand {k cyc} (hs : s₀.Keeps s) : s₀.Keeps (rackCommand s k cyc) := by
  unfold rackCommand
  extract_lets _ _ _ _ _ _ _ _ _ _ s₁
  have h₁ : s₀.Keeps s₁ := keeps_rec hs
  exact keeps_ite (keeps_answerKey (keeps_rec h₁)) h₁
theorem keeps_commandRx {p src mbx seq op len apply last off bytes} (hs : s₀.Keeps s) :
    s₀.Keeps (commandRx s p src mbx seq op len apply last off bytes) := by
  unfold commandRx
  refine keeps_ite hs (keeps_ite (keeps_rec hs)
    (keeps_ite ?_ (keeps_rackAnswer (keeps_rackPeers (keeps_dupPut (keeps_rec hs))))))
  extract_lets _ s₁
  have h₁ : s₀.Keeps s₁ := keeps_rec hs
  exact keeps_ite (keeps_swapRequest h₁) h₁
theorem keeps_rackDrop {r} (hs : s₀.Keeps s) : s₀.Keeps (rackDrop s r) := keeps_rec hs
theorem keeps_rackVoid {r} (hs : s₀.Keeps s) : s₀.Keeps (rackVoid s r) := by
  unfold rackVoid
  extract_lets s₁ s₂ _ s₃
  have h₁ : s₀.Keeps s₁ := keeps_rackDrop hs
  have h₂ : s₀.Keeps s₂ := keeps_ite (keeps_dupPut h₁) h₁
  have h₃ : s₀.Keeps s₃ := keeps_ite (keeps_fset (keeps_rec h₂)) h₂
  exact keeps_answerKey h₃
theorem keeps_rackFailed {p src mbx seq status} (hs : s₀.Keeps s) : s₀.Keeps (rackFailed s p src mbx seq status) := by
  unfold rackFailed
  extract_lets s₁
  have h₁ : s₀.Keeps s₁ := keeps_foldl keeps_rackVoid hs
  split
  exact keeps_ite (keeps_rec h₁) h₁
theorem keeps_ackRx {p src mbx seq status} (hs : s₀.Keeps s) : s₀.Keeps (ackRx s p src mbx seq status) := by
  unfold ackRx
  extract_lets _ _ s₁
  have h₁ : s₀.Keeps s₁ := keeps_rec hs
  exact keeps_rackAnswer (keeps_ite (keeps_rackFailed h₁) h₁)
theorem keeps_rackApply (hs : s₀.Keeps s) : s₀.Keeps (rackApply s) :=
  keeps_foldl (fun hu => keeps_ite (keeps_rackEffect (keeps_rackDrop hu)) (keeps_rackVoid hu)) (keeps_rackAnswer hs)
theorem keeps_rackSendDue (hs : s₀.Keeps s) : s₀.Keeps (rackSendDue s) := keeps_foldl keeps_rackSend hs
theorem keeps_execLeaseRackTimeout {t} (hs : s₀.Keeps s) : s₀.KeepsIn (execLeaseRackTimeout t s) :=
  keepsIn_next (keeps_foldl keeps_rackVoid (keeps_at hs))
theorem keeps_execBankCheckComplete {t} (hs : s₀.Keeps s) : s₀.KeepsIn (execBankCheckComplete t s) := by
  unfold execBankCheckComplete
  extract_lets s₁
  have h₁ : s₀.Keeps s₁ := keeps_at hs
  refine keepsIn_next ?_
  split
  · exact h₁
  · refine keeps_ite h₁ ?_
    split
    rename_i s₂ e₂
    have h₂ : s₀.Keeps s₂ := keeps_of_snd (keeps_swapChecked h₁) e₂
    split
    · exact keeps_ite (keeps_rackCommand (keeps_rec h₂)) (keeps_cmdAnswer h₂)
    · refine keeps_ite ?_ h₂
      extract_lets _ _ _ s₃ s₄
      have h₃ : s₀.Keeps s₃ := keeps_rec h₂
      have h₄ : s₀.Keeps s₄ := by
        unfold s₄
        split
        · exact keeps_dupPut h₃
        · unfold s₃
          exact keeps_rec h₂
      exact keeps_rackAnswer (keeps_rackPeers h₄)
    · exact h₂
theorem keeps_execHandoverTimeout {t} (hs : s₀.Keeps s) : s₀.KeepsIn (execHandoverTimeout t s) := by
  unfold execHandoverTimeout
  extract_lets s₁
  have h₁ : s₀.Keeps s₁ := keeps_at hs
  refine keepsIn_next ?_
  split
  · exact keeps_ite (keeps_answerKey (keeps_rec h₁)) h₁
  · exact h₁
theorem keeps_handSeen (hs : s₀.Keeps s) : s₀.Keeps (handSeen s) := by
  unfold handSeen
  split
  · exact keeps_ite (keeps_answerKey (keeps_rec hs)) hs
  · exact hs
theorem keeps_rackNow {t m n op} (hs : s₀.Keeps s) : s₀.KeepsIn (rackNow t m n op s) :=
  keepsIn_next (keeps_serve (fun hu => keeps_jnlHold (keeps_rackCommand hu)) (keeps_at hs))
theorem keeps_execStart {t m n} (hs : s₀.Keeps s) : s₀.KeepsIn (execStart t m n s) := keeps_rackNow hs
theorem keeps_execStop {t m n} (hs : s₀.Keeps s) : s₀.KeepsIn (execStop t m n s) := keeps_rackNow hs
theorem keeps_execCellBypass {t m n} (hs : s₀.Keeps s) : s₀.KeepsIn (execCellBypass t m n s) := keeps_rackNow hs
theorem keeps_execContactor {t m n} (hs : s₀.Keeps s) : s₀.KeepsIn (execContactor t m n s) := keeps_rackNow hs
theorem keeps_execCellImagePush {t m n} (hs : s₀.Keeps s) : s₀.KeepsIn (execCellImagePush t m n s) := keeps_rackNow hs
theorem keeps_execLeaseHandover {t m n} (hs : s₀.Keeps s) : s₀.KeepsIn (execLeaseHandover t m n s) := keeps_rackNow hs
theorem keeps_execSetRef {t m n} (hs : s₀.Keeps s) : s₀.KeepsIn (execSetRef t m n s) :=
  keepsIn_next (keeps_serve (fun hu => keeps_jnlHold (keeps_rackCommand hu)) (keeps_at hs))
theorem keeps_execPointWrite {t m n} (hs : s₀.Keeps s) : s₀.KeepsIn (execPointWrite t m n s) :=
  keepsIn_next (keeps_serve (fun hu => keeps_ite (keeps_jnlHold (keeps_rackCommand hu))
    (keeps_cmdAnswer (keeps_foldl keeps_pointCmd hu))) (keeps_at hs))
theorem keeps_execBillSwap {t m n} (hs : s₀.Keeps s) : s₀.KeepsIn (execBillSwap t m n s) :=
  keepsIn_next (keeps_serve (fun hu => keeps_jnlHold (keeps_swapRequest hu)) (keeps_at hs))
theorem keeps_execCapRead {t m n} (hs : s₀.Keeps s) : s₀.KeepsIn (execCapRead t m n s) :=
  keepsIn_next (keeps_serve (fun hu => keeps_ite (keeps_jnlHold (keeps_remoteAdd (keeps_toCell hu)))
    (keeps_cmdAnswer (keeps_capRead hu))) (keeps_at hs))
theorem keeps_execForward {t m n} (hs : s₀.Keeps s) : s₀.KeepsIn (execForward t m n s) := by
  unfold execForward
  refine keepsIn_next (keeps_serve (fun hu => ?_) (keeps_at hs))
  extract_lets
  split
  · exact keeps_cmdAnswer hu
  · exact keeps_jnlHold (keeps_remoteAdd (keeps_rraMailbox hu))
theorem keeps_remoteRx {d mbx opcode seq status len off last bytes} (hs : s₀.Keeps s) :
    s₀.Keeps (remoteRx s d mbx opcode seq status len off last bytes) := by
  unfold remoteRx
  split
  · exact hs
  · exact keeps_ite (keeps_remotePut hs) (keeps_ite (keeps_pushAnswer hs)
      (keeps_ite (keeps_remoteAnswer hs) (keeps_ite (keeps_remoteAnswer hs)
      (keeps_ite (keeps_remoteAnswer hs) (keeps_remotePut hs)))))

/-! ### The functions of `Rra` -/

theorem keeps_rackRec {l p cyc a} (hs : s₀.Keeps s) : s₀.Keeps (rackRec s l p cyc a) := by
  unfold rackRec
  split
  · exact keeps_syncRacked (keeps_pointsRx hs)
  · exact keeps_syncCand (keeps_handSeen (keeps_leaseRx hs))
  · exact keeps_commandRx hs
  · exact keeps_ackRx hs
  · exact keeps_satAdd hs
  · exact keeps_satAdd hs
theorem keeps_rackRecs {l p cyc rs} (hs : s₀.Keeps s) : s₀.Keeps (rackRecs s l p cyc rs) := by
  induction rs generalizing s with
  | nil => exact hs
  | cons r rs ih => exact keeps_ite (keeps_rackRec hs) (ih (keeps_rackRec hs))
theorem keeps_execRackFrame {t l fr} (hs : s₀.Keeps s) : s₀.KeepsIn (execRackFrame t l fr s) := by
  unfold execRackFrame
  split
  rename_i s₁ e₁
  have h₁ : s₀.Keeps s₁ := keeps_of_snd (keeps_rxCheck (keeps_at hs)) e₁
  refine keepsIn_next ?_
  split
  · exact keeps_ite (keeps_rackRecs h₁) h₁
  · exact h₁
theorem keeps_billSend {op a data} (hs : s₀.Keeps s) : s₀.Keeps (billSend s op a data) := by
  unfold billSend
  split
  · exact keeps_sendOn hs
  · exact hs
theorem keeps_billAsk (hs : s₀.Keeps s) : s₀.Keeps (billAsk s) := keeps_ite hs (keeps_billSend (keeps_rec hs))
theorem keeps_billAnswer {p op status a data} (hs : s₀.Keeps s) : s₀.Keeps (billAnswer s p op status a data) :=
  keeps_ite hs (keeps_ite (keeps_rec hs) (keeps_ite (keeps_billSend (keeps_rec hs))
    (keeps_ite (keeps_billSend (keeps_rec hs)) (keeps_ite (keeps_rec (keeps_rec hs)) hs))))
theorem keeps_execRejoinBillCheck {t crc} (hs : s₀.Keeps s) : s₀.KeepsIn (execRejoinBillCheck t crc s) := by
  unfold execRejoinBillCheck
  extract_lets s₁ _ _ s₂
  have h₁ : s₀.Keeps s₁ := keeps_at hs
  have h₂ : s₀.Keeps s₂ := keeps_rec h₁
  exact keepsIn_next (keeps_ite h₁ (keeps_ite (keeps_voteErr h₂) h₂))
theorem keeps_cellCfgTake {l epoch b} (hs : s₀.Keeps s) : s₀.Keeps (cellCfgTake s l epoch b).2 := by
  unfold cellCfgTake
  split
  rename_i s₁ e₁
  have h₁ : s₀.Keeps s₁ := keeps_of_snd (keeps_leaseOk hs) e₁
  refine keeps_ite_snd (keeps_snd hs) ?_
  extract_lets _ _ _ s₂ _ s₃ s₄ _ s₅
  have h₂ : s₀.Keeps s₂ := keeps_fset (keeps_rec h₁)
  have h₃ : s₀.Keeps s₃ := keeps_ite h₂ (keeps_rec h₂)
  have h₄ : s₀.Keeps s₄ := keeps_foldl keeps_cfgDomain h₃
  have h₅ : s₀.Keeps s₅ := keeps_foldl keeps_laneSettings h₄
  exact keeps_snd (keeps_cfgAccepted (keeps_retrainPorts h₅))
theorem keeps_cellCfgSend {c} (hs : s₀.Keeps s) : s₀.Keeps (cellCfgSend s c) := keeps_foldl keeps_sendOn hs
theorem keeps_rraAnswer {l op mbx count st w1 w2 data} (hs : s₀.Keeps s) :
    s₀.Keeps (rraAnswer s l op mbx count st w1 w2 data) :=
  keeps_sendOn hs
theorem keeps_rraUnknown {l h mbx count w1 w2} (hs : s₀.Keeps s) : s₀.Keeps (rraUnknown s l h mbx count w1 w2) :=
  keeps_sendOn hs
theorem keeps_rraAccess {l h write mbx count w1 w2 data} (hs : s₀.Keeps s) :
    s₀.Keeps (rraAccess s l h write mbx count w1 w2 data) := by
  unfold rraAccess
  extract_lets
  split
  rename_i s₁ e₁
  have h₁ : s₀.Keeps s₁ := keeps_of_snd (keeps_ite_snd (keeps_leaseOk hs) (keeps_snd hs)) e₁
  refine keeps_ite ?_ (keeps_ite (keeps_rraAnswer
    (keeps_foldl_snd (fun hu => keeps_snd (keeps_busWrite hu)) (keeps_snd h₁)))
    (keeps_rraAnswer (keeps_foldl_snd_snd (fun hu => keeps_snd_snd (keeps_busRead hu)) (keeps_snd_snd hs))))
  extract_lets _ _ _ s₂ s₃
  have h₂ : s₀.Keeps s₂ := by
    unfold s₂
    split
    · exact keeps_ite (keeps_recWrite hs) (keeps_recRefused hs)
    · exact hs
  have h₃ : s₀.Keeps s₃ := keeps_ite (keeps_foldl keeps_jnlRefused h₂) h₂
  exact keeps_rraAnswer h₃
theorem keeps_rraPost {l h mbx last w1 w2 data} (hs : s₀.Keeps s) : s₀.Keeps (rraPost s l h mbx last w1 w2 data) := by
  unfold rraPost
  refine keeps_ite (keeps_ite (keeps_sendOn (keeps_accErr hs)) (keeps_accErr hs))
    (keeps_ite (keeps_ite (keeps_sendOn hs) hs) ?_)
  extract_lets _ _ _ s₁ _ s₂ s₃
  have h₁ : s₀.Keeps s₁ := keeps_eccSupPut keeps_mbxPut hs
  have h₂ : s₀.Keeps s₂ := keeps_rec h₁
  have h₃ : s₀.Keeps s₃ := keeps_fsets h₂
  split
  · rename_i s₄ e₄
    have h₄ : s₀.Keeps s₄ := keeps_eccSupReset hs e₄
    exact h₄
  · exact keeps_ite (keeps_rec h₁) (keeps_ite (keeps_ite (keeps_sendOn h₂) h₂) (keeps_mbxPost (keeps_rec h₃)))
theorem keeps_execRraFrame {t l fr cfg} (hs : s₀.Keeps s) : s₀.KeepsIn (execRraFrame t l fr cfg s) := by
  unfold execRraFrame
  split
  rename_i s₁ e₁
  have h₁ : s₀.Keeps s₁ := keeps_of_snd (keeps_rxCheck (keeps_at hs)) e₁
  refine keepsIn_next ?_
  split
  · refine keeps_ite h₁ (keeps_ite (keeps_ite h₁
      (keeps_ite (keeps_ite (keeps_offerAnswer h₁) h₁) (keeps_remoteRx h₁)))
      (keeps_ite (keeps_ite (keeps_billAnswer h₁) h₁) (keeps_ite (keeps_rraUnknown h₁) (keeps_ite h₁ ?_))))
    split
    · exact keeps_ite h₁ (keeps_rraAnswer (keeps_cellCfgTake h₁))
    · exact keeps_ite (keeps_rraPost h₁) (keeps_rraAccess h₁)
  · exact h₁

/-! ### The functions of `Cycle` -/

theorem keeps_sendTime (hs : s₀.Keeps s) : s₀.Keeps (sendTime s) := keeps_foldl keeps_sendOn hs
theorem keeps_degrade (hs : s₀.Keeps s) : s₀.Keeps (degrade s) :=
  keeps_ite (keeps_ite hs (keeps_causedDev hs))
    (keeps_ite (keeps_ite (keeps_setDev hs) hs) (keeps_ite (keeps_setCause hs) hs))
theorem keeps_pushBoundary (hs : s₀.Keeps s) : s₀.Keeps (pushBoundary s) := by
  unfold pushBoundary
  extract_lets _ _ s₁ _ _ s₂
  have h₁ : s₀.Keeps s₁ := keeps_rec hs
  have h₂ : s₀.Keeps s₂ := keeps_rec h₁
  exact keeps_ite h₁ (keeps_foldl keeps_toCell h₂)
theorem keeps_cfgBoundary (hs : s₀.Keeps s) : s₀.Keeps (cfgBoundary s) := by
  unfold cfgBoundary
  extract_lets _ _ s₁
  have h₁ : s₀.Keeps s₁ := keeps_rec hs
  exact keeps_ite h₁ (keeps_foldl (fun hu => keeps_cellCfgSend (keeps_rec hu)) h₁)
theorem keeps_stackBoundary (hs : s₀.Keeps s) : s₀.Keeps (stackBoundary s) := by
  unfold stackBoundary
  extract_lets s₁ _ _ s₂ s₃ s₄ s₅ s₆
  have h₁ : s₀.Keeps s₁ := keeps_classReads hs
  have h₂ : s₀.Keeps s₂ := keeps_rec h₁
  have h₃ : s₀.Keeps s₃ := keeps_ite (keeps_fillBegin h₂) h₂
  have h₄ : s₀.Keeps s₄ := keeps_ite (keeps_syncRacked (keeps_mirrorApply (keeps_rackApply h₃))) h₃
  have h₅ : s₀.Keeps s₅ := keeps_mashBoundary h₄
  have h₆ : s₀.Keeps s₆ := keeps_rackRefresh
    (keeps_rackSendDue (keeps_billAsk (keeps_leaseBoundary (keeps_peersFollow h₅))))
  exact keeps_ite h₅ (keeps_cfgBoundary (keeps_pushBoundary (keeps_degrade (keeps_sendTime h₆))))
theorem keeps_sendTel (hs : s₀.Keeps s) : s₀.Keeps (sendTel s) :=
  keeps_rec (keeps_foldl keeps_sendOn (keeps_ite (keeps_publishReads hs) hs))
theorem keeps_cellBoundary (hs : s₀.Keeps s) : s₀.Keeps (cellBoundary s) := by
  unfold cellBoundary
  extract_lets s₁ _ s₂ s₃
  have h₁ : s₀.Keeps s₁ := keeps_ite (keeps_restoreDir hs) hs
  have h₂ : s₀.Keeps s₂ := keeps_rec h₁
  have h₃ : s₀.Keeps s₃ := keeps_mashBoundary h₂
  exact keeps_ite (keeps_sendTel h₃) h₃
theorem keeps_execCycleBoundary {t} (hs : s₀.Keeps s) : s₀.KeepsIn (execCycleBoundary t s) := by
  unfold execCycleBoundary
  extract_lets s₁ s₂
  have h₁ : s₀.Keeps s₁ := keeps_at hs
  have h₂ : s₀.Keeps s₂ := keeps_syncCycle h₁
  exact keepsIn_next (keeps_ite h₁ (keeps_ite (keeps_stackBoundary h₂) (keeps_cellBoundary h₂)))

/-! ### The functions of `Qspi` -/

theorem keeps_qspiRec {st} (hs : s₀.Keeps s) : s₀.Keeps (qspiRec s st) := keeps_ite (keeps_rec hs) hs
theorem keeps_qspiPut {w} (hs : s₀.Keeps s) : s₀.Keeps (qspiPut s w) := by
  unfold qspiPut
  refine keeps_ite hs ?_
  extract_lets
  split
  rename_i s₁ e₁
  have h₁ : s₀.Keeps s₁ := keeps_of_snd (keeps_busWrite hs) e₁
  exact keeps_ite h₁ (keeps_qspiRec (keeps_rec h₁))
theorem keeps_qspiWrite {a ws part} (hs : s₀.Keeps s) : s₀.Keeps (qspiWrite s a ws part) := by
  unfold qspiWrite
  extract_lets _ s₁ s₂
  have h₁ : s₀.Keeps s₁ := keeps_rec hs
  have h₂ : s₀.Keeps s₂ := keeps_foldl keeps_qspiPut h₁
  exact keeps_ite (keeps_rec h₂) h₂
theorem keeps_execQspiWrite {t a ws part} (hs : s₀.Keeps s) : s₀.KeepsIn (execQspiWrite t a ws part s) := by
  unfold execQspiWrite
  extract_lets s₁
  have h₁ : s₀.Keeps s₁ := keeps_at hs
  exact keepsIn_next (keeps_ite (keeps_qspiWrite h₁) h₁)
theorem keeps_execQspiQwrite {t a ws part} (hs : s₀.Keeps s) : s₀.KeepsIn (execQspiQwrite t a ws part s) := by
  unfold execQspiQwrite
  extract_lets s₁
  have h₁ : s₀.Keeps s₁ := keeps_at hs
  exact keepsIn_next (keeps_ite (keeps_qspiWrite h₁) h₁)
theorem keeps_qspiGet {n} (hs : s₀.Keeps s) : s₀.Keeps (qspiGet n s) := by
  induction n generalizing s with
  | zero => exact hs
  | succ n ih =>
    unfold qspiGet
    extract_lets a
    split
    rename_i st v t e
    have ht : s₀.Keeps t := keeps_of_snd_snd (keeps_busRead hs) e
    exact keeps_ite ht (ih (keeps_rec (keeps_ite ht (keeps_qspiRec ht))))
theorem keeps_qspiRead {a n part} (hs : s₀.Keeps s) : s₀.Keeps (qspiRead s a n part) := by
  unfold qspiRead
  extract_lets _ s₁ s₂
  have h₁ : s₀.Keeps s₁ := keeps_rec hs
  have h₂ : s₀.Keeps s₂ := keeps_qspiGet h₁
  exact keeps_ite (keeps_rec h₂) h₂
theorem keeps_execQspiRead {t a n part} (hs : s₀.Keeps s) : s₀.KeepsIn (execQspiRead t a n part s) := by
  unfold execQspiRead
  extract_lets s₁
  have h₁ : s₀.Keeps s₁ := keeps_at hs
  exact keepsIn_next (keeps_ite (keeps_qspiRead h₁) h₁)
theorem keeps_execQspiQread {t a n part} (hs : s₀.Keeps s) : s₀.KeepsIn (execQspiQread t a n part s) := by
  unfold execQspiQread
  extract_lets s₁
  have h₁ : s₀.Keeps s₁ := keeps_at hs
  exact keepsIn_next (keeps_ite (keeps_qspiRead h₁) h₁)
theorem keeps_execQspiRdsr {t} (hs : s₀.Keeps s) : s₀.KeepsIn (execQspiRdsr t s) := by
  unfold execQspiRdsr
  extract_lets s₁
  have h₁ : s₀.Keeps s₁ := keeps_at hs
  exact keepsIn_next (keeps_ite (keeps_rec h₁) h₁)
theorem keeps_execQspiReadTimeout {t a n} (hs : s₀.Keeps s) : s₀.KeepsIn (execQspiReadTimeout t a n s) := by
  unfold execQspiReadTimeout
  extract_lets s₁
  have h₁ : s₀.Keeps s₁ := keeps_at hs
  refine keepsIn_next (keeps_ite ?_ h₁)
  split
  rename_i s₂ e₂
  have h₂ : s₀.Keeps s₂ := keeps_of_snd (keeps_drawFree h₁) e₂
  exact keeps_qspiRec (keeps_rec (keeps_ite h₂ (keeps_busRead h₂)))
theorem keeps_execQspiCsRise {t} (hs : s₀.Keeps s) : s₀.KeepsIn (execQspiCsRise t s) := by
  unfold execQspiCsRise
  extract_lets s₁ s₂
  have h₁ : s₀.Keeps s₁ := keeps_at hs
  have h₂ : s₀.Keeps s₂ := keeps_ite h₁ (keeps_qspiRec h₁)
  exact keepsIn_next (keeps_rec h₂)
theorem keeps_execQspiUnknownInstruction {t} (hs : s₀.Keeps s) : s₀.KeepsIn (execQspiUnknownInstruction t s) := by
  unfold execQspiUnknownInstruction
  extract_lets s₁
  have h₁ : s₀.Keeps s₁ := keeps_at hs
  exact keepsIn_next (keeps_ite (keeps_rec h₁) h₁)

/-! ### The functions of `Ethernet` -/

theorem keeps_datagramPost {port src sport d} (hs : s₀.Keeps s) : s₀.Keeps (datagramPost s port src sport d) := by
  unfold datagramPost
  refine keeps_ite (keeps_sendDatagram hs) ?_
  split
  · exact keeps_sendDatagram hs
  · exact keeps_sendDatagram hs
  · refine keeps_ite (keeps_accErr hs) ?_
    extract_lets f₁ s₁
    have hf₁ {u} (hu : s₀.Keeps u) : s₀.Keeps (f₁ u) := keeps_mbxPut hu
    have h₁ : s₀.Keeps s₁ := keeps_fsets (keeps_eccSupPut hf₁ hs)
    split
    · rename_i s₂ e₂
      have h₂ : s₀.Keeps s₂ := keeps_eccSupReset hs e₂
      exact h₂
    · exact keeps_mbxPost (keeps_rec h₁)
theorem keeps_datagramRx {port src dst sport d} (hs : s₀.Keeps s) : s₀.Keeps (datagramRx s port src dst sport d) :=
  keeps_ite hs (keeps_ite (keeps_satAdd hs) (keeps_ite (keeps_satAdd hs) (keeps_ite hs (keeps_datagramPost hs))))
theorem keeps_execMailboxDatagram {t port src dst sport d} (hs : s₀.Keeps s) :
    s₀.KeepsIn (execMailboxDatagram t port src dst sport d s) := by
  unfold execMailboxDatagram
  extract_lets s₁
  have h₁ : s₀.Keeps s₁ := keeps_at hs
  exact keepsIn_next (keeps_ite (keeps_datagramRx h₁) h₁)
theorem keeps_execIpv4Fragment {t port src dst id hlen off last bytes} (hs : s₀.Keeps s) :
    s₀.KeepsIn (execIpv4Fragment t port src dst id hlen off last bytes s) := by
  unfold execIpv4Fragment
  extract_lets s₁ _ s₂ _ _ _ _ y _ _ _ s₃
  have h₁ : s₀.Keeps s₁ := keeps_at hs
  have h₂ : s₀.Keeps s₂ := keeps_rec h₁
  have h₃ : s₀.Keeps s₃ := keeps_rec h₂
  refine keepsIn_next (keeps_ite h₁ (keeps_ite (keeps_rec h₂) ?_))
  clear_value y
  split
  · exact keeps_ite (keeps_ite (keeps_datagramRx h₃) h₃) (keeps_rec h₂)
  · exact keeps_rec h₂
theorem keeps_execFragmentTimeout {t} (hs : s₀.Keeps s) : s₀.KeepsIn (execFragmentTimeout t s) :=
  keepsIn_next (keeps_rec (keeps_at hs))
theorem keeps_execArpRequest {t port target} (hs : s₀.Keeps s) : s₀.KeepsIn (execArpRequest t port target s) := by
  unfold execArpRequest
  extract_lets s₁
  have h₁ : s₀.Keeps s₁ := keeps_at hs
  exact keepsIn_next (keeps_ite (keeps_rec h₁) h₁)
theorem keeps_execIcmpEcho {t port src dst data} (hs : s₀.Keeps s) :
    s₀.KeepsIn (execIcmpEcho t port src dst data s) := by
  unfold execIcmpEcho
  extract_lets s₁
  have h₁ : s₀.Keeps s₁ := keeps_at hs
  exact keepsIn_next (keeps_ite (keeps_rec h₁) h₁)
theorem keeps_execGratuitousArpSecond {t} (hs : s₀.Keeps s) : s₀.KeepsIn (execGratuitousArpSecond t s) := by
  unfold execGratuitousArpSecond
  extract_lets s₁ _ s₂
  have h₁ : s₀.Keeps s₁ := keeps_at hs
  have h₂ : s₀.Keeps s₂ := keeps_rec h₁
  exact keepsIn_next (keeps_ite (keeps_rec h₂) h₁)

/-! ### The functions of `Jtag` -/

theorem keeps_execJtagUpdateIr {t code} (hs : s₀.Keeps s) : s₀.KeepsIn (execJtagUpdateIr t code s) := by
  unfold execJtagUpdateIr
  extract_lets s₁
  have h₁ : s₀.Keeps s₁ := keeps_at hs
  refine keepsIn_next (keeps_ite h₁ ?_)
  split
  · exact keeps_ite (keeps_rec h₁) (keeps_rec h₁)
  · exact keeps_rec h₁
theorem keeps_execDbgaccUpdate {t write a d} (hs : s₀.Keeps s) : s₀.KeepsIn (execDbgaccUpdate t write a d s) := by
  unfold execDbgaccUpdate
  extract_lets s₁
  have h₁ : s₀.Keeps s₁ := keeps_at hs
  exact keepsIn_next (keeps_ite h₁ (keeps_ite (keeps_rec (keeps_busWrite h₁)) (keeps_rec (keeps_busRead h₁))))
theorem keeps_execTapReset {t} (hs : s₀.Keeps s) : s₀.KeepsIn (execTapReset t s) :=
  keepsIn_next (keeps_rec (keeps_at hs))
theorem keeps_execExtestUpdate {t b} (hs : s₀.Keeps s) : s₀.KeepsIn (execExtestUpdate t b s) := by
  unfold execExtestUpdate
  extract_lets s₁
  have h₁ : s₀.Keeps s₁ := keeps_at hs
  exact keepsIn_next (keeps_ite h₁ (keeps_rec h₁))
theorem keeps_execDbgcoreHalt {t op} (hs : s₀.Keeps s) : s₀.KeepsIn (execDbgcoreHalt t op s) := by
  unfold execDbgcoreHalt
  extract_lets s₁
  have h₁ : s₀.Keeps s₁ := keeps_at hs
  refine keepsIn_next (keeps_ite h₁ ?_)
  split
  · exact keeps_rec h₁
  · exact h₁
  · exact keeps_rec h₁

/-! ### The functions of `PwmEvents` -/

theorem keeps_pairTick {p pos} (hs : s₀.Keeps s) : s₀.Keeps (pairTick s p pos) := by
  unfold pairTick
  refine keeps_ite ?_ hs
  extract_lets s₁
  have h₁ : s₀.Keeps s₁ := keeps_adcTick hs
  exact keeps_ite h₁ (keeps_rec h₁)
theorem keeps_pairEvents {p kind pos} (hs : s₀.Keeps s) : s₀.Keeps (pairEvents s p kind pos) :=
  keeps_ite (keeps_pairTick (keeps_adcPairEvent hs)) hs
theorem keeps_execPwmValley {t p} (hs : s₀.Keeps s) : s₀.KeepsIn (execPwmValley t p s) := by
  unfold execPwmValley
  extract_lets s₁
  have h₁ : s₀.Keeps s₁ := keeps_at hs
  exact keepsIn_next (keeps_ite (keeps_pairEvents (keeps_valleyWork h₁)) h₁)
theorem keeps_execPwmPeak {t p} (hs : s₀.Keeps s) : s₀.KeepsIn (execPwmPeak t p s) := by
  unfold execPwmPeak
  extract_lets s₁
  have h₁ : s₀.Keeps s₁ := keeps_at hs
  exact keepsIn_next (keeps_ite (keeps_pairEvents (keeps_peakWork h₁)) h₁)
theorem keeps_execPwmHalfCount {t p} (hs : s₀.Keeps s) : s₀.KeepsIn (execPwmHalfCount t p s) := by
  unfold execPwmHalfCount
  extract_lets s₁
  have h₁ : s₀.Keeps s₁ := keeps_at hs
  exact keepsIn_next (keeps_ite (keeps_pairEvents h₁) (keeps_ite (keeps_pairEvents h₁) h₁))
theorem keeps_replicaJudge {d off} (hs : s₀.Keeps s) : s₀.Keeps (replicaJudge s d off) :=
  keeps_ite (keeps_foldl (fun hu => keeps_ite (keeps_pwmMod hu) hu)
    (keeps_rec (keeps_ite (keeps_foldl keeps_passOver hs) hs))) (keeps_rec hs)
theorem keeps_execReplicaCheck {t d diff} (hs : s₀.Keeps s) : s₀.KeepsIn (execReplicaCheck t d diff s) := by
  unfold execReplicaCheck
  extract_lets s₁
  have h₁ : s₀.Keeps s₁ := keeps_at hs
  exact keepsIn_next (keeps_ite h₁ (keeps_replicaJudge (keeps_rec h₁)))

/-! ### A command and a step -/

theorem keeps_exec {i} (hs : s₀.Keeps s) : s₀.KeepsIn (exec i s) := by
  cases i with
  | supplyRelease => exact keeps_execSupplyRelease hs
  | brownOut => exact keeps_execBrownOut hs
  | pinReset => exact keeps_execPinReset hs
  | lrefclkWatchEnd => exact keeps_execLrefclkWatchEnd hs
  | crystalQualified => exact keeps_execCrystalQualified hs
  | referenceRetry => exact keeps_execReferenceRetry hs
  | pllLock => exact keeps_execPllLock hs
  | strapResample => exact keeps_execStrapResample hs
  | otpLoadDone => exact keeps_execOtpLoadDone hs
  | pd0SelftestDone => exact keeps_execPd0SelftestDone hs
  | pd0SelftestRetry => exact keeps_execPd0SelftestRetry hs
  | referenceLoss => exact keeps_execReferenceLoss hs
  | referenceHoldExpiry => exact keeps_execReferenceHoldExpiry hs
  | referenceReturn => exact keeps_execReferenceReturn hs
  | watchdogExpiry => exact keeps_execWatchdogExpiry hs
  | lockstepError => exact keeps_execLockstepError hs
  | debugReset => exact keeps_execDebugReset hs
  | sysResetRequest => exact keeps_execSysResetRequest hs
  | coldResetRequest => exact keeps_execColdResetRequest hs
  | tempFeedforward => exact keeps_execTempFeedforward hs
  | replicaCheck => exact keeps_execReplicaCheck hs
  | pwrDomctlWrite => exact keeps_execPwrDomctlWrite hs
  | domainOnComplete => exact keeps_execDomainOnComplete hs
  | domainOffComplete => exact keeps_execDomainOffComplete hs
  | domainSelftestDone => exact keeps_execDomainSelftestDone hs
  | bootSlotVerify => exact keeps_execBootSlotVerify hs
  | configSlotCheck => exact keeps_execConfigSlotCheck hs
  | otpStepDone => exact keeps_execOtpStepDone hs
  | keyDerivationDone => exact keeps_execKeyDerivationDone hs
  | netbootTimeout => exact keeps_execNetbootTimeout hs
  | netbootOfferRetry => exact keeps_execNetbootOfferRetry hs
  | mbxGo => exact keeps_execMbxGo hs
  | mbxTake => exact keeps_execMbxTake hs
  | getInfo => exact keeps_execGetInfo hs
  | getStatus => exact keeps_execGetStatus hs
  | reset => exact keeps_execReset hs
  | mailboxResetFire => exact keeps_execMailboxResetFire hs
  | imageLoad => exact keeps_execImageLoad hs
  | imageWrite => exact keeps_execImageWrite hs
  | imageWriteAbandon => exact keeps_execImageWriteAbandon hs
  | imageConfirm => exact keeps_execImageConfirm hs
  | start => exact keeps_execStart hs
  | stop => exact keeps_execStop hs
  | setRef => exact keeps_execSetRef hs
  | cellBypass => exact keeps_execCellBypass hs
  | contactor => exact keeps_execContactor hs
  | plantPulseEnd => exact keeps_execPlantPulseEnd hs
  | cellImagePush => exact keeps_execCellImagePush hs
  | pointRead => exact keeps_execPointRead hs
  | pointWrite => exact keeps_execPointWrite hs
  | remoteReplyTimeout => exact keeps_execRemoteReplyTimeout hs
  | capArm => exact keeps_execCapArm hs
  | capDisarm => exact keeps_execCapDisarm hs
  | capStatus => exact keeps_execCapStatus hs
  | capRead => exact keeps_execCapRead hs
  | traceStart => exact keeps_execTraceStart hs
  | traceRead => exact keeps_execTraceRead hs
  | billLoad => exact keeps_execBillLoad hs
  | billSwap => exact keeps_execBillSwap hs
  | leaseStatus => exact keeps_execLeaseStatus hs
  | leaseHandover => exact keeps_execLeaseHandover hs
  | handoverTimeout => exact keeps_execHandoverTimeout hs
  | stackWithdraw => exact keeps_execStackWithdraw hs
  | attest => exact keeps_execAttest hs
  | debugUnlock => exact keeps_execDebugUnlock hs
  | debugUnlockExpiry => exact keeps_execDebugUnlockExpiry hs
  | debugLockoutEnd => exact keeps_execDebugLockoutEnd hs
  | journalRead => exact keeps_execJournalRead hs
  | journalFree => exact keeps_execJournalFree hs
  | forward => exact keeps_execForward hs
  | leaseRackTimeout => exact keeps_execLeaseRackTimeout hs
  | accJnlfree => exact keeps_execAccJnlfree hs
  | registerWrite => exact keeps_execRegisterWrite hs
  | qspiWrite => exact keeps_execQspiWrite hs
  | qspiQwrite => exact keeps_execQspiQwrite hs
  | qspiRead => exact keeps_execQspiRead hs
  | qspiQread => exact keeps_execQspiQread hs
  | qspiRdsr => exact keeps_execQspiRdsr hs
  | qspiReadTimeout => exact keeps_execQspiReadTimeout hs
  | qspiCsRise => exact keeps_execQspiCsRise hs
  | qspiUnknownInstruction => exact keeps_execQspiUnknownInstruction hs
  | mailboxDatagram => exact keeps_execMailboxDatagram hs
  | ipv4Fragment => exact keeps_execIpv4Fragment hs
  | fragmentTimeout => exact keeps_execFragmentTimeout hs
  | arpRequest => exact keeps_execArpRequest hs
  | icmpEcho => exact keeps_execIcmpEcho hs
  | gratuitousArpSecond => exact keeps_execGratuitousArpSecond hs
  | syncMessage => exact keeps_execSyncMessage hs
  | announceMessage => exact keeps_execAnnounceMessage hs
  | announceTimeout => exact keeps_execAnnounceTimeout hs
  | pdelayRequest => exact keeps_execPdelayRequest hs
  | pdelayResponse => exact keeps_execPdelayResponse hs
  | ptpTransparentRelay => exact keeps_execPtpTransparentRelay hs
  | jtagUpdateIr => exact keeps_execJtagUpdateIr hs
  | dbgaccUpdate => exact keeps_execDbgaccUpdate hs
  | tapReset => exact keeps_execTapReset hs
  | dirRead => exact keeps_execDirRead hs
  | dirWrite => exact keeps_execDirWrite hs
  | pointWord0Read => exact keeps_execPointWord0Read hs
  | pointWord1Write => exact keeps_execPointWord1Write hs
  | pointWord0Write => exact keeps_execPointWord0Write hs
  | cycleBoundary => exact keeps_execCycleBoundary hs
  | telFrame => exact keeps_execTelFrame hs
  | fillCutoff => exact keeps_execFillCutoff hs
  | fillClose => exact keeps_execFillClose hs
  | mainTaskStart => exact keeps_execMainTaskStart hs
  | mainTaskEnd => exact keeps_execMainTaskEnd hs
  | mainDeadline => exact keeps_execMainDeadline hs
  | fastTaskStart => exact keeps_execFastTaskStart hs
  | fastTaskEnd => exact keeps_execFastTaskEnd hs
  | bankSwapRequest => exact keeps_execBankSwapRequest hs
  | bankCheckComplete => exact keeps_execBankCheckComplete hs
  | tuneCommit => exact keeps_execTuneCommit hs
  | mashTunedataWrite => exact keeps_execMashTunedataWrite hs
  | bankDataWrite => exact keeps_execBankDataWrite hs
  | nodeDataRead => exact keeps_execNodeDataRead hs
  | traceArm => exact keeps_execTraceArm hs
  | traceStartEvent => exact keeps_execTraceStartEvent hs
  | traceStop => exact keeps_execTraceStop hs
  | prechargeTimeout => exact keeps_execPrechargeTimeout hs
  | pitchEntry => exact keeps_execPitchEntry hs
  | enumComplete => exact keeps_execEnumComplete hs
  | enumTimeout => exact keeps_execEnumTimeout hs
  | breakerClose => exact keeps_execBreakerClose hs
  | breakerConfirm => exact keeps_execBreakerConfirm hs
  | breakerTimeout => exact keeps_execBreakerTimeout hs
  | stopBreakerOpen => exact keeps_execStopBreakerOpen hs
  | cellCycle => exact keeps_execCellCycle hs
  | socOcvReset => exact keeps_execSocOcvReset hs
  | capUpdateOnPlim => exact keeps_execCapUpdateOnPlim hs
  | slotAdopt => exact keeps_execSlotAdopt hs
  | prechargeContactorStep => exact keeps_execPrechargeContactorStep hs
  | prechargeComplete => exact keeps_execPrechargeComplete hs
  | bypassConfirm => exact keeps_execBypassConfirm hs
  | bypassConfirmTimeout => exact keeps_execBypassConfirmTimeout hs
  | rejoinOpenConfirm => exact keeps_execRejoinOpenConfirm hs
  | cellBypassCommand => exact keeps_execCellBypassCommand hs
  | cellRejoinCommand => exact keeps_execCellRejoinCommand hs
  | pwmCommit => exact keeps_execPwmCommit hs
  | pwmCancel => exact keeps_execPwmCancel hs
  | pwmGcommit => exact keeps_execPwmGcommit hs
  | pwmGcancel => exact keeps_execPwmGcancel hs
  | pwmCmpaWrite => exact keeps_execPwmCmpaWrite hs
  | pwmEnable => exact keeps_execPwmEnable hs
  | pwmDisable => exact keeps_execPwmDisable hs
  | pwmCounterStart => exact keeps_execPwmCounterStart hs
  | pwmValley => exact keeps_execPwmValley hs
  | pwmPeak => exact keeps_execPwmPeak hs
  | pwmHalfCount => exact keeps_execPwmHalfCount hs
  | pwmCompareMatch => exact keeps_execPwmCompareMatch hs
  | gdTurnOnStart => exact keeps_execGdTurnOnStart hs
  | gdTpreExpiry => exact keeps_execGdTpreExpiry hs
  | gdTwonTimeout => exact keeps_execGdTwonTimeout hs
  | gdTpdisExpiry => exact keeps_execGdTpdisExpiry hs
  | gdTwoffTimeout => exact keeps_execGdTwoffTimeout hs
  | gdFeedbackChange => exact keeps_execGdFeedbackChange hs
  | gdTfboffExpiry => exact keeps_execGdTfboffExpiry hs
  | gdFbmis => exact keeps_execGdFbmis hs
  | gdThresholdTrip => exact keeps_execGdThresholdTrip hs
  | gdHardTrip => exact keeps_execGdHardTrip hs
  | gdComparatorRelease => exact keeps_execGdComparatorRelease hs
  | gdBlankingEnd => exact keeps_execGdBlankingEnd hs
  | gdEnable => exact keeps_execGdEnable hs
  | faultGroupStep2 => exact keeps_execFaultGroupStep2 hs
  | forcePrefixEnd => exact keeps_execForcePrefixEnd hs
  | forceSequencerSync => exact keeps_execForceSequencerSync hs
  | faultLatchClear => exact keeps_execFaultLatchClear hs
  | faultGroupEnable => exact keeps_execFaultGroupEnable hs
  | fltPinChange => exact keeps_execFltPinChange hs
  | fltDeglitchExpiry => exact keeps_execFltDeglitchExpiry hs
  | faultSwforce => exact keeps_execFaultSwforce hs
  | sprStart => exact keeps_execSprStart hs
  | sprStop => exact keeps_execSprStop hs
  | sprCommit => exact keeps_execSprCommit hs
  | sprCoeffComputed => exact keeps_execSprCoeffComputed hs
  | sprTick => exact keeps_execSprTick hs
  | sprCompute => exact keeps_execSprCompute hs
  | sprSstmo => exact keeps_execSprSstmo hs
  | sprTripClear => exact keeps_execSprTripClear hs
  | sprPhfailClear => exact keeps_execSprPhfailClear hs
  | adcEnable => exact keeps_execAdcEnable hs
  | adcTimerExpiry => exact keeps_execAdcTimerExpiry hs
  | adcInjGo => exact keeps_execAdcInjGo hs
  | adcResult => exact keeps_execAdcResult hs
  | adcStartupDone => exact keeps_execAdcStartupDone hs
  | adcPowerDown => exact keeps_execAdcPowerDown hs
  | adcCal => exact keeps_execAdcCal hs
  | adcCalDone => exact keeps_execAdcCalDone hs
  | adcResloRead => exact keeps_execAdcResloRead hs
  | adcRouteEnable => exact keeps_execAdcRouteEnable hs
  | windowCrossing => exact keeps_execWindowCrossing hs
  | windowFilterExpiry => exact keeps_execWindowFilterExpiry hs
  | windowCommit => exact keeps_execWindowCommit hs
  | windowLevelSwitch => exact keeps_execWindowLevelSwitch hs
  | laneEnable => exact keeps_execLaneEnable hs
  | laneSignalDetect => exact keeps_execLaneSignalDetect hs
  | laneSignalLoss => exact keeps_execLaneSignalLoss hs
  | laneTrainDone => exact keeps_execLaneTrainDone hs
  | laneLockDone => exact keeps_execLaneLockDone hs
  | laneStateTimeout => exact keeps_execLaneStateTimeout hs
  | capsSend => exact keeps_execCapsSend hs
  | capsFrame => exact keeps_execCapsFrame hs
  | laneBlockLockLoss => exact keeps_execLaneBlockLockLoss hs
  | laneFrameSilence => exact keeps_execLaneFrameSilence hs
  | laneRetrain => exact keeps_execLaneRetrain hs
  | laneTxReady => exact keeps_execLaneTxReady hs
  | idleTimer => exact keeps_execIdleTimer hs
  | frameRelay => exact keeps_execFrameRelay hs
  | frameCutShort => exact keeps_execFrameCutShort hs
  | cmdFrame => exact keeps_execCmdFrame hs
  | timeFrame => exact keeps_execTimeFrame hs
  | trigFrame => exact keeps_execTrigFrame hs
  | rackFrame => exact keeps_execRackFrame hs
  | xchkFrame => exact keeps_execXchkFrame hs
  | rraFrame => exact keeps_execRraFrame hs
  | idleFrame => exact keeps_execIdleFrame hs
  | delayRequestTimer => exact keeps_execDelayRequestTimer hs
  | echolost => exact keeps_execEcholost hs
  | cellHoldoverEntry => exact keeps_execCellHoldoverEntry hs
  | cellholdExpiry => exact keeps_execCellholdExpiry hs
  | timeTriggerEnable => exact keeps_execTimeTriggerEnable hs
  | timeTriggerEffect => exact keeps_execTimeTriggerEffect hs
  | timeTriggerFire => exact keeps_execTimeTriggerFire hs
  | timNowRead => exact keeps_execTimNowRead hs
  | voteInstant => exact keeps_execVoteInstant hs
  | leaseClaim => exact keeps_execLeaseClaim hs
  | leaseClaimLapse => exact keeps_execLeaseClaimLapse hs
  | leaseExpiry => exact keeps_execLeaseExpiry hs
  | cellEpochClear => exact keeps_execCellEpochClear hs
  | selfcheckWindowEnd => exact keeps_execSelfcheckWindowEnd hs
  | rejoinBillCheck => exact keeps_execRejoinBillCheck hs
  | trigPinEdge => exact keeps_execTrigPinEdge hs
  | softTrigger => exact keeps_execSoftTrigger hs
  | captureRearm => exact keeps_execCaptureRearm hs
  | trigxPulseEnd => exact keeps_execTrigxPulseEnd hs
  | captureFree => exact keeps_execCaptureFree hs
  | skewCal => exact keeps_execSkewCal hs
  | skewCalDone => exact keeps_execSkewCalDone hs
  | maskTableLoWrite => exact keeps_execMaskTableLoWrite hs
  | kilnScanEnd => exact keeps_execKilnScanEnd hs
  | kilnBrokenClear => exact keeps_execKilnBrokenClear hs
  | kilnGroupEnable => exact keeps_execKilnGroupEnable hs
  | scrubWord => exact keeps_execScrubWord hs
  | errorInjectArm => exact keeps_execErrorInjectArm hs
  | resetPinRelease => exact keeps_execResetPinRelease hs
  | vddioBankPower => exact keeps_execVddioBankPower hs
  | imageLoadVerifyDone => exact keeps_execImageLoadVerifyDone hs
  | scrubPassDeadline => exact keeps_execScrubPassDeadline hs
  | crystalQualifyTimeout => exact keeps_execCrystalQualifyTimeout hs
  | laneCodeError => exact keeps_execLaneCodeError hs
  | prbsCheckerSync => exact keeps_execPrbsCheckerSync hs
  | pdelayRequestTimer => exact keeps_execPdelayRequestTimer hs
  | extestUpdate => exact keeps_execExtestUpdate hs
  | dbgcoreHalt => exact keeps_execDbgcoreHalt hs

/-- A step keeps what a command keeps, but for the command that it takes from the queue. -/
theorem step_keepsIn {c : Instr} {rest : List Instr} (h : s.pending = c :: rest) :
    State.KeepsIn { s with pending := rest } (step s) := by
  rw [step, h]
  exact keeps_exec (keeps_refl _)

theorem step_idle (h : s.pending = []) : step s = .next s := by rw [step, h]

/-- Settles O58: each function that leads from a state to a state keeps the keys rising, for it changes the tables by `fset`,
`eset` and `resetRegs` alone. -/
theorem everyStepKeepsTheRegisterTables : Obligations.EveryStepKeepsTheRegisterTables := by
  intro s t hregs heff hstep
  cases hp : s.pending with
  | nil =>
    rw [step_idle hp] at hstep
    cases hstep
    exact ⟨hregs, heff⟩
  | cons c rest =>
    have hk := step_keepsIn hp t hstep
    exact ⟨hk.regs hregs, hk.eff heff⟩

end Sys2Proof.Machine
end


section
/-! The checks of an access and what a write does with its register and with the error registers. -/
namespace Sys2Proof.Machine

/-! ### The order of the checks (R12) -/

theorem firstStatus_cons (x : Status) (l : List Status) :
    firstStatus (x :: l) = if x.rank ≤ (firstStatus l).rank then x else firstStatus l := rfl

theorem firstStatus_ok_or_mem (l : List Status) : firstStatus l = .ok ∨ firstStatus l ∈ l := by
  induction l with
  | nil => exact .inl rfl
  | cons x l ih =>
    rw [firstStatus_cons]
    split
    · exact .inr List.mem_cons_self
    · exact ih.imp_right (List.mem_cons_of_mem x)

theorem firstStatus_rank_le {l : List Status} {x : Status} (hx : x ∈ l) : (firstStatus l).rank ≤ x.rank := by
  induction l with
  | nil => cases hx
  | cons y l ih =>
    rw [firstStatus_cons]
    rcases List.mem_cons.mp hx with rfl | hx
    · split <;> omega
    · have := ih hx
      split <;> omega

theorem firstStatus_eq_ok {l : List Status} : firstStatus l = .ok ↔ ∀ x ∈ l, x = .ok := by
  constructor
  · intro h x hx
    by_contra hne
    exact firstStatus_ne_ok hx hne h
  · intro h
    rcases firstStatus_ok_or_mem l with h' | h'
    · exact h'
    · exact h _ h'

/-- Settles O23: a list's status is its entry of least rank, by induction on the list. -/
theorem theFirstFailureIsReported : Obligations.TheFirstFailureIsReported := fun l =>
  ⟨firstStatus_ok_or_mem l, fun _ hx => firstStatus_rank_le hx, firstStatus_eq_ok, by decide⟩

/-! ### The rights (R90, R91) -/

theorem chk_ne_ok {b : Bool} {st : Status} (hb : b = true) (hst : st ≠ .ok) : chk b st ≠ .ok := by rwa [chk, if_pos hb]

theorem rightsOf_m0 {s : State} {a : Nat} (h : (blkOf a).isSome = true) : rightsOf s 0 a = 7 := by
  obtain ⟨b, hb⟩ := Option.isSome_iff_exists.mp h
  simp [rightsOf, hb]

theorem hasRight_m0 {s : State} {a n : Nat} (h : (blkOf a).isSome = true) (hn : n < 3) : hasRight s 0 a n = true := by
  rw [hasRight, rightsOf_m0 h]
  interval_cases n <;> rfl

/-- A check that fails refuses the write. -/
theorem writeStatus_ne_ok {s : State} {m a width w : Nat} {c e : Bool} (h : writeRest s m a width w c e ≠ .ok) :
    writeStatus s m a width w c e ≠ .ok := firstStatus_ne_ok (by simp) h

theorem writeRest_denied {s : State} {m a width w : Nat} {c e : Bool}
    (h : ((writesField s m a && !hasRight s m a 1) || (c && !hasRight s m a 2)) = true) :
    writeRest s m a width w c e ≠ .ok := firstStatus_ne_ok (x := chk _ .denied) (by simp) (chk_ne_ok h (by decide))

theorem writeRest_acc {s : State} {m a width w : Nat} {c e : Bool} (h : (blkOf a == some .acc && m != 0) = true) :
    writeRest s m a width w c e ≠ .ok :=
  firstStatus_ne_ok (x := chk (blkOf a == some .acc && m != 0) .denied) (by simp) (chk_ne_ok h (by decide))

theorem readStatus_denied {s : State} {m a width : Nat} (h : hasRight s m a 0 = false) : readStatus s m a width ≠ .ok :=
  firstStatus_ne_ok (x := readRest s m a width) (by simp)
    (firstStatus_ne_ok (x := chk (!hasRight s m a 0) .denied) (by simp) (chk_ne_ok (by simp [h]) (by decide)))

theorem blkOf_acc {a : Nat} (h : 0x20000 ≤ a) (h' : a < 0x30000) : blkOf a = some .acc := by
  have hq : a / 65536 = 2 := by omega
  simp only [blkOf, hq]
  rw [if_neg (by simp; omega), if_neg (by simp; omega), if_neg (by simp; omega)]

/-- Settles O22: a right that is missing is one of the failing checks, and a failing check refuses the access. -/
theorem rightsAreChecked : Obligations.RightsAreChecked := by
  refine ⟨fun s a n ha hn => hasRight_m0 ha hn, fun s m a width w c e hr hf => ?_, fun s m a width hr => readStatus_denied hr,
    fun s m a width w e hr => ?_, fun s m a w e hm h h' => ?_⟩
  · exact writeStatus_ne_ok (writeRest_denied (by simp [hr, hf]))
  · exact writeStatus_ne_ok (writeRest_denied (by simp [hr]))
  · exact writeStatus_ne_ok (writeRest_acc (by simp [blkOf_acc h h', hm]))

/-! ### Reserved bits and the error registers (R4, R67) -/

theorem countRsvd_of_findReg {s : State} {m a w : Nat} {b : Blk} {r : Reg} {i : Nat} (hb : blkOf a = some b)
    (hr : findReg s b m a (blkRegs b) = some (r, i)) :
    countRsvd s m a w = if w &&& listedBits r == w then s else s.satAdd SYS_ERRCNT_RSVD 0 := by
  simp [countRsvd, hb, hr]

theorem Status.code_lt (st : Status) : st.code < 2 ^ 16 := by cases st <;> decide

/-- The first error of ACC_ERR: its details, with MULTI as it was. -/
theorem accErr_first {s : State} {m a : Nat} {st : Status} (hm : m < 16) (ha : a < 2 ^ 32) (h : s.fget ACC_ERR_VALID = 0) :
    (accErr s m a st).fget ACC_ERR_VALID = 1 ∧ (accErr s m a st).fget ACC_ERR_MASTER = m ∧
      (accErr s m a st).fget ACC_ERR_STATUS = st.code ∧ (accErr s m a st).fget ACC_ERRADDR_ADDR = a ∧
      (accErr s m a st).fget ACC_ERR_MULTI = s.fget ACC_ERR_MULTI := by
  have e : accErr s m a st = (((s.fset ACC_ERR_VALID 0 1).fset ACC_ERR_MASTER 0 m).fset ACC_ERR_STATUS 0 st.code).fset
      ACC_ERRADDR_ADDR 0 a := recErr_first (by rw [h]; decide)
  rw [e]
  simp (disch := decide) only [fget_fset_far, fget_fset_same]
  exact ⟨rfl, Nat.mod_eq_of_lt hm, Nat.mod_eq_of_lt st.code_lt, Nat.mod_eq_of_lt ha, trivial⟩

/-- A later error of ACC_ERR: MULTI alone. -/
theorem accErr_again {s : State} {m a : Nat} {st : Status} (h : s.fget ACC_ERR_VALID = 1) :
    (accErr s m a st).fget ACC_ERR_VALID = 1 ∧ (accErr s m a st).fget ACC_ERR_MULTI = 1 ∧
      (accErr s m a st).fget ACC_ERR_MASTER = s.fget ACC_ERR_MASTER ∧
      (accErr s m a st).fget ACC_ERR_STATUS = s.fget ACC_ERR_STATUS ∧
      (accErr s m a st).fget ACC_ERRADDR_ADDR = s.fget ACC_ERRADDR_ADDR := by
  have e : accErr s m a st = s.fset ACC_ERR_MULTI 0 1 := recErr_again h
  rw [e]
  simp (disch := decide) only [fget_fset_far, fget_fset_same, h]
  exact ⟨trivial, rfl, trivial, trivial, trivial⟩

/-- Settles O21: the count is made once, by what `findReg` finds; ACC_ERR takes the first error alone. -/
theorem errorsAreCountedAndTheFirstIsKept : Obligations.ErrorsAreCountedAndTheFirstIsKept := by
  refine ⟨fun s m a w => ⟨countRsvd_cases s m a w, fun b r i hb hr => ⟨fun h => ?_, fun h => ?_⟩⟩,
    fun s m a st hm ha => ⟨accErr_first hm ha, accErr_again⟩⟩
  · rw [countRsvd_of_findReg hb hr, if_pos (by simpa using h)]
  · rw [countRsvd_of_findReg hb hr, if_neg (by simpa using h)]

/-! ### Writes of the bus (R4, R12, R93) -/

theorem busWrite_eq_regWrite {s : State} {m a w width : Nat} {e : Bool} (h : a ≠ 0x14) :
    busWrite s m a w width e = regWrite s m a w width (busNeedC s m a w) e (busEff m a w) := by simp [busWrite, h]

theorem exec_registerWrite {m : Master} {a width : Nat} {w : Word} {s : State} (ha : a < 2 ^ 32) (h : a ≠ 0x14) :
    exec (.registerWrite m a width w) s =
      .next (regWrite s m a w.toNat width (busNeedC s m a w.toNat) true (busEff m a w.toNat)).2 := by
  have e : exec (.registerWrite m a width w) s = .next (busWrite s m (a % 2 ^ 32) w.toNat width true).2 := rfl
  rw [e, Nat.mod_eq_of_lt ha, busWrite_eq_regWrite h]

/-- Settles O18: the bus writes through `regWrite`, whose accepted case is `regWrite_ok`. -/
theorem acceptedWritesTakeTheirEffect : Obligations.AcceptedWritesTakeTheirEffect := by
  intro m a w s ha h14 hmay heff
  rw [exec_registerWrite ha h14, regWrite_ok hmay (Prod.ext heff rfl)]

/-- SEC_ERR after one of its errors. -/
theorem secErr_valid {s : State} {m : Nat} {st : Status} (hm : m < 16) :
    (secErr s m st).fget SEC_ERR_VALID = 1 ∧ (s.fget SEC_ERR_VALID = 0 → (secErr s m st).fget SEC_ERR_MASTER = m) := by
  by_cases h : s.fget SEC_ERR_VALID = 1
  · have e : secErr s m st = s.fset SEC_ERR_MULTI 0 1 := recErr_again h
    rw [e, fget_fset_far _ _ (by decide) (by decide) (by decide), h]
    exact ⟨rfl, fun h0 => by cases h0⟩
  · have e : secErr s m st = ((s.fset SEC_ERR_VALID 0 1).fset SEC_ERR_MASTER 0 m).fset SEC_ERR_STATUS 0 st.code :=
      recErr_first h
    rw [e]
    simp (disch := decide) only [fget_fset_far, fget_fset_same]
    exact ⟨rfl, fun _ => Nat.mod_eq_of_lt hm⟩

theorem recWrite_sec {s : State} {m a : Nat} {rest st : Status} (h : blkOf a = some .sec) :
    recWrite s m a rest st = secErr (recRefused s m a rest) m st := by simp [recWrite, h]

/-- The registers that a refused write may change: the error registers, the count of reserved bits, the journal's pointers,
an armed injection. -/
def refusalRegs : List (Fld × Nat) :=
  [(SYS_ERRCNT_RSVD, 0), (PWR_ERR_VALID, 0), (PWR_ERR_MULTI, 0), (PWR_ERR_DOM, 0), (PWR_ERR_STATUS, 0), (ACC_ERR_VALID, 0),
    (ACC_ERR_MULTI, 0), (ACC_ERR_MASTER, 0), (ACC_ERR_STATUS, 0), (ACC_ERRADDR_ADDR, 0), (ACC_JNLHEAD_HEAD, 0),
    (ACC_JNLCNT_LOST, 0), (ACC_JNLCNT_UNREAD, 0), (SEC_EINJ_ARM, 0), (SEC_ERR_VALID, 0), (SEC_ERR_MULTI, 0),
    (SEC_ERR_MASTER, 0), (SEC_ERR_STATUS, 0)]

/-- The state after a refusal is recorded, before its journal entry. -/
def refusalOf (s : State) (m a w width : Nat) (c e : Bool) : State :=
  recWrite (countRsvd s m a w) m a (writeRest s m a width w c e) (writeStatus s m a width w c e)

/-- A refused write records the refusal, and then at most enters it in the journal. -/
theorem regWrite_refused_frame {s : State} {m a w width : Nat} {c e : Bool} {eff : State → Status × State}
    (h0 : (blkOf a).isSome = true) (h1 : writeStatus s m a width w c e ≠ .ok) :
    (refusalOf s m a w width c e).SameRegsBut (regWrite s m a w width c e eff).2
        [(ACC_JNLHEAD_HEAD, 0), (ACC_JNLCNT_LOST, 0), (ACC_JNLCNT_UNREAD, 0), (SEC_EINJ_ARM, 0)] ∧
      (regWrite s m a w width c e eff).2.mem = (refusalOf s m a w width c e).mem := by
  rw [regWrite_refused h0 h1]
  dsimp only
  split
  · exact ⟨jnlAdd_frame _ _ _ _ _ _ _, jnlAdd_mem _ _ _ _ _ _ _⟩
  · exact ⟨sameRegs_refl _ _, rfl⟩

theorem refusalOf_frame (s : State) (m a w width : Nat) (c e : Bool) :
    s.SameRegsBut (refusalOf s m a w width c e) refusalRegs :=
  sameRegs_trans (sameRegs_mono (countRsvd_frame s m a w) (by simp [refusalRegs]))
    (sameRegs_mono (recWrite_frame _ _ _ _ _) (by simp [refusalRegs]))

theorem refusalOf_mem (s : State) (m a w width : Nat) (c e : Bool) : (refusalOf s m a w width c e).mem = s.mem := by
  rw [refusalOf, recWrite_mem, countRsvd_mem]

theorem refusalOf_secErr_other {s : State} {m a w width : Nat} {c e : Bool} (h : blkOf a ≠ some .sec) :
    (refusalOf s m a w width c e).fget SEC_ERR_VALID = s.fget SEC_ERR_VALID := by
  rw [refusalOf, recWrite_other h, sameRegs_fget (recRefused_frame _ _ _ _) _ _ (by decide) (by decide),
    countRsvd_fget _ _ _ _ _ (by decide)]

theorem refusalOf_secErr {s : State} {m a w width : Nat} {c e : Bool} (hm : m < 16) (h : blkOf a = some .sec) :
    (refusalOf s m a w width c e).fget SEC_ERR_VALID = 1 ∧
      (s.fget SEC_ERR_VALID = 0 → (refusalOf s m a w width c e).fget SEC_ERR_MASTER = m) := by
  rw [refusalOf, recWrite_sec h]
  have hv := secErr_valid (s := recRefused (countRsvd s m a w) m a (writeRest s m a width w c e))
    (st := writeStatus s m a width w c e) hm
  rwa [sameRegs_fget (recRefused_frame _ _ _ _) SEC_ERR_VALID 0 (by decide) (by decide),
    countRsvd_fget _ _ _ _ 0 (G := SEC_ERR_VALID) (by decide)] at hv

/-- Settles O17: a refusal writes the listed registers and no memory; SEC_ERR is written in the SEC block alone, and the
journal entry that may follow does not write it. -/
theorem refusedWritesChangeNothingElse : Obligations.RefusedWritesChangeNothingElse := by
  intro m a width w s ha h14 hblk hst
  obtain ⟨hregs, hmem⟩ := regWrite_refused_frame (eff := busEff m a w.toNat) hblk hst
  have hsec (G : Fld) (hG : G = SEC_ERR_VALID ∨ G = SEC_ERR_MASTER) := sameRegs_fget hregs G 0 (by decide)
    (by rcases hG with rfl | rfl <;> decide)
  refine ⟨_, exec_registerWrite ha h14, sameMem_of_mem (hmem.trans (refusalOf_mem ..)), ?_,
    sameRegs_trans (refusalOf_frame _ _ _ _ _ _ _) (sameRegs_mono hregs (by simp)), fun h => ?_, fun h => ?_⟩
  · exact (keeps_execRegisterWrite (keeps_refl s) _ (exec_registerWrite ha h14)).pending
  · rw [hsec _ (.inl rfl), refusalOf_secErr_other h]
  · rw [hsec _ (.inl rfl), hsec _ (.inr rfl)]
    exact refusalOf_secErr (by omega) h

end Sys2Proof.Machine
end


section
/-! A register's plain fields, and a mailbox command that is refused. -/
namespace Sys2Proof.Machine

/-! ### Fields without an effect of their own (R6) -/

/-- What a write of the word `w` makes of a field's value `v`. -/
def plainVal (F : Fld) (w v : Nat) : Nat :=
  match F.acc with
  | .rw | .rws => bits w F.lo F.width
  | .w1c => (v - (v &&& bits w F.lo F.width)) % 2 ^ F.width
  | _ => v

/-- The write of one field. -/
def plainPut (i w : Nat) (s : State) (F : Fld) : State :=
  match F.acc with
  | .rw | .rws => s.fset F i (bits w F.lo F.width)
  | .w1c => s.fset F i (s.fget F i - (s.fget F i &&& bits w F.lo F.width))
  | _ => s

theorem plainEff_eq (r : Reg) (i w : Nat) (s : State) : plainEff r i w s = (.ok, r.flds.foldl (plainPut i w) s) := rfl

@[simp] theorem plainPut_mem (i w : Nat) (s : State) (F : Fld) : (plainPut i w s F).mem = s.mem := by
  unfold plainPut; split <;> rfl

theorem fget_plainPut_other {i w : Nat} {s : State} {F G : Fld} {j : Nat} (h : G.key j ≠ F.key i) :
    (plainPut i w s F).fget G j = s.fget G j := by
  unfold plainPut
  split
  case h_4 => rfl
  all_goals exact fget_fset_other _ _ h

theorem fget_plainPut_same (i w : Nat) (s : State) (F : Fld) :
    (plainPut i w s F).fget F i = plainVal F w (s.fget F i) := by
  unfold plainPut plainVal
  cases F.acc <;> simp [bits]

theorem foldl_plainPut_mem (i w : Nat) (s : State) (l : List Fld) : (l.foldl (plainPut i w) s).mem = s.mem := by
  induction l generalizing s with
  | nil => rfl
  | cons F l ih => rw [List.foldl_cons, ih, plainPut_mem]

theorem fget_foldl_plainPut_other {i w : Nat} {s : State} {l : List Fld} {G : Fld} {j : Nat}
    (h : ∀ F ∈ l, G.key j ≠ F.key i) : (l.foldl (plainPut i w) s).fget G j = s.fget G j := by
  induction l generalizing s with
  | nil => rfl
  | cons F l ih =>
    rw [List.foldl_cons, ih (fun x hx => h x (List.mem_cons_of_mem F hx)), fget_plainPut_other (h F List.mem_cons_self)]

/-- A field is written once, since no other field of the list has its key. -/
theorem fget_foldl_plainPut_mem {i w : Nat} {s : State} {l : List Fld} {F : Fld} (hl : (l.map (fun F => F.key i)).Nodup)
    (hF : F ∈ l) : (l.foldl (plainPut i w) s).fget F i = plainVal F w (s.fget F i) := by
  induction l generalizing s with
  | nil => cases hF
  | cons G l ih =>
    rw [List.map_cons, List.nodup_cons] at hl
    have hG (x : Fld) (hx : x ∈ l) : G.key i ≠ x.key i := fun e => hl.1 (List.mem_map.mpr ⟨x, hx, e.symm⟩)
    rw [List.foldl_cons]
    rcases List.mem_cons.mp hF with rfl | hF
    · rw [fget_foldl_plainPut_other hG, fget_plainPut_same]
    · rw [ih hl.2 hF, fget_plainPut_other (hG F hF).symm]

/-- Settles O19: the fold over the fields writes each field's key once, with `plainVal`. -/
theorem plainFieldsFollowTheirAccessCode : Obligations.PlainFieldsFollowTheirAccessCode := by
  intro r i w s hl
  rw [plainEff_eq]
  refine ⟨rfl, fun F hF ha => ?_, fun F hF ha => ?_, fun F hF ha => ?_, fun G j h => ?_,
    sameMem_of_mem (foldl_plainPut_mem i w s r.flds)⟩
  · rw [fget_foldl_plainPut_mem hl hF]
    rcases ha with ha | ha <;> simp [plainVal, ha]
  · rw [fget_foldl_plainPut_mem hl hF]
    simp [plainVal, ha]
  · rw [fget_foldl_plainPut_mem hl hF]
    rcases ha with ha | ha | ha <;> simp [plainVal, ha]
  · exact fget_foldl_plainPut_other fun F hF => h (F, i) (List.mem_map_of_mem hF)

/-! ### A refused command of a mailbox (R12, R72, R73, R75) -/

theorem next_serve_of_refuses {s : State} {k op : Nat} {act : State → State} (h : s.Refuses k op) :
    (.next (serve s k op act) : Host.Outcome State Fault Refusal) = .next (cmdAnswer s k (cmdStatus s k) []) := by
  obtain ⟨hruns, hst⟩ := h
  rw [serve_of_refused act hruns hst]

/-- Settles O29: each command is `serve` of its opcode. -/
theorem refusedMailboxCommands : Obligations.RefusedMailboxCommands := fun _ _ _ _ =>
  ⟨next_serve_of_refuses, next_serve_of_refuses, next_serve_of_refuses, fun h _ => next_serve_of_refuses h,
    fun h _ => next_serve_of_refuses h, next_serve_of_refuses, next_serve_of_refuses, next_serve_of_refuses,
    next_serve_of_refuses, next_serve_of_refuses, next_serve_of_refuses, next_serve_of_refuses, next_serve_of_refuses,
    next_serve_of_refuses, next_serve_of_refuses, next_serve_of_refuses, next_serve_of_refuses, next_serve_of_refuses,
    next_serve_of_refuses, next_serve_of_refuses, next_serve_of_refuses, fun h _ => next_serve_of_refuses h,
    next_serve_of_refuses, next_serve_of_refuses, next_serve_of_refuses, next_serve_of_refuses, next_serve_of_refuses,
    next_serve_of_refuses, next_serve_of_refuses, next_serve_of_refuses⟩

end Sys2Proof.Machine
end


section
/-! The state at power-on, a cold reset, and the straps. -/
namespace Sys2Proof.Machine

/-! ### Reading the tables -/

theorem keyAddr_ne {F G : Fld} {i j : Nat} (h : keyAddr (F.key i) ≠ keyAddr (G.key j)) : F.key i ≠ G.key j :=
  fun e => h (congrArg keyAddr e)

theorem smGet_cons_other {β : Type} {d v : β} {m : SMap β} {k j : Nat} (h : j ≠ k) :
    smGet d ((k, v) :: m) j = smGet d m j := by simp [smGet, h.symm]

theorem fget_of_regs_nil {s : State} (h : s.regs = []) (F : Fld) (i : Nat) : s.fget F i = F.resetAt i := by
  rw [State.fget, h]; rfl

theorem eget_of_eff_nil {s : State} (h : s.eff = []) (F : Fld) (i : Nat) : s.eget F i = F.resetAt i := by
  rw [State.eget, h]; rfl

theorem byte_of_mem_nil {s : State} (h : s.mem = []) (a : Nat) : s.byte a = 0#8 := by rw [State.byte, h]; rfl

/-! ### Power-on (R36, R50, R54, R93) -/

/-- The registers that do not read their reset value at power-on are at three addresses. -/
theorem fget_reset {F : Fld} {i : Nat} (h : keyAddr (F.key i) ∉ [0x10, 0x20020, 0x20024]) :
    State.reset.fget F i = F.resetAt i := by
  simp only [List.mem_cons, List.not_mem_nil, or_false, not_or] at h
  obtain ⟨hcause, hhead, hcnt⟩ := h
  have hne (k : Nat) (hk : keyAddr (F.key i) ≠ keyAddr k) : F.key i ≠ k := fun e => hk (congrArg keyAddr e)
  calc State.reset.fget F i
      = smGet (F.resetAt i) [(1048576, 1), (8592031744, 1), (8592293888, 1)] (F.key i) := rfl
    _ = F.resetAt i := by
      rw [smGet_cons_other (hne 1048576 hcause), smGet_cons_other (hne 8592031744 hhead),
        smGet_cons_other (hne 8592293888 hcnt)]
      rfl

/-- Settles O3: the table of registers is written out, and every other component is empty. -/
theorem powerOnState : Obligations.PowerOnState :=
  ⟨fun _ _ h => fget_reset h, fun F i => eget_of_eff_nil rfl F i, fun x => by cases x <;> decide, by decide, by decide, by decide,
    by decide, fun a => byte_of_mem_nil rfl a, rfl, rfl, rfl, rfl⟩

/-! ### The causes of a reset (R51, R54) -/

theorem srcFld_key (x : RstSrc) : (srcFld x).key 0 = (512 + srcCode x) * 2048 := by cases x <;> rfl

theorem srcCode_injective : Function.Injective srcCode := by
  intro x y
  cases x <;> cases y <;> simp [srcCode]

theorem srcFld_key_inj {x y : RstSrc} : (srcFld x).key 0 = (srcFld y).key 0 ↔ x = y := by
  rw [srcFld_key, srcFld_key, ← srcCode_injective.eq_iff]
  omega

theorem keyAddr_srcFld (x : RstSrc) : keyAddr ((srcFld x).key 0) = 0x10 := by cases x <;> rfl

/-- The bits of some sources set. -/
def setBits (s : State) (l : List RstSrc) : State := l.foldl (fun s x => s.fset (srcFld x) 0 1) s

theorem setCauses_eq (s : State) (l : List RstSrc) :
    setCauses s l = (setBits s l).fset SYS_RSTCAUSE_LAST 0 (lastSrc l) := rfl

/-- It writes the registers alone. -/
theorem setBits_regs (s : State) (l : List RstSrc) : setBits s l = { s with regs := (setBits s l).regs } := by
  induction l generalizing s with
  | nil => rfl
  | cons x l ih => exact ih (s.fset (srcFld x) 0 1)

theorem fget_setBits_other {s : State} {l : List RstSrc} {G : Fld} {j : Nat} (h : ∀ x, G.key j ≠ (srcFld x).key 0) :
    (setBits s l).fget G j = s.fget G j := by
  induction l generalizing s with
  | nil => rfl
  | cons x l ih => exact (ih (s := s.fset (srcFld x) 0 1)).trans (fget_fset_other _ _ (h x))

theorem fget_setBits (s : State) (l : List RstSrc) (x : RstSrc) :
    (setBits s l).fget (srcFld x) = if x ∈ l then 1 else s.fget (srcFld x) := by
  induction l generalizing s with
  | nil => rfl
  | cons y l ih =>
    have hy : (s.fset (srcFld y) 0 1).fget (srcFld x) = if x = y then 1 else s.fget (srcFld x) := by
      by_cases h : x = y
      · subst h
        rw [if_pos rfl, fget_fset_same]
        cases x <;> rfl
      · rw [if_neg h, fget_fset_other _ _ (fun e => h (srcFld_key_inj.mp e))]
    rw [show setBits s (y :: l) = setBits (s.fset (srcFld y) 0 1) l from rfl, ih, hy]
    by_cases h : x = y <;> simp [h]

/-! ### A cold reset (R50, R54, R93) -/

theorem eccStored_of_unarmed {s : State} (h : s.flag SEC_EINJ_ARM = false) (mem word : Nat) :
    eccStored s mem word = { s with sec := { s.sec with ecc := smSet [] s.sec.ecc (eccKey mem word) [] } } := by
  simp [eccStored, h]

/-- A journal entry where no injection is armed and the journal has room. -/
theorem jnlAdd_of_room {s : State} {m kind st addr old new : Nat} (harm : s.flag SEC_EINJ_ARM = false)
    (hroom : jnlUnread s ≠ 4096) : ∃ b e, jnlAdd s m kind st addr old new =
      (State.fset { s with mbx := b, sec := { s.sec with ecc := e } } ACC_JNLHEAD_HEAD 0 (s.fget ACC_JNLHEAD_HEAD + 1)).fset
        ACC_JNLCNT_UNREAD 0 (jnlUnread s + 1) := by
  have hunread (u : State) (h : u.regs = s.regs) (v : Nat) : jnlUnread (u.fset ACC_JNLHEAD_HEAD 0 v) = jnlUnread s := by
    rw [jnlUnread, fget_fset_far _ _ (by decide) (by decide) (by decide), fget_congr h, jnlUnread]
  unfold jnlAdd
  extract_lets head _ _ _ _ _ _ s₁ s₂ s₃
  have h₂ : s₂ = { s₁ with sec := { s₁.sec with ecc := smSet [] s₁.sec.ecc (eccKey 1 head) [] } } :=
    eccStored_of_unarmed (s := s₁) harm 1 head
  have h₃ : jnlUnread s₃ = jnlUnread s := hunread s₂ (by rw [h₂]) _
  rw [h₃, if_neg (by simpa using hroom)]
  unfold s₃
  rw [h₂]
  exact ⟨_, _, rfl⟩

/-- What a cold reset starts from: every register and memory at reset, and what stands outside the reset. -/
def coldBase (s : State) (ph : Phase) : State :=
  { State.blank with
    clk := s.clk, flash := s.flash, free := s.free, pending := s.pending
    sec := { otp := s.sec.otp }
    pins := { s.pins with po := 0, trigxLow := false, fqRstN := false }
    flt := { pin := s.flt.pin }
    tim := { at_ := s.clk }
    sys := { phase := ph, since := s.clk } }

theorem coldReset_eq (s : State) (srcs : List RstSrc) (ph : Phase) :
    coldReset s srcs ph = jnlReset (setCauses (coldBase s ph) srcs) := rfl

theorem fget_setCauses_coldBase {s : State} {srcs : List RstSrc} {ph : Phase} {F : Fld} {i : Nat}
    (h : keyAddr (F.key i) ≠ 0x10) : (setCauses (coldBase s ph) srcs).fget F i = F.resetAt i := by
  have hsrc (x : RstSrc) : F.key i ≠ (srcFld x).key 0 := keyAddr_ne (by rwa [keyAddr_srcFld])
  rw [setCauses_eq, fget_fset_other _ _ (keyAddr_ne (G := SYS_RSTCAUSE_LAST) (j := 0) h), fget_setBits_other hsrc,
    fget_of_regs_nil rfl]

/-- A cold reset: the base with the causes set, and then the first entry of the journal. -/
theorem coldReset_cases (s : State) (srcs : List RstSrc) (ph : Phase) : ∃ b e, coldReset s srcs ph =
    (State.fset { setCauses (coldBase s ph) srcs with
      mbx := b, sec := { (setCauses (coldBase s ph) srcs).sec with ecc := e } } ACC_JNLHEAD_HEAD 0 1).fset
      ACC_JNLCNT_UNREAD 0 1 := by
  have harm : (setCauses (coldBase s ph) srcs).flag SEC_EINJ_ARM = false := by
    rw [State.flag, fget_setCauses_coldBase (by decide)]; rfl
  have hunread : jnlUnread (setCauses (coldBase s ph) srcs) = 0 := fget_setCauses_coldBase (by decide)
  have hhead : (setCauses (coldBase s ph) srcs).fget ACC_JNLHEAD_HEAD = 0 := fget_setCauses_coldBase (by decide)
  obtain ⟨b, e, h⟩ := jnlAdd_of_room (m := 0) (kind := 3) (st := 0) (addr := 0)
    (old := rstCauseWord (setCauses (coldBase s ph) srcs)) (new := 0) harm (by rw [hunread]; decide)
  rw [hunread, hhead] at h
  exact ⟨b, e, by rw [coldReset_eq, jnlReset, h]⟩

/-- A register apart from the journal's pointers reads what the setting of the causes left. -/
theorem fget_coldReset {s : State} {srcs : List RstSrc} {ph : Phase} {F : Fld} {i : Nat}
    (hhead : keyAddr (F.key i) ≠ 0x20020) (hcnt : keyAddr (F.key i) ≠ 0x20024) :
    (coldReset s srcs ph).fget F i = (setCauses (coldBase s ph) srcs).fget F i := by
  obtain ⟨b, e, h⟩ := coldReset_cases s srcs ph
  rw [h, fget_fset_other _ _ (keyAddr_ne (G := ACC_JNLCNT_UNREAD) (j := 0) hcnt),
    fget_fset_other _ _ (keyAddr_ne (G := ACC_JNLHEAD_HEAD) (j := 0) hhead)]
  exact fget_congr rfl F i

theorem fget_coldReset_src {s : State} {srcs : List RstSrc} {ph : Phase} (x : RstSrc) :
    (coldReset s srcs ph).fget (srcFld x) = if x ∈ srcs then 1 else 0 := by
  have hlast : (srcFld x).key 0 ≠ SYS_RSTCAUSE_LAST.key 0 := by cases x <;> decide
  have hzero : (srcFld x).resetAt 0 = 0 := by cases x <;> rfl
  rw [fget_coldReset (by rw [keyAddr_srcFld]; decide) (by rw [keyAddr_srcFld]; decide), setCauses_eq,
    fget_fset_other _ _ hlast, fget_setBits, fget_of_regs_nil rfl, hzero]

theorem fget_coldReset_last {s : State} {srcs : List RstSrc} {ph : Phase} :
    (coldReset s srcs ph).fget SYS_RSTCAUSE_LAST = lastSrc srcs % 16 := by
  rw [fget_coldReset (by decide) (by decide), setCauses_eq, fget_fset_same]
  rfl

theorem fget_coldReset_sysCnt {s : State} {srcs : List RstSrc} {ph : Phase} :
    (coldReset s srcs ph).fget SYS_RSTCAUSE_SYSCNT = 0 := by
  have hsrc (x : RstSrc) : SYS_RSTCAUSE_SYSCNT.key 0 ≠ (srcFld x).key 0 := by cases x <;> decide
  rw [fget_coldReset (by decide) (by decide), setCauses_eq, fget_fset_far _ _ (by decide) (by decide) (by decide),
    fget_setBits_other hsrc, fget_of_regs_nil rfl]
  rfl

/-- The other components are those of the base. -/
theorem coldReset_rest (s : State) (srcs : List RstSrc) (ph : Phase) : ∃ r b e,
    coldReset s srcs ph = { coldBase s ph with regs := r, mbx := b, sec := { (coldBase s ph).sec with ecc := e } } := by
  obtain ⟨b, e, h⟩ := coldReset_cases s srcs ph
  rw [h, setCauses_eq, setBits_regs]
  exact ⟨_, b, e, rfl⟩

/-- Settles O7: the state after a cold reset is `coldBase` with the causes set and one journal entry made. -/
theorem coldResetClears : Obligations.ColdResetClears := by
  intro s srcs ph
  obtain ⟨r, b, e, hrest⟩ := coldReset_rest s srcs ph
  obtain ⟨b', e', hcases⟩ := coldReset_cases s srcs ph
  refine ⟨fun F i h => ?_, fun a => by rw [hrest]; exact byte_of_mem_nil rfl a, fget_coldReset_src, fget_coldReset_last,
    fget_coldReset_sysCnt, ?_, ?_, ?_⟩
  · simp only [List.mem_cons, List.not_mem_nil, or_false, not_or] at h
    obtain ⟨hcause, hhead, hcnt⟩ := h
    exact ⟨by rw [fget_coldReset hhead hcnt, fget_setCauses_coldBase hcause], by rw [hrest]; exact eget_of_eff_nil rfl F i⟩
  · rw [hcases, fget_fset_far _ _ (by decide) (by decide) (by decide), fget_fset_same]
    rfl
  · rw [hcases, fget_fset_same]
    rfl
  · rw [hrest]
    exact ⟨rfl, rfl, rfl, rfl, rfl⟩

/-! ### The straps (R1, R2, R29, R53) -/

/-- The registers that the samples fix: role, identity, SID_BAD, and those whose reset value depends on the role. -/
def strapRegs : List (Fld × Nat) :=
  [(SYS_STRAP_ROLE, 0), (SYS_STRAP_SID, 0), (SYS_STRAP_SID_BAD, 0), (VOTE_LEASE_OWN, 0), (TIM_CFG_SRC, 0),
    (TIM_CFG_PORT, 0), (TIM_SERVO_BW, 0), (TIM_LOCKCFG_LOCKTH, 0)]

theorem strapSample_frame (s : State) (p : Straps) : s.SameRegsBut (strapSample s p) strapRegs :=
  sameRegs_fsets _ (sameRegs_refl _ _) (by simp [strapRegs])

theorem fget_strapSample_role (s : State) (p : Straps) : (strapSample s p).fget SYS_STRAP_ROLE = b2n p.role := by
  simp (disch := decide) only [strapSample, fsets_cons, fsets_nil, fget_fset_far, fget_fset_same]
  cases p.role <;> rfl

theorem fget_strapSample_sid (s : State) (p : Straps) :
    (strapSample s p).fget SYS_STRAP_SID = 2 * b2n p.sid1 + b2n p.sid0 := by
  simp (disch := decide) only [strapSample, fsets_cons, fsets_nil, fget_fset_far, fget_fset_same]
  cases p.sid1 <;> cases p.sid0 <;> rfl

theorem fget_strapSample_sidBad (s : State) (p : Straps) :
    (strapSample s p).fget SYS_STRAP_SID_BAD = b2n (p.role && p.sid1 && p.sid0) := by
  simp (disch := decide) only [strapSample, fsets_cons, fsets_nil, fget_fset_far, fget_fset_same]
  cases p.role <;> cases p.sid1 <;> cases p.sid0 <;> rfl

theorem strapSample_mem (s : State) (p : Straps) : (strapSample s p).mem = s.mem := fsets_mem _ _

theorem strapSample_pins (s : State) (p : Straps) : (strapSample s p).pins = s.pins := State.fsets_pins _ _

/-- The state that samples are taken in. -/
def sampled (s : State) (p : Straps) : State := { s with pins.straps := p, sys.since := s.clk }

/-- Three equal samples are taken. -/
theorem takeSamples_agree (s : State) (p : Straps) :
    takeSamples s p p p = { strapSample (sampled s p) p with sys.phase := .otpLoad } := by
  simp [takeSamples, samplesAgree, sampled]

theorem takeSamples_differ {s : State} {a b c : Straps} (h : a ≠ b ∨ b ≠ c) :
    takeSamples s a b c = { sampled s c with sys.phase := .strapWait } := by
  have hs : samplesAgree a b c = false := by
    rcases h with h | h <;> simp [samplesAgree, h]
  simp [takeSamples, hs, sampled]

theorem takeSamples_agree_fixes (s : State) (p : Straps) :
    (takeSamples s p p p).sys.phase = .otpLoad ∧ (takeSamples s p p p).fget SYS_STRAP_ROLE = b2n p.role ∧
      (takeSamples s p p p).fget SYS_STRAP_SID = 2 * b2n p.sid1 + b2n p.sid0 ∧
      (takeSamples s p p p).fget SYS_STRAP_SID_BAD = b2n (p.role && p.sid1 && p.sid0) ∧
      (takeSamples s p p p).pins.straps = p ∧ s.SameMem (takeSamples s p p p) ∧
      s.SameRegsBut (takeSamples s p p p) strapRegs := by
  have hrole := fget_strapSample_role (sampled s p) p
  have hsid := fget_strapSample_sid (sampled s p) p
  have hbad := fget_strapSample_sidBad (sampled s p) p
  have hpins : (strapSample (sampled s p) p).pins.straps = p := by rw [strapSample_pins, sampled]
  have hmem : (strapSample (sampled s p) p).mem = s.mem := strapSample_mem (sampled s p) p
  have hregs : s.SameRegsBut (strapSample (sampled s p) p) strapRegs := strapSample_frame (sampled s p) p
  rw [takeSamples_agree]
  generalize strapSample (sampled s p) p = u at *
  exact ⟨rfl, hrole, hsid, hbad, hpins, sameMem_of_mem hmem, hregs⟩

/-- The samples at lock. -/
theorem exec_pllLock {t : Time} {a b c : Straps} {s : State} (h : s.sys.phase = .pllLocking) :
    exec (.pllLock t a b c) s = .next (takeSamples ((s.at t).fset CLK_STAT_LOCK 0 1) a b c) :=
  congrArg Host.Outcome.next (if_pos (by simpa using h))

theorem exec_pllLock_idle {t : Time} {a b c : Straps} {s : State} (h : s.sys.phase ≠ .pllLocking) :
    exec (.pllLock t a b c) s = .next (s.at t) :=
  congrArg Host.Outcome.next (if_neg (by simpa using h))

theorem strapDue_iff {t : Time} {s : State} :
    ((s.at t).sys.phase == .strapWait && decide ((s.at t).sys.since + msT ≤ (s.at t).clk)) = true ↔
      s.sys.phase = .strapWait ∧ s.sys.since + msT ≤ max s.clk t := by
  rw [Bool.and_eq_true, beq_iff_eq, decide_eq_true_eq]
  rfl

/-- A later sampling, 1 ms after the one before. -/
theorem exec_strapResample {t : Time} {a b c : Straps} {s : State} (h : s.sys.phase = .strapWait)
    (ht : s.sys.since + msT ≤ max s.clk t) : exec (.strapResample t a b c) s = .next (takeSamples (s.at t) a b c) :=
  congrArg Host.Outcome.next (if_pos (strapDue_iff.mpr ⟨h, ht⟩))

theorem exec_strapResample_idle {t : Time} {a b c : Straps} {s : State}
    (h : s.sys.phase ≠ .strapWait ∨ max s.clk t < s.sys.since + msT) :
    exec (.strapResample t a b c) s = .next (s.at t) :=
  congrArg Host.Outcome.next (if_neg fun hd => h.elim (absurd (strapDue_iff.mp hd).1) (strapDue_iff.mp hd).2.not_gt)

/-- Settles O5: both commands take the samples by `takeSamples` under their condition, and idle outside it. -/
theorem strapsAreSampled : Obligations.StrapsAreSampled := by
  refine ⟨fun t p s h => ⟨_, exec_pllLock h, ?_⟩, fun t p s h ht => ⟨_, exec_strapResample h ht, ?_⟩,
    fun t a b c s hd => ⟨fun h => ?_, fun h ht => ?_⟩, fun t a b c s => ⟨exec_pllLock_idle, exec_strapResample_idle⟩⟩
  · obtain ⟨hphase, hrole, hsid, hbad, hpins, hmem, hregs⟩ := takeSamples_agree_fixes ((s.at t).fset CLK_STAT_LOCK 0 1) p
    have hlock := sameRegs_fget hregs CLK_STAT_LOCK 0 (by decide) (by decide)
    rw [fget_fset_same] at hlock
    refine ⟨hphase, hlock, hrole, hsid, hbad, hpins, hmem, sameRegs_trans (t := (s.at t).fset CLK_STAT_LOCK 0 1) ?_
      (sameRegs_mono hregs (by simp [strapRegs]))⟩
    exact sameRegs_fset (t := s.at t) _ _ _ (sameRegs_refl _ _) (by simp)
  · exact takeSamples_agree_fixes (s.at t) p
  · rw [exec_pllLock h, takeSamples_differ hd]
    rfl
  · rw [exec_strapResample h ht, takeSamples_differ hd]
    rfl

end Sys2Proof.Machine
end


section
/-! A change of the device's state, and the cell's command frames and votes. -/
namespace Sys2Proof.Machine

/-! ### A change of state (R30) -/

/-- The fields of SYS_STATE. -/
def stateRegs : List (Fld × Nat) :=
  [(SYS_STATE_TRANS_CNT, 0), (SYS_STATE_PREV, 0), (SYS_STATE_CAUSE, 0), (SYS_STATE_STATE, 0)]

theorem setDev_frame (s : State) (st cause : Nat) : s.SameRegsBut (setDev s st cause) stateRegs :=
  sameRegs_fsets _ (sameRegs_refl _ _) (by simp [stateRegs])

theorem setDev_mem (s : State) (st cause : Nat) : (setDev s st cause).mem = s.mem := fsets_mem _ _

theorem setDev_cell (s : State) (st cause : Nat) : (setDev s st cause).cell = s.cell := State.fsets_cell _ _

theorem devState_setDev (s : State) {st : Nat} (cause : Nat) (h : st < 16) : devState (setDev s st cause) = st :=
  (fget_fset_same _ _ _ _).trans (Nat.mod_eq_of_lt h)

theorem fget_setDev_cause (s : State) (st : Nat) {cause : Nat} (h : cause < 256) :
    (setDev s st cause).fget SYS_STATE_CAUSE = cause := by
  simp (disch := decide) only [setDev, fsets_cons, fsets_nil, fget_fset_far, fget_fset_same]
  exact Nat.mod_eq_of_lt h

theorem fget_setDev_prev (s : State) (st cause : Nat) :
    (setDev s st cause).fget SYS_STATE_PREV = devState s % 2 ^ SYS_STATE_PREV.width := by
  simp (disch := decide) only [setDev, fsets_cons, fsets_nil, fget_fset_far, fget_fset_same]

theorem fget_setDev_transCnt (s : State) (st cause : Nat) : (setDev s st cause).fget SYS_STATE_TRANS_CNT =
    (s.fget SYS_STATE_TRANS_CNT + 1) % 2 ^ SYS_STATE_TRANS_CNT.width := by
  simp (disch := decide) only [setDev, fsets_cons, fsets_nil, fget_fset_far, fget_fset_same]

/-- Settles O55: `setDev` writes the four fields of SYS_STATE, each once. -/
theorem aStateChangeIsRecorded : Obligations.AStateChangeIsRecorded := fun s st cause hst hcause =>
  ⟨devState_setDev s cause hst, fget_setDev_cause s st (by omega), fget_setDev_prev s st cause,
    fget_setDev_transCnt s st cause, setDev_frame s st cause, sameMem_of_mem (setDev_mem s st cause)⟩

/-! ### Command frames (R289, R315, R330) -/

section
variable {t : Time} {l : Lane} {fr : Frame} {s u : State} {ws : List Nat}

/-- A frame that the lane discards. -/
theorem exec_cmdFrame_discarded (hrx : rxCheck (s.at t) l fr = (false, u)) : exec (.cmdFrame t l fr) s = .next u := by
  show execCmdFrame t l fr s = _
  unfold execCmdFrame
  rw [hrx]
  cases fr.body <;> rfl

/-- A command frame held for its cycle, in place of one held for the same cycle. -/
def cmdHeld (l : Lane) (fr : Frame) (ws : List Nat) (v : State) : State :=
  { v with
    cell.held := smSet [] v.cell.held l ((smGet [] v.cell.held l).filter (fun e => e.1 != fr.hdr.cycle)
      ++ [(fr.hdr.cycle, stampAt v l v.clk, ws)]) }

/-- What becomes of a command frame that the cell consumes. -/
def cmdTaken (l : Lane) (fr : Frame) (ws : List Nat) (u : State) : State :=
  let d := cycDiff (cycleNow u) fr.hdr.cycle
  let v := learnHolder u fr.hdr.sid fr.hdr.epoch (bit fr.hdr.xflags 0)
  if !u.flag TIM_STAT_LOCK || 3 ≤ d then u.satAdd LNK_CNT1_STALE l
  else if d < -16 then u.satAdd LNK_CNT3_FUTURE l
  else if 1 ≤ d || (d == 0 && decide (voteInst u ≤ stampAt u l u.clk)) then markLate v fr.hdr.sid fr.hdr.cycle
  else cmdHeld l fr ws v

theorem exec_cmdFrame_taken (hrx : rxCheck (s.at t) l fr = (true, u)) (hb : fr.body = .cmd ws) (hup : isUpPort u l = true)
    (hpos : fr.hdr.pos = myPos u) : exec (.cmdFrame t l fr) s = .next (cmdTaken l fr ws u) := by
  have hme : forMe u l fr.hdr = true := by simp [forMe, hpos]
  show execCmdFrame t l fr s = _
  unfold execCmdFrame
  rw [hrx, hb]
  exact congrArg Host.Outcome.next (if_neg (by simp [hup, hme]))

theorem cmdTaken_stale (h : u.fget TIM_STAT_LOCK ≠ 1 ∨ 3 ≤ cycDiff (cycleNow u) fr.hdr.cycle) :
    cmdTaken l fr ws u = u.satAdd LNK_CNT1_STALE l := if_pos (by simpa [State.flag] using h)

section
variable (hlock : u.fget TIM_STAT_LOCK = 1)
include hlock

theorem cmdTaken_future (h : cycDiff (cycleNow u) fr.hdr.cycle < -16) :
    cmdTaken l fr ws u = u.satAdd LNK_CNT3_FUTURE l :=
  (if_neg (by simp [State.flag, hlock]; omega)).trans (if_pos h)

/-- A locked cell's frame for the cycle in progress or one near it is late from the vote instant on. -/
theorem cmdTaken_near (hold : cycDiff (cycleNow u) fr.hdr.cycle < 3) (hahead : -16 ≤ cycDiff (cycleNow u) fr.hdr.cycle) :
    cmdTaken l fr ws u =
      if 1 ≤ cycDiff (cycleNow u) fr.hdr.cycle ∨
          (cycDiff (cycleNow u) fr.hdr.cycle = 0 ∧ voteInst u ≤ stampAt u l u.clk) then
        markLate (learnHolder u fr.hdr.sid fr.hdr.epoch (bit fr.hdr.xflags 0)) fr.hdr.sid fr.hdr.cycle
      else cmdHeld l fr ws (learnHolder u fr.hdr.sid fr.hdr.epoch (bit fr.hdr.xflags 0)) := by
  refine (if_neg (by simp [State.flag, hlock]; omega)).trans ((if_neg (by omega)).trans ?_)
  simp only [Bool.or_eq_true, Bool.and_eq_true, decide_eq_true_eq, beq_iff_eq]

end

end

/-! ### The vote (R315 to R321) -/

/-- The streams present at the vote instant of the cycle in progress. -/
def streams (s : State) : List Nat := [0, 1, 2].filter (fun sid => (present s sid (cycleNow s)).isSome)

/-- The words of one of them. -/
def streamWords (s : State) (sid : Nat) : List Nat := (present s sid (cycleNow s)).getD []

/-- The streams that were late for this cycle. -/
def lateStreams (s : State) : List Nat := [0, 1, 2].filter (fun sid => smGet 0 s.cell.late sid == cycleNow s + 1)

/-- Two streams agree in every word of the mask. -/
def streamsAgree (s : State) (a b : Nat) : Bool :=
  (List.range 64).all (fun w => !bit (s.fget VOTE_CMASK_MASK (w / 32)) (w % 32) ||
    (streamWords s a).getD w 0 == (streamWords s b).getD w 0)

/-- The vote of the cycle in progress. -/
def voteOf (s : State) : Vote := decideVote (streams s) (streamsAgree s) s.cell.holder (s.flag VOTE_CCFG_SOLO)

/-- The coasts after the vote. -/
def voteCc (s : State) : Nat := if (voteOf s).used.isSome then 0 else s.cell.cc + 1

/-- The word of VOTE_CSTAT. -/
def voteWord (s : State) : Nat :=
  min (voteCc s) 255 * 2 ^ 24 + (voteOf s).result * 2 ^ 20 + s.cell.holder * 2 ^ 16 +
    (match (voteOf s).used with | some u => 2 ^ (12 + u) | none => 0) + maskOf (voteOf s).dissent * 256 +
    maskOf (lateStreams s) * 16 + maskOf (streams s)

/-- The references of the vote are applied: a usable vote, outside SAFE and BYPASSED but for a rejoin (R320). -/
def voteApplies (s : State) : Bool :=
  (voteOf s).used.isSome && (s.cell.rejoin || (devState s != 14 && devState s != 15))

/-- The counter of a stream's dissents. -/
def disFld (sid : Nat) : Fld := [VOTE_CCNT0_DIS0, VOTE_CCNT0_DIS1].getD sid VOTE_CCNT1_DIS2

/-- The dissents of a vote counted. -/
def countDissent (s : State) (l : List Nat) : State := l.foldl (fun x sid => x.satAdd (disFld sid) 0) s

/-- The vote's dissents and its coast counted. -/
def voteCounted (s : State) : State :=
  if (voteOf s).used.isSome then countDissent s (voteOf s).dissent
  else (countDissent s (voteOf s).dissent).satAdd VOTE_CCNT1_COASTS 0

/-- The vote recorded: it reaches PD1 after the crossing `x`, and `f` free values have been drawn. -/
def voteStored (s : State) (x f : Nat) : State :=
  let n := voteCounted s
  { n with
    free := f
    cell := { n.cell with
      cc := voteCc s, voteOk := (voteOf s).used.isSome, voteCyc := cycleNow s + 1, voteAt := n.clk + x
      applyAt := if voteApplies s then s.tim.bound else s.cell.applyAt
      seenAt := if streams s = [] then s.cell.seenAt else n.clk
      held := s.cell.held.map (fun (e : Nat × List (Nat × Nat × List Nat)) =>
        (e.1, e.2.filter (fun y => cycDiff (cycleNow s) y.1 < 0))) } }.fset VOTE_CSTAT_VOTE 0 (voteWord s)

/-- The references taken over, and the points of the vote written. -/
def voteShown (s : State) (x f : Nat) : State :=
  let a := voteStored s x f
  let b := if voteApplies s then
    (List.range 64).foldl (fun (y : State) w =>
      y.fset VOTE_REF_WORD w ((streamWords s ((voteOf s).used.getD 0)).getD w 0)) a else a
  let z := sysSlot b 1 (voteWord s)
  if voteApplies s then sysSlot z 6 (cycleNow s) else z

/-- The state that the vote leads to. -/
def voteDone (s : State) (x f : Nat) : State :=
  let e := coast (voteShown s x f)
  if voteApplies s && shippedCfg e && decide (10 ≤ devState e) && decide (devState e ≤ 13) then obeyCtl e else e

theorem countDissent_regs (s : State) (l : List Nat) : countDissent s l = { s with regs := (countDissent s l).regs } := by
  induction l generalizing s with
  | nil => rfl
  | cons sid l ih => exact ih (s.satAdd (disFld sid) 0)

theorem countDissent_free (s : State) (l : List Nat) (f : Nat) :
    countDissent { s with free := f } l = { countDissent s l with free := f } := by
  induction l generalizing s with
  | nil => rfl
  | cons sid l ih => exact ih (s.satAdd (disFld sid) 0)

theorem disFld_key (sid : Nat) : keyAddr ((disFld sid).key 0) ∈ [0x151814, 0x151818] := by
  obtain rfl | rfl | h : sid = 0 ∨ sid = 1 ∨ 2 ≤ sid := by omega
  · decide
  · decide
  · have hnone : [VOTE_CCNT0_DIS0, VOTE_CCNT0_DIS1][sid]? = none := List.getElem?_eq_none h
    rw [disFld, List.getD_eq_getElem?_getD, hnone]
    decide

theorem fget_countDissent {s : State} {l : List Nat} {G : Fld} {j : Nat} (h : keyAddr (G.key j) ∉ [0x151814, 0x151818]) :
    (countDissent s l).fget G j = s.fget G j := by
  induction l generalizing s with
  | nil => rfl
  | cons sid l ih =>
    exact (ih (s := s.satAdd (disFld sid) 0)).trans
      (fget_satAdd_other _ _ fun e => h (by rw [e]; exact disFld_key sid))

/-- Neither the dissents nor the coast read anything but the registers. -/
theorem voteCounted_regs (s : State) : voteCounted s = { s with regs := (voteCounted s).regs } := by
  unfold voteCounted
  split
  · exact countDissent_regs _ _
  · rw [countDissent_regs]; rfl

theorem voteCounted_free (s : State) (f : Nat) : voteCounted { s with free := f } = { voteCounted s with free := f } := by
  have hv : voteOf { s with free := f } = voteOf s := rfl
  unfold voteCounted
  rw [hv, countDissent_free]
  split <;> rfl

theorem fget_voteCounted {s : State} {G : Fld} {j : Nat} (h : keyAddr (G.key j) ∉ [0x151814, 0x151818]) :
    (voteCounted s).fget G j = s.fget G j := by
  unfold voteCounted
  split
  · exact fget_countDissent h
  · exact (fget_satAdd_other _ _ fun e => h (by rw [e]; decide)).trans (fget_countDissent h)

theorem devState_voteCounted (s : State) : devState (voteCounted s) = devState s := fget_voteCounted (by decide)

/-- VOTE_INSTANT is due. -/
def voteDue (t : Time) (s : State) : Prop :=
  isStack s = false ∧ s.cell.voteCyc ≠ cycleNow s + 1 ∧
    voteInst s + 5 * 65536 ≤ netTime (s.at t) ∧ netTime (s.at t) < voteInst s + 5 * 65536 + 109227

theorem voteIdle_iff {t : Time} {s : State} :
    (isStack (s.at t) || (s.at t).cell.voteCyc == cycleNow (s.at t) + 1 ||
      !dueAt (s.at t) (voteInst (s.at t) + 5 * 65536) 109227) = true ↔ ¬ voteDue t s := by
  rw [voteDue, dueAt, isStack_at, State.at_cell, cycleNow_at, voteInst_at, ← Bool.not_eq_false, not_iff_not]
  simp [and_assoc]

/-- At the vote instant the vote is taken, with the crossing to PD1 drawn. -/
theorem exec_voteInstant {t : Time} {s : State} (h : voteDue t s) :
    exec (.voteInstant t) s =
      .next (voteDone (s.at t) (drawBetween (s.at t) (2 * nsT) (3 * nsT)).1 (s.free + 1)) := by
  refine congrArg Host.Outcome.next ((if_neg (fun hi => voteIdle_iff.mp hi h)).trans ?_)
  split
  rename_i x s₂ e₂
  cases e₂
  extract_lets c l ws agree v late s₃ ok s₄ cc word st applies words cell s₅ s₆ s₇ s₈ s₉
  obtain ⟨r, hr⟩ : ∃ r, voteCounted (s.at t) = { s.at t with regs := r } := ⟨_, voteCounted_regs _⟩
  have h₄ : s₄ = { s.at t with regs := r, free := s.free + 1 } := by
    refine (voteCounted_free (s.at t) (s.free + 1)).trans ?_
    rw [hr]
  have hdev : devState s₄ = devState (s.at t) := by
    rw [h₄, ← devState_voteCounted (s.at t), hr]; rfl
  have hseen (a b : Time) : (if l.isEmpty = true then a else b) = if streams (s.at t) = [] then a else b :=
    if_congr List.isEmpty_iff rfl rfl
  clear_value s₄
  subst h₄
  have happ : applies = voteApplies (s.at t) := by
    unfold applies st
    rw [hdev]
    rfl
  have h₆ : s₆ = voteStored (s.at t) (drawBetween (s.at t) (2 * nsT) (3 * nsT)).1 (s.free + 1) := by
    unfold s₆ s₅
    rw [hseen, happ, voteStored, hr]
    rfl
  have h₉ : s₉ = coast (voteShown (s.at t) (drawBetween (s.at t) (2 * nsT) (3 * nsT)).1 (s.free + 1)) := by
    unfold s₉ s₈ s₇
    rw [happ, voteShown, h₆]
    rfl
  rw [voteDone, happ, h₉]
  rfl

theorem exec_voteInstant_idle {t : Time} {s : State} (h : ¬ voteDue t s) : exec (.voteInstant t) s = .next (s.at t) :=
  congrArg Host.Outcome.next (if_pos (voteIdle_iff.mpr h))

theorem drawBetween_bounds (s : State) {lo hi : Time} (h : lo ≤ hi) :
    lo ≤ (drawBetween s lo hi).1 ∧ (drawBetween s lo hi).1 ≤ hi := by
  have hmod : Config.freeWord s.free % (hi - lo + 1) ≤ hi - lo := Nat.le_of_lt_succ (Nat.mod_lt _ (Nat.succ_pos _))
  refine ⟨Nat.le_add_right _ _, ?_⟩
  calc (drawBetween s lo hi).1
      ≤ lo + (hi - lo) := Nat.add_le_add_left hmod lo
    _ = hi := Nat.add_sub_cancel' h

/-! ### The coast (R34, R319) -/

section
variable {s : State}

theorem coast_back (hcc : s.cell.cc = 0) (hst : devState s = 13) : coast s = setDev s 12 CA_NONE := by
  simp [coast, hcc, hst, ST_COAST, ST_CRUN]

theorem coast_voted (hcc : s.cell.cc = 0) (hst : devState s ≠ 13) : coast s = s := by
  simp [coast, hcc, hst, ST_COAST]

theorem coast_lost (hcc : 0 < s.cell.cc) (hlim : s.fget VOTE_CCFG_COAST < s.cell.cc)
    (hst : devState s = 12 ∨ devState s = 13) : coast s = enterSafe s CA_STREAMS := by
  have : s.cell.cc ≠ 0 := by omega
  simp [coast, this, hlim, hst, ST_COAST, ST_CRUN]

theorem coast_begins (hcc : 0 < s.cell.cc) (hlim : ¬ s.fget VOTE_CCFG_COAST < s.cell.cc) (hst : devState s = 12) :
    coast s = causedDev s 13 CA_STREAMS := by
  have : s.cell.cc ≠ 0 := by omega
  simp [coast, this, hlim, hst, ST_COAST, ST_CRUN]

theorem coast_bypassed (hcc : 0 < s.cell.cc) (hst : devState s = 15)
    (hprev : s.fget SYS_STATE_PREV = 12 ∨ s.fget SYS_STATE_PREV = 13) : coast s = enterSafe s CA_STREAMS := by
  have : s.cell.cc ≠ 0 := by omega
  simp [coast, this, hst, hprev, ST_COAST, ST_CRUN, ST_BYPASSED]

theorem coast_elsewhere (h12 : devState s ≠ 12) (h13 : devState s ≠ 13) (h15 : devState s ≠ 15) : coast s = s := by
  simp [coast, h12, h13, h15, ST_COAST, ST_CRUN, ST_BYPASSED]

/-- A state outside those that continue one another within a cycle (R34) is entered by a change of its own. -/
theorem causedDev_of_running {st cause : Nat} (h : devState s = 12) :
    causedDev s st cause = setDev { s with cell.safeCycle := cycleNow s } st cause := by
  simp [causedDev, h, ST_DEGRADED, ST_COAST, ST_CSAFE, ST_TIME_LOCK]

/-- What the beginning of a coast changes. -/
theorem coast_begins_records (hcc : 0 < s.cell.cc) (hlim : ¬ s.fget VOTE_CCFG_COAST < s.cell.cc) (hst : devState s = 12) :
    devState (coast s) = 13 ∧ (coast s).fget SYS_STATE_CAUSE = CA_STREAMS ∧ (coast s).fget SYS_STATE_PREV = 12 ∧
      (coast s).cell.cc = s.cell.cc ∧ (coast s).mem = s.mem ∧ s.SameRegsBut (coast s) stateRegs := by
  have hst' : devState { s with cell.safeCycle := cycleNow s } = 12 := hst
  rw [coast_begins hcc hlim hst, causedDev_of_running hst, fget_setDev_prev, hst', setDev_cell, setDev_mem]
  exact ⟨devState_setDev _ _ (by decide), fget_setDev_cause _ _ (by decide), rfl, rfl, rfl, setDev_frame _ _ _⟩

end

/-! ### A vote without streams (R319) -/

/-- No stream is present for the cycle in progress. -/
def noStreams (s : State) : Prop := ∀ sid, sid < 3 → present s sid (cycleNow s) = none

theorem sysSlot_of_off {s : State} (h : domOn s 2 = false) (k v : Nat) : sysSlot s k v = s := by simp [sysSlot, h]

theorem fget_voteStored {s : State} {x f : Nat} {G : Fld} {j : Nat}
    (h : keyAddr (G.key j) ∉ [0x151814, 0x151818, 0x15180c]) : (voteStored s x f).fget G j = s.fget G j := by
  simp only [List.mem_cons, List.not_mem_nil, or_false, not_or] at h
  obtain ⟨h0, h1, hstat⟩ := h
  rw [voteStored, fget_fset_other _ _ (keyAddr_ne hstat)]
  exact fget_voteCounted (by simp [h0, h1])

theorem devState_voteStored (s : State) (x f : Nat) : devState (voteStored s x f) = devState s := fget_voteStored (by decide)

section
variable {s : State} (hno : noStreams s)
include hno

theorem streams_of_none : streams s = [] := by
  simp [streams, hno 0 (by decide), hno 1 (by decide), hno 2 (by decide)]

theorem voteOf_of_none : voteOf s = ⟨6, none, []⟩ := by
  rw [voteOf, streams_of_none hno]; rfl

theorem voteCounted_of_none : voteCounted s = s.satAdd VOTE_CCNT1_COASTS 0 := by
  rw [voteCounted, voteOf_of_none hno]; rfl

theorem voteCell_of_none (x f : Nat) :
    (voteStored s x f).cell.cc = s.cell.cc + 1 ∧ (voteStored s x f).cell.voteOk = false ∧
      (voteStored s x f).cell.voteAt = s.clk + x ∧ (voteStored s x f).cell.voteCyc = cycleNow s + 1 := by
  have hcc : voteCc s = s.cell.cc + 1 := by rw [voteCc, voteOf_of_none hno]; rfl
  have hok : (voteOf s).used.isSome = false := by rw [voteOf_of_none hno]; rfl
  rw [voteStored, voteCounted_of_none hno, State.fset_cell]
  exact ⟨hcc, hok, rfl, rfl⟩

theorem voteStored_mem_of_none (x f : Nat) : (voteStored s x f).mem = s.mem := by
  rw [voteStored, voteCounted_of_none hno, State.fset_mem]; rfl

theorem voteStored_frame_of_none (x f : Nat) :
    s.SameRegsBut (voteStored s x f) [(VOTE_CCNT1_COASTS, 0), (VOTE_CSTAT_VOTE, 0)] := by
  rw [voteStored, voteCounted_of_none hno]
  refine sameRegs_fset _ _ _ ?_ (by simp)
  exact sameRegs_fset (t := s) _ _ _ (sameRegs_refl _ _) (by simp)

theorem fget_voteStored_coasts_of_none (x f : Nat) :
    (voteStored s x f).fget VOTE_CCNT1_COASTS = min (s.fget VOTE_CCNT1_COASTS + 1) 65535 := by
  rw [voteStored, voteCounted_of_none hno, fget_fset_far _ _ (by decide) (by decide) (by decide)]
  have h : (s.satAdd VOTE_CCNT1_COASTS 0).fget VOTE_CCNT1_COASTS =
      min (s.fget VOTE_CCNT1_COASTS + 1) (2 ^ 16 - 1) % 2 ^ 16 := fget_fset_same _ _ _ _
  refine h.trans (Nat.mod_eq_of_lt ?_)
  omega

/-- With PD2 off as well the vote writes no point, and the coast alone follows. -/
theorem voteDone_of_none (hoff : domOn s 2 = false) (x f : Nat) : voteDone s x f = coast (voteStored s x f) := by
  have happ : voteApplies s = false := by rw [voteApplies, voteOf_of_none hno]; rfl
  have hdom : domOn (voteStored s x f) 2 = false := by
    rw [domOn, fget_voteStored (by decide)]; exact hoff
  have hshown : voteShown s x f = voteStored s x f := by
    simp only [voteShown, happ, Bool.false_eq_true, if_false, sysSlot_of_off hdom]
  simp only [voteDone, happ, hshown, Bool.false_and, Bool.false_eq_true, if_false]

end

/-- A cell that is not in RUN, COAST or BYPASSED counts the coast and stays in its state. -/
theorem voteInstant_coast_stays {t : Time} {s : State} (hdue : voteDue t s) (hno : noStreams (s.at t))
    (hoff : domOn s 2 = false) (h5 : 5 ≤ devState s) (h11 : devState s ≤ 11) :
    Answers (exec (.voteInstant t) s) (fun u => u.cell.cc = s.cell.cc + 1 ∧ u.cell.voteOk = false ∧
      max s.clk t + 2 * nsT ≤ u.cell.voteAt ∧ u.cell.voteAt ≤ max s.clk t + 3 * nsT ∧
      u.cell.voteCyc = cycleNow s + 1 ∧ u.fget VOTE_CCNT1_COASTS = min (s.fget VOTE_CCNT1_COASTS + 1) 65535 ∧
      s.SameMem u ∧ s.SameRegsBut u [(VOTE_CCNT1_COASTS, 0), (VOTE_CSTAT_VOTE, 0)]) := by
  obtain ⟨hlo, hhi⟩ := drawBetween_bounds (s.at t) (lo := 2 * nsT) (hi := 3 * nsT) (by decide)
  refine ⟨_, exec_voteInstant hdue, ?_⟩
  generalize (drawBetween (s.at t) (2 * nsT) (3 * nsT)).1 = x at hlo hhi ⊢
  have hst : devState (voteStored (s.at t) x (s.free + 1)) = devState s := devState_voteStored _ _ _
  obtain ⟨hcc, hok, hat, hcyc⟩ := voteCell_of_none hno x (s.free + 1)
  have hstays : coast (voteStored (s.at t) x (s.free + 1)) = voteStored (s.at t) x (s.free + 1) :=
    coast_elsewhere (by rw [hst]; omega) (by rw [hst]; omega) (by rw [hst]; omega)
  rw [voteDone_of_none hno hoff, hstays, hcc, hok, hat, hcyc]
  exact ⟨rfl, rfl, Nat.add_le_add_left hlo _, Nat.add_le_add_left hhi _, rfl, fget_voteStored_coasts_of_none hno x _,
    sameMem_of_mem (voteStored_mem_of_none hno x _), voteStored_frame_of_none hno x _⟩

/-- A running cell coasts while its coasts are within the limit. -/
theorem voteInstant_coast_begins {t : Time} {s : State} (hdue : voteDue t s) (hno : noStreams (s.at t))
    (hoff : domOn s 2 = false) (hrun : devState s = 12) (hlim : s.cell.cc + 1 ≤ s.fget VOTE_CCFG_COAST) :
    Answers (exec (.voteInstant t) s) (fun u => devState u = 13 ∧ u.fget SYS_STATE_CAUSE = CA_STREAMS ∧
      u.fget SYS_STATE_PREV = 12 ∧ u.cell.cc = s.cell.cc + 1 ∧ s.SameMem u ∧
      s.SameRegsBut u [(VOTE_CCNT1_COASTS, 0), (VOTE_CSTAT_VOTE, 0), (SYS_STATE_TRANS_CNT, 0), (SYS_STATE_PREV, 0),
        (SYS_STATE_CAUSE, 0), (SYS_STATE_STATE, 0)]) := by
  refine ⟨_, exec_voteInstant hdue, ?_⟩
  generalize (drawBetween (s.at t) (2 * nsT) (3 * nsT)).1 = x
  obtain ⟨hcc, -⟩ := voteCell_of_none hno x (s.free + 1)
  have hframe := voteStored_frame_of_none hno x (s.free + 1)
  have hmem := voteStored_mem_of_none hno x (s.free + 1)
  have hst : devState (voteStored (s.at t) x (s.free + 1)) = 12 := (devState_voteStored _ _ _).trans hrun
  have hcoast : (voteStored (s.at t) x (s.free + 1)).fget VOTE_CCFG_COAST = s.fget VOTE_CCFG_COAST :=
    fget_voteStored (by decide)
  rw [State.at_cell] at hcc
  rw [voteDone_of_none hno hoff]
  generalize voteStored (s.at t) x (s.free + 1) = u at *
  obtain ⟨hst', hcause, hprev, hcc', hmem', hframe'⟩ := coast_begins_records (by omega) (by omega) hst
  exact ⟨hst', hcause, hprev, hcc'.trans hcc, sameMem_of_mem (hmem'.trans hmem),
    sameRegs_trans (sameRegs_mono hframe (by simp)) (sameRegs_mono hframe' (by simp [stateRegs]))⟩

/-! ### The holder is forgotten (R330) -/

theorem exec_cellEpochClear {t : Time} {s : State} (hcell : isStack s = false)
    (h : s.cell.seenAt + 20 * msT ≤ max s.clk t) :
    exec (.cellEpochClear t) s = .next ({ s.at t with cell.holder := 3 }.fset VOTE_CEPOCH_EPOCH 0 0) := by
  refine congrArg Host.Outcome.next (if_neg ?_)
  rw [isStack_at, hcell, Bool.false_or, decide_eq_true_eq]
  exact not_lt.mpr h

theorem exec_cellEpochClear_idle {t : Time} {s : State} (h : max s.clk t < s.cell.seenAt + 20 * msT) :
    exec (.cellEpochClear t) s = .next (s.at t) := by
  refine congrArg Host.Outcome.next (if_pos ?_)
  rw [Bool.or_eq_true, decide_eq_true_eq]
  exact .inr h

/-- Settles O39: a frame is sorted by `cmdTaken`, and the vote leads to `voteDone`, whose coast is that of R319. -/
theorem commandFramesAndVotes : Obligations.CommandFramesAndVotes := by
  refine ⟨fun t l fr s u ws hrx hb hup hpos => ?_, fun t l fr s u => exec_cmdFrame_discarded, fun t s h => ?_,
    fun t s hcell hcyc hlo hhi => ?_,
    fun s => ⟨coast_back, coast_voted, fun ⟨hcc, hlim⟩ => coast_lost hcc hlim,
      fun hcc hlost => coast_begins hcc fun hlim => hlost ⟨hcc, hlim⟩, coast_bypassed, coast_elsewhere⟩,
    fun t s hcell hoff h5 h11 hcyc hlo hhi hno => voteInstant_coast_stays ⟨hcell, hcyc, hlo, hhi⟩ hno hoff h5 h11,
    fun t s hcell hrun hlim hcyc hlo hhi hoff hno =>
      voteInstant_coast_begins ⟨hcell, hcyc, hlo, hhi⟩ hno hoff hrun hlim,
    fun t s hcell => ⟨exec_cellEpochClear hcell, exec_cellEpochClear_idle⟩⟩
  · rw [exec_cmdFrame_taken hrx hb hup hpos]
    refine ⟨fun h => by rw [cmdTaken_stale h], fun hlock h => by rw [cmdTaken_future hlock h], fun hlock h => ?_,
      fun hlock h16 h => ?_⟩
    · rw [cmdTaken_near hlock (by omega) (by omega), if_pos (by omega)]
    · rw [cmdTaken_near hlock (by omega) h16, if_neg (by omega)]
      rfl
  · refine exec_voteInstant_idle fun ⟨hcell, hcyc, hlo, hhi⟩ => ?_
    rcases h with h | h | h | h
    · rw [hcell] at h; cases h
    · exact hcyc h
    · omega
    · omega
  · obtain ⟨hx, hx'⟩ := drawBetween_bounds (s.at t) (lo := 2 * nsT) (hi := 3 * nsT) (by decide)
    exact ⟨_, s.free + 1, hx, hx', exec_voteInstant ⟨hcell, hcyc, hlo, hhi⟩⟩

end Sys2Proof.Machine
end


section
/-! Enumeration, pitch, the breaker and the pulses of a stack. -/
namespace Sys2Proof.Machine

@[simp] theorem shippedCfg_at (t : Time) (s : State) : shippedCfg (s.at t) = shippedCfg s := rfl

/-! ### Enumeration (R31) -/

section
variable {t : Time} {s : State}

theorem exec_enumComplete (hstack : isStack s = true) (hst : devState s = 2)
    (hfar : (usedChains s).all (fun k =>
      laneActive s k && (heardCells (s.at t)).contains (8 * k + chainLen s k - 1)) = true)
    (hfull : armsFull (s.at t) (heardCells (s.at t)) = true) :
    exec (.enumComplete t) s =
      .next (setDev { s.at t with ctl.found := heardCells (s.at t) } ST_TIME_LOCK CA_NONE) := by
  refine congrArg Host.Outcome.next (if_pos ?_)
  rw [Bool.and_eq_true, Bool.and_eq_true, Bool.and_eq_true, beq_iff_eq]
  exact ⟨⟨⟨hstack, hst⟩, hfar⟩, hfull⟩

/-- ENUM_TIMEOUT after its time, in ENUMERATE. -/
theorem exec_enumTimeout (hstack : isStack s = true) (hst : devState s = 2)
    (hdue : s.ctl.enumAt + (cfgOf s).topo.enumTimeout * msT ≤ max s.clk t) :
    exec (.enumTimeout t) s = .next (
      if armsFull (s.at t) (heardCells (s.at t)) = true then
        setDev { s.at t with ctl.found := heardCells (s.at t) } ST_TIME_LOCK CA_NONE
      else setCause { s.at t with ctl.enumAt := max s.clk t, ctl.cells := [], ctl.found := [] } CA_TOPOLOGY) := by
  refine congrArg Host.Outcome.next (if_neg ?_)
  rw [Bool.or_eq_true, Bool.or_eq_true, isStack_at, devState_at, hstack, hst, decide_eq_true_eq]
  exact fun h => h.elim (by decide) (not_lt.mpr hdue)

theorem exec_enum_idle (h : isStack s = false ∨ devState s ≠ 2) :
    exec (.enumComplete t) s = .next (s.at t) ∧ exec (.enumTimeout t) s = .next (s.at t) := by
  constructor
  · refine congrArg Host.Outcome.next (if_neg ?_)
    rw [Bool.and_eq_true, Bool.and_eq_true, Bool.and_eq_true, beq_iff_eq, isStack_at, devState_at]
    rintro ⟨⟨⟨hstack, hst⟩, -⟩, -⟩
    exact h.elim (fun h => by rw [hstack] at h; cases h) (fun h => h hst)
  · refine congrArg Host.Outcome.next (if_pos ?_)
    rw [Bool.or_eq_true, Bool.or_eq_true, isStack_at, devState_at, bne_iff_ne, Bool.not_eq_true']
    exact .inl h

/-! ### The entry to PITCH (R31, R163, R179) -/

/-- A cell that pitch may begin with. -/
def cellRests (s : State) (c : Nat) : Bool := cellState s c == ST_READY || cellState s c == ST_PRECHARGED

/-- The stack rejoins while a peer runs (R341). -/
def rejoinsPeer (s : State) : Bool :=
  s.vote.rejoin && [0, 1, 2].any (fun sid => sid != ownSid s && peerRuns s sid)

/-- What PITCH begins with. -/
def pitchBegun (x : State) : State :=
  { x with ctl := { x.ctl with
    step := 1, pitchAt := x.clk, laggards := false, startHeld := false, ctlStop := false, stop := none, stopStep := 0 } }

/-- PITCH entered, before the cells are classed. -/
def pitchEntered (s : State) : State := pitchBegun (setDev (classReads s) ST_PITCH CA_NONE)

/-- Every configured cell classed anew; `s` is the state that PITCH is entered from. -/
def pitchClassed (s u : State) : State :=
  wordsPut ((cfgCells u).foldl (fun (v : State) c =>
    let n := if rejoinsPeer s then classOf v c else if cellRests s c then C_JOINING else C_LOST
    sysPoint { v with ctl := { v.ctl with cls := smSet 0 v.ctl.cls c n, frozen := smErase v.ctl.frozen c } }
      (P_CLASS c) n) u)

theorem exec_pitchEntry (hstack : isStack s = true) (hst : devState s = 3) (hlock : s.fget TIM_STAT_LOCK = 1)
    (hheld : s.ctl.startHeld = true) (hready : rejoinsPeer (s.at t) = true ∨ ∀ c ∈ s.ctl.found, cellRests s c = true) :
    exec (.pitchEntry t) s = .next (
      if (cfgOf (pitchEntered (s.at t))).ctrl.shipped = true then pitchClassed (s.at t) (pitchEntered (s.at t))
      else pitchEntered (s.at t)) := by
  have hready' : (rejoinsPeer (s.at t) || s.ctl.found.all (cellRests (s.at t))) = true := by
    rw [Bool.or_eq_true, List.all_eq_true]
    exact hready
  show execPitchEntry t s = _
  unfold execPitchEntry
  extract_lets s₁ rejoins rdy x xc s₂ c₂ u v
  have hx : setDev (classReads (s.at t)) ST_PITCH CA_NONE = x := rfl
  rw [pitchEntered, hx]
  clear_value x
  have hu : pitchBegun x = u := rfl
  rw [hu]
  clear_value u
  refine congrArg Host.Outcome.next (if_pos ?_)
  rw [Bool.and_eq_true, Bool.and_eq_true, Bool.and_eq_true, Bool.and_eq_true, beq_iff_eq]
  exact ⟨⟨⟨⟨hstack, hst⟩, beq_iff_eq.mpr hlock⟩, hheld⟩, hready'⟩

theorem exec_pitchEntry_idle
    (h : isStack s = false ∨ devState s ≠ 3 ∨ s.fget TIM_STAT_LOCK ≠ 1 ∨ s.ctl.startHeld = false) :
    exec (.pitchEntry t) s = .next (s.at t) := by
  refine congrArg Host.Outcome.next (if_neg ?_)
  rw [Bool.and_eq_true, Bool.and_eq_true, Bool.and_eq_true, Bool.and_eq_true, beq_iff_eq]
  rintro ⟨⟨⟨⟨hstack, hst⟩, hlock⟩, hheld⟩, -⟩
  rcases h with h | h | h | h
  · rw [← isStack_at t, hstack] at h; cases h
  · exact h hst
  · exact h (beq_iff_eq.mp hlock)
  · rw [← State.at_ctl (t := t), hheld] at h; cases h

/-- The cells that precharge has not brought on by its deadline. -/
def laggards (v : State) : List Nat :=
  v.ctl.found.filter (fun c => ! [ST_PRECHARGED, ST_BYPASSED, ST_CRUN, ST_COAST].contains (cellState v c))

/-- The deadline of precharge: the holder's bypass of the cells that lag, and a stop where an arm is too short of them. -/
def prechargeEnded (v : State) : State :=
  let u := { v with ctl.laggards := true }
  let w := if holds u then
    { u with ctl.sent := u.ctl.sent ++ (laggards v).map (fun c => (c, false, knownEpoch u)) } else u
  if armShort w (laggards v) then stopBegin w CA_TOPOLOGY else w

theorem exec_prechargeTimeout (hstack : isStack s = true) (hst : devState s = 4) (hstep : s.ctl.step = 1)
    (hlag : s.ctl.laggards = false) (hship : shippedCfg s = true)
    (hdue : s.ctl.pitchAt + (cfgOf s).ctrl.prechgTmo * secT ≤ max s.clk t) :
    exec (.prechargeTimeout t) s = .next (prechargeEnded (classReads (s.at t))) := by
  refine congrArg Host.Outcome.next (if_neg ?_)
  rw [Bool.or_eq_true, Bool.or_eq_true, Bool.or_eq_true, Bool.or_eq_true, Bool.or_eq_true, decide_eq_true_eq]
  rintro (((((h | h) | h) | h) | h) | h)
  · simp [hship] at h
  · simp [hstack] at h
  · simp [hst, ST_PITCH] at h
  · simp [hstep] at h
  · simp [hlag] at h
  · exact not_lt.mpr hdue h

end

/-! ### The breaker (R178, R179, R181) -/

section
variable {t : Time} {s : State}

theorem exec_breakerClose (hstack : isStack s = true) (hst : devState s = 5) (hstep : s.ctl.step = 3) (hbrk : s.ctl.brk = 0)
    (hstop : s.ctl.stop = none) (hship : shippedCfg s = true) :
    exec (.breakerClose t) s = .next (
      let v := eccSlots (s.at t) [0x30803]
      if devState v == ST_RUN && ptWord v 0x30803 == F_ONE then
        { breakerPulse v 0 with ctl := { (breakerPulse v 0).ctl with brk := 2, brkAt := (breakerPulse v 0).clk } }
      else v) := by
  refine congrArg Host.Outcome.next (if_pos ?_)
  simp [hstack, hst, hstep, hbrk, hstop, hship, ST_RUN]

theorem exec_breakerClose_idle (h : shippedCfg s = false ∨ devState s ≠ 5) :
    exec (.breakerClose t) s = .next (s.at t) := by
  refine congrArg Host.Outcome.next (if_neg ?_)
  rcases h with h | h <;> simp +contextual [h, ST_RUN]

/-- What follows a precharge, a breaker or a stop belongs to the shipped bills (R155). -/
theorem exec_shippedEvents_idle (h : shippedCfg s = false) :
    exec (.prechargeTimeout t) s = .next (s.at t) ∧ exec (.breakerTimeout t) s = .next (s.at t) ∧
      exec (.stopBreakerOpen t) s = .next (s.at t) := by
  refine ⟨congrArg Host.Outcome.next (if_pos ?_), congrArg Host.Outcome.next (if_pos ?_),
    congrArg Host.Outcome.next (if_pos ?_)⟩ <;> simp [h]

/-- PI0 and PI1 as the breaker shows them. -/
def breakerSeen (t : Time) (s : State) (closed : Bool) : State :=
  { s.at t with pins.pi := putBit (putBit s.pins.pi 0 closed) 1 (!closed) }

section
variable (hstack : isStack s = true)
include hstack

theorem exec_breakerConfirm_bare (hship : shippedCfg s = false) (c : Bool) :
    exec (.breakerConfirm t c) s = .next (breakerSeen t s c) := by
  have hship' : shippedCfg (breakerSeen t s c) = false := hship
  refine congrArg Host.Outcome.next ((if_neg (by simp [hstack])).trans (if_pos ?_))
  rw [Bool.not_eq_true']
  exact hship'

variable (hship : shippedCfg s = true)
include hship

theorem exec_breakerConfirm_closed :
    exec (.breakerConfirm t true) s = .next (
      if s.ctl.step == 3 && s.ctl.brk != 4 && s.ctl.stop.isNone then
        { breakerSeen t s true with ctl.step := 4, ctl.brk := 1 }
      else breakerSeen t s true) := by
  have hship' : ¬ (!shippedCfg (breakerSeen t s true)) = true := by
    rw [Bool.not_eq_true', show shippedCfg (breakerSeen t s true) = true from hship]
    decide
  exact congrArg Host.Outcome.next ((if_neg (by simp [hstack])).trans ((if_neg hship').trans (if_pos rfl)))

theorem exec_breakerConfirm_opened :
    exec (.breakerConfirm t false) s = .next (
      if s.ctl.stop.isSome && s.ctl.stopStep == 1 && inService s then stopDone (breakerSeen t s false)
      else if s.ctl.brk == 4 then breakerSeen t s false else { breakerSeen t s false with ctl.brk := 0 }) := by
  have hship' : ¬ (!shippedCfg (breakerSeen t s false)) = true := by
    rw [Bool.not_eq_true', show shippedCfg (breakerSeen t s false) = true from hship]
    decide
  exact congrArg Host.Outcome.next
    ((if_neg (by simp [hstack])).trans ((if_neg hship').trans (if_neg Bool.false_ne_true)))

theorem exec_breakerTimeout (hdue : s.ctl.brkAt + (cfgOf s).ctrl.brkTmo * msT ≤ max s.clk t) :
    exec (.breakerTimeout t) s = .next (
      if s.ctl.brk == 2 then stopBegin { breakerPulse (s.at t) 1 with ctl.brk := 4 } CA_NONE
      else if s.ctl.brk == 3 && s.ctl.stopStep == 1 then { s.at t with ctl.brk := 4, ctl.stopStep := 2 }
      else s.at t) := by
  refine congrArg Host.Outcome.next (if_neg ?_)
  rw [Bool.or_eq_true, Bool.or_eq_true, decide_eq_true_eq]
  rintro ((h | h) | h)
  · simp [hship] at h
  · simp [hstack] at h
  · exact not_lt.mpr hdue h

end

theorem exec_breakerConfirm_cell (h : isStack s = false) (c : Bool) :
    exec (.breakerConfirm t c) s = .next (s.at t) ∧ exec (.breakerTimeout t) s = .next (s.at t) :=
  ⟨congrArg Host.Outcome.next (if_pos (by simp [h])), congrArg Host.Outcome.next (if_pos (by simp [h]))⟩

/-! ### The opening of an orderly stop (R181) -/

/-- The breaker is to open: the current has been low for 10 ms, or the stop's time is over. -/
def openDue (t : Time) (s : State) : Prop :=
  (∃ x, s.ctl.lowSince = some x ∧ x + 10 * msT ≤ max s.clk t) ∨ s.ctl.stopAt + (cfgOf s).ctrl.stopTmo * msT ≤ max s.clk t

/-- The holder's pulse on PO1, awaited for BRK_TMO. -/
def breakerOpening (u : State) : State :=
  let u := breakerPulse u 1
  { u with ctl.stopStep := 1, ctl.brk := 3, ctl.brkAt := u.clk }

section
variable (hserv : inService s = true) (hship : shippedCfg s = true) (hstop : s.ctl.stop.isSome = true)
  (hstep : s.ctl.stopStep = 0)
include hserv hship hstop hstep

theorem exec_stopBreakerOpen :
    (openDue t s → exec (.stopBreakerOpen t) s = .next (
      if piOf (breakerOpening (s.at t)) 1 then stopDone (breakerOpening (s.at t)) else breakerOpening (s.at t))) ∧
    (¬ openDue t s → exec (.stopBreakerOpen t) s = .next (s.at t)) := by
  show (_ → execStopBreakerOpen t s = _) ∧ (_ → execStopBreakerOpen t s = _)
  unfold execStopBreakerOpen
  extract_lets s₁ low due
  have hdue : due = true ↔ openDue t s := by
    have hlow : s₁.ctl.lowSince = s.ctl.lowSince := rfl
    unfold due low
    rw [hlow, Bool.or_eq_true, decide_eq_true_eq, openDue]
    refine or_congr ?_ Iff.rfl
    cases s.ctl.lowSince with
    | none => simp
    | some x => simp only [decide_eq_true_eq, Option.some.injEq, exists_eq_left']; rfl
  clear_value due
  have hidle : (!shippedCfg s₁ || !inService s₁ || s₁.ctl.stop.isNone || s₁.ctl.stopStep != 0 || !due) = !due := by
    have hnone : s.ctl.stop.isNone = false := by simpa using hstop
    simp [s₁, hserv, hship, hnone, hstep]
  rw [hidle, ← hdue]
  refine ⟨fun h => ?_, fun h => ?_⟩
  · rw [if_neg (by simp [h])]
    rfl
  · rw [if_pos (by simpa using h)]

end
/-! ### The end of a pulse (R78, R178) -/

/-- PLANT_PULSE_END of a pulse that is there: the ball takes its level again once the pulse is over. -/
theorem exec_plantPulseEnd {n : Fin 8} (hpulse : smGet 0 s.ctl.pulse n ≠ 0) :
    exec (.plantPulseEnd t n) s = .next (
      if max s.clk t < smGet 0 s.ctl.pulse n then s.at t
      else { s.at t with
        ctl.pulse := smErase s.ctl.pulse n
        pins.po := putBit s.pins.po n (bit s.ctl.level n) }) := by
  refine congrArg Host.Outcome.next (if_congr ?_ rfl rfl)
  rw [Bool.or_eq_true, beq_iff_eq, decide_eq_true_eq]
  exact or_iff_right hpulse

end

/-- Settles O38: each event under its condition does what the lemma of its command says, and idles outside it. -/
theorem stackControlEventsAct : Obligations.StackControlEventsAct := by
  refine ⟨fun t s hstack hst hfar hfull => exec_enumComplete hstack hst hfar hfull, fun t s hstack hst hdue => ?_,
    fun t s => exec_enum_idle, fun t s hstack hst hlock hheld hready => ?_, fun t s => exec_pitchEntry_idle,
    fun t s hstack hst hstep hlag hship hdue => exec_prechargeTimeout hstack hst hstep hlag hship hdue,
    fun t s hstack hst hstep hbrk hstop hship => ?_, fun t s => exec_breakerClose_idle,
    fun t s => exec_shippedEvents_idle,
    fun t s hstack => ⟨fun c hship => exec_breakerConfirm_bare hstack hship c, fun hship => ?_⟩,
    fun t c s hcell => exec_breakerConfirm_cell hcell c, fun t s hstack hship hdue => ?_,
    fun t s hserv hship hstop hstep => exec_stopBreakerOpen hserv hship hstop hstep, fun t n s e hpulse he => ?_⟩
  · rw [exec_enumTimeout hstack hst hdue]
    exact ⟨fun h => congrArg _ (if_pos h), fun h => congrArg _ (if_neg (ne_true_of_eq_false h))⟩
  · rw [exec_pitchEntry hstack hst hlock hheld hready]
    exact ⟨fun h => congrArg _ (if_neg (ne_true_of_eq_false h)), fun h => congrArg _ (if_pos h)⟩
  · rw [exec_breakerClose hstack hst hstep hbrk hstop hship]
    refine ⟨fun hrun hclose => congrArg _ (if_pos ?_), fun h => congrArg _ (if_neg ?_)⟩
    · rw [Bool.and_eq_true, beq_iff_eq, beq_iff_eq]
      exact ⟨hrun, hclose⟩
    · rw [Bool.and_eq_true, beq_iff_eq, beq_iff_eq]
      exact fun ⟨hrun, hclose⟩ => h.elim (· hrun) (· hclose)
  · rw [exec_breakerConfirm_closed hstack hship, exec_breakerConfirm_opened hstack hship]
    refine ⟨fun hstep hbrk hstop => congrArg _ (if_pos ?_), fun h => congrArg _ (if_neg ?_),
      fun hstop hstep hserv => congrArg _ (if_pos ?_), fun h => congrArg _ ((if_neg ?_).trans ?_)⟩
    · simp [hstep, hbrk, hstop]
    · simpa [imp_iff_not_or, or_assoc] using h
    · simp [hstep, hserv, Option.isSome_iff_ne_none, hstop]
    · simpa [imp_iff_not_or, or_assoc, Option.isSome_iff_ne_none] using h
    · exact if_congr beq_iff_eq rfl rfl
  · rw [exec_breakerTimeout hstack hship hdue]
    refine ⟨fun h => congrArg _ (if_pos (beq_iff_eq.mpr h)), fun h hstep => congrArg _ ((if_neg ?_).trans (if_pos ?_))⟩
    · simp [h]
    · simp [h, hstep]
  · subst hpulse
    rw [exec_plantPulseEnd he]
    exact ⟨fun h => congrArg _ (if_neg (not_lt.mpr h)), fun h => congrArg _ (if_pos h)⟩

end Sys2Proof.Machine
end


section
/-! Bypass and rejoin of a cell. -/
namespace Sys2Proof.Machine

/-! ### The commands under the lease (R320, R330, R342, R343) -/

/-- A command of lane `l` is answered. -/
def told (l : Nat) (v : State) (st : Status) : State :=
  { v with cell.answers := v.cell.answers ++ [(l, st.code)] }

section
variable {s u v : State} {l epoch : Nat} {act : State → Status × State} {st : Status}

theorem leaseOnly_held (hlease : leaseOk s l epoch = (true, u)) (hact : act u = (st, v)) :
    leaseOnly s l epoch act = told l v st := by
  simp only [leaseOnly, hlease, hact, if_true]
  rfl

theorem leaseOnly_refused (hlease : leaseOk s l epoch = (false, u)) :
    leaseOnly s l epoch act = told l u .leaseRequired := by
  simp only [leaseOnly, hlease, Bool.false_eq_true, if_false]
  rfl

end

section
variable {u : State}

theorem cellBypass_running (h : devState u = 12 ∨ devState u = 13) :
    cellBypass u = (.ok, bypassPulse (zeroOutput u) 1 true) :=
  if_pos (by simpa [ST_CRUN, ST_COAST] using h)

theorem cellBypass_resting (h : devState u = 10 ∨ devState u = 11 ∨ devState u = 14) :
    cellBypass u = (.ok, bypassPulse u 1 true) :=
  (if_neg (by simp [ST_CRUN, ST_COAST]; omega)).trans
    (if_pos (by simpa [ST_READY, ST_PRECHARGED, ST_CSAFE, or_assoc] using h))

theorem cellBypass_conflict (h : devState u < 10 ∨ 14 < devState u) : cellBypass u = (.conflict, u) :=
  (if_neg (by simp [ST_CRUN, ST_COAST]; omega)).trans
    (if_neg (by simp [ST_READY, ST_PRECHARGED, ST_CSAFE]; omega))

/-- What a rejoin asks for once the faults have been cleared. -/
def rejoinClean (v : State) : Prop :=
  (∀ g, g < 8 → v.fget FLT_GSTAT_LATCH g ≠ 1) ∧ v.fget KILN_STAT_TRIP ≠ 1 ∧ v.fget TIM_STAT_LOCK = 1 ∧ v.cell.voteOk = true

theorem rejoinUnclean_iff (v : State) :
    ((List.range 8).any (fun g => v.flag FLT_GSTAT_LATCH g) || v.flag KILN_STAT_TRIP || !v.flag TIM_STAT_LOCK ||
      !v.cell.voteOk) = true ↔ ¬ rejoinClean v := by
  rw [← Bool.not_eq_false, not_iff_not, rejoinClean]
  simp [State.flag, and_assoc]

theorem cellRejoin_clean (h : devState u = 10 ∨ devState u = 14 ∨ devState u = 15) (hclean : rejoinClean (clearFaults u)) :
    cellRejoin u = (.ok, { clearFaults u with
      cell.cc := 0, cell.rejoin := true, cell.openDue := true, cell.cfgOk := false }) :=
  (if_neg (by simp [ST_CSAFE, ST_BYPASSED, ST_READY]; omega)).trans
    (if_neg fun hu => (rejoinUnclean_iff _).mp hu hclean)

theorem cellRejoin_unclean (h : devState u = 10 ∨ devState u = 14 ∨ devState u = 15)
    (hclean : ¬ rejoinClean (clearFaults u)) : cellRejoin u = (.conflict, clearFaults u) :=
  (if_neg (by simp [ST_CSAFE, ST_BYPASSED, ST_READY]; omega)).trans (if_pos ((rejoinUnclean_iff _).mpr hclean))

theorem cellRejoin_conflict (h10 : devState u ≠ 10) (h14 : devState u ≠ 14) (h15 : devState u ≠ 15) :
    cellRejoin u = (.conflict, u) :=
  if_pos (by simp [ST_CSAFE, ST_BYPASSED, ST_READY, h10, h14, h15])

end

section
variable {t : Time} {l : Fin 3} {epoch : Nat} {s u v : State} {st : Status} (hcell : isStack s = false)
include hcell

theorem exec_cellBypassCommand (hlease : leaseOk (s.at t) l epoch = (true, u)) (hact : cellBypass u = (st, v)) :
    exec (.cellBypassCommand t l epoch) s = .next (told l v st) :=
  congrArg Host.Outcome.next ((if_neg (by simp [hcell])).trans (leaseOnly_held hlease hact))

theorem exec_cellRejoinCommand (hlease : leaseOk (s.at t) l epoch = (true, u)) (hact : cellRejoin u = (st, v)) :
    exec (.cellRejoinCommand t l epoch) s = .next (told l v st) :=
  congrArg Host.Outcome.next ((if_neg (by simp [hcell])).trans (leaseOnly_held hlease hact))

theorem exec_cellBypassCommand_refused (hlease : leaseOk (s.at t) l epoch = (false, u)) :
    exec (.cellBypassCommand t l epoch) s = .next (told l u .leaseRequired) :=
  congrArg Host.Outcome.next ((if_neg (by simp [hcell])).trans (leaseOnly_refused hlease))

theorem exec_cellRejoinCommand_refused (hlease : leaseOk (s.at t) l epoch = (false, u)) :
    exec (.cellRejoinCommand t l epoch) s = .next (told l u .leaseRequired) :=
  congrArg Host.Outcome.next ((if_neg (by simp [hcell])).trans (leaseOnly_refused hlease))

end

/-! ### The confirmations (R25, R34, R342, R343) -/

theorem pulseEnd_of_waiting {s : State} (h : s.cell.confirm ≠ 0) :
    pulseEnd s = { s with pins.po := putBit s.pins.po (s.cell.confirm - 1) false, cell.confirm := 0 } :=
  if_neg (by simpa using h)

section
variable {t : Time} {s : State}

/-- The pulse of a confirmed bypass has ended, with the STOP that SAFE owes. -/
def bypassSeen (t : Time) (s : State) : State :=
  let p := safeStop { s.at t with cell.confirm := 0, pins.po := putBit s.pins.po 0 false }
  { p with cell.zero := false, pins.pi := putBit p.pins.pi 0 true }

/-- The cause that BYPASSED is entered with. -/
def bypassCause (u : State) : Nat :=
  if devState u == ST_CSAFE || (devState u == ST_COAST && u.cell.safeCycle == cycleNow u) then u.fget SYS_STATE_CAUSE
  else CA_COMMAND

/-- The entry to BYPASSED. -/
def bypassed (u : State) : State :=
  syncStateSafe { causedDev (switchesOff u) ST_BYPASSED (bypassCause u) with
    cell.safeCycle := if devState u == ST_CSAFE then u.cell.safeCycle else cycleNow u }

theorem exec_bypassConfirm (hcell : isStack s = false) (hwait : s.cell.confirm = 1) :
    exec (.bypassConfirm t) s = .next (
      if decide (devState (bypassSeen t s) < ST_READY) || decide (ST_CSAFE < devState (bypassSeen t s)) then bypassSeen t s
      else bypassed (bypassSeen t s)) := by
  have hwait' : (s.at t).cell.confirm = 1 := hwait
  show execBypassConfirm t s = _
  unfold execBypassConfirm
  extract_lets s₁ p pc s₂ pp u st cause v vc
  have hu : u = bypassSeen t s := by
    unfold u pp s₂ pc p s₁
    rw [pulseEnd_of_waiting (by rw [hwait']; decide), hwait']
    rfl
  rw [← hu]
  clear_value u
  have hcause : cause = bypassCause u := rfl
  have hentry : v = causedDev (switchesOff u) ST_BYPASSED cause := rfl
  rw [bypassed, ← hcause, ← hentry]
  clear_value v cause
  exact congrArg Host.Outcome.next (if_neg (by simp [s₁, hcell, hwait]))

theorem exec_bypassConfirm_enters (hcell : isStack s = false) (hwait : s.cell.confirm = 1)
    (h10 : 10 ≤ devState (bypassSeen t s)) (h14 : devState (bypassSeen t s) ≤ 14) :
    exec (.bypassConfirm t) s = .next (bypassed (bypassSeen t s)) := by
  rw [exec_bypassConfirm hcell hwait, if_neg (by
    rw [Bool.or_eq_true, decide_eq_true_eq, decide_eq_true_eq]
    exact fun h => h.elim (not_lt.mpr h10) (not_lt.mpr h14))]

theorem exec_bypassConfirm_elsewhere (hcell : isStack s = false) (hwait : s.cell.confirm = 1)
    (h : devState (bypassSeen t s) < 10 ∨ 14 < devState (bypassSeen t s)) :
    exec (.bypassConfirm t) s = .next (bypassSeen t s) := by
  rw [exec_bypassConfirm hcell hwait, if_pos (by
    rw [Bool.or_eq_true, decide_eq_true_eq, decide_eq_true_eq]
    exact h)]

theorem bypassed_of_running {u : State} (h : devState u ≤ 13) :
    bypassed u = syncStateSafe { causedDev (switchesOff u) ST_BYPASSED
      (if devState u = 13 ∧ u.cell.safeCycle = cycleNow u then u.fget SYS_STATE_CAUSE else CA_COMMAND) with
        cell.safeCycle := cycleNow u } := by
  have h14 : ¬ devState u = ST_CSAFE := ne_of_lt (Nat.lt_succ_of_le h)
  rw [bypassed, if_neg (by rwa [beq_iff_eq])]
  refine congrArg (fun c => syncStateSafe { causedDev (switchesOff u) ST_BYPASSED c with cell.safeCycle := cycleNow u }) ?_
  refine if_congr ?_ rfl rfl
  rw [Bool.or_eq_true, Bool.and_eq_true, beq_iff_eq, beq_iff_eq, beq_iff_eq, or_iff_right h14]
  rfl

theorem bypassed_of_safe {u : State} (h : devState u = 14) :
    bypassed u = syncStateSafe { causedDev (switchesOff u) ST_BYPASSED (u.fget SYS_STATE_CAUSE) with
      cell.safeCycle := u.cell.safeCycle } := by
  have h14 : (devState u == ST_CSAFE) = true := beq_iff_eq.mpr h
  rw [bypassed, bypassCause, if_pos h14, if_pos (by rw [h14, Bool.true_or])]

/-! ### The STOP that SAFE owes (R435) -/

theorem safeStop_of_paid (h : s.cell.stopDue = false) : safeStop s = s := if_pos (by simp [h])

theorem safeStop_of_off (h : s.cell.stopDue = true) (hoff : domOn s 9 = false) :
    safeStop s = { s with cell.stopDue := false } :=
  (if_neg (by simp [h])).trans (if_neg (ne_true_of_eq_false hoff))

theorem safeStop_of_due (h : s.cell.stopDue = true) (hon : domOn s 9 = true) :
    safeStop s = fwReg { s with cell.stopDue := false } 0x120020 0 2 (sprCtlEff 0 2) :=
  (if_neg (by simp [h])).trans (if_pos hon)

/-! ### The missing confirmation, and the opening (R25, R342, R343) -/

theorem exec_bypassConfirmTimeout (hcell : isStack s = false) (hwait : s.cell.confirm ≠ 0)
    (hdue : s.cell.pulseAt + confirmT s ≤ max s.clk t) :
    exec (.bypassConfirmTimeout t) s = .next (
      if devState s == ST_CSAFE then syncStateSafe (setCause (pulseEnd (s.at t)) CA_BYPASS_FAIL)
      else enterSafe (pulseEnd (s.at t)) CA_BYPASS_FAIL) := by
  have hst : devState (pulseEnd (s.at t)) = devState s := by rw [pulseEnd_of_waiting (s := s.at t) hwait]; rfl
  refine congrArg Host.Outcome.next ((if_neg ?_).trans (by rw [← hst]))
  rw [isStack_at, hcell, Bool.false_or, Bool.or_eq_true, beq_iff_eq, decide_eq_true_eq]
  exact fun h => h.elim hwait (not_lt.mpr hdue)

theorem exec_rejoinOpenConfirm (hcell : isStack s = false) (hwait : s.cell.confirm = 2) :
    exec (.rejoinOpenConfirm t) s = .next (
      let u := { s.at t with
        cell.confirm := 0, cell.zero := false, pins.po := putBit s.pins.po 1 false
        pins.pi := putBit (putBit s.pins.pi 0 false) 1 true }
      if devState s == ST_PRECHARGED then setDev u ST_CRUN CA_NONE else u) := by
  have hwait' : (s.at t).cell.confirm = 2 := hwait
  refine congrArg Host.Outcome.next ((if_neg (by simp [hcell, hwait])).trans ?_)
  rw [pulseEnd_of_waiting (by rw [hwait']; decide), hwait']
  rfl

theorem exec_bypassConfirm_idle (h : isStack s = true ∨ s.cell.confirm ≠ 1) :
    exec (.bypassConfirm t) s = .next (s.at t) :=
  congrArg Host.Outcome.next (if_pos (by simpa using h))

theorem exec_bypassConfirmTimeout_idle
    (h : isStack s = true ∨ s.cell.confirm = 0 ∨ max s.clk t < s.cell.pulseAt + confirmT s) :
    exec (.bypassConfirmTimeout t) s = .next (s.at t) := by
  refine congrArg Host.Outcome.next (if_pos ?_)
  rw [Bool.or_eq_true, Bool.or_eq_true, beq_iff_eq, decide_eq_true_eq]
  exact or_assoc.mpr h

theorem exec_rejoinOpenConfirm_idle (h : isStack s = true ∨ s.cell.confirm ≠ 2) :
    exec (.rejoinOpenConfirm t) s = .next (s.at t) :=
  congrArg Host.Outcome.next (if_pos (by simpa using h))

theorem exec_cellCommands_idle {l : Fin 3} {epoch : Nat} (h : isStack s = true) :
    exec (.cellBypassCommand t l epoch) s = .next (s.at t) ∧ exec (.cellRejoinCommand t l epoch) s = .next (s.at t) :=
  ⟨congrArg Host.Outcome.next (if_pos h), congrArg Host.Outcome.next (if_pos h)⟩

end

/-- Settles O40: the commands by the cases of `cellBypass` and `cellRejoin` under the lease, the confirmations by the state
that the pulse ends in. -/
theorem cellBypassAndRejoin : Obligations.CellBypassAndRejoin := by
  refine ⟨fun t l epoch s u hcell hlease => ?_, fun t l epoch s u hcell hlease => ?_, fun t s hcell hwait => ?_,
    fun p => ⟨safeStop_of_paid, safeStop_of_off, safeStop_of_due⟩, fun t s hcell hwait hdue => ?_,
    fun t s hcell hwait => ?_, fun t l epoch s => ?_⟩
  · refine ⟨fun h => exec_cellBypassCommand hcell hlease (cellBypass_running h),
      fun h => exec_cellBypassCommand hcell hlease (cellBypass_resting h),
      fun h => exec_cellBypassCommand hcell hlease (cellBypass_conflict h),
      fun h => ⟨fun hclean => exec_cellRejoinCommand hcell hlease (cellRejoin_clean h hclean),
        fun hclean => exec_cellRejoinCommand hcell hlease (cellRejoin_unclean h hclean)⟩,
      fun h => exec_cellRejoinCommand hcell hlease (cellRejoin_conflict (by omega) (by omega) (by omega))⟩
  · exact ⟨exec_cellBypassCommand_refused hcell hlease, exec_cellRejoinCommand_refused hcell hlease⟩
  · intro p u
    have hseen : bypassSeen t s = u := rfl
    have henters := exec_bypassConfirm_enters (t := t) hcell hwait
    have helse := exec_bypassConfirm_elsewhere (t := t) hcell hwait
    rw [hseen] at henters helse
    clear_value u
    refine ⟨fun h => ?_, fun h => ?_, helse⟩
    · intro v
      rw [henters h.1 (by omega), bypassed_of_running h.2]
    · rw [henters (by omega) (by omega), bypassed_of_safe h]
  · intro u
    have hu : pulseEnd (s.at t) = u := pulseEnd_of_waiting (s := s.at t) hwait
    rw [exec_bypassConfirmTimeout hcell hwait hdue, hu]
    exact ⟨fun h => congrArg _ (if_pos (beq_iff_eq.mpr h)), fun h => congrArg _ (if_neg fun h' => h (beq_iff_eq.mp h'))⟩
  · intro u
    rw [exec_rejoinOpenConfirm hcell hwait]
    exact ⟨fun h => congrArg _ (if_pos (beq_iff_eq.mpr h)), fun h => congrArg _ (if_neg fun h' => h (beq_iff_eq.mp h'))⟩
  · exact ⟨exec_bypassConfirm_idle, exec_bypassConfirmTimeout_idle, exec_rejoinOpenConfirm_idle, exec_cellCommands_idle⟩

end Sys2Proof.Machine
end


section
/-! The memory's form over a step, the sources of one clock, and a system reset. -/
namespace Sys2Proof.Machine

/-- Settles O57: each function that leads from a state to a state changes the memory by `setByte` and `clearMem` alone, and
both keep its canonical form. -/
theorem everyStepKeepsTheMemoryForm : Obligations.EveryStepKeepsTheMemoryForm := by
  intro s t hmem hstep
  cases hp : s.pending with
  | nil =>
    rw [step_idle hp] at hstep
    cases hstep
    exact hmem
  | cons c rest => exact (step_keepsIn hp t hstep).mem hmem

/-! ### LAST (R51) -/

/-- The code that the fold over a list's codes finds is the least of them. -/
theorem foldl_min_srcCode {l : List RstSrc} {a : Nat} {as : List Nat} (h : l.map srcCode = a :: as) :
    ∃ x ∈ l, as.foldl min a = srcCode x ∧ ∀ y ∈ l, srcCode x ≤ srcCode y := by
  obtain ⟨hmem, hle⟩ := List.min?_eq_some_iff.mp (h ▸ List.min?_cons' : (l.map srcCode).min? = some (as.foldl min a))
  obtain ⟨x, hx, hcode⟩ := List.mem_map.mp hmem
  exact ⟨x, hx, hcode.symm, fun y hy => hcode ▸ hle _ (List.mem_map_of_mem hy)⟩

/-- LAST names a source that fired: of the broadest scope, and the lowest code of its scope. -/
theorem lastSrc_spec {l : List RstSrc} (hl : l ≠ []) : ∃ x ∈ l, lastSrc l = srcCode x ∧
    (∀ y ∈ l, srcCold y = true → srcCold x = true) ∧ ∀ y ∈ l, srcCold y = srcCold x → srcCode x ≤ srcCode y := by
  unfold lastSrc
  split
  case h_1 a as h =>
    obtain ⟨x, hx, hcode, hle⟩ := foldl_min_srcCode h
    obtain ⟨hxl, hcold⟩ := List.mem_filter.mp hx
    exact ⟨x, hxl, hcode, fun _ _ _ => hcold, fun y hy hyx => hle y (List.mem_filter.mpr ⟨hy, hyx.trans hcold⟩)⟩
  case h_2 h =>
    have hwarm (y : RstSrc) (hy : y ∈ l) : srcCold y = false :=
      Bool.eq_false_iff.mpr (List.filter_eq_nil_iff.mp (List.map_eq_nil_iff.mp h) y hy)
    split
    case h_1 a as h =>
      obtain ⟨x, hx, hcode, hle⟩ := foldl_min_srcCode h
      exact ⟨x, hx, hcode, fun y hy hyc => absurd hyc (by rw [hwarm y hy]; decide), fun y hy _ => hle y hy⟩
    case h_2 h => exact absurd (List.map_eq_nil_iff.mp h) hl

theorem srcCode_mod (x : RstSrc) : srcCode x % 16 = srcCode x := by cases x <;> rfl

/-! ### A journal entry where no injection is armed (R93, R382) -/

/-- It writes the journal's pointers, the journal and its word's check bits. -/
theorem jnlAdd_unarmed {s : State} (harm : s.flag SEC_EINJ_ARM = false) (m kind st addr old new : Nat) : ∃ r b e,
    jnlAdd s m kind st addr old new = { s with regs := r, mbx := b, sec := { s.sec with ecc := e } } ∧
      s.SameRegsBut (jnlAdd s m kind st addr old new)
        [(ACC_JNLHEAD_HEAD, 0), (ACC_JNLCNT_LOST, 0), (ACC_JNLCNT_UNREAD, 0)] := by
  unfold jnlAdd
  extract_lets head _ _ _ _ _ _ s₁ s₂ s₃
  have h₂ : s₂ = { s₁ with sec := { s₁.sec with ecc := smSet [] s₁.sec.ecc (eccKey 1 head) [] } } :=
    eccStored_of_unarmed (s := s₁) harm 1 head
  have hframe : s.SameRegsBut s₃ [(ACC_JNLHEAD_HEAD, 0), (ACC_JNLCNT_LOST, 0), (ACC_JNLCNT_UNREAD, 0)] :=
    sameRegs_fset _ _ _ (sameRegs_of_regs _ (by rw [h₂])) (by simp)
  have hs₃ : s₃ = { s with regs := s₃.regs, mbx := s₃.mbx, sec := { s.sec with ecc := s₃.sec.ecc } } := by
    unfold s₃
    rw [h₂]
    rfl
  rw [hs₃] at hframe ⊢
  split
  · exact ⟨_, _, _, rfl, sameRegs_fset _ _ _ hframe (by simp)⟩
  · exact ⟨_, _, _, rfl, sameRegs_fset _ _ _ hframe (by simp)⟩

/-! ### The service of switch requests (R39) -/

/-- It begins at most one transition, and shows BUSY. -/
theorem serveDomains_cases (s : State) : ∃ b v,
    serveDomains s = State.fset { s with sys := { s.sys with domBusy := b } } PWR_DOMBUSY_BUSY 0 v := by
  unfold serveDomains
  split
  · exact ⟨s.sys.domBusy, _, rfl⟩
  · split
    · exact ⟨_, _, rfl⟩
    · exact ⟨s.sys.domBusy, _, rfl⟩

theorem serveDomains_frame (s : State) : s.SameRegsBut (serveDomains s) [(PWR_DOMBUSY_BUSY, 0)] := by
  obtain ⟨b, v, h⟩ := serveDomains_cases s
  rw [h]
  exact sameRegs_fset _ _ _ (sameRegs_of_regs _ rfl) (by simp)

@[simp] theorem serveDomains_mem (s : State) : (serveDomains s).mem = s.mem := by
  obtain ⟨b, v, h⟩ := serveDomains_cases s
  rw [h]
  rfl

/-! ### A system reset (R50, R52, R53, R54) -/

theorem smGet_filter {β : Type} (d : β) (m : SMap β) (p : Nat → Bool) (k : Nat) :
    smGet d (m.filter (fun e => p e.1)) k = if p k then smGet d m k else d := by
  induction m with
  | nil => exact (ite_self d).symm
  | cons e m ih =>
    by_cases he : e.1 = k
    · subst he
      by_cases hp : p e.1 = true
      · simp [hp, smGet]
      · simp [hp, ih]
    · by_cases hp : p e.1 = true
      · simp [hp, smGet, he, ih]
      · simp [hp, smGet, he, ih]

/-- The registers of PWR that keep the lane quads' bits. -/
theorem fget_sysResetCore {s : State} {F : Fld} {i : Nat} (h : keyAddr (F.key i) ∉ [0x30000, 0x30004, 0x30008]) :
    (sysResetCore s).fget F i = if sysKeeps (F.key i) then s.fget F i else F.resetAt i := by
  simp only [List.mem_cons, List.not_mem_nil, or_false, not_or] at h
  obtain ⟨hreq, hon, hbusy⟩ := h
  unfold sysResetCore
  rw [fget_fsets_other]
  · exact smGet_filter _ _ _ _
  · simp only [List.forall_mem_cons, List.not_mem_nil, false_imp_iff, implies_true, and_true]
    exact ⟨keyAddr_ne (G := PWR_DOMCTL_REQ) (j := 0) hreq, keyAddr_ne (G := PWR_DOMSTAT_ON) (j := 0) hon,
      keyAddr_ne (G := PWR_DOMBUSY_BUSY) (j := 0) hbusy⟩

/-- The reset with its causes recorded, before its journal entry. -/
def sysCaused (s : State) (srcs : List RstSrc) (p : Straps) : State :=
  (setCauses (sysResetCore { s with pins.straps := p }) srcs).satAdd SYS_RSTCAUSE_SYSCNT 0

theorem systemReset_eq {s : State} {srcs : List RstSrc} {p : Straps} (hwarm : srcs.any srcCold = false)
    (hmatch : strapsMatch { s with pins.straps := p } p = true) :
    systemReset s srcs p = serveDomains (jnlReset (sysCaused s srcs p)) := by
  unfold systemReset
  rw [if_neg (by rw [hwarm]; decide), if_neg (by rw [hmatch]; decide)]
  rfl

theorem systemReset_cold {s : State} {srcs : List RstSrc} {p : Straps} (hcold : srcs.any srcCold = true) :
    systemReset s srcs p = coldReset { s with pins.straps := p } srcs .refWatch := if_pos hcold

theorem systemReset_straps {s : State} {srcs : List RstSrc} {p : Straps} (hwarm : srcs.any srcCold = false)
    (hdiff : strapsMatch { s with pins.straps := p } p = false) :
    systemReset s srcs p = coldReset { s with pins.straps := p } (srcs ++ [.strapchg]) .refWatch :=
  (if_neg (by rw [hwarm]; decide)).trans (if_pos (by rw [hdiff]; rfl))

/-- A register apart from SYS_RSTCAUSE. -/
theorem fget_sysCaused {s : State} {srcs : List RstSrc} {p : Straps} {F : Fld} {i : Nat} (h : keyAddr (F.key i) ≠ 0x10) :
    (sysCaused s srcs p).fget F i = (sysResetCore { s with pins.straps := p }).fget F i := by
  have hsrc (x : RstSrc) : F.key i ≠ (srcFld x).key 0 := keyAddr_ne (by rwa [keyAddr_srcFld])
  rw [sysCaused, fget_satAdd_other _ _ (keyAddr_ne (G := SYS_RSTCAUSE_SYSCNT) (j := 0) h), setCauses_eq,
    fget_fset_other _ _ (keyAddr_ne (G := SYS_RSTCAUSE_LAST) (j := 0) h), fget_setBits_other hsrc]

theorem sysCaused_regs (s : State) (srcs : List RstSrc) (p : Straps) :
    sysCaused s srcs p = { sysResetCore { s with pins.straps := p } with regs := (sysCaused s srcs p).regs } := by
  rw [sysCaused, setCauses_eq, setBits_regs]
  rfl

theorem sysCaused_unarmed (s : State) (srcs : List RstSrc) (p : Straps) :
    (sysCaused s srcs p).flag SEC_EINJ_ARM = false := by
  have h : (sysCaused s srcs p).fget SEC_EINJ_ARM = 0 := by
    rw [fget_sysCaused (by decide), fget_sysResetCore (by decide)]
    exact if_neg (by decide)
  rw [State.flag, h]
  rfl

/-- The journal entry and the service of requests write the journal's pointers and DOMBUSY. -/
theorem systemReset_frame {s : State} {srcs : List RstSrc} {p : Straps} (hwarm : srcs.any srcCold = false)
    (hmatch : strapsMatch { s with pins.straps := p } p = true) : (sysCaused s srcs p).SameRegsBut (systemReset s srcs p)
      [(ACC_JNLHEAD_HEAD, 0), (ACC_JNLCNT_LOST, 0), (ACC_JNLCNT_UNREAD, 0), (PWR_DOMBUSY_BUSY, 0)] := by
  rw [systemReset_eq hwarm hmatch]
  obtain ⟨_, _, _, _, hframe⟩ := jnlAdd_unarmed (sysCaused_unarmed s srcs p) 0 3 0 0 (rstCauseWord (sysCaused s srcs p)) 0
  exact sameRegs_trans (sameRegs_mono hframe (by simp)) (sameRegs_mono (serveDomains_frame _) (by simp))

/-- The other components are those of `sysResetCore`. -/
theorem systemReset_rest {s : State} {srcs : List RstSrc} {p : Straps} (hwarm : srcs.any srcCold = false)
    (hmatch : strapsMatch { s with pins.straps := p } p = true) : ∃ r b e d,
    systemReset s srcs p =
      { sysResetCore { s with pins.straps := p } with
        regs := r, mbx := b
        sec := { (sysResetCore { s with pins.straps := p }).sec with ecc := e }
        sys := { (sysResetCore { s with pins.straps := p }).sys with domBusy := d } } := by
  obtain ⟨r, b, e, h, -⟩ := jnlAdd_unarmed (sysCaused_unarmed s srcs p) 0 3 0 0 (rstCauseWord (sysCaused s srcs p)) 0
  obtain ⟨d, v, hserve⟩ := serveDomains_cases (jnlReset (sysCaused s srcs p))
  rw [systemReset_eq hwarm hmatch, hserve, jnlReset, h, sysCaused_regs]
  exact ⟨_, b, e, d, rfl⟩

/-- A source's bit. -/
theorem fget_systemReset_src {s : State} {srcs : List RstSrc} {p : Straps} (hwarm : srcs.any srcCold = false)
    (hmatch : strapsMatch { s with pins.straps := p } p = true) (x : RstSrc) :
    (systemReset s srcs p).fget (srcFld x) = if x ∈ srcs then 1 else s.fget (srcFld x) := by
  have hkeeps : sysKeeps ((srcFld x).key 0) = true := by cases x <;> decide
  rw [sameRegs_fget (systemReset_frame hwarm hmatch) _ _ (by decide) (by cases x <;> decide), sysCaused,
    fget_satAdd_other _ _ (by cases x <;> decide), setCauses_eq, fget_fset_other _ _ (by cases x <;> decide), fget_setBits,
    fget_sysResetCore (by rw [keyAddr_srcFld]; decide), if_pos hkeeps]
  rfl

theorem fget_systemReset_last {s : State} {srcs : List RstSrc} {p : Straps} (hwarm : srcs.any srcCold = false)
    (hmatch : strapsMatch { s with pins.straps := p } p = true) :
    (systemReset s srcs p).fget SYS_RSTCAUSE_LAST = lastSrc srcs % 16 := by
  rw [sameRegs_fget (systemReset_frame hwarm hmatch) _ _ (by decide) (by decide), sysCaused,
    fget_satAdd_other _ _ (by decide), setCauses_eq, fget_fset_same]
  rfl

/-- Any other register, but for those of PWR that keep the lane quads' bits. -/
theorem fget_systemReset {s : State} {srcs : List RstSrc} {p : Straps} {F : Fld} {i : Nat}
    (hwarm : srcs.any srcCold = false) (hmatch : strapsMatch { s with pins.straps := p } p = true)
    (h : keyAddr (F.key i) ∉ [0x10, 0x20020, 0x20024, 0x30000, 0x30004, 0x30008]) :
    (systemReset s srcs p).fget F i = if sysKeeps (F.key i) then s.fget F i else F.resetAt i := by
  simp only [List.mem_cons, List.not_mem_nil, or_false, not_or] at h
  obtain ⟨hcause, hhead, hcnt, hreq, hon, hbusy⟩ := h
  have hframe : (systemReset s srcs p).fget F i = (sysCaused s srcs p).fget F i := by
    refine systemReset_frame hwarm hmatch F i ?_
    simp only [List.forall_mem_cons, List.not_mem_nil, false_imp_iff, implies_true, and_true]
    exact ⟨keyAddr_ne (G := ACC_JNLHEAD_HEAD) (j := 0) hhead, keyAddr_ne (G := ACC_JNLCNT_LOST) (j := 0) hcnt,
      keyAddr_ne (G := ACC_JNLCNT_UNREAD) (j := 0) hcnt, keyAddr_ne (G := PWR_DOMBUSY_BUSY) (j := 0) hbusy⟩
  rw [hframe, fget_sysCaused hcause, fget_sysResetCore (by simp [hreq, hon, hbusy])]
  rfl

/-- Settles O8: the registers are filtered by `sysKeeps`, then SYS_RSTCAUSE, the journal's pointers and DOMBUSY written;
different straps take the branch of a cold reset. -/
theorem systemResetKeepsItsPart : Obligations.SystemResetKeepsItsPart := by
  refine ⟨fun s srcs p hwarm hmatch => ⟨fun F i => fget_systemReset hwarm hmatch, ?_, fget_systemReset_src hwarm hmatch, ?_⟩,
    fun s srcs p => systemReset_straps⟩
  all_goals
    obtain ⟨r, b, e, d, hrest⟩ := systemReset_rest hwarm hmatch
    rw [hrest]
  · exact fun a => byte_of_mem_nil rfl a
  · exact ⟨rfl, rfl, rfl, rfl, rfl, rfl⟩

/-- Settles O9: each reset sets the bits of its sources and LAST by `lastSrc`. -/
theorem sourcesOfOneClockAreJoined : Obligations.SourcesOfOneClockAreJoined := by
  refine ⟨fun s srcs p => systemReset_cold, fun s srcs ph hne => ⟨fun x hx => ?_, ?_⟩,
    fun s srcs p hne hwarm hmatch => ⟨fun x hx => ?_, ?_⟩⟩
  · rw [fget_coldReset_src, if_pos hx]
  · obtain ⟨x, hx, hcode, hcold, hle⟩ := lastSrc_spec hne
    exact ⟨x, hx, by rw [fget_coldReset_last, hcode, srcCode_mod], hcold, hle⟩
  · rw [fget_systemReset_src hwarm hmatch, if_pos hx]
  · obtain ⟨x, hx, hcode, -, hle⟩ := lastSrc_spec hne
    have hsame (y : RstSrc) (hy : y ∈ srcs) : srcCold y = false := Bool.eq_false_iff.mpr (List.any_eq_false.mp hwarm y hy)
    exact ⟨x, hx, by rw [fget_systemReset_last hwarm hmatch, hcode, srcCode_mod],
      fun y hy => hle y hy ((hsame y hy).trans (hsame x hx).symm)⟩

end Sys2Proof.Machine
end


section
/-! The bits of a mask, and the judgement of a write of PWR_DOMCTL. -/
namespace Sys2Proof

/-! ### Bits -/

theorem bit_eq_testBit (v n : Nat) : bit v n = v.testBit n := by
  rw [bit, Nat.testBit_eq_decide_div_mod_eq]
  rfl

theorem bit_mod_two_pow {v k j : Nat} (h : j < k) : bit (v % 2 ^ k) j = bit v j := by
  rw [bit_eq_testBit, bit_eq_testBit, Nat.testBit_mod_two_pow, decide_eq_true h, Bool.true_and]

/-- A power of two added where its bit is clear sets that bit alone. -/
theorem bit_add_two_pow {v n : Nat} (h : bit v n = false) (j : Nat) :
    bit (v + 2 ^ n) j = if j = n then true else bit v j := by
  have hdiv : (v + 2 ^ n) / 2 ^ n = v / 2 ^ n + 1 := Nat.add_div_right _ (Nat.two_pow_pos n)
  have heven : v / 2 ^ n % 2 = 0 := by simpa [bit] using h
  rcases lt_trichotomy j n with hj | rfl | hj
  · obtain ⟨k, rfl⟩ := Nat.exists_eq_add_of_lt hj
    have hpow : 2 ^ (j + k + 1) = 2 ^ j * (2 * 2 ^ k) := by ring
    rw [if_neg (by omega), bit, bit, hpow, Nat.add_mul_div_left _ _ (Nat.two_pow_pos j), Nat.add_mul_mod_self_left]
  · rw [if_pos rfl, bit, hdiv, beq_iff_eq]
    omega
  · obtain ⟨k, rfl⟩ := Nat.exists_eq_add_of_lt hj
    have hpow : 2 ^ (n + k + 1) = 2 ^ n * 2 * 2 ^ k := by ring
    have hhalf : (v / 2 ^ n + 1) / 2 = v / 2 ^ n / 2 := by omega
    rw [if_neg (by omega), bit, bit, hpow, ← Nat.div_div_eq_div_mul, ← Nat.div_div_eq_div_mul, hdiv, hhalf,
      Nat.div_div_eq_div_mul v, Nat.div_div_eq_div_mul v]

theorem two_pow_le_of_bit {v n : Nat} (h : bit v n = true) : 2 ^ n ≤ v := by
  rw [bit_eq_testBit] at h
  exact Nat.ge_two_pow_of_testBit h

/-- One bit is put, the others stay. -/
theorem bit_putBit (v n : Nat) (b : Bool) (j : Nat) : bit (putBit v n b) j = if j = n then b else bit v j := by
  unfold putBit
  by_cases h : bit v n = b
  · rw [if_pos (by simpa using h)]
    split
    case isTrue hj => rw [hj, h]
    case isFalse => rfl
  · rw [if_neg (by simpa using h)]
    cases b with
    | true => exact bit_add_two_pow (by simpa using h) j
    | false =>
      obtain ⟨w, rfl⟩ := Nat.exists_eq_add_of_le' (two_pow_le_of_bit (by simpa using h))
      have hw : bit w n = false := by
        cases hw : bit w n with
        | false => rfl
        | true =>
          have h' : (w / 2 ^ n + 1) % 2 = 1 := by
            have := h
            rw [bit, Nat.add_div_right _ (Nat.two_pow_pos n)] at this
            simpa using this
          have : w / 2 ^ n % 2 = 1 := by simpa [bit] using hw
          omega
      rw [if_neg (by decide), Nat.add_sub_cancel, bit_add_two_pow hw]
      split
      case isTrue hj => rw [hj, hw]
      case isFalse => rfl

namespace Machine

/-! ### A write that passes the access checks (R12, R93) -/

/-- The pointers of the journal, and the injection that its entry may use up. -/
def jnlRegs : List (Fld × Nat) :=
  [(ACC_JNLHEAD_HEAD, 0), (ACC_JNLCNT_LOST, 0), (ACC_JNLCNT_UNREAD, 0), (SEC_EINJ_ARM, 0)]

/-- Whatever its register answers, the journal entry alone follows the register's effect. -/
theorem rowWrite_frame {s : State} {m : Master} {a : Nat} {w : Word} {c : Bool} (eff : State → Status × State)
    (h : s.MayWrite m a w.toNat c) :
    (eff (countRsvd s m a w.toNat)).2.SameRegsBut (rowWrite s m a w c eff) jnlRegs ∧
      (rowWrite s m a w c eff).mem = (eff (countRsvd s m a w.toNat)).2.mem := by
  by_cases hst : (eff (countRsvd s m a w.toNat)).1 = .ok
  · rw [rowWrite_ok h (Prod.ext hst rfl)]
    exact ⟨noted_frame _ _ _, noted_mem _ _ _⟩
  · have hbad : rowWrite s m a w c eff = s.notedBad m a w.toNat (eff (countRsvd s m a w.toNat)).1
        (eff (countRsvd s m a w.toNat)).2 := rowWrite_bad h hst rfl
    rw [hbad, State.notedBad]
    split
    · exact ⟨jnlAdd_frame _ _ _ _ _ _ _, jnlAdd_mem _ _ _ _ _ _ _⟩
    · exact ⟨sameRegs_refl _ _, rfl⟩

/-! ### The verdict on one domain (R41) -/

/-- The status of a word's request for a domain; OK where it changes nothing. -/
def domVerdict (s : State) (w d : Nat) : Status :=
  if bit w d = domReq s d then .ok
  else if bit w d then firstStatus [chk (!roleUses s d) .notInRole, chk (domRetired s d) .absentUnit]
  else chk (roleUses s d && inService s) .conflict

/-- What the judgement reads of a state, beside the domain's own request. -/
structure State.JudgesAs (s t : State) : Prop where
  sys : t.sys = s.sys
  role : t.fget SYS_STRAP_ROLE = s.fget SYS_STRAP_ROLE
  retired : t.fget SYS_RETIRED_RETIRED = s.fget SYS_RETIRED_RETIRED
  state : t.fget SYS_STATE_STATE = s.fget SYS_STATE_STATE

theorem roleUses_congr {s t : State} (hsys : t.sys = s.sys) (hrole : t.fget SYS_STRAP_ROLE = s.fget SYS_STRAP_ROLE)
    (d : Nat) : roleUses t d = roleUses s d := by
  have hstack : isStack t = isStack s := by rw [isStack, State.flag, hrole, isStack, State.flag]
  have hcfg : cfgInForce t = cfgInForce s := by rw [cfgInForce, hsys, cfgInForce]
  have hlen : chainLen t = chainLen s := by funext k; rw [chainLen, cfgOf, hsys, chainLen, cfgOf]
  rw [roleUses, hstack, hcfg, hlen, roleUses]

theorem domVerdict_congr {s t : State} (h : s.JudgesAs t) {w d : Nat} (hreq : domReq t d = domReq s d) :
    domVerdict t w d = domVerdict s w d := by
  have hservice : inService t = inService s := by
    rw [inService, isStack, State.flag, devState, h.role, h.state, inService, isStack, State.flag, devState]
  have hretired : domRetired t d = domRetired s d := by rw [domRetired, h.retired, domRetired]
  rw [domVerdict, hreq, roleUses_congr h.sys h.role, hretired, hservice, domVerdict]

/-- The three rejections. -/
theorem domVerdict_eq_iff {s : State} {w d : Nat} {st : Status} : domVerdict s w d = st ∧ st ≠ .ok ↔
    bit w d ≠ domReq s d ∧
      ((bit w d = true ∧ roleUses s d = false ∧ st = .notInRole) ∨
       (bit w d = true ∧ roleUses s d = true ∧ domRetired s d = true ∧ st = .absentUnit) ∨
       (bit w d = false ∧ roleUses s d = true ∧ inService s = true ∧ st = .conflict)) := by
  unfold domVerdict
  generalize domReq s d = r
  generalize roleUses s d = u
  generalize domRetired s d = x
  generalize inService s = v
  generalize bit w d = b
  constructor
  · rintro ⟨rfl, h⟩
    revert h
    revert r u x v b
    decide
  · rintro ⟨hne, ⟨rfl, rfl, rfl⟩ | ⟨rfl, rfl, rfl, rfl⟩ | ⟨rfl, rfl, rfl, rfl⟩⟩
    all_goals
      rw [if_neg hne]
    · revert x v
      decide
    · revert v
      decide
    · revert x
      decide

/-! ### One domain judged (R41) -/

/-- The state after one domain of the word is judged. -/
def judgeOne (w : Nat) (s : State) (d : Nat) : State :=
  if bit w d = domReq s d then s
  else if domVerdict s w d = .ok then s.fset PWR_DOMCTL_REQ 0 (putBit (s.fget PWR_DOMCTL_REQ) (d - 1) (bit w d))
  else pwrErr s d (domVerdict s w d)

/-- The judgement of a word takes the domains in their order. -/
theorem domctlJudge_state (w : Nat) (l : List Nat) (s : State) : (domctlJudge s w l).2.2 = l.foldl (judgeOne w) s := by
  induction l generalizing s with
  | nil => rfl
  | cons d l ih =>
    rw [List.foldl_cons, ← ih, domctlJudge]
    dsimp only
    by_cases hsame : bit w d = domReq s d
    · rw [judgeOne, if_pos hsame, if_pos (beq_iff_eq.mpr hsame)]
    · have hv : domVerdict s w d = if bit w d then
          firstStatus [chk (!roleUses s d) .notInRole, chk (domRetired s d) .absentUnit]
          else chk (roleUses s d && inService s) .conflict := if_neg hsame
      rw [judgeOne, if_neg hsame, if_neg (by simpa using hsame), ← hv]
      by_cases hok : domVerdict s w d = .ok
      · rw [if_pos hok, if_pos (by simpa using hok)]
      · rw [if_neg hok, if_neg (by simpa using hok)]

/-- The requests and PWR_ERR. -/
def judgeRegs : List (Fld × Nat) :=
  [(PWR_DOMCTL_REQ, 0), (PWR_ERR_VALID, 0), (PWR_ERR_MULTI, 0), (PWR_ERR_DOM, 0), (PWR_ERR_STATUS, 0)]

theorem judgeOne_frame (w : Nat) (s : State) (d : Nat) : s.SameRegsBut (judgeOne w s d) judgeRegs := by
  unfold judgeOne
  split
  · exact sameRegs_refl _ _
  · split
    · exact sameRegs_fset _ _ _ (sameRegs_refl _ _) (by simp [judgeRegs])
    · exact sameRegs_mono (pwrErr_frame _ _ _) (by simp [judgeRegs])

theorem pwrErr_sys (s : State) (d : Nat) (st : Status) : (pwrErr s d st).sys = s.sys := by
  unfold pwrErr recErr
  split <;> simp

theorem judgeOne_rest (w : Nat) (s : State) (d : Nat) :
    (judgeOne w s d).sys = s.sys ∧ (judgeOne w s d).mem = s.mem := by
  unfold judgeOne
  split
  · exact ⟨rfl, rfl⟩
  · split
    · exact ⟨rfl, rfl⟩
    · exact ⟨pwrErr_sys _ _ _, pwrErr_mem _ _ _⟩

theorem judgeOne_judgesAs (w : Nat) (s : State) (d : Nat) : s.JudgesAs (judgeOne w s d) :=
  have h := judgeOne_frame w s d
  ⟨(judgeOne_rest w s d).1, sameRegs_fget h _ _ (by decide) (by decide), sameRegs_fget h _ _ (by decide) (by decide),
    sameRegs_fget h _ _ (by decide) (by decide)⟩

/-- An accepted request takes effect; a rejected one, and every other domain's, stays. -/
theorem domReq_judgeOne {w d e : Nat} (s : State) (hd : 1 ≤ d ∧ d ≤ 16) (he : 1 ≤ e ∧ e ≤ 16) :
    domReq (judgeOne w s d) e = if e = d ∧ domVerdict s w d = .ok then bit w d else domReq s e := by
  unfold judgeOne
  by_cases hsame : bit w d = domReq s d
  · rw [if_pos hsame]
    split
    case isTrue h => rw [h.1, hsame]
    case isFalse => rfl
  · rw [if_neg hsame]
    by_cases hok : domVerdict s w d = .ok
    · rw [if_pos hok, domReq, fget_fset_same, bit_mod_two_pow (k := PWR_DOMCTL_REQ.width) (by simp [PWR_DOMCTL_REQ]; omega),
        bit_putBit]
      by_cases hed : e = d
      · rw [if_pos (by omega), if_pos ⟨hed, hok⟩]
      · rw [if_neg (by omega), if_neg (fun h => hed h.1), domReq]
    · rw [if_neg hok, if_neg (fun h => hok h.2), domReq,
        sameRegs_fget (pwrErr_frame s d (domVerdict s w d)) _ _ (by decide) (by decide), domReq]

theorem domVerdict_judgeOne {w d e : Nat} (s : State) (hd : 1 ≤ d ∧ d ≤ 16) (he : 1 ≤ e ∧ e ≤ 16) (hne : e ≠ d) :
    domVerdict (judgeOne w s d) w e = domVerdict s w e :=
  domVerdict_congr (judgeOne_judgesAs w s d) (by rw [domReq_judgeOne s hd he, if_neg (fun h => hne h.1)])

/-! ### PWR_ERR (R41) -/

/-- The fields of PWR_ERR. -/
structure PwrErr where
  valid : Nat
  multi : Nat
  dom : Nat
  status : Nat

def pwrErrOf (s : State) : PwrErr :=
  ⟨s.fget PWR_ERR_VALID, s.fget PWR_ERR_MULTI, s.fget PWR_ERR_DOM, s.fget PWR_ERR_STATUS⟩

/-- One rejection recorded. -/
def PwrErr.take (r : PwrErr) (e : Nat × Status) : PwrErr :=
  if r.valid = 1 then { r with multi := 1 } else ⟨1, r.multi, e.1 % 32, e.2.code⟩

theorem pwrErrOf_pwrErr (s : State) (d : Nat) (st : Status) :
    pwrErrOf (pwrErr s d st) = (pwrErrOf s).take (d, st) := by
  unfold pwrErrOf PwrErr.take pwrErr
  by_cases h : s.fget PWR_ERR_VALID = 1
  · rw [recErr_again h, if_pos h]
    simp (disch := decide) only [fget_fset_far, fget_fset_same]
    rfl
  · rw [recErr_first h, if_neg h]
    simp (disch := decide) only [fsets_cons, fsets_nil, fget_fset_far, fget_fset_same]
    exact congrArg (PwrErr.mk 1 _ _) (Nat.mod_eq_of_lt st.code_lt)

theorem PwrErr.take_valid (r : PwrErr) (e : Nat × Status) : (r.take e).valid = 1 := by
  unfold take
  split
  case isTrue h => exact h
  case isFalse => rfl

/-- Once it holds a record, rejections set MULTI alone. -/
theorem PwrErr.foldl_take_of_valid {r : PwrErr} (h : r.valid = 1) (l : List (Nat × Status)) :
    l.foldl take r = if l = [] then r else { r with multi := 1 } := by
  induction l generalizing r with
  | nil => rfl
  | cons e l ih =>
    rw [List.foldl_cons, ih (take_valid r e), take, if_pos h, if_neg (List.cons_ne_nil e l)]
    exact ite_self _

/-- After rejections in rising order of their domains, one of which is that of `d`. -/
theorem PwrErr.foldl_take_of_mem {r : PwrErr} {l : List (Nat × Status)} (hl : l.Pairwise (fun a b => a.1 < b.1)) {d : Nat}
    {st : Status} (hd : (d, st) ∈ l) :
    (l.foldl take r).valid = 1 ∧
      (r.valid ≠ 1 → (∀ e ∈ l, d ≤ e.1) → (l.foldl take r).dom = d % 32 ∧ (l.foldl take r).status = st.code) ∧
      (r.valid = 1 ∨ (∃ e ∈ l, e.1 ≠ d) → (l.foldl take r).multi = 1) := by
  cases l with
  | nil => cases hd
  | cons a l =>
    rw [List.pairwise_cons] at hl
    obtain ⟨hfirst, -⟩ := hl
    rw [List.foldl_cons, foldl_take_of_valid (take_valid r a)]
    refine ⟨?_, fun hr hmin => ?_, fun h => ?_⟩
    · split
      · exact take_valid r a
      · exact take_valid r a
    · have ha : a = (d, st) := by
        rcases List.mem_cons.mp hd with h | h
        · exact h.symm
        · exact absurd (hfirst _ h) (not_lt.mpr (hmin a List.mem_cons_self))
      subst ha
      rw [take, if_neg hr]
      split
      · exact ⟨rfl, rfl⟩
      · exact ⟨rfl, rfl⟩
    · by_cases hl : l = []
      · subst hl
        rcases h with h | ⟨e, he, hne⟩
        · rw [if_pos rfl, take, if_pos h]
        · rw [List.mem_singleton] at hd he
          exact absurd (by rw [he, ← hd]) hne
      · rw [if_neg hl]

/-! ### The word judged (R41) -/

/-- The rejections of a word, in the order of the domains. -/
def rejections (s : State) (w : Nat) (l : List Nat) : List (Nat × Status) :=
  (l.map (fun d => (d, domVerdict s w d))).filter (fun e => e.2 ≠ .ok)

theorem mem_rejections {s : State} {w : Nat} {l : List Nat} {d : Nat} {st : Status} :
    (d, st) ∈ rejections s w l ↔ d ∈ l ∧ domVerdict s w d = st ∧ st ≠ .ok := by
  simp only [rejections, List.mem_filter, List.mem_map, Prod.mk.injEq, decide_eq_true_eq]
  exact ⟨fun ⟨⟨e, he, hed, hst⟩, hok⟩ => ⟨hed ▸ he, hed ▸ hst, hok⟩, fun ⟨hd, hst, hok⟩ => ⟨⟨d, hd, rfl, hst⟩, hok⟩⟩

theorem rejections_pairwise (s : State) (w : Nat) {l : List Nat} (h : l.Pairwise (· < ·)) :
    (rejections s w l).Pairwise (fun a b => a.1 < b.1) :=
  List.Pairwise.filter _ (List.pairwise_map.mpr h)

theorem rejections_congr {s t : State} {w : Nat} {l : List Nat} (h : ∀ d ∈ l, domVerdict t w d = domVerdict s w d) :
    rejections t w l = rejections s w l := by
  rw [rejections, List.map_congr_left (fun d hd => by rw [h d hd]), rejections]

theorem foldl_judgeOne_frame (w : Nat) (l : List Nat) (s : State) : s.SameRegsBut (l.foldl (judgeOne w) s) judgeRegs ∧
    (l.foldl (judgeOne w) s).mem = s.mem := by
  induction l generalizing s with
  | nil => exact ⟨sameRegs_refl _ _, rfl⟩
  | cons d l ih =>
    obtain ⟨hregs, hmem⟩ := ih (judgeOne w s d)
    exact ⟨sameRegs_trans (judgeOne_frame w s d) hregs, hmem.trans (judgeOne_rest w s d).2⟩

/-- Each domain's request by its own verdict, and PWR_ERR by the rejections. -/
theorem foldl_judgeOne {w : Nat} {l : List Nat} {s : State} (hl : l.Nodup) (hr : ∀ d ∈ l, 1 ≤ d ∧ d ≤ 16) :
    (∀ e, 1 ≤ e ∧ e ≤ 16 → domReq (l.foldl (judgeOne w) s) e =
      if e ∈ l ∧ domVerdict s w e = .ok then bit w e else domReq s e) ∧
    pwrErrOf (l.foldl (judgeOne w) s) = (rejections s w l).foldl PwrErr.take (pwrErrOf s) := by
  induction l generalizing s with
  | nil => exact ⟨fun e _ => (if_neg fun h => by cases h.1).symm, rfl⟩
  | cons d l ih =>
    rw [List.nodup_cons] at hl
    obtain ⟨hd, hl⟩ := hl
    have hd16 := hr d List.mem_cons_self
    have hl16 (e : Nat) (he : e ∈ l) := hr e (List.mem_cons_of_mem d he)
    have hsame (e : Nat) (he : e ∈ l) : domVerdict (judgeOne w s d) w e = domVerdict s w e :=
      domVerdict_judgeOne s hd16 (hl16 e he) (fun h => hd (h ▸ he))
    obtain ⟨ihreq, iherr⟩ := ih (s := judgeOne w s d) hl hl16
    refine ⟨fun e he => ?_, ?_⟩
    · rw [List.foldl_cons, ihreq e he]
      by_cases hel : e ∈ l
      · have hed : e ≠ d := fun h => hd (h ▸ hel)
        simp [hel, hsame e hel, domReq_judgeOne s hd16 he, hed]
      · rw [if_neg (fun h => hel h.1), domReq_judgeOne s hd16 he]
        by_cases hed : e = d
        · simp [hed]
        · simp [hed, hel]
    · rw [List.foldl_cons, iherr, rejections_congr hsame]
      by_cases hok : domVerdict s w d = .ok
      · have herr : pwrErrOf (judgeOne w s d) = pwrErrOf s := by
          unfold judgeOne
          rw [if_pos hok]
          split
          · rfl
          · simp (disch := decide) only [pwrErrOf, fget_fset_far]
        simp [rejections, hok, herr]
      · have hne : bit w d ≠ domReq s d := fun h => hok (if_pos h)
        have herr : pwrErrOf (judgeOne w s d) = (pwrErrOf s).take (d, domVerdict s w d) := by
          rw [judgeOne, if_neg hne, if_neg hok, pwrErrOf_pwrErr]
        simp [rejections, hok, herr]

/-- The state after a write of PWR_DOMCTL is judged. -/
def judged (w : Nat) (s : State) : State := (List.range' 1 16).foldl (judgeOne w) s

theorem domctlEff_state (w : Nat) (s : State) : (domctlEff w s).2 = serveDomains (judged w s) := by
  rw [judged, ← domctlJudge_state, domctlEff]

theorem countRsvd_judgesAs (s : State) (m a w : Nat) : s.JudgesAs (countRsvd s m a w) :=
  ⟨countRsvd_sys _ _ _ _, fget_countRsvd _ _ _ _ (by decide), fget_countRsvd _ _ _ _ (by decide),
    fget_countRsvd _ _ _ _ (by decide)⟩

theorem domVerdict_countRsvd (s : State) (m a w v d : Nat) : domVerdict (countRsvd s m a w) v d = domVerdict s v d :=
  domVerdict_congr (countRsvd_judgesAs s m a w) (by rw [domReq, fget_countRsvd _ _ _ _ (by decide), domReq])

/-- After a write of PWR_DOMCTL: the requests by their verdicts, PWR_ERR by the rejections, and nothing else. -/
theorem exec_pwrDomctlWrite {m : Master} {w : Word} {s : State} (h : s.MayWrite m 0x30000 w.toNat false) :
    ∃ u, exec (.pwrDomctlWrite m w) s = .next u ∧
      (∀ e, 1 ≤ e ∧ e ≤ 16 → domReq u e = if domVerdict s w.toNat e = .ok then bit w.toNat e else domReq s e) ∧
      pwrErrOf u = (rejections s w.toNat (List.range' 1 16)).foldl PwrErr.take (pwrErrOf s) ∧ s.SameMem u ∧
      s.SameRegsBut u (judgeRegs ++ (PWR_DOMBUSY_BUSY, 0) :: (SYS_ERRCNT_RSVD, 0) :: jnlRegs) := by
  set v := countRsvd s m 0x30000 w.toNat with hv
  obtain ⟨hregs, hmem⟩ := rowWrite_frame (domctlEff w.toNat) h
  rw [← hv, domctlEff_state] at hregs hmem
  obtain ⟨hreq, herr⟩ := foldl_judgeOne (w := w.toNat) (l := List.range' 1 16) (s := v) List.nodup_range'
    (fun d hd => by rw [List.mem_range'_1] at hd; omega)
  obtain ⟨hframe, hmemj⟩ := foldl_judgeOne_frame w.toNat (List.range' 1 16) v
  have hserve := serveDomains_frame (judged w.toNat v)
  have hafter (G : Fld) (hG : G ∈ [PWR_DOMCTL_REQ, PWR_ERR_VALID, PWR_ERR_MULTI, PWR_ERR_DOM, PWR_ERR_STATUS]) :
      (rowWrite s m 0x30000 w false (domctlEff w.toNat)).fget G = (judged w.toNat v).fget G := by
    simp only [List.mem_cons, List.not_mem_nil, or_false] at hG
    rw [sameRegs_fget hregs G 0 (by decide) (by rcases hG with rfl | rfl | rfl | rfl | rfl <;> decide),
      sameRegs_fget hserve G 0 (by decide) (by rcases hG with rfl | rfl | rfl | rfl | rfl <;> decide)]
  refine ⟨_, rfl, fun e he => ?_, ?_, sameMem_of_mem ?_, ?_⟩
  · have hmem16 : e ∈ List.range' 1 16 := by rw [List.mem_range'_1]; omega
    rw [domReq, hafter _ (by simp), ← domReq, judged, hreq e he, hv, domVerdict_countRsvd, domReq,
      fget_countRsvd _ _ _ _ (by decide), ← domReq]
    simp [hmem16]
  · have hsame : pwrErrOf v = pwrErrOf s := by
      simp (disch := decide) only [hv, pwrErrOf, fget_countRsvd]
    rw [pwrErrOf, hafter _ (by simp), hafter _ (by simp), hafter _ (by simp), hafter _ (by simp), ← pwrErrOf, judged, herr,
      hsame, hv, rejections_congr (fun d _ => domVerdict_countRsvd _ _ _ _ _ _)]
  · rw [hmem, serveDomains_mem, judged, hmemj, hv, countRsvd_mem]
  · refine sameRegs_trans (sameRegs_mono (countRsvd_frame s m 0x30000 w.toNat) (by simp)) ?_
    refine sameRegs_trans (sameRegs_mono hframe (by simp; tauto)) ?_
    exact sameRegs_trans (sameRegs_mono hserve (by simp)) (sameRegs_mono hregs (by simp; tauto))

/-- Settles O10: the fold over the domains writes each request by its own verdict, and records the rejections in rising
order. -/
theorem domainRequestsAreJudgedAlone : Obligations.DomainRequestsAreJudgedAlone := by
  intro m w s h rej
  obtain ⟨u, hexec, hreq, herr, hmem, hregs⟩ := exec_pwrDomctlWrite h
  have hrej (d : Nat) (st : Status) : rej d st ↔ (d, st) ∈ rejections s w.toNat (List.range' 1 16) := by
    rw [mem_rejections, domVerdict_eq_iff, List.mem_range'_1, Nat.lt_succ_iff, and_assoc]
  simp only [hrej]
  have hvalid : u.fget PWR_ERR_VALID = (pwrErrOf u).valid := rfl
  have hmulti : u.fget PWR_ERR_MULTI = (pwrErrOf u).multi := rfl
  have hdom : u.fget PWR_ERR_DOM = (pwrErrOf u).dom := rfl
  have hstatus : u.fget PWR_ERR_STATUS = (pwrErrOf u).status := rfl
  rw [herr] at hvalid hmulti hdom hstatus
  refine ⟨u, hexec, fun d hd hd' hnone => ?_, fun d st hd => ?_, fun hnone => ?_, hmem,
    sameRegs_mono hregs (by simp [judgeRegs, jnlRegs])⟩
  · have hok : domVerdict s w.toNat d = .ok := by
      by_contra hne
      exact hnone _ (mem_rejections.mpr ⟨by rw [List.mem_range'_1]; omega, rfl, hne⟩)
    rw [hreq d ⟨hd, hd'⟩, if_pos hok]
  · obtain ⟨hd16, hst, hne⟩ := mem_rejections.mp hd
    rw [List.mem_range'_1] at hd16
    obtain ⟨hv, hfirst, hmore⟩ := PwrErr.foldl_take_of_mem (r := pwrErrOf s)
      (rejections_pairwise s w.toNat List.pairwise_lt_range') hd
    rw [hvalid, hmulti, hdom, hstatus]
    refine ⟨by rw [hreq d (by omega), if_neg (by rw [hst]; exact hne)], hv, fun h0 hmin => ?_, fun h' => hmore ?_⟩
    · obtain ⟨hd', hst'⟩ := hfirst (by change s.fget PWR_ERR_VALID ≠ 1; omega) (fun e he => hmin e.1 e.2 he)
      exact ⟨hd'.trans (Nat.mod_eq_of_lt (by omega)), hst'⟩
    · exact h'.imp_right fun ⟨e, x, he, hne⟩ => ⟨(e, x), he, hne⟩
  · have hnil : rejections s w.toNat (List.range' 1 16) = [] := List.eq_nil_iff_forall_not_mem.mpr fun e => hnone e.1 e.2
    rw [hvalid, hmulti, hnil]
    exact ⟨rfl, rfl⟩

end Machine
end Sys2Proof
end


section
/-! An access to a domain that is off or in transition. -/
namespace Sys2Proof.Machine

/-! ### The status of a domain (R40) -/

theorem domStatus_zero (s : State) : domStatus s 0 = .ok := rfl

section
variable {s : State} {d : Nat}

theorem domStatus_notInRole (hd : d ≠ 0) (huse : roleUses s d = false) : domStatus s d = .notInRole := by
  simp [domStatus, hd, huse]

theorem domStatus_absentUnit (hd : d ≠ 0) (huse : roleUses s d = true) (hret : domRetired s d = true) :
    domStatus s d = .absentUnit := by simp [domStatus, hd, huse, hret]

theorem domStatus_busy (hd : d ≠ 0) (huse : roleUses s d = true) (hret : domRetired s d = false)
    (hmove : domMoving s d = true ∨ bit s.sys.testing d = true) : domStatus s d = .busy := by
  simp [domStatus, hd, huse, hret, hmove]

/-- A domain in use, not retired, and in no transition. -/
theorem domStatus_settled (hd : d ≠ 0) (huse : roleUses s d = true) (hret : domRetired s d = false)
    (hmove : domMoving s d = false) (htest : bit s.sys.testing d = false) :
    domStatus s d = if domOn s d then .ok else .conflict := by
  simp [domStatus, hd, huse, hret, hmove, htest]

theorem domStatus_ok_iff (hd : d ≠ 0) : domStatus s d = .ok ↔ roleUses s d = true ∧ domRetired s d = false ∧
    domMoving s d = false ∧ bit s.sys.testing d = false ∧ domOn s d = true := by
  constructor
  · intro h
    have huse : roleUses s d = true := by
      by_contra hn
      cases (domStatus_notInRole hd (by simpa using hn)).symm.trans h
    have hret : domRetired s d = false := by
      by_contra hn
      cases (domStatus_absentUnit hd huse (by simpa using hn)).symm.trans h
    have hmove : ¬ (domMoving s d = true ∨ bit s.sys.testing d = true) := fun hn => by
      cases (domStatus_busy hd huse hret hn).symm.trans h
    rw [not_or, Bool.not_eq_true, Bool.not_eq_true] at hmove
    obtain ⟨hmove, htest⟩ := hmove
    refine ⟨huse, hret, hmove, htest, ?_⟩
    by_contra hoff
    rw [domStatus_settled hd huse hret hmove htest, if_neg hoff] at h
    cases h
  · rintro ⟨huse, hret, hmove, htest, hon⟩
    rw [domStatus_settled hd huse hret hmove htest, if_pos hon]

end

/-! ### A count of reserved bits leaves the domains alone (R4) -/

theorem chsel_countRsvd (s : State) (m a w : Nat) (b : Blk) (n : Nat) : chsel (countRsvd s m a w) b n = chsel s b n := by
  cases b
  case pwm => exact countRsvd_fget s m a w n (by decide)
  case gd => exact countRsvd_fget s m a w n (by decide)
  case adc => exact countRsvd_fget s m a w n (by decide)
  case lnk => exact countRsvd_fget s m a w n (by decide)
  case cap => exact countRsvd_fget s m a w n (by decide)
  case vote => exact countRsvd_fget s m a w n (by decide)
  all_goals rfl

theorem domOn_countRsvd (s : State) (m a w : Nat) : domOn (countRsvd s m a w) = domOn s := by
  funext d
  rw [domOn, countRsvd_fget _ _ _ _ _ (by decide), domOn]

theorem addrDom_countRsvd (s : State) (m a w n c : Nat) : addrDom (countRsvd s m a w) n c = addrDom s n c := by
  unfold addrDom lnkSelDom
  rw [domOn_countRsvd]
  simp only [chsel_countRsvd]

theorem domStatus_countRsvd (s : State) (m a w d : Nat) : domStatus (countRsvd s m a w) d = domStatus s d := by
  have huse : roleUses (countRsvd s m a w) d = roleUses s d :=
    roleUses_congr (countRsvd_sys _ _ _ _) (fget_countRsvd _ _ _ _ (by decide)) d
  have hret : domRetired (countRsvd s m a w) d = domRetired s d := by
    rw [domRetired, fget_countRsvd _ _ _ _ (by decide), domRetired]
  have hmove : domMoving (countRsvd s m a w) d = domMoving s d := by rw [domMoving, countRsvd_sys, domMoving]
  rw [domStatus, huse, hret, hmove, countRsvd_sys, domOn_countRsvd, domStatus]

/-! ### The record of a refused access (R40, R67) -/

/-- The registers of the two records. -/
def errRegs : List (Fld × Nat) :=
  [(PWR_ERR_VALID, 0), (PWR_ERR_MULTI, 0), (PWR_ERR_DOM, 0), (PWR_ERR_STATUS, 0), (ACC_ERR_VALID, 0),
    (ACC_ERR_MULTI, 0), (ACC_ERR_MASTER, 0), (ACC_ERR_STATUS, 0), (ACC_ERRADDR_ADDR, 0)]

/-- A state whose registers differ elsewhere alone has the same PWR_ERR. -/
theorem pwrErrOf_congr {s t : State} {l : List (Fld × Nat)} (h : s.SameRegsBut t l)
    (hl : [PWR_ERR_VALID, PWR_ERR_MULTI, PWR_ERR_DOM, PWR_ERR_STATUS].all (fun G => l.all (fun e =>
      decide (e.2 < 2048) && (G.addr * 32 + G.lo != e.1.addr * 32 + e.1.lo))) = true) : pwrErrOf t = pwrErrOf s := by
  simp only [List.all_cons, List.all_nil, Bool.and_true, Bool.and_eq_true] at hl
  obtain ⟨hvalid, hmulti, hdom, hstatus⟩ := hl
  rw [pwrErrOf, sameRegs_fget h _ 0 (by decide) hvalid, sameRegs_fget h _ 0 (by decide) hmulti,
    sameRegs_fget h _ 0 (by decide) hdom, sameRegs_fget h _ 0 (by decide) hstatus, pwrErrOf]

/-- The domain's refusal is recorded in PWR_ERR whatever else refuses the access. -/
theorem pwrErrOf_recRefused {s : State} {m a : Nat} (rest : Status) (h : accessDom s m a ≠ .ok) :
    pwrErrOf (recRefused s m a rest) = (pwrErrOf s).take (addrDom s m a, accessDom s m a) := by
  have hdom : ¬ (accessDom s m a == .ok) = true := by simpa using h
  unfold recRefused
  dsimp only
  rw [if_neg hdom, ← pwrErrOf_pwrErr]
  split
  · rfl
  · exact pwrErrOf_congr (accErr_frame _ _ _ _) (by decide)

/-- What PWR_ERR then holds. -/
def Recorded (s u : State) (d : Nat) : Prop :=
  u.fget PWR_ERR_VALID = 1 ∧
    (s.fget PWR_ERR_VALID = 0 → u.fget PWR_ERR_DOM = d ∧ u.fget PWR_ERR_STATUS = (domStatus s d).code) ∧
    (s.fget PWR_ERR_VALID = 1 → u.fget PWR_ERR_MULTI = 1 ∧ u.fget PWR_ERR_DOM = s.fget PWR_ERR_DOM ∧
      u.fget PWR_ERR_STATUS = s.fget PWR_ERR_STATUS) ∧ s.SameMem u

theorem recorded_of_take {s u : State} {d : Nat} (hd : d ≤ 16)
    (herr : pwrErrOf u = (pwrErrOf s).take (d, domStatus s d)) (hmem : u.mem = s.mem) : Recorded s u d := by
  have hvalid : u.fget PWR_ERR_VALID = (pwrErrOf u).valid := rfl
  have hmulti : u.fget PWR_ERR_MULTI = (pwrErrOf u).multi := rfl
  have hdom : u.fget PWR_ERR_DOM = (pwrErrOf u).dom := rfl
  have hstatus : u.fget PWR_ERR_STATUS = (pwrErrOf u).status := rfl
  refine ⟨by rw [hvalid, herr, PwrErr.take_valid], fun h => ?_, fun h => ?_, sameMem_of_mem hmem⟩
  · have hne : (pwrErrOf s).valid ≠ 1 := by
      change s.fget PWR_ERR_VALID ≠ 1
      omega
    rw [hdom, hstatus, herr, PwrErr.take, if_neg hne]
    exact ⟨Nat.mod_eq_of_lt (by omega), rfl⟩
  · rw [hmulti, hdom, hstatus, herr, PwrErr.take, if_pos (show (pwrErrOf s).valid = 1 from h)]
    exact ⟨rfl, rfl, rfl⟩

/-! ### The two accesses (R40) -/

section
variable {s : State} {m a d : Nat}

/-- A read of a domain that is not OK. -/
theorem busRead_refused {width : Nat} (hblk : (blkOf a).isSome = true) (h : accessDom s m a ≠ .ok) :
    ∃ st, busRead s m a width = (st, 0, recRefused s m a (readRest s m a width)) := by
  have hst : readStatus s m a width ≠ .ok := firstStatus_ne_ok (x := accessDom s m a) (by simp) h
  refine ⟨readStatus s m a width, ?_⟩
  rw [busRead, if_neg (by simpa [Option.isNone_iff_eq_none, Option.isSome_iff_ne_none] using hblk)]
  exact if_pos (by simpa using hst)

theorem busRead_off {width : Nat} (hblk : (blkOf a).isSome = true) (hd : addrDom s m a = d) (hd16 : d ≤ 16)
    (hoff : domStatus s d ≠ .ok) : (busRead s m a width).2.1 = 0 ∧ Recorded s (busRead s m a width).2.2 d ∧
      s.SameRegsBut (busRead s m a width).2.2 errRegs := by
  subst hd
  obtain ⟨st, h⟩ := busRead_refused (width := width) hblk hoff
  rw [h]
  exact ⟨rfl, recorded_of_take hd16 (pwrErrOf_recRefused _ hoff) (recRefused_mem _ _ _ _), recRefused_frame _ _ _ _⟩

/-- SYS and SEC are always powered. -/
theorem addrDom_of_always {b : Blk} (hblk : blkOf a = some b) (hb : b = .sys ∨ b = .sec) : addrDom s m a = 0 := by
  have halias : pwmAlias a = none := by
    unfold pwmAlias
    rw [if_neg]
    intro h
    simp only [Bool.and_eq_true, beq_iff_eq] at h
    have hq : a / 65536 = 16 := h.1.1.1
    rw [blkOf, if_neg (by simp; omega), if_neg (by simp; omega), if_neg (by simp; omega), hq] at hblk
    rcases hb with rfl | rfl <;> simp at hblk
  rcases hb with rfl | rfl <;> simp [addrDom, hblk, halias, inWindow, blkWindow]

theorem registerWrite_off {m : Master} {width : Nat} {w : Word} (ha : a < 2 ^ 32) (hblk : (blkOf a).isSome = true)
    (hd : addrDom s m a = d) (hd16 : d ≤ 16) (hoff : domStatus s d ≠ .ok) :
    Answers (exec (.registerWrite m a width w) s) (fun u => Recorded s u d ∧
      s.SameRegsBut u (errRegs ++ (SYS_ERRCNT_RSVD, 0) :: jnlRegs)) := by
  subst hd
  have hnot (b : Blk) (hb : b = .sys ∨ b = .sec) : blkOf a ≠ some b := fun h => hoff (by rw [addrDom_of_always h hb]; rfl)
  have h14 : a ≠ 0x14 := fun h => hnot .sys (.inl rfl) (by rw [h]; rfl)
  have hst : writeStatus s m a width w.toNat (busNeedC s m a w.toNat) true ≠ .ok :=
    firstStatus_ne_ok (x := accessDom s m a) (by simp) hoff
  obtain ⟨hregs, hmem⟩ := regWrite_refused_frame (eff := busEff m a w.toNat) hblk hst
  rw [refusalOf_mem] at hmem
  rw [refusalOf, recWrite_other (hnot .sec (.inr rfl))] at hregs
  have hdom : accessDom (countRsvd s m a w.toNat) m a = domStatus s (addrDom s m a) := by
    rw [accessDom, addrDom_countRsvd, domStatus_countRsvd]
  refine ⟨_, exec_registerWrite ha h14, recorded_of_take hd16 ?_ hmem, ?_⟩
  · rw [pwrErrOf_congr hregs (by decide), pwrErrOf_recRefused _ (by rw [hdom]; exact hoff), hdom, addrDom_countRsvd,
      pwrErrOf_congr (countRsvd_frame _ _ _ _) (by decide)]
  · refine sameRegs_trans (sameRegs_mono (countRsvd_frame s m a w.toNat) (by simp)) ?_
    exact sameRegs_trans (sameRegs_mono (recRefused_frame _ _ _ _) (by simp [errRegs]))
      (sameRegs_mono hregs (by simp [jnlRegs]))

end

/-- Settles O12: the domain's status refuses the access, and is recorded before the journal's entry. -/
theorem accessesToADomainThatIsOff : Obligations.AccessesToADomainThatIsOff := by
  refine ⟨fun s d hd => ⟨domStatus_notInRole hd, domStatus_absentUnit hd, domStatus_busy hd, fun huse hret hmove htest hon => ?_,
    domStatus_ok_iff hd⟩, domStatus_zero, fun m a width d w s ha hblk hd hd16 hoff => ⟨busRead_off hblk hd hd16 hoff,
    registerWrite_off ha hblk hd hd16 hoff⟩⟩
  rw [domStatus_settled hd huse hret hmove htest, if_neg (by rw [hon]; decide)]

end Sys2Proof.Machine
end


section
/-! What the supplies, the reset pin and the reference do, and the sources of a reset. -/
namespace Sys2Proof.Machine

variable {t : Time} {s : State}

/-! ### Events of a phase (R36, R45, R46, R48) -/

/-- The condition of an event that its phase waits for since an instant. -/
theorem phaseDue_iff {ph : Phase} {n : Time} :
    ((s.at t).sys.phase == ph && decide ((s.at t).sys.since + n ≤ (s.at t).clk)) = true ↔
      s.sys.phase = ph ∧ s.sys.since + n ≤ max s.clk t := by
  rw [Bool.and_eq_true, beq_iff_eq, decide_eq_true_eq]
  rfl

theorem not_phaseDue {ph : Phase} {n : Time} (h : s.sys.phase ≠ ph ∨ max s.clk t < s.sys.since + n) :
    ¬ ((s.at t).sys.phase == ph && decide ((s.at t).sys.since + n ≤ (s.at t).clk)) = true := by
  rw [phaseDue_iff]
  exact fun hd => h.elim (absurd hd.1) hd.2.not_gt

theorem exec_supplyRelease (h : s.sys.phase = .supplyHold) : exec (.supplyRelease t) s = .next { s.at t with
    sys.phase := if s.pins.rstN then .refWatch else .pinHold, sys.since := max s.clk t } :=
  congrArg Host.Outcome.next (if_pos (beq_iff_eq.mpr h))

theorem exec_supplyRelease_idle (h : s.sys.phase ≠ .supplyHold) : exec (.supplyRelease t) s = .next (s.at t) :=
  congrArg Host.Outcome.next (if_neg (mt beq_iff_eq.mp h))

theorem exec_brownOut {also : List RstSrc} (h : s.sys.phase ≠ .supplyHold) :
    exec (.brownOut t also) s = .next (coldReset (s.at t) (.bor :: also) .supplyHold) :=
  congrArg Host.Outcome.next (if_neg (mt beq_iff_eq.mp h))

theorem exec_brownOut_idle {also : List RstSrc} (h : s.sys.phase = .supplyHold) :
    exec (.brownOut t also) s = .next (s.at t) :=
  congrArg Host.Outcome.next (if_pos (beq_iff_eq.mpr h))

theorem exec_pinReset {also : List RstSrc} (h : s.sys.phase ≠ .supplyHold) : exec (.pinReset t also) s =
    .next (coldReset { s.at t with pins.rstN := false } (.pin :: also) .pinHold) :=
  congrArg Host.Outcome.next (if_neg (mt beq_iff_eq.mp h))

theorem exec_pinReset_held {also : List RstSrc} (h : s.sys.phase = .supplyHold) :
    exec (.pinReset t also) s = .next { s.at t with pins.rstN := false } :=
  congrArg Host.Outcome.next (if_pos (beq_iff_eq.mpr h))

theorem exec_resetPinRelease (h : s.sys.phase = .pinHold) : exec (.resetPinRelease t) s = .next { s.at t with
    pins.rstN := true, sys.phase := .refWatch, sys.since := max s.clk t } :=
  congrArg Host.Outcome.next (if_pos (beq_iff_eq.mpr h))

theorem exec_resetPinRelease_elsewhere (h : s.sys.phase ≠ .pinHold) :
    exec (.resetPinRelease t) s = .next { s.at t with pins.rstN := true } :=
  congrArg Host.Outcome.next (if_neg (mt beq_iff_eq.mp h))

theorem exec_vddioBankPower (bank : Fin 4) (up : Bool) :
    exec (.vddioBankPower t bank up) s = .next { s.at t with pins.banks := putBit s.pins.banks bank up } := rfl

/-! ### The search for a reference (R45, R46) -/

theorem exec_lrefclkWatchEnd (h : s.sys.phase = .refWatch) (ht : s.sys.since + 100 * usT ≤ max s.clk t) :
    exec (.lrefclkWatchEnd t true) s = .next { (s.at t).fset CLK_STAT_SRC 0 1 with sys.phase := .pllLocking } ∧
      exec (.lrefclkWatchEnd t false) s = .next { s.at t with sys.phase := .crystal } :=
  have hdue := phaseDue_iff.mpr ⟨h, ht⟩
  ⟨congrArg Host.Outcome.next (if_pos hdue), congrArg Host.Outcome.next (if_pos hdue)⟩

theorem exec_lrefclkWatchEnd_idle {q : Bool} (h : s.sys.phase ≠ .refWatch ∨ max s.clk t < s.sys.since + 100 * usT) :
    exec (.lrefclkWatchEnd t q) s = .next (s.at t) :=
  congrArg Host.Outcome.next (if_neg (not_phaseDue h))

/-- The condition of CRYSTAL_QUALIFIED, whose instant is bounded from above. -/
theorem crystalInTime_iff : ((s.at t).sys.phase == .crystal && decide ((s.at t).clk ≤ (s.at t).sys.since + 5100 * usT)) = true ↔
    s.sys.phase = .crystal ∧ max s.clk t ≤ s.sys.since + 5100 * usT := by
  rw [Bool.and_eq_true, beq_iff_eq, decide_eq_true_eq]
  rfl

theorem exec_crystalQualified (h : s.sys.phase = .crystal) (ht : max s.clk t ≤ s.sys.since + 5100 * usT) :
    exec (.crystalQualified t) s = .next { (s.at t).fset CLK_STAT_SRC 0 0 with sys.phase := .pllLocking } :=
  congrArg Host.Outcome.next (if_pos (crystalInTime_iff.mpr ⟨h, ht⟩))

theorem exec_crystalQualified_idle (h : s.sys.phase ≠ .crystal ∨ s.sys.since + 5100 * usT < max s.clk t) :
    exec (.crystalQualified t) s = .next (s.at t) :=
  congrArg Host.Outcome.next (if_neg (mt crystalInTime_iff.mp fun hd => h.elim (absurd hd.1) hd.2.not_gt))

theorem exec_crystalQualifyTimeout (h : s.sys.phase = .crystal) (ht : s.sys.since + 5100 * usT ≤ max s.clk t) :
    exec (.crystalQualifyTimeout t) s = .next { s.at t with sys.phase := .retryWait } :=
  congrArg Host.Outcome.next (if_pos (phaseDue_iff.mpr ⟨h, ht⟩))

theorem exec_crystalQualifyTimeout_idle (h : s.sys.phase ≠ .crystal ∨ max s.clk t < s.sys.since + 5100 * usT) :
    exec (.crystalQualifyTimeout t) s = .next (s.at t) :=
  congrArg Host.Outcome.next (if_neg (not_phaseDue h))

theorem exec_referenceRetry (h : s.sys.phase = .retryWait) (ht : s.sys.since + 10 * msT ≤ max s.clk t) :
    exec (.referenceRetry t) s = .next { s.at t with sys.phase := .refWatch, sys.since := max s.clk t } :=
  congrArg Host.Outcome.next (if_pos (phaseDue_iff.mpr ⟨h, ht⟩))

theorem exec_referenceRetry_idle (h : s.sys.phase ≠ .retryWait ∨ max s.clk t < s.sys.since + 10 * msT) :
    exec (.referenceRetry t) s = .next (s.at t) :=
  congrArg Host.Outcome.next (if_neg (not_phaseDue h))

/-! ### The loss of the reference (R47) -/

theorem refLocked_iff : ((s.at t).flag CLK_STAT_LOCK && (s.at t).sys.lostAt.isNone) = true ↔
    s.fget CLK_STAT_LOCK = 1 ∧ s.sys.lostAt = none := by
  rw [Bool.and_eq_true, Option.isNone_iff_eq_none, flag_at, State.flag, beq_iff_eq]
  rfl

theorem exec_referenceLoss (hlock : s.fget CLK_STAT_LOCK = 1) (hlost : s.sys.lostAt = none) :
    exec (.referenceLoss t) s = .next (srcAssert { (s.at t).fsets [(CLK_STAT_HOLD, 0, 1), (CLK_STAT_LOCK, 0, 0)] with
      sys.lostAt := some (max s.clk t) } SRC_CLKLOSS) :=
  congrArg Host.Outcome.next (if_pos (refLocked_iff.mpr ⟨hlock, hlost⟩))

theorem exec_referenceLoss_idle (h : s.fget CLK_STAT_LOCK ≠ 1 ∨ s.sys.lostAt ≠ none) :
    exec (.referenceLoss t) s = .next (s.at t) :=
  congrArg Host.Outcome.next (if_neg (mt refLocked_iff.mp fun hd => h.elim (absurd hd.1) (absurd hd.2)))

/-- The hold after a loss is over. -/
theorem holdOver_iff : holdOver (s.at t) = true ↔ ∃ l, s.sys.lostAt = some l ∧ l + 100 * usT ≤ max s.clk t := by
  unfold holdOver
  rw [State.at_sys]
  cases s.sys.lostAt with
  | none => simp
  | some l =>
    simp only [decide_eq_true_eq, Option.some.injEq, exists_eq_left']
    rfl

theorem holdOver_eq_false {l : Time} (hlost : s.sys.lostAt = some l) (ht : max s.clk t < l + 100 * usT) :
    holdOver (s.at t) = false := by
  rw [Bool.eq_false_iff]
  intro h
  obtain ⟨l', hl', ht'⟩ := holdOver_iff.mp h
  cases hlost.symm.trans hl'
  exact absurd ht' (not_le.mpr ht)

theorem exec_referenceReturn {l : Time} (hlost : s.sys.lostAt = some l) (ht : max s.clk t < l + 100 * usT) :
    exec (.referenceReturn t) s = .next (srcRelease { (s.at t).fsets [(CLK_STAT_HOLD, 0, 0), (CLK_STAT_LOCK, 0, 1),
      (CLK_STAT_LOSSCNT, 0, min (s.fget CLK_STAT_LOSSCNT + 1) 255)] with sys.lostAt := none } SRC_CLKLOSS) := by
  have hdue : ((s.at t).sys.lostAt.isSome && !holdOver (s.at t)) = true := by
    rw [holdOver_eq_false hlost ht, State.at_sys, hlost]
    rfl
  have hcnt : ((s.at t).fsets [(CLK_STAT_HOLD, 0, 0), (CLK_STAT_LOCK, 0, 1)]).fget CLK_STAT_LOSSCNT =
      s.fget CLK_STAT_LOSSCNT := by
    simp (disch := decide) only [fsets_cons, fsets_nil, fget_fset_far, fget_at]
  refine congrArg Host.Outcome.next ((if_pos hdue).trans ?_)
  dsimp only
  rw [State.satAdd, hcnt]
  rfl

theorem exec_referenceReturn_idle (h : ∀ l, s.sys.lostAt = some l → l + 100 * usT ≤ max s.clk t) :
    exec (.referenceReturn t) s = .next (s.at t) := by
  refine congrArg Host.Outcome.next (if_neg ?_)
  rw [Bool.and_eq_true, Option.isSome_iff_exists, Bool.not_eq_true', Bool.eq_false_iff]
  rintro ⟨⟨l, hl⟩, hnot⟩
  exact hnot (holdOver_iff.mpr ⟨l, hl, h l hl⟩)

/-- Settles O4: each command acts by its phase and instant, and moves the clock alone elsewhere. -/
theorem supplyPinAndReferenceEvents : Obligations.SupplyPinAndReferenceEvents :=
  ⟨fun _ _ => exec_supplyRelease, fun _ _ => exec_supplyRelease_idle, fun _ _ _ => exec_brownOut,
    fun _ _ _ => exec_brownOut_idle, fun _ _ _ => exec_pinReset, fun _ _ _ => exec_pinReset_held,
    fun _ _ => exec_resetPinRelease, fun _ _ => exec_resetPinRelease_elsewhere, fun _ bank up _ => exec_vddioBankPower bank up,
    fun _ _ => exec_lrefclkWatchEnd, fun _ _ _ => exec_lrefclkWatchEnd_idle,
    fun _ _ h => ⟨exec_crystalQualified h, exec_crystalQualifyTimeout h⟩,
    fun _ _ _ => ⟨fun ht => exec_crystalQualified_idle (.inr ht), fun ht => exec_crystalQualifyTimeout_idle (.inr ht)⟩,
    fun _ _ h => ⟨exec_crystalQualified_idle (.inl h), exec_crystalQualifyTimeout_idle (.inl h)⟩,
    fun _ _ => exec_referenceRetry, fun _ _ => exec_referenceRetry_idle, fun _ _ => exec_referenceLoss,
    fun _ _ => exec_referenceLoss_idle, fun _ _ _ => exec_referenceReturn, fun _ _ => exec_referenceReturn_idle⟩

/-! ### The sources of a reset (R47, R50, R54, R77) -/

theorem exec_referenceHoldExpiry {also : List RstSrc} {l : Time} (hlost : s.sys.lostAt = some l)
    (ht : l + 100 * usT ≤ max s.clk t) :
    exec (.referenceHoldExpiry t also) s = .next (coldReset (s.at t) (.clkloss :: also) .refWatch) :=
  congrArg Host.Outcome.next (if_pos (holdOver_iff.mpr ⟨l, hlost, ht⟩))

theorem exec_referenceHoldExpiry_idle {also : List RstSrc} (h : ∀ l, s.sys.lostAt = some l → max s.clk t < l + 100 * usT) :
    exec (.referenceHoldExpiry t also) s = .next (s.at t) := by
  refine congrArg Host.Outcome.next (if_neg ?_)
  rw [holdOver_iff]
  rintro ⟨l, hl, hle⟩
  exact absurd hle (not_le.mpr (h l hl))

theorem exec_watchdogExpiry {also : List RstSrc} {p : Straps} (hrun : running s = true) (hhalt : s.sys.halted = false) :
    exec (.watchdogExpiry t also p) s = .next (systemReset (s.at t) (.wdog :: also) p) := by
  have hdue : (running (s.at t) && !(s.at t).sys.halted) = true := by
    rw [show running (s.at t) = true from hrun, State.at_sys, hhalt]
    rfl
  exact congrArg Host.Outcome.next (if_pos hdue)

theorem exec_watchdogExpiry_idle {also : List RstSrc} {p : Straps} (h : running s = false ∨ s.sys.halted = true) :
    exec (.watchdogExpiry t also p) s = .next (s.at t) := by
  have hdue : (running (s.at t) && !(s.at t).sys.halted) = false := by
    rcases h with h | h
    · rw [show running (s.at t) = false from h, Bool.false_and]
    · rw [State.at_sys, h, Bool.not_true, Bool.and_false]
  exact congrArg Host.Outcome.next (if_neg (by rw [hdue]; decide))

theorem exec_lockstepError {also : List RstSrc} {p : Straps} (hrun : running s = true) :
    exec (.lockstepError t also p) s = .next (systemReset (s.at t) (.lockstep :: also) p) :=
  congrArg Host.Outcome.next (if_pos hrun)

theorem exec_lockstepError_idle {also : List RstSrc} {p : Straps} (hrun : running s = false) :
    exec (.lockstepError t also p) s = .next (s.at t) :=
  congrArg Host.Outcome.next (if_neg (Bool.eq_false_iff.mp hrun))

theorem debugDue_iff : (running (s.at t) && (s.at t).flag SEC_STAT_UNLOCKED) = true ↔
    running s = true ∧ s.fget SEC_STAT_UNLOCKED = 1 := by
  rw [Bool.and_eq_true, flag_at, State.flag, beq_iff_eq]
  rfl

theorem exec_debugReset {also : List RstSrc} {p : Straps} (hrun : running s = true) (hopen : s.fget SEC_STAT_UNLOCKED = 1) :
    exec (.debugReset t also p) s = .next (systemReset (s.at t) (.debug :: also) p) :=
  congrArg Host.Outcome.next (if_pos (debugDue_iff.mpr ⟨hrun, hopen⟩))

theorem exec_debugReset_idle {also : List RstSrc} {p : Straps} (h : running s = false ∨ s.fget SEC_STAT_UNLOCKED ≠ 1) :
    exec (.debugReset t also p) s = .next (s.at t) :=
  congrArg Host.Outcome.next (if_neg (mt debugDue_iff.mp fun hd => h.elim (by simp [hd.1]) (absurd hd.2)))

/-- A write of SYS_RSTCTL that passes the access checks, as it stands before any reset. -/
def rstctlNoted (s : State) (m w : Nat) : State := s.noted m 0x14 w (countRsvd s m 0x14 w)

section
variable {m : Master} {w : Word} {also : List RstSrc} {p : Straps}

/-- The key, then COLD, then SYS. -/
theorem rstctlWrite_ok (h : s.MayWrite m 0x14 w.toNat false) : (rstctlWrite s m w.toNat 4 true also p).2 =
    let u := rstctlNoted s m w.toNat
    if w.toNat / 65536 = 0xA55A then
      if bit w.toNat 1 then coldReset u (.pin :: ((if bit w.toNat 0 then [.swsys] else []) ++ also)) .refWatch
      else if bit w.toNat 0 then systemReset u (.swsys :: also) p else u
    else u := by
  have hw : regWrite s m 0x14 w.toNat 4 false true (fun s => (.ok, s)) = (.ok, rstctlNoted s m w.toNat) := regWrite_ok h rfl
  unfold rstctlWrite
  rw [hw]
  generalize rstctlNoted s m w.toNat = u
  dsimp only
  by_cases hkey : w.toNat / 65536 = 0xA55A
  · rw [if_pos hkey, if_pos (by rw [hkey]; decide), apply_ite Prod.snd, apply_ite Prod.snd]
  · rw [if_neg hkey, if_neg (by simpa using hkey)]

theorem exec_sysResetRequest :
    exec (.sysResetRequest m w also p) s = .next (rstctlWrite s m w.toNat 4 true also p).2 := rfl

/-- COLD_RESET_REQUEST with a word that does not ask for SYS alone samples no straps. -/
theorem exec_coldResetRequest (h : ¬ (w.toNat / 65536 = 0xA55A ∧ bit w.toNat 0 = true ∧ bit w.toNat 1 = false)) :
    exec (.coldResetRequest m w also) s = .next (rstctlWrite s m w.toNat 4 true also s.pins.straps).2 :=
  congrArg Host.Outcome.next (if_neg (by simpa [and_assoc] using h))

/-- With one that does, the samples are drawn. -/
theorem exec_coldResetRequest_sys (hkey : w.toNat / 65536 = 0xA55A) (hcold : bit w.toNat 1 = false)
    (hsys : bit w.toNat 0 = true) : ∃ p : Straps,
    exec (.coldResetRequest m w also) s = .next (rstctlWrite (drawFree s).2 m w.toNat 4 true also p).2 :=
  ⟨_, congrArg Host.Outcome.next (if_pos (by rw [hkey, hcold, hsys]; decide))⟩

theorem mayWrite_drawFree (h : s.MayWrite m 0x14 w.toNat false) : (drawFree s).2.MayWrite m 0x14 w.toNat false := h

/-- Without the key, or with neither bit, the write has no effect of its own. -/
theorem rstctlWrite_none (h : s.MayWrite m 0x14 w.toNat false)
    (hnone : w.toNat / 65536 ≠ 0xA55A ∨ (bit w.toNat 1 = false ∧ bit w.toNat 0 = false)) :
    (rstctlWrite s m w.toNat 4 true also p).2 = rstctlNoted s m w.toNat := by
  rw [rstctlWrite_ok h]
  rcases hnone with hkey | ⟨hcold, hsys⟩
  · exact if_neg hkey
  · simp [hcold, hsys]

theorem rstctlWrite_cold (h : s.MayWrite m 0x14 w.toNat false) (hkey : w.toNat / 65536 = 0xA55A)
    (hcold : bit w.toNat 1 = true) : (rstctlWrite s m w.toNat 4 true also p).2 = coldReset (rstctlNoted s m w.toNat)
      (.pin :: ((if bit w.toNat 0 = true then [.swsys] else []) ++ also)) .refWatch := by
  rw [rstctlWrite_ok h]
  dsimp only
  rw [if_pos hkey, if_pos hcold]

theorem rstctlWrite_sys (h : s.MayWrite m 0x14 w.toNat false) (hkey : w.toNat / 65536 = 0xA55A)
    (hcold : bit w.toNat 1 = false) (hsys : bit w.toNat 0 = true) : (rstctlWrite s m w.toNat 4 true also p).2 =
      systemReset (rstctlNoted s m w.toNat) (.swsys :: also) p := by
  rw [rstctlWrite_ok h]
  dsimp only
  rw [if_pos hkey, if_neg (by rw [hcold]; decide), if_pos hsys]

end

/-- The reset that a RESET command asked for comes at its instant (R78). -/
theorem exec_mailboxResetFire {p : Straps} (ht : s.sys.resetAt ≤ max s.clk t) :
    (s.sys.resetPend = some true → exec (.mailboxResetFire t p) s = .next (coldReset (s.at t) [.pin] .refWatch)) ∧
    (s.sys.resetPend = some false → exec (.mailboxResetFire t p) s = .next (systemReset (s.at t) [.swsys] p)) ∧
    (s.sys.resetPend = none → exec (.mailboxResetFire t p) s = .next (s.at t)) := by
  refine ⟨fun h => ?_, fun h => ?_, fun h => ?_⟩
  all_goals exact congrArg Host.Outcome.next ((if_neg (not_lt.mpr ht)).trans (by rw [State.at_sys, h]))

theorem exec_mailboxResetFire_idle {p : Straps} (ht : max s.clk t < s.sys.resetAt) :
    exec (.mailboxResetFire t p) s = .next (s.at t) := congrArg Host.Outcome.next (if_pos ht)

/-- Settles O6: each event takes its reset under its condition; the writes of SYS_RSTCTL go through `rstctlWrite`. -/
theorem resetsAreTaken : Obligations.ResetsAreTaken := by
  refine ⟨fun _ _ _ _ => exec_referenceHoldExpiry, fun _ _ _ => exec_referenceHoldExpiry_idle,
    fun _ _ _ _ => exec_watchdogExpiry, fun _ _ _ _ => exec_watchdogExpiry_idle, fun _ _ _ _ => exec_lockstepError,
    fun _ _ _ _ => exec_lockstepError_idle, fun _ _ _ _ => exec_debugReset, fun _ _ _ _ => exec_debugReset_idle,
    fun m w also p s h hkey hcold hsys => ?_, fun m w also p s h hnone => ⟨?_, ?_⟩,
    fun m w also s h hkey => ⟨fun hcold => ⟨?_, fun p => ?_⟩, fun hcold hsys => ?_⟩, fun _ _ _ => exec_mailboxResetFire_idle,
    fun _ _ _ => exec_mailboxResetFire⟩
  · rw [exec_sysResetRequest, rstctlWrite_sys h hkey hcold hsys, rstctlNoted]
  · rw [exec_sysResetRequest, rstctlWrite_none h hnone, rstctlNoted]
  · rw [exec_coldResetRequest, rstctlWrite_none h hnone, rstctlNoted]
    rintro ⟨hkey, hsys, -⟩
    exact hnone.elim (absurd hkey) (fun hn => by simp [hn.2] at hsys)
  · rw [exec_coldResetRequest (fun hn => by simp [hcold] at hn), rstctlWrite_cold h hkey hcold, rstctlNoted]
  · rw [exec_sysResetRequest, rstctlWrite_cold h hkey hcold, rstctlNoted]
  · obtain ⟨p, hp⟩ := exec_coldResetRequest_sys (m := m) (also := also) (s := s) hkey hcold hsys
    exact ⟨p, by rw [hp, rstctlWrite_sys (mayWrite_drawFree h) hkey hcold hsys, rstctlNoted]⟩

end Sys2Proof.Machine
end


section
/-! The ends of the power transitions and of the self-tests, and the replicas of network time. -/
namespace Sys2Proof.Machine

/-! ### A domain that is switched on (R37) -/

/-- A write at a higher address leaves a field alone, whatever the index. -/
theorem fget_fset_above {F G : Fld} {i j : Nat} (s : State) (v : Nat) (hj : j < 2048) (hlo : G.lo < 32)
    (h : G.addr < F.addr) : (s.fset F i v).fget G j = s.fget G j := by
  refine fget_fset_other s v ?_
  unfold Fld.key
  omega

/-- A field that each step of a fold leaves alone. -/
theorem fget_foldl {α : Type} {f : State → α → State} {G : Fld} {j : Nat} (hf : ∀ u x, (f u x).fget G j = u.fget G j)
    (l : List α) (s : State) : (l.foldl f s).fget G j = s.fget G j := by
  induction l generalizing s with
  | nil => rfl
  | cons x l ih => rw [List.foldl_cons, ih, hf]

theorem serveDomains_fget {s : State} {G : Fld} {j : Nat} (h : G.key j ≠ PWR_DOMBUSY_BUSY.key 0) :
    (serveDomains s).fget G j = s.fget G j := by
  obtain ⟨b, v, hs⟩ := serveDomains_cases s
  rw [hs, fget_fset_other _ _ h]
  exact fget_congr rfl G j

/-- A domain but PD7 reports ON at the end of its switching on. -/
theorem domOn_domainOn {s : State} {d : Nat} (hd : d < 17) (h7 : d ≠ 7) :
    bit ((domainOn s d).fget PWR_DOMSTAT_ON) d = true := by
  unfold domainOn
  extract_lets _ s₁ s₂ _ s₃ s₄ _ s₅ s₆
  have h₂ : s₂.fget PWR_DOMSTAT_ON = putBit (s₁.fget PWR_DOMSTAT_ON) d true % 2 ^ 17 := fget_fset_same _ _ _ _
  have h₃ : s₃ = s₂ := if_neg (by simpa using h7)
  have h₄ : s₄.fget PWR_DOMSTAT_ON = s₃.fget PWR_DOMSTAT_ON := by
    unfold s₄
    split
    · exact fget_foldl (fun u c => fget_fset_above u _ (by decide) (by decide) (by decide)) _ _
    · rfl
  have h₅ : s₅.fget PWR_DOMSTAT_ON = s₄.fget PWR_DOMSTAT_ON := by
    unfold s₅
    split
    · exact fget_foldl (fun u c => fget_fset_above u _ (by decide) (by decide) (by decide)) _ _
    · rfl
  have h₆ : s₆.fget PWR_DOMSTAT_ON = s₅.fget PWR_DOMSTAT_ON :=
    fget_foldl (f := fun s m => scrubSet s m { at_ := s.clk }) (fun _ _ => rfl) (domMems d) s₅
  rw [serveDomains_fget (by decide)]
  change bit (s₆.fget PWR_DOMSTAT_ON) d = true
  rw [h₆, h₅, h₄, h₃, h₂, bit_mod_two_pow hd, bit_putBit, if_pos rfl]

section
variable {t : Time} {d : Dom} {s : State}

theorem exec_domainOnComplete (h : s.sys.domBusy = some (d.val, true)) :
    exec (.domainOnComplete t d) s = .next (if bit (domainOn (s.at t) d).sys.testing d then domainOn (s.at t) d
      else domReady (domainOn (s.at t) d) d) := congrArg Host.Outcome.next (if_pos (beq_iff_eq.mpr h))

theorem exec_domainOnComplete_idle (h : s.sys.domBusy ≠ some (d.val, true)) :
    exec (.domainOnComplete t d) s = .next (s.at t) := congrArg Host.Outcome.next (if_neg (mt beq_iff_eq.mp h))

/-! ### A domain that is switched off (R38) -/

theorem exec_domainOffComplete (h : s.sys.domBusy = some (d.val, false)) :
    exec (.domainOffComplete t d) s = .next (serveDomains
      (let u := domClear (lanesDown (s.at t) d) d
       let v := u.fset PWR_DOMSTAT_ON 0 (putBit (u.fget PWR_DOMSTAT_ON) d false)
       let w := if 10 ≤ d.val then linkStatus v else v
       { w with sys.domBusy := none, sys.testing := putBit w.sys.testing d false })) :=
  congrArg Host.Outcome.next (if_pos (beq_iff_eq.mpr h))

theorem exec_domainOffComplete_idle (h : s.sys.domBusy ≠ some (d.val, false)) :
    exec (.domainOffComplete t d) s = .next (s.at t) := congrArg Host.Outcome.next (if_neg (mt beq_iff_eq.mp h))

/-! ### The end of a self-test (R383, R384) -/

theorem exec_domainSelftestDone {pass : Bool} {failed : List Nat} (h : bit s.sys.testing d = true) :
    exec (.domainSelftestDone t d pass failed) s = .next
      (if domRetired (domainTested (s.at t) d pass failed) d then leaveBoot (domainTested (s.at t) d pass failed)
       else domReady (domainTested (s.at t) d pass failed) d) := congrArg Host.Outcome.next (if_pos h)

theorem exec_domainSelftestDone_idle {pass : Bool} {failed : List Nat} (h : bit s.sys.testing d = false) :
    exec (.domainSelftestDone t d pass failed) s = .next (s.at t) :=
  congrArg Host.Outcome.next (if_neg (Bool.eq_false_iff.mp h))

end

/-- A test in which nothing fails. -/
theorem domainTested_pass (s : State) (d : Nat) : domainTested s d true [] =
    { s.fset SEC_BISTDONE_DONE 0 (putBit (s.fget SEC_BISTDONE_DONE) d true) with
      sys.testing := putBit s.sys.testing d false } := by
  have hnone : (domInstances d).filter ([] : List Nat).contains = [] := by simp
  unfold domainTested
  dsimp only
  rw [hnone, if_neg]
  · rfl
  · cases domInstances d <;> simp

/-- A test that something other than instances fails: the domain is retired and its request dropped. -/
theorem domainTested_fail (s : State) (d : Nat) : domainTested s d false [] = serveDomains
    (State.fsets { s with sys.testing := putBit s.sys.testing d false }
      [(SEC_BISTDONE_DONE, 0, putBit (s.fget SEC_BISTDONE_DONE) d true),
       (SYS_RETIRED_RETIRED, 0, putBit (s.fget SYS_RETIRED_RETIRED) d true),
       (PWR_DOMCTL_REQ, 0, putBit (s.fget PWR_DOMCTL_REQ) (d - 1) false)]) := by
  have hnone : (domInstances d).filter ([] : List Nat).contains = [] := by simp
  have hret (v : Nat) : (s.fset SEC_BISTDONE_DONE 0 v).fget SYS_RETIRED_RETIRED = s.fget SYS_RETIRED_RETIRED :=
    fget_fset_far _ _ (by decide) (by decide) (by decide)
  have hreq (v v' : Nat) : ((s.fset SEC_BISTDONE_DONE 0 v).fset SYS_RETIRED_RETIRED 0 v').fget PWR_DOMCTL_REQ =
      s.fget PWR_DOMCTL_REQ := by
    rw [fget_fset_far _ _ (by decide) (by decide) (by decide), fget_fset_far _ _ (by decide) (by decide) (by decide)]
  unfold domainTested
  dsimp only
  rw [hnone, if_pos (by simp), ← hret (putBit (s.fget SEC_BISTDONE_DONE) d true),
    ← hreq (putBit (s.fget SEC_BISTDONE_DONE) d true)
      (putBit ((s.fset SEC_BISTDONE_DONE 0 (putBit (s.fget SEC_BISTDONE_DONE) d true)).fget SYS_RETIRED_RETIRED) d true)]
  rfl

theorem domRetired_domainTested_pass {s : State} {d : Nat} (h : domRetired s d = false) :
    domRetired (domainTested s d true []) d = false := by
  rw [domainTested_pass, domRetired, ← h, domRetired]
  exact congrArg (bit · d) (fget_fset_far s _ (by decide) (by decide) (by decide))

theorem domRetired_domainTested_fail (s : State) {d : Nat} (hd : d < 17) :
    domRetired (domainTested s d false []) d = true := by
  rw [domainTested_fail, domRetired, serveDomains_fget (by decide), fsets_cons, fsets_cons, fsets_cons, fsets_nil,
    fget_fset_far _ _ (by decide) (by decide) (by decide), fget_fset_same,
    bit_mod_two_pow (k := SYS_RETIRED_RETIRED.width) hd, bit_putBit, if_pos rfl]

/-! ### Leaving BOOT (R31, R33, R384) -/

theorem leaveBoot_stays {u : State}
    (h : devState u ≠ ST_BOOT ∨ u.sys.phase ≠ .firmware ∨ cfgInForce u = false ∨ usesUntested u = true) :
    leaveBoot u = u := by
  refine if_pos ?_
  rcases h with h | h | h | h <;> simp [h]

theorem leaveBoot_leaves {u : State} (hst : devState u = ST_BOOT) (hphase : u.sys.phase = .firmware)
    (hcfg : cfgInForce u = true) (htest : usesUntested u = false) :
    leaveBoot u = if usesRetired u then setCause u CA_CONFIG
      else if isStack u then beginEnum u CA_NONE else tryJoin u :=
  if_neg (by simp [hst, hphase, hcfg, htest])

/-! ### The replicas of network time (R44) -/

theorem hasReplica_iff (d : Nat) : hasReplica d = true ↔ d = 3 ∨ (5 ≤ d ∧ d ≤ 8) ∨ 10 ≤ d := by
  simp only [hasReplica, Bool.or_eq_true, List.contains_iff_mem, List.mem_cons, List.not_mem_nil, or_false,
    decide_eq_true_eq]
  omega

theorem exec_replicaCheck {t : Time} {d : Dom} {diff : Int} {s : State} (hon : domOn s d = true)
    (hrep : hasReplica d = true) (ht : smGet 0 s.sys.replAt d + msT ≤ max s.clk t) :
    exec (.replicaCheck t d diff) s = .next (replicaJudge
      { s.at t with sys.replAt := smSet 0 s.sys.replAt d (max s.clk t) } d (smGet 0 s.sys.repl d + diff)) := by
  have hon' : domOn (s.at t) d = true := hon
  have hdue : ¬ (s.at t).clk < smGet 0 (s.at t).sys.replAt d + msT := not_lt.mpr ht
  exact congrArg Host.Outcome.next (if_neg (by rw [hon', hrep, decide_eq_false hdue]; decide))

theorem exec_replicaCheck_idle {t : Time} {d : Dom} {diff : Int} {s : State}
    (h : domOn s d = false ∨ hasReplica d = false ∨ max s.clk t < smGet 0 s.sys.replAt d + msT) :
    exec (.replicaCheck t d diff) s = .next (s.at t) := by
  have hon' : domOn (s.at t) d = domOn s d := rfl
  have hclk : (s.at t).clk = max s.clk t := rfl
  refine congrArg Host.Outcome.next (if_pos ?_)
  rw [hon', hclk, State.at_sys]
  rcases h with h | h | h <;> simp [h]

/-- The triggers that a step of the replica passes over. -/
theorem foldl_passOver (d a b : Nat) (l : List Nat) (u : State) :
    ∃ x, l.foldl (passOver d a b) u = { u with tim := { u.tim with trig := x } } := by
  induction l generalizing u with
  | nil => exact ⟨u.tim.trig, rfl⟩
  | cons n l ih =>
    obtain ⟨x, hx⟩ := ih (passOver d a b u n)
    rw [List.foldl_cons, hx, passOver]
    split
    · exact ⟨x, rfl⟩
    · exact ⟨x, rfl⟩

/-- The pairs that find their first valley again. -/
theorem foldl_pwmMod (c : State → Nat → Bool) (f : State → Nat → PwmPair → PwmPair) (l : List Nat) (u : State) :
    ∃ x, l.foldl (fun s p => if c s p then pwmMod s p (f s p) else s) u = { u with pwm := x } := by
  induction l generalizing u with
  | nil => exact ⟨u.pwm, rfl⟩
  | cons p l ih =>
    obtain ⟨x, hx⟩ := ih (if c u p then pwmMod u p (f u p) else u)
    rw [List.foldl_cons, hx]
    split
    · exact ⟨x, rfl⟩
    · exact ⟨x, rfl⟩

theorem replicaJudge_near {u : State} {d : Nat} {off : Int} (h : off.natAbs * 1000 ≤ 50 * 65536) :
    replicaJudge u d off = { u with sys.repl := smSet 0 u.sys.repl d off } := if_neg (not_lt.mpr h)

/-- A re-alignment changes the replica and its count, what its triggers have passed, and the pairs. -/
theorem replicaJudge_far {u : State} {d : Nat} {off : Int} (h : 50 * 65536 < off.natAbs * 1000) :
    ∃ x y, replicaJudge u d off = { u with
      tim := { u.tim with trig := x }, pwm := y
      sys := { u.sys with realign := smMod 0 u.sys.realign d (· + 1), repl := smErase u.sys.repl d } } := by
  unfold replicaJudge
  rw [if_pos h]
  extract_lets s₁ _ s₂
  have h₁ : ∃ x, s₁ = { u with tim := { u.tim with trig := x } } := by
    unfold s₁
    split
    · exact foldl_passOver _ _ _ _ _
    · exact ⟨u.tim.trig, rfl⟩
  obtain ⟨x, h₁⟩ := h₁
  obtain ⟨y, h₂⟩ := foldl_pwmMod (fun s p => pairDom p == d && (pwmOf s p).waiting && s.flag PWM_CFG_ALIGN p) firstValley
    (List.range 12) s₂
  clear_value s₁
  subst h₁
  exact ⟨x, y, h₂⟩

theorem repTime_of_erased {s : State} {d : Nat} {m : SMap Int} (h : s.sys.repl = smErase m d) : repTime s d = netTime s := by
  rw [repTime, h, smGet_erase_same, add_zero, Int.toNat_natCast]

/-- Settles O11: each end of a transition or test acts on what was begun alone; the replica is judged by its distance. -/
theorem domainTransitionsEnd : Obligations.DomainTransitionsEnd := by
  refine ⟨fun t d s h hd => ⟨fun htest => ?_, fun htest => ?_, domOn_domainOn d.isLt⟩, fun t d s => exec_domainOnComplete_idle,
    fun t d s => exec_domainOffComplete, fun t d s => exec_domainOffComplete_idle, fun t d s h hret => ?_,
    fun t d s h hd => ?_, fun u => ⟨leaveBoot_stays, fun hst hphase hcfg htest => ⟨fun hret => ?_, fun hret => ?_⟩⟩,
    fun t d pass failed s => exec_domainSelftestDone_idle, fun t d diff s hon hrep => ?_,
    fun d off u => ⟨replicaJudge_near, fun h => ?_⟩, fun t d diff s h => ?_⟩
  · rw [exec_domainOnComplete h, if_pos htest]
  · rw [exec_domainOnComplete h, if_neg (by rw [htest]; decide)]
  · rw [exec_domainSelftestDone h, if_neg (by rw [domRetired_domainTested_pass (s := s.at t) hret]; decide), domainTested_pass]
    rfl
  · rw [exec_domainSelftestDone h, if_pos (domRetired_domainTested_fail _ d.isLt), domainTested_fail]
    rfl
  · rw [leaveBoot_leaves hst hphase hcfg htest, if_pos hret]
  · rw [leaveBoot_leaves hst hphase hcfg htest, if_neg (by rw [hret]; decide)]
  · exact exec_replicaCheck hon ((hasReplica_iff _).mpr hrep)
  · obtain ⟨x, y, hfar⟩ := replicaJudge_far h
    have htime : repTime (replicaJudge u d off) d = netTime (replicaJudge u d off) :=
      repTime_of_erased (m := u.sys.repl) (by rw [hfar])
    rw [htime, hfar]
    exact ⟨rfl, rfl, rfl, rfl, rfl⟩
  · exact exec_replicaCheck_idle (h.imp_right (Or.imp_left fun hn => Bool.eq_false_iff.mpr (mt (hasReplica_iff _).mp hn)))

end Sys2Proof.Machine
end


section
/-! The steps of the boot. -/
namespace Sys2Proof.Machine

variable {t : Time} {s : State}

/-! ### The OTP load (R50, R385, R394) -/

/-- The SEC registers that show the OTP. -/
def otpRegs : List (Fld × Nat) :=
  [(SEC_SVN_FW_SVN, 0), (SEC_SVN_CFG_SVN, 0), (SEC_STAT_SLOTVALID, 0), (SEC_STAT_SLOTREV, 0), (SEC_STAT_VREV, 0),
    (SEC_STAT_ENRLOCK, 0), (SEC_STAT_OTPBUSY, 0)]

/-- The registers alone show the OTP. -/
theorem otpShow_regs (s : State) : otpShow s = { s with regs := (otpShow s).regs } := rfl

theorem otpShow_frame (s : State) : s.SameRegsBut (otpShow s) otpRegs :=
  sameRegs_fset _ _ _ (sameRegs_fsets _ (sameRegs_refl _ _) (by simp [otpRegs])) (by simp [otpRegs])

theorem fget_otpShow (s : State) : (otpShow s).fget SEC_SVN_FW_SVN = s.sec.otp.fwSvn % 64 ∧
    (otpShow s).fget SEC_SVN_CFG_SVN = s.sec.otp.cfgSvn % 64 ∧ (otpShow s).fget SEC_STAT_SLOTVALID = s.sec.otp.slotValid % 16 ∧
    (otpShow s).fget SEC_STAT_SLOTREV = s.sec.otp.slotRev % 16 ∧ (otpShow s).fget SEC_STAT_ENRLOCK = b2n s.sec.otp.enrLock := by
  simp (disch := decide) only [otpShow, fsets_cons, fsets_nil, fget_fset_far, fget_fset_same]
  refine ⟨rfl, rfl, rfl, rfl, ?_⟩
  cases s.sec.otp.enrLock <;> rfl

/-- The challenge words that a fold draws. -/
theorem foldl_challenge (l : List Nat) (s : State) : ∃ r f,
    l.foldl (fun s i => (drawFree s).2.fset SEC_DBGCHAL_CHAL i (drawFree s).1) s = { s with regs := r, free := f } ∧
      s.SameRegsBut { s with regs := r, free := f } (l.map (fun i => (SEC_DBGCHAL_CHAL, i))) := by
  induction l generalizing s with
  | nil => exact ⟨s.regs, s.free, rfl, sameRegs_refl _ _⟩
  | cons i l ih =>
    obtain ⟨r, f, heq, hframe⟩ := ih ((drawFree s).2.fset SEC_DBGCHAL_CHAL i (drawFree s).1)
    have hfirst : s.SameRegsBut ((drawFree s).2.fset SEC_DBGCHAL_CHAL i (drawFree s).1)
        ((i :: l).map (fun i => (SEC_DBGCHAL_CHAL, i))) :=
      sameRegs_fset _ _ _ (sameRegs_of_regs _ rfl) (by simp)
    exact ⟨r, f, heq, sameRegs_trans hfirst (sameRegs_mono hframe fun _ he => List.mem_cons_of_mem _ he)⟩

theorem newChallenge_cases (s : State) : ∃ r f, newChallenge s = { s with regs := r, free := f } ∧
    s.SameRegsBut (newChallenge s) ((List.range 8).map (fun i => (SEC_DBGCHAL_CHAL, i))) := by
  obtain ⟨r, f, heq, hframe⟩ := foldl_challenge (List.range 8) s
  have hnew : newChallenge s = { s with regs := r, free := f } := heq
  exact ⟨r, f, hnew, hnew ▸ hframe⟩

theorem exec_otpLoadDone (h : s.sys.phase = .otpLoad) (ht : s.sys.since + 100 * usT ≤ max s.clk t) :
    exec (.otpLoadDone t) s = .next (newChallenge (otpLock (scrubBegin
      { s.at t with sys.phase := .selfTest, pins.fqRstN := true } [0, 1]))) :=
  congrArg Host.Outcome.next (if_pos (phaseDue_iff.mpr ⟨h, ht⟩))

theorem exec_otpLoadDone_idle (h : s.sys.phase ≠ .otpLoad ∨ max s.clk t < s.sys.since + 100 * usT) :
    exec (.otpLoadDone t) s = .next (s.at t) := congrArg Host.Outcome.next (if_neg (not_phaseDue h))

theorem otpLoaded (u : State) : (newChallenge (otpLock u)).sys = u.sys ∧ (newChallenge (otpLock u)).mem = u.mem ∧
    (newChallenge (otpLock u)).flash = u.flash ∧ (newChallenge (otpLock u)).pins = u.pins ∧
    (newChallenge (otpLock u)).fget SEC_SVN_FW_SVN = u.sec.otp.fwSvn % 64 ∧
    (newChallenge (otpLock u)).fget SEC_SVN_CFG_SVN = u.sec.otp.cfgSvn % 64 ∧
    (newChallenge (otpLock u)).fget SEC_STAT_SLOTVALID = u.sec.otp.slotValid % 16 ∧
    (newChallenge (otpLock u)).fget SEC_STAT_SLOTREV = u.sec.otp.slotRev % 16 ∧
    (newChallenge (otpLock u)).fget SEC_STAT_ENRLOCK = b2n u.sec.otp.enrLock ∧
    u.SameRegsBut (newChallenge (otpLock u)) (otpRegs ++ (List.range 8).map (fun i => (SEC_DBGCHAL_CHAL, i))) := by
  obtain ⟨q, hq⟩ : ∃ q, otpLock u = otpShow { u with sec := { u.sec with otpQ := q } } := ⟨_, rfl⟩
  rw [hq]
  obtain ⟨hfw, hcfg, hvalid, hrev, hlock⟩ := fget_otpShow { u with sec := { u.sec with otpQ := q } }
  have hshow := otpShow_frame { u with sec := { u.sec with otpQ := q } }
  have hregs := otpShow_regs { u with sec := { u.sec with otpQ := q } }
  generalize otpShow { u with sec := { u.sec with otpQ := q } } = v at *
  obtain ⟨r, f, heq, hframe⟩ := newChallenge_cases v
  refine ⟨by rw [heq, hregs], by rw [heq, hregs], by rw [heq, hregs], by rw [heq, hregs], ?_, ?_, ?_, ?_, ?_, ?_⟩
  · rw [sameRegs_fget hframe _ _ (by decide) (by decide), hfw]
  · rw [sameRegs_fget hframe _ _ (by decide) (by decide), hcfg]
  · rw [sameRegs_fget hframe _ _ (by decide) (by decide), hvalid]
  · rw [sameRegs_fget hframe _ _ (by decide) (by decide), hrev]
  · rw [sameRegs_fget hframe _ _ (by decide) (by decide), hlock]
  · exact sameRegs_trans (sameRegs_of_regs (t := { u with sec := { u.sec with otpQ := q } }) _ rfl)
      (sameRegs_trans (sameRegs_mono hshow fun _ he => List.mem_append_left _ he)
        (sameRegs_mono hframe fun _ he => List.mem_append_right _ he))

/-! ### The self-test of PD0 and the choice of a slot (R57, R383) -/

theorem exec_pd0SelftestDone_idle {pass : Bool} (h : s.sys.phase ≠ .selfTest) :
    exec (.pd0SelftestDone t pass) s = .next (s.at t) := congrArg Host.Outcome.next (if_pos (bne_iff_ne.mpr h))

section
variable (h : s.sys.phase = .selfTest)
include h

theorem exec_pd0SelftestDone {pass : Bool} : exec (.pd0SelftestDone t pass) s = .next
    (if !pass then { s.at t with sys.phase := .selfTestWait, sys.since := max s.clk t }
     else if s.flag SYS_STRAP_SID_BAD then
      { (s.at t).fset SYS_BOOT_STATUS 0 Status.conflict.code with sys.phase := .romIdle }
     else bootNext { s.at t with sys.phase := .romSelect } (slotOrder { s.at t with sys.phase := .romSelect } 0)) :=
  congrArg Host.Outcome.next (if_neg (by rw [State.at_sys, h]; decide))

theorem exec_pd0SelftestDone_fail :
    exec (.pd0SelftestDone t false) s = .next { s.at t with sys.phase := .selfTestWait, sys.since := max s.clk t } := by
  rw [exec_pd0SelftestDone h]
  rfl

theorem exec_pd0SelftestDone_sidBad (hbad : s.fget SYS_STRAP_SID_BAD = 1) : exec (.pd0SelftestDone t true) s =
    .next { (s.at t).fset SYS_BOOT_STATUS 0 Status.conflict.code with sys.phase := .romIdle } := by
  have hflag : s.flag SYS_STRAP_SID_BAD = true := beq_iff_eq.mpr hbad
  rw [exec_pd0SelftestDone h, if_neg (by decide), if_pos hflag]

theorem exec_pd0SelftestDone_pass (hbad : s.fget SYS_STRAP_SID_BAD ≠ 1) : exec (.pd0SelftestDone t true) s =
    .next (bootNext { s.at t with sys.phase := .romSelect } (slotOrder { s.at t with sys.phase := .romSelect } 0)) := by
  have hflag : ¬ s.flag SYS_STRAP_SID_BAD = true := mt beq_iff_eq.mp hbad
  rw [exec_pd0SelftestDone h, if_neg (by decide), if_neg hflag]

end

/-- A slot that is no trial, or a trial not yet started three times, is tried next. -/
theorem bootNext_cons {u : State} {j : Nat} {l : List Nat}
    (h : (slotOfDir (dirNow u.flash).2 j).trial = false ∨ u.fget SYS_BOOT_TRIES < 3) :
    bootNext u (j :: l) = { u with sys.bootLeft := j :: l } := by
  have hskip : bootSkip u (j :: l) = j :: l := by
    refine if_neg ?_
    rw [Bool.and_eq_true, decide_eq_true_eq]
    rintro ⟨htrial, htries⟩
    rcases h with h | h
    · exact Bool.false_ne_true (h.symm.trans htrial)
    · omega
  rw [bootNext, hskip]

theorem bootNext_nil {u : State} (h : isStack u = true) :
    bootNext u [] = { u with sys := { u.sys with phase := .recovery, bootLeft := [] } } := if_pos h

theorem exec_pd0SelftestRetry (h : s.sys.phase = .selfTestWait) (ht : s.sys.since + 10 * msT ≤ max s.clk t) :
    exec (.pd0SelftestRetry t) s = .next { s.at t with sys.phase := .selfTest } :=
  congrArg Host.Outcome.next (if_pos (phaseDue_iff.mpr ⟨h, ht⟩))

theorem exec_pd0SelftestRetry_idle (h : s.sys.phase ≠ .selfTestWait ∨ max s.clk t < s.sys.since + 10 * msT) :
    exec (.pd0SelftestRetry t) s = .next (s.at t) := congrArg Host.Outcome.next (if_neg (not_phaseDue h))

/-! ### The verification of a slot (R57) -/

theorem exec_bootSlotVerify {j : Nat} {l : List Nat} {i : Image} (h : s.sys.phase = .romSelect)
    (hleft : s.sys.bootLeft = j :: l) (himg : s.flash.images.getD j none = some i) : exec (.bootSlotVerify t) s = .next
      (if verifySlot (s.at t) j = .ok then startFirmware (s.at t) j 0 (slotOfDir (dirNow s.flash).2 j).trial i
       else bootNext ((s.at t).fset SYS_BOOT_STATUS 0 (verifySlot (s.at t) j).code) l) := by
  refine congrArg Host.Outcome.next ((if_neg (by rw [State.at_sys, h]; decide)).trans ?_)
  rw [State.at_sys, State.at_flash, hleft]
  dsimp only
  rw [himg]
  cases verifySlot (s.at t) j <;> rfl

theorem exec_bootSlotVerify_idle (h : s.sys.phase ≠ .romSelect) : exec (.bootSlotVerify t) s = .next (s.at t) :=
  congrArg Host.Outcome.next (if_pos (bne_iff_ne.mpr h))

/-! ### The check of a configuration slot (R59, R439) -/

/-- The record of a slot's check in SYS_CFGSTAT. -/
def cfgTried (u : State) (j : Nat) (st : Status) : State :=
  if j = 2 then u.fsets [(SYS_CFGSTAT_TRIED0, 0, 1), (SYS_CFGSTAT_ST0, 0, st.code)]
  else u.fsets [(SYS_CFGSTAT_TRIED1, 0, 1), (SYS_CFGSTAT_ST1, 0, st.code)]

theorem cfgTried_flash (u : State) (j : Nat) (st : Status) : (cfgTried u j st).flash = u.flash := by
  unfold cfgTried
  split <;> rfl

theorem exec_configSlotCheck {j : Nat} {l : List Nat} {i : Image} (h : s.sys.phase = .firmware)
    (hhalt : s.sys.halted = false) (hleft : s.sys.cfgLeft = j :: l) (himg : s.flash.images.getD j none = some i) :
    let st := cfgSlotStatus (s.at t) j
    let u := cfgTried (s.at t) j st
    exec (.configSlotCheck t) s = .next (if st = .ok then cfgForce { u with sys.cfgLeft := [] } (j - 2) i
      else if l = [] then cfgNone { u with sys.cfgLeft := [] } else { u with sys.cfgLeft := l }) := by
  intro st u
  have hu : (if j == 2 then (s.at t).fsets [(SYS_CFGSTAT_TRIED0, 0, 1), (SYS_CFGSTAT_ST0, 0, st.code)]
      else (s.at t).fsets [(SYS_CFGSTAT_TRIED1, 0, 1), (SYS_CFGSTAT_ST1, 0, st.code)]) = u := by
    unfold u cfgTried
    by_cases hj : j = 2
    · rw [if_pos hj, if_pos (beq_iff_eq.mpr hj)]
    · rw [if_neg hj, if_neg (mt beq_iff_eq.mp hj)]
  refine congrArg Host.Outcome.next ((if_neg (by rw [State.at_sys, h, hhalt]; decide)).trans ?_)
  rw [State.at_sys, hleft]
  dsimp only
  rw [hu, cfgTried_flash, State.at_flash, himg]
  have hst : cfgSlotStatus (s.at t) j = st := rfl
  rw [hst]
  clear_value u st
  cases l <;> cases st <;> rfl

/-! ### The key (R391) -/

/-- A fold that writes a register's first instances, each once. -/
theorem foldl_fset_range (F : Fld) (v : SecSt → Nat → Nat) (n : Nat) (u : State) :
    let w := (List.range n).foldl (fun s i => s.fset F i (v s.sec i)) u
    w = { u with regs := w.regs } ∧ (∀ i, i < n → w.fget F i = v u.sec i % 2 ^ F.width) ∧
      u.SameRegsBut w ((List.range n).map (fun i => (F, i))) := by
  induction n with
  | zero => exact ⟨rfl, fun i hi => absurd hi (Nat.not_lt_zero i), sameRegs_refl _ _⟩
  | succ n ih =>
    obtain ⟨hrest, hval, hframe⟩ := ih
    rw [List.range_succ, List.foldl_append, List.foldl_cons, List.foldl_nil, List.map_append]
    generalize (List.range n).foldl (fun s i => s.fset F i (v s.sec i)) u = w at *
    have hsec : w.sec = u.sec := by rw [hrest]
    refine ⟨by rw [hrest]; rfl, fun i hi => ?_, ?_⟩
    · by_cases h : i = n
      · rw [h, fget_fset_same, hsec]
      · rw [fget_fset_idx _ _ _ h, hval i (by omega)]
    · exact sameRegs_fset _ _ _ (sameRegs_mono hframe fun _ he => List.mem_append_left _ he) (by simp)

/-- The firmware's public keys are formed. -/
def keyed (u : State) : State := { u with sec.idKeys := some (idPub u.sec.otp.idSeed) }

theorem exec_keyDerivationDone (h : s.sys.phase = .firmware) : exec (.keyDerivationDone t) s = .next
    ((List.range 8).foldl (fun s i => s.fset SEC_FPR_FPR i (identityFpr s.sec.otp / 2 ^ (32 * i)))
      ((keyed (s.at t)).fset SEC_STAT_KEYRDY 0 1)) := congrArg Host.Outcome.next (if_pos (beq_iff_eq.mpr h))

theorem exec_keyDerivationDone_idle (h : s.sys.phase ≠ .firmware) : exec (.keyDerivationDone t) s = .next (s.at t) :=
  congrArg Host.Outcome.next (if_neg (mt beq_iff_eq.mp h))

theorem keyDerivationDone_shows (h : s.sys.phase = .firmware) :
    Answers (exec (.keyDerivationDone t) s) (fun u => u.fget SEC_STAT_KEYRDY = 1 ∧
      (∀ i, i < 8 → u.fget SEC_FPR_FPR i = identityFpr s.sec.otp / 2 ^ (32 * i) % 2 ^ 32) ∧
      s.SameRegsBut u ((SEC_STAT_KEYRDY, 0) :: (List.range 8).map (fun i => (SEC_FPR_FPR, i))) ∧ s.SameMem u) := by
  obtain ⟨hrest, hval, hframe⟩ := foldl_fset_range SEC_FPR_FPR (fun x i => identityFpr x.otp / 2 ^ (32 * i)) 8
    ((keyed (s.at t)).fset SEC_STAT_KEYRDY 0 1)
  refine ⟨_, exec_keyDerivationDone h, ?_, hval, ?_, ?_⟩
  · rw [sameRegs_fget hframe _ _ (by decide) (by decide), fget_fset_same]
    rfl
  · refine sameRegs_trans (t := (keyed (s.at t)).fset SEC_STAT_KEYRDY 0 1) ?_
      (sameRegs_mono hframe fun _ he => List.mem_cons_of_mem _ he)
    exact sameRegs_fset (t := keyed (s.at t)) _ _ _ (sameRegs_of_regs _ rfl) (by simp)
  · refine sameMem_of_mem ?_
    rw [hrest]
    rfl

/-! ### Netboot (R61, R62) -/

theorem exec_netbootTimeout {a : Assembly} (hload : s.sys.load = some a) (h : s.sys.phase = .netboot)
    (hpart : a.complete = false) : exec (.netbootTimeout t) s = .next
      (if a.first + 2 * secT ≤ max s.clk t then { s.at t with sys.load := none, sys.netPort := none } else s.at t) := by
  refine congrArg Host.Outcome.next ?_
  rw [State.at_sys, hload]
  dsimp only
  have hwait : (s.sys.phase == .netboot && !a.complete) = true := by rw [h, hpart]; rfl
  rw [hwait, Bool.true_and]
  by_cases ht : a.first + 2 * secT ≤ (s.at t).clk
  · exact (if_pos (decide_eq_true ht)).trans (if_pos ht).symm
  · exact (if_neg (mt of_decide_eq_true ht)).trans (if_neg ht).symm

/-- An offer begins where the stack serves and the position requests, with no earlier offer. -/
theorem offerStart_begins {u : State} {k q slot : Nat} (hstack : isStack u = true) (hphase : u.sys.phase = .firmware)
    (hhalt : u.sys.halted = false) (hst : 2 ≤ devState u) (hchain : usedChain u k = true) (hq : q < 8)
    (hreq : requests u k q = true) (hnone : smGet none u.sys.offers (8 * k + q) = none)
    (hslot : offerSlot u (8 * k + q) = some slot) : offerStart u k q =
      offerChunk { u with sys.offers := smSet none u.sys.offers (8 * k + q) (some { slot, at_ := u.clk }) } k q
        { slot, at_ := u.clk } := by
  unfold offerStart
  have hserve : decide (ST_ENUMERATE ≤ devState u) = true := decide_eq_true hst
  have hq8 : decide (8 ≤ q) = false := decide_eq_false (not_le.mpr hq)
  dsimp only
  rw [hnone, hslot, hstack, hphase, hhalt, hserve, hchain, hq8, hreq]
  rfl

theorem exec_netbootOfferRetry {k : Fin 24} {q : Fin 8} :
    exec (.netbootOfferRetry t k q) s = .next (offerStart (s.at t) k q) := rfl

/-- Settles O13: each boot command is one function of its phase; the registers are read off its writes. -/
theorem bootStepsAreTaken : Obligations.BootStepsAreTaken := by
  refine ⟨fun t s h ht => ⟨_, exec_otpLoadDone h ht, ?_⟩, fun t s => exec_otpLoadDone_idle,
    fun t s h => ⟨exec_pd0SelftestDone_fail h, exec_pd0SelftestDone_sidBad h, fun j l hbad horder htry => ?_,
      fun hbad horder hstack => ?_⟩, fun t pass s => exec_pd0SelftestDone_idle, fun t s => exec_pd0SelftestRetry,
    fun t s => exec_pd0SelftestRetry_idle, fun t s j l i h hleft himg => ⟨fun hst => ?_, fun hst => ?_⟩,
    fun t s => exec_bootSlotVerify_idle, fun t s j l i h hhalt hleft himg => ?_, fun t s => keyDerivationDone_shows,
    fun t s => exec_keyDerivationDone_idle, fun t s a hload h hpart => ⟨fun ht => ?_, fun ht => ?_⟩,
    fun t k q s slot hstack h hhalt hst hchain hreq hnone hslot => ?_⟩
  · obtain ⟨hsys, hmem, hflash, hpins, hfw, hcfg, hvalid, hrev, hlock, hframe⟩ :=
      otpLoaded (scrubBegin { s.at t with sys.phase := .selfTest, pins.fqRstN := true } [0, 1])
    exact ⟨congrArg (·.phase) hsys, hfw, hcfg, hvalid, hrev, hlock, sameMem_of_mem hmem, hflash, hpins, hframe⟩
  · rw [exec_pd0SelftestDone_pass h hbad, horder, bootNext_cons (u := { s.at t with sys.phase := .romSelect }) htry]
  · rw [exec_pd0SelftestDone_pass h hbad, horder, bootNext_nil (u := { s.at t with sys.phase := .romSelect }) hstack]
  · rw [exec_bootSlotVerify h hleft himg, if_pos hst]
  · rw [exec_bootSlotVerify h hleft himg, if_neg hst]
  · have hexec := exec_configSlotCheck (t := t) h hhalt hleft himg
    intro st u
    refine ⟨fun hst => ?_, fun hst hl => ?_, fun hst hl => ?_⟩
    · exact hexec.trans (congrArg _ (if_pos hst))
    · exact hexec.trans (congrArg _ ((if_neg hst).trans (if_neg hl)))
    · exact hexec.trans (congrArg _ ((if_neg hst).trans (if_pos hl)))
  · rw [exec_netbootTimeout hload h hpart, if_pos ht]
  · rw [exec_netbootTimeout hload h hpart, if_neg (not_le.mpr ht)]
  · rw [exec_netbootOfferRetry, offerStart_begins (u := s.at t) hstack h hhalt hst hchain q.isLt hreq hnone hslot]
    rfl

end Sys2Proof.Machine
end


section
/-! Images: their chunks, their verification, and their confirmation. -/
namespace Sys2Proof.Machine

variable {t : Time} {m : Master} {n : Fin 8} {img : Option Image} {s : State}

/-! ### IMAGE_LOAD (R60, R61) -/

/-- The image that IMAGE_LOAD gathers, with the chunk of mailbox `k`. -/
def loadChunk (u : State) (k : Nat) : Assembly :=
  addChunk u k 2 (mbxNum u k 0 4) (mbxNum u k 4 4) (lenOf u k - 8) u.sys.load

/-- The port that a netboot keeps to. -/
def loadPort (u : State) (k : Nat) : Option Nat := if inNetboot u then some (retOf u k).lane else none

/-- A chunk of IMAGE_LOAD has joined the image `a`; `full` says that it was the last one. -/
def loadJoined (u : State) (k : Nat) (a : Assembly) (img : Option Image) (full : Bool) : State :=
  let v := { u with
    sys.load := some (if full then { a with complete := true, img } else a), sys.netPort := loadPort u k }
  if full then jnlHold v k else cmdAnswer v k .ok []

theorem exec_imageLoad (h : (s.at t).Serves (mbxNo m n) oImageLoad) :
    let a := loadChunk (s.at t) (mbxNo m n)
    exec (.imageLoad t m n img) s = .next (loadJoined (s.at t) (mbxNo m n) a img (covered a.got a.total)) :=
  congrArg Host.Outcome.next (serve_of_serves _ h)

theorem exec_imageLoadVerifyDone {a : Assembly} {i : Image} (hload : s.sys.load = some a) (hfull : a.complete = true)
    (hrom : romServes s = true) (himg : a.img = some i) : exec (.imageLoadVerifyDone t) s = .next
      (if verify (s.at t) false i a.total (2 ^ 28) = .ok then
        startFirmware (cmdAnswer (s.at t) (a.m * 8 + a.n) .ok []) 2 (if inNetboot s then 1 else 2) false i
      else cmdAnswer ({ s.at t with sys.load := none, sys.netPort := none }.fset SYS_BOOT_STATUS 0
        (verify (s.at t) false i a.total (2 ^ 28)).code) (a.m * 8 + a.n) (verify (s.at t) false i a.total (2 ^ 28)) []) := by
  have hserve : (!a.complete || !romServes (s.at t)) = false := by
    rw [hfull, show romServes (s.at t) = true from hrom]
    rfl
  refine congrArg Host.Outcome.next ?_
  rw [State.at_sys, hload]
  dsimp only
  rw [if_neg (by rw [hserve]; decide), himg]
  dsimp only
  generalize verify (s.at t) false i a.total (2 ^ 28) = st
  cases st <;> rfl

/-! ### IMAGE_WRITE (R56, R78) -/

theorem dirRewrite_sys (u : State) (g : DirCopy → DirCopy) : (dirRewrite u g).sys = u.sys := by
  unfold dirRewrite
  dsimp only
  split <;> rfl

/-- The first chunk of a write empties the slot. -/
def writeBegun (u : State) (slot : Nat) : State := if u.sys.write = none then slotEmpty u slot else u

theorem writeBegun_sys (u : State) (slot : Nat) : (writeBegun u slot).sys = u.sys := by
  unfold writeBegun
  split
  · exact dirRewrite_sys _ _
  · rfl

/-- The image that IMAGE_WRITE gathers in the state `b`, which gathers `old`, with the chunk of mailbox `k`. -/
def writeChunk (b : State) (k slot : Nat) (old : Option Assembly) : Assembly :=
  addChunk b k slot (mbxNum b k 4 4) (mbxNum b k 8 4) (lenOf b k - 12) old

/-- A complete image stands in its slot, not yet verified. -/
def writeFilled (b : State) (slot : Nat) (img : Option Image) : State :=
  { b with sys.write := none, flash.images := b.flash.images.set slot img }

/-- The status of a complete image in its slot. -/
def filledStatus (u : State) (slot total : Nat) (i : Image) : Status :=
  verify u (decide (2 ≤ slot)) i total (slotExtent u.flash (dirNow u.flash).2 slot)

/-- A chunk of IMAGE_WRITE has joined the image `a`; `full` says that it was the last one. -/
def writeJoined (b : State) (k slot : Nat) (a : Assembly) (img : Option Image) (full : Bool) : State :=
  if !full then cmdAnswer { b with sys.write := some a } k .ok []
  else
    let u := writeFilled b slot img
    let st := match img with | some i => filledStatus u slot a.total i | none => .sigFail
    cmdAnswer (if st == .ok then slotCommit u slot a.total else u) k st []

theorem exec_imageWrite (h : (s.at t).Serves (mbxNo m n) oImageWrite) :
    let slot := mbxByte (s.at t) (mbxNo m n) 0
    let b := writeBegun (s.at t) slot
    let a := writeChunk b (mbxNo m n) slot s.sys.write
    exec (.imageWrite t m n img) s = .next (writeJoined b (mbxNo m n) slot a img (covered a.got a.total)) := by
  intro slot b a
  refine congrArg Host.Outcome.next ((serve_of_serves _ h).trans ?_)
  have hb : (if (s.at t).sys.write.isNone = true then slotEmpty (s.at t) slot else s.at t) = b := by
    unfold b writeBegun
    cases (s.at t).sys.write <;> rfl
  have hold : b.sys.write = s.sys.write := congrArg (·.write) (writeBegun_sys _ _)
  dsimp only
  rw [hb, hold]
  cases img <;> rfl

theorem writeJoined_full (b : State) (k slot : Nat) (a : Assembly) (i : Image) :
    let u := writeFilled b slot (some i)
    let st := filledStatus u slot a.total i
    (st = .ok → writeJoined b k slot a (some i) true = cmdAnswer (slotCommit u slot a.total) k .ok []) ∧
    (st ≠ .ok → writeJoined b k slot a (some i) true = cmdAnswer u k st []) := by
  intro u st
  have hst : writeJoined b k slot a (some i) true =
      cmdAnswer (if (st == .ok) = true then slotCommit u slot a.total else u) k st [] := rfl
  rw [hst]
  clear_value st
  exact ⟨fun h => by rw [h]; rfl, fun h => by rw [if_neg (mt beq_iff_eq.mp h)]⟩

theorem exec_imageWrite_full {i : Image} (h : (s.at t).Serves (mbxNo m n) oImageWrite) :
    let slot := mbxByte (s.at t) (mbxNo m n) 0
    let b := writeBegun (s.at t) slot
    let a := writeChunk b (mbxNo m n) slot s.sys.write
    let u := writeFilled b slot (some i)
    let st := filledStatus u slot a.total i
    covered a.got a.total = true →
    (st = .ok → exec (.imageWrite t m n (some i)) s = .next (cmdAnswer (slotCommit u slot a.total) (mbxNo m n) .ok [])) ∧
    (st ≠ .ok → exec (.imageWrite t m n (some i)) s = .next (cmdAnswer u (mbxNo m n) st [])) := by
  intro slot b a u st hfull
  obtain ⟨hgood, hbad⟩ := writeJoined_full b (mbxNo m n) slot a i
  have hexec : exec (.imageWrite t m n (some i)) s = .next (writeJoined b (mbxNo m n) slot a (some i) true) :=
    (exec_imageWrite h).trans (congrArg (fun c => Host.Outcome.next (writeJoined b (mbxNo m n) slot a (some i) c)) hfull)
  exact ⟨fun hst => hexec.trans (congrArg _ (hgood hst)), fun hst => hexec.trans (congrArg _ (hbad hst))⟩

/-! ### IMAGE_CONFIRM and the steps of the OTP (R58, R389, R390) -/

/-- The OTP steps that the running image asks for. -/
def confirmSteps (u : State) : List OtpStep :=
  match u.sys.fw with
  | some i => raiseSteps u.sec.otpQ .fwSvn u.sec.otp.fwSvn i.svn
      ++ (if imgRevokeV0 i && i.keySel == 0x11 && !bit u.sec.otp.vrev 0 then [.vrev 1] else [])
  | none => []

theorem confirmSteps_noImage {u : State} (h : u.sys.fw = none) : confirmSteps u = [] := by
  rw [confirmSteps, h]

theorem confirmSteps_keepsKeys {u : State} {i : Image} (h : u.sys.fw = some i) (hkeep : imgRevokeV0 i = false) :
    confirmSteps u = raiseSteps u.sec.otpQ .fwSvn u.sec.otp.fwSvn i.svn := by
  rw [confirmSteps, h]
  dsimp only
  rw [hkeep]
  exact List.append_nil _

/-- A counter below its goal has a step that waits, an earlier one or a new one. -/
theorem raiseSteps_waits {q : List OtpStep} {step : OtpStep} {now want : Nat} (hlow : now < want) (hmax : want ≤ 63) :
    (q ++ raiseSteps q step now want).isEmpty = false := by
  cases q with
  | cons x l => rfl
  | nil =>
    obtain ⟨d, hd⟩ : ∃ d, min want 63 - (now + ([] : List OtpStep).count step) = d + 1 :=
      ⟨want - now - 1, by rw [List.count_nil]; omega⟩
    rw [raiseSteps, hd]
    rfl

theorem otpPush_nil (u : State) : otpPush u [] = otpShow u := by
  rw [otpPush, List.append_nil]

theorem dirRewrite_sec (u : State) (g : DirCopy → DirCopy) : (dirRewrite u g).sec = u.sec := by
  unfold dirRewrite
  dsimp only
  split <;> rfl

/-- The directory without the trial mark of the running slot, and SYS_BOOT beside it. -/
def trialEnded (u : State) (slot : Nat) : State :=
  (dirRewrite u (fun d => setSlot d slot { slotOfDir d slot with trial := false })).fset SYS_BOOT_TRIAL 0 0

theorem confirmBytes_trialEnded (u : State) (slot : Nat) : confirmBytes (trialEnded u slot) = confirmBytes u := by
  have hsec : (trialEnded u slot).sec = u.sec := dirRewrite_sec _ _
  rw [confirmBytes, hsec, confirmBytes]

theorem exec_imageConfirm (h : (s.at t).Serves (mbxNo m n) oImageConfirm) :
    let u := otpPush (s.at t) (confirmSteps (s.at t))
    exec (.imageConfirm t m n) s = .next (if u.sec.otpQ.isEmpty = true then confirmDone u (mbxNo m n)
      else jnlHold { u with mbx.otpWait := some (mbxNo m n) } (mbxNo m n)) := by
  intro u
  refine congrArg Host.Outcome.next ((serve_of_serves _ h).trans ?_)
  unfold u confirmSteps
  cases (s.at t).sys.fw <;> rfl

theorem exec_imageConfirm_noImage (h : (s.at t).Serves (mbxNo m n) oImageConfirm) (hfw : s.sys.fw = none)
    (hq : s.sec.otpQ = []) : exec (.imageConfirm t m n) s = .next (cmdAnswer
      (trialEnded (otpShow (s.at t)) (s.fget SYS_BOOT_FWSLOT)) (mbxNo m n) .ok (confirmBytes s)) := by
  have hnone : (otpShow (s.at t)).sec.otpQ.isEmpty = true := by
    rw [show (otpShow (s.at t)).sec.otpQ = [] from hq]
    rfl
  have hslot : (otpShow (s.at t)).fget SYS_BOOT_FWSLOT = s.fget SYS_BOOT_FWSLOT :=
    sameRegs_fget (otpShow_frame _) _ _ (by decide) (by decide)
  have hbytes : confirmBytes (trialEnded (otpShow (s.at t)) (s.fget SYS_BOOT_FWSLOT)) = confirmBytes s :=
    confirmBytes_trialEnded _ _
  rw [exec_imageConfirm h, confirmSteps_noImage (u := s.at t) hfw, otpPush_nil]
  dsimp only
  rw [if_pos hnone, ← hbytes, ← hslot]
  rfl

theorem exec_imageConfirm_raises {i : Image} (h : (s.at t).Serves (mbxNo m n) oImageConfirm) (hfw : s.sys.fw = some i)
    (hkeep : imgRevokeV0 i = false) (hlow : s.sec.otp.fwSvn < i.svn) (hmax : i.svn ≤ 63) :
    exec (.imageConfirm t m n) s = .next (jnlHold
      { otpPush (s.at t) (raiseSteps s.sec.otpQ .fwSvn s.sec.otp.fwSvn i.svn) with mbx.otpWait := some (mbxNo m n) }
      (mbxNo m n)) := by
  have hsteps : confirmSteps (s.at t) = raiseSteps s.sec.otpQ .fwSvn s.sec.otp.fwSvn i.svn :=
    confirmSteps_keepsKeys (u := s.at t) hfw hkeep
  have hwaits : (otpPush (s.at t) (raiseSteps s.sec.otpQ .fwSvn s.sec.otp.fwSvn i.svn)).sec.otpQ.isEmpty = false :=
    raiseSteps_waits hlow hmax
  rw [exec_imageConfirm h, hsteps]
  dsimp only
  rw [if_neg (by rw [hwaits]; decide)]

/-- The state after the step `x`, before what waits for it. -/
def stepDone (u : State) (x : OtpStep) (l : List OtpStep) : State :=
  otpLock { u with sec.otp := otpDo u.sec.otp x, sec.otpQ := l }

/-- The last step lets the IMAGE_CONFIRM that waits go on. -/
def confirmAfter (u : State) : State :=
  match u.sec.otpQ, u.mbx.otpWait with
  | [], some k => confirmDone { u with mbx.otpWait := none } k
  | _, _ => u

theorem confirmAfter_waits {u : State} (h : u.mbx.otpWait = none ∨ u.sec.otpQ ≠ []) : confirmAfter u = u := by
  unfold confirmAfter
  split
  case h_1 k hlast hwait =>
    rcases h with h | h
    · exact absurd (h.symm.trans hwait) (by simp)
    · exact absurd hlast h
  case h_2 => rfl

theorem confirmAfter_last {u : State} {k : Nat} (hlast : u.sec.otpQ = []) (hwait : u.mbx.otpWait = some k) :
    confirmAfter u = confirmDone { u with mbx.otpWait := none } k := by
  rw [confirmAfter, hlast, hwait]

theorem exec_otpStepDone {x : OtpStep} {l : List OtpStep} (h : s.sec.otpQ = x :: l) :
    exec (.otpStepDone t) s = .next (confirmAfter (stepDone (s.at t) x l)) := by
  refine congrArg Host.Outcome.next ?_
  rw [show (s.at t).sec.otpQ = x :: l from h]
  unfold confirmAfter stepDone
  rfl

theorem exec_otpStepDone_idle (h : s.sec.otpQ = []) : exec (.otpStepDone t) s = .next (s.at t) := by
  refine congrArg Host.Outcome.next ?_
  rw [show (s.at t).sec.otpQ = [] from h]

/-- Settles O27: the image commands act through `loadJoined`, `writeJoined`, `confirmDone` and `stepDone`. -/
theorem imageCommandsAreTaken : Obligations.ImageCommandsAreTaken := by
  refine ⟨fun t m n img s h => ⟨fun hpart => ?_, fun hfull => ?_⟩, fun t s a i hload hfull hrom himg hst => ?_,
    fun t s a i hload hfull hrom himg hst => ?_, fun t m n img s h => ⟨fun hpart => ?_, fun i hfull himg => ?_⟩,
    fun t s a hwrite ht => ?_, fun t m n s => exec_imageConfirm_noImage, fun t m n s i => exec_imageConfirm_raises,
    fun t s x l h => ⟨fun hmore => ?_, fun k hlast hwait => ?_⟩, fun t s => exec_otpStepDone_idle⟩
  · rw [exec_imageLoad h]
    exact congrArg (fun b => Host.Outcome.next (loadJoined _ _ _ _ b)) hpart
  · rw [exec_imageLoad h]
    exact congrArg (fun b => Host.Outcome.next (loadJoined _ _ _ _ b)) hfull
  · rw [exec_imageLoadVerifyDone hload hfull hrom himg, if_pos hst]
  · rw [exec_imageLoadVerifyDone hload hfull hrom himg, if_neg hst]
  · rw [exec_imageWrite h]
    exact congrArg (fun b => Host.Outcome.next (writeJoined _ _ _ _ _ b)) hpart
  · subst himg
    exact exec_imageWrite_full h hfull
  · refine congrArg Host.Outcome.next ?_
    rw [State.at_sys, hwrite]
    exact if_pos ht
  · rw [exec_otpStepDone h]
    exact congrArg Host.Outcome.next (confirmAfter_waits hmore)
  · rw [exec_otpStepDone h]
    exact congrArg Host.Outcome.next (confirmAfter_last hlast hwait)

end Sys2Proof.Machine
end


section
/-! A cell's time: TIME frames, delay requests, holdover, the feed-forward, and the reading of network time. -/
namespace Sys2Proof.Machine

variable {t : Time} {s : State}

/-! ### The feed-forward and the delay requests (R49, R302) -/

theorem exec_tempFeedforward (h : recent s.tim.ffAt (10 * msT) (max s.clk t) = false) :
    exec (.tempFeedforward t) s = .next (putRate { s.at t with
      sys.ffwd := tempCorr (s.at t) (cfgOf s).ff (s.fget KILN_COMPSEL_OSCSNS), tim.ffAt := some (max s.clk t) }) :=
  congrArg Host.Outcome.next (if_neg (Bool.eq_false_iff.mp h))

theorem exec_tempFeedforward_early (h : recent s.tim.ffAt (10 * msT) (max s.clk t) = true) :
    exec (.tempFeedforward t) s = .next (s.at t) := congrArg Host.Outcome.next (if_pos h)

theorem exec_delayRequestTimer (hcell : isStack s = false) (hdue : recent s.tim.dreqAt msT (max s.clk t) = false) :
    exec (.delayRequestTimer t) s = .next (sendAll { s.at t with tim.dreqAt := some (max s.clk t) }
      ([0, 1, 2].filter (laneActive (s.at t))) 6 (fun l => idleFrame (s.at t) l 0x8000)) :=
  congrArg Host.Outcome.next (if_neg (Bool.eq_false_iff.mp (Bool.or_eq_false_iff.mpr ⟨hcell, hdue⟩)))

theorem exec_delayRequestTimer_idle (h : isStack s = true ∨ recent s.tim.dreqAt msT (max s.clk t) = true) :
    exec (.delayRequestTimer t) s = .next (s.at t) := congrArg Host.Outcome.next (if_pos (Bool.or_eq_true_iff.mpr h))

/-- A request on the port waits for its answer longer than 10 µs. -/
def EchoDue (s : State) (t : Time) (port : Fin 3) : Prop := ∃ t1, (lnOf s port).t1 = some t1 ∧ isUpPort s port = true ∧
  t1 + 10 * usT ≤ stampAt (s.at t) port (max s.clk t)

theorem exec_echolost {port : Fin 3} (h : EchoDue s t port) : exec (.echolost t port) s =
    .next ((lnMod (s.at t) port (fun x => { x with t1 := none })).satAdd TIM_CNT2_ECHOLOST 0) := by
  obtain ⟨t1, hreq, hup, hlate⟩ := h
  refine congrArg Host.Outcome.next ?_
  rw [show (lnOf (s.at t) port).t1 = some t1 from hreq]
  exact if_pos (Bool.and_eq_true_iff.mpr ⟨hup, decide_eq_true hlate⟩)

theorem exec_echolost_idle {port : Fin 3} (h : ¬ EchoDue s t port) : exec (.echolost t port) s = .next (s.at t) := by
  refine congrArg Host.Outcome.next ?_
  cases hreq : (lnOf (s.at t) port).t1 with
  | none => rfl
  | some t1 =>
    refine if_neg fun hdue => h ?_
    obtain ⟨hup, hlate⟩ := Bool.and_eq_true_iff.mp hdue
    exact ⟨t1, hreq, hup, of_decide_eq_true hlate⟩

/-! ### Holdover (R307, R308) -/

/-- No TIME frame has served a cell for ten cycles. -/
def HoldEntryDue (s : State) (t : Time) : Prop := isStack s = false ∧ s.tim.used = true ∧ s.fget TIM_STAT_HOLD ≠ 1 ∧
  s.tim.lastUse + 10 * cycT s ≤ max s.clk t

theorem holdEntryDue_iff : (isStack s || !s.tim.used || s.flag TIM_STAT_HOLD ||
    decide ((s.at t).clk < s.tim.lastUse + 10 * cycT s)) = false ↔ HoldEntryDue s t := by
  rw [Bool.or_eq_false_iff, Bool.or_eq_false_iff, Bool.or_eq_false_iff, Bool.not_eq_false', State.flag,
    beq_eq_false_iff_ne, decide_eq_false_iff_not, not_lt, and_assoc, and_assoc]
  rfl

/-- The time that a cell may hold over has passed. -/
def HoldExpiryDue (s : State) (t : Time) : Prop := isStack s = false ∧ s.tim.used = true ∧ s.fget TIM_STAT_HOLD = 1 ∧
  s.tim.holdAt + s.fget TIM_HOLD_CELLHOLD * msT ≤ max s.clk t

theorem holdExpiryDue_iff : (isStack s || !s.tim.used || !s.flag TIM_STAT_HOLD ||
    decide ((s.at t).clk < s.tim.holdAt + s.fget TIM_HOLD_CELLHOLD * msT)) = false ↔ HoldExpiryDue s t := by
  rw [Bool.or_eq_false_iff, Bool.or_eq_false_iff, Bool.or_eq_false_iff, Bool.not_eq_false', Bool.not_eq_false', State.flag,
    beq_iff_eq, decide_eq_false_iff_not, not_lt, and_assoc, and_assoc]
  rfl

theorem exec_cellHoldoverEntry (h : HoldEntryDue s t) :
    exec (.cellHoldoverEntry t) s = .next (if ((enterHold (s.at t)).fget TIM_HOLD_CELLHOLD == 0) = true then
      timeLoss (enterHold (s.at t)) else enterHold (s.at t)) :=
  congrArg Host.Outcome.next (if_neg (Bool.eq_false_iff.mp (holdEntryDue_iff.mpr h)))

theorem exec_cellHoldoverEntry_idle (h : ¬ HoldEntryDue s t) :
    exec (.cellHoldoverEntry t) s = .next (s.at t) :=
  congrArg Host.Outcome.next (if_pos (eq_true_of_ne_false (mt holdEntryDue_iff.mp h)))

theorem exec_cellholdExpiry (h : HoldExpiryDue s t) :
    exec (.cellholdExpiry t) s = .next (timeLoss (s.at t)) :=
  congrArg Host.Outcome.next (if_neg (Bool.eq_false_iff.mp (holdExpiryDue_iff.mpr h)))

theorem exec_cellholdExpiry_idle (h : ¬ HoldExpiryDue s t) :
    exec (.cellholdExpiry t) s = .next (s.at t) :=
  congrArg Host.Outcome.next (if_pos (eq_true_of_ne_false (mt holdExpiryDue_iff.mp h)))

/-! ### TIME frames (R303 to R307, R330) -/

section
variable {l : Lane} {rx : Time} {fr : Frame} {h : Hdr} {u k c p : State} {origin cyc ts sid : Nat} {corr e : Int}

theorem learnHolder_eq {epoch : Nat} {hold : Bool} : learnHolder u sid epoch hold =
    if hold = true ∧ u.fget VOTE_CEPOCH_EPOCH < epoch ∧ isStack u = false then
      { u with cell.holder := sid }.fset VOTE_CEPOCH_EPOCH 0 epoch else u := by
  refine ite_congr (propext ?_) (fun _ => rfl) (fun _ => rfl)
  rw [Bool.and_eq_true, Bool.and_eq_true, Bool.not_eq_true', decide_eq_true_eq]
  tauto

/-- The stack `sid` is the reference, or may become it. -/
def isRef (k : State) (sid : Nat) : Bool :=
  if k.cell.holder == 3 then k.tim.ref == none || k.tim.ref == some sid
  else k.cell.holder == sid || k.tim.ref == some sid

theorem isRef_iff : isRef k sid = true ↔
    if k.cell.holder = 3 then k.tim.ref = none ∨ k.tim.ref = some sid else k.cell.holder = sid ∨ k.tim.ref = some sid := by
  by_cases hold : k.cell.holder = 3 <;> simp [isRef, hold]

/-- The frame is from the holder, as the cell knows it, and names no older epoch. -/
def goodTime (k : State) (h : Hdr) : Bool :=
  bit h.xflags 0 && isRef k h.sid && decide (k.fget VOTE_CEPOCH_EPOCH ≤ h.epoch)

theorem goodTime_iff : goodTime k h = true ↔ bit h.xflags 0 = true ∧
    (if k.cell.holder = 3 then k.tim.ref = none ∨ k.tim.ref = some h.sid
      else k.cell.holder = h.sid ∨ k.tim.ref = some h.sid) ∧ k.fget VOTE_CEPOCH_EPOCH ≤ h.epoch := by
  rw [goodTime, Bool.and_eq_true, Bool.and_eq_true, isRef_iff, decide_eq_true_eq, and_assoc]

/-- The frame is from a stack that is not the reference. -/
def otherTime (k : State) (h : Hdr) : Bool :=
  if k.cell.holder == 3 then k.tim.ref != some h.sid && !(bit h.xflags 0 && k.tim.ref == none)
  else k.cell.holder != h.sid

theorem otherTime_iff : otherTime k h = true ↔
    if k.cell.holder = 3 then k.tim.ref ≠ some h.sid ∧ ¬ (bit h.xflags 0 = true ∧ k.tim.ref = none)
    else k.cell.holder ≠ h.sid := by
  by_cases hold : k.cell.holder = 3
  · rw [otherTime, if_pos (beq_iff_eq.mpr hold), if_pos hold, Bool.and_eq_true, bne_iff_ne, Bool.not_eq_true',
      ← Bool.not_eq_true, Bool.and_eq_true, beq_iff_eq]
  · simp [otherTime, hold]

/-- A new cycle comes with the frame, in a state of the device that lets it change. -/
def newCycle (k : State) (h : Hdr) (cyc : Nat) : Bool :=
  goodTime k h && cyc != k.fget TIM_CYC_T && cycOk cyc && !([ST_PRECHARGED, ST_CRUN, ST_COAST].contains (devState k))

theorem newCycle_iff : newCycle k h cyc = true ↔ goodTime k h = true ∧ cyc ≠ k.fget TIM_CYC_T ∧ cycOk cyc = true ∧
    [ST_PRECHARGED, ST_CRUN, ST_COAST].contains (devState k) = false := by
  rw [newCycle, Bool.and_eq_true, Bool.and_eq_true, Bool.and_eq_true, bne_iff_ne, Bool.not_eq_true', and_assoc, and_assoc]

/-- The cycle in force after the frame. -/
def cycTaken (k : State) (h : Hdr) (cyc : Nat) : State :=
  if newCycle k h cyc then syncCycle (k.fset TIM_CYC_T 0 cyc) else k

theorem otherTime_cycTaken : otherTime (cycTaken k h cyc) h = otherTime k h := by
  unfold cycTaken
  split <;> rfl

/-- The offset of the cell's time from the frame's. -/
def timeOffset (c : State) (l : Lane) (rx : Time) (origin : Nat) (corr : Int) : Int :=
  (stampAt c l rx : Nat) - ((origin : Int) + corr + ingress c l)

/-- The offset of a stack that is not the reference stands in TIM_PEEROFS. -/
def peerNoted (c : State) (h : Hdr) (e : Int) : State :=
  if otherTime c h then
    c.fset TIM_PEEROFS_OFS h.sid (ofSigned 32 (clampI (roundShift 14 e) (-(2 ^ 31 - 1 : Int)) (2 ^ 31 - 1)))
  else c

/-- The servo takes the offset of a frame, and the lock follows. -/
def timeUsed (p : State) (sid : Nat) (e : Int) : State :=
  let v := judgeLock (servo ({ p with tim := { p.tim with used := true, lastUse := p.clk, ref := some sid } }.fsets
    [(TIM_STAT_REFSID, 0, sid), (TIM_STAT_HOLD, 0, 0)]) e) e 256 16
  tryReady (if v.flag TIM_STAT_LOCK then srcRelease v SRC_TIMELOSS else v)

/-- The frame serves the servo: from the holder, without the mark of a stack in holdover, on a lane whose delay is known, and with
the cycle in force. -/
def timeServes (k c p : State) (l : Lane) (h : Hdr) (cyc : Nat) : Bool :=
  goodTime k h && (!bit h.xflags 1 && c.flag TIM_PDLY_VALID l) && cyc == p.fget TIM_CYC_T

theorem timeServes_iff : timeServes k c p l h cyc = true ↔ goodTime k h = true ∧ bit h.xflags 1 = false ∧
    c.fget TIM_PDLY_VALID l = 1 ∧ cyc = p.fget TIM_CYC_T := by
  rw [timeServes, Bool.and_eq_true, Bool.and_eq_true, Bool.and_eq_true, Bool.not_eq_true', beq_iff_eq, and_assoc, and_assoc]
  exact and_congr_right' (and_congr_right' (and_congr_left' beq_iff_eq))

theorem exec_timeFrame_discarded (hrx : rxCheck (s.at t) l fr = (false, u)) : exec (.timeFrame t l rx fr) s = .next u := by
  show execTimeFrame t l rx fr s = _
  unfold execTimeFrame
  rw [hrx]
  cases fr.body <;> rfl

theorem exec_timeFrame (hrx : rxCheck (s.at t) l fr = (true, u)) (hbody : fr.body = .time origin corr cyc ts)
    (hup : isUpPort u l = true) :
    let k := learnHolder u fr.hdr.sid fr.hdr.epoch (bit fr.hdr.xflags 0)
    let c := cycTaken k fr.hdr cyc
    let e := timeOffset c l rx origin corr
    let p := peerNoted c fr.hdr e
    exec (.timeFrame t l rx fr) s = .next (if timeServes k c p l fr.hdr cyc = true then timeUsed p fr.hdr.sid e
      else p.satAdd TIM_CNT1_IGNORED 0) := by
  intro k c e p
  have hexec : exec (.timeFrame t l rx fr) s = .next (if (!timeServes k c p l fr.hdr cyc) = true then
      p.satAdd TIM_CNT1_IGNORED 0 else timeUsed p fr.hdr.sid e) := by
    show execTimeFrame t l rx fr s = _
    unfold execTimeFrame
    rw [hrx, hbody]
    exact congrArg Host.Outcome.next (if_neg (c := (!true || !isUpPort u l) = true) (by rw [hup]; decide))
  rw [hexec]
  cases timeServes k c p l fr.hdr cyc <;> rfl

end

/-! ### The reading of network time (R314) -/

theorem exec_timNowRead {m : Master} (h : s.MayRead m 0x40020) : exec (.timNowRead m) s = .next { s with
    tim.now := smSet 0 s.tim.now m (netTime s), rdata := smSet 0 s.rdata m (nsOf (netTime s)) } :=
  congrArg Host.Outcome.next (readAccess_ok (rd := fun s => nowRead s m) h rfl)

/-- Settles O33: a TIME frame adopts its cycle, notes the peer's offset, and serves the servo, in this order. -/
theorem cellTimeAndHoldover : Obligations.CellTimeAndHoldover := by
  refine ⟨fun t s => exec_tempFeedforward, fun t s => exec_tempFeedforward_early,
    fun t l rx fr s u origin corr cyc ts hrx hbody hup => ?_, fun t l rx fr s u => exec_timeFrame_discarded,
    fun t s => ⟨exec_delayRequestTimer_idle, exec_delayRequestTimer⟩, fun t port s => ⟨exec_echolost, exec_echolost_idle⟩,
    fun t s => ⟨fun hdue hne => ?_, fun hdue hzero => ?_, exec_cellHoldoverEntry_idle⟩,
    fun t s => ⟨exec_cellholdExpiry, exec_cellholdExpiry_idle⟩, fun m s => exec_timNowRead⟩
  · have hexec := exec_timeFrame (rx := rx) hrx hbody hup
    rw [learnHolder_eq] at hexec
    intro sid hold k ref other good stays
    refine ⟨cycTaken k fr.hdr cyc, ⟨fun hnew => if_pos ?_, fun hnew => if_neg (mt ?_ hnew)⟩, ?_⟩
    · exact newCycle_iff.mpr (and_congr_left' goodTime_iff |>.mpr hnew)
    · exact fun h => and_congr_left' goodTime_iff |>.mp (newCycle_iff.mp h)
    intro e
    refine ⟨peerNoted (cycTaken k fr.hdr cyc) fr.hdr e, fun hother => if_pos ?_, fun hother => if_neg ?_, ?_⟩
    · rw [otherTime_cycTaken]
      exact otherTime_iff.mpr hother
    · rw [otherTime_cycTaken]
      exact mt otherTime_iff.mp hother
    intro use v
    have hserves : timeServes k (cycTaken k fr.hdr cyc) (peerNoted (cycTaken k fr.hdr cyc) fr.hdr e) l fr.hdr cyc = true ↔ use :=
      timeServes_iff.trans (and_congr_left' goodTime_iff)
    exact ⟨fun h => hexec.trans (congrArg _ (if_neg (mt hserves.mp h))),
      fun h => hexec.trans (congrArg _ (if_pos (hserves.mpr h)))⟩
  · rw [exec_cellHoldoverEntry hdue, if_neg (mt beq_iff_eq.mp hne)]
  · rw [exec_cellHoldoverEntry hdue, if_pos (beq_iff_eq.mpr hzero)]
    rfl

end Sys2Proof.Machine
end

section
/-! The queue of commands, accesses outside the address map, and the change journal. -/
namespace Sys2Proof.Machine

/-! ### The queue (assumption 2) -/

/-- Settles O1: the two cases of `step`. -/
theorem stepRunsTheFrontCommand : Obligations.StepRunsTheFrontCommand :=
  ⟨fun s c rest h => by rw [step, h], fun _ => step_idle⟩

/-- Settles O59: a command keeps the waiting ones (`State.Keeps`), and a step hands it the queue's rest. -/
theorem everyStepTakesOneCommand : Obligations.EveryStepTakesOneCommand := by
  intro s t hstep
  cases hp : s.pending with
  | nil =>
    rw [step_idle hp] at hstep
    cases hstep
    exact hp
  | cons c rest => exact (step_keepsIn hp t hstep).pending

theorem execPwmCounterStart_answers (t : Time) (p : Pair) (s : State) : ∃ u, execPwmCounterStart t p s = .next u := by
  unfold execPwmCounterStart
  dsimp only
  split <;> exact ⟨_, rfl⟩

/-- Settles O2: each command's meaning ends in a next state; only a pair's start first looks whether it may. -/
theorem everyCommandAnswers : Obligations.EveryCommandAnswers := by
  intro i s
  cases i
  case pwmCounterStart t p => exact execPwmCounterStart_answers t p s
  all_goals exact ⟨_, rfl⟩

/-! ### Outside the address map (R66) -/

/-- The registers that an access outside the address map may change. -/
def unmappedRegs : List (Fld × Nat) :=
  [(SYS_ERRCNT_UNMAP, 0), (ACC_ERR_VALID, 0), (ACC_ERR_MULTI, 0), (ACC_ERR_MASTER, 0), (ACC_ERR_STATUS, 0),
    (ACC_ERRADDR_ADDR, 0)]

theorem unmapped_frame (s : State) (m a : Nat) : s.SameRegsBut (unmapped s m a) unmappedRegs :=
  sameRegs_fset _ _ _ (sameRegs_mono (accErr_frame s m a .range) (by simp [unmappedRegs])) (by simp [unmappedRegs])

theorem unmapped_mem (s : State) (m a : Nat) : (unmapped s m a).mem = s.mem := accErr_mem s m a .range

theorem fget_unmapped_count (s : State) (m a : Nat) : (unmapped s m a).fget SYS_ERRCNT_UNMAP =
    min (s.fget SYS_ERRCNT_UNMAP + 1) (2 ^ SYS_ERRCNT_UNMAP.width - 1) := by
  have hcount : (accErr s m a .range).fget SYS_ERRCNT_UNMAP = s.fget SYS_ERRCNT_UNMAP :=
    sameRegs_fget (accErr_frame s m a .range) _ _ (by decide) (by decide)
  rw [unmapped, State.satAdd, fget_fset_same, hcount]
  exact Nat.mod_eq_of_lt (lt_of_le_of_lt (min_le_right _ _) (by decide))

/-- The error registers are those of the refusal: the count is another register. -/
theorem fget_unmapped (s : State) (m a : Nat) {G : Fld}
    (hG : G.addr * 32 + G.lo ≠ SYS_ERRCNT_UNMAP.addr * 32 + SYS_ERRCNT_UNMAP.lo) :
    (unmapped s m a).fget G = (accErr s m a .range).fget G :=
  fget_fset_far _ _ (by decide) (by decide) hG

theorem fget_accErr_valid (s : State) (m a : Nat) (st : Status) : (accErr s m a st).fget ACC_ERR_VALID = 1 := by
  by_cases h : s.fget ACC_ERR_VALID = 1
  · exact (accErr_again h).1
  · have e : accErr s m a st = (((s.fset ACC_ERR_VALID 0 1).fset ACC_ERR_MASTER 0 m).fset ACC_ERR_STATUS 0 st.code).fset
        ACC_ERRADDR_ADDR 0 a := recErr_first h
    rw [e]
    simp (disch := decide) only [fget_fset_far, fget_fset_same]
    rfl

theorem busRead_unmapped {s : State} {m a width : Nat} (h : blkOf a = none) :
    busRead s m a width = (.range, 0, unmapped s m a) := by simp [busRead, h]

theorem regWrite_unmapped {s : State} {m a w width : Nat} {c e : Bool} {eff : State → Status × State} (h : blkOf a = none) :
    regWrite s m a w width c e eff = (.range, unmapped s m a) := by simp [regWrite, h]

/-- What the refusal of an access outside the address map leaves. -/
def unmappedRefusal (s : State) (m : Master) (a : Nat) (u : State) : Prop :=
  u.fget SYS_ERRCNT_UNMAP = min (s.fget SYS_ERRCNT_UNMAP + 1) (2 ^ SYS_ERRCNT_UNMAP.width - 1) ∧
  u.fget ACC_ERR_VALID = 1 ∧
  (s.fget ACC_ERR_VALID = 0 → u.fget ACC_ERR_MASTER = m.val ∧ u.fget ACC_ERR_STATUS = Status.range.code ∧
    u.fget ACC_ERRADDR_ADDR = a) ∧
  (s.fget ACC_ERR_VALID = 1 → u.fget ACC_ERR_MULTI = 1 ∧ u.fget ACC_ERRADDR_ADDR = s.fget ACC_ERRADDR_ADDR) ∧
  s.SameMem u ∧ s.SameRegsBut u unmappedRegs

theorem unmapped_refuses (s : State) (m : Master) {a : Nat} (ha : a < 2 ^ 32) : unmappedRefusal s m a (unmapped s m a) := by
  refine ⟨fget_unmapped_count s m a, ?_, fun h => ?_, fun h => ?_, sameMem_of_mem (unmapped_mem s m a),
    unmapped_frame s m a⟩
  all_goals simp (disch := decide) only [fget_unmapped]
  · exact fget_accErr_valid s m a .range
  · obtain ⟨-, hmaster, hstatus, haddr, -⟩ := accErr_first (st := .range) (show m.val < 16 by omega) ha h
    exact ⟨hmaster, hstatus, haddr⟩
  · obtain ⟨-, hmulti, -, -, haddr⟩ := accErr_again (m := m) (a := a) (st := .range) h
    exact ⟨hmulti, haddr⟩

/-- Settles O16: a read and a write outside the map both end in `unmapped`. -/
theorem unmappedAccessesAreRefused : Obligations.UnmappedAccessesAreRefused := by
  intro m a width w s ha hblk refused
  have hrefused : refused (unmapped s m a) := unmapped_refuses s m ha
  have h14 : a ≠ 0x14 := fun h => by rw [h] at hblk; exact absurd hblk (by decide)
  rw [busRead_unmapped hblk]
  refine ⟨⟨rfl, rfl, hrefused⟩, _, exec_registerWrite ha h14, ?_⟩
  rw [regWrite_unmapped hblk]
  exact hrefused

/-! ### The change journal (Table 3.22, R93 to R95) -/

/-- The eight words of an entry that is made now. -/
def jnlEntry (s : State) (m kind st addr old new : Nat) : List Nat :=
  [m * 2 ^ 28 + kind * 2 ^ 24 + st % 256 * 2 ^ 16 + s.mbx.jnlNum % 65536, addr, old, new,
    secOf (netTime s) % 2 ^ 32, fracOf (netTime s) * 65536 + secOf (netTime s) / 2 ^ 32 % 65536, nsOf (netTime s), cycleNow s]

/-- How many entries of this PD0 clock stand before HEAD, among which a new one takes its place. -/
def jnlRunNow (s : State) (kind : Nat) : Nat :=
  if kind ≤ 1 && s.mbx.jnlClk == pd0Clk s.clk + 1 then s.mbx.jnlRun else 0

/-- The journal with the entry in its place. -/
def jnlPlaced (s : State) (m kind st addr old new : Nat) : SMap (List Nat) :=
  jnlSort (smSet [] s.mbx.jnl (s.fget ACC_JNLHEAD_HEAD) (jnlEntry s m kind st addr old new)) (jnlRunNow s kind)
    (s.fget ACC_JNLHEAD_HEAD)

/-- The entry stands in the journal. -/
def jnlPut (s : State) (m kind st addr old new : Nat) : State :=
  { s with
    mbx.jnl := jnlPlaced s m kind st addr old new, mbx.jnlNum := s.mbx.jnlNum + 1, mbx.jnlClk := pd0Clk s.clk + 1,
    mbx.jnlRun := if kind ≤ 1 then jnlRunNow s kind + 1 else 0 }

/-- Its memory word is stored, and it is not counted yet. -/
def jnlWritten (s : State) (m kind st addr old new : Nat) : State :=
  eccStored (jnlPut s m kind st addr old new) 1 (s.fget ACC_JNLHEAD_HEAD)

/-- HEAD moves on from `h`, and UNREAD or LOST counts the entry. -/
def jnlCounted (h : Nat) (u : State) : State :=
  let v := u.fset ACC_JNLHEAD_HEAD 0 (h + 1)
  if jnlUnread v == 4096 then v.satAdd ACC_JNLCNT_LOST 0 else v.fset ACC_JNLCNT_UNREAD 0 (jnlUnread v + 1)

theorem jnlAdd_eq (s : State) (m kind st addr old new : Nat) : jnlAdd s m kind st addr old new =
    jnlCounted (s.fget ACC_JNLHEAD_HEAD) (jnlWritten s m kind st addr old new) := rfl

theorem jnlRunNow_of_alone {s : State} {kind : Nat} (h : s.mbx.jnlClk ≠ pd0Clk s.clk + 1 ∨ 1 < kind ∨ s.mbx.jnlRun = 0) :
    jnlRunNow s kind = 0 := by
  unfold jnlRunNow
  split
  case isTrue hrun =>
    simp only [Bool.and_eq_true, decide_eq_true_eq, beq_iff_eq] at hrun
    rcases h with h | h | h
    · exact absurd hrun.2 h
    · omega
    · exact h
  case isFalse => rfl

theorem jnlRunNow_of_sameClock {s : State} {kind : Nat} (hclk : s.mbx.jnlClk = pd0Clk s.clk + 1) (hkind : kind ≤ 1) :
    jnlRunNow s kind = s.mbx.jnlRun := if_pos (by simp [hclk, hkind])

theorem jnlEntry_ne_nil (s : State) (m kind st addr old new : Nat) : jnlEntry s m kind st addr old new ≠ [] :=
  List.cons_ne_nil _ _

theorem jnlEntry_master (s : State) {m kind : Nat} (st addr old new : Nat) (h : kind ≤ 1) :
    (jnlEntry s m kind st addr old new).getD 0 0 / 2 ^ 28 = m := by
  have : (jnlEntry s m kind st addr old new).getD 0 0 =
      m * 2 ^ 28 + kind * 2 ^ 24 + st % 256 * 2 ^ 16 + s.mbx.jnlNum % 65536 := rfl
  rw [this]
  omega

/-- An entry keeps its master in the place of another's. -/
theorem jnlRenum_master {e : List Nat} (he : e ≠ []) (o : List Nat) :
    (jnlRenum e o).getD 0 0 / 2 ^ 28 = e.getD 0 0 / 2 ^ 28 := by
  obtain ⟨x, l, rfl⟩ := List.exists_cons_of_ne_nil he
  simp [jnlRenum]
  omega

theorem jnlRenum_tail (e o : List Nat) : (jnlRenum e o).tail = e.tail := by
  cases e <;> rfl

theorem jnlSort_one (j : SMap (List Nat)) (h : Nat) :
    jnlSort j 1 h = if (smGet [] j h).getD 0 0 / 2 ^ 28 < (smGet [] j ((h + 4095) % 4096)).getD 0 0 / 2 ^ 28 then
      smSet [] (smSet [] j ((h + 4095) % 4096) (jnlRenum (smGet [] j h) (smGet [] j ((h + 4095) % 4096)))) h
        (jnlRenum (smGet [] j ((h + 4095) % 4096)) (smGet [] j h))
    else j := rfl

section
variable {s : State} {m kind st addr old new : Nat}

theorem jnlPlaced_alone (hrun : jnlRunNow s kind = 0) : jnlPlaced s m kind st addr old new =
    smSet [] s.mbx.jnl (s.fget ACC_JNLHEAD_HEAD) (jnlEntry s m kind st addr old new) := by
  rw [jnlPlaced, hrun]
  rfl

/-- The place before HEAD is another one. -/
theorem jnlPrev_ne (h : Nat) : (h + 4095) % 4096 ≠ h := by omega

/-- The entry of a lower master goes before the one that the clock has already. -/
theorem jnlPlaced_before (hrun : jnlRunNow s kind = 1) (hkind : kind ≤ 1)
    (hm : m < (smGet [] s.mbx.jnl ((s.fget ACC_JNLHEAD_HEAD + 4095) % 4096)).getD 0 0 / 2 ^ 28) :
    smGet [] (jnlPlaced s m kind st addr old new) ((s.fget ACC_JNLHEAD_HEAD + 4095) % 4096) =
        jnlRenum (jnlEntry s m kind st addr old new) (smGet [] s.mbx.jnl ((s.fget ACC_JNLHEAD_HEAD + 4095) % 4096)) ∧
      smGet [] (jnlPlaced s m kind st addr old new) (s.fget ACC_JNLHEAD_HEAD) =
        jnlRenum (smGet [] s.mbx.jnl ((s.fget ACC_JNLHEAD_HEAD + 4095) % 4096)) (jnlEntry s m kind st addr old new) := by
  have hp := jnlPrev_ne (s.fget ACC_JNLHEAD_HEAD)
  rw [jnlPlaced, hrun, jnlSort_one, smGet_set_same, smGet_set_other _ _ _ _ hp,
    if_pos (by rwa [jnlEntry_master _ _ _ _ _ hkind])]
  exact ⟨by rw [smGet_set_other _ _ _ _ hp, smGet_set_same], smGet_set_same _ _ _ _⟩

/-- The entry of the same or a higher master stays behind it. -/
theorem jnlPlaced_after (hrun : jnlRunNow s kind = 1) (hkind : kind ≤ 1)
    (hm : (smGet [] s.mbx.jnl ((s.fget ACC_JNLHEAD_HEAD + 4095) % 4096)).getD 0 0 / 2 ^ 28 ≤ m) :
    jnlPlaced s m kind st addr old new =
      smSet [] s.mbx.jnl (s.fget ACC_JNLHEAD_HEAD) (jnlEntry s m kind st addr old new) := by
  have hp := jnlPrev_ne (s.fget ACC_JNLHEAD_HEAD)
  rw [jnlPlaced, hrun, jnlSort_one, smGet_set_same, smGet_set_other _ _ _ _ hp,
    if_neg (by rw [jnlEntry_master _ _ _ _ _ hkind]; exact not_lt.mpr hm)]

end

theorem eccStored_mbx (s : State) (mem word : Nat) : (eccStored s mem word).mbx = s.mbx := by
  unfold eccStored
  dsimp only
  split <;> rfl

theorem jnlCounted_mbx (h : Nat) (u : State) : (jnlCounted h u).mbx = u.mbx := by
  unfold jnlCounted
  dsimp only
  split <;> rfl

theorem jnlAdd_jnl (s : State) (m kind st addr old new : Nat) :
    (jnlAdd s m kind st addr old new).mbx.jnl = jnlPlaced s m kind st addr old new := by
  rw [jnlAdd_eq, jnlCounted_mbx, jnlWritten, eccStored_mbx, jnlPut]

/-- With no injection armed, the entry's word changes no register. -/
theorem jnlWritten_regs {s : State} (harm : s.fget SEC_EINJ_ARM = 0) (m kind st addr old new : Nat) :
    (jnlWritten s m kind st addr old new).regs = s.regs := by
  have hunarmed : (jnlPut s m kind st addr old new).flag SEC_EINJ_ARM = false :=
    beq_eq_false_iff_ne.mpr (ne_of_eq_of_ne (b := 0) harm (by decide))
  rw [jnlWritten, eccStored_of_unarmed hunarmed]
  rfl

/-- The registers that a journal entry changes. -/
def entryRegs : List (Fld × Nat) := [(ACC_JNLHEAD_HEAD, 0), (ACC_JNLCNT_LOST, 0), (ACC_JNLCNT_UNREAD, 0)]

theorem jnlCounted_frame (h : Nat) (u : State) : u.SameRegsBut (jnlCounted h u) entryRegs := by
  unfold jnlCounted
  dsimp only
  split <;> exact sameRegs_fset _ _ _ (sameRegs_fset _ _ _ (sameRegs_refl _ _) (by simp [entryRegs])) (by simp [entryRegs])

theorem jnlUnread_fset_head (u : State) (v : Nat) : jnlUnread (u.fset ACC_JNLHEAD_HEAD 0 v) = u.fget ACC_JNLCNT_UNREAD :=
  fget_fset_far _ _ (by decide) (by decide) (by decide)

/-- UNREAD counts an entry while fewer than 4,096 are unread. -/
theorem jnlCounted_room (h : Nat) {u : State} (hroom : u.fget ACC_JNLCNT_UNREAD ≠ 4096) : jnlCounted h u =
    (u.fset ACC_JNLHEAD_HEAD 0 (h + 1)).fset ACC_JNLCNT_UNREAD 0 (u.fget ACC_JNLCNT_UNREAD + 1) := by
  unfold jnlCounted
  dsimp only
  rw [jnlUnread_fset_head, if_neg (mt beq_iff_eq.mp hroom)]

/-- LOST counts it with 4,096 unread. -/
theorem jnlCounted_lost (h : Nat) {u : State} (hfull : u.fget ACC_JNLCNT_UNREAD = 4096) : jnlCounted h u =
    (u.fset ACC_JNLHEAD_HEAD 0 (h + 1)).satAdd ACC_JNLCNT_LOST 0 := by
  unfold jnlCounted
  dsimp only
  rw [jnlUnread_fset_head, if_pos (beq_iff_eq.mpr hfull)]

theorem fget_jnlCounted_head (h : Nat) (u : State) : (jnlCounted h u).fget ACC_JNLHEAD_HEAD = (h + 1) % 4096 := by
  by_cases hu : u.fget ACC_JNLCNT_UNREAD = 4096
  · rw [jnlCounted_lost h hu, State.satAdd, fget_fset_far _ _ (by decide) (by decide) (by decide), fget_fset_same]
    rfl
  · rw [jnlCounted_room h hu, fget_fset_far _ _ (by decide) (by decide) (by decide), fget_fset_same]
    rfl

theorem fget_jnlCounted_room (h : Nat) {u : State} (hroom : u.fget ACC_JNLCNT_UNREAD ≠ 4096) :
    (jnlCounted h u).fget ACC_JNLCNT_UNREAD = (u.fget ACC_JNLCNT_UNREAD + 1) % 8192 ∧
      (jnlCounted h u).fget ACC_JNLCNT_LOST = u.fget ACC_JNLCNT_LOST := by
  rw [jnlCounted_room h hroom]
  simp (disch := decide) only [fget_fset_far, fget_fset_same]
  exact ⟨rfl, trivial⟩

theorem fget_jnlCounted_lost (h : Nat) {u : State} (hfull : u.fget ACC_JNLCNT_UNREAD = 4096) :
    (jnlCounted h u).fget ACC_JNLCNT_UNREAD = 4096 ∧
      (jnlCounted h u).fget ACC_JNLCNT_LOST = min (u.fget ACC_JNLCNT_LOST + 1) 65535 := by
  rw [jnlCounted_lost h hfull, State.satAdd]
  simp (disch := decide) only [fget_fset_far, fget_fset_same]
  exact ⟨hfull, Nat.mod_eq_of_lt (lt_of_le_of_lt (min_le_right _ _) (by decide))⟩

theorem accEff_jnlfree_eq (m w : Nat) (b : State) : accEff m 0x2002c w b =
    if (jnlFree b (w % 2 ^ 13)).1 == .ok then (.ok, (jnlFree b (w % 2 ^ 13)).2)
    else ((jnlFree b (w % 2 ^ 13)).1, accErr b m 0x2002c (jnlFree b (w % 2 ^ 13)).1) := rfl

/-- ACC_JNLFREE of no more than is unread. -/
theorem accEff_jnlfree {m w : Nat} {b : State} (h : w % 2 ^ 13 ≤ jnlUnread b) : accEff m 0x2002c w b =
    (.ok, b.fset ACC_JNLCNT_UNREAD 0 (jnlUnread b - w % 2 ^ 13)) := by
  rw [accEff_jnlfree_eq, jnlFree, if_neg (not_lt.mpr h)]
  rfl

/-- ACC_JNLFREE of more. -/
theorem accEff_jnlfree_range {m w : Nat} {b : State} (h : jnlUnread b < w % 2 ^ 13) : accEff m 0x2002c w b =
    (.range, accErr b m 0x2002c .range) := by
  rw [accEff_jnlfree_eq, jnlFree, if_pos h]
  rfl

theorem jnlUnread_countRsvd (s : State) (m a w : Nat) : jnlUnread (countRsvd s m a w) = jnlUnread s :=
  countRsvd_fget s m a w 0 (by decide)

/-- Settles O20: an entry is put at HEAD, sorted among those of its clock, and counted; ACC_JNLFREE is `jnlFree`. -/
theorem journalEntriesAreMadeAndFreed : Obligations.JournalEntriesAreMadeAndFreed := by
  refine ⟨fun s m kind st addr old new harm => ?_, fun m w s hmay hn => ?_, fun m w s hmay hn => ?_⟩
  · intro u h p a
    have hregs := jnlWritten_regs harm m kind st addr old new
    have hu (F : Fld) : (jnlWritten s m kind st addr old new).fget F = s.fget F := fget_congr hregs F 0
    have hframe := sameRegs_trans (sameRegs_of_regs _ hregs) (jnlCounted_frame h (jnlWritten s m kind st addr old new))
    rw [show u.mbx.jnl = jnlPlaced s m kind st addr old new from jnlAdd_jnl ..]
    refine ⟨fun halone => ?_, fun hclk hkind hone => ⟨fun hlow => ?_, fun hhigh => ?_⟩, fget_jnlCounted_head _ _,
      fun hroom => ?_, fun hfull => ?_, sameMem_of_mem (jnlAdd_mem ..), hframe⟩
    · rw [jnlPlaced_alone (jnlRunNow_of_alone halone), smGet_set_same]
      exact ⟨rfl, rfl, fun i hi => smGet_set_other _ _ _ _ hi⟩
    · obtain ⟨hprev, hhead⟩ := jnlPlaced_before (st := st) (addr := addr) (old := old) (new := new)
        ((jnlRunNow_of_sameClock hclk hkind).trans hone) hkind hlow
      rw [hprev, hhead, jnlRenum_tail, jnlRenum_master (jnlEntry_ne_nil _ _ _ _ _ _ _), jnlEntry_master _ _ _ _ _ hkind,
        jnlRenum_tail]
      exact ⟨rfl, rfl, rfl⟩
    · rw [jnlPlaced_after ((jnlRunNow_of_sameClock hclk hkind).trans hone) hkind hhigh, smGet_set_same]
      exact ⟨rfl, smGet_set_other _ _ _ _ (jnlPrev_ne h)⟩
    · have hcount := fget_jnlCounted_room h (u := jnlWritten s m kind st addr old new) (by rwa [hu])
      rwa [hu, hu] at hcount
    · have hcount := fget_jnlCounted_lost h (u := jnlWritten s m kind st addr old new) (by rwa [hu])
      rwa [hu] at hcount
  · intro b
    have heff := accEff_jnlfree (m := m) (b := b) (by rwa [jnlUnread_countRsvd])
    rw [jnlUnread_countRsvd] at heff
    exact congrArg Host.Outcome.next (rowWrite_ok hmay heff)
  · have heff := accEff_jnlfree_range (m := m) (b := countRsvd s m 0x2002c w.toNat) (by rwa [jnlUnread_countRsvd])
    obtain ⟨hregs, hmem⟩ := rowWrite_frame (accEff m 0x2002c w.toNat) hmay
    rw [heff] at hregs hmem
    dsimp only at hregs hmem
    have hfget (G : Fld) (hG : G ∈ [ACC_ERR_VALID, ACC_ERR_STATUS, ACC_ERR_MASTER, ACC_ERRADDR_ADDR]) :=
      sameRegs_fget hregs G 0 (by decide) (by revert G; decide)
    refine ⟨_, rfl, ?_⟩
    beta_reduce
    rw [hfget ACC_ERR_VALID (by decide), hfget ACC_ERR_STATUS (by decide), hfget ACC_ERR_MASTER (by decide),
      hfget ACC_ERRADDR_ADDR (by decide)]
    refine ⟨fget_accErr_valid _ _ _ _, fun h => ?_, sameMem_of_mem ?_, ?_⟩
    · obtain ⟨-, hmaster, hstatus, haddr, -⟩ := accErr_first (s := countRsvd s m 0x2002c w.toNat)
        (a := 0x2002c) (st := .range) (show m.val < 16 by omega) (by decide) (by rwa [countRsvd_fget _ _ _ _ _ (by decide)])
      exact ⟨hstatus, hmaster, haddr⟩
    · exact hmem.trans ((accErr_mem ..).trans (countRsvd_mem ..))
    · exact sameRegs_trans (sameRegs_mono (countRsvd_frame _ _ _ _) (by simp))
        (sameRegs_trans (sameRegs_mono (accErr_frame _ _ _ _) (by simp)) (sameRegs_mono hregs (by simp [jnlRegs])))

end Sys2Proof.Machine
end


section
/-! Mailboxes: a post, a take, and an answer. -/
namespace Sys2Proof.Machine

/-! ### Posting and taking (R72, R74, R76) -/

section
variable {m : Master} {n : Fin 8} {w : Word} {s : State}

theorem mbxEff_go (hm : mbxMaster m = true) (b : State) : mbxEff m (0x10108 + 16 * n) w.toNat b =
    (.ok, if bit w.toNat 0 then mbxPost b (m.val * 8 + n.val) else b) := by
  fin_cases n <;> simp [mbxEff, hm]

theorem mbxEff_go_other (hm : mbxMaster m = false) (b : State) : mbxEff m (0x10108 + 16 * n) w.toNat b = (.ok, b) := by
  fin_cases n <;> simp [mbxEff, hm]

theorem exec_mbxGo {r : State} (h : s.MayWrite m (0x10108 + 16 * n) w.toNat false)
    (hr : mbxEff m (0x10108 + 16 * n) w.toNat (countRsvd s m (0x10108 + 16 * n) w.toNat) = (.ok, r)) :
    exec (.mbxGo m n w) s = .next (s.noted m (0x10108 + 16 * n) w.toNat r) :=
  congrArg Host.Outcome.next (rowWrite_ok h hr)

end

/-- A mailbox joins the queue in one place: behind all that come before it, before the first that does not. -/
theorem queueIn_splits (at_ : SMap Nat) (c i : Nat) (l : List Nat) : ∃ front back, l = front ++ back ∧
    queueIn at_ c i l = front ++ i :: back ∧ (∀ x ∈ front, smGet 0 at_ x ≠ c ∨ x ≤ i) ∧
    (∀ x, back.head? = some x → smGet 0 at_ x = c ∧ i < x) := by
  induction l with
  | nil => exact ⟨[], [], rfl, rfl, by simp, by simp⟩
  | cons x xs ih =>
    by_cases hx : smGet 0 at_ x = c ∧ i < x
    · exact ⟨[], x :: xs, rfl, if_pos (by simpa using hx), by simp, by simpa using hx⟩
    · obtain ⟨front, back, hsplit, hqueue, hfront, hback⟩ := ih
      refine ⟨x :: front, back, congrArg (x :: ·) hsplit, ?_, fun y hy => ?_, hback⟩
      · rw [queueIn, if_neg (by simpa using hx), hqueue, List.cons_append]
      · rcases List.mem_cons.mp hy with rfl | hy
        · by_cases hc : smGet 0 at_ y = c
          · exact .inr (not_lt.mp fun hlt => hx ⟨hc, hlt⟩)
          · exact .inl hc
        · exact hfront y hy

section
variable {t : Time} {s : State} {k : Nat}

/-- Mailbox `k` has left the queue. -/
def unqueued (s : State) (k : Nat) : State := { s with mbx.queue := s.mbx.queue.filter (· != k) }

/-- Mailbox `k` is RUNNING, with the outcome of its lease check. -/
def mbxRunning (k : Nat) (lease : Bool) (x : State) : State :=
  { x with mbx.ret := smInsert k { retOf x k with lease } (smErase x.mbx.ret k) }.fset MBX_STAT_STATE k 2

theorem exec_mbxTake (h : s.mbx.queue.find? (servedNow (s.at t)) = some k) :
    let r := leaseTaken (unqueued (s.at t) k) k
    let q := mbxRunning k r.1 (unqueued (s.at t) k)
    exec (.mbxTake t) s = .next (if cmdStatus q k = .ok then mbxRunning k r.1 r.2 else cmdAnswer q k (cmdStatus q k) []) := by
  refine congrArg Host.Outcome.next ?_
  rw [State.at_mbx, h]
  simp only [← beq_iff_eq (a := cmdStatus _ k)]
  rfl

theorem exec_mbxTake_idle (h : s.mbx.queue.find? (servedNow (s.at t)) = none) : exec (.mbxTake t) s = .next (s.at t) := by
  refine congrArg Host.Outcome.next ?_
  rw [State.at_mbx, h]

theorem leaseTaken_free {q : State} (h : isStack q = true ∨ needsLease q k = false) : leaseTaken q k = (true, q) :=
  if_neg (by rcases h with h | h <;> simp [h])

theorem leaseTaken_checked {q : State} (hcell : isStack q = false) (hneeds : needsLease q k = true) :
    leaseTaken q k = leaseOk q (retOf q k).lane (retOf q k).epoch := if_pos (by simp [hcell, hneeds])

end

/-- Settles O24: GO is `mbxPost`, which splits the queue in one place; a take is judged as RUNNING. -/
theorem mailboxesPostAndTake : Obligations.MailboxesPostAndTake := by
  refine ⟨fun m n w s hmay hm => exec_mbxGo hmay (mbxEff_go hm _), fun b k => ?_,
    fun m n w s hmay hm => exec_mbxGo hmay (mbxEff_go_other hm _), fun t s k hk => ⟨fun hok => ?_, fun hbad => ?_⟩,
    fun q k => ⟨leaseTaken_free, leaseTaken_checked⟩, fun t s => exec_mbxTake_idle⟩
  · obtain ⟨front, back, hsplit, hqueue, hfront, hback⟩ := queueIn_splits b.mbx.postAt (pd0Clk b.clk + 1) k b.mbx.queue
    have hstate : (mbxPost b k).fget MBX_STAT_STATE k = 1 := fget_fset_same b MBX_STAT_STATE k 1
    have hframe : b.SameRegsBut (b.fset MBX_STAT_STATE k 1) [(MBX_STAT_STATE, k)] :=
      sameRegs_fset _ _ _ (sameRegs_refl _ _) (by simp)
    exact ⟨front, back, hsplit, hqueue, hfront, hback, hstate, sameMem_of_mem rfl, hframe⟩
  · exact (exec_mbxTake hk).trans (congrArg _ (if_pos hok))
  · exact (exec_mbxTake hk).trans (congrArg _ (if_neg hbad))

/-! ### Memory words without errors (R378) -/

section
variable {s : State}

theorem eccRead_clean (h : s.sec.ecc = []) (mem word : Nat) : eccRead s mem word = s := if_pos (by rw [h]; rfl)

theorem eccStored_clean (h : s.sec.ecc = []) (harm : s.fget SEC_EINJ_ARM = 0) (mem word : Nat) :
    eccStored s mem word = s := by
  have hunarmed : s.flag SEC_EINJ_ARM = false := beq_eq_false_iff_ne.mpr (ne_of_eq_of_ne harm (by decide))
  have hsame : smSet [] s.sec.ecc (eccKey mem word) [] = s.sec.ecc := by rw [h]; rfl
  rw [eccStored_of_unarmed hunarmed, hsame]

theorem eccSupReset_clean (h : s.sec.ecc = []) (words : List Nat) : eccSupReset s words = none := if_pos (by rw [h]; rfl)

theorem eccSupPut_clean {eff : State → State} (h : s.sec.ecc = []) (heff : (eff s).sec.ecc = [])
    (harm : (eff s).fget SEC_EINJ_ARM = 0) (words : List Nat) : eccSupPut s words eff = eff s := by
  have hword (w : Nat) :
      eccStored (if (eccSyms (eff s) 0 w).isEmpty then eff s else eccCorr (eff s) 0) 0 w = eff s := by
    have hnone : (eccSyms (eff s) 0 w).isEmpty = true := by rw [eccSyms, heff]; rfl
    rw [if_pos hnone, eccStored_clean heff harm]
  rw [eccSupPut, eccSupReset_clean h]
  induction words with
  | nil => rfl
  | cons w words ih => exact (congrArg (words.foldl _) (hword w)).trans ih

end

/-! ### An answer (R72, R93) -/

/-- The registers that the journal entry of a command and a new debug challenge may change. -/
def noteRegs : List (Fld × Nat) :=
  [(ACC_ERR_VALID, 0), (ACC_ERR_MULTI, 0), (ACC_ERR_MASTER, 0), (ACC_ERR_STATUS, 0), (ACC_ERRADDR_ADDR, 0)] ++ entryRegs
    ++ (List.range 8).map (fun i => (SEC_DBGCHAL_CHAL, i))

/-- `u` differs from `s` in the journal, its registers, ACC_ERR and the debug challenge alone. -/
structure State.NotedTo (s u : State) : Prop where
  regs : s.SameRegsBut u noteRegs
  ecc : u.sec.ecc = s.sec.ecc
  buf : u.mbx.buf = s.mbx.buf
  mem : u.mem = s.mem

theorem State.NotedTo.trans {s u v : State} (h : s.NotedTo u) (k : u.NotedTo v) : s.NotedTo v :=
  ⟨sameRegs_trans h.regs k.regs, k.ecc.trans h.ecc, k.buf.trans h.buf, k.mem.trans h.mem⟩

theorem State.NotedTo.fget {s u : State} (h : s.NotedTo u) (G : Fld) {j : Nat} (hj : j < 2048)
    (hG : noteRegs.all (fun e => decide (e.2 < 2048) && (G.addr * 32 + G.lo != e.1.addr * 32 + e.1.lo)) = true) :
    u.fget G j = s.fget G j := sameRegs_fget h.regs G j hj hG

theorem accErr_regs (s : State) (m a : Nat) (st : Status) :
    accErr s m a st = { s with regs := (accErr s m a st).regs } := by
  unfold accErr recErr
  split <;> rfl

theorem notedTo_accErr (s : State) (m a : Nat) (st : Status) : s.NotedTo (accErr s m a st) := by
  refine ⟨sameRegs_mono (accErr_frame s m a st) (by simp [noteRegs]), ?_, ?_, accErr_mem s m a st⟩
  all_goals rw [accErr_regs]

theorem jnlCounted_regs (h : Nat) (u : State) : jnlCounted h u = { u with regs := (jnlCounted h u).regs } := by
  unfold jnlCounted
  dsimp only
  split <;> rfl

theorem notedTo_jnlAdd {s : State} (hecc : s.sec.ecc = []) (harm : s.fget SEC_EINJ_ARM = 0) (m kind st addr old new : Nat) :
    s.NotedTo (jnlAdd s m kind st addr old new) := by
  have hclean : jnlWritten s m kind st addr old new = jnlPut s m kind st addr old new :=
    eccStored_clean (s := jnlPut s m kind st addr old new) hecc harm _ _
  have hframe := sameRegs_trans (sameRegs_of_regs _ (jnlWritten_regs harm m kind st addr old new))
    (jnlCounted_frame (s.fget ACC_JNLHEAD_HEAD) (jnlWritten s m kind st addr old new))
  refine ⟨sameRegs_mono hframe (by simp +contextual [noteRegs]), ?_, ?_, jnlAdd_mem ..⟩
  all_goals
    rw [jnlAdd_eq, jnlCounted_regs, hclean]
    rfl

theorem notedTo_newChallenge (s : State) : s.NotedTo (newChallenge s) := by
  obtain ⟨r, f, heq, hframe⟩ := newChallenge_cases s
  refine ⟨sameRegs_mono hframe (fun e he => List.mem_append_right _ he), ?_, ?_, ?_⟩
  all_goals rw [heq]

/-- A command's journal entry is made, and after DEBUG_UNLOCK a new challenge is drawn. -/
def cmdNoted (s : State) (k : Nat) (st : Status) : State :=
  if opOf s k == oDebugUnlock then newChallenge (cmdJournal s k st) else cmdJournal s k st

/-- The room that the journal keeps for the command's entry is given back. -/
def unheld (s : State) (k : Nat) : State := { s with mbx.jnlHeld := s.mbx.jnlHeld.filter (· != k) }

theorem notedTo_cmdJournal {s : State} (hecc : s.sec.ecc = []) (harm : s.fget SEC_EINJ_ARM = 0) (k : Nat) (st : Status) :
    s.NotedTo (cmdJournal s k st) := by
  have hfreed : s.NotedTo (unheld s k) := ⟨sameRegs_of_regs _ rfl, rfl, rfl, rfl⟩
  have hclean : (unheld s k).sec.ecc = [] := hecc
  have hunarmed : (unheld s k).fget SEC_EINJ_ARM = 0 := harm
  unfold cmdJournal
  dsimp only
  rw [← unheld]
  split
  · exact hfreed
  · split
    · exact hfreed.trans (notedTo_accErr _ _ _ _)
    · exact hfreed.trans (notedTo_jnlAdd hclean hunarmed _ _ _ _ _ _)

theorem notedTo_cmdNoted {s : State} (hecc : s.sec.ecc = []) (harm : s.fget SEC_EINJ_ARM = 0) (k : Nat) (st : Status) :
    s.NotedTo (cmdNoted s k st) := by
  have hjournal := notedTo_cmdJournal hecc harm k st
  unfold cmdNoted
  split
  · exact hjournal.trans (notedTo_newChallenge _)
  · exact hjournal

/-- The header of an answer, STATE DONE, and the master's IRQ bit. -/
def answerShown (u : State) (k op : Nat) (st : Status) (len : Nat) : State :=
  u.fsets [(MBX_HDR0_OPCODE, k, 0x8000 + op % 0x8000), (MBX_HDR0_LENGTH, k, len), (MBX_HDR1_STATUS, k, st.code),
    (MBX_STAT_STATE, k, 3), (MBX_IRQ_DONE, k / 8, putBit (u.fget MBX_IRQ_DONE (k / 8)) (k % 8) true)]

theorem mbxPut_fget (s : State) (i o : Nat) (l : List Nat) (F : Fld) (j : Nat) :
    (mbxPut s i o l).fget F j = s.fget F j := by
  rw [mbxPut_frame]
  rfl

/-- An answer to M1 or M3 leaves the device as the mailbox shows it: nothing is sent. -/
theorem cmdAnswer_shown {s : State} {k : Nat} (hk : k / 8 = 1 ∨ k / 8 = 3) (hecc : s.sec.ecc = [])
    (harm : s.fget SEC_EINJ_ARM = 0) (st : Status) (bytes : List Nat) : cmdAnswer s k st bytes =
      answerShown (mbxPut (cmdNoted s k st) k 0 bytes) k (opOf s k) st bytes.length := by
  have h2 : (k / 8 == 2) = false := by rcases hk with h | h <;> rw [h] <;> rfl
  have h4 : ¬ 4 ≤ k / 8 := by omega
  have hnoted := notedTo_cmdNoted hecc harm k st
  have hclean : (cmdNoted s k st).sec.ecc = [] := hnoted.ecc.trans hecc
  have hput : (mbxPut (cmdNoted s k st) k 0 bytes).sec = (cmdNoted s k st).sec := by rw [mbxPut_frame]
  have hunarmed : (mbxPut (cmdNoted s k st) k 0 bytes).fget SEC_EINJ_ARM = 0 := by
    rw [mbxPut_fget, hnoted.fget _ (by decide) (by decide), harm]
  unfold cmdAnswer
  dsimp only
  rw [h2, Bool.false_and, if_neg Bool.false_ne_true, ← cmdNoted, eccSupReset_clean hclean,
    eccSupPut_clean (eff := fun s => mbxPut s k 0 bytes) hclean (by rw [hput, hclean]) hunarmed]
  dsimp only
  rw [if_neg Bool.false_ne_true, if_neg h4, answerShown, mbxPut_fget]

section
variable {u : State} {k op : Nat} {st : Status} {len : Nat}

theorem fget_answerShown (hk : k < 2048) (hlen : len < 2 ^ 16) :
    (answerShown u k op st len).fget MBX_STAT_STATE k = 3 ∧ (answerShown u k op st len).fget MBX_HDR1_STATUS k = st.code ∧
      (answerShown u k op st len).fget MBX_HDR0_OPCODE k = 0x8000 + op % 0x8000 ∧
      (answerShown u k op st len).fget MBX_HDR0_LENGTH k = len ∧
      (answerShown u k op st len).fget MBX_IRQ_DONE (k / 8) = putBit (u.fget MBX_IRQ_DONE (k / 8)) (k % 8) true % 2 ^ 8 := by
  have hm : k / 8 < 2048 := by omega
  have hother (v : State) {F G : Fld} (x : Nat) (h : G.addr * 32 + G.lo ≠ F.addr * 32 + F.lo) :
      (v.fset F k x).fget G k = v.fget G k ∧ (v.fset F (k / 8) x).fget G k = v.fget G k ∧
        (v.fset F k x).fget G (k / 8) = v.fget G (k / 8) :=
    ⟨fget_fset_far v x hk hk h, fget_fset_far v x hm hk h, fget_fset_far v x hk hm h⟩
  simp (disch := decide) only [answerShown, fsets_cons, fsets_nil, hother, fget_fset_same]
  exact ⟨rfl, Nat.mod_eq_of_lt st.code_lt, Nat.mod_eq_of_lt (show _ < 2 ^ 16 by omega), Nat.mod_eq_of_lt hlen, rfl⟩

theorem mbxByte_answerShown (i o : Nat) : mbxByte (answerShown u k op st len) i o = mbxByte u i o := rfl

theorem answerShown_mem : (answerShown u k op st len).mem = u.mem := fsets_mem _ _

end

/-- Bytes put into a mailbox leave those of another alone. -/
theorem mbxByte_put_far (s : State) {i k o p : Nat} {l : List Nat} (hl : o + l.length ≤ 4096) (hp : p < 4096) (h : k ≠ i) :
    mbxByte (mbxPut s i o l) k p = mbxByte s k p := by
  induction l generalizing s o with
  | nil => rfl
  | cons b bs ih =>
    rw [List.length_cons] at hl
    rw [mbxPut, ih _ (by omega)]
    exact smGet_set_other _ _ _ _ (by omega)

/-- Settles O25: the answer's bytes, then its header, over a state that only its journal entry has touched. -/
theorem anAnswerStandsInTheMailbox : Obligations.AnAnswerStandsInTheMailbox := by
  intro s m n st bytes hm hn hlen hecc harm t
  obtain ⟨k, hk⟩ : ∃ k, k = m * 8 + n := ⟨_, rfl⟩
  have hdiv : k / 8 = m := by omega
  have hmod : k % 8 = n := by omega
  have hnoted := notedTo_cmdNoted hecc harm k st
  have ht : t = answerShown (mbxPut (cmdNoted s k st) k 0 bytes) k (opOf s k) st bytes.length := by
    unfold t
    rw [← hk]
    exact cmdAnswer_shown (by omega) hecc harm st bytes
  have hbyte (i o : Nat) : mbxByte (cmdNoted s k st) i o = mbxByte s i o := by rw [mbxByte, hnoted.buf, mbxByte]
  obtain ⟨hstate, hstatus, hop, hlength, hirq⟩ := fget_answerShown (u := mbxPut (cmdNoted s k st) k 0 bytes)
    (op := opOf s k) (st := st) (show k < 2048 by omega) (show bytes.length < 2 ^ 16 by omega)
  rw [mbxPut_fget, hnoted.fget _ (by omega) (by decide), hdiv, hmod] at hirq
  rw [ht, ← hk]
  refine ⟨hstate, hstatus, hop, hlength, ?_, fun j hj hne => ?_, fun o ho => ?_, fun i o ho hout => ?_, sameMem_of_mem ?_⟩
  · rw [hirq, bit_mod_two_pow hn, bit_putBit, if_pos rfl]
  · rw [hirq, bit_mod_two_pow hj, bit_putBit, if_neg hne]
  · rw [mbxByte_answerShown, mbxByte_put, if_pos (by omega), Nat.sub_zero]
  · rw [mbxByte_answerShown, ← hbyte]
    by_cases hi : i = k
    · subst hi
      rw [mbxByte_put, if_neg (by omega)]
    · exact mbxByte_put_far _ (by omega) ho hi
  · rw [answerShown_mem, mbxPut_frame]
    exact hnoted.mem

end Sys2Proof.Machine
end


section
/-! The mailbox commands that one device answers at once. -/
namespace Sys2Proof.Machine

variable {t : Time} {m : Master} {n : Fin 8} {s : State}

/-- A command that acts at once is answered OK with the bytes that its act gives. -/
theorem serveNow_of_act {op : Nat} {act : State → Nat → List Nat × State} {b : List Nat} {u : State}
    (h : (s.at t).Serves (mbxNo m n) op) (hact : act (s.at t) (mbxNo m n) = (b, u)) :
    serveNow t m n op act s = .next (cmdAnswer u (mbxNo m n) .ok b) := by
  refine congrArg Host.Outcome.next ((serve_of_serves _ h).trans ?_)
  rw [hact]

/-- A fold that appends each entry's bytes and leaves the state as it is. -/
theorem foldl_append_bytes {α : Type} {g : List Nat × State → α → List Nat × State} {f : α → List Nat} {l : List α}
    {s : State} (h : ∀ b, ∀ x ∈ l, g (b, s) x = (b ++ f x, s)) (b : List Nat) :
    l.foldl g (b, s) = (b ++ l.flatMap f, s) := by
  induction l generalizing b with
  | nil => simp
  | cons x l ih =>
    rw [List.foldl_cons, h b x List.mem_cons_self, ih (fun b y hy => h b y (List.mem_cons_of_mem x hy)), List.flatMap_cons,
      List.append_assoc]

theorem foldl_bytes {α : Type} {g : List Nat × State → α → List Nat × State} {f : α → List Nat} {l : List α}
    {s : State} (h : ∀ b, ∀ x ∈ l, g (b, s) x = (b ++ f x, s)) : l.foldl g ([], s) = (l.flatMap f, s) := by
  rw [foldl_append_bytes h, List.nil_append]

/-! ### Reading the device (R78, R94, R95, R152, R368) -/

/-- The words of `c` journal entries from entry `i` on. -/
def jnlBytes (j : SMap (List Nat)) (i c : Nat) : List Nat :=
  (List.range c).flatMap (fun x => (List.range 8).flatMap (fun w => leBytes 4 ((smGet [] j ((i + x) % 4096)).getD w 0)))

theorem exec_journalRead (h : (s.at t).Serves (mbxNo m n) oJournalRead) (hecc : s.sec.ecc = []) :
    exec (.journalRead t m n) s = .next (cmdAnswer (s.at t) (mbxNo m n) .ok
      (jnlBytes s.mbx.jnl (mbxNum s (mbxNo m n) 0 2) (mbxNum s (mbxNo m n) 2 2))) := by
  refine (execJournalRead.eq_1 ..).trans (serveNow_of_act h (foldl_bytes fun b x _ => ?_))
  dsimp only
  rw [eccRead_clean (s := s.at t) hecc]
  rfl

theorem exec_journalFree (h : (s.at t).Serves (mbxNo m n) oJournalFree)
    (hn : mbxNum s (mbxNo m n) 0 2 ≤ jnlUnread s) : exec (.journalFree t m n) s =
      (let u := (s.at t).fset ACC_JNLCNT_UNREAD 0 (jnlUnread s - mbxNum s (mbxNo m n) 0 2)
       .next (cmdAnswer u (mbxNo m n) .ok (leBytes 2 (jnlUnread u) ++ leBytes 2 (s.fget ACC_JNLCNT_LOST)))) := by
  have hfree : jnlFree (s.at t) (mbxNum (s.at t) (mbxNo m n) 0 2) =
      (.ok, (s.at t).fset ACC_JNLCNT_UNREAD 0 (jnlUnread s - mbxNum s (mbxNo m n) 0 2)) := if_neg (not_lt.mpr hn)
  refine (execJournalFree.eq_1 ..).trans (serveNow_of_act h ?_)
  dsimp only
  rw [hfree, fget_fset_far _ _ (by decide) (by decide) (by decide), fget_at]

/-- A point's record as POINT_READ returns it. -/
def recordBytes (s : State) (i : Nat) : List Nat :=
  leBytes 8 (slotValue s i) ++ leBytes 4 (slotTag s i) ++ leBytes 4 (slotMeta s i)

theorem pointBytes_clean {u : State} {p i : Nat} (hecc : u.sec.ecc = []) (hp : slotOf u p = some i) :
    pointBytes u p = (recordBytes u i, u) := by
  rw [pointBytes, hp]
  dsimp only
  rw [eccRead_clean hecc, eccRead_clean hecc, recordBytes]

theorem exec_pointRead (h : (s.at t).Serves (mbxNo m n) oPointRead) (hecc : s.sec.ecc = [])
    (hall : ∀ p ∈ cmdPoints (s.at t) (mbxNo m n), (slotOf (s.at t) p).isSome = true) :
    exec (.pointRead t m n) s = .next (cmdAnswer (s.at t) (mbxNo m n) .ok
      ((cmdPoints (s.at t) (mbxNo m n)).flatMap (fun p => recordBytes s ((slotOf (s.at t) p).getD 0)))) := by
  refine (execPointRead.eq_1 ..).trans (serveNow_of_act h (foldl_bytes fun b p hp => ?_))
  obtain ⟨i, hi⟩ := Option.isSome_iff_exists.mp (hall p hp)
  dsimp only
  rw [pointBytes_clean (u := s.at t) hecc hi, hi]
  rfl

/-- The word of trace channel `c` at chronological index `i`. -/
def traceWord (s : State) (c i : Nat) : Nat :=
  if s.fget MASH_TRCFG1_LEN c ≤ i then 0
  else s.mread (0x03000000 + (0x8000 * c + 4 * ((s.fget MASH_TRSTAT_OLDEST c + i) % 8192))) 4

theorem exec_traceRead (h : (s.at t).Serves (mbxNo m n) oTraceRead) (hecc : s.sec.ecc = []) :
    exec (.traceRead t m n) s = .next (cmdAnswer (s.at t) (mbxNo m n) .ok
      ((List.range (min 1024 (8192 - mbxNum s (mbxNo m n) 4 4))).flatMap (fun j => leBytes 4
        (traceWord s (mbxByte s (mbxNo m n) 0) (mbxNum s (mbxNo m n) 4 4 + j))))) := by
  refine (execTraceRead.eq_1 ..).trans (serveNow_of_act h (foldl_bytes fun b j _ => ?_))
  dsimp only
  rw [eccRead_clean (s := s.at t) hecc]
  split
  case isTrue hend => exact congrArg (fun w => (b ++ leBytes 4 w, s.at t)) (if_pos hend).symm
  case isFalse hin => exact congrArg (fun w => (b ++ leBytes 4 w, s.at t)) (if_neg hin).symm

/-! ### The attestation report (R386, R387, R392) -/

/-- The state with another counter of free values. -/
def reFree (u : State) (f : Nat) : State := { u with free := f }

/-- The identity registers, which a report shows, do not show the counter. -/
theorem peekWord_reFree (u : State) (f : Nat) {a : Nat} (ha : a ∈ [0x0, 0x4, 0x18, 0x8, 0x20, 0x24]) :
    peekWord (reFree u f) 0 a = peekWord u 0 a := by
  fin_cases ha <;> rfl

/-- A report does not depend on how many free values have been drawn. -/
theorem report_reFree (u : State) (f : Nat) (nonce l : List Nat) : report (reFree u f) nonce l = report u nonce l := by
  have hbody : reportBody (reFree u f) nonce = reportBody u nonce := by
    unfold reportBody
    simp (disch := decide) only [peekWord_reFree]
    rfl
  unfold report
  rw [hbody]
  rfl

/-- The three free values that a report draws. -/
def attestFree (u : State) : List Nat := [Config.freeWord u.free, Config.freeWord (u.free + 1), Config.freeWord (u.free + 2)]

/-- A report is a short object: its block holds the two signatures alone. -/
theorem objectBytes_report (u : State) (nonce f : List Nat) :
    let r := report u nonce f
    let msg := signedMsg (headerBytes r ++ bodyBytes r)
    objectBytes r = headerBytes r ++ bodyBytes r ++ (leBytes 64 (Config.edSign (u.sec.otp.idSeed.getD 0 0) msg)
      ++ leBytes 3309 (Config.mlSign (u.sec.otp.idSeed.getD 1 0) msg) ++ [0, 0, 0]) := by
  intro r msg
  have hed : r.edSig = Config.edSign (u.sec.otp.idSeed.getD 0 0) msg := rfl
  have hml : r.mlSig = Config.mlSign (u.sec.otp.idSeed.getD 1 0) msg := rfl
  have hshort : imgShort r = true := (by decide : bit 1 0 = true)
  rw [objectBytes, blockBytes, if_pos hshort, List.nil_append, sigBytes, hed, hml]

theorem exec_attest (h : (s.at t).Serves (mbxNo m n) oAttest) : exec (.attest t m n) s =
    .next (cmdAnswer (reFree (s.at t) (s.free + 3)) (mbxNo m n) .ok
      (objectBytes (report (s.at t) (mbxBytes (s.at t) (mbxNo m n) 0 32) (attestFree (s.at t))))) := by
  exact (execAttest.eq_1 ..).trans
    (serveNow_of_act h (Prod.ext (congrArg objectBytes (report_reFree (s.at t) _ _ _)) rfl))

/-! ### Acting on the device (R78, R339, R350, R362, R366) -/

theorem exec_capRead_own (h : (s.at t).Serves (mbxNo m n) oCapRead)
    (hown : isStack s = false ∨ mbxNum s (mbxNo m n) 0 4 / 2 ^ 24 = 0xff) : exec (.capRead t m n) s =
      (let r := capRead (s.at t) (mbxNum s (mbxNo m n) 0 4) (mbxNum s (mbxNo m n) 4 4) (mbxNum s (mbxNo m n) 8 4)
       .next (cmdAnswer r.2.2 (mbxNo m n) .ok r.2.1)) := by
  have hhere : (isStack (s.at t) && mbxNum (s.at t) (mbxNo m n) 0 4 / 2 ^ 24 != 0xff) = false := by
    rcases hown with hown | hown <;> rw [isStack_at, mbxNum_at, hown] <;> simp
  exact congrArg Host.Outcome.next ((serve_of_serves _ h).trans (if_neg (by rw [hhere]; decide)))

theorem exec_forward {l : Nat} (h : (s.at t).Serves (mbxNo m n) oForward)
    (hl : peerLane (s.at t) (mbxByte s (mbxNo m n) 0) = some l) : exec (.forward t m n) s =
      (let k := mbxNo m n
       let u := rraMailbox (s.at t) l (rspHdr (s.at t) l) 2 (mbxByte s k 1) (mbxNum s k 4 2) (mbxNum s k 8 2) 0
         (mbxBytes s k 12 (lenOf s k - 12))
       .next (jnlHold (remoteAdd u { key := k, op := oForward, deadline := u.clk + 10 * msT,
                                     left := [(256 + mbxByte s k 0, mbxByte s k 1, mbxNum s k 8 2)] }) k)) := by
  refine congrArg Host.Outcome.next ((serve_of_serves _ h).trans ?_)
  dsimp only
  rw [mbxByte_at, hl]
  rfl


/-- Settles O26: each command is `serveNow` or `serve` of its opcode. -/
theorem mailboxCommandsAreServed : Obligations.MailboxCommandsAreServed := by
  refine ⟨fun t m n s => ⟨fun h => (execGetInfo.eq_1 ..).trans (serveNow_of_act h rfl),
      fun h => (execGetStatus.eq_1 ..).trans (serveNow_of_act h rfl),
      fun h => (execLeaseStatus.eq_1 ..).trans (serveNow_of_act h rfl),
      fun h => (execCapStatus.eq_1 ..).trans (serveNow_of_act h rfl),
      exec_journalRead, exec_journalFree, exec_pointRead, fun h => ?_⟩,
    fun t m n s => ⟨fun h => (execReset.eq_1 ..).trans (serveNow_of_act h rfl),
      fun h => (execCapArm.eq_1 ..).trans (serveNow_of_act h rfl),
      fun h => (execCapDisarm.eq_1 ..).trans (serveNow_of_act h rfl),
      fun h => (execTraceStart.eq_1 ..).trans (serveNow_of_act h rfl), exec_traceRead,
      fun h => (execBillLoad.eq_1 ..).trans (serveNow_of_act h rfl),
      fun h => (execStackWithdraw.eq_1 ..).trans (serveNow_of_act h rfl), exec_capRead_own, fun l => exec_forward⟩⟩
  intro nonce
  refine ⟨attestFree (s.at t), rfl, ⟨reFree (s.at t) (s.free + 3), rfl, ?_⟩, rfl, rfl, rfl, rfl, rfl, rfl, rfl, rfl, rfl⟩
  rw [exec_attest h, objectBytes_report]
  rfl

end Sys2Proof.Machine
end


section
/-! Commands that are racked, and commands that wait for a peer or for a check. -/
namespace Sys2Proof.Machine

variable {t : Time} {m : Master} {n : Fin 8} {s : State}

/-! ### The commands (R76, R111, R144, R329, R342 to R344) -/

/-- A lease-only command without an apply cycle of its own. -/
theorem rackNow_of_serves {op : Nat} (h : (s.at t).Serves (mbxNo m n) op) :
    rackNow t m n op s = .next (jnlHold (rackCommand (s.at t) (mbxNo m n) 0) (mbxNo m n)) :=
  congrArg Host.Outcome.next (serve_of_serves _ h)

theorem exec_setRef (h : (s.at t).Serves (mbxNo m n) oSetRef) : exec (.setRef t m n) s =
    .next (jnlHold (rackCommand (s.at t) (mbxNo m n) (mbxNum s (mbxNo m n) 0 4)) (mbxNo m n)) :=
  congrArg Host.Outcome.next (serve_of_serves _ h)

theorem exec_pointWrite_racked (h : (s.at t).Serves (mbxNo m n) oPointWrite) (hstack : isStack s = true)
    (hlease : needsLease (s.at t) (mbxNo m n) = true) :
    exec (.pointWrite t m n) s = .next (jnlHold (rackCommand (s.at t) (mbxNo m n) 0) (mbxNo m n)) := by
  refine congrArg Host.Outcome.next ((serve_of_serves _ h).trans (if_pos ?_))
  rw [isStack_at, hstack, hlease]
  rfl

theorem exec_pointWrite_own (h : (s.at t).Serves (mbxNo m n) oPointWrite)
    (hown : isStack s = false ∨ needsLease (s.at t) (mbxNo m n) = false) :
    exec (.pointWrite t m n) s =
      (let k := mbxNo m n
       .next (cmdAnswer (((List.range (min 340 (mbxNum s k 0 2))).map
         (fun i => (mbxNum s k (4 + 12 * i) 4, mbxNum s k (8 + 12 * i) 8))).foldl (fun u e => pointCmd u e.1 e.2) (s.at t))
         k .ok [])) := by
  refine congrArg Host.Outcome.next ((serve_of_serves _ h).trans (if_neg ?_))
  rw [isStack_at]
  rcases hown with hown | hown <;> simp [hown]

theorem exec_billSwap (h : (s.at t).Serves (mbxNo m n) oBillSwap) (hfree : swapBusy (s.at t) = false) :
    exec (.billSwap t m n) s = .next (jnlHold { s.at t with
      mash.chk := some { cyc := mbxNum s (mbxNo m n) 0 4, master := mbxNo m n / 8, mbx := some (mbxNo m n) } }
      (mbxNo m n)) := by
  refine congrArg Host.Outcome.next ((serve_of_serves _ h).trans ?_)
  rw [swapRequest, if_neg (by rw [hfree]; decide)]
  rfl

theorem jnlHold_keeps {u : State} {k : Nat} (h : waits u k = false ∨ cmdJournaled u k = false) : jnlHold u k = u :=
  if_neg (by rcases h with h | h <;> simp [h])

theorem jnlHold_holds {u : State} {k : Nat} (hwaits : waits u k = true) (hjnl : cmdJournaled u k = true) :
    jnlHold u k = { u with mbx.jnlHeld := k :: u.mbx.jnlHeld.filter (· != k) } :=
  if_pos (by rw [hwaits, hjnl]; rfl)

/-! ### The ends of the waits (R76, R78, R111, R329) -/

theorem exec_handoverTimeout {k : Nat} (hwait : s.mbx.handWait = some k) (hdue : s.mbx.handAt + 2 * msT ≤ max s.clk t) :
    exec (.handoverTimeout t) s =
      .next (cmdAnswer (dupAnswer { s.at t with mbx.handWait := none } k .ok) k .ok []) := by
  refine congrArg Host.Outcome.next ?_
  rw [State.at_mbx, hwait]
  exact if_pos hdue

theorem exec_handoverTimeout_early {k : Nat} (hwait : s.mbx.handWait = some k)
    (hearly : max s.clk t < s.mbx.handAt + 2 * msT) : exec (.handoverTimeout t) s = .next (s.at t) := by
  refine congrArg Host.Outcome.next ?_
  rw [State.at_mbx, hwait]
  exact if_neg (not_le.mpr hearly)

theorem exec_leaseRackTimeout {r : RackCmd} (hracks : s.mbx.racks = [r]) (hack : ackedAll (s.at t) r = false)
    (hlate : 2 ≤ cycDiff (cycleNow s) r.at_) : exec (.leaseRackTimeout t) s = .next (rackVoid (s.at t) r) := by
  refine congrArg Host.Outcome.next ?_
  rw [State.at_mbx, hracks, List.filter_cons_of_pos (by rw [hack, cycleNow_at]; simpa using hlate)]
  rfl

theorem exec_remoteReplyTimeout {r : Remote} (hremote : s.mbx.remote = [r]) (hdue : r.deadline ≤ max s.clk t) :
    exec (.remoteReplyTimeout t) s = .next (remoteAnswer (s.at t) r (firstStatus [statusOf r.worst, .busy]) []) := by
  refine congrArg Host.Outcome.next ?_
  rw [State.at_mbx, hremote, List.filter_cons_of_pos (by exact decide_eq_true hdue)]
  rfl

theorem exec_remoteReplyTimeout_early {r : Remote} (hremote : s.mbx.remote = [r]) (hearly : max s.clk t < r.deadline) :
    exec (.remoteReplyTimeout t) s = .next (s.at t) := by
  refine congrArg Host.Outcome.next ?_
  rw [State.at_mbx, hremote, List.filter_cons_of_neg (by exact mt of_decide_eq_true (not_le.mpr hearly))]
  rfl

/-! ### The end of a bank check (R142, R144, R146) -/

section
variable {r : SwapReq} (hchk : s.mash.chk = some r) (hon : domOn s 1 = true)
include hchk hon

/-- The check's result for a BILL_SWAP of mailbox `k`: racked by a stack where it passed, else answered. -/
theorem exec_bankCheckComplete_mailbox {k : Nat} (hmbx : r.mbx = some k) : exec (.bankCheckComplete t) s =
    .next (let x := swapChecked (s.at t) r
      if x.1 == .ok && isStack x.2 then rackCommand
        { x.2 with mash.pend := some (applyCycle x.2 r.cyc (if (livePeers x.2).isEmpty then 2 else 3)).2 } k r.cyc
      else cmdAnswer x.2 k x.1 []) := by
  refine congrArg Host.Outcome.next ?_
  rw [State.at_mash, hchk]
  dsimp only
  rw [domOn_at, hon, hmbx]
  rfl

/-- The check's result for a swap that no mailbox here waits for, where no peer is answered. -/
theorem exec_bankCheckComplete_alone (hmbx : r.mbx = none) (hquiet : r.rack = none ∨ (swapChecked (s.at t) r).1 ≠ .ok) :
    exec (.bankCheckComplete t) s = .next (swapChecked (s.at t) r).2 := by
  refine congrArg Host.Outcome.next ?_
  rw [State.at_mash, hchk]
  dsimp only
  rw [domOn_at, hon, hmbx]
  cases hrack : r.rack with
  | none => rfl
  | some x =>
    rcases hquiet with hquiet | hquiet
    · exact absurd (hrack.symm.trans hquiet) (by simp)
    · exact if_neg (mt beq_iff_eq.mp hquiet)

end

/-- Settles O28: each command is `serve` of its opcode, and each wait ends by the list or the request that it stands in. -/
theorem rackedCommandsAreSent : Obligations.RackedCommandsAreSent := by
  refine ⟨fun t m n s => ⟨rackNow_of_serves, rackNow_of_serves, rackNow_of_serves, rackNow_of_serves, rackNow_of_serves,
      rackNow_of_serves, exec_setRef, exec_pointWrite_racked, exec_pointWrite_own, exec_billSwap⟩,
    fun u k => ⟨jnlHold_keeps, jnlHold_holds⟩,
    fun t s k hwait => ⟨exec_handoverTimeout hwait, exec_handoverTimeout_early hwait⟩, fun t s r => exec_leaseRackTimeout,
    fun t s r hremote => ⟨exec_remoteReplyTimeout hremote, exec_remoteReplyTimeout_early hremote⟩,
    fun t s r k hchk hon hmbx => ⟨fun hbad => ?_, fun hok hstack => ?_, fun hok hcell => ?_⟩,
    fun t s r hchk hon hmbx hrack => exec_bankCheckComplete_alone hchk hon hmbx (.inl hrack),
    fun t s r x hchk hon hmbx _ hbad => exec_bankCheckComplete_alone hchk hon hmbx (.inr hbad)⟩
  · exact (exec_bankCheckComplete_mailbox hchk hon hmbx).trans (congrArg _ (if_neg (by simp [hbad])))
  · exact (exec_bankCheckComplete_mailbox hchk hon hmbx).trans (congrArg _ (if_pos (by rw [hok, hstack]; rfl)))
  · have hanswer := (exec_bankCheckComplete_mailbox (t := t) hchk hon hmbx).trans
      (congrArg _ (if_neg (by simp [hcell])))
    rwa [hok] at hanswer

end Sys2Proof.Machine
end


section
/-! The transfers of the QSPI target. -/
namespace Sys2Proof.Machine

variable {t : Time} {s : State}

/-! ### When an instruction is taken, and what is kept for RDSR (R80) -/

theorem qspiReady_of_idle (hrun : running s = true) (hidle : s.qspi.phase = .idle) : qspiReady s = true := by
  rw [qspiReady, hrun, hidle]
  rfl

theorem not_qspiReady (h : running s = false ∨ s.qspi.phase ≠ .idle) : ¬ qspiReady s = true := by
  rcases h with h | h <;> simp [qspiReady, h]

/-- The first status is kept. -/
theorem qspiRec_eq (u : State) (st : Status) :
    qspiRec u st = { u with qspi.status := if u.qspi.status = 0 then st.code else u.qspi.status } := by
  by_cases h : u.qspi.status = 0 <;> simp [qspiRec, h]

theorem qspiRec_ok (u : State) : qspiRec u .ok = u := by
  have hkept : (if u.qspi.status = 0 then Status.ok.code else u.qspi.status) = u.qspi.status := by
    split
    · next h => exact h.symm
    · rfl
  rw [qspiRec_eq, hkept]

/-! ### Writes and reads of one word (R80, R82) -/

/-- A word's write that leaves the transfer alone moves the address on and keeps the status. -/
theorem qspiPut_eq {u : State} {w : Word} (hphase : u.qspi.phase = .write)
    (hkeep : (busWrite u 1 u.qspi.addr w.toNat 4 true).2.qspi = u.qspi) :
    qspiPut u w = { (busWrite u 1 u.qspi.addr w.toNat 4 true).2 with
      qspi := { u.qspi with
        addr := (u.qspi.addr + 4) % 2 ^ 32
        status := if u.qspi.status = 0 then (busWrite u 1 u.qspi.addr w.toNat 4 true).1.code else u.qspi.status } } := by
  rw [qspiPut, if_neg (by simp [hphase])]
  dsimp only
  rw [if_neg (by simp [hkeep, hphase]), qspiRec_eq, hkeep]

/-- A word's read that leaves the transfer alone moves the address on and keeps word and status. -/
theorem qspiGet_one {u : State} (hphase : u.qspi.phase = .read)
    (hkeep : (busRead u 1 u.qspi.addr 4).2.2.qspi = u.qspi) :
    qspiGet 1 u = { (busRead u 1 u.qspi.addr 4).2.2 with
      qspi := { u.qspi with
        addr := (u.qspi.addr + 4) % 2 ^ 32
        out := u.qspi.out ++ [(busRead u 1 u.qspi.addr 4).2.1]
        status := if u.qspi.status = 0 then (busRead u 1 u.qspi.addr 4).1.code else u.qspi.status } } := by
  have hrec (v : State) (st : Status) : (if (st == .ok) = true then v else qspiRec v st) = qspiRec v st := by
    by_cases h : st = .ok
    · rw [h, qspiRec_ok]; rfl
    · exact if_neg (mt beq_iff_eq.mp h)
  rw [qspiGet]
  dsimp only
  rw [if_neg (by simp [hkeep, hphase]), hrec, qspiRec_eq, hkeep]
  rfl

/-- The state in which a write's words are written. -/
def qspiWriteStart (s : State) (a : Word) : State :=
  { s with qspi := { s.qspi with phase := .write, addr := a.toNat, marker := 0, out := [] } }

/-- The state in which a read's words are read. -/
def qspiReadStart (s : State) (a : Word) : State :=
  { s with qspi := { s.qspi with phase := .read, addr := a.toNat, marker := 0xa5, out := [] } }

/-- A write whose words leave the transfer a write keeps the count of its last word's bytes. -/
theorem qspiWrite_eq {a : Word} {ws : List Word} {part : Nat}
    (h : (ws.foldl qspiPut (qspiWriteStart s a)).qspi.phase = .write) :
    qspiWrite s a ws part = { ws.foldl qspiPut (qspiWriteStart s a) with
      qspi := { (ws.foldl qspiPut (qspiWriteStart s a)).qspi with part } } :=
  if_pos (beq_iff_eq.mpr h)

theorem qspiRead_eq {a : Word} {n : Nat} (h : (qspiGet n (qspiReadStart s a)).qspi.phase = .read) :
    qspiRead s a n 0 = { qspiGet n (qspiReadStart s a) with
      qspi := { (qspiGet n (qspiReadStart s a)).qspi with part := 0 } } :=
  if_pos (beq_iff_eq.mpr h)

theorem qspiWrite_one {a x : Word} {part : Nat}
    (hkeep : (busWrite (qspiWriteStart s a) 1 a.toNat x.toNat 4 true).2.qspi = (qspiWriteStart s a).qspi) :
    qspiWrite s a [x] part = { (busWrite (qspiWriteStart s a) 1 a.toNat x.toNat 4 true).2 with
      qspi := { (qspiWriteStart s a).qspi with
        addr := (a.toNat + 4) % 2 ^ 32, part
        status := if s.qspi.status = 0 then (busWrite (qspiWriteStart s a) 1 a.toNat x.toNat 4 true).1.code
          else s.qspi.status } } := by
  have hput : [x].foldl qspiPut (qspiWriteStart s a) = _ := qspiPut_eq rfl hkeep
  rw [qspiWrite_eq (by rw [hput]; rfl), hput]
  rfl

theorem qspiRead_one {a : Word}
    (hkeep : (busRead (qspiReadStart s a) 1 a.toNat 4).2.2.qspi = (qspiReadStart s a).qspi) :
    qspiRead s a 1 0 = { (busRead (qspiReadStart s a) 1 a.toNat 4).2.2 with
      qspi := { (qspiReadStart s a).qspi with
        addr := (a.toNat + 4) % 2 ^ 32, part := 0, out := [(busRead (qspiReadStart s a) 1 a.toNat 4).2.1]
        status := if s.qspi.status = 0 then (busRead (qspiReadStart s a) 1 a.toNat 4).1.code else s.qspi.status } } := by
  have hget : qspiGet 1 (qspiReadStart s a) = _ := qspiGet_one rfl hkeep
  rw [qspiRead_eq (by rw [hget]; rfl), hget]
  rfl

/-! ### The commands -/

theorem exec_qspiWrite_one {a x : Word} {part : Fin 4} (hrun : running s = true) (hidle : s.qspi.phase = .idle)
    (hkeep : (busWrite (qspiWriteStart (s.at t) a) 1 a.toNat x.toNat 4 true).2.qspi =
      (qspiWriteStart (s.at t) a).qspi) :
    exec (.qspiWrite t a [x] part) s =
      (let r := busWrite (qspiWriteStart (s.at t) a) 1 a.toNat x.toNat 4 true
       .next { r.2 with
         qspi.addr := (a.toNat + 4) % 2 ^ 32, qspi.part := part.val,
         qspi.status := if s.qspi.status = 0 then r.1.code else s.qspi.status }) := by
  refine congrArg Host.Outcome.next ((if_pos (qspiReady_of_idle hrun hidle)).trans ((qspiWrite_one hkeep).trans ?_))
  dsimp only
  rw [hkeep]
  rfl

theorem exec_qspiWrite_none {a : Word} {part : Fin 4} (hrun : running s = true) (hidle : s.qspi.phase = .idle) :
    exec (.qspiWrite t a [] part) s = .next { s.at t with
      qspi.phase := .write, qspi.addr := a.toNat, qspi.marker := 0, qspi.out := [], qspi.part := part.val } :=
  congrArg Host.Outcome.next ((if_pos (qspiReady_of_idle hrun hidle)).trans (qspiWrite_eq rfl))

theorem exec_qspiRead_one {a : Word} (hrun : running s = true) (hidle : s.qspi.phase = .idle)
    (hwhole : s.qspi.part = 0)
    (hkeep : (busRead (qspiReadStart (s.at t) a) 1 a.toNat 4).2.2.qspi = (qspiReadStart (s.at t) a).qspi) :
    exec (.qspiRead t a 1 0) s =
      (let r := busRead (qspiReadStart (s.at t) a) 1 a.toNat 4
       .next { r.2.2 with
         qspi.addr := (a.toNat + 4) % 2 ^ 32, qspi.out := [r.2.1],
         qspi.status := if s.qspi.status = 0 then r.1.code else s.qspi.status }) := by
  refine congrArg Host.Outcome.next ((if_pos (qspiReady_of_idle hrun hidle)).trans ((qspiRead_one hkeep).trans ?_))
  dsimp only
  rw [hkeep, show (qspiReadStart (s.at t) a).qspi.part = 0 from hwhole]
  rfl

theorem exec_qspiRdsr (hrun : running s = true) (hidle : s.qspi.phase = .idle) :
    exec (.qspiRdsr t) s = .next { s.at t with
      qspi.phase := .rdsr, qspi.marker := 0,
      qspi.out := [s.qspi.status % 256, s.qspi.status / 256 % 256], qspi.status := 0 } :=
  congrArg Host.Outcome.next (if_pos (qspiReady_of_idle hrun hidle))

/-! ### A read that is not ready in time (R81) -/

/-- Whether the late access is made is free, so each claim about it is made of both. -/
theorem exec_qspiReadTimeout {a : Word} {n : Nat} (hrun : running s = true) (hidle : s.qspi.phase = .idle) :
    ∃ u, (u = (drawFree (s.at t)).2 ∨ u = (busRead (drawFree (s.at t)).2 1 a.toNat 4).2.2) ∧
      exec (.qspiReadTimeout t a n) s = .next (qspiRec { u with
        qspi := { u.qspi with phase := .read, addr := a.toNat, marker := 0x5a, out := List.replicate n 0 } } .busy) := by
  have hexec : exec (.qspiReadTimeout t a n) s = _ := congrArg Host.Outcome.next (if_pos (qspiReady_of_idle hrun hidle))
  refine ⟨if (drawFree (s.at t)).1 % 2 == 0 then _ else _, ?_, hexec⟩
  split
  · exact .inl rfl
  · exact .inr rfl

theorem unmapped_qspi (s : State) (m a : Nat) : (unmapped s m a).qspi = s.qspi := by
  unfold unmapped accErr recErr State.satAdd
  split <;> rfl

/-- What a read of an unmapped address that comes too late leaves, whether its access was made or not. -/
theorem qspiReadTimeout_unmapped {a : Nat} {u : State} (hblk : blkOf a = none)
    (hu : u = (drawFree (s.at t)).2 ∨ u = (busRead (drawFree (s.at t)).2 1 a 4).2.2) :
    u.qspi = s.qspi ∧ s.SameMem u ∧ s.SameRegsBut u unmappedRegs := by
  rw [busRead_unmapped hblk] at hu
  rcases hu with rfl | rfl
  · exact ⟨rfl, sameMem_of_mem rfl, sameRegs_of_regs _ rfl⟩
  · exact ⟨unmapped_qspi _ _ _, sameMem_of_mem (unmapped_mem ..),
      sameRegs_trans (sameRegs_of_regs _ rfl) (unmapped_frame _ _ _)⟩

/-! ### Chip select (R82) -/

theorem exec_qspiCsRise_whole (hwhole : s.qspi.part = 0) :
    exec (.qspiCsRise t) s = .next { s.at t with qspi.phase := .idle } := by
  refine congrArg Host.Outcome.next ?_
  rw [State.at_qspi, if_pos (beq_iff_eq.mpr hwhole)]
  dsimp only
  rw [State.at_qspi, hwhole]

theorem exec_qspiCsRise_cut (hcut : s.qspi.part ≠ 0) :
    exec (.qspiCsRise t) s = .next { s.at t with
      qspi.phase := .idle, qspi.part := 0, qspi.status := if s.qspi.status = 0 then 3 else s.qspi.status } := by
  refine congrArg Host.Outcome.next ?_
  rw [State.at_qspi, if_neg (mt beq_iff_eq.mp hcut), qspiRec_eq]
  rfl

/-- Settles O30: an instruction that is taken runs its words over the bus; each word's status is kept by `qspiRec`. -/
theorem qspiTransfersAreServed : Obligations.QspiTransfersAreServed := by
  refine ⟨fun t a x part s hrun hidle => ?_, fun t a part s hrun hidle => ?_, fun t a s hrun hidle hwhole => ?_,
    fun t s hrun hidle => ⟨exec_qspiRdsr hrun hidle, congrArg _ (if_pos (qspiReady_of_idle hrun hidle))⟩,
    fun t a n s hrun hidle hblk => ?_, fun t s => ⟨exec_qspiCsRise_whole, exec_qspiCsRise_cut⟩,
    fun t a ws n part s h => ?_⟩
  · intro u r hkeep v
    exact ⟨exec_qspiWrite_one hrun hidle hkeep, exec_qspiWrite_one hrun hidle hkeep⟩
  · exact ⟨exec_qspiWrite_none hrun hidle, exec_qspiWrite_none hrun hidle⟩
  · intro u r hkeep v
    exact ⟨exec_qspiRead_one hrun hidle hwhole hkeep, exec_qspiRead_one hrun hidle hwhole hkeep⟩
  · obtain ⟨u, hu, hexec⟩ := exec_qspiReadTimeout (t := t) (a := a) (n := n) hrun hidle
    obtain ⟨hqspi, hmem, hregs⟩ := qspiReadTimeout_unmapped hblk hu
    refine ⟨_, hexec, ?_⟩
    rw [qspiRec_eq, hqspi]
    exact ⟨rfl, rfl, rfl, rfl, hmem, hregs⟩
  · have hbusy : ¬ qspiReady (s.at t) = true := not_qspiReady h
    exact ⟨congrArg _ (if_neg hbusy), congrArg _ (if_neg hbusy), congrArg _ (if_neg hbusy), congrArg _ (if_neg hbusy),
      congrArg _ (if_neg hbusy), congrArg _ (if_neg hbusy), congrArg _ (if_neg hbusy)⟩

end Sys2Proof.Machine
end


section
/-! The messages of the plant ports. -/
namespace Sys2Proof.Machine

variable {t : Time} {port : Fin 2} {s : State}

/-! ### Datagrams (R84 to R86, R293) -/

section
variable {src dst : Word} {sport : Fin 65536} {d : List Nat}

theorem exec_mailboxDatagram_tooLong (hmac : macTakes s (28 + d.length) = false) :
    exec (.mailboxDatagram t port src dst sport d) s = .next (s.at t) :=
  congrArg Host.Outcome.next (if_neg (Bool.eq_false_iff.mp hmac))

theorem exec_mailboxDatagram (hmac : macTakes s (28 + d.length) = true) :
    exec (.mailboxDatagram t port src dst sport d) s =
      .next (datagramRx (s.at t) port src.toNat dst.toNat sport d) :=
  congrArg Host.Outcome.next (if_pos hmac)

end

section
variable {src dst sport : Nat} {d : List Nat} (hserves : ethServes s port = true)
include hserves

theorem datagramRx_noLease (hlease : holds s = false) :
    datagramRx s port src dst sport d = s.satAdd MBX_NETCNT_DROP_NOLEASE 0 := by
  simp [datagramRx, hserves, hlease]

theorem datagramRx_unlisted (hlease : holds s = true) (hsrc : src ∉ (cfgOf s).sources) :
    datagramRx s port src dst sport d = s.satAdd MBX_NETCNT_DROP_SRC 0 := by
  simp [datagramRx, hserves, hlease, hsrc]

theorem datagramRx_taken (hlease : holds s = true) (hsrc : src ∈ (cfgOf s).sources) (hdst : mineIp s dst = true) :
    datagramRx s port src dst sport d = datagramPost s port src sport d := by
  simp [datagramRx, hserves, hlease, hsrc, hdst]

end

/-! ### Fragments (R86) -/

/-- A lone fragment that does not begin at 0 leaves a gap before itself. -/
theorem not_covered_of_gap {off len n : Nat} (hoff : off ≠ 0) (hn : 0 < n) : covered [(off, len)] n = false := by
  have hnext : coverTo [(off, len)] ([(off, len)].length + 1) 0 = 0 := by simp [coverTo, hoff]
  exact decide_eq_false (by rw [hnext]; exact not_le.mpr hn)

/-- A first fragment is kept until the others come. -/
theorem exec_ipv4Fragment_first {src dst : Word} {id : Fin 65536} {hlen off : Nat} {last : Bool} {bytes : List Nat}
    (hserves : ethServes s port = true) (hnone : s.mbx.frags = []) (hsize : hlen + off + bytes.length ≤ 4176)
    (hmac : macTakes s (hlen + bytes.length) = true) (hpart : last = false ∨ (off ≠ 0 ∧ bytes ≠ [])) :
    exec (.ipv4Fragment t port src dst id hlen off last bytes) s = .next { s.at t with
      mbx.frags := [{ port := port.val, src := src.toNat, id := id.val, first := max s.clk t,
                      got := [(off, bytes.length)], whole := if last then some (off + bytes.length) else none,
                      bytes := bytes.zipIdx.foldl
                        (fun (m : SMap Nat) e => smSet 0 m (off + e.2) (e.1 % 256)) [] }] } := by
  have hlive : fragsLive (s.at t) = [] := by rw [fragsLive, State.at_mbx, hnone]; rfl
  refine congrArg Host.Outcome.next ((if_neg (by rw [show macTakes (s.at t) _ = true from hmac, ethServes_at, hserves]; decide)).trans ?_)
  dsimp only
  rw [hlive, if_neg (not_lt.mpr hsize)]
  cases last with
  | false => rfl
  | true =>
    have hgap : off ≠ 0 ∧ bytes ≠ [] := by simpa using hpart
    have hopen : covered [(off, bytes.length)] (off + bytes.length) = false :=
      not_covered_of_gap hgap.1 (Nat.add_pos_left (Nat.pos_of_ne_zero hgap.1) _)
    exact if_neg (Bool.eq_false_iff.mp hopen)

/-! ### ARP and echo (R83, R85) -/

theorem exec_arpRequest_mine {a : Word} (hserves : ethServes s port = true)
    (hmine : a.toNat = portIp s port ∨ (holds (s.at t) = true ∧ a.toNat = (cfgOf s).plantAddr)) :
    exec (.arpRequest t port a) s =
      .next { s.at t with ethOut := s.ethOut ++ [.arpReply port a.toNat (portMac port)] } := by
  refine congrArg Host.Outcome.next (if_pos ?_)
  rw [ethServes_at, hserves, portIp_at, cfgOf_at]
  rcases hmine with hport | ⟨hlease, hplant⟩
  · simp [hport]
  · simp [hlease, hplant]

theorem exec_arpRequest_closed {a : Word} (hserves : ethServes s port = false) :
    exec (.arpRequest t port a) s = .next (s.at t) :=
  congrArg Host.Outcome.next (if_neg (by simp [hserves]))

theorem exec_icmpEcho_mine {src dst : Word} {data : List Nat} (hserves : ethServes s port = true)
    (hmac : macTakes s (28 + data.length) = true) (hmine : mineIp (s.at t) dst.toNat = true) :
    exec (.icmpEcho t port src dst data) s =
      .next { s.at t with ethOut := s.ethOut ++ [.echoReply port src.toNat data] } :=
  congrArg Host.Outcome.next (if_pos (by
    rw [ethServes_at, show macTakes (s.at t) _ = true from hmac, hserves, hmine]; rfl))

theorem exec_icmpEcho_other {src dst : Word} {data : List Nat}
    (hother : ethServes s port = false ∨ macTakes s (28 + data.length) = false ∨ mineIp (s.at t) dst.toNat = false) :
    exec (.icmpEcho t port src dst data) s = .next (s.at t) := by
  refine congrArg Host.Outcome.next (if_neg ?_)
  rw [ethServes_at, show macTakes (s.at t) = macTakes s from rfl]
  rcases hother with h | h | h <;> simp [h]

theorem exec_gratuitousArpSecond (hlease : holds (s.at t) = true) (harp : s.vote.arp2 = true)
    (hdue : s.vote.gained + msT ≤ max s.clk t) :
    exec (.gratuitousArpSecond t) s = .next { s.at t with
      vote.arp2 := false, ethOut := s.ethOut ++
      [.gratuitousArp 0 (cfgOf s).plantAddr (portMac 0), .gratuitousArp 1 (cfgOf s).plantAddr (portMac 1)] } :=
  congrArg Host.Outcome.next (if_pos (by
    rw [hlease, State.at_vote, harp, Bool.true_and, Bool.true_and, decide_eq_true_eq]
    exact hdue))

/-- Equal configured addresses are told apart by their lowest bits. -/
theorem portMac_ne : portMac 0 ≠ portMac 1 := by
  have hlow : portMac 0 = Config.mac0 % 2 ^ 48 := rfl
  have hhigh : portMac 1 = if Config.mac1 % 2 ^ 48 == Config.mac0 % 2 ^ 48
    then (Config.mac0 % 2 ^ 48 + 1) % 2 ^ 48 else Config.mac1 % 2 ^ 48 := rfl
  rw [hlow, hhigh]
  split
  · omega
  · next h => exact fun he => h (beq_iff_eq.mpr he.symm)

/-- Settles O31: a message is taken by the checks in their order; the first of them that applies says what it does. -/
theorem ethernetMessagesAreServed : Obligations.EthernetMessagesAreServed := by
  refine ⟨fun t port src dst sport d s => exec_mailboxDatagram_tooLong,
    fun t port src dst sport d s hserves hmac => ⟨fun hlease => ?_, fun hlease hsrc => ?_, fun hlease hsrc hdst => ?_⟩,
    fun t port src dst id hlen off last bytes s => exec_ipv4Fragment_first, fun t s => rfl,
    fun t port a s => ⟨exec_arpRequest_mine, exec_arpRequest_closed⟩,
    fun t port src dst data s => ⟨exec_icmpEcho_mine, exec_icmpEcho_other⟩, fun t s => exec_gratuitousArpSecond,
    portMac_ne⟩
  · exact (exec_mailboxDatagram hmac).trans (congrArg _ (datagramRx_noLease hserves hlease))
  · exact (exec_mailboxDatagram hmac).trans (congrArg _ (datagramRx_unlisted hserves hlease hsrc))
  · exact (exec_mailboxDatagram hmac).trans (congrArg _ (datagramRx_taken hserves hlease hsrc hdst))

end Sys2Proof.Machine
end


section
/-! The window of points and the directory. -/
namespace Sys2Proof.Machine

/-! ### Points and a count of reserved bits (R4, R98 to R103) -/

section
variable (s : State) (m a w : Nat)

theorem isStack_countRsvd : isStack (countRsvd s m a w) = isStack s := by
  rw [isStack, State.flag, fget_countRsvd _ _ _ _ (by decide), isStack, State.flag]

theorem devState_countRsvd : devState (countRsvd s m a w) = devState s := fget_countRsvd _ _ _ _ (by decide)

theorem dirEnt_countRsvd : dirEnt (countRsvd s m a w) = dirEnt s := by
  funext e
  rw [dirEnt, isStack_countRsvd, countRsvd_grist, dirEnt]

theorem slotEnt_countRsvd (k : Nat) : slotEnt (countRsvd s m a w) k = slotEnt s k := congrFun (dirEnt_countRsvd s m a w) _

theorem slotValid_countRsvd (k : Nat) : slotValid (countRsvd s m a w) k = slotValid s k := by
  rw [slotValid, ptSlots, isStack_countRsvd, dirEnt_countRsvd, slotValid, ptSlots]

theorem dirCheck_countRsvd (e x : Nat) : dirCheck (countRsvd s m a w) e x = dirCheck s e x := by
  have hlen (c : Nat) : chainLen (countRsvd s m a w) c = chainLen s c := by
    rw [chainLen, cfgOf, countRsvd_sys, chainLen, cfgOf]
  have hload (y : Nat) : cellLoadOk (countRsvd s m a w) e y = cellLoadOk s e y := by
    unfold cellLoadOk
    rw [dirEnt_countRsvd]
  have hbusy : structBusy (countRsvd s m a w) = structBusy s := by
    rw [structBusy, inService, isStack_countRsvd, devState_countRsvd, structBusy, inService]
  unfold dirCheck
  rw [isStack_countRsvd, dirEnt_countRsvd, hbusy, countRsvd_grist]
  simp only [hlen, hload]

end

/-! ### Refusals (R67, R100) -/

section
variable {s : State} {m p : Nat} {st : Status}

/-- The registers of the point space's refusals. -/
def ptErrRegs : List (Fld × Nat) :=
  [(PT_ERR_VALID, 0), (PT_ERR_MULTI, 0), (PT_ERR_MASTER, 0), (PT_ERR_STATUS, 0), (PT_ERRPT_POINT, 0)]

theorem ptErr_frame (s : State) (m : Nat) (st : Status) (p : Nat) : s.SameRegsBut (ptErr s m st p) ptErrRegs :=
  recErr_frame _ _ _ _

theorem ptErr_mem (s : State) (m : Nat) (st : Status) (p : Nat) : (ptErr s m st p).mem = s.mem := recErr_mem _ _ _ _

theorem ptErr_grist (s : State) (m : Nat) (st : Status) (p : Nat) : (ptErr s m st p).grist = s.grist := by
  unfold ptErr recErr
  split <;> rfl

theorem fget_ptErr_valid : (ptErr s m st p).fget PT_ERR_VALID = 1 := by
  by_cases h : s.fget PT_ERR_VALID = 1
  · rw [ptErr, recErr_again h, fget_fset_far _ _ (by decide) (by decide) (by decide), h]
  · rw [ptErr, recErr_first h]
    simp (disch := decide) only [fsets_cons, fsets_nil, fget_fset_far, fget_fset_same]
    rfl

theorem fget_ptErr_status (h : s.fget PT_ERR_VALID = 0) : (ptErr s m st p).fget PT_ERR_STATUS = st.code := by
  rw [ptErr, recErr_first (by rw [h]; decide)]
  simp (disch := decide) only [fsets_cons, fsets_nil, fget_fset_far, fget_fset_same]
  exact Nat.mod_eq_of_lt st.code_lt

theorem eccStored_grist (s : State) (mem word : Nat) : (eccStored s mem word).grist = s.grist := by
  unfold eccStored
  dsimp only
  split <;> rfl

theorem jnlAdd_grist (s : State) (m kind st addr old new : Nat) : (jnlAdd s m kind st addr old new).grist = s.grist := by
  rw [jnlAdd_eq, jnlCounted_regs]
  exact eccStored_grist ..

/-- What a write that the point space refuses with the status `st` leaves, where `g` is the grist at the refusal. -/
structure PointRefusal (s : State) (st : Status) (g : GristSt) (u : State) : Prop where
  valid : u.fget PT_ERR_VALID = 1
  status : s.fget PT_ERR_VALID = 0 → u.fget PT_ERR_STATUS = st.code
  grist : u.grist = g
  mem : s.SameMem u
  regs : s.SameRegsBut u [(PT_ERR_VALID, 0), (PT_ERR_MULTI, 0), (PT_ERR_MASTER, 0), (PT_ERR_STATUS, 0),
    (PT_ERRPT_POINT, 0), (SYS_ERRCNT_RSVD, 0), (ACC_JNLHEAD_HEAD, 0), (ACC_JNLCNT_LOST, 0), (ACC_JNLCNT_UNREAD, 0),
    (SEC_EINJ_ARM, 0)]

/-- A write whose register records the refusal in PT_ERR: `b` differs from the counted state in its grist alone. -/
theorem rowWrite_ptErr {m : Master} {a q : Nat} {w : Word} {c : Bool} {eff : State → Status × State} {b : State}
    (h : s.MayWrite m a w.toNat c) (hst : st ≠ .ok) (hregs : b.regs = (countRsvd s m a w.toNat).regs)
    (hmem : b.mem = s.mem) (heff : eff (countRsvd s m a w.toNat) = (st, ptErr b m st q)) :
    PointRefusal s st b.grist (rowWrite s m a w c eff) := by
  obtain ⟨hnoted, hnotedMem⟩ := rowWrite_frame eff h
  rw [heff] at hnoted hnotedMem
  have hold (G : Fld) (hG : 40 < G.addr) : b.fget G = s.fget G :=
    (fget_congr hregs G 0).trans (countRsvd_fget _ _ _ _ 0 hG)
  have hcount : s.SameRegsBut b [(SYS_ERRCNT_RSVD, 0)] :=
    sameRegs_trans (countRsvd_frame _ _ _ _) (sameRegs_of_regs _ hregs)
  refine ⟨?_, fun hv => ?_, ?_, sameMem_of_mem (hnotedMem.trans ((ptErr_mem ..).trans hmem)), ?_⟩
  · rw [sameRegs_fget hnoted _ _ (by decide) (by decide)]
    exact fget_ptErr_valid
  · rw [sameRegs_fget hnoted _ _ (by decide) (by decide)]
    exact fget_ptErr_status ((hold PT_ERR_VALID (by decide)).trans hv)
  · rw [rowWrite_bad h hst heff, State.notedBad]
    split
    · exact (jnlAdd_grist ..).trans (ptErr_grist ..)
    · exact ptErr_grist ..
  · refine sameRegs_trans (sameRegs_mono hcount (by simp)) (sameRegs_trans (sameRegs_mono (ptErr_frame _ _ _ _) ?_)
      (sameRegs_mono hnoted ?_))
    · simp [ptErrRegs]
    · simp [jnlRegs]

end

/-! ### The addresses of the window (R98 to R100)

The kernel would unfold the subtraction of a long numeral in `winSlot`: a function of the window is unfolded with `winSlot` a
variable, and an address is known by its slot and its word alone. -/

section
variable {s : State} {k i a m w : Nat}

theorem winAddr_word (k : Nat) (hi : i < 4) : winAddr k i % 16 / 4 = i := by
  unfold winAddr
  omega

theorem winSlot_winAddr (s : State) (hk : k < 262144) (hi : i < 4) :
    winSlot s (winAddr k i) = if k < ptSlots s then some k else none := by
  have hslot : (winAddr k i - 0x01000000) / 16 = k := by
    unfold winAddr
    omega
  exact congrArg (fun j => if j < ptSlots s then some j else none) hslot

theorem lt_ptSlots_of_valid (hv : slotValid s k = true) : k < ptSlots s := by
  rw [slotValid, Bool.and_eq_true, decide_eq_true_eq] at hv
  exact hv.1

theorem winSlot_of_valid (hv : slotValid s k = true) (hk : k < 262144) (hi : i < 4) :
    winSlot s (winAddr k i) = some k := by
  rw [winSlot_winAddr s hk hi, if_pos (lt_ptSlots_of_valid hv)]

/-- An address of the window reaches its slot or, in a cell, no slot. -/
theorem winSlot_cases (s : State) (hk : k < 262144) (hi : i < 4) :
    winSlot s (winAddr k i) = some k ∨ winSlot s (winAddr k i) = none := by
  rw [winSlot_winAddr s hk hi]
  split
  · exact .inl rfl
  · exact .inr rfl

/-! ### Reads of word 0 (R106) -/

theorem winVal_word0 (hslot : winSlot s a = some k) (hword : a % 16 / 4 = 0) (hv : slotValid s k = true) :
    winVal s m a = recW s k 0 := by
  have e : winVal = winVal := rfl
  conv_rhs at e => delta winVal
  generalize winSlot = slot at e hslot
  rw [congrFun (congrFun (congrFun e s) m) a]
  simp [hslot, hword, hv]

/-- The latch that a read of word 0 takes of a record. -/
def pointLatch (s : State) (k : Nat) : PtLatch := { slot := k, hi := recW s k 1, tag := recW s k 2, ctl := recW s k 3 }

theorem winRead_word0 (hecc : s.sec.ecc = []) (hslot : winSlot s a = some k) (hword : a % 16 / 4 = 0)
    (hv : slotValid s k = true) : winRead s m a =
      (recW s k 0, { s with grist.latch := smSet none s.grist.latch m (some (pointLatch s k)) }) := by
  have hval : winVal s m a = recW s k 0 := winVal_word0 hslot hword hv
  have e : winRead = winRead := rfl
  conv_rhs at e => delta winRead
  generalize winSlot = slot at e hslot
  rw [congrFun (congrFun (congrFun e s) m) a]
  simp [hslot, hword, eccRead_clean hecc, hv, hval, pointLatch]

/-- A read of a word of a point that does not exist. -/
theorem winRead_invalid (hecc : s.sec.ecc = []) (hslot : winSlot s a = some k ∨ winSlot s a = none)
    (hv : slotValid s k = false) : ∃ p, winRead s m a = (0, ptErr s m .range p) := by
  have e : winRead = winRead := rfl
  conv_rhs at e => delta winRead
  generalize winSlot = slot at e hslot
  rw [congrFun (congrFun (congrFun e s) m) a]
  rcases hslot with hslot | hslot
  · exact ⟨ptOfSlot s k, by simp [hslot, eccRead_clean hecc, hv]⟩
  · rw [hslot]
    exact ⟨_, rfl⟩

/-! ### Writes (R102, R107, R108) -/

/-- The extension of a 32-bit value to word 1 by its directory entry; a 64-bit point has none. -/
def pointExt (e w : Nat) : Option Nat := if ty64 (dType e) then none else some (extendPt (dType e) w)

/-- The word 1 that a write of word 0 goes with: the staged one of this point, or the extension. -/
def pointHi (e k w : Nat) : Option (Nat × Nat) → Option Nat
  | some (k', h) => if k' = k then some h else pointExt e w
  | none => pointExt e w

theorem pointHi_staged (e k w h : Nat) : pointHi e k w (some (k, h)) = some h := if_pos rfl

theorem pointHi_unstaged {e : Nat} {staged : Option (Nat × Nat)} (hst : ∀ h, staged ≠ some (k, h)) :
    pointHi e k w staged = pointExt e w := by
  cases staged with
  | none => rfl
  | some x => exact if_neg fun hx => hst x.2 (by rw [← hx])

/-- The write of a point's value whose word 1 is known, and the refusal where it is not. -/
def pointPut (s : State) (m k w : Nat) : Option Nat → Status × State
  | none => (.conflict, ptErr s m .conflict (ptOfSlot s k))
  | some h =>
    if !srcTakes (dSrc (slotEnt s k)) m then (.conflict, ptErr s m .conflict (ptOfSlot s k))
    else (.ok, ptWrite s k (w + h * 2 ^ 32) false (if dSrc (slotEnt s k) == SRC_REF then W_DIRECT m else W_OWN))

/-- The state without the master's staged word. -/
def unstaged (s : State) (m : Nat) : State := { s with grist.stage := smSet none s.grist.stage m none }

/-- The state in which a write of a window word looks for its point: a write of word 0 has cleared the staged word. -/
def pointStart (s : State) (m a : Nat) : State := if a % 16 / 4 == 0 then unstaged s m else s

theorem pointStart_word0 (hword : a % 16 / 4 = 0) : pointStart s m a = unstaged s m := if_pos (by rw [hword]; rfl)

theorem pointStart_word1 (hword : a % 16 / 4 = 1) : pointStart s m a = s := if_neg (by rw [hword]; decide)

theorem slotEnt_unstaged (s : State) (m k : Nat) : slotEnt (unstaged s m) k = slotEnt s k := rfl

theorem slotValid_unstaged (s : State) (m k : Nat) : slotValid (unstaged s m) k = slotValid s k := by
  have hrole : isStack (unstaged s m) = isStack s := rfl
  have hent : dirEnt (unstaged s m) (k / 16) = dirEnt s (k / 16) := rfl
  rw [slotValid, ptSlots, hrole, hent, slotValid, ptSlots]

section
variable {b : State} (hb : pointStart s m a = b) (hecc : b.sec.ecc = [])
include hb hecc

theorem winWrite_word0 (hslot : winSlot b a = some k) (hword : a % 16 / 4 = 0) (hv : slotValid b k = true) :
    winWrite m a w s = pointPut b m k w (pointHi (slotEnt b k) k w (smGet none s.grist.stage m)) := by
  have e : winWrite = winWrite := rfl
  conv_rhs at e => delta winWrite
  generalize winSlot = slot at e hslot
  rw [congrFun (congrFun (congrFun (congrFun e m) a) w) s]
  unfold pointStart unstaged at hb
  rw [hb]
  simp only [hslot, hword, eccRead_clean hecc, hv]
  rfl

theorem winWrite_word1 (hslot : winSlot b a = some k) (hword : a % 16 / 4 = 1) (hv : slotValid b k = true) :
    winWrite m a w s = (.ok, { b with grist.stage := smSet none b.grist.stage m (some (k, w)) }) := by
  have e : winWrite = winWrite := rfl
  conv_rhs at e => delta winWrite
  generalize winSlot = slot at e hslot
  rw [congrFun (congrFun (congrFun (congrFun e m) a) w) s]
  unfold pointStart unstaged at hb
  rw [hb]
  simp [hword, hslot, eccRead_clean hecc, hv]

/-- A write of a word of a point that does not exist. -/
theorem winWrite_invalid (hslot : winSlot b a = some k ∨ winSlot b a = none) (hv : slotValid b k = false) :
    ∃ p, winWrite m a w s = (.range, ptErr b m .range p) := by
  have e : winWrite = winWrite := rfl
  conv_rhs at e => delta winWrite
  generalize winSlot = slot at e hslot
  rw [congrFun (congrFun (congrFun (congrFun e m) a) w) s]
  unfold pointStart unstaged at hb
  rw [hb]
  rcases hslot with hslot | hslot
  · exact ⟨ptOfSlot b k, by simp [hslot, eccRead_clean hecc, hv]⟩
  · exact ⟨(a - 0x01000000) / 16, by simp only [hslot]⟩

end

/-! ### The commands of the window -/

theorem exec_pointWord0Read {m : Master} (h : s.MayRead m (winAddr k 0)) (hk : k < 262144) (hv : slotValid s k = true)
    (hecc : s.sec.ecc = []) : exec (.pointWord0Read m k) s = .next { s with
      grist.latch := smSet none s.grist.latch m (some (pointLatch s k)), rdata := smSet 0 s.rdata m (recW s k 0) } :=
  congrArg Host.Outcome.next (readAccess_ok (rd := fun s => winRead s m (winAddr k 0)) h
    (winRead_word0 hecc (winSlot_of_valid hv hk (by decide)) (winAddr_word k (by decide)) hv))

theorem exec_pointWord0Read_invalid {m : Master} (h : s.MayRead m (winAddr k 0)) (hk : k < 262144)
    (hv : slotValid s k = false) (hecc : s.sec.ecc = []) : ∃ p, exec (.pointWord0Read m k) s =
      .next { ptErr s m .range p with rdata := smSet 0 (ptErr s m .range p).rdata m 0 } := by
  obtain ⟨p, hp⟩ := winRead_invalid (m := m) hecc (winSlot_cases (i := 0) s hk (by decide)) hv
  exact ⟨p, congrArg Host.Outcome.next (readAccess_ok (rd := fun s => winRead s m (winAddr k 0)) h hp)⟩

section
variable {m : Master} {w : Word}

/-- A write of word 1 of a point that exists. -/
theorem exec_pointWord1Write (h : s.MayWrite m (winAddr k 1) w.toNat false) (hk : k < 262144)
    (hv : slotValid s k = true) (hecc : s.sec.ecc = []) :
    let b := countRsvd s m (winAddr k 1) w.toNat
    exec (.pointWord1Write m k w) s = .next (s.noted m (winAddr k 1) w.toNat
      { b with grist.stage := smSet none b.grist.stage m (some (k, w.toNat)) }) := by
  intro b
  have hb : slotValid b k = true := (slotValid_countRsvd ..).trans hv
  have hclean : b.sec.ecc = [] := (congrArg SecSt.ecc (countRsvd_sec ..)).trans hecc
  have hword : winAddr k 1 % 16 / 4 = 1 := winAddr_word k (by decide)
  exact congrArg Host.Outcome.next (rowWrite_ok h
    (winWrite_word1 (pointStart_word1 hword) hclean (winSlot_of_valid hb hk (by decide)) hword hb))

theorem exec_pointWord1Write_invalid (h : s.MayWrite m (winAddr k 1) w.toNat false) (hk : k < 262144)
    (hv : slotValid s k = false) (hecc : s.sec.ecc = []) :
    ∃ u, exec (.pointWord1Write m k w) s = .next u ∧ PointRefusal s .range s.grist u := by
  have hb : slotValid (countRsvd s m (winAddr k 1) w.toNat) k = false := (slotValid_countRsvd ..).trans hv
  have hclean : (countRsvd s m (winAddr k 1) w.toNat).sec.ecc = [] :=
    (congrArg SecSt.ecc (countRsvd_sec ..)).trans hecc
  obtain ⟨p, hp⟩ := winWrite_invalid (w := w.toNat) (pointStart_word1 (m := m) (winAddr_word k (by decide))) hclean
    (winSlot_cases _ hk (by decide)) hb
  have hrefused := rowWrite_ptErr h (by decide) rfl (countRsvd_mem ..) hp
  rw [countRsvd_grist] at hrefused
  exact ⟨_, rfl, hrefused⟩

section
variable (hk : k < 262144) (hecc : s.sec.ecc = [])
include hk hecc

/-- What word 0 of a point that exists is written with. -/
theorem winWrite_word0_counted (hv : slotValid s k = true) :
    let b := unstaged (countRsvd s m (winAddr k 0) w.toNat) m
    winWrite m (winAddr k 0) w.toNat (countRsvd s m (winAddr k 0) w.toNat) =
      pointPut b m k w.toNat (pointHi (slotEnt s k) k w.toNat (smGet none s.grist.stage m)) := by
  intro b
  have hb : slotValid b k = true := (slotValid_unstaged ..).trans ((slotValid_countRsvd ..).trans hv)
  have hclean : b.sec.ecc = [] := (congrArg SecSt.ecc (countRsvd_sec ..)).trans hecc
  have hword : winAddr k 0 % 16 / 4 = 0 := winAddr_word k (by decide)
  have hput := winWrite_word0 (w := w.toNat) (pointStart_word0 hword) hclean (winSlot_of_valid hb hk (by decide)) hword hb
  rwa [countRsvd_grist, slotEnt_unstaged, slotEnt_countRsvd] at hput

variable (h : s.MayWrite m (winAddr k 0) w.toNat false)
include h

/-- A write of word 0 that finds its word 1, by a writer that the point takes. -/
theorem exec_pointWord0Write {hi : Nat} (hv : slotValid s k = true) (htakes : srcTakes (dSrc (slotEnt s k)) m = true)
    (hhi : pointHi (slotEnt s k) k w.toNat (smGet none s.grist.stage m) = some hi) :
    let b := countRsvd s m (winAddr k 0) w.toNat
    exec (.pointWord0Write m k w) s = .next (s.noted m (winAddr k 0) w.toNat
      (ptWrite { b with grist.stage := smSet none b.grist.stage m none } k (w.toNat + hi * 2 ^ 32) false
        (if dSrc (slotEnt s k) = SRC_REF then W_DIRECT m else W_OWN))) := by
  intro b
  have heff := winWrite_word0_counted (m := m) (w := w) hk hecc hv
  rw [hhi] at heff
  simp only [pointPut, slotEnt_unstaged, slotEnt_countRsvd, htakes, Bool.not_true, Bool.false_eq_true, if_false,
    beq_iff_eq] at heff
  exact congrArg Host.Outcome.next (rowWrite_ok h heff)

/-- A write of word 0 of a point that does not exist, that does not take the writer, or that lacks its word 1. -/
theorem exec_pointWord0Write_refused (hbad : slotValid s k = false ∨ srcTakes (dSrc (slotEnt s k)) m = false ∨
      pointHi (slotEnt s k) k w.toNat (smGet none s.grist.stage m) = none) :
    ∃ u, exec (.pointWord0Write m k w) s = .next u ∧ PointRefusal s (if slotValid s k then .conflict else .range)
      { s.grist with stage := smSet none s.grist.stage m none } u := by
  have hgrist : (unstaged (countRsvd s m (winAddr k 0) w.toNat) m).grist =
      { s.grist with stage := smSet none s.grist.stage m none } := by
    rw [unstaged, countRsvd_grist]
  suffices hrefuse : ∃ p, winWrite m (winAddr k 0) w.toNat (countRsvd s m (winAddr k 0) w.toNat) =
      (if slotValid s k then .conflict else .range, ptErr (unstaged (countRsvd s m (winAddr k 0) w.toNat) m) m
        (if slotValid s k then .conflict else .range) p) by
    obtain ⟨p, hp⟩ := hrefuse
    rw [← hgrist]
    exact ⟨_, rfl, rowWrite_ptErr h (by split <;> decide) rfl (countRsvd_mem ..) hp⟩
  cases hv : slotValid s k with
  | false =>
    have hb : slotValid (unstaged (countRsvd s m (winAddr k 0) w.toNat) m) k = false :=
      (slotValid_unstaged ..).trans ((slotValid_countRsvd ..).trans hv)
    exact winWrite_invalid (pointStart_word0 (winAddr_word k (by decide))) ((congrArg SecSt.ecc (countRsvd_sec ..)).trans hecc)
      (winSlot_cases _ hk (by decide)) hb
  | true =>
    refine ⟨ptOfSlot (unstaged (countRsvd s m (winAddr k 0) w.toNat) m) k, ?_⟩
    rw [winWrite_word0_counted hk hecc hv]
    cases hhi : pointHi (slotEnt s k) k w.toNat (smGet none s.grist.stage m) with
    | none => rfl
    | some hi =>
      have htakes : srcTakes (dSrc (slotEnt (unstaged (countRsvd s m (winAddr k 0) w.toNat) m) k)) m = false := by
        rw [slotEnt_unstaged, slotEnt_countRsvd]
        simpa [hv, hhi] using hbad
      rw [pointPut, htakes]
      rfl

end

end

end

/-! ### The directory's registers (R101 to R103) -/

section
variable {s : State} {m w : Nat}

theorem dirctlEff_read (hread : bit w 0 = true) (hwrite : bit w 1 = false) (hecc : s.sec.ecc = []) :
    dirctlEff m w s = (.ok, s.fsets [(PT_DIRLO_WORD, m, dirEnt s (s.fget PT_DIRIDX_IDX m) % 2 ^ 32),
      (PT_DIRHI_WORD, m, dirEnt s (s.fget PT_DIRIDX_IDX m) / 2 ^ 32)]) := by
  simp [dirctlEff, hread, hwrite, eccRead_clean hecc]

/-- The entry that a master has put into its PT_DIRHI and PT_DIRLO. -/
def dirWord (s : State) (m : Nat) : Nat := s.fget PT_DIRHI_WORD m * 2 ^ 32 + s.fget PT_DIRLO_WORD m

theorem dirctlEff_dirWrite (hwrite : bit w 1 = true) (hread : bit w 0 = false) :
    dirctlEff m w s = dirWrite s m (s.fget PT_DIRIDX_IDX m) (dirWord s m) := by
  simp [dirctlEff, hread, hwrite, dirWord]

theorem dirctlEff_write (hwrite : bit w 1 = true) (hread : bit w 0 = false)
    (hok : dirCheck s (s.fget PT_DIRIDX_IDX m) (dirWord s m) = .ok) :
    dirctlEff m w s = (.ok, putEntry s m (s.fget PT_DIRIDX_IDX m) (dirWord s m)) := by
  rw [dirctlEff_dirWrite hwrite hread, dirWrite, hok]
  rfl

/-- The status of a write of PT_DIRCTL that writes the entry. -/
def dirctlStatus (s : State) (m w : Nat) : Status :=
  if bit w 0 then .conflict else dirCheck s (s.fget PT_DIRIDX_IDX m) (dirWord s m)

theorem dirctlEff_refused (hwrite : bit w 1 = true) (hbad : dirctlStatus s m w ≠ .ok) :
    dirctlEff m w s = (dirctlStatus s m w, ptErr s m (dirctlStatus s m w) (16 * s.fget PT_DIRIDX_IDX m)) := by
  cases hread : bit w 0 with
  | true => simp [dirctlEff, dirctlStatus, hread, hwrite]
  | false =>
    rw [dirctlStatus, hread, if_neg (by decide)] at hbad ⊢
    rw [dirctlEff_dirWrite hwrite hread, dirWrite]
    exact if_neg (mt beq_iff_eq.mp hbad)

end

theorem dirWord_countRsvd (s : State) (m a w n : Nat) : dirWord (countRsvd s m a w) n = dirWord s n := by
  rw [dirWord, countRsvd_fget _ _ _ _ _ (by decide), countRsvd_fget _ _ _ _ _ (by decide), dirWord]

section
variable {s : State} {m : Master} {w : Word} (h : s.MayWrite m 0x18000c w.toNat false)
include h

theorem exec_dirRead (hecc : s.sec.ecc = []) (hread : bit w.toNat 0 = true) (hwrite : bit w.toNat 1 = false) :
    exec (.dirRead m w) s = .next (s.noted m 0x18000c w.toNat ((countRsvd s m 0x18000c w.toNat).fsets
      [(PT_DIRLO_WORD, m, dirEnt s (s.fget PT_DIRIDX_IDX m) % 2 ^ 32),
        (PT_DIRHI_WORD, m, dirEnt s (s.fget PT_DIRIDX_IDX m) / 2 ^ 32)])) := by
  have heff := dirctlEff_read (m := m) hread hwrite
    (show (countRsvd s m 0x18000c w.toNat).sec.ecc = [] from (congrArg SecSt.ecc (countRsvd_sec ..)).trans hecc)
  rw [dirEnt_countRsvd, countRsvd_fget _ _ _ _ _ (by decide)] at heff
  exact congrArg Host.Outcome.next (rowWrite_ok h heff)

theorem exec_dirWrite (hwrite : bit w.toNat 1 = true) (hread : bit w.toNat 0 = false)
    (hok : dirCheck s (s.fget PT_DIRIDX_IDX m) (dirWord s m) = .ok) :
    exec (.dirWrite m w) s = .next (s.noted m 0x18000c w.toNat
      (putEntry (countRsvd s m 0x18000c w.toNat) m (s.fget PT_DIRIDX_IDX m) (dirWord s m))) := by
  have heff := dirctlEff_write (s := countRsvd s m 0x18000c w.toNat) (m := m) hwrite hread
    (by rwa [dirCheck_countRsvd, dirWord_countRsvd, countRsvd_fget _ _ _ _ _ (by decide)])
  rw [dirWord_countRsvd, countRsvd_fget _ _ _ _ _ (by decide)] at heff
  exact congrArg Host.Outcome.next (rowWrite_ok h heff)

theorem exec_dirWrite_refused (hwrite : bit w.toNat 1 = true) (hbad : dirctlStatus s m w.toNat ≠ .ok) :
    ∃ u, exec (.dirWrite m w) s = .next u ∧ PointRefusal s (dirctlStatus s m w.toNat) s.grist u := by
  have hstatus : dirctlStatus (countRsvd s m 0x18000c w.toNat) m w.toNat = dirctlStatus s m w.toNat := by
    rw [dirctlStatus, dirCheck_countRsvd, dirWord_countRsvd, countRsvd_fget _ _ _ _ _ (by decide), dirctlStatus]
  have heff := dirctlEff_refused (s := countRsvd s m 0x18000c w.toNat) (m := m) hwrite (by rwa [hstatus])
  rw [hstatus] at heff
  have hrefused := rowWrite_ptErr h hbad rfl (countRsvd_mem ..) heff
  rw [countRsvd_grist] at hrefused
  exact ⟨_, rfl, hrefused⟩

end

/-- Settles O34: the window's commands by the lemma of the case that the access falls under, and DIR_READ and DIR_WRITE as
the one write of PT_DIRCTL that both are. -/
theorem pointWindowAccesses : Obligations.PointWindowAccesses := by
  refine ⟨fun m k s h hk hv hecc => exec_pointWord0Read h hk hv hecc, fun m k s h hk hv hecc => ?_,
    fun m k w s h hk hv hecc => exec_pointWord1Write h hk hv hecc, fun m k hi w s h hk hv hecc htakes hst => ?_,
    fun m k w s h hk hv hecc htakes hst hty => ?_, fun m k w s h hk hecc hbad => ?_, fun m k w s h hk hv hecc => ?_,
    fun m w s h hecc => ⟨exec_dirRead h hecc, exec_dirWrite h, fun hwrite hbad => ?_, rfl⟩⟩
  · obtain ⟨p, hp⟩ := exec_pointWord0Read_invalid h hk hv hecc
    have hread : smGet 0 (smSet 0 (ptErr s m .range p).rdata m 0) m = 0 := by rw [smGet_set_same]
    exact ⟨_, hp, fget_ptErr_valid, hread, fget_ptErr_status, ptErr_grist .., sameMem_of_mem (ptErr_mem ..)⟩
  · exact exec_pointWord0Write hk hecc h hv htakes (by rw [hst, pointHi_staged])
  · exact exec_pointWord0Write hk hecc h hv htakes (by rw [pointHi_unstaged hst, pointExt, hty]; rfl)
  · have hbad : slotValid s k = false ∨ srcTakes (dSrc (slotEnt s k)) m = false ∨
        pointHi (slotEnt s k) k w.toNat (smGet none s.grist.stage m) = none :=
      hbad.imp_right (Or.imp_right fun ⟨hst, hty⟩ => by rw [pointHi_unstaged hst, pointExt, if_pos hty])
    obtain ⟨u, hu, hrefused⟩ := exec_pointWord0Write_refused hk hecc h hbad
    refine ⟨u, hu, hrefused.valid, fun hfirst => ?_, ?_, hrefused.mem, hrefused.regs⟩
    · rw [hrefused.status hfirst]
      split <;> rfl
    · rw [hrefused.grist]
      dsimp only
      rw [smGet_set_same]
  · obtain ⟨u, hu, hrefused⟩ := exec_pointWord1Write_invalid h hk hv hecc
    exact ⟨u, hu, hrefused.valid, hrefused.status, hrefused.grist, hrefused.mem⟩
  · have hst : dirctlStatus s m w.toNat ≠ .ok := by
      unfold dirctlStatus
      split
      · decide
      · next hread => exact hbad.resolve_left hread
    obtain ⟨u, hu, hrefused⟩ := exec_dirWrite_refused h hwrite hst
    exact ⟨u, hu, hrefused.valid, hrefused.grist, hrefused.status⟩

end Sys2Proof.Machine
end


section
/-! What an event of the faults and of the capture engine leaves alone: the component `sys`, which holds the phase of the
device and whether its processor is halted. A reaction to a memory error runs through all of them (R148, R379). -/
namespace Sys2Proof.Machine

theorem foldl_sys {α : Type} {f : State → α → State} (hf : ∀ u x, (f u x).sys = u.sys) (l : List α) (s : State) :
    (l.foldl f s).sys = s.sys := by
  induction l generalizing s with
  | nil => rfl
  | cons x l ih => exact (ih _).trans (hf _ _)

theorem ite_sys {c : Prop} [Decidable c] {a b u : State} (ha : a.sys = u.sys) (hb : b.sys = u.sys) :
    (if c then a else b).sys = u.sys := by
  split <;> assumption

/-! ### Registers and memory words -/

@[simp] theorem recErr_sys (s : State) (V M : Fld) (sets : List (Fld × Nat × Nat)) : (recErr s V M sets).sys = s.sys :=
  ite_sys rfl (State.fsets_sys _ _)

@[simp] theorem eccStored_sys (s : State) (mem word : Nat) : (eccStored s mem word).sys = s.sys :=
  ite_sys rfl rfl

@[simp] theorem eccCorr_sys (s : State) (mem : Nat) : (eccCorr s mem).sys = s.sys :=
  ite_sys rfl (ite_sys rfl rfl)

@[simp] theorem eccUncorr_sys (s : State) (mem word : Nat) : (eccUncorr s mem word).sys = s.sys := by
  unfold eccUncorr
  extract_lets s₁ s₂ put s₃
  have h₂ : s₂.sys = s.sys := ite_sys rfl (ite_sys rfl rfl)
  have hput (u : State) : (put u).sys = u.sys := State.fsets_sys _ _
  exact ite_sys ((hput _).trans h₂) (ite_sys ((hput _).trans h₂) h₂)

/-! ### The records of the capture engine (Chapter 14) -/

@[simp] theorem recPut_sys (r : CapRec) (ws : List Nat) (off : Nat) (s : State) : (recPut r ws off s).sys = s.sys := by
  induction ws generalizing off s with
  | nil => rfl
  | cons w ws ih => exact (ih _ _).trans (State.mwrite_sys _ _ _ _)

@[simp] theorem caskBad_sys (s : State) (word : Nat) : (caskBad s word).sys = s.sys := by
  unfold caskBad
  dsimp only
  rw [eccStored_sys]
  split
  · rw [foldl_sys fun u j => ite_sys (by simp) rfl, recPut_sys]
  · rfl

@[simp] theorem caskPart_sys (s : State) (word : Nat) : (caskPart s word).sys = s.sys := by
  unfold caskPart
  split <;> simp

@[simp] theorem recWords_sys (r : CapRec) (ws : List Nat) (off : Nat) (s : State) : (recWords r ws off s).sys = s.sys :=
  (recPut_sys ..).trans (foldl_sys caskPart_sys _ _)

@[simp] theorem writeHead_sys (s : State) (r : CapRec) : (writeHead s r).sys = s.sys :=
  (foldl_sys (fun _ _ => recWords_sys ..) _ _).trans (by simp)

@[simp] theorem syncRec_sys (s : State) (r : CapRec) : (syncRec s r).sys = s.sys := by
  unfold syncRec
  exact (foldl_sys (fun _ _ => by simp) _ _).trans rfl

@[simp] theorem closeRec_sys (s : State) (r : CapRec) (e : Nat) : (closeRec s r e).sys = s.sys :=
  (writeHead_sys ..).trans (syncRec_sys ..)

@[simp] theorem closeIfDone_sys (s : State) (r : CapRec) : (closeIfDone s r).sys = s.sys :=
  ite_sys (closeRec_sys ..) (syncRec_sys ..)

@[simp] theorem overflow_sys (s : State) (r : CapRec) (c tag : Nat) : (overflow s r c tag).sys = s.sys :=
  closeRec_sys ..

/-! ### Triggers and samples -/

@[simp] theorem traceOnCapture_sys (s : State) (r : CapRec) : (traceOnCapture s r).sys = s.sys := by
  unfold traceOnCapture
  exact foldl_sys (fun _ _ => ite_sys (by simp [drawBetween, drawFree]) rfl) _ _

@[simp] theorem trigRec_sys (g : Trig) (s : State) (r : CapRec) : (trigRec g s r).sys = s.sys := by
  unfold trigRec
  split
  · rfl
  · exact ite_sys (syncRec_sys ..) rfl
  · exact ite_sys ((traceOnCapture_sys ..).trans (syncRec_sys ..)) rfl

@[simp] theorem deliver_sys (s : State) (now : Nat) : (deliver s now).sys = s.sys :=
  foldl_sys (fun _ g => foldl_sys (trigRec_sys g) _ _) _ _

@[simp] theorem ownTrig_sys (s : State) (cls cause t0 : Nat) (span : Time) (rid : Nat) :
    (ownTrig s cls cause t0 span rid).sys = s.sys := by
  unfold ownTrig
  split
  · rfl
  · dsimp only
    split <;> rfl

@[simp] theorem maskHit_sys (s : State) (r : CapRec) (tag : Nat) : (maskHit s r tag).sys = s.sys :=
  ite_sys rfl (ite_sys (ownTrig_sys ..) rfl)

@[simp] theorem storeSample_sys (s : State) (r : CapRec) (c word tag : Nat) (v : Option Q) :
    (storeSample s r c word tag v).sys = s.sys := by
  unfold storeSample
  refine ite_sys (overflow_sys ..) ?_
  extract_lets _ _ s₁ _ s₂ _ _ _ _ _ _ _ s₃
  have h₁ : s₁.sys = s.sys := foldl_sys caskPart_sys _ _
  have h₂ : s₂.sys = s₁.sys := by simp [s₂]
  have h₃ : s₃.sys = s.sys := (closeIfDone_sys ..).trans (h₂.trans h₁)
  refine ite_sys ?_ h₃
  split
  · exact (maskHit_sys ..).trans h₃
  · exact h₃

@[simp] theorem dmaFetch_sys (s : State) (kind sel word : Nat) (v : Option Q) :
    (dmaFetch s kind sel word v).2.2.sys = s.sys := by
  unfold dmaFetch
  dsimp only
  split
  · rfl
  · exact recErr_sys ..

@[simp] theorem chanFeed_sys (s : State) (kind sel word tag : Nat) (v : Option Q) :
    (chanFeed s kind sel word tag v).sys = s.sys := by
  unfold chanFeed
  refine foldl_sys (fun u r => foldl_sys (fun u c => ?_) _ _) _ _
  split
  · rfl
  · refine ite_sys rfl ?_
    extract_lets _ _ _ _ s₁
    exact ite_sys rfl ((storeSample_sys ..).trans (dmaFetch_sys ..))

@[simp] theorem sendOn_sys (s : State) (l prio : Nat) (f : Frame) : (sendOn s l prio f).sys = s.sys :=
  ite_sys rfl (ite_sys rfl rfl)

@[simp] theorem trigOut_sys (s : State) (e : Nat × Nat × Nat) : (trigOut s e).sys = s.sys := by
  unfold trigOut
  split
  extract_lets _ _ _ _ _ s₁ s₂ s₃
  have h₂ : s₂.sys = s.sys := foldl_sys (fun _ _ => ite_sys (recWords_sys ..) rfl) _ _
  have h₃ : s₃.sys = s.sys := ite_sys ((foldl_sys (fun _ _ => sendOn_sys ..) _ _).trans h₂) h₂
  exact ite_sys h₂ (ite_sys h₃ h₃)

@[simp] theorem capSettle_sys (s : State) : (capSettle s).sys = s.sys := by
  refine ite_sys rfl ((foldl_sys trigOut_sys _ _).trans ((deliver_sys ..).trans ?_))
  exact foldl_sys (fun _ _ => (chanFeed_sys ..).trans (deliver_sys ..)) _ _

@[simp] theorem localTrig_sys (s : State) (cls cause t0 : Nat) (span : Time) :
    (localTrig s cls cause t0 span).sys = s.sys := (capSettle_sys _).trans (ownTrig_sys ..)

/-! ### Fault sources and groups -/

@[simp] theorem syncForced_sys (s : State) : (syncForced s).sys = s.sys := by
  unfold syncForced
  refine foldl_sys (fun u c => ?_) _ _
  dsimp only [State.fset_sys]
  exact ite_sys rfl (ite_sys rfl (ite_sys (a := gdSteady u c) rfl rfl))

theorem captureFault_sys (s : State) (g : Nat) : (captureFault s g).sys = s.sys := localTrig_sys ..

/-- The marks of a latched group: its registers, and its instants in `flt`. -/
theorem groupMarks_sys (s : State) (l : List (Fld × Nat × Nat)) (g : Nat) (flt : FltSt) :
    ({ (s.fsets l).satAdd FLT_GCNT_LATCHES g with flt } : State).sys = s.sys := State.fsets_sys _ _

@[simp] theorem grpLatch_sys (s : State) (g : Nat) : (grpLatch s g).sys = s.sys :=
  (captureFault_sys _ g).trans ((syncForced_sys _).trans (groupMarks_sys ..))

@[simp] theorem grpSee_sys (n : Nat) (stamped : Bool) (s : State) (g : Nat) : (grpSee n stamped s g).sys = s.sys := by
  refine ite_sys (ite_sys (grpLatch_sys ..) (ite_sys ?_ rfl)) rfl
  exact ite_sys rfl (ite_sys rfl (ite_sys rfl rfl))

@[simp] theorem putLive_sys (s : State) (n : Nat) (b : Bool) : (putLive s n b).sys = s.sys := ite_sys rfl rfl

@[simp] theorem putFlag_sys (s : State) (n : Nat) (b : Bool) : (putFlag s n b).sys = s.sys := ite_sys rfl rfl

@[simp] theorem srcRelease_sys (s : State) (n : Nat) : (srcRelease s n).sys = s.sys := ite_sys (putLive_sys ..) rfl

@[simp] theorem pulsesEnd_sys (s : State) : (pulsesEnd s).sys = s.sys := by
  unfold pulsesEnd
  refine foldl_sys (fun u e => ?_) _ _
  exact ite_sys (putLive_sys ..) rfl

@[simp] theorem srcAssertCore_sys (s : State) (n : Nat) : (srcAssertCore s n).sys = s.sys := by
  unfold srcAssertCore
  extract_lets s₁ _ s₂ _ _ s₃
  have h₁ : s₁.sys = s.sys := pulsesEnd_sys s
  have h₂ : s₂.sys = s.sys := (putLive_sys ..).trans h₁
  have h₃ : s₃.sys = s.sys := ite_sys ((putFlag_sys ..).trans h₂) h₂
  exact ite_sys h₁ (ite_sys h₁ ((foldl_sys (grpSee_sys n _) _ _).trans h₃))

/-! ### The entry to SAFE, and a memory fault (R148, R338) -/

@[simp] theorem causedDev_sys (s : State) (st cause : Nat) : (causedDev s st cause).sys = s.sys := ite_sys rfl rfl

@[simp] theorem syncStateSafe_sys (s : State) : (syncStateSafe s).sys = s.sys :=
  ite_sys (ite_sys ((srcRelease_sys ..).trans (srcAssertCore_sys ..)) (srcAssertCore_sys ..)) (srcRelease_sys ..)

@[simp] theorem bypassPulse_sys (s : State) (k : Nat) (byCmd : Bool) : (bypassPulse s k byCmd).sys = s.sys :=
  ite_sys (a := s) rfl rfl

@[simp] theorem enterSafe_sys (s : State) (cause : Nat) : (enterSafe s cause).sys = s.sys := by
  refine ite_sys rfl (ite_sys ?_ (ite_sys (syncStateSafe_sys _) rfl))
  refine (localTrig_sys ..).trans ((syncStateSafe_sys _).trans ?_)
  exact ite_sys ((bypassPulse_sys ..).trans (causedDev_sys ..)) (causedDev_sys ..)

@[simp] theorem srcPulse_sys (s : State) (n : Nat) : (srcPulse s n).sys = s.sys :=
  ite_sys ((enterSafe_sys ..).trans (srcAssertCore_sys ..)) (srcAssertCore_sys ..)

@[simp] theorem stackSafe_sys (s : State) (cause : Nat) : (stackSafe s cause).sys = s.sys :=
  ite_sys rfl (ite_sys (ite_sys rfl rfl) ((localTrig_sys ..).trans (causedDev_sys ..)))

@[simp] theorem memFault_sys (s : State) (src : Nat) : (memFault s src).sys = s.sys :=
  ite_sys ((stackSafe_sys ..).trans (srcPulse_sys ..)) (srcPulse_sys ..)

/-! ### A word of the records (MEM 5, Table 16.1) -/

/-- An uncorrectable record loses its value and is BAD. -/
def recordLost (s : State) (k : Nat) : State :=
  ((s.mwrite (0x01000000 + 16 * k) 4 0).mwrite (0x01000000 + 16 * k + 4) 4 0).mwrite (0x01000000 + 16 * k + 12) 4
    (putBit (s.mread (0x01000000 + 16 * k + 12) 4) 22 true)

theorem eccHandle_records (s : State) (word : Nat) : eccHandle s 5 word =
    memFault (eccStored ([2 * word, 2 * word + 1].foldl recordLost s) 5 word) SRC_GRIST_UE := by
  unfold eccHandle
  rfl

theorem eccHandle_records_sys (s : State) (word : Nat) : (eccHandle s 5 word).sys = s.sys := by
  rw [eccHandle_records, memFault_sys, eccStored_sys, foldl_sys fun u k => by simp [recordLost]]

theorem eccPart_records_sys (s : State) (word : Nat) : (eccPart s 5 word).sys = s.sys := by
  unfold eccPart
  split <;> simp [eccHandle_records_sys]

/-- The close of a fill writes records, and no error in their words reaches the device's phase. -/
theorem fillClose_sys (s : State) : (fillClose s).sys = s.sys := by
  unfold fillClose
  extract_lets _ cells missing s₁ s₂ s₃
  have h₁ : s₁.sys = s.sys := State.fsets_sys _ _
  have h₂ : s₂.sys = s₁.sys := foldl_sys (fun _ _ => State.fset_sys ..) _ _
  have h₃ : s₃.sys = s₂.sys := by
    unfold s₃
    clear_value s₂
    refine foldl_sys (fun u x => ?_) _ _
    refine ite_sys rfl (foldl_sys (fun v i => ?_) _ _)
    refine ite_sys ?_ rfl
    exact (State.mwrite_sys ..).trans (eccPart_records_sys ..)
  exact h₃.trans (h₂.trans h₁)

end Sys2Proof.Machine
end


section
/-! The cycle boundary, the cut and the close of the fill, and TEL frames. -/
namespace Sys2Proof.Machine

variable {t : Time} {s u : State}

/-! ### The boundary (R296) -/

theorem boundAt_le (s : State) (n : Nat) : boundAt s n ≤ n := Nat.sub_le _ _

theorem isStack_syncCycle (s : State) : isStack (syncCycle s) = isStack s := by
  rw [isStack, State.flag, syncCycle, fget_fset_far _ _ (by decide) (by decide) (by decide)]
  rfl

/-- The boundary of the cycle in progress is new and no more than a clock of PD0 old. -/
theorem exec_cycleBoundary (hnew : s.tim.bound < boundAt (s.at t) (netTime (s.at t)))
    (hnow : netTime (s.at t) < boundAt (s.at t) (netTime (s.at t)) + 109227) :
    exec (.cycleBoundary t) s = .next (if isStack s then stackBoundary (syncCycle (s.at t))
      else cellBoundary (syncCycle (s.at t))) := by
  rw [← isStack_at t s, ← isStack_syncCycle]
  refine congrArg Host.Outcome.next (if_neg ?_)
  simp [dueAt, boundAt_le, not_le.mpr hnew, hnow, -boundAt_at]

theorem exec_cycleBoundary_idle (h : boundAt (s.at t) (netTime (s.at t)) ≤ s.tim.bound ∨
    boundAt (s.at t) (netTime (s.at t)) + 109227 ≤ netTime (s.at t)) :
    exec (.cycleBoundary t) s = .next (s.at t) := by
  refine congrArg Host.Outcome.next (if_pos ?_)
  rcases h with h | h <;> simp [dueAt, h, -boundAt_at]

theorem fget_syncCycle (s : State) : (syncCycle s).fget TIM_CYCLE_CYCLE = cycleAt s (netTime s) :=
  (fget_fset_same _ _ _ _).trans (Nat.mod_mod _ _)

/-! ### The fill (R114, R115) -/

/-- The fill of the cycle in progress is over: its offset has passed, in a stack whose PD2 is on. -/
def fillOver (s : State) : Prop :=
  isStack s = true ∧ domOn s 2 = true ∧ s.tim.bound + s.eget PT_FILLCFG_OFS * 65536 ≤ netTime s

theorem exec_fillCutoff (h : fillOver (s.at t)) : exec (.fillCutoff t) s = .next { s.at t with grist.cut := true } := by
  obtain ⟨hstack, hon, hofs⟩ := h
  exact congrArg Host.Outcome.next (if_pos (by simp only [hstack, hon, hofs]; decide))

theorem exec_fillCutoff_idle (h : ¬ fillOver (s.at t)) : exec (.fillCutoff t) s = .next (s.at t) := by
  refine congrArg Host.Outcome.next (if_neg fun hc => h ?_)
  simp only [Bool.and_eq_true, decide_eq_true_eq] at hc
  exact ⟨hc.1.1, hc.1.2, hc.2⟩

theorem exec_fillClose (h : fillOver (s.at t)) (hopen : s.grist.closed = false) (hfw : s.sys.phase = .firmware)
    (hrun : s.sys.halted = false) :
    exec (.fillClose t) s = .next (fillFirmware (fillClose { s.at t with grist.cut := true })) := by
  obtain ⟨hstack, hon, hofs⟩ := h
  have hsys : (fillClose { s.at t with grist.cut := true }).sys = s.sys := fillClose_sys _
  refine congrArg Host.Outcome.next ((if_neg ?_).trans (if_pos ?_))
  · simp only [hstack, hon, State.at_grist, hopen, not_lt.mpr hofs]
    decide
  · rw [hsys, hfw, hrun]
    rfl

theorem exec_fillClose_idle (h : ¬ fillOver (s.at t) ∨ s.grist.closed = true) :
    exec (.fillClose t) s = .next (s.at t) := by
  refine congrArg Host.Outcome.next (if_pos ?_)
  by_contra hc
  simp only [Bool.or_eq_true, not_or, Bool.not_eq_true', Bool.not_eq_false, decide_eq_true_eq, not_lt] at hc
  obtain ⟨⟨⟨hstack, hon⟩, hopen⟩, hofs⟩ := hc
  exact h.elim (fun hover => hover ⟨hstack, hon, hofs⟩) hopen

/-! ### TEL frames (R114, R271, R287) -/

section
variable {l : Lane} {fr : Frame}

/-- What a good TEL frame leaves of its own: its cell's record, its updates and its VOTE word. -/
def telKept (u : State) (l : Lane) (fr : Frame) (v : Nat) : State :=
  voteReport (telArrive (repTime (seenPut u fr) (10 + l.val / 4)) (seenPut u fr) fr) (fr.hdr.chain * 8 + fr.hdr.pos) v

/-- The copies of a chain's frame to the live peers that ask for the chain. -/
def telForwarded (w : State) (l : Lane) (fr : Frame) : State :=
  (livePeers w).foldl (fun x p => match peerLane x p with
    | some k => if bit (lnOf x k).far1 l then sendOn x k 4 { fr with hdr := { fr.hdr with fwd := true } } else x
    | none => x) w

theorem exec_telFrame {b n st ca ap v f : Nat} {us : List Update} (hrx : rxCheck (s.at t) l fr = (true, u))
    (hbody : fr.body = .tel b n st ca ap v f us) (hstack : isStack u = true) :
    exec (.telFrame t l fr) s = .next (if isChainLane (telKept u l fr v) l
      then offerStart (telForwarded (telKept u l fr v) l fr) l (fr.hdr.pos + 1) else telKept u l fr v) := by
  obtain ⟨hdr, body⟩ := fr
  subst hbody
  show execTelFrame t l ⟨hdr, .tel b n st ca ap v f us⟩ s = _
  unfold execTelFrame
  rw [hrx]
  exact congrArg Host.Outcome.next (if_neg (c := (!true || !isStack u) = true) (by rw [hstack]; decide))

theorem exec_telFrame_idle (hrx : rxCheck (s.at t) l fr = (true, u)) (h : isStack u = false ∨ bodyTy fr.body ≠ 2) :
    exec (.telFrame t l fr) s = .next u := by
  show execTelFrame t l fr s = _
  unfold execTelFrame
  rw [hrx]
  cases hbody : fr.body
  case tel =>
    have hcell : isStack u = false := h.resolve_right fun hty => hty (by rw [hbody]; rfl)
    exact congrArg Host.Outcome.next (if_pos (by rw [hcell]; rfl))
  all_goals rfl

theorem exec_telFrame_discarded (hrx : rxCheck (s.at t) l fr = (false, u)) :
    exec (.telFrame t l fr) s = .next u := by
  show execTelFrame t l fr s = _
  unfold execTelFrame
  rw [hrx]
  cases fr.body <;> rfl

end

/-- Settles O35: the boundary and the end of the fill each by their condition, where the close keeps the device's phase
(`fillClose_sys`); a TEL frame by the answer of its checks. -/
theorem theCycleAndItsFill : Obligations.TheCycleAndItsFill := by
  refine ⟨fun t s hnew hnow => ⟨fun hstack => ?_, fun hcell => ?_, fget_syncCycle _, rfl⟩,
    fun t s => exec_cycleBoundary_idle, fun t s hstack hon => ⟨fun hofs => ?_, fun hearly => ?_, fun hclosed => ?_⟩,
    fun t s hoff => ?_, fun t l fr s u b n st ca ap v f us hrx hbody hstack => ?_, fun t l fr s u => exec_telFrame_idle,
    fun t l fr s u => exec_telFrame_discarded⟩
  · rw [exec_cycleBoundary hnew hnow, if_pos hstack]
  · rw [exec_cycleBoundary hnew hnow, hcell]
    rfl
  · have hover : fillOver (s.at t) := ⟨hstack, hon, hofs⟩
    exact ⟨exec_fillCutoff hover, exec_fillClose hover⟩
  · have hnot : ¬ fillOver (s.at t) := fun ⟨_, _, hofs⟩ => absurd hofs (not_le.mpr hearly)
    exact ⟨exec_fillCutoff_idle hnot, exec_fillClose_idle (.inl hnot)⟩
  · exact exec_fillClose_idle (.inr hclosed)
  · have hnot : ¬ fillOver (s.at t) := fun ⟨hstack, hon, _⟩ =>
      hoff.elim (fun hcell => by rw [isStack_at, hcell] at hstack; cases hstack)
        (fun hoff => by rw [domOn_at, hoff] at hon; cases hon)
    exact ⟨exec_fillCutoff_idle hnot, exec_fillClose_idle (.inl hnot)⟩
  · have hexec := exec_telFrame hrx hbody hstack
    intro w ahead forwarded
    exact ⟨fun hchain => hexec.trans (congrArg _ (if_pos hchain)),
      fun hother => hexec.trans (congrArg _ (if_neg (by rw [show isChainLane (telKept u l fr v) l = false from hother]; decide)))⟩

end Sys2Proof.Machine
end


section
/-! The tasks of the mash engine: their starts, their ends and their overruns. -/
namespace Sys2Proof.Machine

variable {t : Time} {s u v : State}

/-! ### A fast execution up to the present (R120, R147) -/

theorem settleFast_of_none (h : s.mash.fast = none) : settleFast s = s := if_pos (by rw [h]; rfl)

theorem settleFast_of_some (h : s.mash.fast.isSome = true) : settleFast s =
    if taskDone (runTask s true (some s.clk)) true then fastFinish (runTask s true (some s.clk))
    else runTask s true (some s.clk) :=
  if_neg (by rw [Option.isNone_iff_eq_none, ← Option.not_isSome_iff_eq_none, not_not]; exact h)

/-- What a fast execution leaves when it ends: the main task goes on from its last item. -/
def fastEnded (s : State) (x : TaskRun) : State :=
  let u := { runTask s true none with mash.fast := none, mash.ovrF := 0 }.fset MASH_STAT_FOVR 0 0
  { u with mash.main := u.mash.main.map (fun m => { m with next := max m.next x.next + m.held, held := 0 }) }

/-- The outlet of the shipped bill's fast task. -/
def fastShipped (v : State) (began : Nat) : Option ShipIn → State
  | some i => shipFast v i began
  | none => v

theorem fastFinish_eq {r x : TaskRun} (hr : s.mash.fast = some r) (hx : (runTask s true none).mash.fast = some x) :
    fastFinish s = runIntake (taskSamples (fastShipped (fastEnded s x) r.began x.ship) true r) false := by
  unfold fastFinish
  rw [hr]
  dsimp only
  rw [hx]
  rfl

/-! ### The start of a task (R120, R129, R153) -/

theorem dueAt_iff {a n : Nat} : dueAt s a n = true ↔ a ≤ netTime s ∧ netTime s < a + n := by
  rw [dueAt, Bool.and_eq_true, decide_eq_true_eq, decide_eq_true_eq]

theorem mainWindow_width (s : State) : (mainWindow s).2 = (mainWindow s).1 + 2 * 65536 :=
  (Nat.add_assoc _ (2 * 65536) (2 * 65536)).symm

theorem mainWindow_cell (h : isStack s = false) :
    (mainWindow s).1 = s.tim.bound + billStart s * 65536 + 2 * 65536 :=
  congrArg (· + 2 * 65536) (if_neg (by rw [h]; decide))

theorem mainWindow_stack (h : isStack s = true) :
    (mainWindow s).1 = max (s.tim.bound + billStart s * 65536) s.grist.closedAt + 2 * 65536 :=
  congrArg (· + 2 * 65536) (if_pos h)

theorem startRead_clean (h : s.sec.ecc = []) (fast : Bool) : startRead s fast = { s with mash.ueNow := false } := by
  have hread : eccReads { s with mash.ueNow := false } [(2, actBank s * bankEcc)] = { s with mash.ueNow := false } :=
    if_pos (by rw [h]; rfl)
  unfold startRead
  rw [hread]
  exact if_neg Bool.false_ne_true

theorem mainStart_alone (h : s.mash.fast = none) : mainStart s = runIntake (startRead { s with
    mash.ranCycle := cycleNow s + 1
    mash.main := some { cyc := cycleNow s, began := netTime s, next := s.clk + 20 * nsT } } false) false := by
  unfold mainStart
  simp only [h]
  rfl

theorem mainStart_held (h : s.mash.fast.isSome = true) : mainStart s = startRead { s with
    mash.ranCycle := cycleNow s + 1
    mash.main := some { cyc := cycleNow s, began := netTime s, next := s.clk, held := 20 * nsT } } false := by
  unfold mainStart
  simp only [h]
  rfl

/-- The main task starts now: once in the cycle, within its window and after the fill. -/
def mainDue (v : State) : Prop :=
  mashRuns v = true ∧ v.mash.main = none ∧ v.mash.ranCycle ≠ cycleNow v + 1 ∧
    (isStack v = true → v.grist.closed = true) ∧ (mainWindow v).1 ≤ netTime v ∧ netTime v < (mainWindow v).2

theorem mainIdle_iff : (!mashRuns v || v.mash.main.isSome || v.mash.ranCycle == cycleNow v + 1 ||
    !dueAt v (mainWindow v).1 ((mainWindow v).2 - (mainWindow v).1) || (isStack v && !v.grist.closed)) = true ↔
    ¬ mainDue v := by
  have hdue : dueAt v (mainWindow v).1 ((mainWindow v).2 - (mainWindow v).1) = true ↔
      (mainWindow v).1 ≤ netTime v ∧ netTime v < (mainWindow v).2 := by
    rw [dueAt_iff, Nat.add_sub_of_le (by rw [mainWindow_width]; exact Nat.le_add_right ..)]
  have hfill : (isStack v && !v.grist.closed) = false ↔ (isStack v = true → v.grist.closed = true) := by
    cases isStack v <;> simp
  rw [mainDue, ← hdue, ← hfill, ← Bool.not_eq_false, not_iff_not]
  simp only [Bool.or_eq_false_iff, Bool.not_eq_false', beq_eq_false_iff_ne, Option.isSome_eq_false_iff,
    Option.isNone_iff_eq_none]
  tauto

theorem exec_mainTaskStart (h : mainDue (settleFast (s.at t))) :
    exec (.mainTaskStart t) s = .next (mainStart (settleFast (s.at t))) :=
  congrArg Host.Outcome.next (if_neg fun hidle => mainIdle_iff.mp hidle h)

theorem exec_mainTaskStart_idle (h : ¬ mainDue (settleFast (s.at t))) :
    exec (.mainTaskStart t) s = .next (settleFast (s.at t)) :=
  congrArg Host.Outcome.next (if_pos (mainIdle_iff.mpr h))

/-! ### The start of a fast execution (R129, R147) -/

/-- A fast execution starts now: once at its tick. -/
def fastDue (v : State) : Prop :=
  mashRuns v = true ∧ billFast v ≠ 0 ∧ fastGrid v ≤ netTime v ∧ netTime v < fastGrid v + 65536 ∧
    v.mash.fastAt ≠ fastGrid v + 1

theorem fastIdle_iff : (!mashRuns v || billFast v == 0 || !dueAt v (fastGrid v) 65536 ||
    v.mash.fastAt == fastGrid v + 1) = true ↔ ¬ fastDue v := by
  rw [fastDue, ← Bool.not_eq_false, not_iff_not]
  simp only [Bool.or_eq_false_iff, Bool.not_eq_false', beq_eq_false_iff_ne, dueAt_iff, and_assoc, ne_eq]

theorem exec_fastTaskStart_idle (h : ¬ fastDue (settleFast (s.at t))) :
    exec (.fastTaskStart t) s = .next (settleFast (s.at t)) :=
  congrArg Host.Outcome.next (if_pos (fastIdle_iff.mpr h))

theorem exec_fastTaskStart {go : Time} (h : fastDue (settleFast (s.at t)))
    (hgo : (if (settleFast (s.at t)).mash.fast.isNone then preempt (settleFast (s.at t))
      else fastOver (settleFast (s.at t))) = (go, u)) : exec (.fastTaskStart t) s = .next (fastStart u go) :=
  congrArg Host.Outcome.next ((if_neg fun hidle => fastIdle_iff.mp hidle h).trans
    (congrArg (fun p : Time × State => fastStart p.2 p.1) hgo))

theorem mainUpTo_alone (h : v.mash.fast = none) (t : Time) : mainUpTo v t = runTask v false (some t) :=
  if_neg (by rw [h]; decide)

theorem preempt_idle (h : v.mash.fast = none) (hmain : (runTask v false (some v.clk)).mash.main = none) :
    preempt v = ((runTask v false (some v.clk)).clk, runTask v false (some v.clk)) := by
  unfold preempt
  rw [mainUpTo_alone h]
  dsimp only
  rw [hmain]

theorem preempt_main {m : TaskRun} (h : v.mash.fast = none) (hmain : (runTask v false (some v.clk)).mash.main = some m) :
    let w := runTask v false (some v.clk)
    preempt v = if m.pos = 0 ∧ fastGrid w ≤ m.began then
      (w.clk, { w with mash.main := some { m with next := w.clk, held := 20 * nsT } }) else (max w.clk m.next, w) := by
  unfold preempt
  rw [mainUpTo_alone h]
  dsimp only
  rw [hmain]
  simp only [Bool.and_eq_true, beq_iff_eq, decide_eq_true_eq]

theorem fastOver_outlet {x y : TaskRun} (hx : v.mash.fast = some x) (hout : (inItems v true).length < x.pos)
    (hy : (runTask v true none).mash.fast = some y) :
    fastOver v = (max (runTask v true none).clk y.next, fastFinish (runTask v true none)) := by
  unfold fastOver
  rw [hx]
  refine (if_pos hout).trans ?_
  dsimp only
  rw [hy]

theorem fastOver_overrun {x : TaskRun} (hx : v.mash.fast = some x) (hin : x.pos ≤ (inItems v true).length) :
    fastOver v = (max v.clk x.next, overrun (taskSamples { v with mash.fast := none } true x) true) := by
  unfold fastOver
  rw [hx]
  exact if_neg (not_lt.mpr hin)

theorem fastStart_eq (s : State) (go : Time) : fastStart s go = runIntake (startRead { s with
    mash.fastAt := fastGrid s + 1
    mash.main := s.mash.main.map (fun m => { m with next := max m.next go })
    mash.fast := some { cyc := cycleNow s, began := fastGrid s, next := go + 20 * nsT } } true) true := rfl

/-! ### The end of the main task (R120, R147) -/

theorem exec_mainTaskEnd_idle {g : List Nat}
    (h : (settleFast (s.at t)).mash.main = none ∨ (settleFast (s.at t)).mash.fast.isSome = true) :
    exec (.mainTaskEnd t g) s = .next (settleFast (s.at t)) :=
  congrArg Host.Outcome.next (if_pos (by rcases h with h | h <;> simp [h]))

/-- The main task's registers at its end. -/
def mainEnded (u : State) (r : TaskRun) : State :=
  let ns := (netTime u - (u.clk - r.next) - u.tim.bound) / 65536
  { u with mash.main := none, mash.ovrM := 0 }.fsets [(MASH_CYCLE_CYCLE, 0, r.cyc), (MASH_END_NS, 0, ns),
    (MASH_ENDMAX_NS, 0, max ns (u.fget MASH_ENDMAX_NS)), (MASH_QUALCNT_N, 0, r.qual), (MASH_STAT_OVR, 0, 0)]

/-- The outlet of the shipped bill. -/
def mainShipped (v : State) (g : List Nat) : Option ShipIn → State
  | some x => if isStack v then shipStackRun v x g else shipCell v x
  | none => v

/-- What follows the outlet, in a stack. -/
def mainOutlet (v : State) : State := if isStack v then afterOutlet v else v

theorem exec_mainTaskEnd_goes_on {g : List Nat} (hmain : (settleFast (s.at t)).mash.main.isSome = true)
    (hfast : (settleFast (s.at t)).mash.fast = none)
    (hu : runTask (settleFast (s.at t)) false (some (settleFast (s.at t)).clk) = u)
    (h : u.mash.main = none ∨ taskDone u false = false) : exec (.mainTaskEnd t g) s = .next u := by
  refine congrArg Host.Outcome.next ((if_neg ?_).trans ?_)
  · rw [hfast, ← Option.not_isSome, hmain]
    decide
  rw [hu]
  dsimp only
  cases hm : u.mash.main with
  | none => rfl
  | some r =>
    have hleft : taskDone u false = false := h.resolve_left (by rw [hm]; exact Option.some_ne_none r)
    exact if_pos (by rw [hleft]; rfl)

theorem exec_mainTaskEnd {g : List Nat} {r : TaskRun} (hfast : (settleFast (s.at t)).mash.fast = none)
    (hmain : (settleFast (s.at t)).mash.main.isSome = true)
    (hu : runTask (settleFast (s.at t)) false (some (settleFast (s.at t)).clk) = u)
    (hr : u.mash.main = some r) (hdone : taskDone u false = true) : exec (.mainTaskEnd t g) s =
      .next (mainOutlet (taskSamples (mainShipped (mainEnded u r) g r.ship) false r)) := by
  refine congrArg Host.Outcome.next ((if_neg ?_).trans ?_)
  · rw [hfast, ← Option.not_isSome, hmain]
    decide
  rw [hu]
  dsimp only
  rw [hr]
  exact if_neg (by rw [hdone]; decide)

/-! ### The deadline (R147) -/

/-- The deadline of the cycle is now. -/
def deadlineNow (v : State) : Prop :=
  mashRuns v = true ∧ v.tim.bound + billDeadline v * 65536 ≤ netTime v ∧
    netTime v < v.tim.bound + billDeadline v * 65536 + 65536

theorem deadlineIdle_iff :
    (!mashRuns v || !dueAt v (v.tim.bound + billDeadline v * 65536) 65536) = true ↔ ¬ deadlineNow v := by
  rw [deadlineNow, ← dueAt_iff, ← Bool.not_eq_false, not_iff_not]
  simp only [Bool.or_eq_false_iff, Bool.not_eq_false']

theorem exec_mainDeadline_idle (h : ¬ deadlineNow (settleFast (s.at t))) :
    exec (.mainDeadline t) s = .next (settleFast (s.at t)) :=
  congrArg Host.Outcome.next (if_pos (deadlineIdle_iff.mpr h))

section
variable (h : deadlineNow (settleFast (s.at t)))
  (hu : mainUpTo (settleFast (s.at t)) (settleFast (s.at t)).clk = u)
include h hu

theorem exec_mainDeadline_some {r : TaskRun} (hr : u.mash.main = some r) :
    exec (.mainDeadline t) s = .next (if outletBegun u r then u
      else overrun (taskSamples (shipCut { u with mash.main := none } r) false r) false) := by
  refine congrArg Host.Outcome.next ((if_neg fun hidle => deadlineIdle_iff.mp hidle h).trans ?_)
  rw [hu]
  dsimp only
  rw [hr]

theorem exec_mainDeadline_none (hm : u.mash.main = none) :
    exec (.mainDeadline t) s = .next (if u.mash.ranCycle = cycleNow u + 1 then u
      else overrun { u with mash.ranCycle := cycleNow u + 1 } false) := by
  refine congrArg Host.Outcome.next ((if_neg fun hidle => deadlineIdle_iff.mp hidle h).trans ?_)
  rw [hu]
  dsimp only
  rw [hm]
  simp only [beq_iff_eq]

end

/-- Settles O36: each command from the state in which the fast execution has come to the present (`settleFast`), by its
condition there and by what holds the engine. -/
theorem mashTasksRun : Obligations.MashTasksRun := by
  refine ⟨fun s => ⟨settleFast_of_none, fun hfast => ⟨fun hrun => ?_, fun hdone => ?_⟩⟩, fun t s => rfl,
    fun t s => ⟨exec_mainTaskStart, exec_mainTaskStart_idle⟩,
    fun s => ⟨mainWindow_width s, mainWindow_cell, mainWindow_stack⟩, fun s fast h => startRead_clean h fast,
    fun s => ⟨mainStart_alone, mainStart_held⟩,
    fun t s => ⟨exec_fastTaskStart_idle, fun hdue hfast => ⟨fun hmain => ?_, fun m hmain => ⟨fun hwhole => ?_, fun hitem => ?_⟩⟩,
      fun x hdue hx => ⟨fun hout y hy => ?_, fun hin => ?_⟩⟩,
    fastStart_eq, fun s r x hr hx => ⟨fun hship => ?_, fun i hship => ?_⟩,
    fun t g s => ⟨exec_mainTaskEnd_idle, fun hmain hfast => ⟨exec_mainTaskEnd_goes_on hmain hfast rfl, fun r hr hdone =>
      ⟨fun hship => ?_, fun i hship => ?_⟩⟩⟩,
    fun t s => ?_⟩
  · rw [settleFast_of_some hfast]
    exact if_neg (by rw [hrun]; decide)
  · rw [settleFast_of_some hfast]
    exact if_pos hdone
  · exact exec_fastTaskStart hdue ((if_pos (by rw [hfast]; rfl)).trans (preempt_idle hfast hmain))
  · exact exec_fastTaskStart hdue ((if_pos (by rw [hfast]; rfl)).trans ((preempt_main hfast hmain).trans (if_pos hwhole)))
  · exact exec_fastTaskStart hdue ((if_pos (by rw [hfast]; rfl)).trans ((preempt_main hfast hmain).trans (if_neg hitem)))
  · exact exec_fastTaskStart hdue ((if_neg (by rw [hx]; exact Bool.false_ne_true)).trans (fastOver_outlet hx hout hy))
  · exact exec_fastTaskStart hdue ((if_neg (by rw [hx]; exact Bool.false_ne_true)).trans (fastOver_overrun hx hin))
  · have h := fastFinish_eq hr hx
    rwa [hship] at h
  · have h := fastFinish_eq hr hx
    rwa [hship] at h
  · have h := exec_mainTaskEnd (g := g) hfast hmain rfl hr hdone
    rwa [hship] at h
  · have h := exec_mainTaskEnd (g := g) hfast hmain rfl hr hdone
    rwa [hship] at h
  · intro v u due
    have hu : mainUpTo v v.clk = u := rfl
    refine ⟨exec_mainDeadline_idle, fun hdue hm => ?_, fun r hdue hr => ?_⟩
    · rw [exec_mainDeadline_none hdue hu hm]
      exact ⟨fun hran => congrArg _ (if_pos hran), fun hlate => congrArg _ (if_neg hlate)⟩
    · rw [exec_mainDeadline_some hdue hu hr]
      exact ⟨fun hout => congrArg _ (if_pos hout), fun hin => congrArg _ (if_neg (by rw [hin]; decide))⟩

end Sys2Proof.Machine
end


section
/-! The registers of the mash engine: the bank swap, tuning, the words of banks and nodes, and the trace channels. -/
namespace Sys2Proof.Machine

/-! ### Refusals (R67, R154) -/

theorem mashGuard_ok {m : Nat} {st : Status} {eff : State → State} {s : State} (h : st = .ok) :
    mashGuard m st eff s = (.ok, eff s) := if_pos (beq_iff_eq.mpr h)

theorem mashGuard_refused {m : Nat} {st : Status} {eff : State → State} {s : State} (h : st ≠ .ok) :
    mashGuard m st eff s = (st, mashErr s m st) := if_neg (mt beq_iff_eq.mp h)

theorem mashErr_frame (s : State) (m : Nat) (st : Status) : s.SameRegsBut (mashErr s m st)
    [(MASH_ERR_VALID, 0), (MASH_ERR_MULTI, 0), (MASH_ERR_MASTER, 0), (MASH_ERR_STATUS, 0)] := recErr_frame _ _ _ _

theorem mashErr_mash (s : State) (m : Nat) (st : Status) : (mashErr s m st).mash = s.mash := by
  unfold mashErr recErr
  split <;> rfl

theorem fget_mashErr_valid (s : State) (m : Nat) (st : Status) : (mashErr s m st).fget MASH_ERR_VALID = 1 := by
  by_cases h : s.fget MASH_ERR_VALID = 1
  · rw [mashErr, recErr_again h, fget_fset_far _ _ (by decide) (by decide) (by decide), h]
  · rw [mashErr, recErr_first h]
    simp (disch := decide) only [fsets_cons, fsets_nil, fget_fset_far, fget_fset_same]
    rfl

theorem eccStored_mash (s : State) (mem word : Nat) : (eccStored s mem word).mash = s.mash := by
  unfold eccStored
  dsimp only
  split <;> rfl

theorem jnlAdd_mash (s : State) (m kind st addr old new : Nat) : (jnlAdd s m kind st addr old new).mash = s.mash := by
  rw [jnlAdd_eq, jnlCounted_regs]
  exact eccStored_mash ..

/-- The registers that a write which the mash engine refuses may change. -/
def mashRefusalRegs : List (Fld × Nat) :=
  [(MASH_ERR_VALID, 0), (MASH_ERR_MULTI, 0), (MASH_ERR_MASTER, 0), (MASH_ERR_STATUS, 0), (SYS_ERRCNT_RSVD, 0),
    (ACC_JNLHEAD_HEAD, 0), (ACC_JNLCNT_LOST, 0), (ACC_JNLCNT_UNREAD, 0), (SEC_EINJ_ARM, 0)]

/-- What a write that the mash engine refuses leaves: its record in MASH_ERR, beside a reserved bit and the journal. -/
structure MashRefusal (s u : State) : Prop where
  mash : u.mash = s.mash
  valid : u.fget MASH_ERR_VALID = 1
  regs : s.SameRegsBut u mashRefusalRegs

section
variable {s : State} {m : Master} {a : Nat} {w : Word} {c : Bool} {st : Status}

/-- A write whose register records the refusal in MASH_ERR. -/
theorem rowWrite_mashErr {eff : State → Status × State} (h : s.MayWrite m a w.toNat c) (hst : st ≠ .ok)
    (heff : eff (countRsvd s m a w.toNat) = (st, mashErr (countRsvd s m a w.toNat) m st)) :
    MashRefusal s (rowWrite s m a w c eff) := by
  obtain ⟨hnoted, -⟩ := rowWrite_frame eff h
  rw [heff] at hnoted
  refine ⟨?_, ?_, ?_⟩
  · rw [rowWrite_bad h hst heff, State.notedBad]
    split
    · rw [jnlAdd_mash, mashErr_mash, countRsvd_mash]
    · rw [mashErr_mash, countRsvd_mash]
  · rw [sameRegs_fget hnoted _ _ (by decide) (by decide), fget_mashErr_valid]
  · exact sameRegs_trans (sameRegs_mono (countRsvd_frame s m a w.toNat) (by simp [mashRefusalRegs]))
      (sameRegs_trans (sameRegs_mono (mashErr_frame _ m st) (by simp [mashRefusalRegs]))
        (sameRegs_mono hnoted (by simp [jnlRegs, mashRefusalRegs])))

end

/-- A register above MASH_ERR reads as before. -/
theorem MashRefusal.fget {s u : State} (h : MashRefusal s u) {F : Fld} (hF : MASH_ERR_VALID.addr < F.addr) (m : Master) :
    u.fget F m = s.fget F m := by
  have hlow : ∀ e ∈ mashRefusalRegs, e.1.addr ≤ MASH_ERR_VALID.addr ∧ e.1.lo < 32 ∧ e.2 = 0 := by decide
  refine h.regs F m fun e he => ?_
  obtain ⟨haddr, hlo, hinst⟩ := hlow e he
  unfold Fld.key
  omega

/-! ### The bank swap and the tuning words (R142, R144, R150) -/

section
variable {s : State} {m w : Nat}

/-- The staged words are committed where a write of MASH_SWAPCTL asks for it. -/
def tuneCommitted (s : State) (w : Nat) : State :=
  if bit w 1 then { s with mash.tuneGo := s.mash.tune.length } else s

/-- What a write of MASH_SWAPCTL does: the words are committed, and the check of the shadow bank begins. -/
def swapctlDone (s : State) (m w : Nat) : State :=
  if bit w 0 then
    { tuneCommitted s w with mash.chk := some { cyc := (tuneCommitted s w).fget MASH_SWAPCYC_CYCLE, master := m } }
  else tuneCommitted s w

theorem swapBusy_tuneCommitted (s : State) (w : Nat) : swapBusy (tuneCommitted s w) = swapBusy s := by
  unfold tuneCommitted
  split <;> rfl

theorem swapRequest_free {r : SwapReq} (h : swapBusy s = false) :
    swapRequest s r = (.ok, { s with mash.chk := some r }) := if_neg (by rw [h]; decide)

theorem swapctlEff_ok (h : bit w 0 = false ∨ swapBusy s = false) : swapctlEff m w s = (.ok, swapctlDone s m w) := by
  have hok : chk (bit w 0 && swapBusy s) .conflict = .ok := by rcases h with h | h <;> simp [h, chk]
  rw [swapctlEff, mashGuard_ok hok]
  unfold swapctlDone
  cases hreq : bit w 0 with
  | false => rfl
  | true =>
    have hfree : swapBusy (tuneCommitted s w) = false := by
      rw [swapBusy_tuneCommitted]
      exact h.resolve_left (by rw [hreq]; decide)
    exact congrArg (Prod.mk Status.ok ∘ Prod.snd) (swapRequest_free hfree)

theorem swapctlEff_busy (hreq : bit w 0 = true) (hbusy : swapBusy s = true) :
    swapctlEff m w s = (.conflict, mashErr s m .conflict) := by
  rw [swapctlEff, hreq, hbusy]
  exact mashGuard_refused (by decide)

theorem swapBusy_countRsvd (s : State) (m a w : Nat) : swapBusy (countRsvd s m a w) = swapBusy s := by
  rw [swapBusy, countRsvd_mash, swapBusy]

theorem stackCount_countRsvd (s : State) (m a w : Nat) : stackCount (countRsvd s m a w) = stackCount s := by
  rw [stackCount, cfgOf, countRsvd_sys, stackCount, cfgOf]

/-- The status of a write of MASH_TUNEDATA: a stack with peers racks its tuning words (R76), and 64 words are the most. -/
def tunedataStatus (s : State) : Status :=
  firstStatus [chk (isStack s && stackCount s != 1) .conflict, chk (decide (64 ≤ s.mash.tune.length)) .busy]

theorem tunedataStatus_eq_ok : tunedataStatus s = .ok ↔
    (isStack s = false ∨ stackCount s = 1) ∧ s.mash.tune.length < 64 := by
  rw [tunedataStatus, firstStatus_eq_ok]
  cases isStack s <;> simp [chk]

theorem tunedataStatus_countRsvd (s : State) (m a w : Nat) : tunedataStatus (countRsvd s m a w) = tunedataStatus s := by
  rw [tunedataStatus, isStack_countRsvd, stackCount_countRsvd, countRsvd_mash, tunedataStatus]

/-- A word is staged at the master's index, which moves on. -/
def tuneStaged (s : State) (m i w : Nat) : State :=
  { s with mash.tune := s.mash.tune ++ [(i, w)] }.fsets [(MASH_TUNEDATA_VALUE, 0, w), (MASH_TUNEIDX_IDX, m, i + 1),
    (MASH_STAT_TUNED, 0, s.mash.tune.length + 1)]

theorem tunedataEff_ok (h : tunedataStatus s = .ok) :
    tunedataEff m w s = (.ok, tuneStaged s m (s.fget MASH_TUNEIDX_IDX m) w) := by
  rw [tunedataEff]
  refine (mashGuard_ok h).trans ?_
  simp [tuneStaged]

theorem tunedataEff_refused (h : tunedataStatus s ≠ .ok) :
    tunedataEff m w s = (tunedataStatus s, mashErr s m (tunedataStatus s)) := by
  rw [tunedataEff]
  exact mashGuard_refused h

end

section
variable {s : State} {m : Master} {w : Word}

theorem exec_bankSwapRequest (h : s.MayWrite m 0x171004 w.toNat (bit w.toNat 0 || bit w.toNat 1))
    (hfree : bit w.toNat 0 = false ∨ swapBusy s = false) : exec (.bankSwapRequest m w) s =
      .next (s.noted m 0x171004 w.toNat (swapctlDone (countRsvd s m 0x171004 w.toNat) m w.toNat)) :=
  congrArg Host.Outcome.next (rowWrite_ok h (swapctlEff_ok (by rwa [swapBusy_countRsvd])))

theorem exec_bankSwapRequest_busy (h : s.MayWrite m 0x171004 w.toNat (bit w.toNat 0 || bit w.toNat 1))
    (hreq : bit w.toNat 0 = true) (hbusy : swapBusy s = true) :
    ∃ u, exec (.bankSwapRequest m w) s = .next u ∧ MashRefusal s u :=
  ⟨_, rfl, rowWrite_mashErr h (by decide) (swapctlEff_busy hreq (by rwa [swapBusy_countRsvd]))⟩

theorem exec_mashTunedataWrite (h : s.MayWrite m 0x176004 w.toNat false) (hok : tunedataStatus s = .ok) :
    exec (.mashTunedataWrite m w) s = .next (s.noted m 0x176004 w.toNat
      (tuneStaged (countRsvd s m 0x176004 w.toNat) m (s.fget MASH_TUNEIDX_IDX m) w.toNat)) := by
  rw [← countRsvd_fget s m 0x176004 w.toNat _ (by decide)]
  exact congrArg Host.Outcome.next (rowWrite_ok h (tunedataEff_ok (by rwa [tunedataStatus_countRsvd])))

theorem exec_mashTunedataWrite_refused (h : s.MayWrite m 0x176004 w.toNat false) (hbad : tunedataStatus s ≠ .ok) :
    ∃ u, exec (.mashTunedataWrite m w) s = .next u ∧ MashRefusal s u :=
  have hcounted : tunedataStatus (countRsvd s m 0x176004 w.toNat) ≠ .ok := by rwa [tunedataStatus_countRsvd]
  ⟨_, rfl, rowWrite_mashErr h hcounted (tunedataEff_refused hcounted)⟩

end

/-! ### The words of banks and nodes (R144, R154) -/

section
variable {s : State} {m : Master} {w : Word}

/-- The status of a write of a bank's data register. -/
def bankDataStatus (s : State) (m b : Nat) : Status :=
  firstStatus [chk (decide (0x69000 ≤ s.fget (bankAddr b) m)) .range, chk (bankBusy s b) .conflict]

theorem bankDataStatus_eq_ok {m b : Nat} : bankDataStatus s m b = .ok ↔
    s.fget (bankAddr b) m < 0x69000 ∧ bankBusy s b = false := by
  rw [bankDataStatus, firstStatus_eq_ok]
  simp [chk]

theorem bankAddr_addr (b : Nat) : MASH_ERR_VALID.addr < (bankAddr b).addr := by
  unfold bankAddr
  split <;> decide

theorem fget_bankAddr_countRsvd (s : State) (m a w b n : Nat) :
    (countRsvd s m a w).fget (bankAddr b) n = s.fget (bankAddr b) n :=
  countRsvd_fget _ _ _ _ _ (lt_trans (by decide) (bankAddr_addr b))

theorem bankBusy_countRsvd (s : State) (m a w b : Nat) : bankBusy (countRsvd s m a w) b = bankBusy s b := by
  rw [bankBusy, actBank, countRsvd_fget _ _ _ _ _ (by decide), countRsvd_mash, bankBusy, actBank]

theorem bankDataStatus_countRsvd (s : State) (m a w n b : Nat) :
    bankDataStatus (countRsvd s m a w) n b = bankDataStatus s n b := by
  rw [bankDataStatus, fget_bankAddr_countRsvd, bankBusy_countRsvd, bankDataStatus]

theorem bankDataEff_ok {m b w : Nat} (h : bankDataStatus s m b = .ok) : bankDataEff m b w s =
    (.ok, (bankPut s b (s.fget (bankAddr b) m) w).fset (bankAddr b) m (s.fget (bankAddr b) m + 4)) := by
  rw [bankDataEff]
  exact mashGuard_ok h

theorem bankDataEff_refused {m b w : Nat} (h : bankDataStatus s m b ≠ .ok) :
    bankDataEff m b w s = (bankDataStatus s m b, mashErr s m (bankDataStatus s m b)) := by
  rw [bankDataEff]
  exact mashGuard_refused h

theorem exec_bankDataWrite {k : Fin 2} (h : s.MayWrite m (0x172004 + 0x1000 * k) w.toNat false)
    (hok : bankDataStatus s m k = .ok) : exec (.bankDataWrite m k w) s =
      .next (s.noted m (0x172004 + 0x1000 * k) w.toNat
        ((bankPut (countRsvd s m (0x172004 + 0x1000 * k) w.toNat) k (s.fget (bankAddr k) m) w.toNat).fset (bankAddr k) m
          (s.fget (bankAddr k) m + 4))) := by
  rw [← fget_bankAddr_countRsvd s m (0x172004 + 0x1000 * k) w.toNat]
  exact congrArg Host.Outcome.next (rowWrite_ok h (bankDataEff_ok (by rwa [bankDataStatus_countRsvd])))

theorem exec_bankDataWrite_refused {k : Fin 2} (h : s.MayWrite m (0x172004 + 0x1000 * k) w.toNat false)
    (hbad : bankDataStatus s m k ≠ .ok) : ∃ u, exec (.bankDataWrite m k w) s = .next u ∧ MashRefusal s u :=
  have hcounted : bankDataStatus (countRsvd s m (0x172004 + 0x1000 * k) w.toNat) m k ≠ .ok := by
    rwa [bankDataStatus_countRsvd]
  ⟨_, rfl, rowWrite_mashErr h hcounted (bankDataEff_refused hcounted)⟩

theorem shipNode_given {i : Nat} (h : holdsShipped s (actBank s) = false ∨ i < 2) : shipNode s i = s :=
  if_pos (by rcases h with h | h <;> simp [h])

theorem fget_shipNode (s : State) (i : Nat) (F : Fld) (j : Nat) : (shipNode s i).fget F j = s.fget F j := by
  unfold shipNode
  split <;> rfl

/-- A node with its marks, as a read finds it. -/
def nodeRead (s : State) (i : Nat) : Nat := if i = 1 then F_ONE else smGet 0 s.mash.nodes i

theorem ndataRead_clean {m : Nat} (hecc : s.sec.ecc = []) :
    let i := s.fget MASH_NADDR_NODE m
    let r := shipNode s i
    ndataRead m s = (nodeRead r i % 2 ^ 32, r.fsets [(MASH_NADDR_NODE, m, i + 1),
      (MASH_NFLAG_SUB, 0, bits (nodeRead r i) 33 1), (MASH_NFLAG_QUAL, 0, bits (nodeRead r i) 32 1)]) := by
  intro i r
  have hindex : r.fget MASH_NADDR_NODE m = i := fget_shipNode ..
  have hnode : (if (i == 1) = true then F_ONE else smGet 0 r.mash.nodes i) = nodeRead r i := by
    simp only [nodeRead, beq_iff_eq]
  have hval : nodeVal r m = nodeRead r i % 2 ^ 32 := by
    rw [nodeVal, hindex]
    exact congrArg (· % 2 ^ 32) hnode
  rw [ndataRead, eccRead_clean hecc, ← hval, ← hnode]

theorem exec_nodeDataRead (h : s.MayRead m 0x175004) (hecc : s.sec.ecc = []) :
    let i := s.fget MASH_NADDR_NODE m
    let r := shipNode s i
    exec (.nodeDataRead m) s = .next { r.fsets [(MASH_NADDR_NODE, m, i + 1), (MASH_NFLAG_SUB, 0, bits (nodeRead r i) 33 1),
      (MASH_NFLAG_QUAL, 0, bits (nodeRead r i) 32 1)] with rdata := smSet 0 r.rdata m (nodeRead r i % 2 ^ 32) } :=
  congrArg Host.Outcome.next (readAccess_ok h (ndataRead_clean hecc))

end

/-! ### The trace channels (R151, R152) -/

/-- A channel that is IDLE or COMPLETE is armed. -/
def traceArmed (v : State) (c : Nat) : State :=
  if v.fget MASH_TRSTAT_STATE c = 0 ∨ v.fget MASH_TRSTAT_STATE c = 3 then
    (trMod v c (fun x => { x with skip := 0, left := 0, startAt := none })).fsets
      [(MASH_TRSTAT_STATE, c, 1), (MASH_TRSTAT_TAKEN, c, 0), (MASH_TRSTAT_OLDEST, c, (trOf v c).wr)]
  else v

theorem trarmEff_eq (w : Nat) (s : State) : trarmEff w s = (.ok, (bitList 32 w).foldl traceArmed (capSettle s)) := by
  have harm : traceArmed = fun v c => if (v.fget MASH_TRSTAT_STATE c == 0 || v.fget MASH_TRSTAT_STATE c == 3) = true then
      (trMod v c (fun x => { x with skip := 0, left := 0, startAt := none })).fsets
        [(MASH_TRSTAT_STATE, c, 1), (MASH_TRSTAT_TAKEN, c, 0), (MASH_TRSTAT_OLDEST, c, (trOf v c).wr)]
      else v := by
    funext v c
    simp only [traceArmed, Bool.or_eq_true, beq_iff_eq]
  rw [harm]
  rfl

/-- A start event reaches a channel. -/
theorem trStart_eq (v : State) (c : Nat) : trStart v c =
    if v.fget MASH_TRSTAT_STATE c = 1 ∧ v.fget MASH_TRCFG1_PRE c ≤ v.fget MASH_TRSTAT_TAKEN c then
      (trMod v c (fun x => { x with left := 0, startAt := none })).fset MASH_TRSTAT_STATE c 2
    else trMod v c (fun x => { x with startAt := none }) := by
  simp only [trStart, Bool.and_eq_true, beq_iff_eq, decide_eq_true_eq]

/-- Settles O37: each write by its register's own check, which either gives the register its effect or leaves the record of
a refusal; a node's read by the node that the shipped bill gives. -/
theorem mashRegistersActAsWritten : Obligations.MashRegistersActAsWritten := by
  refine ⟨fun m w s h => ⟨rfl, exec_bankSwapRequest h, fun hreq hbusy => ?_⟩,
    fun m w s h => ⟨fun hopen => ?_, fun hclosed => ?_⟩, fun m k w s h => ⟨fun hx hfree => ?_, fun hbad => ?_⟩,
    fun s i => shipNode_given, fun m s => exec_nodeDataRead, fun m w s h => ?_, fun m w s h => ?_, fun m w s h => ?_⟩
  · obtain ⟨u, hu, hrefused⟩ := exec_bankSwapRequest_busy h hreq hbusy
    exact ⟨u, hu, hrefused.mash, hrefused.valid⟩
  · exact exec_mashTunedataWrite h (tunedataStatus_eq_ok.mpr hopen)
  · obtain ⟨u, hu, hrefused⟩ := exec_mashTunedataWrite_refused h (mt tunedataStatus_eq_ok.mp hclosed)
    exact ⟨u, hu, hrefused.mash, hrefused.valid, hrefused.fget (by decide) m⟩
  · exact exec_bankDataWrite h (bankDataStatus_eq_ok.mpr ⟨hx, hfree⟩)
  · have hst : bankDataStatus s m k ≠ .ok := fun hok => by
      obtain ⟨hx, hfree⟩ := bankDataStatus_eq_ok.mp hok
      exact hbad.elim (not_le.mpr hx) (by rw [hfree]; decide)
    obtain ⟨u, hu, hrefused⟩ := exec_bankDataWrite_refused h hst
    exact ⟨u, hu, hrefused.mash, hrefused.valid, hrefused.fget (bankAddr_addr k) m⟩
  · exact congrArg Host.Outcome.next (rowWrite_ok h (trarmEff_eq ..))
  · intro one
    have hone : trStart = one := funext fun v => funext (trStart_eq v)
    rw [← hone]
    exact congrArg Host.Outcome.next (rowWrite_ok h rfl)
  · exact congrArg Host.Outcome.next (rowWrite_ok h rfl)

end Sys2Proof.Machine
end

section
/-! What a write of a point leaves alone: the component `sys`, which holds the configuration in force (R102, R109). -/
namespace Sys2Proof.Machine

@[simp] theorem capFeed_sys (s : State) (kind sel word tag : Nat) (v : Option Q) :
    (capFeed s kind sel word tag v).sys = s.sys :=
  ite_sys rfl ((capSettle_sys _).trans ((chanFeed_sys ..).trans (capSettle_sys _)))

@[simp] theorem putW_sys (s : State) (k i w : Nat) : (putW s k i w).sys = s.sys := State.mwrite_sys ..

@[simp] theorem ptStore_sys (s : State) (k v tag : Nat) (late subst bad : Bool) (place : Nat) :
    (ptStore s k v tag late subst bad place).sys = s.sys := by
  unfold ptStore
  extract_lets s₁ _ _ _ _ s₂ _ s₃ _ s₄
  have h₁ : s₁.sys = s.sys := eccPart_records_sys ..
  clear_value s₁
  have h₂ : s₂.sys = s₁.sys := by simp [s₂]
  clear_value s₂
  have h₃ : s₃.sys = s₁.sys := ite_sys (putW_sys ..) h₂
  exact (capFeed_sys ..).trans (h₃.trans h₁)

@[simp] theorem rackOn_sys (s : State) (l : Nat) (r : RackRec) (cyc : Nat) : (rackOn s l r cyc).sys = s.sys := by
  unfold rackOn
  split
  · rfl
  · exact sendOn_sys ..

@[simp] theorem rackLost_sys (s : State) : (rackLost s).sys = s.sys := by
  unfold rackLost
  exact foldl_sys (fun _ _ => State.satAdd_sys ..) _ _

@[simp] theorem rackPeers_sys (s : State) (r : RackRec) : (rackPeers s r).sys = s.sys := by
  unfold rackPeers rackPeersOf
  refine (rackLost_sys _).trans (foldl_sys (fun u sid => ?_) _ _)
  split
  · exact rackOn_sys ..
  · rfl

@[simp] theorem ptWrite_sys (s : State) (k v : Nat) (subst : Bool) (place : Nat) :
    (ptWrite s k v subst place).sys = s.sys :=
  ite_sys rfl (ite_sys ((rackPeers_sys ..).trans (ptStore_sys ..)) (ptStore_sys ..))

@[simp] theorem sysSlot_sys (s : State) (k v : Nat) : (sysSlot s k v).sys = s.sys := ite_sys (ptWrite_sys ..) rfl

@[simp] theorem cfgOf_phasePoint (s : State) : cfgOf (phasePoint s) = cfgOf s := by
  rw [cfgOf, phasePoint, sysSlot_sys, cfgOf]

end Sys2Proof.Machine
end


section
/-! The precharge of a cell, the adoption of its slot, its measurements, and its state of charge. -/
namespace Sys2Proof.Machine

section
variable {t : Time} {s : State}

@[simp] theorem linkRaised_at : linkRaised (s.at t) = linkRaised s := rfl

/-! ### Precharge (R179) -/

theorem exec_precharge_idle (h : isStack s = true ∨ devState s ≠ 10) :
    exec (.prechargeContactorStep t) s = .next (s.at t) ∧ exec (.prechargeComplete t) s = .next (s.at t) := by
  constructor
  · refine congrArg Host.Outcome.next (if_pos ?_)
    rw [Bool.or_eq_true, bne_iff_ne]
    exact h
  · refine congrArg Host.Outcome.next (if_neg ?_)
    rcases h with h | h <;> simp [h, ST_READY]

section
variable (hcell : isStack s = false) (hst : devState s = 10)
include hcell hst

/-- In READY, a cell's contactors step by the step that the precharge is at. -/
theorem exec_prechargeContactorStep : exec (.prechargeContactorStep t) s = .next (
    if s.cell.step == 1 then { s.at t with
      cell.step := 2, pins.pi := putBit s.pins.pi 4 true, pins.po := putBit s.pins.po 3 true }
    else if s.cell.step == 2 then { s.at t with
      cell.step := 3, pins.pi := putBit s.pins.pi 3 true, pins.po := putBit s.pins.po 4 false }
    else if s.cell.step == 3 then steepStart { s.at t with pins.pi := putBit s.pins.pi 4 false }
    else s.at t) :=
  congrArg Host.Outcome.next (if_neg (by simp [hcell, hst, ST_READY]))

theorem exec_prechargeContactorStep_rests (h : s.cell.step ∉ [1, 2, 3]) :
    exec (.prechargeContactorStep t) s = .next (s.at t) := by
  simp only [List.mem_cons, List.not_mem_nil, or_false, not_or] at h
  obtain ⟨h₁, h₂, h₃⟩ := h
  rw [exec_prechargeContactorStep hcell hst, if_neg (by rwa [beq_iff_eq]), if_neg (by rwa [beq_iff_eq]),
    if_neg (by rwa [beq_iff_eq])]

theorem exec_prechargeComplete (hstep : s.cell.step = 4) (hlink : linkRaised s = true) :
    exec (.prechargeComplete t) s = .next (setDev { s.at t with cell.step := 0 } ST_PRECHARGED CA_NONE) :=
  congrArg Host.Outcome.next (if_pos (by simp [hcell, hst, hstep, hlink, ST_READY]))

end

theorem exec_prechargeComplete_early (h : s.cell.step ≠ 4 ∨ linkRaised s = false) :
    exec (.prechargeComplete t) s = .next (s.at t) := by
  refine congrArg Host.Outcome.next (if_neg ?_)
  rcases h with h | h <;> simp [h]

/-! ### The adoption of a slot (R172) -/

theorem exec_slotAdopt (hcell : isStack s = false) (hdue : s.cell.slotDue = true)
    (hcyc : 0 ≤ cycDiff (cycleNow s) (refWord s 20)) (hcar : carrierBoundary (s.at t) = true) :
    exec (.slotAdopt t) s = .next (adoptSlot (s.at t)) := by
  have hcyc' : 0 ≤ cycDiff (cycleNow (s.at t)) (refWord (s.at t) 20) := hcyc
  exact congrArg Host.Outcome.next (if_neg (by simp [hcell, hdue, hcyc', hcar, -cycleNow_at, -refWord_at]))

theorem exec_slotAdopt_idle (h : isStack s = true ∨ s.cell.slotDue = false ∨ cycDiff (cycleNow s) (refWord s 20) < 0 ∨
    carrierBoundary (s.at t) = false) : exec (.slotAdopt t) s = .next (s.at t) := by
  refine congrArg Host.Outcome.next (if_pos ?_)
  rcases h with h | h | h | h <;> simp [h]

/-! ### The cell cycle (R109, R177, R179) -/

theorem exec_cellFirmware_idle {x : CellMeas} (h : isStack s = true ∨ s.sys.phase ≠ .firmware) :
    exec (.cellCycle t x) s = .next (s.at t) ∧ exec (.capUpdateOnPlim t) s = .next (s.at t) := by
  constructor
  · refine congrArg Host.Outcome.next (if_pos ?_)
    rw [Bool.or_eq_true, bne_iff_ne]
    exact h
  · refine congrArg Host.Outcome.next (if_pos ?_)
    rw [Bool.or_eq_true, Bool.or_eq_true, bne_iff_ne, or_assoc]
    exact .inr h

/-- The measurements of a cell cycle taken, and the charge counted by them. -/
def measured (x : CellMeas) (s : State) : State :=
  { s with
    cell.soc := if shippedCfg s then
      countSoc s x.ibat (match s.cell.cycAt with | some c => s.clk - c | none => 0) else s.cell.soc
    cell.cycAt := some s.clk
    cell.meas := x
    cell.lowSince := if ibatLow s x.ibat then some (s.cell.lowSince.getD s.clk) else none }

/-- Values put into the slots of the cell's own points. -/
def slotsPut (l : List (Nat × Nat)) (s : State) : State := l.foldl (fun z e => sysSlot z e.1 e.2) s

theorem slotsPut_three (i j k a b c : Nat) (s : State) :
    slotsPut ([i, j, k].zip [a, b, c]) s = sysSlot (sysSlot (sysSlot s i a) j b) k c := by
  simp only [slotsPut, List.zip_cons_cons, List.zip_nil_right, List.foldl_cons, List.foldl_nil]

/-- The points that show the cell's state. -/
def statePoints (v : State) : List (Nat × Nat) :=
  [(0, wordAt v .sys 8), (1, v.fget VOTE_CSTAT_VOTE),
    (2, (List.range 8).foldl (fun a g => a + v.fget FLT_GSTAT_LATCH g * 2 ^ g) 0), (3, throttle v), (5, activeMask v),
    (6, slotValue v 6), (7, wordAt v .sys 0x18)]

/-- The points that show its measurements. -/
def measPoints (x : CellMeas) (w : State) : List (Nat × Nat) :=
  [(18, x.vdcMv), (19, x.vdcLv), (20, x.vbat), (21, x.ibat), (23, x.edc), (24, tmax w)]

/-- A cell cycle up to its state of charge. -/
def cycleShown (x : CellMeas) (s : State) : State :=
  let v := linkRaise (safeStop (measured x s))
  let w := slotsPut (statePoints v) v
  slotsPut (measPoints x w) w

theorem exec_cellCycle {x : CellMeas} (hcell : isStack s = false) (hphase : s.sys.phase = .firmware) :
    let y := cycleShown x (s.at t)
    exec (.cellCycle t x) s = .next (if shippedCfg y then writeCaps (sysSlot y 22 (socWord y))
      else slotsPut ([22, 16, 17].zip (drawWords y 3).1) (phasePoint (drawWords y 3).2)) :=
  congrArg Host.Outcome.next (if_neg (by simp [hcell, hphase]))

/-- Three free words, which count as three draws. -/
theorem drawWords_three (y : State) : ∃ a b c, drawWords y 3 = ([a, b, c], { y with free := y.free + 3 }) :=
  ⟨_, _, _, rfl⟩

theorem linkRaise_of_run {u : State} (hst : devState u = 10) (hstep : u.cell.step = 4) (hrun : sprState u = S_RUN) :
    linkRaise u = dabEnable u := if_pos (by simp [hst, hstep, hrun, ST_READY])

theorem linkRaise_elsewhere {u : State} (h : devState u ≠ 10 ∨ u.cell.step ≠ 4 ∨ sprState u ≠ S_RUN) :
    linkRaise u = u := by
  refine if_neg ?_
  rcases h with h | h | h <;> simp [h, ST_READY]

/-! ### The caps anew (R176, R243) -/

theorem exec_capUpdateOnPlim_bare (h : shippedCfg s = false) : exec (.capUpdateOnPlim t) s = .next (s.at t) :=
  congrArg Host.Outcome.next (if_pos (by simp [h]))

theorem exec_capUpdateOnPlim (hcell : isStack s = false) (hphase : s.sys.phase = .firmware)
    (hship : shippedCfg s = true) : exec (.capUpdateOnPlim t) s = .next (writeCaps (s.at t)) :=
  congrArg Host.Outcome.next (if_neg (by simp [hcell, hphase, hship]))

/-- The caps are those of the configuration in force after the phase point as before it. -/
theorem writeCaps_eq (s : State) : writeCaps s =
    let u := phasePoint s
    let v := sysSlot u 16 (capOf u (cfgOf u).cell.iChgMax false)
    sysSlot v 17 (capOf v (cfgOf u).cell.iDisMax true) := by
  simp only [writeCaps, cfgOf_phasePoint]

/-! ### The state of charge from the open-circuit voltage (R177) -/

/-- The current has been low for ten minutes, and the configuration tells the charge of the voltage measured. -/
def ocvDue (t : Time) (s : State) : Prop :=
  isStack s = false ∧ (∃ c, s.cell.lowSince = some c ∧ c + 600 * secT ≤ max s.clk t) ∧ shippedCfg s = true ∧
    (cfgOf s).cell.ocv ≠ [] ∧ f32fin s.cell.meas.vbat = true

theorem ocvIdle_iff {c : Time} (hlow : s.cell.lowSince = some c) :
    (!shippedCfg (s.at t) || isStack (s.at t) || decide ((s.at t).clk < c + 600 * secT) ||
      (cfgOf (s.at t)).cell.ocv.isEmpty || !f32fin (s.at t).cell.meas.vbat) = true ↔ ¬ ocvDue t s := by
  rw [ocvDue, ← Bool.not_eq_false, not_iff_not]
  simp only [Bool.or_eq_false_iff, Bool.not_eq_false', decide_eq_false_iff_not, not_lt, List.isEmpty_eq_false_iff,
    isStack_at, shippedCfg_at, cfgOf_at, State.at_cell, hlow, Option.some.injEq, exists_eq_left']
  tauto

theorem exec_socOcvReset (h : ocvDue t s) : exec (.socOcvReset t) s = .next { s.at t with
    cell.soc := (clampI ((ocvSoc (f32v s.cell.meas.vbat) (cfgOf s).cell.ocv).mul (Q.ofNat (2 ^ 48))).round 0
      (2 ^ 48)).toNat } := by
  obtain ⟨-, ⟨c, hlow, -⟩, -⟩ := id h
  show execSocOcvReset t s = _
  unfold execSocOcvReset
  dsimp only
  rw [State.at_cell, hlow]
  exact congrArg Host.Outcome.next (if_neg fun hidle => (ocvIdle_iff hlow).mp hidle h)

theorem exec_socOcvReset_idle (h : ¬ ocvDue t s) : exec (.socOcvReset t) s = .next (s.at t) := by
  show execSocOcvReset t s = _
  unfold execSocOcvReset
  dsimp only
  rw [State.at_cell]
  cases hlow : s.cell.lowSince with
  | none => rfl
  | some c => exact congrArg Host.Outcome.next (if_pos ((ocvIdle_iff hlow).mpr h))

end

/-- Settles O41: each event by the lemma of its command, under its condition and outside it; a cell cycle shows its
points (`cycleShown`) before it writes the caps. -/
theorem cellPrechargeSlotsAndCharge : Obligations.CellPrechargeSlotsAndCharge := by
  refine ⟨fun t s hcell hst => ⟨fun h => ?_, fun h => ?_, fun h => ?_, exec_prechargeComplete hcell hst,
      exec_prechargeContactorStep_rests hcell hst, exec_prechargeComplete_early⟩,
    fun t s => exec_precharge_idle, fun t s => exec_slotAdopt, fun t s => exec_slotAdopt_idle,
    fun t x s => exec_cellFirmware_idle, fun t x s hcell hphase => ?_,
    fun u => ⟨fun ⟨hst, hstep, hrun⟩ => linkRaise_of_run hst hstep hrun, linkRaise_elsewhere⟩,
    fun t s hcell hphase => ⟨exec_capUpdateOnPlim_bare, fun hship => ?_⟩,
    fun t s => ⟨exec_socOcvReset, exec_socOcvReset_idle⟩⟩
  · rw [exec_prechargeContactorStep hcell hst, h]
    rfl
  · rw [exec_prechargeContactorStep hcell hst, h]
    rfl
  · rw [exec_prechargeContactorStep hcell hst, h]
    rfl
  · have hcycle := exec_cellCycle (t := t) (x := x) hcell hphase
    intro u v faults w y
    have hy : cycleShown x (s.at t) = y := rfl
    rw [hy] at hcycle
    clear_value y
    refine ⟨fun hship => hcycle.trans (by rw [if_pos hship]), fun hbare => ?_⟩
    obtain ⟨a, b, c, hdraw⟩ := drawWords_three y
    refine ⟨a, b, c, y.free + 3, hcycle.trans ?_⟩
    rw [if_neg (by rw [hbare]; decide), hdraw, slotsPut_three]
  · exact (exec_capUpdateOnPlim hcell hphase hship).trans (congrArg Host.Outcome.next (writeCaps_eq _))

end Sys2Proof.Machine
end


section
/-! Two statements that fail at states which no access reaches: a BLK_CHSEL out of its range, and a STEP2 out of its one bit. -/
namespace Sys2Proof.Machine

/-- A field's entry as it may stand in the table, whatever the field's width; `State.fset` keeps to the width. -/
def State.putRaw (s : State) (F : Fld) (i v : Nat) : State := { s with regs := smSet (F.resetAt i) s.regs (F.key i) v }

/-! ### A selected pair that does not exist (R69, R206) -/

/-- The index at which PWM_STAT.PEND has the key of PWM_ERR.VALID. -/
def strayPair : Nat := (PWM_ERR_VALID.addr * 32 + PWM_ERR_VALID.lo - (PWM_STAT_PEND.addr * 32 + PWM_STAT_PEND.lo)) * 2048

/-- Every domain is on, and M0's BLK_CHSEL, whose range is 0 to 11 (R206), holds `strayPair`. -/
def strayChsel : State := (State.reset.fset PWR_DOMSTAT_ON 0 0x1ffff).putRaw PWM_CHSEL_CH 0 strayPair

theorem fget_stat_pend_strayPair (s : State) : s.fget PWM_STAT_PEND strayPair = s.fget PWM_ERR_VALID := by
  have hkey : PWM_STAT_PEND.key strayPair = PWM_ERR_VALID.key 0 := by decide
  have hreset : PWM_STAT_PEND.resetAt strayPair = PWM_ERR_VALID.resetAt 0 := by decide
  rw [State.fget, hkey, hreset, State.fget]

theorem chsel_strayChsel : chsel strayChsel .pwm (0 : Master) = strayPair := by decide +kernel

/-- No pair of that number is retired: the kernel cannot evaluate a bit so far up, but SEC_RETPAIR is 0. -/
theorem instRetired_strayChsel : instRetired strayChsel .pwm strayPair = false := by
  have hnone : strayChsel.fget SEC_RETPAIR_RET = 0 := by decide +kernel
  rw [instRetired, hnone, bit, Nat.zero_div]
  rfl

theorem instStatus_strayChsel : instStatus strayChsel .pwm strayPair = .ok := by
  have hdom : domStatus strayChsel (instDom .pwm strayPair) = .ok := by decide +kernel
  rw [instStatus, hdom, instRetired_strayChsel]
  rfl

/-- PWM_CTL stands in the window. -/
theorem accessInst_pwmCtl (s : State) (m : Nat) : accessInst s m 0x100118 = instStatus s .pwm (chsel s .pwm m) := rfl

theorem mayWrite_strayChsel : strayChsel.MayWrite (0 : Master) 0x100118 1 true := by
  refine ⟨by decide, ?_⟩
  unfold writeStatus writeRest
  rw [accessInst_pwmCtl, chsel_strayChsel, instStatus_strayChsel]
  decide +kernel

/-- The staging copy of the stray pair has PER at 0, which Table 7.3 refuses. -/
theorem stagedCheck_strayChsel : stagedCheck (countRsvd strayChsel (0 : Master) 0x100118 1) strayPair
    (strayChsel.flag PWM_CFG_ALIGN strayPair) ≠ .ok := by decide +kernel

/-- Refutes O45: the commit of the pair that `strayChsel` selects is refused and sets PWM_ERR.VALID, whose entry is also that
pair's PWM_STAT.PEND, and this the statement has unchanged: it ranges over every value of BLK_CHSEL, not 0 to 11 alone. -/
theorem not_pairRegistersActAsWritten : ¬ Obligations.PairRegistersActAsWritten := by
  intro h
  obtain ⟨-, hctl, -⟩ := h
  obtain ⟨-, -, -, -, hrefused⟩ := hctl 0 1 strayChsel mayWrite_strayChsel
  rw [chsel_strayChsel] at hrefused
  obtain ⟨u, -, hvalid, -, hpend⟩ := hrefused rfl stagedCheck_strayChsel
  rw [fget_stat_pend_strayPair, fget_stat_pend_strayPair, hvalid] at hpend
  have hbefore : (countRsvd strayChsel (0 : Master) 0x100118 1).fget PWM_ERR_VALID = 0 := by decide +kernel
  exact absurd (hpend.trans hbefore) (by decide)

/-! ### A second step that is neither to come nor made (R200) -/

/-- Group 0 is enabled and latched, its second step stands 10 ns after the latch, and its STEP2 holds 2. -/
def strayStep2 : State :=
  (State.reset.fsets [(FLT_GCFG_EN, 0, 1), (FLT_GSTAT_LATCH, 0, 1), (FLT_GCFG_SAFE_T, 0, 1)]).putRaw FLT_GSTAT_STEP2 0 2

theorem exec_faultGroupStep2_strayStep2 : exec (.faultGroupStep2 (10 * nsT) 0) strayStep2 =
    .next (syncForced ((List.range 24).foldl (grpMove 0) ((strayStep2.at (10 * nsT)).fset FLT_GSTAT_STEP2 0 1))) :=
  congrArg Host.Outcome.next (if_pos (by decide +kernel))

/-- Refutes O48: the statement has the second step due where STEP2 is 0 and the group left alone elsewhere; the model makes the
step wherever STEP2 is not 1, and so at 2, a value that the statement does not exclude. -/
theorem not_faultGroupsAct : ¬ Obligations.FaultGroupsAct := by
  intro h
  obtain ⟨-, -, hstep2, -⟩ := h
  obtain ⟨-, hidle⟩ := hstep2 (10 * nsT) 0 strayStep2
  have hnext := hidle fun ⟨_, _, _, hzero, _⟩ => absurd hzero (by decide +kernel)
  rw [exec_faultGroupStep2_strayStep2, Host.Outcome.next.injEq] at hnext
  have hmade : (strayStep2.at (10 * nsT)).fget FLT_GSTAT_STEP2 = 1 := by
    rw [← hnext]
    decide +kernel
  exact absurd hmade (by decide +kernel)

end Sys2Proof.Machine
end


section
/-! The events of a running pair: its first valley, valleys, peaks and half counts, and the edges of its outputs. -/
namespace Sys2Proof.Machine

theorem flag_eq_true {s : State} {F : Fld} {i : Nat} : s.flag F i = true ↔ s.fget F i = 1 := beq_iff_eq

theorem flag_eq_false {s : State} {F : Fld} {i : Nat} : s.flag F i = false ↔ s.fget F i ≠ 1 := beq_eq_false_iff_ne

/-! ### The counter's instants (R190, R193, R195, R226) -/

section
variable {t : Time} {p : Pair} {s : State} {V : Time}

/-- What the first valley `V` of a waiting pair does, where no stop is pending. -/
def firstValleyWork (s : State) (p : Nat) (V : Time) : State :=
  let u := (pwmMod s p (fun x => { x with waiting := false, nextValley := V })).fset PWM_STAT_RUN p 1
  pwmEdges (releaseHeld (phaseCorrect (reload u p false).2 p V true) p) p

theorem exec_pwmCounterStart (hwait : (pwmOf s p).waiting = true) (hV : firstIn (s.at t) p (pwmOf s p) = some V) :
    exec (.pwmCounterStart t p) s =
      .next (if (pwmOf s p).stop then pwmHalt (s.at t) p else firstValleyWork (s.at t) p V) := by
  show execPwmCounterStart t p s = _
  unfold execPwmCounterStart
  dsimp only
  rw [pwmOf_at, hV]
  exact congrArg Host.Outcome.next (if_neg (by simp [hwait]))

theorem exec_pwmCounterStart_idle (h : (pwmOf s p).waiting = false ∨ firstIn (s.at t) p (pwmOf s p) = none) :
    exec (.pwmCounterStart t p) s = .next (s.at t) := by
  show execPwmCounterStart t p s = _
  unfold execPwmCounterStart
  dsimp only
  rw [pwmOf_at]
  cases hV : firstIn (s.at t) p (pwmOf s p) with
  | none => rfl
  | some V =>
    have hwait : (pwmOf s p).waiting = false := h.resolve_right (by simp [hV])
    exact congrArg Host.Outcome.next (if_pos (by simp [hwait]))

theorem firstIn_unaligned {x : PwmPair} (h : s.fget PWM_CFG_ALIGN p ≠ 1) :
    firstIn s p x = if inClk s x.nextValley then some x.nextValley else none := by
  rw [firstIn, flag_eq_false.mpr h]
  rfl

/-- A valley of this clock, of a pair that runs. -/
def valleyNow (t : Time) (p : Pair) (s : State) : Prop :=
  s.fget PWM_STAT_RUN p = 1 ∧ inClk (s.at t) (pwmOf s p).nextValley = true

/-- A peak of this clock, of a pair that runs and has not passed it. -/
def peakNow (t : Time) (p : Pair) (s : State) : Prop :=
  s.fget PWM_STAT_RUN p = 1 ∧ s.fget PWM_STAT_DOWN p ≠ 1 ∧ inClk (s.at t) (pwmOf s p).nextPeak = true

theorem valleyNow_iff : ((s.at t).flag PWM_STAT_RUN p && inClk (s.at t) (pwmOf (s.at t) p).nextValley) = true ↔
    valleyNow t p s := by
  rw [Bool.and_eq_true, flag_eq_true]
  rfl

theorem peakNow_iff : ((s.at t).flag PWM_STAT_RUN p && !(s.at t).flag PWM_STAT_DOWN p
    && inClk (s.at t) (pwmOf (s.at t) p).nextPeak) = true ↔ peakNow t p s := by
  rw [Bool.and_eq_true, Bool.and_eq_true, Bool.not_eq_true', flag_eq_true, flag_eq_false, and_assoc]
  rfl

theorem exec_pwmValley (h : valleyNow t p s) :
    exec (.pwmValley t p) s = .next (pairEvents (valleyWork (s.at t) p) p 0 0) :=
  congrArg Host.Outcome.next (if_pos (valleyNow_iff.mpr h))

theorem exec_pwmValley_idle (h : ¬ valleyNow t p s) : exec (.pwmValley t p) s = .next (s.at t) :=
  congrArg Host.Outcome.next (if_neg (mt valleyNow_iff.mp h))

theorem exec_pwmPeak (h : peakNow t p s) : exec (.pwmPeak t p) s = .next (pairEvents (peakWork (s.at t) p) p 1 2) :=
  congrArg Host.Outcome.next (if_pos (peakNow_iff.mpr h))

theorem exec_pwmPeak_idle (h : ¬ peakNow t p s) : exec (.pwmPeak t p) s = .next (s.at t) :=
  congrArg Host.Outcome.next (if_neg (mt peakNow_iff.mp h))

/-- The count passes PER/2 before the peak, or after it. -/
theorem exec_pwmHalfCount : exec (.pwmHalfCount t p) s =
    (let half := s.fget PWM_EPER_PER p / 2 * clkT
     .next (if inClk (s.at t) ((pwmOf s p).nextPeak - half) then pairEvents (s.at t) p 2 1
       else if inClk (s.at t) ((pwmOf s p).nextPeak + half) then pairEvents (s.at t) p 2 3 else s.at t)) := rfl

theorem pairEvents_stopped {kind pos : Nat} (h : s.fget PWM_STAT_RUN p ≠ 1) : pairEvents s p kind pos = s :=
  if_neg (by rw [flag_eq_false.mpr h]; decide)

theorem exec_pwmHalfCount_stopped (h : s.fget PWM_STAT_RUN p ≠ 1) : exec (.pwmHalfCount t p) s = .next (s.at t) := by
  have hstopped (kind pos : Nat) : pairEvents (s.at t) p kind pos = s.at t := pairEvents_stopped (s := s.at t) h
  rw [exec_pwmHalfCount]
  dsimp only
  rw [hstopped, hstopped, ite_self, ite_self]

end

/-! ### The edges of an output (R185 to R187) -/

section
variable {s : State} {p : Nat} {b : Bool} {at_ : Time} {on : Bool} {len : Option Nat}

/-- The edge at `at_` is none, or has been judged: no edge closes its interval at once, and a valley inside a dropped or filled
interval is no edge (R186). -/
@[reducible] def edgeStill (s : State) (p : Nat) (b : Bool) (at_ : Time) (on : Bool) (len : Option Nat) : Prop :=
  (if b then (pwmOf s p).judgedB else (pwmOf s p).judgedA) = at_ + 1 ∨ len = some 0 ∨
    (at_ = (pwmOf s p).valley ∧ (on = true ↔ s.fget (if b then PWM_CFG_INVB else PWM_CFG_INVA) p = 1) ∧
      (if b then (pwmOf s p).dropB else (pwmOf s p).dropA) = true)

/-- The instant from which the edge may act: its own, or that at which the interval in progress has lasted MINPW. -/
def edgeDue (s : State) (p : Nat) (b : Bool) (at_ : Time) : Time :=
  let opened := if b then (pwmOf s p).openB else (pwmOf s p).openA
  if opened = 0 then at_ else max at_ (opened + s.fget PWM_CFG_MINPW p * clkT)

/-- The tap in which an edge acts, a whole clock without HR. -/
def edgeTick (s : State) (p : Nat) : Time := if s.fget PWM_CFG_HR p = 1 then tapT else clkT

/-- The interval that the edge opens would be shorter than MINPW. -/
def edgeShort (s : State) (p : Nat) (len : Option Nat) : Bool :=
  len.any (fun l => decide (l < s.fget PWM_CFG_MINPW p * 1024))

/-- The edge is judged: its interval is dropped or filled, or goes on. -/
def edgeJudged (s : State) (p : Nat) (b : Bool) (at_ : Time) (short : Bool) : State :=
  pwmMod s p (fun y => if b then { y with judgedB := at_ + 1, dropB := short }
    else { y with judgedA := at_ + 1, dropA := short })

/-- The judged edge commands its channel, and its interval opens now. -/
def edgeTurned (s : State) (p : Nat) (b on : Bool) (now : Time) : State :=
  gdCommand (pwmMod s p (fun y => if b then { y with openB := now } else { y with openA := now })) (2 * p + b2n b) on

/-- What the edge does in its tap. -/
def edgeActed (s : State) (p : Nat) (b : Bool) (at_ : Time) (on : Bool) (len : Option Nat) : State :=
  let short := edgeShort s p len
  let v := edgeJudged s p b at_ short
  let w := if short || decide (at_ < edgeDue s p b at_) then v.satAdd PWM_CNT_DROP p else v
  if short then w else edgeTurned w p b on s.clk

/-- The output stands at the edge's level already. -/
def edgeMet (s : State) (p : Nat) (b : Bool) : State :=
  pwmMod s p (fun y => if b then { y with dropB := false } else { y with dropA := false })

theorem pwmEdge_eq (hrun : s.fget PWM_STAT_RUN p = 1) (hedge : lastEdge s p b = (at_, on, len)) :
    pwmEdge s p b =
      if edgeStill s p b at_ on len then s
      else if (gdOf s (2 * p + b2n b)).cmd = on then edgeMet s p b
      else if s.clk < edgeDue s p b at_ ∨ edgeDue s p b at_ + edgeTick s p ≤ s.clk then s
      else edgeActed s p b at_ on len := by
  have hinv : (on == s.flag (if b then PWM_CFG_INVB else PWM_CFG_INVA) p) = true ↔
      (on = true ↔ s.fget (if b then PWM_CFG_INVB else PWM_CFG_INVA) p = 1) := by
    rw [← flag_eq_true, beq_iff_eq, Bool.eq_iff_iff]
  unfold pwmEdge
  rw [hedge]
  dsimp -zeta only
  extract_lets _ c min opened due judged drops inv spanned u v
  have hdrops : drops = edgeShort s p len := by
    unfold drops
    cases len <;> rfl
  have hdue : due = edgeDue s p b at_ := if_congr beq_iff_eq rfl rfl
  have htick : (if s.flag PWM_CFG_HR p then tapT else clkT) = edgeTick s p := if_congr flag_eq_true rfl rfl
  rw [flag_eq_true.mpr hrun, htick, hdue]
  refine if_congr ?_ rfl (if_congr beq_iff_eq rfl (if_congr ?_ rfl ?_))
  · simp only [Bool.not_true, Bool.false_or, Bool.or_eq_true, Bool.and_eq_true, beq_iff_eq, spanned, inv, hinv, judged,
      or_assoc, and_assoc, edgeStill]
    rfl
  · simp only [Bool.or_eq_true, decide_eq_true_eq]
  · unfold edgeActed edgeTurned edgeJudged
    rw [← hdrops, ← hdue]
    have hclk : v.clk = s.clk := by
      unfold v
      split <;> rfl
    rw [hclk]

theorem pwmEdge_stopped (hrun : s.fget PWM_STAT_RUN p ≠ 1) : pwmEdge s p b = s := by
  unfold pwmEdge
  dsimp only
  rw [flag_eq_false.mpr hrun]
  rfl

theorem pwmEdge_still (hrun : s.fget PWM_STAT_RUN p = 1) (hedge : lastEdge s p b = (at_, on, len))
    (h : edgeStill s p b at_ on len) : pwmEdge s p b = s := by
  rw [pwmEdge_eq hrun hedge, if_pos h]

theorem pwmEdge_met (hrun : s.fget PWM_STAT_RUN p = 1) (hedge : lastEdge s p b = (at_, on, len))
    (h : ¬ edgeStill s p b at_ on len) (hcmd : (gdOf s (2 * p + b2n b)).cmd = on) : pwmEdge s p b = edgeMet s p b := by
  rw [pwmEdge_eq hrun hedge, if_neg h, if_pos hcmd]

theorem pwmEdge_not_due (hrun : s.fget PWM_STAT_RUN p = 1) (hedge : lastEdge s p b = (at_, on, len))
    (h : ¬ edgeStill s p b at_ on len) (hcmd : (gdOf s (2 * p + b2n b)).cmd ≠ on)
    (hnow : s.clk < edgeDue s p b at_ ∨ edgeDue s p b at_ + edgeTick s p ≤ s.clk) : pwmEdge s p b = s := by
  rw [pwmEdge_eq hrun hedge, if_neg h, if_neg hcmd, if_pos hnow]

theorem pwmEdge_due (hrun : s.fget PWM_STAT_RUN p = 1) (hedge : lastEdge s p b = (at_, on, len))
    (h : ¬ edgeStill s p b at_ on len) (hcmd : (gdOf s (2 * p + b2n b)).cmd ≠ on)
    (hfrom : edgeDue s p b at_ ≤ s.clk) (hto : s.clk < edgeDue s p b at_ + edgeTick s p) :
    pwmEdge s p b = edgeActed s p b at_ on len := by
  rw [pwmEdge_eq hrun hedge, if_neg h, if_neg hcmd, if_neg (not_or.mpr ⟨not_lt.mpr hfrom, not_le.mpr hto⟩)]

/-- An edge in its own tap, where the interval in progress has lasted MINPW and none is dropped or filled. -/
theorem pwmEdge_on_time {l : Nat} (hrun : s.fget PWM_STAT_RUN p = 1) (hedge : lastEdge s p b = (at_, on, some l))
    (hcmd : (gdOf s (2 * p + b2n b)).cmd = !on) (hl : l ≠ 0) (hfrom : at_ ≤ s.clk) (hto : s.clk < at_ + edgeTick s p)
    (hdrop : (if b then (pwmOf s p).dropB else (pwmOf s p).dropA) = false)
    (hjudged : (if b then (pwmOf s p).judgedB else (pwmOf s p).judgedA) ≠ at_ + 1)
    (hopened : (if b then (pwmOf s p).openB else (pwmOf s p).openA) = 0 ∨
      (if b then (pwmOf s p).openB else (pwmOf s p).openA) + s.fget PWM_CFG_MINPW p * clkT ≤ at_) :
    (s.fget PWM_CFG_MINPW p * 1024 ≤ l → pwmEdge s p b = edgeTurned (edgeJudged s p b at_ false) p b on s.clk) ∧
      (l < s.fget PWM_CFG_MINPW p * 1024 → pwmEdge s p b = (edgeJudged s p b at_ true).satAdd PWM_CNT_DROP p) := by
  have hdue : edgeDue s p b at_ = at_ := by
    unfold edgeDue
    dsimp only
    rcases hopened with h | h
    · rw [if_pos h]
    · rw [max_eq_left h, ite_self]
  have hstill : ¬ edgeStill s p b at_ on (some l) := by
    rintro (h | h | ⟨-, -, h⟩)
    · exact hjudged h
    · exact hl (Option.some.inj h)
    · rw [hdrop] at h
      cases h
  have hacts : pwmEdge s p b = edgeActed s p b at_ on (some l) :=
    pwmEdge_due hrun hedge hstill (by rw [hcmd]; exact Bool.not_ne_self on) (hdue.trans_le hfrom) (by rwa [hdue])
  rw [hacts, edgeActed, hdue]
  refine ⟨fun hlong => ?_, fun hshort => ?_⟩
  · have : edgeShort s p (some l) = false := decide_eq_false (not_lt.mpr hlong)
    simp [this]
  · have : edgeShort s p (some l) = true := decide_eq_true hshort
    simp [this]

/-! ### The last edge of a pair that no set waits for (R185, R186) -/

theorem closingSet_of_no_set {peak : Bool} (hrel : (pwmOf s p).rel = none) : closingSet s p peak = none := by
  simp only [closingSet, hrel, Option.filter_none]

theorem closingCmp_of_no_set {peak : Bool} {cur : Nat} (hrel : (pwmOf s p).rel = none) :
    closingCmp s p b peak cur = cur := by rw [closingCmp, closingSet_of_no_set hrel]

theorem closingHold_of_no_set (hrel : (pwmOf s p).rel = none) : closingHold s p = 0 := by
  rw [closingHold, closingSet_of_no_set hrel]

/-- Between its edge on the way up and the one on the way down. -/
theorem lastEdge_up (hrel : (pwmOf s p).rel = none) (hcmp : cmpOf s p b < 1024 * s.fget PWM_EPER_PER p)
    (hup : placeEdge s p (upEdge s p b) ≤ s.clk) (hdn : s.clk < placeEdge s p (downEdge s p b)) :
    lastEdge s p b = (placeEdge s p (upEdge s p b), !s.flag (if b then PWM_CFG_INVB else PWM_CFG_INVA) p,
      some (2 * (1024 * s.fget PWM_EPER_PER p - cmpOf s p b))) := by
  have hne : cmpOf s p b ≠ 1024 * s.fget PWM_EPER_PER p := hcmp.ne
  simp [lastEdge, hne, hup, not_le.mpr hdn, closingCmp_of_no_set hrel, two_mul]

/-- After its edge on the way down. -/
theorem lastEdge_down (hrel : (pwmOf s p).rel = none) (hcmp : cmpOf s p b < 1024 * s.fget PWM_EPER_PER p)
    (hdn : placeEdge s p (downEdge s p b) ≤ s.clk) :
    lastEdge s p b = (placeEdge s p (downEdge s p b), s.flag (if b then PWM_CFG_INVB else PWM_CFG_INVA) p,
      some (2 * cmpOf s p b)) := by
  have hne : cmpOf s p b ≠ 1024 * s.fget PWM_EPER_PER p := hcmp.ne
  simp [lastEdge, hne, hdn, closingCmp_of_no_set hrel, closingSet_of_no_set hrel, closingHold_of_no_set hrel, two_mul]

end

/-- Settles O46: the counter's events by the lemma of each command; an output's edge by what the last edge asks for
(`pwmEdge_eq`), which is the edge up or down of the present period where no set waits. -/
theorem pairEventsAct : Obligations.PairEventsAct := by
  refine ⟨fun t p s => ⟨fun V hwait hV => ?_, exec_pwmCounterStart_idle, firstIn_unaligned (s := s.at t),
      fun hrun hnow => exec_pwmValley ⟨hrun, hnow⟩, fun hrun hup hnow => exec_pwmPeak ⟨hrun, hup, hnow⟩, ?_,
      fun hnow => exec_pwmValley_idle fun ⟨_, h⟩ => Bool.false_ne_true (hnow.symm.trans h),
      fun h => exec_pwmPeak_idle ?_, fun hrun b => ?_⟩,
    fun t p b s at_ on len hedge hrun => ?_, fun t p b s => ?_⟩
  · refine ⟨fun hstop => ?_, fun hstop => ?_⟩
    · rw [exec_pwmCounterStart hwait hV, if_pos hstop]
    · rw [exec_pwmCounterStart hwait hV, hstop]
      rfl
  · rw [exec_pwmHalfCount]
    refine ⟨fun hup => ?_, fun hup hdn => ?_, fun hup hdn => ?_⟩
    · simp only [hup, if_true]
    · simp only [hup, hdn, Bool.false_eq_true, if_false, if_true]
    · simp only [hup, hdn, Bool.false_eq_true, if_false]
  · rintro ⟨-, hup, hnow⟩
    rcases h with h | h
    · exact hup h
    · rw [h] at hnow
      cases hnow
  · refine ⟨exec_pwmValley_idle fun ⟨h, _⟩ => hrun h, exec_pwmPeak_idle fun ⟨h, _⟩ => hrun h,
      exec_pwmHalfCount_stopped hrun, ?_⟩
    exact congrArg Host.Outcome.next (pwmEdge_stopped (s := s.at t) hrun)
  · intro u x min drop opened due tick still c
    refine ⟨fun hstill => ?_, fun hstill hcmd => ?_, fun hstill hcmd hnow => ?_, fun hstill hcmd hfrom hto => ?_⟩
    all_goals refine congrArg Host.Outcome.next ?_
    · exact pwmEdge_still (s := u) hrun hedge hstill
    · exact pwmEdge_met (s := u) hrun hedge hstill hcmd
    · exact pwmEdge_not_due (s := u) hrun hedge hstill hcmd hnow
    · exact pwmEdge_due (s := u) hrun hedge hstill hcmd hfrom hto
  · intro u x c full cmp min up dn tick inv opened judged turned hrun hrel hdrop
    have hinv : decide inv = u.flag (if b then PWM_CFG_INVB else PWM_CFG_INVA) p := rfl
    rw [hinv]
    refine ⟨fun hcmp hcmd hup hto hdn hjudged hopened => ?_, fun hcmp₀ hcmp hcmd hdn hto hjudged hopened => ?_⟩
    · have hlen : 2 * (full - cmp) ≠ 0 := by omega
      obtain ⟨hlong, hshort⟩ := pwmEdge_on_time (s := u) hrun (lastEdge_up hrel hcmp hup hdn)
        (by rw [Bool.not_not]; exact hcmd) hlen hup hto hdrop hjudged hopened
      exact ⟨fun h => congrArg Host.Outcome.next (hlong h), fun h => congrArg Host.Outcome.next (hshort h)⟩
    · have hlen : 2 * cmp ≠ 0 := by omega
      obtain ⟨hlong, hshort⟩ := pwmEdge_on_time (s := u) hrun (lastEdge_down hrel hcmp hdn) hcmd
        hlen hdn hto hdrop hjudged hopened
      exact ⟨fun h => congrArg Host.Outcome.next (hlong h), fun h => congrArg Host.Outcome.next (hshort h)⟩

end Sys2Proof.Machine
end


section
/-! A statement that fails at a state which no access reaches: a feedback that stands out of its one bit. -/
namespace Sys2Proof.Machine

/-! ### A feedback that reads neither 0 nor 1 (R215) -/

/-- When the feedback disagrees with a held state: on hold disagrees with every value of FB but 1, not with 0 alone. -/
theorem disagrees_iff {s : State} {c : Nat} : disagrees s c = true ↔ s.fget GD_CFG_EN c = 1 ∧ bit s.flt.forced c = false ∧
    ((heldState (s.fget GD_STAT_PHASE c) = 0 ∧ s.fget GD_STAT_FB c = 1) ∨
      (heldState (s.fget GD_STAT_PHASE c) = 1 ∧ s.fget GD_STAT_FB c ≠ 1)) := by
  by_cases hfb : s.fget GD_STAT_FB c = 1 <;> simp [disagrees, State.flag, hfb, and_assoc]

@[simp] theorem disagrees_at (s : State) (t : Time) (c : Nat) : disagrees (s.at t) c = disagrees s c := rfl

/-- A disagreement that is not yet counted and has lasted 8 clocks is counted (R215). -/
theorem exec_gdFbmis {t : Time} {c : Chan} {s : State} (hdis : disagrees s c = true) (hnew : (gdOf s c).mism = false)
    (hlast : (gdOf s c).steady + 8 * clkT ≤ max s.clk t) :
    exec (.gdFbmis t c) s = .next (syncGdFb (((gdMod (s.at t) c (fun x => { x with mism := true })).fset
      GD_EVT_FBMIS c 1).satAdd GD_CNT1_FBERR c)) := by
  have hdue : (disagrees (s.at t) c && !(gdOf (s.at t) c).mism &&
      decide ((gdOf (s.at t) c).steady + 8 * clkT ≤ (s.at t).clk)) = true := by
    rw [disagrees_at, gdOf_at, hdis, hnew]
    exact decide_eq_true hlast
  exact congrArg Host.Outcome.next (if_pos hdue)

/-- Channel 0 is enabled and in on hold, and its FB holds 2. -/
def strayFb : State := (State.reset.fsets [(GD_CFG_EN, 0, 1), (GD_STAT_PHASE, 0, 3)]).putRaw GD_STAT_FB 0 2

theorem fget_phase_strayFb : strayFb.fget GD_STAT_PHASE (0 : Chan) = 3 := by decide +kernel

theorem fget_fb_strayFb : strayFb.fget GD_STAT_FB (0 : Chan) = 2 := by decide +kernel

theorem disagrees_strayFb : disagrees strayFb (0 : Chan) = true := by
  refine disagrees_iff.mpr ⟨by decide +kernel, by decide +kernel, .inr ⟨?_, ?_⟩⟩
  · rw [fget_phase_strayFb]
    rfl
  · rw [fget_fb_strayFb]
    decide

theorem exec_gdFbmis_strayFb : exec (.gdFbmis (8 * clkT) 0) strayFb = .next (syncGdFb
    (((gdMod (strayFb.at (8 * clkT)) (0 : Chan) (fun x => { x with mism := true })).fset GD_EVT_FBMIS (0 : Chan) 1).satAdd
      GD_CNT1_FBERR (0 : Chan))) :=
  exec_gdFbmis disagrees_strayFb (by decide +kernel) (by decide +kernel)

/-- Refutes O47: the statement has a mismatch of on hold due where FB is 0, and the event without effect wherever none is due;
the model counts one wherever FB is not 1 (`disagrees_iff`), and so at 2, a value that the statement does not exclude. -/
theorem not_gateChannelsAct : ¬ Obligations.GateChannelsAct := by
  intro h
  obtain ⟨-, hseq, -⟩ := h
  obtain ⟨-, -, -, -, -, -, -, -, -, -, -, -, -, hidle⟩ := hseq (8 * clkT) 0 strayFb
  have hnext := hidle fun ⟨_, _, hheld, _⟩ => by
    rcases hheld with ⟨_, hone⟩ | ⟨_, hzero⟩
    · exact absurd (fget_fb_strayFb.symm.trans hone) (by decide)
    · exact absurd (fget_fb_strayFb.symm.trans hzero) (by decide)
  rw [exec_gdFbmis_strayFb, Host.Outcome.next.injEq] at hnext
  have hcounted : (strayFb.at (8 * clkT)).fget GD_EVT_FBMIS 0 = 1 := by
    rw [← hnext]
    decide +kernel
  exact absurd hcounted (by decide +kernel)

end Sys2Proof.Machine
end


section
/-! A statement that fails at a state which no access reaches: a CPEND that stands out of its one bit. -/
namespace Sys2Proof.Machine

/-! ### A commit where CPEND reads neither 0 nor 1 (R231) -/

section
variable {s : State} {m : Master} {w : Word}

/-- A commit waits for the one before where CPEND is 1, not where it differs from 0. -/
theorem commitCheck_eq_ok : commitCheck s = .ok ↔ paramCheck s = .ok ∧ s.fget SPR_STAT_CPEND ≠ 1 := by
  have hbusy : chk (s.flag SPR_STAT_CPEND) .busy = .ok ↔ s.fget SPR_STAT_CPEND ≠ 1 := by
    rw [← flag_eq_false]
    cases s.flag SPR_STAT_CPEND <;> decide
  rw [commitCheck, firstStatus_eq_ok]
  simp [hbusy]

theorem sprGuard_ok {m : Nat} (eff : State → State) : sprGuard s m .ok eff = (.ok, eff s) := rfl

/-- A word with COMMIT alone takes the staged parameters, in every state of the regulator. -/
theorem sprCtlEff_commit (m : Nat) (hok : commitCheck s = .ok) : sprCtlEff m 4 s = (.ok, takeParams s) := by
  have hstart : bit 4 0 = false := by decide
  have hstop : bit 4 1 = false := by decide
  have hcommit : bit 4 2 = true := by decide
  have hst : firstStatus [.ok, .ok, .ok, .ok] = .ok := by decide
  simp [sprCtlEff, hstart, hstop, hcommit, hok, chk, hst, sprGuard_ok]

theorem exec_sprStart_commit (h : s.MayWrite m 0x120020 4 true) (hok : commitCheck (countRsvd s m 0x120020 4) = .ok) :
    exec (.sprStart m 4) s = .next (s.noted m 0x120020 4 (takeParams (countRsvd s m 0x120020 4))) :=
  congrArg Host.Outcome.next (rowWrite_ok (w := 4) h (sprCtlEff_commit m hok))

end

theorem fget_takeParams_sprErr (s : State) : (takeParams s).fget SPR_ERR_VALID = s.fget SPR_ERR_VALID := by
  unfold takeParams
  simp (disch := decide) only [fsets_cons, fsets_nil, fget_fset_far]
  rfl

/-- A cell whose PD9 is on, with staged parameters that pass Table 9.8, and with 2 in CPEND. -/
def strayCpend : State :=
  ((State.reset.fsets [(PWR_DOMSTAT_ON, 0, 0x1ffff), (SPR_VREF_VREF, 0, 0x42c80000), (SPR_IPHMAX_IPH_MAX, 0, 0x41200000),
    (SPR_IPHTRIP_IPH_TRIP, 0, 0x41a00000), (SPR_VLINKOV_VLINK_OV, 0, 0x43480000), (SPR_VBATMIN_VBAT_MIN, 0, 0x41200000),
    (SPR_VBATMAX_VBAT_MAX, 0, 0x42480000), (SPR_KV_KV, 0, F_ONE), (SPR_FZ_FZ, 0, 0x42c80000), (SPR_FZ_FZ, 1, 0x42c80000),
    (SPR_FP_FP, 0, 0x447a0000), (SPR_FP_FP, 1, 0x447a0000), (SPR_DMAX_DMAX, 0, 0x3f000000), (SPR_LPH_LPH, 0, 0x3a83126f),
    (SPR_OPENDI_OPEN_DI, 0, F_ONE), (SPR_SSRATE_SS_RATE, 0, F_ONE), (SPR_SSILIM_SS_ILIM, 0, F_ONE),
    (SPR_SSBAND_SS_BAND, 0, F_ONE), (SPR_SHEDHI_SHED_HI, 0, 0x3f000000), (SPR_STEPI_STEP_I, 0, F_ONE),
    (SPR_SKIPBAND_SKIP_BAND, 0, F_ONE)]).fsets
  ((List.range 6).map (fun i => (SPR_GAIN_GAIN, i, F_ONE)))).putRaw SPR_STAT_CPEND 0 2

theorem mayWrite_strayCpend : strayCpend.MayWrite (0 : Master) 0x120020 4 true := ⟨by decide, by decide +kernel⟩

theorem fget_cpend_strayCpend : strayCpend.fget SPR_STAT_CPEND = 2 := by decide +kernel

theorem fget_sprErr_strayCpend : strayCpend.fget SPR_ERR_VALID = 0 := by decide +kernel

theorem commitCheck_strayCpend : commitCheck (countRsvd strayCpend (0 : Master) 0x120020 4) = .ok := by
  refine commitCheck_eq_ok.mpr ⟨by decide +kernel, ?_⟩
  rw [countRsvd_fget _ _ _ _ _ (by decide), fget_cpend_strayCpend]
  decide

/-- Refutes O49: the statement has a commit refused wherever CPEND is not 0; the model refuses it where CPEND is 1
(`commitCheck_eq_ok`), and so takes it at 2, a value that the statement does not exclude, with nothing in SPR_ERR. -/
theorem not_stringPortActs : ¬ Obligations.StringPortActs := by
  intro h
  obtain ⟨hctl, -⟩ := h
  obtain ⟨-, -, -, hrefused⟩ := hctl 0 4 strayCpend mayWrite_strayCpend
  have hbusy : strayCpend.fget SPR_STAT_CPEND ≠ 0 := by
    rw [fget_cpend_strayCpend]
    decide
  obtain ⟨u, hu, hvalid, -⟩ := hrefused (.inr (.inr (.inl ⟨rfl, fun ⟨_, hzero⟩ => hbusy hzero⟩)))
  rw [exec_sprStart_commit mayWrite_strayCpend commitCheck_strayCpend, Host.Outcome.next.injEq] at hu
  have hnone : u.fget SPR_ERR_VALID = 0 := by
    rw [← hu, sameRegs_fget (noted_frame _ _ _) _ _ (by decide) (by decide), fget_takeParams_sprErr,
      countRsvd_fget _ _ _ _ _ (by decide), fget_sprErr_strayCpend]
  exact absurd (hvalid.symm.trans hnone) (by decide)

end Sys2Proof.Machine
end


section
/-! The converters and the window comparators (Chapter 10): what the command of each event or register does. -/
namespace Sys2Proof.Machine

/-! ### Flags, fields at one index and the refusals in ADC_ERR -/

theorem flag_of_clear {s : State} {F : Fld} {i : Nat} (h : s.fget F i = 0) : s.flag F i = false :=
  flag_eq_false.mpr (by omega)

/-- A write of another field at the same index, whatever index that is. -/
theorem fget_fset_field (s : State) {F G : Fld} {i : Nat} (v : Nat) (h : G.addr * 32 + G.lo ≠ F.addr * 32 + F.lo) :
    (s.fset F i v).fget G i = s.fget G i :=
  fget_fset_other s v (by unfold Fld.key; omega)

theorem adcGuard_ok {s : State} {m conv : Nat} {st : Status} {eff : State → State} (h : st = .ok) :
    adcGuard s m conv st eff = (.ok, eff s) := if_pos (by rw [h]; decide)

theorem adcGuard_refused {s : State} {m conv : Nat} {st : Status} {eff : State → State} (h : st ≠ .ok) :
    adcGuard s m conv st eff = (st, adcErr s m conv st) := if_neg (by simpa using h)

/-! ### The starts up to now take no time (R251) -/

@[simp] theorem adcMod_clk (s : State) (c : Nat) (f : AdcSt → AdcSt) : (adcMod s c f).clk = s.clk := rfl

@[simp] theorem beginSlot_clk (s : State) (c slot : Nat) (first : Time) (wake idle : Bool) :
    (beginSlot s c slot first wake idle).clk = s.clk := rfl

@[simp] theorem pendStart_clk (s : State) (c : Nat) (a : Time) : (pendStart s c a).clk = s.clk := rfl

@[simp] theorem takeHeld_clk (s : State) (c : Nat) (lim : Time) : (takeHeld s c lim).clk = s.clk := by
  unfold takeHeld
  split <;> rfl

@[simp] theorem regStart_clk (s : State) (c : Nat) (a : Time) : (regStart s c a).clk = s.clk := by
  unfold regStart
  repeat' split
  all_goals rfl

@[simp] theorem startDue_clk (s : State) (c : Nat) (a : Time) : (startDue c s a).clk = s.clk := by
  simp only [startDue, apply_ite State.clk, pendStart_clk, regStart_clk, takeHeld_clk, ite_self]

@[simp] theorem foldl_startDue_clk (s : State) (c : Nat) (l : List Time) : (l.foldl (startDue c) s).clk = s.clk := by
  induction l generalizing s with
  | nil => rfl
  | cons a l ih => rw [List.foldl_cons, ih, startDue_clk]

@[simp] theorem adcSettle_clk (s : State) (c : Nat) : (adcSettle s c).clk = s.clk := by simp [adcSettle]

/-! ### ADC_CFG (R248, R262) -/

section
variable {s v : State} {m c w : Nat}

/-- ADC_CFG without EN, as a write gives it. -/
def cfgWritten (w : Nat) : Nat :=
  bits w 30 1 * 2 ^ 30 + bits w 24 3 * 2 ^ 24 + bits w 16 5 * 2 ^ 16 + bits w 12 2 * 2 ^ 12 + w % 32

/-- The status of a write of ADC_CFG. -/
def adcCfgStatus (v : State) (c w : Nat) : Status :=
  firstStatus [chk (4 < bits w 24 3 || 16 < w % 32) .range,
    chk (v.flag ADC_CFG_EN c && cfgWritten w != adcCfgRest v c) .conflict,
    if bit w 31 && !v.flag ADC_CFG_EN c then adcEnCheck v c w else .ok]

/-- The fields of ADC_CFG take what is written. -/
def adcCfgPut (v : State) (c w : Nat) : State :=
  v.fsets [(ADC_CFG_EN, c, b2n (bit w 31)), (ADC_CFG_AWAKE, c, bits w 30 1), (ADC_CFG_TRIG, c, bits w 24 3),
    (ADC_CFG_TSEL, c, bits w 16 5), (ADC_CFG_EVT, c, bits w 12 2), (ADC_CFG_SLOTS, c, w % 32)]

/-- A converter is enabled at the instant `now`: one that was OFF is IDLE, and it acquires the input of slot 0. -/
def adcEnabled (v : State) (c w : Nat) (now : Time) : State :=
  let x := adcMod (adcCfgPut v c w) c (fun x => { x with timerAt := now, freeAt := now + acqT, down := false })
  if v.fget ADC_STAT_STATE c = A_OFF then x.fset ADC_STAT_STATE c A_IDLE else x

theorem adcCfgStatus_of_disabled (htrig : bits w 24 3 ≤ 4) (hslots : w % 32 ≤ 16) (hwas : v.flag ADC_CFG_EN c = false)
    (hcheck : bit w 31 = true → adcEnCheck v c w = .ok) : adcCfgStatus v c w = .ok := by
  have hlast : (if bit w 31 = true then adcEnCheck v c w else Status.ok) = .ok := ite_eq_right_iff.mpr hcheck
  exact firstStatus_eq_ok.mpr (by simp [chk, htrig, hslots, hwas, hlast])

theorem adcCfgStatus_of_same (htrig : bits w 24 3 ≤ 4) (hslots : w % 32 ≤ 16) (hwas : v.flag ADC_CFG_EN c = true)
    (hsame : cfgWritten w = adcCfgRest v c) : adcCfgStatus v c w = .ok :=
  firstStatus_eq_ok.mpr (by simp [chk, htrig, hslots, hwas, hsame])

theorem fget_adcCfgPut_state (v : State) (c w : Nat) :
    (adcCfgPut v c w).fget ADC_STAT_STATE c = v.fget ADC_STAT_STATE c := by
  simp (disch := decide) only [adcCfgPut, fsets_cons, fsets_nil, fget_fset_field]

theorem adcCfgEff_refused (hv : adcSettle s c = v) (hst : adcCfgStatus v c w ≠ .ok) :
    adcCfgEff m c w s = (adcCfgStatus v c w, adcErr v m c (adcCfgStatus v c w)) := by
  subst hv
  unfold adcCfgEff
  dsimp only
  exact adcGuard_refused hst

/-- A write that is taken puts the fields; beside it a converter is enabled, or stopped. -/
theorem adcCfgEff_ok (hv : adcSettle s c = v) (hst : adcCfgStatus v c w = .ok) : adcCfgEff m c w s =
    (.ok, if (bit w 31 && !v.flag ADC_CFG_EN c) = true then adcEnabled v c w s.clk
      else if (v.flag ADC_CFG_EN c && !bit w 31) = true then adcStop (adcCfgPut v c w) c else adcCfgPut v c w) := by
  subst hv
  unfold adcCfgEff
  dsimp only
  refine (adcGuard_ok hst).trans (congrArg (Prod.mk Status.ok) (ite_congr rfl (fun _ => ?_) fun _ => rfl))
  have hclk : (adcCfgPut (adcSettle s c) c w).clk = s.clk := by simp [adcCfgPut]
  rw [adcEnabled, ← fget_adcCfgPut_state (adcSettle s c) c w, ← hclk]
  simp only [beq_iff_eq]
  rfl

theorem adcCfgEff_enables (hv : adcSettle s c = v) (hst : adcCfgStatus v c w = .ok) (hwas : v.flag ADC_CFG_EN c = false)
    (hen : bit w 31 = true) : adcCfgEff m c w s = (.ok, adcEnabled v c w s.clk) := by
  simp [adcCfgEff_ok hv hst, hwas, hen]

theorem adcCfgEff_stops (hv : adcSettle s c = v) (hst : adcCfgStatus v c w = .ok) (hwas : v.flag ADC_CFG_EN c = true)
    (hen : bit w 31 = false) : adcCfgEff m c w s = (.ok, adcStop (adcCfgPut v c w) c) := by
  simp [adcCfgEff_ok hv hst, hwas, hen]

theorem adcCfgEff_keeps_enable (hv : adcSettle s c = v) (hst : adcCfgStatus v c w = .ok)
    (hsame : v.flag ADC_CFG_EN c = bit w 31) : adcCfgEff m c w s = (.ok, adcCfgPut v c w) := by
  simp [adcCfgEff_ok hv hst, hsame]

end

/-! ### ADC_INJ (R252) -/

section
variable {s v : State} {m c w : Nat}

/-- The status of a write of ADC_INJ. -/
def injStatus (v : State) (c w : Nat) : Status :=
  firstStatus [convArgs w, chk (bit w 31 && (!v.flag ADC_CFG_EN c || pullTaken v c w)) .conflict,
    chk (bit w 31 && v.flag ADC_STAT_INJP c) .busy]

theorem injStatus_of_no_request (hargs : convArgs w = .ok) (hgo : bit w 31 = false) : injStatus v c w = .ok :=
  firstStatus_eq_ok.mpr (by simp [chk, hargs, hgo])

theorem injStatus_of_free (hargs : convArgs w = .ok) (hen : v.fget ADC_CFG_EN c = 1) (hpull : pullTaken v c w = false)
    (hfree : v.fget ADC_STAT_INJP c = 0) : injStatus v c w = .ok :=
  firstStatus_eq_ok.mpr (by simp [chk, hargs, flag_eq_true.mpr hen, hpull, flag_of_clear hfree])

theorem injEff_refused (hv : adcSettle s c = v) (hst : injStatus v c w ≠ .ok) :
    injEff m c w s = (injStatus v c w, adcErr v m c (injStatus v c w)) := by
  subst hv
  exact adcGuard_refused hst

theorem injEff_no_request (hv : adcSettle s c = v) (hst : injStatus v c w = .ok) (hgo : bit w 31 = false) :
    injEff m c w s = (.ok, v) := by
  subst hv
  exact (adcGuard_ok hst).trans (congrArg (Prod.mk Status.ok) (if_neg (by rw [hgo]; decide)))

theorem injEff_request (hv : adcSettle s c = v) (hst : injStatus v c w = .ok) (hgo : bit w 31 = true) :
    injEff m c w s = (.ok, injTake v c (w % 8, bits w 4 4, bits w 8 2)) := by
  subst hv
  exact (adcGuard_ok hst).trans (congrArg (Prod.mk Status.ok) (if_pos hgo))

end

section
variable {v : State} {c : Nat} {q : Nat × Nat × Nat} {j : AdcJob}

theorem injTake_idle (hst : v.fget ADC_STAT_STATE c = A_IDLE) :
    injTake v c q = beginInj (v.fset ADC_STAT_INJP c 1) c q (v.clk + 819200) false := by
  simp [injTake, hst]

theorem injTake_down (hst : v.fget ADC_STAT_STATE c = A_DOWN) : injTake v c q =
    beginInj ((v.fset ADC_STAT_INJP c 1).satAdd ADC_CNT1_WAKE c) c q (v.clk + 819200) true := by
  simp [injTake, hst, A_DOWN, A_IDLE]

/-- A converter that converts takes the request by what it converts. -/
theorem injTake_of_job (hidle : v.fget ADC_STAT_STATE c ≠ A_IDLE) (hdown : v.fget ADC_STAT_STATE c ≠ A_DOWN)
    (hjob : (adcOf v c).job = some j) : injTake v c q =
      if j.idle && j.first / adcClk == v.clk / adcClk && !v.flag ADC_STAT_HELD c then
        (beginInj ((v.fset ADC_STAT_INJP c 1).satAdd ADC_CNT0_HELD c) c q (v.clk + 819200) j.wake).fset ADC_STAT_HELD c 1
      else adcMod (v.fset ADC_STAT_INJP c 1) c (fun x => { x with inj := some q }) := by
  have hheld : (v.fset ADC_STAT_INJP c 1).flag ADC_STAT_HELD c = v.flag ADC_STAT_HELD c :=
    congrArg (· == 1) (fget_fset_field v 1 (by decide))
  have hjob' : (adcOf (v.fset ADC_STAT_INJP c 1) c).job = some j := hjob
  unfold injTake
  dsimp only
  rw [if_neg (by simpa using hidle), if_neg (by simpa using hdown), hjob', ← hheld]
  rfl

theorem injTake_alone (hidle : v.fget ADC_STAT_STATE c ≠ A_IDLE) (hdown : v.fget ADC_STAT_STATE c ≠ A_DOWN)
    (hjob : (adcOf v c).job = none) :
    injTake v c q = adcMod (v.fset ADC_STAT_INJP c 1) c (fun x => { x with inj := some q }) := by
  have hjob' : (adcOf (v.fset ADC_STAT_INJP c 1) c).job = none := hjob
  unfold injTake
  dsimp only
  rw [if_neg (by simpa using hidle), if_neg (by simpa using hdown), hjob']

theorem injTake_beside (hidle : v.fget ADC_STAT_STATE c ≠ A_IDLE) (hdown : v.fget ADC_STAT_STATE c ≠ A_DOWN)
    (hjob : (adcOf v c).job = some j) (hfrom : j.idle = true) (hsame : j.first / adcClk = v.clk / adcClk)
    (hheld : v.fget ADC_STAT_HELD c = 0) : injTake v c q =
      (beginInj ((v.fset ADC_STAT_INJP c 1).satAdd ADC_CNT0_HELD c) c q (v.clk + 819200) j.wake).fset ADC_STAT_HELD c 1 := by
  rw [injTake_of_job hidle hdown hjob]
  exact if_pos (by simp [hfrom, hsame, flag_of_clear hheld])

theorem injTake_behind (hidle : v.fget ADC_STAT_STATE c ≠ A_IDLE) (hdown : v.fget ADC_STAT_STATE c ≠ A_DOWN)
    (hjob : (adcOf v c).job = some j)
    (h : j.idle = false ∨ j.first / adcClk ≠ v.clk / adcClk ∨ v.fget ADC_STAT_HELD c = 1) :
    injTake v c q = adcMod (v.fset ADC_STAT_INJP c 1) c (fun x => { x with inj := some q }) := by
  rw [injTake_of_job hidle hdown hjob]
  refine if_neg ?_
  rcases h with h | h | h
  · simp [h]
  · simp [h]
  · simp [flag_eq_true.mpr h]

end

/-! ### ADC_CTL and the end of a calibration (R253) -/

section
variable {s v : State} {m c w : Nat}

/-- The status of a write of ADC_CTL. -/
def adcCtlStatus (v : State) (c w : Nat) : Status :=
  firstStatus [chk (bit w 0 && sprOwnsConv v c) .conflict,
    chk (bit w 0 && (v.fget ADC_STAT_STATE c == A_CAL || v.flag ADC_STAT_CALP c)) .busy]

/-- A held start is discarded. -/
def heldDropped (v : State) (c : Nat) : State :=
  if v.flag ADC_STAT_HELD c then (v.fset ADC_STAT_HELD c 0).satAdd ADC_CNT0_MISS c else v

theorem adcCtlStatus_of_no_request (hcal : bit w 0 = false) : adcCtlStatus v c w = .ok :=
  firstStatus_eq_ok.mpr (by simp [chk, hcal])

theorem adcCtlStatus_of_free (hown : sprOwnsConv v c = false) (hst : v.fget ADC_STAT_STATE c ≠ A_CAL)
    (hcalp : v.fget ADC_STAT_CALP c = 0) : adcCtlStatus v c w = .ok :=
  firstStatus_eq_ok.mpr (by simp [chk, hown, hst, flag_of_clear hcalp])

theorem heldDropped_clk (v : State) (c : Nat) : (heldDropped v c).clk = v.clk := by
  unfold heldDropped
  split <;> rfl

theorem adcCtlEff_refused (hv : adcSettle s c = v) (hst : adcCtlStatus v c w ≠ .ok) :
    adcCtlEff m c w s = (adcCtlStatus v c w, adcErr v m c (adcCtlStatus v c w)) := by
  subst hv
  unfold adcCtlEff
  dsimp only
  exact adcGuard_refused hst

theorem adcCtlEff_no_request (hv : adcSettle s c = v) (hcal : bit w 0 = false) : adcCtlEff m c w s = (.ok, v) := by
  subst hv
  unfold adcCtlEff
  dsimp only
  exact (adcGuard_ok (adcCtlStatus_of_no_request hcal)).trans
    (congrArg (Prod.mk Status.ok) (if_pos (by rw [hcal]; rfl)))

/-- A calibration that is asked for waits for the set in progress, or begins (R253). -/
theorem adcCtlEff_request (hv : adcSettle s c = v) (hst : adcCtlStatus v c w = .ok) (hcal : bit w 0 = true) :
    adcCtlEff m c w s = (.ok, if v.fget ADC_STAT_STATE c = A_CONV then (heldDropped v c).fset ADC_STAT_CALP c 1
      else beginCal (heldDropped v c) c s.clk) := by
  have hclk : (heldDropped v c).clk = s.clk := by rw [heldDropped_clk, ← hv, adcSettle_clk]
  subst hv
  rw [← hclk]
  unfold adcCtlEff
  dsimp only
  refine (adcGuard_ok hst).trans (congrArg (Prod.mk Status.ok) ((if_neg (by rw [hcal]; decide)).trans ?_))
  simp only [beq_iff_eq]
  rfl

theorem adcCtlEff_pends (hv : adcSettle s c = v) (hst : adcCtlStatus v c w = .ok) (hcal : bit w 0 = true)
    (hconv : v.fget ADC_STAT_STATE c = A_CONV) :
    adcCtlEff m c w s = (.ok, (heldDropped v c).fset ADC_STAT_CALP c 1) :=
  (adcCtlEff_request hv hst hcal).trans (congrArg (Prod.mk Status.ok) (if_pos hconv))

theorem adcCtlEff_begins (hv : adcSettle s c = v) (hst : adcCtlStatus v c w = .ok) (hcal : bit w 0 = true)
    (hconv : v.fget ADC_STAT_STATE c ≠ A_CONV) : adcCtlEff m c w s = (.ok, beginCal (heldDropped v c) c s.clk) :=
  (adcCtlEff_request hv hst hcal).trans (congrArg (Prod.mk Status.ok) (if_neg hconv))

end

/-! ### Calibrations, results, the timer and power (R248 to R253) -/

section
variable {t : Time} {c : Conv} {s v : State} {j : AdcJob} {ofs gain : Word} {skews levels : List Int} {vdda : Int}

/-- A calibration ends: what it found is kept, and the converter goes on once it has acquired its input. -/
def adcCalibrated (v : State) (c : Conv) (ofs gain : Word) (skews : List Int) : State :=
  let u := putSkews (v.fsets [(ADC_CALOFS_OFS, c, ofs.toNat), (ADC_CALGAIN_GAIN, c, gain.toNat)]) (some c.val) skews
  let u := adcMod u c (fun x => { x with calGain := refGain u c })
  adcNext (u.fset ADC_STAT_STATE c (if u.flag ADC_CFG_EN c then A_IDLE else A_OFF)) c
    ((adcOf v c).calAt + 20 * usT + acqT) none

theorem exec_adcCalDone_eq (hv : adcSettle (s.at t) c = v) : exec (.adcCalDone t c ofs gain skews) s =
    .next (if v.fget ADC_STAT_STATE c = A_CAL ∧ (adcOf v c).calAt + 20 * usT ≤ max s.clk t then
      adcCalibrated v c ofs gain skews else v) := by
  have hclk : v.clk = max s.clk t := by rw [← hv, adcSettle_clk, State.at]
  subst hv
  show execAdcCalDone t c ofs gain skews s = _
  unfold execAdcCalDone
  simp only [hclk, Bool.and_eq_true, beq_iff_eq, decide_eq_true_eq]
  rfl

theorem exec_adcCalDone (hv : adcSettle (s.at t) c = v) (hst : v.fget ADC_STAT_STATE c = A_CAL)
    (hend : (adcOf v c).calAt + 20 * usT ≤ max s.clk t) :
    exec (.adcCalDone t c ofs gain skews) s = .next (adcCalibrated v c ofs gain skews) :=
  (exec_adcCalDone_eq hv).trans (congrArg Host.Outcome.next (if_pos ⟨hst, hend⟩))

theorem exec_adcCalDone_idle (hv : adcSettle (s.at t) c = v)
    (h : v.fget ADC_STAT_STATE c ≠ A_CAL ∨ max s.clk t < (adcOf v c).calAt + 20 * usT) :
    exec (.adcCalDone t c ofs gain skews) s = .next v :=
  (exec_adcCalDone_eq hv).trans
    (congrArg Host.Outcome.next (if_neg (not_and_or.mpr (h.imp_right not_le.mpr))))

/-- The result of a set is in its register. -/
def adcWritten (v : State) (c : Conv) (j : AdcJob) (levels : List Int) (vdda : Int) : State :=
  writeResult v c (if j.inj then 5 else j.pos) j (levels.map (adcCode v c)) (pullFlows v c j levels vdda)

/-- The result of a set is written, and the converter goes on at the set's end. -/
def adcResulted (v : State) (c : Conv) (j : AdcJob) (levels : List Int) (vdda : Int) : State :=
  let u := adcWritten v c j levels vdda
  let next := if j.inj then (adcOf u c).nextSlot else if j.slot + 1 < slotsOf u c then some (j.slot + 1) else none
  adcNext (adcMod u c (fun x => { x with job := none, nextSlot := next })) c (jobEnd j)
    (some (if j.inj then j.first else (adcOf u c).seqAt))

theorem exec_adcResult_eq (hv : adcSettle (s.at t) c = v) (hjob : (adcOf v c).job = some j) :
    exec (.adcResult t c levels vdda) s = .next (if v.fget ADC_STAT_STATE c ≠ A_CONV ∨ (adcOf v c).waking = true ∨
      max s.clk t < jobEnd j ∨ levels.length ≠ 2 ^ j.k then v else adcResulted v c j levels vdda) := by
  have hclk : v.clk = max s.clk t := by rw [← hv, adcSettle_clk, State.at]
  subst hv
  show execAdcResult t c levels vdda s = _
  unfold execAdcResult
  simp only [hjob, hclk, Bool.or_eq_true, bne_iff_ne, decide_eq_true_eq, or_assoc]
  rfl

theorem exec_adcResult (hv : adcSettle (s.at t) c = v) (hjob : (adcOf v c).job = some j)
    (hst : v.fget ADC_STAT_STATE c = A_CONV) (hwake : (adcOf v c).waking = false) (hend : jobEnd j ≤ max s.clk t)
    (hlen : levels.length = 2 ^ j.k) :
    exec (.adcResult t c levels vdda) s = .next (adcResulted v c j levels vdda) := by
  rw [exec_adcResult_eq hv hjob]
  refine congrArg Host.Outcome.next (if_neg ?_)
  rintro (h | h | h | h)
  · exact h hst
  · rw [hwake] at h
    cases h
  · exact absurd hend (not_le.mpr h)
  · exact h hlen

theorem exec_adcResult_early (hv : adcSettle (s.at t) c = v) (hjob : (adcOf v c).job = some j)
    (h : max s.clk t < jobEnd j ∨ levels.length ≠ 2 ^ j.k) : exec (.adcResult t c levels vdda) s = .next v :=
  (exec_adcResult_eq hv hjob).trans (congrArg Host.Outcome.next (if_pos (.inr (.inr h))))

theorem exec_adcResult_idle (hv : adcSettle (s.at t) c = v)
    (h : v.fget ADC_STAT_STATE c ≠ A_CONV ∨ (adcOf v c).waking = true ∨ (adcOf v c).job = none) :
    exec (.adcResult t c levels vdda) s = .next v := by
  cases hjob : (adcOf v c).job with
  | none =>
    subst hv
    show execAdcResult t c levels vdda s = _
    unfold execAdcResult
    simp only [hjob]
  | some j =>
    rw [exec_adcResult_eq hv hjob]
    exact congrArg Host.Outcome.next (if_pos (h.imp_right fun h => .inl (h.resolve_right (by simp [hjob]))))

theorem adcResulted_injected (h : j.inj = true) : adcResulted v c j levels vdda =
    (let u := adcWritten v c j levels vdda
     adcNext (adcMod u c (fun x => { x with job := none, nextSlot := (adcOf u c).nextSlot })) c (jobEnd j)
       (some j.first)) := by
  simp only [adcResulted, h, if_true]

theorem adcResulted_regular (h : j.inj = false) : adcResulted v c j levels vdda =
    (let u := adcWritten v c j levels vdda
     adcNext (adcMod u c (fun x => { x with
       job := none, nextSlot := if j.slot + 1 < slotsOf u c then some (j.slot + 1) else none })) c (jobEnd j)
       (some (adcOf u c).seqAt)) := by
  simp only [adcResulted, h, Bool.false_eq_true, if_false]

/-- The instant of a converter's next timer expiry. -/
def adcTimerDue (s : State) (c : Conv) : Time := (adcOf s c).timerAt + s.fget ADC_TIMER_PER c * 163840

theorem exec_adcTimerExpiry_eq : exec (.adcTimerExpiry t c) s =
    .next (if s.fget ADC_CFG_EN c = 1 ∧ s.fget ADC_CFG_TRIG c = 1 ∧ domOn s (instDom .adc c) = true ∧
        adcTimerDue s c ≤ max s.clk t then
      adcSettle (pendStart (adcMod (s.at t) c (fun x => { x with timerAt := adcTimerDue s c })) c (adcTimerDue s c)) c
      else s.at t) := by
  show execAdcTimerExpiry t c s = _
  unfold execAdcTimerExpiry
  simp only [Bool.and_eq_true, flag_eq_true, beq_iff_eq, decide_eq_true_eq, and_assoc]
  rfl

theorem exec_adcTimerExpiry (hen : s.fget ADC_CFG_EN c = 1) (htrig : s.fget ADC_CFG_TRIG c = 1)
    (hdom : domOn s (instDom .adc c) = true) (hdue : adcTimerDue s c ≤ max s.clk t) :
    exec (.adcTimerExpiry t c) s = .next (adcSettle (pendStart (adcMod (s.at t) c
      (fun x => { x with timerAt := adcTimerDue s c })) c (adcTimerDue s c)) c) :=
  exec_adcTimerExpiry_eq.trans (congrArg Host.Outcome.next (if_pos ⟨hen, htrig, hdom, hdue⟩))

theorem exec_adcTimerExpiry_idle (h : s.fget ADC_CFG_EN c ≠ 1 ∨ s.fget ADC_CFG_TRIG c ≠ 1 ∨
    domOn s (instDom .adc c) = false ∨ max s.clk t < adcTimerDue s c) : exec (.adcTimerExpiry t c) s = .next (s.at t) := by
  refine exec_adcTimerExpiry_eq.trans (congrArg Host.Outcome.next (if_neg fun ⟨hen, htrig, hdom, hdue⟩ => ?_))
  rcases h with h | h | h | h
  · exact h hen
  · exact h htrig
  · rw [hdom] at h
    cases h
  · exact absurd hdue (not_le.mpr h)

theorem exec_adcStartupDone (hv : adcSettle (s.at t) c = v) (hjob : (adcOf v c).job = some j) :
    exec (.adcStartupDone t c) s = .next (if j.first + 400 * nsT ≤ max s.clk t then
      adcMod v c (fun x => { x with waking := false }) else v) := by
  have hclk : v.clk = max s.clk t := by rw [← hv, adcSettle_clk, State.at]
  subst hv
  show execAdcStartupDone t c s = _
  unfold execAdcStartupDone
  simp only [hjob, hclk]

theorem exec_adcStartupDone_of_no_job (hv : adcSettle (s.at t) c = v) (hjob : (adcOf v c).job = none) :
    exec (.adcStartupDone t c) s = .next v := by
  subst hv
  show execAdcStartupDone t c s = _
  unfold execAdcStartupDone
  simp only [hjob]

theorem exec_adcPowerDown_eq (hv : adcSettle (s.at t) c = v) : exec (.adcPowerDown t c) s =
    .next (if v.fget ADC_STAT_STATE c = A_IDLE ∧ (adcOf v c).down = true ∧ v.fget ADC_CFG_AWAKE c ≠ 1 ∧
        (adcOf v c).inj = none ∧ (adcOf v c).starts = [] ∧ v.fget ADC_STAT_HELD c ≠ 1 ∧ v.fget ADC_STAT_CALP c ≠ 1 then
      v.fset ADC_STAT_STATE c A_DOWN else v) := by
  subst hv
  show execAdcPowerDown t c s = _
  unfold execAdcPowerDown
  simp only [Bool.and_eq_true, Bool.not_eq_true', flag_eq_false, beq_iff_eq, Option.isNone_iff_eq_none,
    List.isEmpty_iff, and_assoc]

theorem exec_adcPowerDown (hv : adcSettle (s.at t) c = v) (hst : v.fget ADC_STAT_STATE c = A_IDLE)
    (hdown : (adcOf v c).down = true) (hawake : v.fget ADC_CFG_AWAKE c = 0) (hinj : (adcOf v c).inj = none)
    (hstarts : (adcOf v c).starts = []) (hheld : v.fget ADC_STAT_HELD c = 0) (hcalp : v.fget ADC_STAT_CALP c = 0) :
    exec (.adcPowerDown t c) s = .next (v.fset ADC_STAT_STATE c A_DOWN) :=
  (exec_adcPowerDown_eq hv).trans (congrArg Host.Outcome.next
    (if_pos ⟨hst, hdown, by simp [hawake], hinj, hstarts, by simp [hheld], by simp [hcalp]⟩))

theorem exec_adcPowerDown_idle (hv : adcSettle (s.at t) c = v)
    (h : v.fget ADC_STAT_STATE c ≠ A_IDLE ∨ (adcOf v c).down = false ∨ v.fget ADC_CFG_AWAKE c = 1 ∨
      (adcOf v c).starts ≠ [] ∨ (adcOf v c).inj ≠ none ∨ v.fget ADC_STAT_HELD c = 1 ∨ v.fget ADC_STAT_CALP c = 1) :
    exec (.adcPowerDown t c) s = .next v := by
  refine (exec_adcPowerDown_eq hv).trans (congrArg Host.Outcome.next
    (if_neg fun ⟨hst, hdown, hawake, hinj, hstarts, hheld, hcalp⟩ => ?_))
  simp [hst, hdown, hawake, hinj, hstarts, hheld, hcalp] at h

end

/-! ### Results are read, and go to their points (R255, R256) -/

theorem exec_adcResloRead {s : State} {m : Master} {n : Fin 6} (h : s.MayRead m (0x130180 + 8 * n)) :
    exec (.adcResloRead m n) s = .next { (resloRead s m (chsel s .adc m * 6 + n)).2 with
      rdata := smSet 0 s.rdata m (resloVal s m (chsel s .adc m * 6 + n)) } :=
  congrArg Host.Outcome.next (readAccess_ok h rfl)

section
variable {s : State} {m c n w : Nat}

theorem routeEff_refused (hen : bit w 31 = true) (hroute : routeOk s (w % 2 ^ 18) = false) :
    routeEff m c n w s = (.conflict, adcErr s m c .conflict) := by
  rw [routeEff, hen, hroute]
  exact adcGuard_refused (by decide)

theorem routeEff_ok (h : bit w 31 = true → routeOk s (w % 2 ^ 18) = true) : routeEff m c n w s =
    (.ok, s.fsets [(ADC_ROUTE_EN, c * 5 + n, b2n (bit w 31)), (ADC_ROUTE_POINT, c * 5 + n, w % 2 ^ 18)]) := by
  have hok : chk (bit w 31 && !routeOk s (w % 2 ^ 18)) .conflict = .ok := by
    cases hen : bit w 31 with
    | false => rfl
    | true => rw [h hen]; rfl
  unfold routeEff
  exact adcGuard_ok hok

end

/-! ### The window comparators (R257, R258) -/

section
variable {t : Time} {k : Fin 16} {x : Int} {s : State}

theorem exec_windowCrossing (hdom : domOn s 5 = true) : exec (.windowCrossing t k x) s =
    .next (winLook { s.at t with adc.winIn := smSet 0 s.adc.winIn k x } k) :=
  congrArg Host.Outcome.next (if_pos hdom)

theorem exec_windowCrossing_off (hdom : domOn s 5 = false) : exec (.windowCrossing t k x) s = .next (s.at t) :=
  congrArg Host.Outcome.next (if_neg (ne_true_of_eq_false hdom))

theorem exec_windowFilterExpiry_eq : exec (.windowFilterExpiry t k) s =
    .next (if s.fget ADC_WCFG_EN k = 1 ∧ smGet 0 s.adc.winSince k ≠ 0 ∧
        smGet 0 s.adc.winSince k - 1 + s.fget ADC_WCFG_FILT k * 163840 ≤ max s.clk t then
      winRise (s.at t) k else s.at t) := by
  show execWindowFilterExpiry t k s = _
  unfold execWindowFilterExpiry
  simp only [Bool.and_eq_true, flag_eq_true, bne_iff_ne, decide_eq_true_eq, and_assoc]
  rfl

theorem exec_windowFilterExpiry (hen : s.fget ADC_WCFG_EN k = 1) (hsince : smGet 0 s.adc.winSince k ≠ 0)
    (hdue : smGet 0 s.adc.winSince k - 1 + s.fget ADC_WCFG_FILT k * 163840 ≤ max s.clk t) :
    exec (.windowFilterExpiry t k) s = .next (winRise (s.at t) k) :=
  exec_windowFilterExpiry_eq.trans (congrArg Host.Outcome.next (if_pos ⟨hen, hsince, hdue⟩))

theorem exec_windowFilterExpiry_idle (h : s.fget ADC_WCFG_EN k = 0 ∨ smGet 0 s.adc.winSince k = 0 ∨
    max s.clk t < smGet 0 s.adc.winSince k - 1 + s.fget ADC_WCFG_FILT k * 163840) :
    exec (.windowFilterExpiry t k) s = .next (s.at t) := by
  refine exec_windowFilterExpiry_eq.trans (congrArg Host.Outcome.next (if_neg fun ⟨hen, hsince, hdue⟩ => ?_))
  rcases h with h | h | h
  · exact absurd (hen.symm.trans h) (by decide)
  · exact hsince h
  · exact absurd hdue (not_le.mpr h)

/-- The committed levels come into force together, and the window looks at its input again. -/
def levelsSwitched (s : State) (k : Fin 16) : State :=
  winLook (s.fsets [(ADC_WSTAT_CPEND, k, 0), (ADC_WEFF_ELO, k, s.eget ADC_WLO_LO k),
    (ADC_WEFF_EHI, k, s.eget ADC_WHI_HI k), (ADC_WEFF_EHYST, k, s.eget ADC_WHYST_HYST k)]) k

theorem exec_windowLevelSwitch_eq : exec (.windowLevelSwitch t k) s =
    .next (if s.fget ADC_WSTAT_CPEND k = 1 ∧ smGet 0 s.adc.commitAt k + 100 * nsT ≤ max s.clk t then
      levelsSwitched (s.at t) k else s.at t) := by
  show execWindowLevelSwitch t k s = _
  unfold execWindowLevelSwitch
  simp only [Bool.and_eq_true, flag_eq_true, decide_eq_true_eq]
  rfl

theorem exec_windowLevelSwitch (hpend : s.fget ADC_WSTAT_CPEND k = 1)
    (hdue : smGet 0 s.adc.commitAt k + 100 * nsT ≤ max s.clk t) :
    exec (.windowLevelSwitch t k) s = .next (levelsSwitched (s.at t) k) :=
  exec_windowLevelSwitch_eq.trans (congrArg Host.Outcome.next (if_pos ⟨hpend, hdue⟩))

theorem exec_windowLevelSwitch_idle
    (h : s.fget ADC_WSTAT_CPEND k = 0 ∨ max s.clk t < smGet 0 s.adc.commitAt k + 100 * nsT) :
    exec (.windowLevelSwitch t k) s = .next (s.at t) := by
  refine exec_windowLevelSwitch_eq.trans (congrArg Host.Outcome.next (if_neg fun ⟨hpend, hdue⟩ => ?_))
  rcases h with h | h
  · exact absurd (hpend.symm.trans h) (by decide)
  · exact absurd hdue (not_le.mpr h)

end

section
variable {s : State} {m k w : Nat}

/-- The status of a write of a window's ADC_WCTL. -/
def wctlStatus (s : State) (k w : Nat) : Status :=
  firstStatus [chk (bit w 0 && (if s.flag ADC_WCFG_MODE k then decide (s.fget ADC_WHI_HI k ≤ s.fget ADC_WLO_LO k)
      else decide (s.fget ADC_WHI_HI k ≤ s.fget ADC_WLO_LO k + 2 * s.fget ADC_WHYST_HYST k))) .conflict,
    chk (bit w 0 && s.flag ADC_WSTAT_CPEND k) .busy]

/-- Levels are committed at the instant `now`. -/
def levelsCommitted (s : State) (k lo hi hyst : Nat) (now : Time) : State :=
  let u := (((s.eset ADC_WLO_LO k lo).eset ADC_WHI_HI k hi).eset ADC_WHYST_HYST k hyst).fset ADC_WSTAT_CPEND k 1
  { u with adc.commitAt := smSet 0 u.adc.commitAt k now }

theorem wctlStatus_of_no_commit (h : bit w 0 = false) : wctlStatus s k w = .ok :=
  firstStatus_eq_ok.mpr (by simp [chk, h])

theorem wctlStatus_of_apart (hfree : s.fget ADC_WSTAT_CPEND k = 0)
    (hapart : if s.fget ADC_WCFG_MODE k = 1 then s.fget ADC_WLO_LO k < s.fget ADC_WHI_HI k
      else s.fget ADC_WLO_LO k + 2 * s.fget ADC_WHYST_HYST k < s.fget ADC_WHI_HI k) : wctlStatus s k w = .ok := by
  refine firstStatus_eq_ok.mpr ?_
  by_cases hmode : s.fget ADC_WCFG_MODE k = 1
  · rw [if_pos hmode] at hapart
    simp [chk, flag_eq_true.mpr hmode, flag_of_clear hfree, hapart]
  · rw [if_neg hmode] at hapart
    simp [chk, flag_eq_false.mpr hmode, flag_of_clear hfree, hapart]

theorem wctlStatus_countRsvd (s : State) (m a x k w : Nat) : wctlStatus (countRsvd s m a x) k w = wctlStatus s k w := by
  simp (disch := decide) only [wctlStatus, countRsvd_fget, countRsvd_flag]

theorem wctlEff_refused (hst : wctlStatus s k w ≠ .ok) :
    wctlEff m k w s = (wctlStatus s k w, adcErr s m (0x20 + k) (wctlStatus s k w)) := adcGuard_refused hst

theorem wctlEff_commits (hst : wctlStatus s k w = .ok) (hw : bit w 0 = true) : wctlEff m k w s =
    (.ok, levelsCommitted s k (s.fget ADC_WLO_LO k) (s.fget ADC_WHI_HI k) (s.fget ADC_WHYST_HYST k) s.clk) :=
  (adcGuard_ok hst).trans (congrArg (Prod.mk Status.ok) (if_pos hw))

theorem wctlEff_no_commit (hw : bit w 0 = false) : wctlEff m k w s = (.ok, s) :=
  (adcGuard_ok (wctlStatus_of_no_commit hw)).trans (congrArg (Prod.mk Status.ok) (if_neg (by rw [hw]; decide)))

end

section
variable {s : State} {m : Master} {k : Fin 16} {w : Word}

theorem exec_windowCommit (h : s.MayWrite m (0x131110 + 0x20 * k) w.toNat (bit w.toNat 0)) (hw : bit w.toNat 0 = true)
    (hst : wctlStatus s k w.toNat = .ok) : exec (.windowCommit m k w) s =
      .next (s.noted m (0x131110 + 0x20 * k) w.toNat (levelsCommitted (countRsvd s m (0x131110 + 0x20 * k) w.toNat) k
        (s.fget ADC_WLO_LO k) (s.fget ADC_WHI_HI k) (s.fget ADC_WHYST_HYST k) s.clk)) := by
  have heff := wctlEff_commits (m := m) ((wctlStatus_countRsvd s m (0x131110 + 0x20 * k) w.toNat k _).trans hst) hw
  simp (disch := decide) only [countRsvd_fget, countRsvd_clk] at heff
  exact congrArg Host.Outcome.next (rowWrite_ok h heff)

theorem exec_windowCommit_refused (h : s.MayWrite m (0x131110 + 0x20 * k) w.toNat (bit w.toNat 0))
    (hst : wctlStatus s k w.toNat ≠ .ok) : exec (.windowCommit m k w) s =
      .next (s.notedBad m (0x131110 + 0x20 * k) w.toNat (wctlStatus s k w.toNat)
        (adcErr (countRsvd s m (0x131110 + 0x20 * k) w.toNat) m (0x20 + k) (wctlStatus s k w.toNat))) := by
  rw [← wctlStatus_countRsvd s m (0x131110 + 0x20 * k) w.toNat] at hst ⊢
  exact congrArg Host.Outcome.next (rowWrite_bad h hst (wctlEff_refused hst))

end

/-! ### The statement -/

/-- Settles O50: each write by the status that its register answers on the state to which the starts up to now have led; each
event under its condition and outside it. -/
theorem convertersAndWindowsAct : Obligations.ConvertersAndWindowsAct := by
  refine ⟨fun m w s h => ?_, fun m w s h => ?_, fun m w s h => ?_,
    fun t c ofs gain skews s => ⟨exec_adcCalDone rfl, exec_adcCalDone_idle rfl⟩,
    fun t c levels vdda s => ⟨fun j hjob hst hwake hend hlen => ?_, exec_adcResult_idle rfl,
      fun j hjob => exec_adcResult_early rfl hjob⟩,
    fun t c s => ⟨exec_adcTimerExpiry, exec_adcTimerExpiry_idle⟩,
    fun t c s => ⟨fun j hjob => ?_, exec_adcStartupDone_of_no_job rfl, exec_adcPowerDown rfl, exec_adcPowerDown_idle rfl⟩,
    fun m n s h => exec_adcResloRead h, fun m n w s h => ⟨fun hen hroute => ?_, fun hroute => ?_⟩,
    fun t k x s => ⟨exec_windowCrossing, exec_windowCrossing_off, exec_windowFilterExpiry, exec_windowFilterExpiry_idle,
      exec_windowLevelSwitch, exec_windowLevelSwitch_idle⟩,
    fun m k w s h => ⟨fun hw hfree hapart => exec_windowCommit h hw (wctlStatus_of_apart hfree hapart),
      exec_windowCommit_refused h, fun hw => ?_⟩⟩
  · intro c v en was rest st u
    have hclk : (countRsvd s m 0x130100 w.toNat).clk = s.clk := countRsvd_clk ..
    refine ⟨adcCfgStatus_of_disabled, adcCfgStatus_of_same, fun hst hwas hen => ?_, fun hst hwas hen => ?_,
      fun hst hsame => ?_, fun hst => ?_⟩
    · exact congrArg Host.Outcome.next (rowWrite_ok h (hclk ▸ adcCfgEff_enables rfl hst hwas hen))
    · exact congrArg Host.Outcome.next (rowWrite_ok h (adcCfgEff_stops rfl hst hwas hen))
    · exact congrArg Host.Outcome.next (rowWrite_ok h (adcCfgEff_keeps_enable rfl hst hsame))
    · exact congrArg Host.Outcome.next (rowWrite_bad h hst (adcCfgEff_refused rfl hst))
  · intro c v st
    refine ⟨fun hst => ?_, fun hargs hgo => ?_, fun hargs hgo hen hpull hfree => ?_⟩
    · exact congrArg Host.Outcome.next (rowWrite_bad h hst (injEff_refused rfl hst))
    · exact congrArg Host.Outcome.next (rowWrite_ok h (injEff_no_request rfl (injStatus_of_no_request hargs hgo) hgo))
    · intro q i
      have hclk : v.clk = s.clk := (adcSettle_clk ..).trans (countRsvd_clk ..)
      have htaken : exec (.adcInjGo m w) s = .next (s.noted m 0x130120 w.toNat (injTake v c q)) :=
        congrArg Host.Outcome.next (rowWrite_ok h (injEff_request rfl (injStatus_of_free hargs hen hpull hfree) hgo))
      rw [htaken, ← hclk]
      refine ⟨fun hidle => ?_, fun hdown => ?_, fun hidle hdown => ⟨fun j hjob hfrom hsame hheld => ?_,
        fun j hjob hwaits => ?_, fun hjob => ?_⟩⟩
      · rw [injTake_idle hidle]
      · rw [injTake_down hdown]
      · rw [injTake_beside hidle hdown hjob hfrom hsame hheld]
      · rw [injTake_behind hidle hdown hjob hwaits]
      · rw [injTake_alone hidle hdown hjob]
  · intro c v dropped st
    have hclk : (countRsvd s m 0x130124 w.toNat).clk = s.clk := countRsvd_clk ..
    refine ⟨fun hst => ?_, fun hcal => ?_, fun hcal hown hst hcalp => ?_⟩
    · exact congrArg Host.Outcome.next (rowWrite_bad h hst (adcCtlEff_refused rfl hst))
    · exact congrArg Host.Outcome.next (rowWrite_ok h (adcCtlEff_no_request rfl hcal))
    · have hok : adcCtlStatus v c w.toNat = .ok := adcCtlStatus_of_free hown hst hcalp
      exact ⟨fun hconv => congrArg Host.Outcome.next (rowWrite_ok h (adcCtlEff_pends rfl hok hcal hconv)),
        fun hconv => congrArg Host.Outcome.next (rowWrite_ok h (hclk ▸ adcCtlEff_begins rfl hok hcal hconv))⟩
  · intro u
    have hresult := exec_adcResult (vdda := vdda) rfl hjob hst hwake hend hlen
    exact ⟨fun hinj => hresult.trans (congrArg Host.Outcome.next (adcResulted_injected hinj)),
      fun hinj => hresult.trans (congrArg Host.Outcome.next (adcResulted_regular hinj))⟩
  · rw [exec_adcStartupDone rfl hjob]
    exact ⟨fun hend => congrArg Host.Outcome.next (if_pos hend),
      fun hearly => congrArg Host.Outcome.next (if_neg (not_le.mpr hearly))⟩
  · exact congrArg Host.Outcome.next (rowWrite_bad h (by decide) (routeEff_refused hen hroute))
  · exact congrArg Host.Outcome.next (rowWrite_ok h (routeEff_ok hroute))
  · exact congrArg Host.Outcome.next (rowWrite_ok h (wctlEff_no_commit hw))

end Sys2Proof.Machine
end

section
/-! The elapsed clock, and the decision of a vote. -/
namespace Sys2Proof.Machine

/-! ### The clock (assumption 1) -/

/-- Settles O60: a command moves the clock forward or leaves it (`State.Keeps`), and a step hands the command the clock as it
stands. -/
theorem timeNeverGoesBack : Obligations.TimeNeverGoesBack := by
  intro s t hstep
  cases hp : s.pending with
  | nil =>
    rw [step_idle hp] at hstep
    cases hstep
    exact le_rfl
  | cons c rest => exact (step_keepsIn hp t hstep).clk

/-! ### The decision of a vote (R315 to R317, Table 13.1) -/

theorem mem_of_pick {holder u : Nat} {g : List Nat} (h : pick holder g = some u) : u ∈ g := by
  unfold pick at h
  split at h
  case isTrue hin =>
    cases h
    exact List.contains_iff_mem.mp hin
  case isFalse => exact List.mem_of_head? h

theorem pick_isSome {holder a : Nat} {g : List Nat} : (pick holder (a :: g)).isSome = true := by
  unfold pick
  split <;> rfl

/-- A disagreement of all is decided by the holder alone, where its stream is present. -/
theorem byHolder_agreeing {l : List Nat} {holder : Nat} {v : Vote}
    (hv : v = if l.contains holder then ⟨4, some holder, l.filter (· != holder)⟩ else ⟨6, none, []⟩) :
    ∃ g, v.used = pick holder g ∧ g ⊆ l ∧ v.dissent ⊆ l ∧ (l.Nodup → g.Disjoint v.dissent) := by
  subst hv
  split
  case isTrue hin =>
    exact ⟨[holder], by simp [pick], by simpa using hin, List.filter_subset_self .., fun _ => by simp [List.Disjoint]⟩
  case isFalse => exact ⟨[], rfl, by simp, by simp, fun _ => by simp⟩

/-- The streams present fall into a group that agrees and the dissenting ones. -/
theorem agreeing_of_perm {l g d : List Nat} {holder r : Nat} {v : Vote} (hv : v = ⟨r, pick holder g, d⟩)
    (hp : (g ++ d).Perm l) :
    ∃ g, v.used = pick holder g ∧ g ⊆ l ∧ v.dissent ⊆ l ∧ (l.Nodup → g.Disjoint v.dissent) := by
  subst hv
  exact ⟨g, rfl, fun x hx => hp.subset (List.mem_append_left _ hx), fun x hx => hp.subset (List.mem_append_right _ hx),
    fun hnodup => List.disjoint_of_nodup_append (hp.nodup_iff.mpr hnodup)⟩

/-- No stream is used, and none dissents. -/
theorem agreeing_of_none {l : List Nat} {holder : Nat} {v : Vote} (hv : v = ⟨6, none, []⟩) :
    ∃ g, v.used = pick holder g ∧ g ⊆ l ∧ v.dissent ⊆ l ∧ (l.Nodup → g.Disjoint v.dissent) := by
  subst hv
  exact ⟨[], rfl, by simp, by simp, fun _ => by simp⟩

/-- Whatever a vote uses is picked from a group of the streams present that no dissenting stream belongs to. -/
theorem decideVote_agreeing (l : List Nat) (agree : Nat → Nat → Bool) (holder : Nat) (solo : Bool) :
    ∃ g, (decideVote l agree holder solo).used = pick holder g ∧ g ⊆ l ∧ (decideVote l agree holder solo).dissent ⊆ l ∧
      (l.Nodup → g.Disjoint (decideVote l agree holder solo).dissent) := by
  match l with
  | [] => exact agreeing_of_none rfl
  | [a] =>
    by_cases h : (a == holder && solo) = true
    · obtain ⟨rfl, -⟩ : a = holder ∧ solo = true := by simpa using h
      have hpick : pick a [a] = some a := by simp [pick]
      have hvote : decideVote [a] agree a solo = ⟨5, some a, []⟩ := if_pos h
      exact agreeing_of_perm (hvote.trans (by rw [hpick])) (.refl [a])
    · exact agreeing_of_none (if_neg h)
  | [a, b] =>
    by_cases hab : agree a b = true
    · exact agreeing_of_perm (if_pos hab) (.refl [a, b])
    · exact byHolder_agreeing (if_neg hab)
  | [a, b, c] =>
    by_cases hall : (agree a b && agree b c) = true
    · exact agreeing_of_perm (if_pos hall) (.refl [a, b, c])
    by_cases hab : agree a b = true
    · exact agreeing_of_perm ((if_neg hall).trans (if_pos hab)) (.refl [a, b, c])
    by_cases hac : agree a c = true
    · exact agreeing_of_perm ((if_neg hall).trans ((if_neg hab).trans (if_pos hac))) (.cons a (.swap b c []))
    by_cases hbc : agree b c = true
    · exact agreeing_of_perm ((if_neg hall).trans ((if_neg hab).trans ((if_neg hac).trans (if_pos hbc))))
        (List.perm_append_comm (l₁ := [b, c]) (l₂ := [a]))
    · exact byHolder_agreeing ((if_neg hall).trans ((if_neg hab).trans ((if_neg hac).trans (if_neg hbc))))
  | _ :: _ :: _ :: _ :: _ => exact agreeing_of_none rfl

/-- One stream alone is used where it is the holder's and SOLO allows it. -/
theorem decideVote_one (a : Nat) (agree : Nat → Nat → Bool) (holder : Nat) (solo : Bool) :
    (decideVote [a] agree holder solo).used = some a ↔ a = holder ∧ solo = true := by
  have hvote : decideVote [a] agree holder solo = if a == holder && solo then ⟨5, some a, []⟩ else ⟨6, none, []⟩ := rfl
  rw [hvote]
  split <;> simp_all

/-- Settles O56: the stream used and the dissenting ones stand in two groups of those present (`decideVote_agreeing`); the
cases of no, one and three streams are those of Table 13.1. -/
theorem theVoteUsesAPresentStream : Obligations.TheVoteUsesAPresentStream := by
  intro l agree holder solo v
  obtain ⟨g, hused, hg, hdissent, hapart⟩ := decideVote_agreeing l agree holder solo
  refine ⟨fun u hu => hg (mem_of_pick (hused.symm.trans hu)), fun d hd => hdissent hd,
    fun hnodup u hu => hapart hnodup (mem_of_pick (hused.symm.trans hu)), ?_, ?_, ?_⟩
  · rintro rfl
    rfl
  · rintro a rfl
    exact decideVote_one a agree holder solo
  · rintro a b c rfl hab hbc
    have hvote : v = ⟨1, pick holder [a, b, c], []⟩ := if_pos (by simp [hab, hbc])
    rw [hvote]
    exact ⟨rfl, pick_isSome⟩

end Sys2Proof.Machine
end

section
/-! Time triggers: their enable, the effect of their EN writes, and their firing. -/
namespace Sys2Proof.Machine

/-! ### The write of TIM_TRGCFG (R312) -/

section
variable {s : State} {m n w : Nat}

theorem trgcfgEff_conflict (hwas : s.flag TIM_TRGCFG_EN n = true)
    (h : bit w 31 = true ∨ w % 65536 ≠ s.fget TIM_TRGCFG_SEC_HI n) :
    trgcfgEff m n w s = (.conflict, timErr s m .conflict) :=
  if_pos (by simpa [hwas] using h)

/-- Outside a refusal for an enabled trigger, a write that leaves EN as it stands is one of SEC_HI. -/
theorem trgcfgEff_same (hwas : s.flag TIM_TRGCFG_EN n = false) (hen : bit w 31 = false) :
    trgcfgEff m n w s = (.ok, s.fset TIM_TRGCFG_SEC_HI n w) := by
  simp [trgcfgEff, hwas, hen]

theorem trgcfgEff_refused (hwas : s.flag TIM_TRGCFG_EN n = false) (hen : bit w 31 = true)
    (hst : trigCheck (s.fset TIM_TRGCFG_SEC_HI n w) n ≠ .ok) :
    trgcfgEff m n w s = (trigCheck (s.fset TIM_TRGCFG_SEC_HI n w) n,
      timErr s m (trigCheck (s.fset TIM_TRGCFG_SEC_HI n w) n)) := by
  simp [trgcfgEff, hwas, hen, hst]

theorem trgcfgEff_enables (hwas : s.flag TIM_TRGCFG_EN n = false) (hen : bit w 31 = true)
    (hst : trigCheck (s.fset TIM_TRGCFG_SEC_HI n w) n = .ok) :
    trgcfgEff m n w s = (.ok, (trigMod ((s.fset TIM_TRGCFG_SEC_HI n w).fset TIM_TRGCFG_EN n 1) n (fun x =>
      { x with pend := x.pend ++ [(true, s.clk + 100 * nsT)] })).fset TIM_TRGCFG_FIRED n 0) := by
  simp [trgcfgEff, hwas, hen, hst, b2n]

theorem trgcfgEff_disables (hwas : s.flag TIM_TRGCFG_EN n = true) (hen : bit w 31 = false)
    (hsec : w % 65536 = s.fget TIM_TRGCFG_SEC_HI n) :
    trgcfgEff m n w s = (.ok, trigMod ((s.fset TIM_TRGCFG_SEC_HI n w).fset TIM_TRGCFG_EN n 0) n (fun x =>
      { x with pend := x.pend ++ [(false, s.clk + 100 * nsT)] })) := by
  simp [trgcfgEff, hwas, hen, hsec, b2n]

end

/-! ### The writes of EN take effect (R312) -/

/-- One EN write, the oldest, takes effect. -/
def enTaken (n : Nat) (s : State) (e : Bool × Time) : State :=
  trigMod s n (fun x => { x with pend := x.pend.drop 1, on := e.1, from_ := if e.1 then e.2 else x.from_ })

/-- The EN writes that have stood for 100 ns. -/
def enDue (s : State) (n : Nat) : List (Bool × Time) := (trigOf s n).pend.takeWhile (fun e => decide (e.2 ≤ s.clk))

theorem trigSettle_eq (s : State) (n : Nat) : trigSettle s n = (enDue s n).foldl (enTaken n) s := rfl

/-- A change of a trigger is what it makes of the trigger as it stands. -/
theorem trigMod_congr {s : State} {n : Nat} {f g : TrigSt → TrigSt} (h : f (trigOf s n) = g (trigOf s n)) :
    trigMod s n f = trigMod s n g := by
  unfold trigOf at h
  rw [trigMod, trigMod, smMod, smMod, h]

theorem trigOf_trigMod (s : State) (n : Nat) (f : TrigSt → TrigSt) : trigOf (trigMod s n f) n = f (trigOf s n) :=
  smGet_set_same ..

section
variable {s : State} {t due : Time} {n : Fin 16} {b : Bool} {l : List (Bool × Time)}

theorem exec_timeTriggerEffect : exec (.timeTriggerEffect t n) s = .next (trigSettle (s.at t) n) := rfl

theorem enDue_of_none (hpend : (trigOf s n).pend = []) : enDue (s.at t) n = [] := by
  simp [enDue, hpend]

theorem enDue_of_early (hpend : (trigOf s n).pend = (b, due) :: l) (hearly : max s.clk t < due) : enDue (s.at t) n = [] := by
  have hnone : ¬ due ≤ (s.at t).clk := not_le.mpr hearly
  simp [enDue, hpend, hnone]

theorem enDue_of_due (hpend : (trigOf s n).pend = (b, due) :: l) (hdue : due ≤ max s.clk t) :
    enDue (s.at t) n = (b, due) :: l.takeWhile (fun e => decide (e.2 ≤ max s.clk t)) := by
  have htaken : due ≤ (s.at t).clk := hdue
  rw [enDue, trigOf_at, hpend, List.takeWhile_cons_of_pos (by simpa using htaken)]
  rfl

/-- The oldest write of EN that is due takes effect before the others. -/
theorem exec_timeTriggerEffect_of_due (hpend : (trigOf s n).pend = (b, due) :: l) (hdue : due ≤ max s.clk t) :
    exec (.timeTriggerEffect t n) s = exec (.timeTriggerEffect t n) (trigMod s n (fun x =>
      { x with pend := l, on := b, from_ := if b then due else x.from_ })) := by
  have hfirst : enTaken n (s.at t) (b, due) =
      (trigMod s n (fun x => { x with pend := l, on := b, from_ := if b then due else x.from_ })).at t :=
    trigMod_congr (s := s.at t) (by simp [hpend])
  have hrest : enDue ((trigMod s n (fun x => { x with pend := l, on := b, from_ := if b then due else x.from_ })).at t) n =
      l.takeWhile (fun e => decide (e.2 ≤ max s.clk t)) := by
    rw [enDue, trigOf_at, trigOf_trigMod]
    rfl
  rw [exec_timeTriggerEffect, exec_timeTriggerEffect, trigSettle_eq, trigSettle_eq, hrest, enDue_of_due hpend hdue,
    List.foldl_cons, hfirst]

/-- A write of EN that is due takes effect alone where the next one is not. -/
theorem exec_timeTriggerEffect_one (hpend : (trigOf s n).pend = (b, due) :: l) (hdue : due ≤ max s.clk t)
    (hnext : ∀ e ∈ l.head?, max s.clk t < e.2) : exec (.timeTriggerEffect t n) s = .next (trigMod (s.at t) n (fun x =>
      { x with pend := l, on := b, from_ := if b then due else x.from_ })) := by
  have hrest : l.takeWhile (fun e => decide (e.2 ≤ max s.clk t)) = [] := by
    cases l with
    | nil => rfl
    | cons e l => exact List.takeWhile_cons_of_neg (by simpa using hnext e rfl)
  rw [exec_timeTriggerEffect, trigSettle_eq, enDue_of_due hpend hdue, hrest]
  exact congrArg Host.Outcome.next (trigMod_congr (by simp [hpend]))

end

/-! ### The firing on a replica (R311, R313) -/

section
variable {v : State} {n d i : Nat}

theorem trigFire_none (hlast : lastInstant v n (repTime v d) = 0) : trigFire n v d = v := by
  unfold trigFire
  rw [hlast]

/-- The instant of the schedule does not act: EN is not in effect, it is past, it was met before EN, or the domain is off. -/
theorem trigFire_still (hlast : lastInstant v n (repTime v d) = i + 1)
    (h : (trigOf v n).on = false ∨ i + 65536 ≤ repTime v d ∨ v.clk - (repTime v d - i) < (trigOf v n).from_ ∨
      (d ≠ 0 ∧ domOn v d = false)) : trigFire n v d = v := by
  unfold trigFire
  rw [hlast]
  exact if_pos (by simpa [or_assoc] using h)

section
variable (hlast : lastInstant v n (repTime v d) = i + 1) (hon : (trigOf v n).on = true) (hnow : repTime v d < i + 65536)
  (hfrom : (trigOf v n).from_ ≤ v.clk - (repTime v d - i)) (hdom : d = 0 ∨ domOn v d = true)
include hlast hon hnow hfrom hdom

/-- The instant acts on the replica: it is withheld where a later one is done with. -/
theorem trigFire_meets : trigFire n v d =
    if i < smGet 0 (trigOf v n).last d then
      if d == 0 && decide ((trigOf v n).seen + 65536 ≤ v.clk - (repTime v d - i)) then
        (trigMod v n (fun x => { x with seen := v.clk - (repTime v d - i) })).satAdd TIM_CNT0_SKIP 0
      else v
    else
      let u := trigMod v n (fun x => { x with last := smSet 0 x.last d (i + 1) })
      if d == 0 then
        let w := trigMod u n (fun x => { x with seen := v.clk - (repTime v d - i) })
        if v.fget TIM_TRGPER_PER n == 0 then w.fset TIM_TRGCFG_FIRED n 1 else w
      else if d == 3 then captureTime u n i else adcTimeTrig u d n i := by
  unfold trigFire
  rw [hlast]
  refine if_neg ?_
  rw [hon, decide_eq_false (not_le.mpr hnow), decide_eq_false (not_lt.mpr hfrom)]
  rcases hdom with hd | hd <;> simp [hd]

end
end

/-- Settles O53: each write of TIM_TRGCFG by what EN was and becomes; the writes of EN in their order; an instant of the
schedule by what the trigger has done with before. -/
theorem timeTriggersAct : Obligations.TimeTriggersAct := by
  refine ⟨fun m n w s h => ?_, fun t n s => ⟨fun hpend => ?_, fun b due l hpend hearly => ?_,
      fun b due l => exec_timeTriggerEffect_of_due, fun due l => exec_timeTriggerEffect_one,
      fun due l => exec_timeTriggerEffect_one⟩,
    fun _ _ _ => rfl, fun n d i v => ?_, fun n d v => trigFire_none⟩
  · intro r
    have hen : (countRsvd s m (0x40100 + 16 * n) w.toNat).fget TIM_TRGCFG_EN n = s.fget TIM_TRGCFG_EN n :=
      countRsvd_fget _ _ _ _ _ (by decide)
    have hsec : (countRsvd s m (0x40100 + 16 * n) w.toNat).fget TIM_TRGCFG_SEC_HI n = s.fget TIM_TRGCFG_SEC_HI n :=
      countRsvd_fget _ _ _ _ _ (by decide)
    have hclk : (countRsvd s m (0x40100 + 16 * n) w.toNat).clk = s.clk := countRsvd_clk ..
    refine ⟨fun hwas hw => ?_, fun hwas hw hst => ?_, fun hwas hw => ?_, fun hwas hw hst => ?_, fun hwas hw hkeep => ?_⟩
    · exact congrArg Host.Outcome.next (rowWrite_bad h (by decide)
        (trgcfgEff_conflict (flag_eq_true.mpr (hen.trans hwas)) (hsec ▸ hw)))
    · exact congrArg Host.Outcome.next (rowWrite_bad h hst (trgcfgEff_refused (flag_of_clear (hen.trans hwas)) hw hst))
    · exact congrArg Host.Outcome.next (rowWrite_ok h (trgcfgEff_same (flag_of_clear (hen.trans hwas)) hw))
    · exact congrArg Host.Outcome.next (rowWrite_ok h (hclk ▸ trgcfgEff_enables (flag_of_clear (hen.trans hwas)) hw hst))
    · exact congrArg Host.Outcome.next (rowWrite_ok h
        (hclk ▸ trgcfgEff_disables (flag_eq_true.mpr (hen.trans hwas)) hw (hsec ▸ hkeep)))
  · rw [exec_timeTriggerEffect, trigSettle_eq, enDue_of_none hpend]
    rfl
  · rw [exec_timeTriggerEffect, trigSettle_eq, enDue_of_early hpend hearly]
    rfl
  · intro met hlast
    refine ⟨trigFire_still hlast, fun hon hnow hfrom hdom => ?_⟩
    have hmeets := trigFire_meets hlast hon hnow hfrom hdom
    refine ⟨fun hdone => ⟨fun hd => ?_, fun hd hseen => ?_⟩, fun hnew => ?_⟩
    · rw [hmeets, if_pos hdone, if_neg (by simp [hd])]
    · rw [hmeets, if_pos hdone, if_pos (by rw [hd, decide_eq_true (hd ▸ hseen)]; rfl)]
    · rw [if_neg (not_lt.mpr hnew)] at hmeets
      refine ⟨fun hd => ?_, fun hd => ?_, fun hd0 hd3 => ?_⟩
      · rw [hmeets]
        simp only [met, hd, beq_iff_eq, if_true]
      · rw [hmeets]
        simp only [hd, beq_iff_eq, if_true, OfNat.ofNat_ne_zero, if_false]
      · rw [hmeets]
        simp only [hd0, hd3, beq_iff_eq, if_false]

end Sys2Proof.Machine
end

section
/-! The claim, the lapse and the expiry of the lease, the self-check and the check of a rejoining stack's bill. -/
namespace Sys2Proof.Machine

section
variable {t : Time} {s : State}

/-! ### The claim (R322, R326, R329) -/

/-- Peers of lower SID come first, but for the target of a handover. -/
def yields (s : State) : Bool :=
  !handedTo s && (List.range 3).any (fun sid => decide (sid < ownSid s) && peerSeen s sid)

theorem yields_eq_false_iff : yields s = false ↔
    handedTo s = true ∨ ∀ sid, sid < ownSid s → sid < 3 → peerSeen s sid = false := by
  rw [yields, Bool.and_eq_false_iff]
  simp only [Bool.not_eq_false', List.any_eq_false, List.mem_range, Bool.and_eq_true, decide_eq_true_eq, not_and,
    Bool.not_eq_true]
  exact or_congr Iff.rfl ⟨fun h sid hlow hlim => h sid hlim hlow, fun h sid hlim hlow => h sid hlow hlim⟩

/-- What keeps a stack from a claim. -/
def claimBarred (s : State) : Bool :=
  !dueAt s s.tim.bound 109227 || !isCand s || holds s || s.vote.claim.isSome || (!viewPassed s && stackCount s != 1) ||
    yields s || reserved s (ownSid s)

/-- A claim under the next epoch is raised, and owed an answer by each live peer. -/
def claimRaised (s : State) : State :=
  raiseEpoch { s with
    vote.claim := some (s.fget VOTE_EPOCH_EPOCH + 1, cycleNow s)
    vote.owed := (livePeers s).foldl (fun o p => putBit o p true) 0 } (s.fget VOTE_EPOCH_EPOCH + 1)

/-- The claim that a stack makes at the boundary. -/
def claimMade (s : State) : State :=
  if stackCount s == 1 then gainLease s (s.fget VOTE_EPOCH_EPOCH + 1) (s.tim.bound + leaseT s)
  else rackPeers (claimRaised s)
    (leaseRec (ownSid (claimRaised s)) true false 0 (s.fget VOTE_EPOCH_EPOCH + 1) (s.tim.bound + leaseT s))

theorem ownSid_claimRaised (s : State) : ownSid (claimRaised s) = ownSid s :=
  fget_fset_far _ _ (by decide) (by decide) (by decide)

theorem exec_leaseClaim_barred (h : claimBarred (s.at t) = true) : exec (.leaseClaim t) s = .next (s.at t) :=
  congrArg Host.Outcome.next (if_pos h)

theorem exec_leaseClaim (h : claimBarred (s.at t) = false) : exec (.leaseClaim t) s = .next (claimMade (s.at t)) :=
  congrArg Host.Outcome.next (if_neg (ne_true_of_eq_false h))

theorem claimBarred_eq_false_iff : claimBarred s = false ↔
    (s.tim.bound ≤ netTime s ∧ netTime s < s.tim.bound + 109227) ∧ isCand s = true ∧ holds s = false ∧ s.vote.claim = none ∧
      (viewPassed s = true ∨ stackCount s = 1) ∧ yields s = false ∧ reserved s (ownSid s) = false := by
  have hpassed : (!viewPassed s && stackCount s != 1) = false ↔ viewPassed s = true ∨ stackCount s = 1 := by
    cases viewPassed s <;> simp
  simp only [claimBarred, Bool.or_eq_false_iff, hpassed, Bool.not_eq_false', dueAt_iff, Option.isSome_eq_false_iff,
    Option.isNone_iff_eq_none, and_assoc]

/-! ### The claim and the lease end (R325, R327) -/

theorem exec_leaseClaimLapse_eq {e c : Nat} (hclaim : s.vote.claim = some (e, c)) : exec (.leaseClaimLapse t) s = .next
    (if claimOpen (s.at t) c then s.at t else { s.at t with vote.claim := none }.satAdd VOTE_LCNT_REFUSED 0) := by
  refine congrArg Host.Outcome.next ?_
  rw [show (s.at t).vote.claim = some (e, c) from hclaim]

theorem exec_leaseClaimLapse_none (hclaim : s.vote.claim = none) : exec (.leaseClaimLapse t) s = .next (s.at t) := by
  refine congrArg Host.Outcome.next ?_
  rw [show (s.at t).vote.claim = none from hclaim]

theorem exec_leaseExpiry (hholds : holds (s.at t) = true) (hpast : s.vote.ownExp < netTime (s.at t)) :
    exec (.leaseExpiry t) s = .next ((loseLease (s.at t) s.vote.ownExp).satAdd VOTE_LCNT_LAPSES 0) :=
  congrArg Host.Outcome.next (if_pos (Bool.and_eq_true_iff.mpr ⟨hholds, decide_eq_true hpast⟩))

theorem exec_leaseExpiry_idle (h : holds (s.at t) = false ∨ netTime (s.at t) ≤ s.vote.ownExp) :
    exec (.leaseExpiry t) s = .next (s.at t) :=
  congrArg Host.Outcome.next (if_neg (ne_true_of_eq_false
    (Bool.and_eq_false_iff.mpr (h.imp_right fun hexp => decide_eq_false (not_lt.mpr hexp)))))

/-! ### The self-check (R338) -/

/-- The window of the self-check has SC_WIN cycles still to go. -/
def windowOpen (s : State) : Bool :=
  match s.vote.scAt with
  | some c => decide ((cycleNow s + 2 ^ 32 - c) % 2 ^ 32 < s.fget VOTE_XCFG_SC_WIN)
  | none => false

theorem windowOpen_eq_false_iff : windowOpen s = false ↔
    ∀ c, s.vote.scAt = some c → s.fget VOTE_XCFG_SC_WIN ≤ (cycleNow s + 2 ^ 32 - c) % 2 ^ 32 := by
  unfold windowOpen
  cases s.vote.scAt <;> simp

/-- Of the votes counted in the window, SC_PCT in a hundred or more were dissents. -/
def checkFails (s : State) : Bool :=
  s.fget VOTE_MODE_MODE == 2 && stackCount s == 3 && s.vote.sc3 != 0 &&
    decide (s.fget VOTE_XCFG_SC_PCT * s.vote.sc3 ≤ 100 * s.vote.scd)

theorem checkFails_iff : checkFails s = true ↔ s.fget VOTE_MODE_MODE = 2 ∧ stackCount s = 3 ∧ s.vote.sc3 ≠ 0 ∧
    s.fget VOTE_XCFG_SC_PCT * s.vote.sc3 ≤ 100 * s.vote.scd := by
  simp [checkFails, and_assoc]

theorem exec_selfcheckWindowEnd_early (h : windowOpen (s.at t) = true) : exec (.selfcheckWindowEnd t) s = .next (s.at t) :=
  congrArg Host.Outcome.next (if_pos h)

/-- The window begins again. -/
def windowBegun (s : State) : State := { s with vote.sc3 := 0, vote.scd := 0, vote.scAt := some (cycleNow s) }

theorem exec_selfcheckWindowEnd_passed (h : windowOpen (s.at t) = false) (hpass : checkFails (s.at t) = false) :
    exec (.selfcheckWindowEnd t) s = .next (windowBegun (s.at t)) :=
  congrArg Host.Outcome.next ((if_neg (ne_true_of_eq_false h)).trans (if_neg (ne_true_of_eq_false hpass)))

theorem exec_selfcheckWindowEnd_failed (h : windowOpen (s.at t) = false) (hfail : checkFails (s.at t) = true) :
    exec (.selfcheckWindowEnd t) s = .next (stackSafe (windowBegun (s.at t)) CA_SELFCHECK) :=
  congrArg Host.Outcome.next ((if_neg (ne_true_of_eq_false h)).trans (if_pos hfail))

/-! ### The bill of a rejoining stack (R340) -/

section
variable {crc : Word}

/-- The check waits for its CRC, or is not due. -/
theorem exec_rejoinBillCheck_idle (h : isStack s = false ∨ s.vote.rejoin = false ∨ s.vote.billSeen = true ∨
    s.vote.billCrc ≠ some crc.toNat) : exec (.rejoinBillCheck t crc) s = .next (s.at t) :=
  congrArg Host.Outcome.next (if_pos (by simpa [or_assoc] using h))

variable (hstack : isStack s = true) (hrejoin : s.vote.rejoin = true) (hseen : s.vote.billSeen = false)
  (hcrc : s.vote.billCrc = some crc.toNat)
include hstack hrejoin hseen hcrc

theorem exec_rejoinBillCheck : exec (.rejoinBillCheck t crc) s = .next
    (if crc.toNat != bankW s (actBank s) 7 then
      voteErr { s.at t with vote.billSeen := true, vote.billBad := crc.toNat != bankW s (actBank s) 7 } 15 .conflict
    else { s.at t with vote.billSeen := true, vote.billBad := crc.toNat != bankW s (actBank s) 7 }) :=
  congrArg Host.Outcome.next (if_neg (by simp [hstack, hrejoin, hseen, hcrc]))

end

end

/-- Settles O54: a claim by what bars it (`claimBarred_eq_false_iff`), the self-check by its window and its verdict, the other
events each under its condition and outside it. -/
theorem leaseEventsAct : Obligations.LeaseEventsAct := by
  refine ⟨fun t s hcand hfree hclaim hbound hlim hlower hres => ?_, fun t s h => ?_, fun t s e c hclaim => ?_,
    fun t s => exec_leaseClaimLapse_none, fun t s hfree => exec_leaseExpiry_idle (.inl hfree),
    fun t s hholds => ⟨exec_leaseExpiry hholds, fun hexp => exec_leaseExpiry_idle (.inr hexp)⟩,
    fun t c s hat hopen => ?_, fun t s hdone => ?_, fun t crc s hstack hrejoin hseen hcrc => ?_,
    fun t crc s => exec_rejoinBillCheck_idle⟩
  · have hopen (hpassed : viewPassed (s.at t) = true ∨ stackCount (s.at t) = 1) : claimBarred (s.at t) = false :=
      claimBarred_eq_false_iff.mpr
        ⟨⟨hbound, hlim⟩, hcand, hfree, hclaim, hpassed, yields_eq_false_iff.mpr hlower, hres⟩
    intro e exp
    refine ⟨fun halone => ?_, fun hpeers hpassed => ?_⟩
    · rw [exec_leaseClaim (hopen (.inr halone)), claimMade, if_pos (by simpa using halone)]
      rfl
    · rw [exec_leaseClaim (hopen (.inl hpassed)), claimMade, if_neg (by simpa using hpeers), ownSid_claimRaised]
      rfl
  · refine exec_leaseClaim_barred (Bool.eq_true_of_not_eq_false fun hopen => ?_)
    obtain ⟨⟨hbound, hlim⟩, hcand, hfree, hclaim, hpassed, hlower, hres⟩ := claimBarred_eq_false_iff.mp hopen
    rw [yields_eq_false_iff] at hlower
    rcases h with h | h | h | h | h | ⟨hhanded, sid, hlow, hsid, hseen⟩ | h | ⟨hview, hpeers⟩
    · exact Bool.false_ne_true (h.symm.trans hcand)
    · exact Bool.false_ne_true (hfree.symm.trans h)
    · exact h hclaim
    · exact absurd hbound (not_le.mpr h)
    · exact absurd hlim (not_lt.mpr h)
    · rcases hlower with hlower | hlower
      · exact Bool.false_ne_true (hhanded.symm.trans hlower)
      · exact Bool.false_ne_true ((hlower sid hlow hsid).symm.trans hseen)
    · exact Bool.false_ne_true (hres.symm.trans h)
    · exact hpassed.elim (fun hp => Bool.false_ne_true (hview.symm.trans hp)) hpeers
  · rw [exec_leaseClaimLapse_eq hclaim]
    exact ⟨fun hdone => congrArg Host.Outcome.next (if_neg (ne_true_of_eq_false (decide_eq_false (not_lt.mpr hdone)))),
      fun hopen => congrArg Host.Outcome.next (if_pos (decide_eq_true hopen))⟩
  · refine exec_selfcheckWindowEnd_early (Bool.eq_true_of_not_eq_false fun h => ?_)
    exact absurd (windowOpen_eq_false_iff.mp h c hat) (not_le.mpr hopen)
  · have hend : windowOpen (s.at t) = false := windowOpen_eq_false_iff.mpr hdone
    refine ⟨fun hpass => exec_selfcheckWindowEnd_passed hend (Bool.eq_false_iff.mpr fun hfail => ?_),
      fun hmode hthree hsome hmany => exec_selfcheckWindowEnd_failed hend
        (checkFails_iff.mpr ⟨hmode, hthree, hsome, hmany⟩)⟩
    obtain ⟨hmode, hthree, hsome, hmany⟩ := checkFails_iff.mp hfail
    rcases hpass with h | h | h | h
    · exact h hmode
    · exact h hthree
    · exact hsome h
    · exact absurd hmany (not_le.mpr h)
  · rw [exec_rejoinBillCheck hstack hrejoin hseen hcrc]
    refine ⟨fun hsame => ?_, fun hdiff => ?_⟩
    · rw [bne_eq_false_iff_eq.mpr hsame]
      rfl
    · rw [bne_iff_ne.mpr hdiff]
      rfl

end Sys2Proof.Machine
end

section
/-! The trigger pins and the software trigger, the records that are freed, the skew calibration, and the mask tables. -/
namespace Sys2Proof.Machine

theorem repTime_countRsvd (s : State) (m a w d : Nat) : repTime (countRsvd s m a w) d = repTime s d := by
  simp [repTime, netTime]

section
variable {s : State} {t : Time}

/-! ### The engine brought to the present (R347, R353, R356) -/

theorem capSettle_off (hoff : domOn s 3 = false) : capSettle s = s := if_pos (by simp [hoff])

/-- Nothing arrives, no trigger is on its way, and no record waits for its outputs. -/
theorem capSettle_empty (harriving : s.cap.arriving = []) (hcoming : s.cap.coming = []) (hrecs : s.cap.recs = []) :
    capSettle s = s := by
  have hin : { s with cap.arriving := s.cap.arriving.filter (fun x => decide (s.clk < x.at_)) } = s := by
    rw [harriving, List.filter_nil, ← harriving]
  have hdeliver : deliver s (repTime s 3) = s := by
    unfold deliver
    simp only [hcoming, List.filter_nil, List.foldl_nil]
    rw [← hcoming]
  have houts : outsDue s = [] := by simp [outsDue, hrecs]
  unfold capSettle
  split
  · rfl
  · rw [hin, harriving]
    change (outsDue (deliver s (repTime s 3))).foldl trigOut (deliver s (repTime s 3)) = s
    rw [hdeliver, houts, List.foldl_nil]

theorem localTrig_off {cls cause t0 : Nat} {span : Time} (hoff : domOn s 3 = false) : localTrig s cls cause t0 span = s := by
  have hown : ownTrig s cls cause t0 span = s := if_pos (by simp [hoff])
  rw [localTrig, hown, capSettle_off hoff]

/-! ### The pins (R352) -/

/-- The edge of a pin is the one that triggers. -/
def pinActive (s : State) (pin : Fin 3) (rising : Bool) : Bool :=
  match pin.val with
  | 0 => rising != s.flag CAP_TRIGCFG_APOL
  | 1 => rising != s.flag CAP_TRIGCFG_BPOL
  | _ => !rising

theorem exec_trigPinEdge {pin : Fin 3} {rising : Bool} : exec (.trigPinEdge t pin rising) s = .next
    (if pinActive s pin rising then localTrig (s.at t) pin.val (pin.val + 1) (repTime (s.at t) 3) (15 * nsT) else s.at t) :=
  rfl

theorem exec_trigPinEdge_off {pin : Fin 3} {rising : Bool} (hoff : domOn s 3 = false) :
    exec (.trigPinEdge t pin rising) s = .next (s.at t) := by
  rw [exec_trigPinEdge, localTrig_off (s := s.at t) hoff, ite_self]

theorem exec_trigPinEdge_active {pin : Fin 3} {rising : Bool} (h : pinActive s pin rising = true) :
    exec (.trigPinEdge t pin rising) s =
      .next (localTrig (s.at t) pin.val (pin.val + 1) (repTime (s.at t) 3) (15 * nsT)) :=
  congrArg Host.Outcome.next (if_pos h)

theorem exec_trigPinEdge_still {pin : Fin 3} {rising : Bool} (h : pinActive s pin rising = false) :
    exec (.trigPinEdge t pin rising) s = .next (s.at t) :=
  congrArg Host.Outcome.next (if_neg (ne_true_of_eq_false h))

/-! ### Registers (R352, R358, R364, R368) -/

section
variable {m w : Nat}

theorem capFreeEff_closed {r : CapRec} (hrec : findRec (capSettle s) w = some r) (hclosed : r.st = .closed) :
    capFreeEff m w s = (.ok, dropRec (capSettle s) r) := by
  unfold capFreeEff
  simp [hrec, hclosed]

theorem capFreeEff_open {r : CapRec} (hrec : findRec (capSettle s) w = some r) (hopen : r.st ≠ .closed) :
    capFreeEff m w s = (.conflict, capErr (capSettle s) m .conflict) := by
  unfold capFreeEff
  simp [hrec, hopen]

theorem capFreeEff_none (hrec : findRec (capSettle s) w = none) :
    capFreeEff m w s = (.range, capErr (capSettle s) m .range) := by
  unfold capFreeEff
  simp [hrec]

theorem skewctlEff_begins (hw : bit w 0 = true) (hfree : s.fget CAP_SKEWCTL_BUSY = 0) :
    skewctlEff m w s = (.ok, { s with cap.skewAt := s.clk }.fset CAP_SKEWCTL_BUSY 0 1) := by
  simp [skewctlEff, hw, flag_of_clear hfree]

theorem skewctlEff_busy (hw : bit w 0 = true) (hbusy : s.fget CAP_SKEWCTL_BUSY = 1) :
    skewctlEff m w s = (.busy, capErr s m .busy) := by
  simp [skewctlEff, hw, flag_eq_true.mpr hbusy]

theorem skewctlEff_none (hw : bit w 0 = false) : skewctlEff m w s = (.ok, s) := by
  simp [skewctlEff, hw]

theorem exec_skewCalDone {skews : List Int} (hbusy : s.fget CAP_SKEWCTL_BUSY = 1)
    (hdue : s.cap.skewAt + 50 * usT ≤ max s.clk t) :
    exec (.skewCalDone t skews) s = .next ((putSkews (s.at t) none skews).fset CAP_SKEWCTL_BUSY 0 0) :=
  congrArg Host.Outcome.next (if_pos (Bool.and_eq_true_iff.mpr ⟨flag_eq_true.mpr hbusy, decide_eq_true hdue⟩))

theorem exec_skewCalDone_idle {skews : List Int}
    (h : s.fget CAP_SKEWCTL_BUSY = 0 ∨ max s.clk t < s.cap.skewAt + 50 * usT) :
    exec (.skewCalDone t skews) s = .next (s.at t) :=
  congrArg Host.Outcome.next (if_neg (ne_true_of_eq_false
    (Bool.and_eq_false_iff.mpr (h.imp flag_of_clear fun hearly => decide_eq_false (not_le.mpr hearly)))))

theorem mtloEff_busy (hbusy : tabBusy s (some (s.fget CAP_MTIDX_TAB m)) = true) :
    mtloEff m w s = (.conflict, capErr s m .conflict) := by
  simp [mtloEff, hbusy, chk, capGuard]

/-- The lower bound of the point is written, and the next point is selected. -/
theorem mtloEff_ok (hfree : tabBusy s (some (s.fget CAP_MTIDX_TAB m)) = false) : mtloEff m w s =
    (.ok, { s with cap.lo := smSet 0xff800000 s.cap.lo (s.fget CAP_MTIDX_TAB m * 1024 + s.fget CAP_MTPT_PT m) w }.fset
      CAP_MTPT_PT m (if s.fget CAP_MTCFG_N (s.fget CAP_MTIDX_TAB m) ≤ s.fget CAP_MTPT_PT m + 1 then 0
        else s.fget CAP_MTPT_PT m + 1)) := by
  simp [mtloEff, hfree, chk, capGuard]

end
end

/-- Settles O51: the triggers as `localTrig` takes them, each register's write by what it finds, the calibration's end by BUSY
and its time. -/
theorem captureActs : Obligations.CaptureActs := by
  refine ⟨fun t pin rising s => exec_trigPinEdge_off,
    fun t s => ⟨fun _ h => exec_trigPinEdge_active (pin := 0) h, fun _ h => exec_trigPinEdge_still (pin := 0) h,
      fun _ h => exec_trigPinEdge_active (pin := 1) h, fun _ h => exec_trigPinEdge_still (pin := 1) h,
      exec_trigPinEdge_active (pin := 2) rfl, exec_trigPinEdge_still (pin := 2) rfl⟩,
    fun m w s h => ?_, fun t s => ?_, fun m w r s h hrec => ⟨fun hclosed => ?_, fun hopen => ?_⟩, fun m w s h hrec => ?_,
    fun m w s h => ?_, fun t skews s => ⟨exec_skewCalDone, exec_skewCalDone_idle⟩, fun m w s h => ?_⟩
  · intro b
    have htime : repTime b 3 = repTime s 3 := repTime_countRsvd ..
    refine ⟨fun hw => ?_, fun hw => ?_⟩
    · exact congrArg Host.Outcome.next (rowWrite_ok h (by rw [swtrigEff, if_pos hw, htime]))
    · exact congrArg Host.Outcome.next (rowWrite_ok h (by rw [swtrigEff, if_neg (ne_true_of_eq_false hw)]))
  · intro u
    exact ⟨fun hend => congrArg Host.Outcome.next (if_pos hend),
      fun hearly => congrArg Host.Outcome.next (if_neg (not_le.mpr hearly)), rfl, capSettle_off (s := s.at t), capSettle_empty (s := s.at t)⟩
  · exact congrArg Host.Outcome.next (rowWrite_ok h (capFreeEff_closed hrec hclosed))
  · exact congrArg Host.Outcome.next (rowWrite_bad h (by decide) (capFreeEff_open hrec hopen))
  · exact congrArg Host.Outcome.next (rowWrite_bad h (by decide) (capFreeEff_none hrec))
  · intro b
    have hbusy : b.fget CAP_SKEWCTL_BUSY = s.fget CAP_SKEWCTL_BUSY := countRsvd_fget _ _ _ _ _ (by decide)
    have hclk : b.clk = s.clk := countRsvd_clk ..
    exact ⟨fun hw h0 => congrArg Host.Outcome.next (rowWrite_ok h (hclk ▸ skewctlEff_begins hw (hbusy.trans h0))),
      fun hw h1 => congrArg Host.Outcome.next (rowWrite_bad h (by decide) (skewctlEff_busy hw (hbusy.trans h1))),
      fun hw => congrArg Host.Outcome.next (rowWrite_ok h (skewctlEff_none hw))⟩
  · intro b k pt
    have htab : b.fget CAP_MTIDX_TAB m = k := countRsvd_fget _ _ _ _ _ (by decide)
    have hpt : b.fget CAP_MTPT_PT m = pt := countRsvd_fget _ _ _ _ _ (by decide)
    have hn : b.fget CAP_MTCFG_N k = s.fget CAP_MTCFG_N k := countRsvd_fget _ _ _ _ _ (by decide)
    refine ⟨fun hbusy => ?_, fun hfree => ?_⟩
    · exact congrArg Host.Outcome.next (rowWrite_bad h (by decide) (mtloEff_busy (by rw [htab]; exact hbusy)))
    · exact congrArg Host.Outcome.next (rowWrite_ok h ((mtloEff_ok (by rw [htab]; exact hfree)).trans (by rw [htab, hpt, hn])))

end Sys2Proof.Machine
end

section
/-! The kiln: its scan, a broken sensor that is released, and a group that is enabled. -/
namespace Sys2Proof.Machine

/-! ### The scan (R369 to R376) -/

section
variable {t : Time} {l : List Scan} {s : State}

theorem exec_kilnScanEnd_early (h : recent s.kiln.scanAt msT (max s.clk t) = true) :
    exec (.kilnScanEnd t l) s = .next (s.at t) :=
  congrArg Host.Outcome.next (if_pos (Bool.or_eq_true_iff.mpr (.inl h)))

theorem exec_kilnScanEnd_part (h : scanWhole s l = false) : exec (.kilnScanEnd t l) s = .next (s.at t) :=
  congrArg Host.Outcome.next (if_pos (Bool.or_eq_true_iff.mpr (.inr (by rw [show scanWhole (s.at t) l = false from h]; rfl))))

theorem scanWhole_iff : scanWhole s l = true ↔ ∀ k, k < 44 → s.fget KILN_SCFG_EN k = 1 → ∃ x ∈ l, x.sensor = k := by
  rw [scanWhole, enabledSensors, List.all_filter]
  simp [← flag_eq_true, imp_iff_not_or]

theorem exec_kilnScanEnd (hdue : recent s.kiln.scanAt msT (max s.clk t) = false) (hwhole : scanWhole s l = true) :
    exec (.kilnScanEnd t l) s = .next (kilnOutputs ((List.range 8).foldl scanGroup (showBroken
      ((l.filter (fun x => s.flag KILN_SCFG_EN x.sensor && decide (x.sensor < 44))).foldl scanSensor
        { s.at t with kiln.scanAt := some (max s.clk t) })))) :=
  congrArg Host.Outcome.next (if_neg (ne_true_of_eq_false
    (Bool.or_eq_false_iff.mpr ⟨hdue, by rw [show scanWhole (s.at t) l = true from hwhole]; rfl⟩)))

end

/-! ### A broken sensor is released (R370) -/

/-- The sensor is no longer broken, and reports its latest measured reading. -/
def sensorFreed (s : State) (n : Nat) : State :=
  let u := (putBroken s n false).fsets [(KILN_T_BROKEN, n, 0), (KILN_T_WHY, n, 0)]
  if smGet 0 s.kiln.latest n = 0 then u else u.fset KILN_T_T n (ofSigned 16 (readT (smGet 0 s.kiln.latest n)))

@[simp] theorem putBroken_kiln (s : State) (n : Nat) (b : Bool) : (putBroken s n b).kiln = s.kiln := by
  unfold putBroken
  split <;> rfl

theorem sensorFreed_kiln (s : State) (n : Nat) : (sensorFreed s n).kiln = s.kiln := by
  unfold sensorFreed
  dsimp only
  split <;> simp

/-- The test that found the break begins anew (WHY 3 or 4). -/
def testRestarted (s : State) (n why : Nat) : State :=
  if why = 3 then { s with kiln.raw := smSet 0 s.kiln.raw n 0, kiln.same := smSet 0 s.kiln.same n 0 }
  else if why = 4 then { s with kiln.meas := smSet 0 s.kiln.meas n 0 } else s

/-- A broken sensor is released, unless it still is open or short. -/
def released (s : State) (n : Nat) : State :=
  if 44 ≤ n ∨ sBroken s n = false ∨
      ((s.fget KILN_T_WHY n = 1 ∨ s.fget KILN_T_WHY n = 2) ∧ smGet 0 s.kiln.cond n = s.fget KILN_T_WHY n) then s
  else testRestarted (sensorFreed s n) n (s.fget KILN_T_WHY n)

/-- What a write of KILN_SBROKEN does with a broken sensor that it names. -/
def brokenCleared (s : State) (n : Nat) : State :=
  if s.fget KILN_T_WHY n ≤ 2 && smGet 0 s.kiln.cond n == s.fget KILN_T_WHY n && s.fget KILN_T_WHY n != 0 then s
  else { sensorFreed s n with kiln := { s.kiln with
    raw := if s.fget KILN_T_WHY n == 3 then smSet 0 s.kiln.raw n 0 else s.kiln.raw
    same := if s.fget KILN_T_WHY n == 3 then smSet 0 s.kiln.same n 0 else s.kiln.same
    meas := if s.fget KILN_T_WHY n == 4 then smSet 0 s.kiln.meas n 0 else s.kiln.meas } }

theorem sbrokenEff_eq (i w : Nat) (s : State) : sbrokenEff i w s = (.ok, (List.range 32).foldl (fun b j =>
    if !bit w j || !decide (32 * i + j < 44) || !sBroken b (32 * i + j) then b else brokenCleared b (32 * i + j)) s) := by
  simp only [brokenCleared, sensorFreed, ← beq_iff_eq (b := 0)]
  rfl

/-- The condition of WHY 1 or 2 still holds. -/
theorem whyHolds_iff (s : State) (n : Nat) : (decide (s.fget KILN_T_WHY n ≤ 2) && smGet 0 s.kiln.cond n == s.fget KILN_T_WHY n &&
    s.fget KILN_T_WHY n != 0) = true ↔
      (s.fget KILN_T_WHY n = 1 ∨ s.fget KILN_T_WHY n = 2) ∧ smGet 0 s.kiln.cond n = s.fget KILN_T_WHY n := by
  simp only [Bool.and_eq_true, decide_eq_true_eq, beq_iff_eq, bne_iff_ne]
  omega

theorem testRestarted_eq {s u : State} {n why : Nat} (hkiln : u.kiln = s.kiln) : testRestarted u n why =
    { u with kiln := { s.kiln with
      raw := if why == 3 then smSet 0 s.kiln.raw n 0 else s.kiln.raw
      same := if why == 3 then smSet 0 s.kiln.same n 0 else s.kiln.same
      meas := if why == 4 then smSet 0 s.kiln.meas n 0 else s.kiln.meas } } := by
  rw [← hkiln]
  by_cases h3 : why = 3
  · simp [testRestarted, h3]
  by_cases h4 : why = 4
  · simp [testRestarted, h4]
  · simp [testRestarted, h3, h4]

theorem released_of_broken {s : State} {n : Nat} (hn : n < 44) (hbroken : sBroken s n = true) :
    released s n = brokenCleared s n := by
  rw [released, brokenCleared, testRestarted_eq (sensorFreed_kiln s n)]
  refine if_congr ?_ rfl rfl
  rw [whyHolds_iff]
  simp [not_le.mpr hn, hbroken]

theorem sbrokenEff_released (i w : Nat) (s : State) :
    sbrokenEff i w s = (.ok, (bitList 32 w).foldl (fun b j => released b (32 * i + j)) s) := by
  rw [sbrokenEff_eq, bitList, List.foldl_filter]
  refine congrArg (Prod.mk Status.ok) (List.foldl_ext _ _ _ fun b j _ => ?_)
  by_cases hidle : 44 ≤ 32 * i + j ∨ sBroken b (32 * i + j) = false
  · have hstays : released b (32 * i + j) = b := if_pos (hidle.imp_right Or.inl)
    rw [hstays, ite_self]
    exact if_pos (by rcases hidle with h | h <;> simp [h])
  · obtain ⟨hn, hbroken⟩ := not_or.mp hidle
    rw [Nat.not_le] at hn
    rw [Bool.not_eq_false] at hbroken
    rw [released_of_broken hn hbroken]
    cases bit w j <;> simp [hn, hbroken]

theorem exec_kilnBrokenClear {m : Master} {n : Fin 2} {w : Word} {s : State}
    (h : s.MayWrite m (0x50018 + 4 * n) w.toNat false) : exec (.kilnBrokenClear m n w) s =
      .next (s.noted m (0x50018 + 4 * n) w.toNat ((bitList 32 w.toNat).foldl (fun b j => released b (32 * n + j))
        (countRsvd s m (0x50018 + 4 * n) w.toNat))) :=
  congrArg Host.Outcome.next (rowWrite_ok h (sbrokenEff_released ..))

/-! ### A group is enabled (R373) -/

/-- KILN_GCFG as the word gives it. -/
def groupWritten (s : State) (g w : Nat) : State :=
  s.fsets [(KILN_GCFG_BT, g, bits w 8 16), (KILN_GCFG_HYST, g, w), (KILN_GCFG_EN, g, b2n (bit w 31))]

/-- The word changes BT or HYST. -/
def groupOther (s : State) (g w : Nat) : Bool := bits w 8 16 != s.fget KILN_GCFG_BT g || w % 256 != s.fget KILN_GCFG_HYST g

/-- The status of a write of KILN_GCFG. -/
def gcfgStatus (s : State) (g w : Nat) : Status :=
  firstStatus [chk (s.flag KILN_GCFG_EN g && groupOther s g w) .conflict,
    chk (s.flag KILN_GCFG_EN g && !bit w 31 && groupTrips s g) .conflict,
    if bit w 31 && !s.flag KILN_GCFG_EN g then groupCheck (groupWritten s g w) g else .ok]

section
variable {s : State} {m g w : Nat}

theorem kilnGcfgEff_ok (h : gcfgStatus s g w = .ok) : kilnGcfgEff m g w s = (.ok, groupWritten s g w) :=
  if_pos (beq_iff_eq.mpr h)

theorem kilnGcfgEff_refused (h : gcfgStatus s g w ≠ .ok) :
    kilnGcfgEff m g w s = (gcfgStatus s g w, kilnErr s m (gcfgStatus s g w)) :=
  if_neg (fun hok => h (beq_iff_eq.mp hok))

/-- A group that is disabled is enabled under its check alone. -/
theorem gcfgStatus_of_disabled (hwas : s.flag KILN_GCFG_EN g = false)
    (hcheck : bit w 31 = true → groupCheck (groupWritten s g w) g = .ok) : gcfgStatus s g w = .ok := by
  rw [gcfgStatus, hwas]
  cases hen : bit w 31
  · rfl
  · simp [hcheck hen, chk, firstStatus]

/-- A group that is enabled keeps BT and HYST, and EN while it trips. -/
theorem gcfgStatus_of_enabled (hwas : s.flag KILN_GCFG_EN g = true) (hsame : groupOther s g w = false)
    (hfree : bit w 31 = false → groupTrips s g = false) : gcfgStatus s g w = .ok := by
  rw [gcfgStatus, hwas, hsame]
  cases hen : bit w 31
  · simp [hfree hen, chk, firstStatus]
  · rfl

end

/-- Settles O52: a scan by its time and its readings, the sensors of a W1C word in turn (`sbrokenEff_released`), a group's
write by its status. -/
theorem kilnActs : Obligations.KilnActs := by
  refine ⟨fun t l s => exec_kilnScanEnd_early, fun t l s => exec_kilnScanEnd_part,
    fun t l s hdue hall => exec_kilnScanEnd hdue (scanWhole_iff.mpr hall), fun m n w s h => exec_kilnBrokenClear h,
    fun m g w s h => ?_⟩
  intro b en was other r st
  have hwas : b.flag KILN_GCFG_EN g = was := countRsvd_flag _ _ _ _ _ (by decide)
  have hother : groupOther b g w.toNat = other := by
    rw [groupOther, countRsvd_fget _ _ _ _ _ (by decide), countRsvd_fget _ _ _ _ _ (by decide)]
  have hst : gcfgStatus b g w.toNat = st := by
    rw [gcfgStatus, hwas, hother]
    rfl
  refine ⟨fun h0 hcheck => ?_, fun h1 hsame hfree => ?_, fun hok => ?_, fun hbad => ?_⟩
  · exact hst ▸ gcfgStatus_of_disabled (hwas.trans h0) hcheck
  · exact hst ▸ gcfgStatus_of_enabled (hwas.trans h1) (hother.trans hsame) hfree
  · exact congrArg Host.Outcome.next (rowWrite_ok h (kilnGcfgEff_ok (hst.trans hok)))
  · exact congrArg Host.Outcome.next (rowWrite_bad h hbad (hst ▸ kilnGcfgEff_refused (hst ▸ hbad)))

end Sys2Proof.Machine
end

section
/-! The scrubber's words and passes, and the error injection. -/
namespace Sys2Proof.Machine

/-! ### One word of a pass (R378 to R380) -/

section
variable {t : Time} {mem : Fin 9} {word : Nat} {p : Straps} {s : State}

theorem eccSyms_scrubRead (s : State) (mem w k j : Nat) : eccSyms (scrubRead s mem w) k j = eccSyms s k j := rfl

theorem exec_scrubWord_skipped (h : s.fget SEC_SCRUBCFG_PASS = 0 ∨ domOn s (memDom mem) = false ∨ memWords mem ≤ word ∨
    scrubHas (scrubNow (s.at t) mem) word = true) : exec (.scrubWord t mem word p) s = .next (s.at t) :=
  congrArg Host.Outcome.next (if_pos (by simpa [or_assoc] using h))

/-- What the scrub of a word does, once the word is read. -/
def scrubDone (u : State) (mem : Fin 9) (word : Nat) (p : Straps) : State :=
  if (eccFetch u mem word).1 then
    if mem.val == 0 then systemReset (eccFetch u mem word).2 [.memerr] p else eccHandle (eccFetch u mem word).2 mem word
  else if eccSyms u mem word == [] then eccStored (eccFetch u mem word).2 mem word else (eccFetch u mem word).2

theorem exec_scrubWord (hpass : s.fget SEC_SCRUBCFG_PASS ≠ 0) (hon : domOn s (memDom mem) = true) (hword : word < memWords mem)
    (hnew : scrubHas (scrubNow (s.at t) mem) word = false) :
    exec (.scrubWord t mem word p) s = .next (scrubDone (scrubRead (s.at t) mem word) mem word p) :=
  congrArg Host.Outcome.next (if_neg (by simp [hpass, hon, hnew, hword]))

variable {u : State}

theorem eccFetch_clean (h : eccSyms u mem word = []) : eccFetch u mem word = (false, u) := by
  unfold eccFetch
  rw [h]

theorem eccFetch_one {e : Nat × Nat} (h : eccSyms u mem word = [e]) :
    eccFetch u mem word = (false, eccStored (eccCorr u mem) mem word) := by
  unfold eccFetch
  rw [h]

theorem eccFetch_more {e f : Nat × Nat} {l : List (Nat × Nat)} (h : eccSyms u mem word = e :: f :: l) :
    eccFetch u mem word = (true, eccUncorr u mem word) := by
  unfold eccFetch
  rw [h]

theorem scrubDone_clean (h : eccSyms u mem word = []) : scrubDone u mem word p = eccStored u mem word := by
  simp [scrubDone, eccFetch_clean h, h]

theorem scrubDone_one {e : Nat × Nat} (h : eccSyms u mem word = [e]) :
    scrubDone u mem word p = eccStored (eccCorr u mem) mem word := by
  simp [scrubDone, eccFetch_one h, h]

theorem scrubDone_supervisor {e f : Nat × Nat} {l : List (Nat × Nat)} (h : eccSyms u mem word = e :: f :: l)
    (hmem : mem.val = 0) : scrubDone u mem word p = systemReset (eccUncorr u mem word) [.memerr] p := by
  rw [scrubDone, eccFetch_more h, if_pos rfl, if_pos (beq_iff_eq.mpr hmem)]

theorem scrubDone_more {e f : Nat × Nat} {l : List (Nat × Nat)} (h : eccSyms u mem word = e :: f :: l)
    (hmem : mem.val ≠ 0) : scrubDone u mem word p = eccHandle (eccUncorr u mem word) mem word := by
  simp only [scrubDone, eccFetch_more h, if_true, beq_iff_eq, hmem, if_false]

/-! ### The end of PASS (R380) -/

theorem exec_scrubPassDeadline_idle (h : s.fget SEC_SCRUBCFG_PASS = 0 ∨ domOn s (memDom mem) = false ∨
    max s.clk t < scrubEnd s (scrubOf s mem) ∨ (scrubOf s mem).late = true) :
    exec (.scrubPassDeadline t mem) s = .next (s.at t) :=
  congrArg Host.Outcome.next (if_pos (by
    simp only [Bool.or_eq_true, beq_iff_eq, Bool.not_eq_true', decide_eq_true_eq, or_assoc]
    exact h))

section
variable (hpass : s.fget SEC_SCRUBCFG_PASS ≠ 0) (hon : domOn s (memDom mem) = true) (hlate : (scrubOf s mem).late = false)
  (hdue : scrubEnd s (scrubOf s mem) ≤ max s.clk t)
include hpass hon hlate hdue

theorem exec_scrubPassDeadline : exec (.scrubPassDeadline t mem) s = .next
    (if scrubFull mem (scrubOf s mem) then scrubSet (s.at t) mem (scrubNow (s.at t) mem)
    else (scrubSet (s.at t) mem { scrubOf s mem with late := true }).fset SEC_SCRUBSTAT_BEHIND 0
      (putBit (s.fget SEC_SCRUBSTAT_BEHIND) mem true)) :=
  congrArg Host.Outcome.next (if_neg (by
    have hnow : decide ((s.at t).clk < scrubEnd (s.at t) (scrubOf (s.at t) mem)) = false := decide_eq_false (not_lt.mpr hdue)
    have hfirst : (scrubOf (s.at t) mem).late = false := hlate
    simp [hpass, hon, hnow, hfirst]))

theorem exec_scrubPassDeadline_behind (hpart : (scrubOf s mem).seen ≠ [(0, memWords mem)]) :
    exec (.scrubPassDeadline t mem) s = .next
      ((scrubSet (s.at t) mem { scrubOf s mem with late := true }).fset SEC_SCRUBSTAT_BEHIND 0
        (putBit (s.fget SEC_SCRUBSTAT_BEHIND) mem true)) :=
  (exec_scrubPassDeadline hpass hon hlate hdue).trans (congrArg Host.Outcome.next (if_neg (by simpa [scrubFull] using hpart)))

theorem exec_scrubPassDeadline_full (hfull : (scrubOf s mem).seen = [(0, memWords mem)]) :
    exec (.scrubPassDeadline t mem) s = .next (scrubSet (s.at t) mem { at_ := scrubEnd s (scrubOf s mem) }) := by
  have hdone : scrubFull mem (scrubOf s mem) = true := by simpa [scrubFull] using hfull
  have hnext : scrubNow (s.at t) mem = { at_ := scrubEnd s (scrubOf s mem) } :=
    if_pos (Bool.and_eq_true_iff.mpr ⟨hdone, decide_eq_true hdue⟩)
  rw [exec_scrubPassDeadline hpass hon hlate hdue, if_pos hdone, hnext]

end
end

/-! ### SEC_EINJ (R382) -/

theorem einjEff_ok {m w : Nat} {s : State} (hmem : bits w 24 4 ≤ 8) (hsym : bits w 16 6 ≤ 35) (hsym2 : bits w 10 6 ≤ 35)
    (harm : bit w 31 = true → w % 256 ≠ 0 ∧ inService s = false ∧ (bit w 9 = true → bits w 16 6 ≠ bits w 10 6)) :
    einjEff m w s = (.ok, s.fsets [(SEC_EINJ_ARM, 0, b2n (bit w 31)), (SEC_EINJ_MEM, 0, bits w 24 4),
      (SEC_EINJ_SYM, 0, bits w 16 6), (SEC_EINJ_SYM2, 0, bits w 10 6), (SEC_EINJ_TWO, 0, bits w 9 1),
      (SEC_EINJ_PAT, 0, w % 256)]) := by
  have hrange : (decide (8 < bits w 24 4) || decide (35 < bits w 16 6) || decide (35 < bits w 10 6)) = false := by
    simp [hmem, hsym, hsym2]
  have hpat : (bit w 31 && w % 256 == 0) = false := by
    cases h : bit w 31 <;> simp_all
  have htwo : (bit w 31 && bit w 9 && bits w 16 6 == bits w 10 6) = false := by
    cases h : bit w 31 <;> cases h9 : bit w 9 <;> simp_all
  have hserv : (bit w 31 && inService s) = false := by
    cases h : bit w 31 <;> simp_all
  unfold einjEff
  simp only [hrange, hpat, htwo, hserv]
  rfl

theorem inService_countRsvd (s : State) (m a w : Nat) : inService (countRsvd s m a w) = inService s := by
  rw [inService, inService, isStack_countRsvd, devState_countRsvd]

/-- Settles O14: a word by its symbols in error, a pass by what it has read at its end, an injection by its word. -/
theorem memoryWordsAreScrubbed : Obligations.MemoryWordsAreScrubbed := by
  refine ⟨fun t mem word p s hpass hon hword => ?_, fun t mem s hpass hon => ?_, fun t mem word p s h => ?_,
    fun m w s h hmem hsym hsym2 harm => ?_⟩
  · intro u
    refine ⟨fun hseen => exec_scrubWord_skipped (.inr (.inr (.inr hseen))), fun hnew => ?_⟩
    rw [exec_scrubWord hpass hon hword hnew]
    exact ⟨fun h => congrArg Host.Outcome.next (scrubDone_clean h), fun e h => congrArg Host.Outcome.next (scrubDone_one h),
      fun e f l h h0 => congrArg Host.Outcome.next (scrubDone_supervisor h h0),
      fun e f l h h0 => congrArg Host.Outcome.next (scrubDone_more h h0)⟩
  · exact ⟨exec_scrubPassDeadline_behind hpass hon, exec_scrubPassDeadline_full hpass hon,
      fun h => exec_scrubPassDeadline_idle (.inr (.inr h.symm))⟩
  · exact ⟨exec_scrubWord_skipped (h.imp_right Or.inl), exec_scrubPassDeadline_idle (h.imp_right Or.inl)⟩
  · exact congrArg Host.Outcome.next (rowWrite_ok h (einjEff_ok hmem hsym hsym2 (by rwa [inService_countRsvd])))

end Sys2Proof.Machine
end

section
/-! The TAP's instructions, and the unlocking of debug by a token. -/
namespace Sys2Proof.Machine

/-! ### The TAP (R409, R410) -/

section
variable {t : Time} {s : State}

section
variable {code : Fin 256} {i : JtagIr} {n : Nat}

theorem exec_jtagUpdateIr (hrun : running s = true) (hcode : jtagCode code = some (i, n)) :
    exec (.jtagUpdateIr t code) s = .next (if jtagGuarded i && (!bit s.mbx.m3jtag n || inService s) then
      { s.at t with jtag.ir := .bypass, jtag.refused := true }
    else { s.at t with jtag.ir := i, jtag.refused := false }) := by
  have hmatch : exec (.jtagUpdateIr t code) s = .next (match jtagCode code with
    | some (i, n) => if jtagGuarded i && (!bit s.mbx.m3jtag n || inService s) then
        { s.at t with jtag.ir := .bypass, jtag.refused := true }
      else { s.at t with jtag.ir := i, jtag.refused := false }
    | none => { s.at t with jtag.ir := .bypass, jtag.refused := true }) :=
    congrArg Host.Outcome.next (if_neg (by simp [hrun]))
  rw [hmatch, hcode]

theorem exec_jtagUpdateIr_unknown (hrun : running s = true) (hcode : jtagCode code = none) :
    exec (.jtagUpdateIr t code) s = .next { s.at t with jtag.ir := .bypass, jtag.refused := true } := by
  refine congrArg Host.Outcome.next ((if_neg (by simp [hrun])).trans ?_)
  rw [hcode]

end

theorem exec_jtagUpdateIr_idle {code : Fin 256} (h : running s = false) : exec (.jtagUpdateIr t code) s = .next (s.at t) :=
  congrArg Host.Outcome.next (if_pos (by simp [h]))

theorem exec_dbgaccUpdate {write : Bool} {a d : Word} (hrun : running s = true) (hir : s.jtag.ir = .dbgacc) :
    exec (.dbgaccUpdate t write a d) s = .next (if write then
      { (busWrite (s.at t) 3 a.toNat d.toNat 4 true).2 with
        jtag.done := true, jtag.status := (busWrite (s.at t) 3 a.toNat d.toNat 4 true).1.code, jtag.word := 0 }
    else { (busRead (s.at t) 3 a.toNat 4).2.2 with
        jtag.done := true, jtag.status := (busRead (s.at t) 3 a.toNat 4).1.code
        jtag.word := (busRead (s.at t) 3 a.toNat 4).2.1 }) :=
  congrArg Host.Outcome.next (if_neg (by simp [hrun, hir]))

theorem exec_dbgaccUpdate_idle {write : Bool} {a d : Word} (h : running s = false) :
    exec (.dbgaccUpdate t write a d) s = .next (s.at t) :=
  congrArg Host.Outcome.next (if_pos (by simp [h]))

theorem exec_extestUpdate {b : Boundary} (hrun : running s = true) (hir : s.jtag.ir = .extest ∨ s.jtag.ir = .sample) :
    exec (.extestUpdate t b) s = .next { s.at t with jtag.bnd := b } :=
  congrArg Host.Outcome.next (if_neg (by rcases hir with h | h <;> simp [hrun, h]))

theorem exec_extestUpdate_idle {b : Boundary} (h : running s = false ∨ (s.jtag.ir ≠ .extest ∧ s.jtag.ir ≠ .sample)) :
    exec (.extestUpdate t b) s = .next (s.at t) :=
  congrArg Host.Outcome.next (if_pos (by simpa using h))

/-- What the operation makes of the supervisor. -/
def coreDone (s : State) : DbgOp → State
  | .halt => { s with sys.halted := true }
  | .step => s
  | .resume => { s with sys.halted := false }

theorem exec_dbgcoreHalt {op : DbgOp} (hrun : running s = true) (hir : s.jtag.ir = .dbgcore) :
    exec (.dbgcoreHalt t op) s = .next (coreDone (s.at t) op) := by
  refine congrArg Host.Outcome.next ((if_neg (by simp [hrun, hir])).trans ?_)
  cases op <;> rfl

theorem exec_dbgcoreHalt_idle {op : DbgOp} (h : running s = false) : exec (.dbgcoreHalt t op) s = .next (s.at t) :=
  congrArg Host.Outcome.next (if_pos (by simp [h]))

end

/-! ### Under SAMPLE/PRELOAD no ball follows the boundary register (R409) -/

/-- Update-DR has loaded the boundary register. -/
def bndLoaded (s : State) (b : Boundary) : State := { s with jtag.bnd := b }

section
variable {s : State} (hir : s.jtag.ir = .sample) (b : Boundary)
include hir

theorem scanDrives_sample : scanDrives s = false := by simp [scanDrives, hir]
theorem scanOff_sample : scanOff s = false := by simp [scanOff, hir]

theorem scanned_sample (bnd part : Pad) : scanned s bnd part = part := by
  rw [scanned, scanDrives_sample hir, scanOff_sample hir]
  rfl

theorem profileBall_bndLoaded (c : Nat) : profileBall (bndLoaded s b) c = profileBall s c := by
  have hload : (bndLoaded s b).jtag.ir = .sample := hir
  unfold profileBall
  rw [scanDrives_sample hir, scanDrives_sample hload]
  rfl

theorem poBalls_bndLoaded : poBalls (bndLoaded s b) = poBalls s := by
  have hload : (bndLoaded s b).jtag.ir = .sample := hir
  unfold poBalls
  rw [scanDrives_sample hir, scanDrives_sample hload]
  rfl

theorem padOf_bndLoaded (x : Ball) : padOf (bndLoaded s b) x = padOf s x := by
  have hload : (bndLoaded s b).jtag.ir = .sample := hir
  cases x with
  | gxP c => exact congrArg Pad.code (profileBall_bndLoaded hir b c)
  | po n => simp only [padOf, poBalls_bndLoaded hir b]
  | trigX | hostIrqN | hqIo n | fqClk | fqCsN | fqIo n | fqRstN =>
    simp only [padOf, scanned_sample hir, scanned_sample hload]
    rfl
  | _ => rfl

theorem ballState_bndLoaded (x : Ball) : ballState (bndLoaded s b) x = ballState s x := by
  unfold ballState
  rw [padOf_bndLoaded hir b]
  rfl

end

/-! ### The debug token (R391 to R394) -/

section
variable {t : Time} {m : Master} {n : Fin 8} {ok : Bool} {s : State}

/-- What a token makes of debug: it is open for the token's time, with its rights, or the token is counted as refused. -/
def tokenTaken (s : State) (k : Nat) (ok : Bool) : State :=
  let st := firstStatus (tokenChecks s k ok)
  if st == .ok then
    cmdAnswer ({ s with
      mbx.m3 := mbxNum s k 320 4 % 16, mbx.m3jtag := mbxNum s k 324 4, mbx.m3w := []
      sec.unlockEnd := some (s.clk + mbxNum s k 328 4 * secT), sec.refused := 0 }.fset SEC_STAT_UNLOCKED 0 1) k .ok []
  else
    cmdAnswer { s with
      sec.refused := if 3 ≤ s.sec.refused + 1 then 0 else s.sec.refused + 1
      sec.lockout := if 3 ≤ s.sec.refused + 1 then some s.clk else none } k st []

theorem exec_debugUnlock (h : (s.at t).Serves (mbxNo m n) oDebugUnlock) :
    exec (.debugUnlock t m n ok) s = .next (tokenTaken (s.at t) (mbxNo m n) ok) :=
  congrArg Host.Outcome.next ((serve_of_serves _ h).trans (by simp only [tokenTaken]))

theorem exec_debugUnlockExpiry {e : Time} (hend : s.sec.unlockEnd = some e) : exec (.debugUnlockExpiry t) s =
    .next (if e ≤ max s.clk t then debugLock (s.at t) else s.at t) := by
  refine congrArg Host.Outcome.next ?_
  rw [show (s.at t).sec.unlockEnd = some e from hend]
  rfl

theorem exec_debugLockoutEnd {a : Time} (hlock : s.sec.lockout = some a) : exec (.debugLockoutEnd t) s =
    .next (if a + secT ≤ max s.clk t then { s.at t with sec.lockout := none } else s.at t) := by
  refine congrArg Host.Outcome.next ?_
  rw [show (s.at t).sec.lockout = some a from hlock]
  rfl

end

/-- Settles O15: each instruction under its condition and outside it, a token by the first status of its checks. -/
theorem debugAccessIsGranted : Obligations.DebugAccessIsGranted := by
  refine ⟨fun t code s i n hrun hcode => ?_, fun t code s => exec_jtagUpdateIr_unknown, fun t s => rfl,
    fun t a d s hrun hir => ⟨exec_dbgaccUpdate hrun hir, exec_dbgaccUpdate hrun hir⟩,
    fun t b s => ⟨exec_extestUpdate, fun he hs => exec_extestUpdate_idle (.inr ⟨he, hs⟩), fun hir => ballState_bndLoaded hir b⟩,
    fun t s hrun hir => ⟨exec_dbgcoreHalt hrun hir, exec_dbgcoreHalt hrun hir, exec_dbgcoreHalt hrun hir⟩,
    fun t w a d op b code s h => ⟨exec_jtagUpdateIr_idle h, exec_dbgaccUpdate_idle h, exec_extestUpdate_idle (.inl h),
      exec_dbgcoreHalt_idle h⟩,
    fun t m n s h => ?_, fun t m n ok s h => ?_, fun t s e hend => ?_, fun t s a hlock => ?_⟩
  · rw [exec_jtagUpdateIr hrun hcode]
    refine ⟨fun hopen => congrArg Host.Outcome.next (if_neg ?_), fun ⟨hguard, hshut⟩ => congrArg Host.Outcome.next (if_pos ?_)⟩
    · rcases hopen with hfree | ⟨hbit, hserv⟩
      · simp [hfree]
      · simp [hbit, hserv]
    · rcases hshut with hbit | hserv
      · simp [hguard, hbit]
      · simp [hguard, hserv]
  · intro k hok
    rw [exec_debugUnlock h]
    exact congrArg Host.Outcome.next (if_pos (beq_iff_eq.mpr hok))
  · intro k st hst
    have hrefused : tokenTaken (s.at t) k ok = cmdAnswer { s.at t with
        sec.refused := if 3 ≤ s.sec.refused + 1 then 0 else s.sec.refused + 1
        sec.lockout := if 3 ≤ s.sec.refused + 1 then some (max s.clk t) else none } k st [] :=
      if_neg (fun hok => hst (beq_iff_eq.mp hok))
    rw [exec_debugUnlock h, hrefused]
    refine ⟨fun hfew => ?_, fun hthird => ?_⟩
    · rw [if_neg (by omega), if_neg (by omega)]
    · rw [if_pos (by omega), if_pos (by omega)]
  · rw [exec_debugUnlockExpiry hend]
    exact ⟨fun hdue => congrArg Host.Outcome.next (if_pos hdue),
      fun hearly => congrArg Host.Outcome.next (if_neg (not_le.mpr hearly))⟩
  · rw [exec_debugLockoutEnd hlock]
    exact ⟨fun hdue => congrArg Host.Outcome.next (if_pos hdue),
      fun hearly => congrArg Host.Outcome.next (if_neg (not_le.mpr hearly))⟩

end Sys2Proof.Machine
end

section
/-! PTP at the plant ports: announcements, Sync, the peer delay, and the transparent clock. -/
namespace Sys2Proof.Machine

section
variable {t : Time} {port : Fin 2} {s : State}

/-- The message comes from the master of the port. -/
def fromMaster (s : State) (port sender : Nat) : Bool :=
  match (ptpOf s port).best with | some b => b.sender == sender | none => false

theorem fromMaster_eq_any (s : State) (port sender : Nat) :
    fromMaster s port sender = (ptpOf s port).best.any (fun b => b.sender == sender) := by
  unfold fromMaster
  cases (ptpOf s port).best <;> rfl

/-! ### Announcements (R299, R305, R309) -/

section
variable {a : Announce}

/-- The dataset of a port is taken: it comes from the port's master, or is the better one. -/
def announceTakes (s : State) (port : Nat) (a : Announce) : Bool :=
  fromMaster s port a.sender || dsBetter (some a) (ptpOf s port).best

/-- The port after an announcement. -/
def announced (s : State) (port : Nat) (a : Announce) : State :=
  if announceTakes s port a then ptpMod s port (fun x => { x with best := some a }) else s

theorem announced_port (s : State) (p : Nat) (a : Announce) : (announced s p a).tim.port = s.tim.port := by
  unfold announced
  split <;> rfl

theorem announced_fget (s : State) (p : Nat) (a : Announce) (F : Fld) (i : Nat) : (announced s p a).fget F i = s.fget F i := by
  unfold announced
  split <;> rfl

/-- Under automatic selection the stack moves to the other port where that one has the better master. -/
def portChosen (s : State) : State :=
  if s.fget TIM_CFG_PORT == 2 && dsBetter (ptpOf s (1 - s.tim.port)).best (ptpOf s s.tim.port).best then
    { s with tim.port := 1 - s.tim.port }
  else s

theorem exec_announceMessage (hup : portUp s port = true) (huses : usesPtp s = true) (hdom : a.domain = s.fget TIM_CFG_DOMAIN) :
    exec (.announceMessage t port a) s = .next (portChosen (announced (s.at t) port a)) := by
  have hgo : ¬ (!portUp (s.at t) port || !usesPtp (s.at t) || a.domain != (s.at t).fget TIM_CFG_DOMAIN) = true := by
    simp [hup, huses, hdom]
  exact congrArg Host.Outcome.next (if_neg hgo)

theorem exec_announceMessage_idle (h : portUp s port = false ∨ usesPtp s = false ∨ a.domain ≠ s.fget TIM_CFG_DOMAIN) :
    exec (.announceMessage t port a) s = .next (s.at t) :=
  congrArg Host.Outcome.next (if_pos (by simpa [or_assoc] using h))

end

/-- The port has no master any more. -/
def masterLost (s : State) (port : Nat) : State := ptpMod s port (fun x => { x with best := none })

theorem exec_announceTimeout_other (huses : usesPtp s = true) (hport : timePort s ≠ port) :
    exec (.announceTimeout t port) s = .next (masterLost (s.at t) port) := by
  have hcur : (!(timePort (s.at t) == port.val)) = true := by simpa using hport
  exact congrArg Host.Outcome.next ((if_neg (by simp [huses])).trans (if_pos hcur))

theorem exec_announceTimeout_used (huses : usesPtp s = true) (hport : timePort s = port) :
    exec (.announceTimeout t port) s = .next (enterHold (dropLock (if s.fget TIM_CFG_PORT == 2 then
      { masterLost (s.at t) port with tim.port := 1 - port.val } else masterLost (s.at t) port))) := by
  have hcur : ¬ (!(timePort (s.at t) == port.val)) = true := by simpa using hport
  exact congrArg Host.Outcome.next ((if_neg (by simp [huses])).trans (if_neg hcur))

/-! ### Sync (R305, R309) -/

section
variable {domain sender origin : Nat} {rx : Time} {corr : Int}

/-- The offset that a Sync shows. -/
def syncOffset (s : State) (port : Nat) (rx : Time) (origin : Nat) (corr : Int) : Int :=
  (stampAt s (26 + port) rx : Nat) - ((origin : Int) + corr + (ptpOf s port).delay
    + toSigned 16 (s.fget TIM_ASYM_ASYM (3 + port)) * 256)

/-- The servo and the lock after an offset: in holdover it is judged alone. -/
def syncJudged (s : State) (e : Int) : State := judgeLock (if s.flag TIM_STAT_HOLD then s else servo s e) e 16 4

theorem fromMaster_of {b : Announce} (hbest : (ptpOf s port).best = some b) (hsender : b.sender = sender) :
    fromMaster (s.at t) port sender = true := by
  unfold fromMaster
  rw [show (ptpOf (s.at t) port).best = some b from hbest]
  simpa using hsender

theorem fromMaster_eq_false (h : ∀ b, (ptpOf s port).best = some b → b.sender ≠ sender) :
    fromMaster (s.at t) port sender = false := by
  unfold fromMaster
  split
  next b hb => simpa using h b hb
  next => rfl

/-- A lock ends the holdover, and its loss in service begins it; `s` stands before the offset and `u` after it. -/
def holdFollows (s u : State) : State :=
  if u.flag TIM_STAT_LOCK then u.fset TIM_STAT_HOLD 0 0
  else if s.flag TIM_STAT_LOCK && inService u then enterHold u else u

theorem exec_syncMessage {b : Announce} (huses : usesPtp s = true) (hup : portUp s port = true) (hport : timePort s = port)
    (hdom : domain = s.fget TIM_CFG_DOMAIN) (hbest : (ptpOf s port).best = some b) (hsender : b.sender = sender) :
    exec (.syncMessage t port domain sender rx origin corr) s =
      .next (holdFollows s (syncJudged (s.at t) (syncOffset (s.at t) port rx origin corr))) := by
  have hgo : ¬ (!usesPtp (s.at t) || !portUp (s.at t) port || timePort (s.at t) != port.val ||
      domain != (s.at t).fget TIM_CFG_DOMAIN || !fromMaster (s.at t) port sender) = true := by
    simp [huses, hup, hport, hdom, fromMaster_of hbest hsender]
  exact congrArg Host.Outcome.next (if_neg hgo)

theorem exec_syncMessage_idle (h : usesPtp s = false ∨ portUp s port = false ∨ timePort s ≠ port ∨
    domain ≠ s.fget TIM_CFG_DOMAIN ∨ (∀ b, (ptpOf s port).best = some b → b.sender ≠ sender)) :
    exec (.syncMessage t port domain sender rx origin corr) s = .next (s.at t) := by
  have hstop : (!usesPtp (s.at t) || !portUp (s.at t) port || timePort (s.at t) != port.val ||
      domain != (s.at t).fget TIM_CFG_DOMAIN || !fromMaster (s.at t) port sender) = true := by
    rcases h with h | h | h | h | h
    · simp [h]
    · simp [h]
    · simp [h]
    · simp [h]
    · simp [fromMaster_eq_false h]
  exact congrArg Host.Outcome.next (if_pos hstop)

end

/-! ### The peer delay of a link (R299) -/

theorem exec_pdelayRequest {h : PdelayIn} (hup : portUp s h.port = true) (hdom : h.domain = s.fget TIM_CFG_DOMAIN) :
    exec (.pdelayRequest t h) s = .next { s.at t with
      free := s.free + 1,
      ethOut := s.ethOut ++ [.pdelayResp h.port h.domain (stampAt (s.at t) (26 + h.port.val) t),
        .pdelayFollowUp h.port h.domain (stampAt (s.at t) (26 + h.port.val) t + Config.freeWord s.free)] } := by
  have hgo : ¬ (!portUp (s.at t) h.port || h.domain != (s.at t).fget TIM_CFG_DOMAIN) = true := by simp [hup, hdom]
  exact congrArg Host.Outcome.next (if_neg hgo)

theorem exec_pdelayRequest_idle {h : PdelayIn} (hidle : portUp s h.port = false ∨ h.domain ≠ s.fget TIM_CFG_DOMAIN) :
    exec (.pdelayRequest t h) s = .next (s.at t) :=
  congrArg Host.Outcome.next (if_pos (by simpa using hidle))

theorem exec_pdelayRequestTimer (hup : portUp s port = true) :
    exec (.pdelayRequestTimer t port) s = .next { ptpMod (s.at t) port (fun x =>
      { x with t1 := some (stampAt (s.at t) (26 + port.val) (max s.clk t)) }) with
        ethOut := s.ethOut ++ [.pdelayReq port (s.fget TIM_CFG_DOMAIN)] } :=
  congrArg Host.Outcome.next (if_neg (by simp [hup]))

theorem exec_pdelayRequestTimer_idle (hup : portUp s port = false) :
    exec (.pdelayRequestTimer t port) s = .next (s.at t) :=
  congrArg Host.Outcome.next (if_pos (by simp [hup]))

section
variable {h : PdelayIn} {rx : Time} {t2 t3 : Nat} {corr : Int}

theorem exec_pdelayResponse {t1 : Nat} (hup : portUp s h.port = true) (hdom : h.domain = s.fget TIM_CFG_DOMAIN)
    (hsent : (ptpOf s h.port).t1 = some t1) :
    exec (.pdelayResponse t h rx t2 t3 corr) s = .next (ptpMod (s.at t) h.port (fun x => { x with
      t1 := none,
      delay := ((stampAt (s.at t) (26 + h.port.val) rx : Nat) - (t1 : Int) - ((t3 : Int) - t2) - corr) / 2 })) := by
  have hgo : ¬ (!portUp (s.at t) h.port || h.domain != (s.at t).fget TIM_CFG_DOMAIN) = true := by simp [hup, hdom]
  refine congrArg Host.Outcome.next ?_
  rw [show (ptpOf (s.at t) h.port).t1 = some t1 from hsent]
  exact if_neg hgo

theorem exec_pdelayResponse_idle (hidle : portUp s h.port = false ∨ h.domain ≠ s.fget TIM_CFG_DOMAIN) :
    exec (.pdelayResponse t h rx t2 t3 corr) s = .next (s.at t) := by
  have hstop : (!portUp (s.at t) h.port || h.domain != (s.at t).fget TIM_CFG_DOMAIN) = true := by simpa using hidle
  refine congrArg Host.Outcome.next ?_
  cases (ptpOf (s.at t) h.port).t1 with
  | none => rfl
  | some t1 => exact if_pos hstop

end

/-! ### The transparent clock (R299) -/

section
variable {kind res : Nat} {corr : Int}

/-- What a transparent clock adds to the correction of a message. -/
def relayAdds (s : State) (port kind res : Nat) : Int :=
  if kind == 0 then res + (ptpOf s port).delay + toSigned 16 (s.fget TIM_ASYM_ASYM (3 + port)) * 256 else 0

theorem exec_ptpTransparentRelay (htc : s.fget TIM_CFG_TC = 1) (hup : portUp s port = true)
    (hother : portUp s (1 - port.val) = true) (hkind : kind ∉ [2, 3, 10]) :
    exec (.ptpTransparentRelay t port kind corr res) s = .next { s.at t with
      ethOut := s.ethOut ++ [.ptpRelay (1 - port.val) kind (corr + relayAdds s port kind res)] } := by
  have hgo : ¬ (!(s.at t).flag TIM_CFG_TC || !portUp (s.at t) port || !portUp (s.at t) (1 - port.val) ||
      [2, 3, 10].contains kind) = true := by
    simp [hup, hother, flag_eq_true.2 htc] at hkind ⊢
    exact hkind
  exact congrArg Host.Outcome.next (if_neg hgo)

theorem exec_ptpTransparentRelay_idle (hidle : portUp s port = false ∨ kind ∈ [2, 3, 10]) :
    exec (.ptpTransparentRelay t port kind corr res) s = .next (s.at t) := by
  have hstop : (!(s.at t).flag TIM_CFG_TC || !portUp (s.at t) port || !portUp (s.at t) (1 - port.val) ||
      [2, 3, 10].contains kind) = true := by
    rcases hidle with h | h
    · simp [h]
    · simp only [List.contains_iff_mem.2 h, Bool.or_true]
  exact congrArg Host.Outcome.next (if_pos hstop)

end

/-! ### The statement -/

/-- Settles O32: each message does what the lemma of its case says. -/
theorem ptpMessagesAreServed : Obligations.PtpMessagesAreServed := by
  unfold Obligations.PtpMessagesAreServed
  refine ⟨?_, fun t port a s h => exec_announceMessage_idle h, ?_, ?_, fun t port d n rx o c s h => exec_syncMessage_idle h, ?_,
    fun t port s hup => exec_pdelayRequestTimer hup, ?_, ?_, ?_⟩
  case refine_1 =>
    intro t port a s hup huses hdom takes u o moves
    have hu : announced (s.at t) port a = u := by
      unfold announced announceTakes
      rw [fromMaster_eq_any]
      rfl
    rw [exec_announceMessage hup huses hdom, portChosen, announced_fget, announced_port, hu]
    rfl
  case refine_2 =>
    intro t port s huses
    refine ⟨fun hport => exec_announceTimeout_other huses hport, fun hport hfixed => ?_, fun hport hauto => ?_⟩
    · rw [exec_announceTimeout_used huses hport, if_neg (by simpa using hfixed)]
      rfl
    · rw [exec_announceTimeout_used huses hport, if_pos (by simpa using hauto)]
      rfl
  case refine_3 =>
    intro t port d n rx o c b s huses hup hport hdom hbest hsender e u
    have hu : syncJudged (s.at t) (syncOffset (s.at t) port rx o c) = u := by
      unfold syncJudged
      by_cases hh : s.fget TIM_STAT_HOLD = 1
      · simp only [u, if_pos hh, if_pos (show (s.at t).flag TIM_STAT_HOLD = true from flag_eq_true.2 hh)]
        rfl
      · simp only [u, if_neg hh, if_neg (show ¬ (s.at t).flag TIM_STAT_HOLD = true from fun h => hh (flag_eq_true.1 h))]
        rfl
    rw [exec_syncMessage huses hup hport hdom hbest hsender, hu, holdFollows]
    refine ⟨fun hlock => ?_, fun hlock hwas hin => ?_, fun hlock hout => ?_⟩
    · rw [if_pos (flag_eq_true.2 hlock)]
    · rw [if_neg (by simpa [flag_eq_true] using hlock), if_pos (by simp [flag_eq_true.2 hwas, hin])]
    · rw [if_neg (by simpa [flag_eq_true] using hlock), if_neg (by simpa [flag_eq_true, imp_iff_not_or] using hout)]
  case refine_4 =>
    intro t h s hup hdom
    exact ⟨_, exec_pdelayRequest hup hdom, Config.freeWord s.free, rfl⟩
  case refine_5 =>
    intro t h rx t1 t2 t3 c s hup hdom hsent
    exact exec_pdelayResponse hup hdom hsent
  case refine_6 =>
    intro t port kind c res s htc hup hother
    refine ⟨fun hk => ?_, fun hk => ?_, fun hk => exec_ptpTransparentRelay_idle (.inr hk)⟩
    · subst hk
      exact exec_ptpTransparentRelay htc hup hother (by decide)
    · obtain ⟨h0, hrest⟩ := not_or.1 (fun h => hk (List.mem_cons.2 h))
      rw [exec_ptpTransparentRelay htc hup hother hrest, relayAdds, if_neg (by simpa using h0), add_zero]
  case refine_7 =>
    intro t port d rx t2 t3 kind c res s
    exact ⟨fun h => ⟨exec_pdelayRequest_idle h, exec_pdelayResponse_idle h⟩,
      fun h => ⟨exec_pdelayRequestTimer_idle h, exec_ptpTransparentRelay_idle (.inl h)⟩⟩

end

end Sys2Proof.Machine
end

section
/-! A statement that fails at a state which no access reaches: LNK_CHSEL out of its range. -/
namespace Sys2Proof.Machine

/-! ### A selected lane that does not exist (R69, R294) -/

/-- The index at which LNK_CFG.EN has the key of LNK_ERR.VALID. -/
def strayLane : Nat := (LNK_ERR_VALID.addr * 32 + LNK_ERR_VALID.lo - (LNK_CFG_EN.addr * 32 + LNK_CFG_EN.lo)) * 2048

/-- The domain of that lane, had it one: `10 + strayLane / 4`. -/
def strayDom : Nat := 63176714

theorem instDom_strayLane : instDom .lnk strayLane = strayDom := by decide

/-- A stack whose M0 has BLK_CHSEL, with the range 0 to 27 (R294), at `strayLane`, and whose domains are on as `on` says. -/
def strayLink (on : Nat) : State :=
  ((State.reset.fset SYS_STRAP_ROLE 0 1).putRaw LNK_CHSEL_CH 0 strayLane).putRaw PWR_DOMSTAT_ON 0 on

theorem fget_cfg_en_strayLane (s : State) : s.fget LNK_CFG_EN strayLane = s.fget LNK_ERR_VALID := by
  have hkey : LNK_CFG_EN.key strayLane = LNK_ERR_VALID.key 0 := by decide
  have hreset : LNK_CFG_EN.resetAt strayLane = LNK_ERR_VALID.resetAt 0 := by decide
  rw [State.fget, hkey, hreset, State.fget]

theorem fget_putRaw_far (s : State) {F G : Fld} {i j : Nat} (v : Nat) (hi : i < 2048) (hj : j < 2048)
    (h : G.addr * 32 + G.lo ≠ F.addr * 32 + F.lo) : (s.putRaw F i v).fget G j = s.fget G j :=
  smGet_set_other _ _ _ _ (Fld.key_ne hi hj h)

/-- The raw value of PWR_DOMSTAT is read back, and no other register of `strayLink` depends on it. -/
theorem fget_domstat_strayLink (on : Nat) : (strayLink on).fget PWR_DOMSTAT_ON = on := smGet_set_same _ _ _ _

theorem fget_strayLink (on : Nat) {F : Fld} {i : Nat} (hi : i < 2048)
    (h : F.addr * 32 + F.lo ≠ PWR_DOMSTAT_ON.addr * 32 + PWR_DOMSTAT_ON.lo) :
    (strayLink on).fget F i = (strayLink 0).fget F i := by
  rw [strayLink, strayLink, fget_putRaw_far _ _ (by decide) hi h, fget_putRaw_far _ _ (by decide) hi h]

theorem chsel_strayLink (on : Nat) : chsel (strayLink on) .lnk (0 : Master) = strayLane :=
  (fget_strayLink on (by decide) (by decide)).trans (by decide +kernel)

theorem isStack_strayLink (on : Nat) : isStack (strayLink on) = true := by
  rw [isStack, flag_eq_true, fget_strayLink on (by decide) (by decide)]
  decide +kernel

/-- The kernel cannot evaluate a bit so far up; of 0 there is none to evaluate. -/
theorem bit_zero_left (n : Nat) : bit 0 n = false := by
  rw [bit, Nat.zero_div]
  rfl

/-- Nor can it evaluate a number with that bit; one exists. -/
theorem exists_bit (n : Nat) : ∃ on, bit on n = true := by
  refine ⟨2 ^ n, ?_⟩
  rw [bit, Nat.div_self (Nat.two_pow_pos n)]
  rfl

theorem domStatus_strayLink {on : Nat} (hon : bit on strayDom = true) : domStatus (strayLink on) strayDom = .ok := by
  have huses : roleUses (strayLink on) strayDom = true := by
    rw [roleUses, isStack_strayLink]
    rfl
  have hret : (strayLink on).fget SYS_RETIRED_RETIRED = 0 := by
    rw [fget_strayLink on (by decide) (by decide)]
    decide +kernel
  have htest : (strayLink on).sys.testing = 0 := rfl
  have hmove : domMoving (strayLink on) strayDom = false := rfl
  have hzero : (strayDom == 0) = false := by decide
  rw [domStatus, huses, domRetired, hret, htest, hmove, bit_zero_left, domOn, fget_domstat_strayLink, hon, hzero]
  rfl

theorem instStatus_strayLink {on : Nat} (hon : bit on strayDom = true) : instStatus (strayLink on) .lnk strayLane = .ok := by
  have hret : (strayLink on).fget SEC_RETLANE_RET = 0 := by
    rw [fget_strayLink on (by decide) (by decide)]
    decide +kernel
  rw [instStatus, instDom_strayLane, domStatus_strayLink hon, instRetired, hret, bit_zero_left]
  rfl

/-- LNK_CFG stands in the window. -/
theorem accessInst_lnkCfg (s : State) (m : Nat) : accessInst s m 0x140100 = instStatus s .lnk (chsel s .lnk m) := rfl

theorem accessDom_lnkCfg (s : State) (m : Nat) : accessDom s m 0x140100 = domStatus s (instDom .lnk (chsel s .lnk m)) := rfl

theorem jnlFull_strayLink (on : Nat) : jnlFull (strayLink on) = false := by
  have hstop : (strayLink on).fget ACC_JNLCFG_STOP = 0 := by
    rw [fget_strayLink on (by decide) (by decide)]
    decide +kernel
  rw [jnlFull, flag_of_clear hstop, Bool.false_and]

theorem mayWrite_strayLink {on : Nat} (hon : bit on strayDom = true) : (strayLink on).MayWrite (0 : Master) 0x140100 0x70000 false := by
  refine ⟨by decide, ?_⟩
  unfold writeStatus writeRest
  rw [accessInst_lnkCfg, accessDom_lnkCfg, chsel_strayLink, instStatus_strayLink hon, instDom_strayLane, domStatus_strayLink hon,
    isStack_strayLink, jnlFull_strayLink]
  have hright : hasRight (strayLink on) (0 : Master) 0x140100 1 = true := by
    rw [hasRight, rightsOf, show blkOf 0x140100 = some .lnk by decide]
    simp [bit]
  have hbox : mbxBusy (strayLink on) (0 : Master) 0x140100 = false := rfl
  have hblk : blkOf 0x140100 = some .lnk := by decide
  have hsec : (some Blk.lnk == some .sec) = false := by decide
  simp only [hright, hbox, hblk, hsec, Bool.not_true, Bool.and_false, Bool.false_and]
  decide

/-- Refutes O42: a write of RATE 7 for the lane that `strayLink` selects is refused and sets LNK_ERR.VALID, whose entry is also
that lane's LNK_CFG.EN, and this the statement has unchanged: it ranges over every value of BLK_CHSEL, not 0 to 27 alone. -/
theorem not_laneStatesFollowTheLine : ¬ Obligations.LaneStatesFollowTheLine := by
  intro h
  obtain ⟨hcfg, -⟩ := h
  obtain ⟨on, hon⟩ := exists_bit strayDom
  obtain ⟨-, hrefused⟩ := hcfg 0 0x70000 (strayLink on) (mayWrite_strayLink hon)
  rw [chsel_strayLink] at hrefused
  obtain ⟨u, -, hvalid, -, hen, -⟩ := hrefused (.inl rfl)
  rw [fget_cfg_en_strayLane, fget_cfg_en_strayLane, hvalid, fget_strayLink _ (by decide) (by decide)] at hen
  exact absurd hen (by decide +kernel)

end Sys2Proof.Machine
end

section
/-! What a lane sends and relays: CAPS, the next frame of its queue, IDLE, and the copies of a relay. -/
namespace Sys2Proof.Machine

/-! ### A lane that is changed twice -/

theorem smErase_smInsert {β : Type} (k : Nat) (v : β) (m : SMap β) : smErase (smInsert k v m) k = smErase m k := by
  induction m with
  | nil => simp [smInsert, smErase]
  | cons e m ih =>
    by_cases hlt : k < e.1
    · simp [smInsert, smErase, hlt]
    · by_cases heq : e.1 = k <;> simp [smInsert, smErase, hlt, heq, ih]

theorem smErase_smErase {β : Type} (m : SMap β) (k : Nat) : smErase (smErase m k) k = smErase m k := by
  induction m with
  | nil => rfl
  | cons e m ih => by_cases heq : e.1 = k <;> simp [smErase, heq, ih]

/-- The later of two entries under one key stands. -/
theorem smSet_smSet {β : Type} [DecidableEq β] (d : β) (m : SMap β) (k : Nat) (v w : β) :
    smSet d (smSet d m k v) k w = smSet d m k w := by
  have herase : smErase (smSet d m k v) k = smErase m k := by
    unfold smSet
    split
    · exact smErase_smErase m k
    · rw [smErase_smInsert, smErase_smErase]
  rw [smSet, herase, smSet]

section
variable {v : State} {l : Nat}

theorem lnOf_lnMod_same (v : State) (l : Nat) (f : LaneSt → LaneSt) : lnOf (lnMod v l f) l = f (lnOf v l) :=
  smGet_set_same _ _ _ _

theorem lnOf_lnMod_other {k : Nat} (f : LaneSt → LaneSt) (h : k ≠ l) : lnOf (lnMod v l f) k = lnOf v k :=
  smGet_set_other _ _ _ _ h

theorem lnMod_lnMod (v : State) (l : Nat) (f g : LaneSt → LaneSt) :
    lnMod (lnMod v l f) l g = lnMod v l (fun x => g (f x)) := by
  have hlanes : smMod {} (lnMod v l f).lanes l g = smMod {} v.lanes l (fun x => g (f x)) := by
    show smSet _ (smSet _ _ _ _) _ (g (lnOf (lnMod v l f) l)) = smSet _ _ _ _
    rw [smSet_smSet, lnOf_lnMod_same]
    rfl
  exact congrArg (fun m => { v with lanes := m }) hlanes

/-- Only what a change makes of the lane as it stands counts. -/
theorem lnMod_congr {f g : LaneSt → LaneSt} (h : f (lnOf v l) = g (lnOf v l)) : lnMod v l f = lnMod v l g := by
  show { v with lanes := smSet _ _ _ (f (lnOf v l)) } = { v with lanes := smSet _ _ _ (g (lnOf v l)) }
  rw [h]

theorem fwdServer_lnMod {f : LaneSt → LaneSt} (hf : ∀ x, (f x).far0 = x.far0) (k : Nat) :
    fwdServer (lnMod v l f) k = fwdServer v k := by
  have hfar : ∀ j, (lnOf (lnMod v l f) j).far0 = (lnOf v j).far0 := fun j => by
    by_cases hj : j = l
    · rw [hj, lnOf_lnMod_same, hf]
    · rw [lnOf_lnMod_other f hj]
  refine congrArg (fun p => (livePeers v).find? p) (funext fun sid => ?_)
  show (match peerLane v sid with | some j => bit (lnOf (lnMod v l f) j).far0 k | none => false) = _
  cases peerLane v sid with
  | none => rfl
  | some j => exact congrArg (bit · k) (hfar j)

/-- Link status is shown from the registers and from the IDLE words received. -/
theorem idleWord1_lnMod {f : LaneSt → LaneSt} (hf : ∀ x, (f x).far0 = x.far0) (j : Nat) :
    idleWord1 (lnMod v l f) j = idleWord1 v j := by
  unfold idleWord1
  simp only [fwdServer_lnMod hf]
  rfl

end

variable {t : Time} {l : Lane} {s v : State}

/-! ### CAPS and IDLE frames that time brings (R278, R283) -/

/-- No CAPS frame is due. -/
def capsRests (s : State) (l : Nat) : Bool :=
  laneState s l != L_CAPS || (decide ((lnOf s l).since ≤ (lnOf s l).lastTx) && decide (s.clk < (lnOf s l).lastTx + usT))

theorem capsRests_iff {s : State} {l : Nat} : capsRests s l = true ↔
    laneState s l ≠ L_CAPS ∨ ((lnOf s l).since ≤ (lnOf s l).lastTx ∧ s.clk < (lnOf s l).lastTx + usT) := by
  simp only [capsRests, Bool.or_eq_true, bne_iff_ne, Bool.and_eq_true, decide_eq_true_iff]

theorem exec_capsSend (hst : laneState s l = L_CAPS)
    (hdue : (lnOf s l).lastTx < (lnOf s l).since ∨ (lnOf s l).lastTx + usT ≤ max s.clk t) :
    exec (.capsSend t l) s = .next (capsDone (lnMod (s.at t) l (fun x => { x with
      sent := some ⟨{ (capsOut (s.at t) l ((lnOf s l).pass && capsWired (s.at t) l && capsSame (s.at t) l)).hdr with
        seq := smGet 0 x.seq 8 }, (capsOut (s.at t) l ((lnOf s l).pass && capsWired (s.at t) l && capsSame (s.at t) l)).body⟩
      sentAt := stampAt (s.at t) l (max s.clk t)
      sentBad := false
      lastTx := max s.clk t
      seq := smSet 0 x.seq 8 ((smGet 0 x.seq 8 + 1) % 65536)
      ackTx := x.ackTx || ((lnOf s l).pass && capsWired (s.at t) l && capsSame (s.at t) l) })) l) := by
  have hgo : ¬ capsRests (s.at t) l = true := by
    rw [capsRests_iff]
    rintro (h | ⟨hfrom, hto⟩)
    · exact h hst
    · rcases hdue with h | h
      · exact absurd hfrom (not_le.mpr h)
      · exact absurd hto (not_lt.mpr h)
  exact congrArg Host.Outcome.next (if_neg hgo)

theorem exec_capsSend_idle (h : laneState s l ≠ L_CAPS ∨
    ((lnOf s l).since ≤ (lnOf s l).lastTx ∧ max s.clk t < (lnOf s l).lastTx + usT)) :
    exec (.capsSend t l) s = .next (s.at t) := by
  exact congrArg Host.Outcome.next (if_pos (capsRests_iff.mpr h))

/-- No frame has been sent for 5 µs on a lane that carries frames. -/
def idleDue (s : State) (l : Nat) : Bool :=
  isYarid s l && laneActive s l && (lnOf s l).txq.isEmpty && decide ((lnOf s l).lastTx + 5 * usT ≤ s.clk)

theorem idleDue_iff {s : State} {l : Nat} : idleDue s l = true ↔ isYarid s l = true ∧ laneActive s l = true ∧
    (lnOf s l).txq = [] ∧ (lnOf s l).lastTx + 5 * usT ≤ s.clk := by
  simp only [idleDue, Bool.and_eq_true, List.isEmpty_iff, decide_eq_true_iff, and_assoc]

theorem exec_idleTimer (hyarid : isYarid s l = true) (hact : laneActive s l = true) (hempty : (lnOf s l).txq = [])
    (hquiet : (lnOf s l).lastTx + 5 * usT ≤ max s.clk t) :
    exec (.idleTimer t l) s = .next (lnMod (s.at t) l (fun x =>
      { x with txq := x.txq ++ [(6, idleFrame (s.at t) l 0)] })) := by
  have hdue : idleDue (s.at t) l = true := idleDue_iff.mpr ⟨hyarid, hact, hempty, hquiet⟩
  exact congrArg Host.Outcome.next ((if_pos hdue).trans (if_pos hact))

theorem exec_idleTimer_idle (h : isYarid s l = false ∨ laneActive s l = false ∨ (lnOf s l).txq ≠ [] ∨
    max s.clk t < (lnOf s l).lastTx + 5 * usT) : exec (.idleTimer t l) s = .next (s.at t) := by
  refine congrArg Host.Outcome.next (if_neg fun hdue => ?_)
  obtain ⟨hyarid, hact, hempty, hquiet⟩ := idleDue_iff.mp hdue
  rcases h with h | h | h | h
  · exact Bool.false_ne_true (h.symm.trans hyarid)
  · exact Bool.false_ne_true (h.symm.trans hact)
  · exact h hempty
  · exact absurd hquiet (not_le.mpr h)

/-! ### The transmitter starts the next frame (R265, R278, R279, R302) -/

section
variable {f : Frame} {q : List (Nat × Frame)}

/-- The frames that still wait. -/
def txLeft (v : State) (l : Nat) (q : List (Nat × Frame)) : State := lnMod v l (fun x => { x with txq := q })

/-- Frame `g` is started, with the sequence number that `f` has taken. -/
def txSent (v : State) (l : Nat) (f g : Frame) (q : List (Nat × Frame)) : State :=
  lnMod (txLeft v l q) l (fun x => { x with
    sent := some g, sentAt := stampAt v l v.clk, sentBad := false, lastTx := v.clk
    seq := smSet 0 x.seq f.hdr.ty ((smGet 0 x.seq f.hdr.ty + 1) % 65536) })

/-- A delay response, and its turnaround. -/
def isDrsp (f : Frame) : Bool := f.hdr.ty == 0 && bit f.hdr.xflags 14
def turnNow (v : State) (l : Nat) : Nat :=
  match (lnOf v l).dreqIn with | some t2 => (stampAt v l v.clk - t2) / 16384 | none => 0

/-- A frame of this device's own as it starts. -/
def startedFrame (v : State) (l : Nat) (f : Frame) : Frame :=
  let h := { f.hdr with seq := smGet 0 (lnOf v l).seq f.hdr.ty }
  match f.body with
  | .idle _ _ => ⟨{ h with xflags := if isDrsp f then 0x4000 + turnNow v l else h.xflags }, .idle (activeMask v) (idleWord1 v l)⟩
  | .time _ corr cyc ts => ⟨{ h with cycle := cycleNow v }, .time (stampAt v l v.clk) corr cyc ts⟩
  | b => ⟨h, b⟩

/-- A frame of this device's own is started, or a delay response is given up. -/
def ownStart (v : State) (l : Nat) (f : Frame) : State :=
  if isDrsp f && ((lnOf v l).dreqIn.isNone || 16383 < turnNow v l) then lnMod v l (fun x => { x with dreqIn := none })
  else lnMod v l (fun x => { x with
    sent := some (startedFrame v l f), sentAt := stampAt v l v.clk, sentBad := false, lastTx := v.clk
    seq := smSet 0 x.seq f.hdr.ty ((smGet 0 (lnOf v l).seq f.hdr.ty + 1) % 65536)
    idle0 := if f.hdr.ty == 0 then activeMask v else x.idle0, idle1 := if f.hdr.ty == 0 then idleWord1 v l else x.idle1
    dreqIn := if isDrsp f then none else x.dreqIn
    t1 := if f.hdr.ty == 0 && bit f.hdr.xflags 15 then some (stampAt v l v.clk) else x.t1 })

theorem exec_laneTxReady_idle (hv : capSettle (s.at t) = v)
    (h : laneActive v l = false ∨ txBusy v l = true ∨ takeTx (lnOf v l).txq = none) :
    exec (.laneTxReady t l) s = .next v := by
  subst hv
  refine congrArg Host.Outcome.next ?_
  rcases h with h | h | h
  · exact if_pos (by rw [h]; rfl)
  · exact if_pos (by rw [h, Bool.or_true])
  · rw [h]
    exact ite_self _

section
variable (hv : capSettle (s.at t) = v) (hact : laneActive v l = true) (hfree : txBusy v l = false)
  (htake : takeTx (lnOf v l).txq = some (f, q))
include hv hact hfree htake

theorem exec_laneTxReady : exec (.laneTxReady t l) s = .next (
    match (lnOf v l).relIn.find? (fun r => r.1 == f) with
    | some r => relayStart (lnMod (txLeft v l q) l (fun x => { x with relIn := (lnOf v l).relIn.erase r })) l f r.2.1 r.2.2
    | none => ownStart (txLeft v l q) l f) := by
  have hgo : ¬ (!laneActive v l || txBusy v l) = true := by simp [hact, hfree]
  have hleft : (lnOf (txLeft v l q) l).relIn = (lnOf v l).relIn := by rw [txLeft, lnOf_lnMod_same]
  subst hv
  refine congrArg Host.Outcome.next ((if_neg hgo).trans ?_)
  rw [htake, ← hleft]
  show (match (lnOf (txLeft (capSettle (s.at t)) l q) l).relIn.find? (fun r => r.1 == f) with
    | some r => relayStart (lnMod (txLeft (capSettle (s.at t)) l q) l (fun x => { x with relIn := x.relIn.erase r })) l f r.2.1 r.2.2
    | none => ownStart (txLeft (capSettle (s.at t)) l q) l f) = _
  cases (lnOf (txLeft (capSettle (s.at t)) l q) l).relIn.find? (fun r => r.1 == f) with
  | none => rfl
  | some r => exact congrArg (relayStart · l f r.2.1 r.2.2) (lnMod_congr rfl)

theorem exec_laneTxReady_relayed {r : Frame × Nat × Bool} (hrel : (lnOf v l).relIn.find? (fun r => r.1 == f) = some r) :
    exec (.laneTxReady t l) s = .next (relayStart (lnMod (txLeft v l q) l
      (fun x => { x with relIn := (lnOf v l).relIn.erase r })) l f r.2.1 r.2.2) := by
  rw [exec_laneTxReady hv hact hfree htake, hrel]

theorem exec_laneTxReady_own (hown : (lnOf v l).relIn.find? (fun r => r.1 == f) = none) :
    exec (.laneTxReady t l) s = .next (ownStart (txLeft v l q) l f) := by
  rw [exec_laneTxReady hv hact hfree htake, hown]

end
theorem idleWord1_txLeft (v : State) (l j : Nat) : idleWord1 (txLeft v l q) j = idleWord1 v j := by
  rw [txLeft, idleWord1_lnMod]
  exact fun _ => rfl

theorem turnNow_txLeft (v : State) (l : Nat) : turnNow (txLeft v l q) l = turnNow v l := by
  unfold turnNow
  rw [txLeft, lnOf_lnMod_same]
  rfl

theorem startedFrame_txLeft (v : State) (l : Nat) (f : Frame) : startedFrame (txLeft v l q) l f = startedFrame v l f := by
  have hword : idleWord1 (txLeft v l q) l = idleWord1 v l := idleWord1_txLeft v l l
  have hseq : (lnOf (txLeft v l q) l).seq = (lnOf v l).seq := by rw [txLeft, lnOf_lnMod_same]
  unfold startedFrame
  rw [hword, hseq, turnNow_txLeft]
  rfl

/-- A frame that is not an answer to a delay request is started. -/
theorem ownStart_of_not_drsp {l : Nat} (hd : isDrsp f = false) : ownStart (txLeft v l q) l f =
    lnMod (txSent v l f (startedFrame v l f) q) l (fun x => { x with
      idle0 := if f.hdr.ty == 0 then activeMask v else x.idle0, idle1 := if f.hdr.ty == 0 then idleWord1 v l else x.idle1
      t1 := if f.hdr.ty == 0 && bit f.hdr.xflags 15 then some (stampAt v l v.clk) else x.t1 }) := by
  have hword : idleWord1 (txLeft v l q) l = idleWord1 v l := idleWord1_txLeft v l l
  rw [ownStart, hd, Bool.false_and, if_neg Bool.false_ne_true, startedFrame_txLeft, hword, txSent, lnMod_lnMod]
  exact lnMod_congr rfl

theorem ownStart_other {l : Nat} (hty : f.hdr.ty ≠ 0) :
    ownStart (txLeft v l q) l f = txSent v l f (startedFrame v l f) q := by
  have hne : (f.hdr.ty == 0) = false := beq_eq_false_iff_ne.mpr hty
  have hd : isDrsp f = false := by rw [isDrsp, hne, Bool.false_and]
  rw [ownStart_of_not_drsp hd, hne, txSent, lnMod_lnMod]
  rfl

section
variable {l : Nat} (hty : f.hdr.ty = 0)
include hty

theorem ownStart_idle (hd : bit f.hdr.xflags 14 = false) : ownStart (txLeft v l q) l f =
    lnMod (txSent v l f (startedFrame v l f) q) l (fun x => { x with
      idle0 := activeMask v, idle1 := idleWord1 v l
      t1 := if bit f.hdr.xflags 15 = true then some (stampAt v l v.clk) else x.t1 }) := by
  rw [ownStart_of_not_drsp (by rw [isDrsp, hd, Bool.and_false]), hty]
  rfl

section
variable (hd : bit f.hdr.xflags 14 = true)
include hd

theorem isDrsp_of : isDrsp f = true := by rw [isDrsp, hty, hd]; rfl

theorem ownStart_drsp_late (hlate : (lnOf v l).dreqIn = none ∨ 16383 < turnNow v l) :
    ownStart (txLeft v l q) l f = lnMod (txLeft v l q) l (fun x => { x with dreqIn := none }) := by
  have hreq : (lnOf (txLeft v l q) l).dreqIn = (lnOf v l).dreqIn := by rw [txLeft, lnOf_lnMod_same]
  rw [ownStart, isDrsp_of hty hd, hreq, turnNow_txLeft]
  refine if_pos ?_
  rcases hlate with h | h
  · rw [h]; rfl
  · rw [decide_eq_true h, Bool.or_true, Bool.and_true]

theorem ownStart_drsp {t2 : Nat} (hreq : (lnOf v l).dreqIn = some t2) (hturn : turnNow v l ≤ 16383) :
    ownStart (txLeft v l q) l f = lnMod (txSent v l f (startedFrame v l f) q) l (fun x => { x with
      idle0 := activeMask v, idle1 := idleWord1 v l, dreqIn := none
      t1 := if bit f.hdr.xflags 15 = true then some (stampAt v l v.clk) else x.t1 }) := by
  have hleft : (lnOf (txLeft v l q) l).dreqIn = (lnOf v l).dreqIn := by rw [txLeft, lnOf_lnMod_same]
  have hword : idleWord1 (txLeft v l q) l = idleWord1 v l := idleWord1_txLeft v l l
  rw [ownStart, isDrsp_of hty hd, hleft, turnNow_txLeft, hreq, decide_eq_false (not_lt.mpr hturn), startedFrame_txLeft,
    hword, txSent, lnMod_lnMod, hty]
  exact (if_neg (by simp)).trans (lnMod_congr (by rw [txLeft, lnOf_lnMod_same]; rfl))

end
end

/-! The frame as it starts, by its payload. -/

theorem startedFrame_plain {l : Nat} (hidle : ∀ a b, f.body ≠ .idle a b) (htime : ∀ a b c d, f.body ≠ .time a b c d) :
    startedFrame v l f = ⟨{ f.hdr with seq := smGet 0 (lnOf v l).seq f.hdr.ty }, f.body⟩ := by
  unfold startedFrame
  split
  next a b h => exact absurd h (hidle a b)
  next a b c d h => exact absurd h (htime a b c d)
  next => rfl

theorem startedFrame_time {l a : Nat} {corr : Int} {cyc ts : Nat} (h : f.body = .time a corr cyc ts) :
    startedFrame v l f = ⟨{ f.hdr with seq := smGet 0 (lnOf v l).seq f.hdr.ty, cycle := cycleNow v },
      .time (stampAt v l v.clk) corr cyc ts⟩ := by
  unfold startedFrame
  rw [h]

theorem startedFrame_idle {l a b : Nat} (h : f.body = .idle a b) : startedFrame v l f =
    ⟨{ f.hdr with seq := smGet 0 (lnOf v l).seq f.hdr.ty, xflags := if isDrsp f then 0x4000 + turnNow v l else f.hdr.xflags },
      .idle (activeMask v) (idleWord1 v l)⟩ := by
  unfold startedFrame
  rw [h]

end

/-! ### The relay (R279 to R281, R303) -/

section
variable {fr : Frame} {res : Time} {l : Nat}

theorem relayCopy_plain (htime : ∀ a b c d, fr.body ≠ .time a b c d) :
    relayCopy v l fr res = ⟨{ fr.hdr with hop := fr.hdr.hop + 1 }, fr.body⟩ := by
  unfold relayCopy
  dsimp only
  split
  next a b c d h => exact absurd h (htime a b c d)
  next => rfl

theorem relayCopy_time {o : Nat} {corr : Int} {cyc ts : Nat} (hbody : fr.body = .time o corr cyc ts) :
    relayCopy v l fr res = if v.flag TIM_PDLY_VALID l then
      ⟨{ fr.hdr with hop := fr.hdr.hop + 1 }, .time o (corr + res + ingress v l) cyc ts⟩
    else ⟨{ fr.hdr with hop := fr.hdr.hop + 1, xflags := putBit fr.hdr.xflags 1 true }, .time o (corr + res) cyc ts⟩ := by
  unfold relayCopy
  rw [hbody]

end

/-- The port that the other end of the relay path leaves by. -/
def relayOut (l : Nat) : Nat := if l < 4 then l + 4 else l - 4

section
variable {fr : Frame} {res : Time}

/-- The relay's input has taken the frame: a telemetry frame of the next cell shows that its boot request is served. -/
def relayTaken (s : State) (t : Time) (l : Nat) (fr : Frame) : State :=
  let v := lnMod (s.at t) l (fun x => { x with lastGood := max s.clk t })
  if fr.hdr.ty = 2 ∧ fr.hdr.pos = myPos v + 1 then lnMod v l (fun x => { x with bootReq := false }) else v

/-- The output knows the frame as the latest one relayed to it. -/
def relayNoted (u : State) (l : Nat) (fr : Frame) (res : Time) : State :=
  lnMod u (relayOut l) (fun x => { x with relLast := some (relayCopy u l fr res) })

/-- The copy starts at once, or waits at an upstream output that is not free. -/
def relayGo (u : State) (l : Nat) (fr : Frame) (res : Time) : State :=
  let w := relayNoted u l fr res
  let out := relayOut l
  let inAt := stampAt u out u.clk - res
  if 4 ≤ l && (txBusy w out || !(lnOf w out).txq.isEmpty) then
    lnMod w out (fun x => { x with
      txq := x.txq ++ [(tyPrio fr.hdr.ty, relayCopy u l fr res)], relIn := x.relIn ++ [(relayCopy u l fr res, inAt, false)] })
  else relayStart (if l < 4 then abandon w out else w) out (relayCopy u l fr res) inAt false

theorem exec_frameRelay (hrel : relays (s.at t) l fr.hdr = true) : exec (.frameRelay t l fr res) s = .next (
    if !laneActive (relayTaken s t l fr) (relayOut l) then (relayTaken s t l fr).satAdd LNK_CNT3_DISCARD l
    else relayGo (relayTaken s t l fr) l fr res) := by
  refine congrArg Host.Outcome.next ((if_neg (by simp [hrel])).trans ?_)
  have htaken : (if fr.hdr.ty == 2 && fr.hdr.pos == myPos (lnMod (s.at t) l (fun x => { x with lastGood := max s.clk t })) + 1 then
      lnMod (lnMod (s.at t) l (fun x => { x with lastGood := max s.clk t })) l (fun x => { x with bootReq := false })
    else lnMod (s.at t) l (fun x => { x with lastGood := max s.clk t })) = relayTaken s t l fr := by
    unfold relayTaken
    simp only [Bool.and_eq_true, beq_iff_eq]
  rw [← htaken]
  rfl

theorem relayGo_down {u : State} {l : Nat} (hdown : l < 4) : relayGo u l fr res =
    relayStart (abandon (relayNoted u l fr res) (relayOut l)) (relayOut l) (relayCopy u l fr res)
      (stampAt u (relayOut l) u.clk - res) false := by
  rw [relayGo, if_neg (by simp [not_le.mpr hdown]), if_pos hdown]

theorem relayGo_free {u : State} {l : Nat} (hup : 4 ≤ l) (hfree : txBusy (relayNoted u l fr res) (relayOut l) = false)
    (hempty : (lnOf (relayNoted u l fr res) (relayOut l)).txq = []) : relayGo u l fr res =
    relayStart (relayNoted u l fr res) (relayOut l) (relayCopy u l fr res) (stampAt u (relayOut l) u.clk - res) false := by
  rw [relayGo, if_neg (by simp [hfree, hempty]), if_neg (not_lt.mpr hup)]

theorem relayGo_waits {u : State} {l : Nat} (hup : 4 ≤ l) (hbusy : txBusy (relayNoted u l fr res) (relayOut l) = true ∨
    (lnOf (relayNoted u l fr res) (relayOut l)).txq ≠ []) : relayGo u l fr res =
    lnMod (relayNoted u l fr res) (relayOut l) (fun x => { x with
      txq := x.txq ++ [(tyPrio fr.hdr.ty, relayCopy u l fr res)]
      relIn := x.relIn ++ [(relayCopy u l fr res, stampAt u (relayOut l) u.clk - res, false)] }) := by
  rw [relayGo, if_pos (by simpa [hup] using hbusy)]

theorem exec_frameRelay_idle (hrel : relays (s.at t) l fr.hdr = false) : exec (.frameRelay t l fr res) s = .next (s.at t) :=
  congrArg Host.Outcome.next (if_pos (by rw [hrel]; rfl))

end

/-! ### Frames that end badly (R280, R281, R288) -/

/-- The counter of a bad end. -/
def badCount : BadEnd → Fld
  | .cut => LNK_CNT0_PARTIAL
  | .errorBlock => LNK_CNT1_RELAYBAD
  | .badCrc => LNK_CNT0_CRC

theorem isStack_badCount (k : BadEnd) (l : Lane) (s : State) : isStack (s.satAdd (badCount k) l) = isStack s := by
  have hfar : ∀ F : Fld, F.addr * 32 + F.lo ≠ SYS_STRAP_ROLE.addr * 32 + SYS_STRAP_ROLE.lo →
      isStack (s.satAdd F l) = isStack s := fun F hF => by
    rw [isStack, isStack, State.flag, State.flag, fget_satAdd_other]
    exact Fld.key_ne (by omega) (by decide) hF.symm
  cases k with
  | cut => exact hfar _ (by decide)
  | errorBlock => exact hfar _ (by decide)
  | badCrc => exact hfar _ (by decide)

section
variable {k : BadEnd} {r : Bool}

theorem exec_frameCutShort (hyarid : isYarid s l = true) (hlock : 3 ≤ laneState s l) (htest : laneState s l ≠ L_TEST) :
    exec (.frameCutShort t l k r) s = .next (if r && (isUpPort s l || isDownPort s l) then
      relayBad ((s.at t).satAdd (badCount k) l) (relayOut l) else (s.at t).satAdd (badCount k) l) := by
  have hgo : ¬ (!isYarid (s.at t) l || decide (laneState (s.at t) l < L_LOCK) || laneState (s.at t) l == L_TEST) = true := by
    have hnot : decide (laneState s l < L_LOCK) = false := decide_eq_false (not_lt.mpr hlock)
    rw [isYarid_at, hyarid, laneState_at, hnot, beq_eq_false_iff_ne.mpr htest]
    decide
  have hrole : isStack ((s.at t).satAdd (badCount k) l) = isStack s := isStack_badCount k l (s.at t)
  have hup : isUpPort ((s.at t).satAdd (badCount k) l) l = isUpPort s l := by rw [isUpPort, hrole, isUpPort]
  have hdn : isDownPort ((s.at t).satAdd (badCount k) l) l = isDownPort s l := by rw [isDownPort, hrole, isDownPort]
  refine congrArg Host.Outcome.next ((if_neg hgo).trans ?_)
  rw [← hup, ← hdn]
  cases k <;> rfl

theorem exec_frameCutShort_idle (h : isYarid s l = false ∨ laneState s l < 3 ∨ laneState s l = L_TEST) :
    exec (.frameCutShort t l k r) s = .next (s.at t) := by
  refine congrArg Host.Outcome.next (if_pos ?_)
  rcases h with h | h | h
  · simp [h]
  · simp [L_LOCK, h]
  · simp [h]

end

section
variable {u : State} {out : Nat} {g : Frame}

theorem relayBad_sent (hlast : (lnOf u out).relLast = some g) (hgone : ∀ r ∈ (lnOf u out).relIn, r.1 ≠ g)
    (hsent : (lnOf u out).sent = some g) : relayBad u out = lnMod u out (fun x => { x with sentBad := true }) := by
  have hnone : ¬ (lnOf u out).relIn.any (fun r => some r.1 == (lnOf u out).relLast) = true := by
    rw [List.any_eq_true]
    rintro ⟨r, hr, heq⟩
    exact hgone r hr (Option.some.inj ((beq_iff_eq.mp heq).trans hlast))
  refine lnMod_congr ((if_neg hnone).trans (if_pos ?_))
  simp [hlast, hsent]

theorem relayBad_waiting (hlast : (lnOf u out).relLast = some g) (hwaits : ∃ r ∈ (lnOf u out).relIn, r.1 = g) :
    relayBad u out = lnMod u out (fun x => { x with
      relIn := x.relIn.map (fun r => if r.1 = g then (r.1, r.2.1, true) else r) }) := by
  have hsome : (lnOf u out).relIn.any (fun r => some r.1 == (lnOf u out).relLast) = true := by
    simpa [hlast] using hwaits
  refine lnMod_congr ((if_pos hsome).trans ?_)
  simp [hlast]

end

/-- Settles O43: each clause by the lemma of its command. -/
theorem lanesSendTheirFrames : Obligations.LanesSendTheirFrames := by
  refine ⟨fun t l s => ⟨fun hst hdue => exec_capsSend hst hdue, exec_capsSend_idle, ?_, exec_idleTimer, exec_idleTimer_idle⟩,
    ?_, fun l fr res u => ⟨relayCopy_plain, fun o corr cyc ts hb hvalid => ?_, fun o corr cyc ts hb hvalid => ?_⟩,
    fun out g inAt bad u => rfl, fun t l fr res s hrel => exec_frameRelay_idle hrel, ?_,
    fun t l k r s h => exec_frameCutShort_idle h,
    fun u out g hlast => ⟨fun hgone hsent => relayBad_sent hlast hgone hsent, relayBad_waiting hlast⟩⟩
  case refine_1 =>
    intro v go out
    refine ⟨fun f q r hact hfree htake hrel => exec_laneTxReady_relayed rfl hact hfree htake hrel, ?_, ?_, ?_,
      exec_laneTxReady_idle rfl⟩
    · intro f q hact hfree htake hown hty
      have hexec := exec_laneTxReady_own rfl hact hfree htake hown
      rw [ownStart_other hty] at hexec
      refine ⟨fun hidle htime => ?_, fun a corr cyc ts hb => ?_⟩
      · rw [hexec, startedFrame_plain hidle htime]
        rfl
      · rw [hexec, startedFrame_time hb]
        rfl
    · intro f q a b hact hfree htake hown hty hb hd
      rw [exec_laneTxReady_own rfl hact hfree htake hown, ownStart_idle hty hd, startedFrame_idle hb, isDrsp, hd, hty]
      rfl
    · intro f q a b hact hfree htake hown hty hb hd
      have hexec := exec_laneTxReady_own rfl hact hfree htake hown
      refine ⟨fun hnone => ?_, fun t2 hreq => ?_⟩
      · rw [hexec, ownStart_drsp_late hty hd (.inl hnone)]
        rfl
      · have hturn : turnNow v l = (stampAt v l v.clk - t2) / 16384 := by rw [turnNow, hreq]
        intro turn
        refine ⟨fun hlate => ?_, fun hsoon => ?_⟩
        · rw [hexec, ownStart_drsp_late hty hd (.inr (hturn ▸ hlate))]
          rfl
        · rw [hexec, ownStart_drsp hty hd hreq (hturn ▸ hsoon), startedFrame_idle hb, isDrsp_of hty hd, hturn, hty]
          rfl
  case refine_2 =>
    intro t l fr res s hrel out v u
    have hexec : exec (.frameRelay t l fr res) s = .next (
        if !laneActive u out then u.satAdd LNK_CNT3_DISCARD l else relayGo u l fr res) := exec_frameRelay hrel
    refine ⟨fun hoff => ?_, fun hon => ?_⟩
    · rw [hexec, hoff]
      rfl
    · rw [hon] at hexec
      intro g inAt w
      refine ⟨fun hdown => ?_, fun hup hfree hempty => ?_, fun hup hbusy => ?_⟩
      · exact hexec.trans (congrArg Host.Outcome.next (relayGo_down hdown))
      · exact hexec.trans (congrArg Host.Outcome.next (relayGo_free hup hfree hempty))
      · exact hexec.trans (congrArg Host.Outcome.next (relayGo_waits hup hbusy))
  case refine_3 =>
    rw [relayCopy_time hb, if_pos (flag_eq_true.mpr hvalid)]
  case refine_4 =>
    rw [relayCopy_time hb, if_neg (fun h => hvalid (flag_eq_true.mp h))]
  case refine_5 =>
    intro t l s hyarid hlock htest e he u
    have hcount : badCount e.1 = e.2 := by
      simp only [List.mem_cons, List.not_mem_nil, or_false] at he
      rcases he with rfl | rfl | rfl <;> rfl
    have hu : (s.at t).satAdd (badCount e.1) l = u := by rw [hcount]
    refine ⟨fun r hr => ?_, fun hport => ?_⟩
    · rw [exec_frameCutShort hyarid hlock htest, hu, if_neg]
      rcases hr with h | ⟨hup, hdn⟩
      · rw [h, Bool.false_and]; decide
      · rw [hup, hdn, Bool.or_false, Bool.and_false]; decide
    · rw [exec_frameCutShort hyarid hlock htest, hu, if_pos]
      · rfl
      · simpa using hport

end Sys2Proof.Machine
end

section
/-! What a frame that passes its checks does: CAPS, IDLE, TRIG, XCHK, RACK and RRA frames. -/
namespace Sys2Proof.Machine

section
variable {t : Time} {l : Lane} {fr : Frame} {s u : State}

/-! ### CAPS and IDLE frames (R275 to R278): a cell that asks for its firmware is served at once -/

theorem exec_capsFrame : exec (.capsFrame t l fr) s = .next (if isChainLane (capsRx (s.at t) l fr) l &&
    (lnOf (capsRx (s.at t) l fr) l).bootReq then offerStart (capsRx (s.at t) l fr) l 0 else capsRx (s.at t) l fr) := rfl

theorem exec_idleFrame {rx : Time} : exec (.idleFrame t l rx fr) s = .next (if isChainLane (idleRx (s.at t) l rx fr) l &&
    (lnOf (idleRx (s.at t) l rx fr) l).bootReq then offerStart (idleRx (s.at t) l rx fr) l 0 else idleRx (s.at t) l rx fr) := rfl

/-! ### Frames that are not for the handler: they fail the checks, or carry another payload -/

theorem exec_trigFrame_idle {ok : Bool} (hrx : rxCheck (s.at t) l fr = (ok, u)) (h : ok = false ∨ bodyTy fr.body ≠ 4) :
    exec (.trigFrame t l fr) s = .next u := by
  show execTrigFrame t l fr s = _
  unfold execTrigFrame
  rw [hrx]
  cases hbody : fr.body
  case trig =>
    obtain rfl := h.resolve_right fun hty => hty (by rw [hbody]; rfl)
    rfl
  all_goals rfl

theorem exec_xchkFrame_idle {ok : Bool} (hrx : rxCheck (s.at t) l fr = (ok, u)) (h : ok = false ∨ bodyTy fr.body ≠ 6) :
    exec (.xchkFrame t l fr) s = .next u := by
  show execXchkFrame t l fr s = _
  unfold execXchkFrame
  rw [hrx]
  cases hbody : fr.body
  case xchk =>
    obtain rfl := h.resolve_right fun hty => hty (by rw [hbody]; rfl)
    rfl
  all_goals rfl

theorem exec_rackFrame_idle {ok : Bool} (hrx : rxCheck (s.at t) l fr = (ok, u)) (h : ok = false ∨ bodyTy fr.body ≠ 5) :
    exec (.rackFrame t l fr) s = .next u := by
  show execRackFrame t l fr s = _
  unfold execRackFrame
  rw [hrx]
  cases hbody : fr.body
  case rack =>
    obtain rfl := h.resolve_right fun hty => hty (by rw [hbody]; rfl)
    rfl
  all_goals rfl

theorem exec_rraFrame_idle {ok : Bool} {cfg : Option CfgBody} (hrx : rxCheck (s.at t) l fr = (ok, u))
    (h : ok = false ∨ bodyTy fr.body ≠ 7) : exec (.rraFrame t l fr cfg) s = .next u := by
  show execRraFrame t l fr cfg s = _
  unfold execRraFrame
  rw [hrx]
  cases hbody : fr.body
  case rra =>
    obtain rfl := h.resolve_right fun hty => hty (by rw [hbody]; rfl)
    rfl
  all_goals rfl

/-! ### TRIG, XCHK and RACK frames that pass (R272 to R274, R356) -/

section
variable (hrx : rxCheck (s.at t) l fr = (true, u))
include hrx

section
variable {t0 cause origin n : Nat} (hbody : fr.body = .trig t0 cause origin n)
include hbody

/-- The triggers seen in the last millisecond. -/
def trigLive (u : State) : List (Nat × Nat × Time) := u.link.trigSeen.filter (fun e => decide (u.clk < e.2.2 + msT))

theorem exec_trigFrame : exec (.trigFrame t l fr) s = .next (
    if (trigLive u).any (fun e => e.1 == origin && e.2.1 == n) then { u with link.trigSeen := trigLive u }
    else captureLink (routeTrig { u with link.trigSeen := trigLive u ++ [(origin, n, u.clk)] } l t0 cause origin n)
      t0 cause origin n) := by
  show execTrigFrame t l fr s = _
  unfold execTrigFrame
  rw [hrx, hbody]
  rfl

end

theorem exec_xchkFrame {ws : List Nat} (hbody : fr.body = .xchk ws) : exec (.xchkFrame t l fr) s =
    .next (xchkRx u fr.hdr.sid (fr.hdr.chain * 8 + fr.hdr.pos) fr.hdr.cycle fr.hdr.xflags ws) := by
  show execXchkFrame t l fr s = _
  unfold execXchkFrame
  rw [hrx, hbody]
  rfl

theorem exec_rackFrame {rs : List RackRec} (hbody : fr.body = .rack rs) :
    exec (.rackFrame t l fr) s = .next (rackRecs u l (farSid u l) fr.hdr.cycle rs) := by
  show execRackFrame t l fr s = _
  unfold execRackFrame
  rw [hrx, hbody]
  rfl

end

theorem trigSeen_iff {live : List (Nat × Nat × Time)} {origin n : Nat} :
    live.any (fun e => e.1 == origin && e.2.1 == n) = true ↔ ∃ c, (origin, n, c) ∈ live := by
  simp

/-! ### RRA frames that pass (R275, R276) -/

/-- The device takes no register access from the lane in this state, or the frame is not addressed to it. -/
def rraDeaf (u : State) (l : Nat) (h : Hdr) : Bool :=
  !forMe u l h || isDownPort u l || (u.sys.phase != .firmware && u.sys.phase != .netboot) || u.sys.halted

theorem rraDeaf_iff {l : Nat} {h : Hdr} : rraDeaf u l h = true ↔ forMe u l h = false ∨ isDownPort u l = true ∨
    (u.sys.phase ≠ .firmware ∧ u.sys.phase ≠ .netboot) ∨ u.sys.halted = true := by
  simp [rraDeaf, or_assoc]

section
variable {op mbx count st w1 w2 : Nat} {last : Bool} {data : List Nat} {cfg : Option CfgBody}

/-- What an RRA frame does that is heard, by its OP. -/
def rraTaken (u : State) (l : Nat) (h : Hdr) (cfg : Option CfgBody) (op mbx count st w1 w2 : Nat) (last : Bool)
    (data : List Nat) : State :=
  if op == 10 then
    let d := if isChainLane u l then h.chain * 8 + h.pos else 256 + farSid u l
    if !isStack u then u
    else if isChainLane u l && mbx == 0 && w1 / 65536 % 0x8000 == 0x10 then if last then offerAnswer u d st else u
    else remoteRx u d mbx (w1 / 65536) (w2 / 65536) st (w1 % 65536) (w2 % 8192) last data
  else if op == 8 || op == 9 then if isPeerLane u l then billAnswer u (farSid u l) op st w1 data else u
  else if 2 < op then rraUnknown u l h mbx count w1 w2
  else if !laneServes u l then u
  else match cfg with
  | some b =>
    if isStack u || u.sys.phase != .firmware then u
    else rraAnswer (cellCfgTake u l h.epoch b).2 l 9 mbx count (cellCfgTake u l h.epoch b).1 w1 w2 []
  | none => if op == 2 then rraPost u l h mbx last w1 w2 data else rraAccess u l h (op == 1) mbx count w1 w2 data

theorem exec_rraFrame (hrx : rxCheck (s.at t) l fr = (true, u)) (hbody : fr.body = .rra op mbx last count st w1 w2 data) :
    exec (.rraFrame t l fr cfg) s = .next (if rraDeaf u l fr.hdr then u
      else rraTaken u l fr.hdr cfg op mbx count st w1 w2 last data) := by
  show execRraFrame t l fr cfg s = _
  unfold execRraFrame
  rw [hrx, hbody]
  rfl

theorem exec_rraFrame_deaf (hrx : rxCheck (s.at t) l fr = (true, u)) (hdeaf : rraDeaf u l fr.hdr = true) :
    exec (.rraFrame t l fr cfg) s = .next u := by
  cases hbody : fr.body
  case rra => rw [exec_rraFrame hrx hbody, if_pos hdeaf]
  all_goals exact exec_rraFrame_idle hrx (.inr (by simp [hbody, bodyTy]))

/-! The requests, OP 0 to 2, are served on the lanes that serve them. -/

section
variable {l : Nat} {h : Hdr} (hop : op < 3)
include hop

theorem rraTaken_request : rraTaken u l h cfg op mbx count st w1 w2 last data =
    if !laneServes u l then u
    else match cfg with
    | some b =>
      if isStack u || u.sys.phase != .firmware then u
      else rraAnswer (cellCfgTake u l h.epoch b).2 l 9 mbx count (cellCfgTake u l h.epoch b).1 w1 w2 []
    | none => if op == 2 then rraPost u l h mbx last w1 w2 data else rraAccess u l h (op == 1) mbx count w1 w2 data := by
  have h10 : ¬ (op == 10) = true := by simp; omega
  have h89 : ¬ (op == 8 || op == 9) = true := by simp; omega
  exact ((if_neg h10).trans (if_neg h89)).trans (if_neg (by omega))

theorem rraTaken_unserved (hserves : laneServes u l = false) :
    rraTaken u l h cfg op mbx count st w1 w2 last data = u := by
  rw [rraTaken_request hop, hserves]
  rfl

section
variable (hserves : laneServes u l = true)
include hserves

theorem rraTaken_plain : rraTaken u l h none op mbx count st w1 w2 last data =
    if op == 2 then rraPost u l h mbx last w1 w2 data else rraAccess u l h (op == 1) mbx count w1 w2 data := by
  rw [rraTaken_request hop, hserves]
  rfl

theorem rraTaken_cfg (b : CfgBody) : rraTaken u l h (some b) op mbx count st w1 w2 last data =
    if isStack u || u.sys.phase != .firmware then u
    else rraAnswer (cellCfgTake u l h.epoch b).2 l 9 mbx count (cellCfgTake u l h.epoch b).1 w1 w2 [] := by
  rw [rraTaken_request hop, hserves]
  rfl

end
end

/-! The answers, OP 8 to 10, and the operations that there are not. -/

section
variable {l : Nat} {h : Hdr}

theorem rraTaken_billAnswer (hop : op = 8 ∨ op = 9) : rraTaken u l h cfg op mbx count st w1 w2 last data =
    if isPeerLane u l then billAnswer u (farSid u l) op st w1 data else u := by
  have h10 : ¬ (op == 10) = true := by simp; omega
  exact (if_neg h10).trans (if_pos (by simpa using hop))

theorem rraTaken_remote : rraTaken u l h cfg 10 mbx count st w1 w2 last data =
    if !isStack u then u
    else if isChainLane u l && mbx == 0 && w1 / 65536 % 0x8000 == 0x10 then
      if last then offerAnswer u (if isChainLane u l then h.chain * 8 + h.pos else 256 + farSid u l) st else u
    else remoteRx u (if isChainLane u l then h.chain * 8 + h.pos else 256 + farSid u l) mbx (w1 / 65536) (w2 / 65536) st
      (w1 % 65536) (w2 % 8192) last data := if_pos rfl

theorem rraTaken_unknown (hop : 3 ≤ op) (h8 : op ≠ 8) (h9 : op ≠ 9) (h10 : op ≠ 10) :
    rraTaken u l h cfg op mbx count st w1 w2 last data = rraUnknown u l h mbx count w1 w2 :=
  ((if_neg (by simpa using h10)).trans (if_neg (by simp [h8, h9]))).trans (if_pos (by omega))

end
end
end

/-- Settles O44: each frame by the lemma of its payload; an RRA frame that is heard, by its OP. -/
theorem framesAreTaken : Obligations.FramesAreTaken := by
  refine ⟨fun t l fr s => ⟨?_, fun rx => ?_⟩, fun t l fr s u hrx => ⟨fun t0 cause origin n hbody => ?_,
      fun ws => exec_xchkFrame hrx, fun rs => exec_rackFrame hrx, ?_⟩,
    fun t l fr cfg s u hrx hdeaf => exec_rraFrame_deaf hrx (rraDeaf_iff.mpr hdeaf),
    fun t l fr cfg s u hrx => ⟨fun h => exec_trigFrame_idle hrx (.inr h), fun h => exec_rackFrame_idle hrx (.inr h),
      fun h => exec_xchkFrame_idle hrx (.inr h), fun h => exec_rraFrame_idle hrx (.inr h)⟩,
    fun t l fr cfg s u hrx => ⟨exec_trigFrame_idle hrx (.inl rfl), exec_xchkFrame_idle hrx (.inl rfl),
      exec_rackFrame_idle hrx (.inl rfl), exec_rraFrame_idle hrx (.inl rfl)⟩⟩
  case refine_1 =>
    exact ⟨fun h => exec_capsFrame.trans (congrArg Host.Outcome.next (if_neg (mt (Bool.and_eq_true _ _).mp h))),
      fun h => exec_capsFrame.trans (congrArg Host.Outcome.next (if_pos ((Bool.and_eq_true _ _).mpr h)))⟩
  case refine_2 =>
    exact ⟨fun h => exec_idleFrame.trans (congrArg Host.Outcome.next (if_neg (mt (Bool.and_eq_true _ _).mp h))),
      fun h => exec_idleFrame.trans (congrArg Host.Outcome.next (if_pos ((Bool.and_eq_true _ _).mpr h)))⟩
  case refine_3 =>
    intro live
    refine ⟨fun hseen => ?_, fun hnew => ?_⟩
    · exact (exec_trigFrame hrx hbody).trans (congrArg Host.Outcome.next (if_pos (trigSeen_iff.mpr hseen)))
    · exact (exec_trigFrame hrx hbody).trans (congrArg Host.Outcome.next (if_neg fun h => (trigSeen_iff.mp h).elim hnew))
  case refine_4 =>
    intro op mbx last count st w1 w2 data hbody hme hdn hphase hhalt
    have hheard : ¬ rraDeaf u l fr.hdr = true := by
      rw [rraDeaf_iff, hme, hdn, hhalt]
      rcases hphase with h | h <;> simp [h]
    have hexec (c : Option CfgBody) : exec (.rraFrame t l fr c) s =
        .next (rraTaken u l fr.hdr c op mbx count st w1 w2 last data) := by
      rw [exec_rraFrame hrx hbody, if_neg hheard]
    simp only [hexec, Host.Outcome.next.injEq]
    refine ⟨fun hserves hop => ?_, fun hserves hop => ?_, fun b hserves hcell hfw hop => ?_, fun b hserves hnot hop => ?_,
      fun c hserves hop => rraTaken_unserved hop hserves, fun c hop => ⟨fun hpeer => ?_, fun hpeer => ?_⟩,
      fun c hop => ⟨fun hcell => ?_, fun hstack => ?_⟩, fun c h3 h8 h9 h10 => rraTaken_unknown h3 h8 h9 h10⟩
    · rw [rraTaken_plain (by omega) hserves, if_neg (by simp; omega)]
    · rw [rraTaken_plain (by omega) hserves, if_pos (by simpa using hop)]
    · rw [rraTaken_cfg hop hserves, if_neg (by simp [hcell, hfw])]
    · rw [rraTaken_cfg hop hserves, if_pos (by simpa using hnot)]
    · rw [rraTaken_billAnswer hop, if_pos hpeer]
    · rw [rraTaken_billAnswer hop, hpeer]
      rfl
    · subst hop
      rw [rraTaken_remote, hcell]
      rfl
    · subst hop
      have hoffer : (isChainLane u l && mbx == 0 && w1 / 65536 % 0x8000 == 0x10) = true ↔
          isChainLane u l = true ∧ mbx = 0 ∧ w1 / 65536 % 0x8000 = 0x10 := by simp [and_assoc]
      rw [rraTaken_remote, hstack]
      exact ⟨fun h => if_neg (mt hoffer.mp h), fun h => if_pos (hoffer.mpr h)⟩

end Sys2Proof.Machine
end
